-- ==== Sys2Proof/Word.lean ====
section
/-!
DEFINITION. Words of the device: the register word (R6), the 64-bit register of a thread (R87) and the byte.
-/
namespace Sys2Proof

/-- A register word: every register is 32 bits wide (R6). -/
abbrev Word := BitVec 32

/-- A general register of a thread (R87). -/
abbrev DWord := BitVec 64

/-- A byte of memory; memory and registers are little-endian (R3). -/
abbrev Byte := BitVec 8

end Sys2Proof
end

