-- ==== Sys2Proof/Machine/Types.lean ====
section
/-!
DEFINITION. The names that commands and state share: status codes, node states, configuration groups.
-/
namespace Sys2Proof.Machine

/-- The status codes of R22; the device returns no other code. -/
inductive Status where
  | ok | empty | late | trunc | broken
  | refused | busy | overload | cfgerr | nosuch | denied
  | timeout | aborted | fault | lost
deriving DecidableEq, Repr

/-- The 8-bit code of a status (R22). -/
def Status.code : Status → Nat
  | .ok => 0x00 | .empty => 0x01 | .late => 0x02 | .trunc => 0x03 | .broken => 0x04
  | .refused => 0x10 | .busy => 0x11 | .overload => 0x12 | .cfgerr => 0x13 | .nosuch => 0x14 | .denied => 0x15
  | .timeout => 0x20 | .aborted => 0x21 | .fault => 0x22 | .lost => 0x23

/-- A code reports a refusal (class 0x10 to 0x1F of R21). -/
def Status.isRefusal (x : Status) : Bool := decide (0x10 ≤ x.code ∧ x.code < 0x20)

/-- The configuration groups: one commit bit each (R9, R10). -/
inductive Group where
  | tb0lock
  | sg (n : Nat)
  | lg (n : Nat)
  | route
  | tr (b : Nat)
  | axcfg (n : Nat)
  | axtpl (n : Nat)
  | sd (n : Nat)
  | sdclk
  | mot (n : Nat)
  | vm (m : Nat)
  | cam (c : Nat)
  | adc (n : Nat)
  | herdcyc
  | slot (p : Nat)
  | ethcfg (n : Nat)
  | ethgcl (n : Nat)
  | can (n : Nat)
  | capts (n : Nat)
  | capttr (u : Nat)
  | red
deriving DecidableEq, Repr

/-- The node states of R35, with the codes of BHR_STAT. -/
inductive NodeState where
  | boot | load | start | normal | test | recovery | safeHold
deriving DecidableEq, Repr

/-- The code of a node state in BHR_STAT and in the event records. -/
def NodeState.code : NodeState → Nat
  | .boot => 0 | .load => 1 | .start => 2 | .normal => 3 | .test => 4 | .recovery => 5 | .safeHold => 6

/-- The node state of a code; 7 does not occur. -/
def NodeState.ofCode : Nat → NodeState
  | 0 => .boot | 1 => .load | 2 => .start | 3 => .normal | 4 => .test | 5 => .recovery | _ => .safeHold

end Sys2Proof.Machine
end

