-- ==== Sys2Proof/Syntax.lean ====
section
/-!
DEFINITION. The commands of the block, one constructor for each row of spec/opcode_table.json, with the operands that
reach the device from outside: addresses and values of an access, received bytes, levels, measured times. A command that
an event of the device's own brings about names the place of the event.
-/
namespace Sys2Proof

open Sys2Proof.Machine

/-- What Chamois meets in a safety cycle from outside (R482): the 10 µs sub-samples of the balls SIk_A and SIk_B as
16-bit masks, the STO and SO pads as channels A and B read them back, the external readbacks SOk_FBA and SOk_FBB,
STOFBn as each channel reads it, and the type of an internal fault found in the cycle, 0 for none (R503). -/
structure SafeSample where
  subs : List (Nat × Nat)
  stoA : Nat
  stoB : Nat
  soA : Nat
  soB : Nat
  fbA : Nat
  fbB : Nat
  stofbA : Nat
  stofbB : Nat
  internal : Nat
deriving DecidableEq, Repr

/-- What the board's DDR memory turns out to be when LOAD ends (R558): whether memory is fitted, its density and number of
ranks as MESH_DDR_CFG codes them, whether the training succeeded, and t_RC in ps and t_RFC in ns as MESH_DDR_TIM shows them. -/
structure DdrBoard where
  fitted : Bool
  density : Nat
  twoRanks : Bool
  trained : Bool
  tRc : Nat
  tRfc : Nat
deriving DecidableEq, Repr

/-- What an instruction of the debug port asks for (R607, R648). -/
inductive TapFn where
  | idcode
  | bypass
  | sample
  | extest
  | halt (t : Nat)
  | step (t : Nat)
  | run (t : Nat)
  | inspect (t : Nat)
  | meshRead (a : Nat)
  | meshWrite (a v : Nat)
deriving DecidableEq, Repr

/-- What a feedback frame receives: its bits in order, and for each TURN of its template the bit times before the start bit;
none left at a TURN means that no start bit came (R290, R291). -/
structure FrameRx where
  bits : List Bool
  turns : List Nat
deriving DecidableEq, Repr

/-- An ACTIVATE: its operation, or none for a command of the host, and whether the flash meets a program or erase error
(R608). -/
structure SlotAsk where
  id : Option Nat
  failed : Bool
deriving DecidableEq, Repr

/-- The commands of the device: one constructor for each row of the table, in its order. -/
inductive Instr where
  /-- REGISTER_WRITE (R4): A write to a register that has no row of its own; each field takes its value under its access code. -/
  | registerWrite (port a : Nat) (v : Word)
  /-- RC_READ (R4): A read of a register with RC fields returns the value and then clears those fields. -/
  | rcRead (port a : Nat)
  /-- LOW_WORD_READ (R8): A read of the low word of a 64-bit register latches its high word into the shared latch. -/
  | lowWordRead (port a : Nat)
  /-- COMMIT_REQUEST (R10): Writing 1 to a group bit of a COMMIT register requests a commit at the block's next boundary. -/
  | commitRequest (g : Group)
  /-- COMMIT_APPLY (R15): At the boundary the block checks the shadow group and either moves it into use or refuses it with CFGERR. -/
  | commitApply (g : Group)
  /-- MESH_REQUEST (R545): A requesting port presents a burst request to the arbiter of its target port. -/
  | meshRequest (port cls a n : Nat) (wr : Bool) (d : List Byte)
  /-- MESH_GRANT (R549): When the path becomes free, the arbiter grants the oldest request on the Nth grant, and otherwise the highest effective class. -/
  | meshGrant (t : Nat)
  /-- NTH_WRITE (R553): A write of nth takes effect at the next grant of every arbiter and restarts their counts. -/
  | nthWrite (v : Word)
  /-- SCRUB_READ (R556): The scrubber reads a memory word in an idle cycle so that every word is read once every scrub_h hours. -/
  | scrubRead (w : Nat)
  /-- REFIN_LOSS (R45): TB_REFIN becomes absent while in use, and the PLL changes to the crystal without a phase step. -/
  | refinLoss
  /-- REFIN_RETURN (R45): After 1 ms of continuous presence with refin_en set, the PLL returns to TB_REFIN. -/
  | refinReturn
  /-- REFIN_EN_WRITE (R45): A write of refin_en changes the PLL reference at once, or once TB_REFIN has been present for 1 ms. -/
  | refinEnWrite (v : Word)
  /-- TB_PLL_UNLOCK (R46): The TB PLL loses lock; it holds its control value and Bharal moves a node in START or NORMAL to RECOVERY. -/
  | tbPllUnlock
  /-- INC_HI_WRITE (R48): A write of TIME_TBn_INC_HI applies the whole increment from the next tick, or is refused when it is out of range. -/
  | incHiWrite (n : Nat) (v : Word)
  /-- TIME_ADJ_GO (R54): Writing go of TIME_TBn_ADJCTL requests a step, slew or set of the base, checked in the order of R54. -/
  | timeAdjGo (n : Nat) (v : Word)
  /-- SLEW_END (R53): A slew ends once its whole amount has been added tick by tick. -/
  | slewEnd (n : Nat)
  /-- TIME_SNAP_WRITE (R67): Writing snap captures all eight bases on one TB tick into the SNAP registers. -/
  | timeSnapWrite (v : Word)
  /-- TRIG_EDGE (R68): A qualified edge on a stamp channel is stamped with the chosen base and placed in the channel's FIFO. -/
  | trigEdge (ch : Nat) (rising : Bool) (f : Nat)
  /-- TRIG_OUT0_READ (R71): A read of TIME_TRIGn_OUT0 removes the oldest stamp from the FIFO into OUT0 to OUT2. -/
  | trigOut0Read (ch : Nat)
  /-- PPS_OUT_PULSE (R73): PPS_OUT rises when the chosen base counts through a second boundary, delayed by outdly_ps. -/
  | ppsOutPulse
  /-- PPS_PULSE_END (R73): PPS_OUT falls after width_us microseconds. -/
  | ppsPulseEnd
  /-- GRID_BOUNDARY (R40): A grid base reaches a boundary time; the strobe is issued and carriers, samples and references of the bound blocks act. `sd` says nothing: the filters follow from the state. -/
  | gridBoundary (g : Nat) (sd : Unit)
  /-- TIMED_OP_DUE (R169): TB0 reaches the stated time of a waiting non-grid operation, and the operation acts. -/
  | timedOpDue (id : Nat)
  /-- HOLDOVER_LIMIT (R62): TB0 has been in HOLDOVER longer than hold_limit; hold_exceeded is set. -/
  | holdoverLimit
  /-- SYNC_INTERVALS_MISSED (R60): Four sync intervals pass without an exchange result, and TB0 leaves LOCKED for HOLDOVER. -/
  | syncIntervalsMissed
  /-- TIME_SNAP (R85): TIME operation SNAP captures all bases on one tick into its payload. -/
  | timeSnap (id : Nat)
  /-- TIME_ADJUST (R85): TIME operation ADJUST requests a step, slew or set of a base under R54. -/
  | timeAdjust (id : Nat)
  /-- TIME_COMMIT (R85): TIME operation COMMIT requests a commit of a grid, lock group or TB0LOCK group. -/
  | timeCommit (id : Nat)
  /-- TIME_BOUNDARY (R85): TIME operation BOUNDARY completes at the grid's next boundary, or REFUSED when the grid is not running. -/
  | timeBoundary (id : Nat)
  /-- INT_ALU (R100): An R-format integer instruction writes its result to rd. -/
  | intAlu (t : Nat)
  /-- INT_IMM (R102): An I-format integer instruction writes rs1 combined with the immediate to rd. -/
  | intImm (t : Nat)
  /-- CMP (R103): A register comparison writes a predicate. -/
  | cmp (t : Nat)
  /-- CMPI (R104): A comparison with an immediate writes a predicate. -/
  | cmpi (t : Nat)
  /-- PRED_LOGIC (R105): A predicate instruction combines predicates into pd. -/
  | predLogic (t : Nat)
  /-- FLOAT_OP (R106): A floating-point instruction computes its result in binary32 or binary64. -/
  | floatOp (t : Nat)
  /-- FCMP (R110): A floating-point comparison writes a predicate. -/
  | fcmp (t : Nat)
  /-- MEM_LOAD (R111): A load reads memory into rd, locally or through the Mesh, after address checks. -/
  | memLoad (t : Nat)
  /-- MEM_STORE (R111): A store writes rd to memory, locally or as a posted Mesh store. -/
  | memStore (t : Nat)
  /-- STORE_ACK (R114): The Mesh acknowledges a posted store once its write has taken effect at the target. -/
  | storeAck (t i : Nat)
  /-- STORE_REFUSED (R116): A refused posted store makes the thread raise an imprecise BUSERR at its next issue. -/
  | storeRefused (t i : Nat)
  /-- SIGRD (R117): sigrd reads the newest entry of a signal. -/
  | sigrd (t : Nat)
  /-- SIGWR (R117): sigwr writes a value to a signal stamped with now. -/
  | sigwr (t : Nat)
  /-- SIGWRT (R117): sigwrt writes a value to a signal with a given stamp. -/
  | sigwrt (t : Nat)
  /-- SIGAS_H (R117): sigas.h makes an as-of read holding the entry at or before the time. -/
  | sigasH (t : Nat)
  /-- SIGAS_I (R117): sigas.i makes an as-of read interpolating between the bracketing entries. -/
  | sigasI (t : Nat)
  /-- SIGHIST (R117): sighist reads one history entry of a signal. -/
  | sighist (t : Nat)
  /-- BR (R120): br branches to a pc-relative target. -/
  | br (t : Nat)
  /-- CALL (R120): call branches and writes the return address to rd. -/
  | call (t : Nat)
  /-- JR (R120): jr branches to rs1 plus the immediate and writes the link. -/
  | jr (t : Nat)
  /-- SEQUENTIAL_FETCH_END (R121): pc advances past 0x3_FFFC and the thread raises IFETCH. -/
  | sequentialFetchEnd (t : Nat)
  /-- OP (R123): op issues an operation to a unit and makes its handle PENDING. -/
  | op (t : Nat)
  /-- OPX (R122): opx issues an operation with the object number taken from the extension word. -/
  | opx (t : Nat)
  /-- AT (R125): at dates the operation that follows it to a TS64 on TB0. -/
  | atT (t : Nat)
  /-- OP_ACCEPT (R656): The unit has read the descriptor, checks it under R152 and accepts or refuses the operation. -/
  | opAccept (id : Nat)
  /-- OP_COMPLETE (R157): An operation completes; its results and record are written, the handle becomes DONE and the event is raised. -/
  | opComplete (id : Nat)
  /-- HSTAT (R126): hstat returns the summary of a handle register. -/
  | hstat (t : Nat)
  /-- HREL (R126): hrel frees a DONE handle. -/
  | hrel (t : Nat)
  /-- HCAN (R159): hcan sends a cancel request for a PENDING operation to its unit. -/
  | hcan (t : Nat)
  /-- HMASK (R126): hmask returns the masks of DONE and PENDING handles. -/
  | hmask (t : Nat)
  /-- WAIT_ANY (R127): wait.any waits until a handle of the mask is DONE or none is PENDING, or until timeout. -/
  | waitAny (t : Nat)
  /-- WAIT_ALL (R127): wait.all waits until no handle of the mask is PENDING, or until timeout. -/
  | waitAll (t : Nat)
  /-- WAIT_TIMEOUT (R128): A wait reaches its deadline and returns with pd = 0. -/
  | waitTimeout (t : Nat)
  /-- FENCE (R129): fence waits for every earlier operation and posted store of the thread. -/
  | fence (t : Nat)
  /-- FENCE_M (R129): fence.m waits for the thread's earlier posted stores. -/
  | fenceM (t : Nat)
  /-- LOCK (R130): lock takes a hardware lock, waiting in order while another thread holds it. -/
  | lock (t : Nat)
  /-- TRYLOCK (R130): trylock takes a free lock or returns BUSY. -/
  | trylock (t : Nat)
  /-- UNLOCK (R130): unlock releases a lock held by the thread and hands it to the first waiter. -/
  | unlock (t : Nat)
  /-- NOP (R133): nop does nothing. -/
  | nop (t : Nat)
  /-- YIELD (R149): yield defers the thread until the other ready threads have issued once. -/
  | yield (t : Nat)
  /-- HALT (R145): halt stops the thread, releases its locks as broken and leaves its operations as orphans. -/
  | halt (t : Nat)
  /-- MFS (R133): mfs reads a special register. -/
  | mfs (t : Nat)
  /-- MFP (R133): mfp reads the predicates into rd. -/
  | mfp (t : Nat)
  /-- MTP (R133): mtp writes the predicates from rs1. -/
  | mtp (t : Nat)
  /-- TRAP (R134): trap raises fault TRAP with the trap code. -/
  | trap (t : Nat)
  /-- LI (R135): li loads a sign-extended immediate. -/
  | li (t : Nat)
  /-- LIH (R135): lih loads the upper half of rd. -/
  | lih (t : Nat)
  /-- THREAD_START (R141): Writing start starts a thread that is not RUNNING, or sets cfgerr when it is. -/
  | threadStart (t : Nat)
  /-- THREAD_STOP (R142): Writing stop ends a RUNNING thread at its next instruction boundary. -/
  | threadStop (t : Nat)
  /-- FAULT_RESTART (R179): With fault_act 1 and restarts below max_restarts, the cluster restarts the faulted thread within 16 cycles. -/
  | faultRestart (t : Nat)
  /-- LOCK_FORCE_BREAK (R174): Writing force_break releases a held lock as broken. -/
  | lockForceBreak (n : Nat)
  /-- WARM_RESTART (R182): A warm restart resets the SP cluster, PCIe endpoint and DMA while the rest runs on. -/
  | warmRestart
  /-- WARM_RESTART_END (R183): 2 µs after the request the cluster leaves the warm restart and autostart threads start. -/
  | warmRestartEnd
  /-- SIG_UPDATE_APPLY (R197): An update reaches its bank and is applied to the history, replaced, inserted or dropped. -/
  | sigUpdateApply (b : Nat)
  /-- SAMPLE_STAGE (R212): A sample-path result enters the staging buffer and is visible to reads. -/
  | sampleStage
  /-- AGEING_VISIT (R200): The store visits a defined signal and marks entries older than 2^30 ns as aged. -/
  | ageingVisit (i : Nat)
  /-- BANK_HOT (R214): A bank queue has held hot_level requests for hot_us, and the bank becomes hot. -/
  | bankHot (b : Nat)
  /-- SIG_LOCATE_WRITE (R189): Writing an index to SIG_LOCATE_IDX makes SIG_LOCATE_RES show its bank and slot. -/
  | sigLocateWrite (v : Word)
  /-- DPORT_DEFINE (R216): Descriptor-port command 1 defines the signal named in SIG_DPORT_IDX. -/
  | dportDefine
  /-- DPORT_UNDEFINE (R216): Descriptor-port command 2 undefines the signal. -/
  | dportUndefine
  /-- DPORT_INFO (R216): Descriptor-port command 3 returns the descriptor and history of the signal. -/
  | dportInfo
  /-- DPORT_WRITE (R216): Descriptor-port command 4 writes a value with the stamp in W1, writer kind HOST. -/
  | dportWrite
  /-- DPORT_WRITE_NOW (R216): Descriptor-port command 5 writes a value stamped now, writer kind HOST. -/
  | dportWriteNow
  /-- SIG_DEFINE (R216): SIG operation DEFINE creates a signal descriptor and optionally an initial entry. -/
  | sigDefine (id : Nat)
  /-- SIG_UNDEFINE (R216): SIG operation UNDEFINE clears a signal and aborts its WATCHes. -/
  | sigUndefine (id : Nat)
  /-- SIG_READ (R216): SIG operation READ reads n signals in one mode. -/
  | sigRead (id : Nat)
  /-- SIG_WRITE (R216): SIG operation WRITE writes n entries with writer kind SP. -/
  | sigWrite (id : Nat)
  /-- SIG_SETROUTE (R216): SIG operation SETROUTE changes the route fields of a signal. -/
  | sigSetroute (id : Nat)
  /-- SIG_WATCH (R216): SIG operation WATCH waits for an update that meets a condition. -/
  | sigWatch (id : Nat)
  /-- SIG_INFO (R216): SIG operation INFO returns the record of a signal. -/
  | sigInfo (id : Nat)
  /-- LE_RELEASE (R251): At boundary plus offset the engine releases every context of the grid and fetches their inputs. -/
  | leRelease (g : Nat)
  /-- LE_SAMPLE (R253): A matrix unit takes a ready context and computes its sample, writing u[k+1]. -/
  | leSample (c : Nat)
  /-- LE_START (R270): LE operation START checks and admits a context, which runs from its first boundary. -/
  | leStart (id : Nat)
  /-- LE_STOP (R266): LE operation STOP stops a context at its boundary. -/
  | leStop (id : Nat)
  /-- LE_SWAP (R257): LE operation SWAP checks the target bank and swaps at its boundary. -/
  | leSwap (id : Nat)
  /-- LE_KICK (R263): LE operation KICK refreshes last_ref of a context from its owner. -/
  | leKick (id : Nat)
  /-- LE_RESUME (R264): LE operation RESUME returns a context from FALLBACK at its boundary. -/
  | leResume (id : Nat)
  /-- LE_STATUS (R270): LE operation STATUS returns a consistent state of one context. -/
  | leStatus (id : Nat)
  /-- LE_TRACE_STOP (R270): LE operation TRACE with 0 acts as a stop condition of a trace buffer. -/
  | leTraceStop (id : Nat)
  /-- LE_TRACE_REARM (R270): LE operation TRACE with 1 restarts a DONE buffer at entry 0. -/
  | leTraceRearm (id : Nat)
  /-- LE_COMMIT (R268): LE operation COMMIT requests a commit of a trace group. -/
  | leCommit (id : Nat)
  /-- CARRIER_RELOAD (R279): A PWM carrier reaches a reload point and copies the three duty shadows into use. -/
  | carrierReload (n : Nat)
  /-- PWM_COMPARE (R277): The carrier count passes a compare value and the phase command changes. -/
  | pwmCompare (n x : Nat)
  /-- DEAD_TIME_END (R278): The dead time after the complementary gate turned off ends and the gate turns on. -/
  | deadTimeEnd (n i : Nat)
  /-- DUTY_WRITE (R280): A write of AXn_DUTYi sets a duty shadow, or is refused while a context drives the phase. -/
  | dutyWrite (n i : Nat) (v : Word)
  /-- OUT_EN_WRITE (R275): A write of out_en enables or disables the outputs of a port. -/
  | outEnWrite (n : Nat) (v : Word)
  /-- AX_CLEAR_WRITE (R296): Writing clear ends a latched overcurrent trip while every comparator is within its thresholds. `within` says nothing: the comparators follow from the state. -/
  | axClearWrite (n : Nat) (v : Word) (within : Unit)
  /-- STEP_ISSUE (R283): The target has moved a whole microstep and the port issues a step within its limits. -/
  | stepIssue (n : Nat)
  /-- STEP_PULSE_END (R283): A STEP pulse ends after pw ticks. -/
  | stepPulseEnd (n : Nat)
  /-- STANDSTILL_REACHED (R284): No step has been issued for still_ms and the axis is at standstill. -/
  | standstillReached (n : Nat)
  /-- DRVOK_FALL (R284): DRVOK falls; steps stop, EN goes inactive and P is retained or marked lost. -/
  | drvokFall (n : Nat)
  /-- DRVOK_RISE (R285): DRVOK rises; a retained axis starts its reseat wait, a lost one re-enables EN. -/
  | drvokRise (n : Nat)
  /-- RESEAT_START (R285): After reseat_delay the port sets reseating and sets DIR high. -/
  | reseatStart (n : Nat)
  /-- RESEAT_STEP (R285): The port issues one corrective step with EN inactive. -/
  | reseatStep (n : Nat)
  /-- RESEAT_DONE (R285): After the last corrective step and dir_setup, EN becomes active and reseat_done is set. -/
  | reseatDone (n : Nat)
  /-- ENCODER_EDGE (R289): A qualified change of A or B changes the quadrature count, or counts an error. -/
  | encoderEdge (n : Nat) (a b : Bool)
  /-- Z_EDGE (R289): A rising edge of Z latches the count and tick into AXn_ZLAT and AXn_ZTS. -/
  | zEdge (n : Nat)
  /-- SSI_FRAME_START (R290): At boundary plus req_off the port starts an SSI frame. -/
  | ssiFrameStart (n : Nat)
  /-- FRAME_ENGINE_START (R291): At boundary plus req_off the frame engine starts its template. -/
  | frameEngineStart (n : Nat)
  /-- FEEDBACK_FRAME_END (R292): A feedback frame ends; on success F0 to F3, signals and safety taps update, on error fb_err counts. -/
  | feedbackFrameEnd (n : Nat) (rx : FrameRx)
  /-- FEEDBACK_FRAME_TIMEOUT (R292): A frame not ended after tout is abandoned as an error with fb_timeout. -/
  | feedbackFrameTimeout (n : Nat)
  /-- OC_TRIP (R295): A comparator filter stays beyond a threshold for persist clocks and the channel trips. -/
  | ocTrip (c : Nat)
  /-- SD_STUCK (R297): A channel's data stays at one level for 256 clocks and stuck is set. -/
  | sdStuck (c : Nat)
  /-- AUX_EDGE (R274): A raw edge on an AUX input is stamped on TB0. -/
  | auxEdge (n i : Nat) (level : Bool)
  /-- AUX_QUALIFIED (R315): An AUX transition has held for its debounce time and is qualified; its latched position is recorded. -/
  | auxQualified (n i : Nat)
  /-- AXIS_COMMIT (R301): AXIS operation COMMIT requests a commit of CFG, TPL or SDn. -/
  | axisCommit (id : Nat)
  /-- AXIS_ENABLE (R301): AXIS operation ENABLE sets out_en at its boundary. -/
  | axisEnable (id : Nat)
  /-- AXIS_CLEAR (R296): AXIS operation CLEAR ends a latched trip. `within` says nothing, as in AX_CLEAR_WRITE. -/
  | axisClear (id : Nat) (within : Unit)
  /-- AXIS_SETPOS (R301): AXIS operation SETPOS sets P or the count and clears poslost. -/
  | axisSetpos (id : Nat)
  /-- AXIS_STATUS (R301): AXIS operation STATUS returns the port state. -/
  | axisStatus (id : Nat)
  /-- AXIS_NOT_READY (R314): An axis stops being ready while the generator is not IDLE; the plan ends and ARRIVE aborts. -/
  | axisNotReady (n : Nat)
  /-- CAM_MISS (R334): Cam points have not arrived 200 ns before the boundary; the reference is extrapolated. -/
  | camMiss (n : Nat)
  /-- VM_SEGMENT_RECEIVE (R328): A COPY slot takes, discards or drops a received segment. -/
  | vmSegmentReceive (node : Nat) (payload : List Byte)
  /-- VM_RUNOUT (R331): The current segment expires with no successor and the master runs out to rest. -/
  | vmRunout (m : Nat)
  /-- MOT_COMMIT (R339): MOT operation COMMIT requests a commit of CFG, VMm or CAMc. -/
  | motCommit (id : Nat)
  /-- MOT_MOVE (R310): MOT operation MOVE plans towards a position or velocity target. -/
  | motMove (id : Nat)
  /-- MOT_STOP (R319): MOT operation STOP brakes the axis to rest. -/
  | motStop (id : Nat)
  /-- MOT_HOME (R320): MOT operation HOME runs the homing method. -/
  | motHome (id : Nat)
  /-- MOT_SETREF (R339): MOT operation SETREF sets the reference of an IDLE axis. -/
  | motSetref (id : Nat)
  /-- MOT_ARRIVE (R339): MOT operation ARRIVE waits until the motion ends. -/
  | motArrive (id : Nat)
  /-- MOT_FOLLOW (R332): MOT operation FOLLOW engages gearing or a cam on a virtual master. -/
  | motFollow (id : Nat)
  /-- MOT_PHASE (R337): MOT operation PHASE sets a new phase taken up by the correction. -/
  | motPhase (id : Nat)
  /-- MOT_STATUS (R339): MOT operation STATUS returns the generator state. -/
  | motStatus (id : Nat)
  /-- MOT_PUBLISH (R327): MOT operation PUBLISH queues a segment on a SOURCE slot and sends it. -/
  | motPublish (id : Nat)
  /-- MOT_EVAL (R339): MOT operation EVAL evaluates a master at a time. -/
  | motEval (id : Nat)
  /-- ADC_SEQUENCE_TRIGGER (R347): A grid, pin or continuous trigger starts or latches the regular sequence. -/
  | adcSequenceTrigger (n : Nat)
  /-- ADC_TRIGGER_WRITE (R347): Writing trigger of ADCn_CTRL triggers the regular sequence. -/
  | adcTriggerWrite (n : Nat) (v : Word)
  /-- ADC_CALIB_WRITE (R356): Writing calib requests a calibration. -/
  | adcCalibWrite (n : Nat) (v : Word)
  /-- ADC_INJ_WRITE (R350): A write of ADCn_INJ queues an injected request or is refused. -/
  | adcInjWrite (n : Nat) (v : Word)
  /-- ADC_OWSRC_WRITE (R363): A write of ADCn_OWSRC switches current sources, or is refused for an input under OWDIAG. -/
  | adcOwsrcWrite (n : Nat) (v : Word)
  /-- ADC_HOLD (R343): The converter holds its next input on a tick chosen by priority. -/
  | adcHold (n : Nat)
  /-- ADC_RESULT (R343): A conversion ends 40 ticks after its hold and the corrected result is delivered. -/
  | adcResult (n : Nat) (raw : Word)
  /-- ADC_MESH_RESULT (R354): A result beyond the sample-path budget is sent through Mesh port 9 when served. -/
  | adcMeshResult (n : Nat)
  /-- ADC_CAL_START (R356): A pending calibration starts once earlier injected requests are held and no conversion runs. -/
  | adcCalStart (n : Nat)
  /-- ADC_CAL_END (R357): A calibration ends after 9,600 ticks and loads new trims or keeps the old. -/
  | adcCalEnd (n : Nat) (trims : Option Word)
  /-- OW_SETTLE_END (R364): The settling time of an open-wire step ends. -/
  | owSettleEnd (n : Nat)
  /-- ADC_COMMIT (R367): ADC operation COMMIT requests a commit at the conversion boundary. -/
  | adcCommit (id : Nat)
  /-- ADC_TRIGGER (R367): ADC operation TRIGGER triggers the regular sequence. -/
  | adcTrigger (id : Nat)
  /-- ADC_INJECT (R367): ADC operation INJECT queues an injected conversion. -/
  | adcInject (id : Nat)
  /-- ADC_CALIB (R358): ADC operation CALIB requests a calibration. -/
  | adcCalib (id : Nat)
  /-- ADC_OWDIAG (R364): ADC operation OWDIAG tests inputs of its mask for open wires. -/
  | adcOwdiag (id : Nat)
  /-- ADC_STATUS (R367): ADC operation STATUS returns the converter state. -/
  | adcStatus (id : Nat)
  /-- BLOCK_LOCK (R373): A Herd port gains Clause 49 block lock and moves from DOWN to LOCK. -/
  | blockLock (p alignTx alignRx : Nat)
  /-- LINK_DOWN (R374): Loss of signal or block lock puts a port in DOWN. -/
  | linkDown (p : Nat) (lockLost : Bool) (ring : Nat)
  /-- HELLO_TIMEOUT (R374): No HELLO for 3 ms puts the port in DOWN. -/
  | helloTimeout (p ring : Nat)
  /-- HELLO_SEND (R386): Every 1 ms a port sends a link-local HELLO. -/
  | helloSend (p : Nat)
  /-- HELLO (R373): A received HELLO moves a LOCK port to CAL when its UID is echoed. -/
  | hello (p : Nat) (d : List Byte) (echo : Bool)
  /-- LINK_UP (R391): A port reaches UP and its ends graft, rest, merge or block the link. -/
  | linkUp (p : Nat) (first : Bool)
  /-- HERD_FRAME_RECEIVE (R378): A port checks a received frame and drops, takes, delivers or forwards it. -/
  | herdFrameReceive (p : Nat) (d : List Byte) (errEnd echo : Bool) (t : Nat) (ring : Option Nat)
  /-- PORT_TX_START (R381): An output port that is free chooses and starts its next frame. -/
  | portTxStart (p t : Nat)
  /-- ISO_SLOT (R408): A slot offset is reached and the port sends the ISO frame of its flow. -/
  | isoSlot (p i t : Nat)
  /-- ELECTION_START (R387): After the 3 ms wait of START, a node joins a running Herd or starts an election with a CLAIM. -/
  | electionStart
  /-- CLAIM (R387): A received CLAIM of a better candidate is adopted and sent on. -/
  | claim (p : Nat) (d : List Byte)
  /-- ELECTION_END (R387): 1 ms after the last change of candidate the election ends and the winner becomes Stag. -/
  | electionEnd (resting blocked : Nat)
  /-- SIZE (R389): A received SIZE reports a child's subtree size to its parent. -/
  | size (p : Nat) (d : List Byte)
  /-- ASSIGN (R389): A received ASSIGN gives a node its ID range, which it divides among its children. -/
  | assign (p : Nat) (d : List Byte)
  /-- ID_FAIL_RETRY (R389): 100 ms after an ID failure the election is repeated. -/
  | idFailRetry
  /-- CUT (R397): A received CUT starts the repair of the ring. -/
  | cut (ring : Nat) (parent : Option Nat) (ivls : List (Nat × List (Nat × Nat)))
  /-- SYNC_REQ_SEND (R398): Every sync_us the child sends a SYNC REQ to its parent. -/
  | syncReqSend (p : Nat)
  /-- SYNC_REQ (R398): A parent receives a SYNC REQ and answers with a RESP at once. -/
  | syncReq (p : Nat) (d : List Byte) (t : Nat)
  /-- SYNC_RESULT (R401): A child receives RESP, computes the offset and steers, steps or judges TB0 lock. -/
  | syncResult (p : Nat) (d : List Byte) (t : Nat)
  /-- PATH_LOSS (R403): No path exchange result for 16 intervals and 10 ms sets path_loss and starts a succession. -/
  | pathLoss
  /-- TXN_REQUEST (R412): A target receives a TXN request, checks it and serves or refuses it. -/
  | txnRequest
  /-- TXN_RESPONSE (R413): A requester receives the response of a transaction. -/
  | txnResponse (src : Nat) (d : List Byte)
  /-- TXN_RETRY_TIMEOUT (R413): No response within txn_us; the request is sent again or the TXN times out. -/
  | txnRetryTimeout (tag dest : Nat)
  /-- REPLAY_EXPIRY (R413): A stored response leaves the replay store after 8 times txn_us. -/
  | replayExpiry (src tag : Nat)
  /-- HERD_COMMIT (R417): HERD operation COMMIT requests a commit of CYC or a slot table. -/
  | herdCommit (id : Nat)
  /-- HERD_TXN (R417): HERD operation TXN sends a remote transaction. -/
  | herdTxn (id : Nat)
  /-- HERD_LINKSTAT (R417): HERD operation LINKSTAT returns the state of a port. -/
  | herdLinkstat (id : Nat)
  /-- HERD_STATUS (R417): HERD operation STATUS returns the fabric state. -/
  | herdStatus (id : Nat)
  /-- ETH_TAIL_WRITE (R423): A write of a ring's tail hands descriptors to the MAC, or is refused. -/
  | ethTailWrite (n q : Nat) (v : Word)
  /-- ETH_TX_DONE (R423): The MAC finishes a transmit descriptor and returns it with status and stamp. -/
  | ethTxDone (n t : Nat)
  /-- ETH_RX_FRAME (R421): A received Ethernet frame is dropped, taken by partner sessions or written to a receive ring. -/
  | ethRxFrame (n : Nat) (d : List Byte) (t : Nat)
  /-- ETH_LINK_CHANGE (R449): The link state of a MAC changes and link_chg is set. -/
  | ethLinkChange (n : Nat) (up : Bool) (speed : Nat)
  /-- GCL_ENTRY (R428): The gate control list moves to its next entry or next cycle. -/
  | gclEntry (n : Nat)
  /-- PTP_OFFSET_WRITE (R426): A write of ETHn_PTP_OFFSET runs one servo step of TB1 or TB2. -/
  | ptpOffsetWrite (n : Nat) (v : Word)
  /-- ETH_COMMIT (R448): ETH operation COMMIT requests a commit of CFG or GCL. -/
  | ethCommit (id : Nat)
  /-- ETH_STATUS (R448): ETH operation STATUS returns the MAC state. -/
  | ethStatus (id : Nat)
  /-- CAN_REQ_WRITE (R435): Writing req moves a SEND object to PENDING. -/
  | canReqWrite (n j : Nat)
  /-- CAN_CANCEL_WRITE (R436): Writing cancel cancels a SEND object according to its state. -/
  | canCancelWrite (n j : Nat)
  /-- CAN_TX_END (R435): A transmission ends sent, failed or for retry. -/
  | canTxEnd (n result tecAdd ts : Nat)
  /-- CAN_RECOVERED (R437): After 128 occurrences of 11 recessive bits the controller recovers from bus-off. -/
  | canRecovered (n : Nat)
  /-- CAN_RECOVER_WRITE (R437): Writing recover starts counting for recovery from bus-off. -/
  | canRecoverWrite (n : Nat)
  /-- CAN_RX_FRAME (R438): A received frame is filtered and stored, dropped or counted as lost. -/
  | canRxFrame (n id : Nat) (esi remote : Bool) (dlc : Nat) (data : List Byte) (ts recAdd : Nat)
  /-- CAN_ACK_WRITE (R438): Writing an object number to CANn_ACK makes a FULL object EMPTY. -/
  | canAckWrite (n : Nat) (v : Word)
  /-- ABD_CANDIDATE_END (R439): A bit-rate candidate has listened abd_ms without success and the next is tried. -/
  | abdCandidateEnd (n : Nat)
  /-- CAN_COMMIT (R448): CAN operation COMMIT requests a commit of CFG. -/
  | canCommit (id : Nat)
  /-- CAN_SEND (R448): CAN operation SEND loads and sends a SEND object. -/
  | canSend (id : Nat)
  /-- CAN_READ (R448): CAN operation READ returns an object. -/
  | canRead (id : Nat)
  /-- CAN_ACK (R448): CAN operation ACK empties a FULL object. -/
  | canAck (id : Nat)
  /-- CAN_RECOVER (R448): CAN operation RECOVER starts recovery from bus-off. -/
  | canRecover (id : Nat)
  /-- PS_TAKE (R443): A producer session takes its signal values at its take instant and builds a datagram. -/
  | psTake (i : Nat)
  /-- PS_SEND (R443): At the send instant the datagram is handed to its MAC queue. -/
  | psSend (i : Nat)
  /-- PS_DATAGRAM_RECEIVE (R445): A consumer session checks a matched datagram and writes its entries. -/
  | psDatagramReceive (i : Nat) (d : List Byte)
  /-- PS_WATCHDOG_TIMEOUT (R446): A consumer accepted nothing for wd_us and enters TIMEOUT. -/
  | psWatchdogTimeout (i : Nat)
  /-- PS_START (R447): PS operation START admits and starts a session. -/
  | psStart (id : Nat)
  /-- PS_STOP (R448): PS operation STOP stops a session. -/
  | psStop (id : Nat)
  /-- PS_RELOAD (R448): PS operation RELOAD rereads a session entry. -/
  | psReload (id : Nat)
  /-- PS_STATUS (R448): PS operation STATUS returns the session state. -/
  | psStatus (id : Nat)
  /-- CAPT_NOTICE (R458): A change notice reaches a session, which queues a CHANGE record and evaluates its trigger units. -/
  | captNotice
  /-- COINCIDENCE_WINDOW_END (R468): At the end of the 1 µs window the session writes the trigger. -/
  | coincidenceWindowEnd (n : Nat)
  /-- CAPT_RECORD_WRITE (R458): Queued records are written to the ring as the Mesh serves them; post counts advance. -/
  | captRecordWrite (n : Nat)
  /-- EPOCH_WRAP (R456): TB0 reaches a multiple of 2^32 and each running session writes an epoch marker. -/
  | epochWrap
  /-- CAPT_RD_WRITE (R463): A write of rd frees stream slots, or is refused at or above S. -/
  | captRdWrite (n : Nat) (v : Word)
  /-- ARM (R472): A received ARM frame arms a matching session or is answered otherwise. -/
  | arm (src : Nat) (d : List Byte)
  /-- ARMACK (R471): A received ARMACK answers one node of an ARM. -/
  | armack (src : Nat) (d : List Byte)
  /-- FIRE (R474): A received FIRE is accepted as a HERD trigger or discarded. -/
  | fire (src : Nat) (d : List Byte)
  /-- DISARM (R472): A received DISARM returns a matching session to RUN. -/
  | disarm (src : Nat) (d : List Byte)
  /-- DISACK (R471): A received DISACK answers one node of a DISARM. -/
  | disack (src : Nat) (d : List Byte)
  /-- CAPT_COMMIT (R475): CAPT operation COMMIT requests a commit of a session or trigger group. -/
  | captCommit (id : Nat)
  /-- CAPT_START (R451): CAPT operation START starts a session and records initial entries. -/
  | captStart (id : Nat)
  /-- CAPT_ARM (R471): CAPT operation ARM arms the session locally and on listed nodes. -/
  | captArm (id : Nat)
  /-- CAPT_TRIGGER (R475): CAPT operation TRIGGER makes a SOFT trigger. -/
  | captTrigger (id : Nat)
  /-- CAPT_DISARM (R475): CAPT operation DISARM returns an armed session to RUN. -/
  | captDisarm (id : Nat)
  /-- CAPT_STOP (R475): CAPT operation STOP ends a session in DONE. -/
  | captStop (id : Nat)
  /-- CAPT_STATUS (R475): CAPT operation STATUS returns the session state. -/
  | captStatus (id : Nat)
  /-- SAFETY_CYCLE (R482): A Chamois safety cycle starts and runs OUT, SAMPLE, EXCH, EVAL and COMP. -/
  | safetyCycle (i : SafeSample)
  /-- CONNECTION_WATCHDOG (R512): No SPDU accepted for t_wd_us; the connection loses VALID and its data reads as demand. -/
  | connectionWatchdog (c : Nat)
  /-- CHAMOIS_WATCHDOG_EXPIRY (R484): Two missed refreshes make the window watchdog drive the channel's outputs off. -/
  | chamoisWatchdogExpiry (b : Bool)
  /-- OFF_PULSE (R499): Once per t_test_s a ball of an on pair is switched low and its readback checked. -/
  | offPulse (out : Bool) (k : Nat) (b low : Bool)
  /-- SAFE_ISLAND_UNDERVOLT (R479): A channel's island falls below 0.70 V and its output pads go off within 10 µs. -/
  | safeIslandUndervolt (b : Bool)
  /-- CHAMOIS_FREQ_WINDOW (R480): Each second a channel measures its oscillator against the backup clock and checks CLOCK faults. -/
  | chamoisFreqWindow (hz lenA lenB : Nat) (absent : Bool)
  /-- IMAGE_CRC_CHECK (R479): A channel checks the CRC of its image in RAM at least every 8 h. -/
  | imageCrcCheck (good : Bool)
  /-- HEARTBEAT_LOSS (R515): The Bharal heartbeat is missing for 100 ms and mgmt_lost is set. -/
  | heartbeatLoss
  /-- CHM_SW_WRITE (R515): A write of CHM_SW raises or withdraws software demands at the next SAMPLE. -/
  | chmSwWrite (v : Word)
  /-- CHM_SO_REQ_WRITE (R515): A write of CHM_SO_REQ requests safe outputs on at the next SAMPLE. -/
  | chmSoReqWrite (v : Word)
  /-- CHM_SPSLOAD (R486): A load request by CHM_SPS_CMD or operation SPSLOAD checks the staged set and takes it into use. -/
  | chmSpsload (id : Option Nat)
  /-- CHM_DELIVER (R516): CHM operation DELIVER hands an SPDU to a consumer connection. -/
  | chmDeliver (id : Nat)
  /-- CHM_FETCH (R516): CHM operation FETCH returns the newest SPDU of a producer. -/
  | chmFetch (id : Nat)
  /-- CHM_STATUS (R516): CHM operation STATUS returns the Chamois state. -/
  | chmStatus (id : Nat)
  /-- SAFE_HOLD_ENTRY (R504): An internal Chamois fault or a sensor fault puts the node in SAFE_HOLD. -/
  | safeHoldEntry
  /-- RED_STATE_TAKE (R526): The active member takes and sends a state frame, and each member a HEALTH frame. -/
  | redStateTake (d : Option Nat)
  /-- RED_FRAME_RECEIVE (R527): A member receives a state, yield, takeover, swap or health frame and applies it. -/
  | redFrameReceive (src : Nat) (p : List Byte)
  /-- DIVERGE_MASK_EXPIRY (R529): 1 s after a divergence the duty bit of the diverge mask clears. -/
  | divergeMaskExpiry (d : Nat)
  /-- RED_SWAP_TIMER (R541): swap_h hours after its last role change the active member starts a role swap. -/
  | redSwapTimer
  /-- RED_COMMIT (R543): RED operation COMMIT requests a commit of GRP at a cycle boundary. -/
  | redCommit (id : Nat)
  /-- RED_YIELD (R533): RED operation YIELD hands a duty to an eligible member. -/
  | redYield (id : Nat)
  /-- RED_SWAP (R541): RED operation SWAP starts a role swap at once. -/
  | redSwap (id : Nat)
  /-- RED_STATUS (R543): RED operation STATUS returns the group state. -/
  | redStatus (id : Nat)
  /-- HOST_READ (R564): A host read through a BAR becomes a Mesh read and a completion. -/
  | hostRead (bar off n : Nat)
  /-- HOST_WRITE (R564): A posted host write through a BAR becomes a Mesh write or is dropped. -/
  | hostWrite (bar off : Nat) (d : List Byte)
  /-- OUTBOUND_READ_TIMEOUT (R565): An outbound read receives no completion within 50 ms and ends with FAULT. -/
  | outboundReadTimeout (port a : Nat)
  /-- PCIE_LINK_CHANGE (R566): The PCIe link state changes and link_chg is set. -/
  | pcieLinkChange (up : Bool) (lanes gen : Nat)
  /-- PCIE_PERST (R622): PCIE_PERSTN holds the endpoint in reset and its rise releases it. -/
  | pciePerst (level : Bool)
  /-- DMA_GO (R567): Writing go starts the descriptor of a DMA channel, or is refused while it is busy. -/
  | dmaGo (c : Nat)
  /-- DMA_BURST (R569): The engine reads and then writes one burst of up to 256 bytes. -/
  | dmaBurst (c : Nat)
  /-- DMA_COPY (R568): DMA operation COPY moves a range. -/
  | dmaCopy (id : Nat)
  /-- DMA_FILL (R568): DMA operation FILL fills a range with a pattern. -/
  | dmaFill (id : Nat)
  /-- DMA_CHAIN (R568): DMA operation CHAIN runs a list of copy and fill entries. -/
  | dmaChain (id : Nat)
  /-- EVENT_LEVEL_RISE (R573): The level of a vector rises and the vector is requested. -/
  | eventLevelRise (v : Nat)
  /-- EVC_EOI_WRITE (R573): Writing a vector to EVC_EOI requests it again while its level is 1. -/
  | evcEoiWrite (v : Word)
  /-- MSIX_SEND (R574): A requested vector sends its message, or sets its PBA bit until it may. -/
  | msixSend (v : Nat)
  /-- SENSOR_SAMPLE (R577): Bharal samples a sensor and handles warnings and faults under R578. -/
  | sensorSample (i : Nat) (x : Int)
  /-- HEARTBEAT_SEND (R576): Bharal sends a heartbeat to both Chamois channels every 10 ms. -/
  | heartbeatSend
  /-- LOG_RECORD_WRITE (R584): Bharal writes a queued event record to its slot. -/
  | logRecordWrite
  /-- BOOT_DONE (R593): Bharal ends BOOT by choosing a valid slot and entering LOAD, or RECOVERY under Fawn. -/
  | bootDone
  /-- LOAD_DONE (R594): Bharal ends LOAD and the node enters START. -/
  | loadDone (mismatch : Bool) (ddr : DdrBoard)
  /-- START_TIMEOUT (R624): NORMAL is not reached start_s seconds after START and the node enters RECOVERY. -/
  | startTimeout
  /-- ANNOUNCE (R599): A received ANNOUNCE makes the node adopt a campaign. -/
  | announce (d : List Byte)
  /-- OFFER (R600): A received OFFER is answered and may open a receive session. -/
  | offer (p : Nat) (d : List Byte)
  /-- ANSWER (R602): A received ANSWER starts a transfer or schedules a retry. -/
  | answer (p : Nat) (d : List Byte)
  /-- DATA (R601): A received DATA frame is written to flash and acknowledged. -/
  | data (p : Nat) (d : List Byte)
  /-- ACK (R601): A received ACK advances the sender of a transfer. -/
  | ack (p : Nat) (d : List Byte)
  /-- ACK_TIMEOUT (R601): No ACK for 20 ms makes the sender resend from the last acknowledged offset. -/
  | ackTimeout
  /-- DATA_TIMEOUT (R601): A receiver that gets no DATA for 1 s ends the session with TIMEOUT. -/
  | dataTimeout
  /-- BUNDLE_RECEIVED (R601): After the last byte the receiver checks the bundle, writes the slot record and answers DONE. -/
  | bundleReceived (failed : Bool)
  /-- DONE (R602): A received DONE ends a transfer; the sender reports and offers the next port. -/
  | done (p : Nat) (d : List Byte)
  /-- OFFER_RETRY (R602): 10 s after a BUSY answer the neighbour is offered again. -/
  | offerRetry
  /-- REPORT (R603): The origin receives a REPORT and closes the campaign when expect have arrived. -/
  | report (d : List Byte)
  /-- CLOSE (R599): A received CLOSE ends the running campaign at the node. -/
  | close (d : List Byte)
  /-- CAMPAIGN_TIMEOUT (R599): 30 min after t0 the campaign ends at the node. -/
  | campaignTimeout
  /-- NONCE_EXPIRY (R605): A nonce becomes invalid 10 min after CHALLENGE. -/
  | nonceExpiry
  /-- BHR_STATUS (R608): BHR operation STATUS returns the management state. -/
  | bhrStatus (id : Option Nat)
  /-- BHR_SENSORS (R608): BHR operation SENSORS returns all sensor readings. -/
  | bhrSensors (id : Option Nat)
  /-- BHR_LOGREAD (R585): BHR operation LOGREAD returns event records. -/
  | bhrLogread (id : Option Nat)
  /-- BHR_LOGWRITE (R608): BHR operation LOGWRITE writes a USER record. -/
  | bhrLogwrite (id : Option Nat)
  /-- BHR_CHALLENGE (R605): BHR operation CHALLENGE returns a fresh nonce. -/
  | bhrChallenge (id : Option Nat)
  /-- BHR_AUTH (R606): BHR operation AUTH checks a token and clears the log or unlocks debug. -/
  | bhrAuth (id : Option Nat)
  /-- BHR_CALREAD (R608): BHR operation CALREAD returns the stored calibration set. -/
  | bhrCalread (id : Option Nat)
  /-- BHR_CALWRITE (R581): BHR operation CALWRITE replaces the calibration set in TEST. -/
  | bhrCalwrite (id : Option Nat)
  /-- BHR_INSTALL (R608): BHR operation INSTALL checks a bundle and writes the inactive slot. -/
  | bhrInstall (id : Option Nat)
  /-- BHR_ACTIVATE (R608): BHR operation ACTIVATE makes a valid slot preferred. -/
  | bhrActivate (id : SlotAsk)
  /-- BHR_CAMPAIGN (R598): BHR operation CAMPAIGN starts an update campaign from this node. -/
  | bhrCampaign (id : Option Nat)
  /-- BHR_CLOSE (R603): BHR operation CLOSE broadcasts CLOSE of a campaign this node started. -/
  | bhrClose (id : Option Nat)
  /-- BHR_SVBUMP (R592): BHR operation SVBUMP raises the OTP security counter. -/
  | bhrSvbump (id : Option Nat)
  /-- BHR_KEYPROG (R608): BHR operation KEYPROG writes a builder key slot in TEST. -/
  | bhrKeyprog (id : Option Nat)
  /-- BHR_STATE (R608): BHR operation STATE moves the node to TEST or START. -/
  | bhrState (id : Option Nat)
  /-- POR_ASSERT (R612): A supply stops being good and POR asserts within 1 µs. -/
  | porAssert
  /-- POR_RELEASE (R612): 2 ms after every supply is good and COLD_RSTN high, POR releases and BOOT starts. -/
  | porRelease (low : Nat) (xbat pfailN : Bool)
  /-- HOLDOVER_COUNT_TICK (R615): The backup oscillator advances the holdover count, loaded from TB0 seconds while LOCKED. -/
  | holdoverCountTick
  /-- COLD_RESET (R619): A cold reset request by COLD_RSTN, RST_CTRL or Bharal resets the device. -/
  | coldReset (src : Nat)
  /-- COLD_RESET_END (R619): After 100 µs of reset BOOT starts. -/
  | coldResetEnd
  /-- WARM_REQUEST (R620): A warm request by WARM_REQN or RST_CTRL starts a warm restart or is refused. -/
  | warmRequest (src : Nat)
  /-- POWER_FAIL (R627): A power failure is detected and the stamp and axis positions are written within 2 µs. -/
  | powerFail (src : Nat)
  /-- POWER_FAIL_CLEAR (R628): PWR_FAIL_N returns high with good supplies and pf_clear is set. -/
  | powerFailClear
  /-- BACKUP_SUPPLY_LOSS (R613): The backup domain's own supply falls below 1.4 V and the domain loses its contents. -/
  | backupSupplyLoss
  /-- PLL_UNLOCK (R630): The SYS, Ethernet, DDR or Bharal PLL loses lock and pll_unlock is set with EV126. -/
  | pllUnlock (i : Nat)
  /-- PCIE_CONFIG_WRITE (R574): The host writes PCIe configuration space, such as MSI-X enable, function mask or Bus Master Enable, which may release pending MSI-X messages. -/
  | pcieConfigWrite (msixEn fnMask bme : Bool)
  /-- GPIO_INPUT_CHANGE (R653): A level change on a GPIO ball reaches PIN_GPIO_IN within 3.75 ns. -/
  | gpioInputChange (levels : Nat)
  /-- INSTALL_WRITE_END (R608): The flash write of a running INSTALL ends, the slot is written or fails with FLASH, and INSTALL completes. -/
  | installWriteEnd (failed : Bool)
  /-- SWAP_RETRY (R541): One hour after a cancelled role swap the active member tries the swap again. -/
  | swapRetry
  /-- BUS_INTEGRATION (R432): A CAN controller that has left OFF sees 11 recessive bits and begins to take part on the bus. -/
  | busIntegration (n : Nat)
  /-- DEBUG_TAP_ACCESS (R648): An IEEE 1149.1 instruction on the debug port is carried out, or acts as BYPASS when its level is not unlocked. -/
  | debugTapAccess (f : TapFn)
deriving DecidableEq, Repr

end Sys2Proof
end

