-- ==== Sys2Proof/Decode.lean ====
section
/-!
DEFINITION. The commands that words spell. The block's commands have no encoding: every row of the table has an empty
list of fields. The words of the sequence processors are decoded in Sys2Proof/Machine/Quiser.lean, from instruction memory.
-/
namespace Sys2Proof

/-- The command that a word spells by the table's bits: none, since no row gives bits. -/
def decodeTableWord (_nbits _w : Nat) : Option Instr := none

end Sys2Proof
end

