-- ==== Sys2Proof/Machine/Bits.lean ====
section
/-!
DEFINITION. Bit fields, sign extension and byte order: the helpers every register and every record of the spec is read
with. Fields are written [hi:lo] as in the spec's tables.
-/
namespace Sys2Proof.Machine

/-- Bits [hi:lo] of a number. -/
def bits (v hi lo : Nat) : Nat := (v >>> lo) % 2 ^ (hi + 1 - lo)

/-- Bit `i` of a number. -/
def bit (v i : Nat) : Bool := (v >>> i) % 2 == 1

/-- The number of a Boolean. -/
def b2n (b : Bool) : Nat := if b then 1 else 0

/-- Bits [hi:lo] of a register word. -/
def fld (w : Word) (hi lo : Nat) : Nat := bits w.toNat hi lo

/-- The mask of bits [hi:lo]. -/
def mask (hi lo : Nat) : Nat := (2 ^ (hi + 1 - lo) - 1) <<< lo

/-- The number `v` with bits [hi:lo] replaced by the low bits of `x`. -/
def putBits (v hi lo x : Nat) : Nat :=
  let m := 2 ^ (hi + 1 - lo)
  (v >>> (hi + 1)) <<< (hi + 1) + ((x % m) <<< lo) + v % 2 ^ lo

/-- A register word with bits [hi:lo] replaced. -/
def setFld (w : Word) (hi lo x : Nat) : Word := BitVec.ofNat 32 (putBits w.toNat hi lo x)

/-- The two's-complement value of the low `n` bits. -/
def sInt (n v : Nat) : Int :=
  let x := v % 2 ^ n
  if 2 * x < 2 ^ n then (x : Int) else (x : Int) - (2 ^ n : Nat)

/-- The low `n` bits of an integer, in two's complement. -/
def uNat (n : Nat) (i : Int) : Nat := (i % ((2 ^ n : Nat) : Int)).toNat

/-- The little-endian bytes of a number (R3). -/
def bytesLE : Nat → Nat → List Byte
  | 0, _ => []
  | n + 1, v => BitVec.ofNat 8 v :: bytesLE n (v / 256)

/-- The number that little-endian bytes spell (R3). -/
def ofBytesLE : List Byte → Nat
  | [] => 0
  | b :: t => b.toNat + 256 * ofBytesLE t

/-- The big-endian bytes of a number, as on the Herd and Ethernet wires (R3). -/
def bytesBE (n v : Nat) : List Byte := (bytesLE n v).reverse

/-- The number that big-endian bytes spell (R3). -/
def ofBytesBE (l : List Byte) : Nat := ofBytesLE l.reverse

/-- `n` bytes of a record from offset `off`, as a little-endian number; missing bytes read 0. -/
def recNat (l : List Byte) (off n : Nat) : Nat := ofBytesLE ((l.drop off).take n)

/-- A list of words as little-endian bytes. -/
def wordsLE (l : List Nat) : List Byte := l.flatMap (bytesLE 4)

/-- Division rounded to the nearest integer, ties away from zero, for a non-negative dividend. -/
def divNear (a b : Nat) : Nat := if b = 0 then 0 else (2 * a + b) / (2 * b)

/-- Division rounded up. -/
def divUp (a b : Nat) : Nat := if b = 0 then 0 else (a + b - 1) / b

/-- An addition that stops at `top`. -/
def satAdd (v k top : Nat) : Nat := min (v + k) top

/-- Bit `n` of a mask set to `b`. -/
def setBit (m n : Nat) (b : Bool) : Nat := putBits m n n (b2n b)

end Sys2Proof.Machine
end

