-- ==== Sys2Proof/Config.lean ====
section
/-!
DEFINITION. What one unit or one implementation fixes, and the values the spec leaves open. No open value has a body, so
no proof can rest on it.
-/
namespace Sys2Proof

/-- The four words of the 128-bit unit identifier, unique to each unit (R1). -/
opaque Config.uidWord : Nat → Word

/-- A free value: the n-th value drawn where the spec states no value (log 2). -/
opaque Config.freeValue : Nat → Nat

/-- Whether a SYS-domain read in a SYS cycle sees the newer of the two TB ticks of a base that R33 allows (log 2). -/
opaque Config.seesNewer : Nat → Nat → Bool

/-- How long Bharal waits for a cycle of the backup oscillator before `xbat_ok` falls, in SYS cycles (R30 gives no time). -/
opaque Config.xbatAbsence : Nat

/-- The level of the sigma-delta data input of a channel in a SYS cycle (R293): what the modulator outside sends. -/
opaque Config.sdBit : Nat → Nat → Bool

/-- The 64-bit salt that the signal store draws in each BOOT (R188), for the n-th draw (log 2). -/
opaque Config.salt : Nat → DWord

/-- SHA-256 (R589, R590), which the spec names and does not define. -/
opaque Config.sha256 : List Byte → List Byte

/-- The RSASSA-PSS check of R589: public key, message, signature. -/
opaque Config.rsaVerify : List Byte → List Byte → List Byte → Bool

/-- The part of a port's 32 KiB transit buffer that is reserved for classes SYNC, ISO, SAFE and TRIG (R382 gives no size). -/
opaque Config.herdReserve : Nat

/-- The byte at a host address, as the host answers an outbound read (R565); the first argument tells reads apart. -/
opaque Config.hostByte : Nat → Nat → Byte

/-- The calibration set that Chozia has stored in the unit (R579); nothing is said of its values here. -/
opaque Config.factoryCal : List Byte

/-- The hash in key slot 0 to 3, programmed in production (R590). -/
opaque Config.chozKey : Nat → List Byte

/-- What the boot flash fitted has beyond 64 MiB. -/
opaque Config.flashMore : Nat

/-- The size of the boot flash fitted, in MiB (R588: 64 to 512). -/
def Config.flashMiB : Nat := 64 + Config.flashMore % 449

end Sys2Proof
end

