-- ==== Sys2Proof/Machine/RegMap.lean ====
section
/-!
DEFINITION. The register map: every register family of the spec's register tables, block by block: offset, count and
stride, reset value, the fields with their access codes (R4) and the values their writes refuse (R19, R654), and the
configuration group of a shadow register (R9). An active copy (`_ACT`) is a read-only family at its own offset.
-/
namespace Sys2Proof.Machine

/-- The access codes of R4; `rws0` and `w1s0` are write-only effects whose bit reads 0, `rws` a shadow field. -/
inductive Acc where
  | ro | rw | rws | w1c | w1s | w1s0 | wo | rc
deriving DecidableEq, Repr

/-- What a field's write refuses (R19 for a divisor or a capacity, or a rule of its block). -/
inductive Chk where
  | any
  | nonzero
  | nonzeroFloat
  | range (lo hi : Nat)
  | even (lo hi : Nat)
deriving DecidableEq, Repr

/-- One field of a register: bits [hi:lo], its access code and its check. -/
structure Fld where
  hi : Nat
  lo : Nat
  acc : Acc
  chk : Chk
deriving DecidableEq, Repr

/-- A reset value: a constant, the register's own index (EVC_MAPs), or a word of the unit identifier (R1). -/
inductive Rst where
  | val (v : Nat)
  | index
  | uid
deriving DecidableEq, Repr

/-- The kinds of configuration group, without the instance. -/
inductive GroupKind where
  | none | tb0lock | sg | lg | route | tr | axcfg | axtpl | sd | sdfclk | mot | vm | cam | adc
  | herdcyc | herdslot | ethcfg | ethgcl | can | capts | capttr | red
deriving DecidableEq, Repr

/-- A family of registers at `off + i * st + j * st2` for `i < n`, `j < m`. -/
structure Fam where
  off : Nat
  n : Nat
  st : Nat
  m : Nat
  st2 : Nat
  reset : Rst
  grp : GroupKind
  flds : List Fld
deriving DecidableEq, Repr

/-- A block's register window: base, number of instances and their stride, and its families. -/
structure Blk where
  base : Nat
  n : Nat
  st : Nat
  size : Nat
  fams : List Fam
deriving DecidableEq, Repr

/-- The families of block MESH (spec/15_mesh_host.md). -/
def famsMesh : List Fam := [
  ⟨0x0, 1, 0x0, 1, 0x0, .val 0x0, .none, [⟨7, 7, .w1c, .any⟩, ⟨6, 6, .w1c, .any⟩, ⟨5, 5, .w1c, .any⟩, ⟨4, 4, .w1c, .any⟩, ⟨3, 3, .w1c, .any⟩, ⟨2, 2, .w1c, .any⟩, ⟨1, 1, .w1c, .any⟩, ⟨0, 0, .w1c, .any⟩]⟩,  -- MESH_EVSTAT
  ⟨0x4, 1, 0x0, 1, 0x0, .val 0x0, .none, [⟨7, 0, .rw, .any⟩]⟩,  -- MESH_EVEN
  ⟨0x8, 1, 0x0, 1, 0x0, .val 0x1810, .none, [⟨15, 8, .rw, .range 1 168⟩, ⟨6, 0, .rw, .range 4 64⟩]⟩,  -- MESH_CFG
  ⟨0xC, 1, 0x0, 1, 0x0, .val 0x0, .none, [⟨31, 0, .ro, .any⟩]⟩,  -- MESH_ACC_LO
  ⟨0x10, 1, 0x0, 1, 0x0, .val 0x0, .none, [⟨31, 31, .rc, .any⟩, ⟨27, 24, .ro, .any⟩, ⟨23, 16, .ro, .any⟩, ⟨8, 8, .ro, .any⟩, ⟨7, 0, .ro, .any⟩]⟩,  -- MESH_ACC_HI
  ⟨0x18, 1, 0x0, 1, 0x0, .val 0x0, .none, [⟨31, 0, .rc, .any⟩]⟩,  -- MESH_ECC_CNT
  ⟨0x1C, 1, 0x0, 1, 0x0, .val 0x0, .none, [⟨31, 0, .ro, .any⟩]⟩,  -- MESH_ECC_LO
  ⟨0x20, 1, 0x0, 1, 0x0, .val 0x0, .none, [⟨31, 31, .rc, .any⟩, ⟨7, 0, .ro, .any⟩]⟩,  -- MESH_ECC_HI
  ⟨0x100, 16, 0x10, 1, 0x0, .val 0x0, .none, [⟨31, 16, .rc, .any⟩, ⟨15, 0, .rc, .any⟩]⟩,  -- MESH_Pp_STAT
  ⟨0x104, 16, 0x10, 1, 0x0, .val 0x0, .none, [⟨31, 16, .rc, .any⟩, ⟨15, 0, .rc, .any⟩]⟩,  -- MESH_Pp_WAIT
  ⟨0x200, 1, 0x0, 1, 0x0, .val 0x0, .none, [⟨31, 31, .ro, .any⟩, ⟨9, 8, .ro, .any⟩, ⟨5, 5, .ro, .any⟩, ⟨4, 0, .ro, .any⟩]⟩,  -- MESH_DDR_CFG
  ⟨0x204, 1, 0x0, 1, 0x0, .val 0x0, .none, [⟨31, 16, .ro, .any⟩, ⟨15, 0, .ro, .any⟩]⟩,  -- MESH_DDR_TIM
  ⟨0x208, 1, 0x0, 1, 0x0, .val 0x0, .none, [⟨8, 8, .ro, .any⟩, ⟨6, 0, .ro, .any⟩]⟩,  -- MESH_DDR_STAT
  ⟨0x300, 1, 0x0, 1, 0x0, .val 0x48961CA7, .none, [⟨31, 0, .ro, .any⟩]⟩,  -- MESH_PCIE_ID
  ⟨0x304, 1, 0x0, 1, 0x0, .val 0x0, .none, [⟨31, 31, .ro, .any⟩, ⟨18, 16, .ro, .any⟩, ⟨9, 8, .ro, .any⟩, ⟨1, 1, .ro, .any⟩, ⟨0, 0, .ro, .any⟩]⟩,  -- MESH_PCIE_STAT
  ⟨0x308, 1, 0x0, 1, 0x0, .val 0x0, .none, [⟨5, 0, .rw, .any⟩]⟩,  -- MESH_PCIE_BAR4
  ⟨0x30C, 1, 0x0, 1, 0x0, .val 0x0, .none, [⟨31, 16, .rc, .any⟩, ⟨15, 0, .rc, .any⟩]⟩,  -- MESH_PCIE_ERR
  ⟨0x340, 4, 0x10, 1, 0x0, .val 0x0, .none, [⟨31, 12, .rw, .any⟩]⟩,  -- MESH_PCIE_OBw_HOST_LO
  ⟨0x344, 4, 0x10, 1, 0x0, .val 0x0, .none, [⟨31, 0, .rw, .any⟩]⟩,  -- MESH_PCIE_OBw_HOST_HI
  ⟨0x348, 4, 0x10, 1, 0x0, .val 0x0, .none, [⟨21, 0, .rw, .any⟩]⟩,  -- MESH_PCIE_OBw_SIZE
  ⟨0x400, 8, 0x10, 1, 0x0, .val 0x0, .none, [⟨31, 3, .rw, .any⟩]⟩,  -- MESH_DMAc_DESC_LO
  ⟨0x404, 8, 0x10, 1, 0x0, .val 0x0, .none, [⟨7, 0, .rw, .any⟩]⟩,  -- MESH_DMAc_DESC_HI
  ⟨0x408, 8, 0x10, 1, 0x0, .val 0x0, .none, [⟨0, 0, .w1s0, .any⟩]⟩,  -- MESH_DMAc_CTRL
  ⟨0x40C, 8, 0x10, 1, 0x0, .val 0x0, .none, [⟨31, 24, .ro, .any⟩, ⟨16, 16, .ro, .any⟩, ⟨4, 0, .ro, .any⟩]⟩]  -- MESH_DMAc_STAT

/-- The families of block PWR (spec/17_power_reset.md). -/
def famsPwr : List Fam := [
  ⟨0x0, 1, 0x0, 1, 0x0, .val 0x0, .none, [⟨6, 6, .w1c, .any⟩, ⟨5, 5, .w1c, .any⟩, ⟨4, 4, .w1c, .any⟩, ⟨3, 3, .w1c, .any⟩, ⟨2, 2, .w1c, .any⟩, ⟨1, 1, .w1c, .any⟩, ⟨0, 0, .w1c, .any⟩]⟩,  -- PWR_EVSTAT
  ⟨0x4, 1, 0x0, 1, 0x0, .val 0x0, .none, [⟨6, 0, .rw, .any⟩]⟩,  -- PWR_EVEN
  ⟨0x8, 1, 0x0, 1, 0x0, .val 0x0, .none, [⟨31, 16, .wo, .any⟩, ⟨1, 1, .w1s0, .any⟩, ⟨0, 0, .w1s0, .any⟩]⟩,  -- RST_CTRL
  ⟨0xC, 1, 0x0, 1, 0x0, .val 0x0, .none, [⟨15, 8, .ro, .any⟩, ⟨7, 0, .ro, .any⟩]⟩,  -- RST_CAUSE
  ⟨0x10, 1, 0x0, 1, 0x0, .val 0x0, .none, [⟨31, 16, .ro, .any⟩, ⟨15, 0, .ro, .any⟩]⟩,  -- RST_COUNT
  ⟨0x14, 1, 0x0, 1, 0x0, .val 0x0, .none, [⟨8, 8, .ro, .any⟩, ⟨5, 0, .ro, .any⟩]⟩,  -- CLK_STAT
  ⟨0x18, 1, 0x0, 1, 0x0, .val 0x3C, .none, [⟨7, 0, .rw, .nonzero⟩]⟩,  -- PWR_CFG
  ⟨0x1C, 1, 0x0, 1, 0x0, .val 0x0, .none, [⟨31, 31, .ro, .any⟩, ⟨30, 30, .ro, .any⟩, ⟨29, 29, .ro, .any⟩]⟩,  -- PWR_STAT
  ⟨0x20, 1, 0x0, 1, 0x0, .val 0x0, .none, [⟨31, 0, .ro, .any⟩]⟩,  -- PWR_HOLD_LO
  ⟨0x24, 1, 0x0, 1, 0x0, .val 0x0, .none, [⟨30, 16, .ro, .any⟩, ⟨15, 0, .ro, .any⟩]⟩,  -- PWR_HOLD_HI
  ⟨0x28, 1, 0x0, 1, 0x0, .val 0x0, .none, [⟨31, 0, .ro, .any⟩]⟩,  -- PWR_PF_TS_LO
  ⟨0x2C, 1, 0x0, 1, 0x0, .val 0x0, .none, [⟨31, 0, .ro, .any⟩]⟩,  -- PWR_PF_TS_HI
  ⟨0x30, 1, 0x0, 1, 0x0, .val 0x0, .none, [⟨31, 0, .ro, .any⟩]⟩,  -- PWR_PF_SEC_LO
  ⟨0x34, 1, 0x0, 1, 0x0, .val 0x0, .none, [⟨15, 0, .ro, .any⟩]⟩,  -- PWR_PF_SEC_HI
  ⟨0x38, 1, 0x0, 1, 0x0, .val 0x0, .none, [⟨18, 16, .ro, .any⟩, ⟨1, 0, .ro, .any⟩]⟩,  -- PWR_PF_INFO
  ⟨0x100, 64, 0x4, 1, 0x0, .val 0x0, .none, [⟨31, 0, .rw, .any⟩]⟩,  -- PWR_BKPw
  ⟨0x200, 48, 0x8, 1, 0x0, .val 0x0, .none, [⟨31, 0, .ro, .any⟩]⟩,  -- PWR_AXPOSn_LO
  ⟨0x204, 48, 0x8, 1, 0x0, .val 0x0, .none, [⟨31, 31, .ro, .any⟩, ⟨15, 0, .ro, .any⟩]⟩]  -- PWR_AXPOSn_HI

/-- The families of block TIME (spec/02_time.md). -/
def famsTime : List Fam := [
  ⟨0x0, 1, 0x0, 1, 0x0, .val 0x0, .none, [⟨0, 0, .rw, .any⟩]⟩,  -- TIME_CTRL
  ⟨0x4, 1, 0x0, 1, 0x0, .val 0x0, .none, [⟨31, 31, .ro, .any⟩, ⟨30, 30, .ro, .any⟩, ⟨29, 29, .ro, .any⟩, ⟨3, 3, .ro, .any⟩, ⟨2, 2, .ro, .any⟩, ⟨1, 0, .ro, .any⟩]⟩,  -- TIME_STAT
  ⟨0x8, 1, 0x0, 1, 0x0, .val 0x0, .none, [⟨24, 24, .w1s, .any⟩, ⟨23, 16, .w1s, .any⟩, ⟨15, 0, .w1s, .any⟩]⟩,  -- TIME_COMMIT
  ⟨0xC, 1, 0x0, 1, 0x0, .val 0x0, .none, [⟨7, 7, .w1c, .any⟩, ⟨6, 6, .w1c, .any⟩, ⟨5, 5, .w1c, .any⟩, ⟨4, 4, .w1c, .any⟩, ⟨3, 3, .w1c, .any⟩, ⟨2, 2, .w1c, .any⟩, ⟨1, 1, .w1c, .any⟩, ⟨0, 0, .w1c, .any⟩]⟩,  -- TIME_EVSTAT
  ⟨0x10, 1, 0x0, 1, 0x0, .val 0x0, .none, [⟨7, 0, .rw, .any⟩]⟩,  -- TIME_EVEN
  ⟨0x14, 1, 0x0, 1, 0x0, .val 0x0, .none, [⟨0, 0, .wo, .any⟩]⟩,  -- TIME_SNAP
  ⟨0x18, 1, 0x0, 1, 0x0, .val 0xF064014, .tb0lock, [⟨31, 24, .rws, .any⟩, ⟨23, 12, .rws, .nonzero⟩, ⟨11, 0, .rws, .nonzero⟩]⟩,  -- TIME_TB0_LOCK
  ⟨0x28, 1, 0x0, 1, 0x0, .val 0xF064014, .none, [⟨31, 24, .ro, .any⟩, ⟨23, 12, .ro, .any⟩, ⟨11, 0, .ro, .any⟩]⟩,  -- TIME_TB0_LOCK_ACT
  ⟨0x1C, 1, 0x0, 1, 0x0, .val 0xC800A, .tb0lock, [⟨20, 12, .rws, .any⟩, ⟨11, 0, .rws, .nonzero⟩]⟩,  -- TIME_TB0_HOLD
  ⟨0x2C, 1, 0x0, 1, 0x0, .val 0xC800A, .none, [⟨20, 12, .ro, .any⟩, ⟨11, 0, .ro, .any⟩]⟩,  -- TIME_TB0_HOLD_ACT
  ⟨0x20, 1, 0x0, 1, 0x0, .val 0x0, .none, [⟨31, 31, .rw, .any⟩, ⟨30, 29, .rw, .range 0 2⟩, ⟨18, 0, .rw, .range 0 500000⟩]⟩,  -- TIME_PPS_CFG
  ⟨0x24, 1, 0x0, 1, 0x0, .val 0x0, .none, [⟨15, 0, .rw, .any⟩]⟩,  -- TIME_PPS_OUTDLY
  ⟨0x100, 8, 0x40, 1, 0x0, .val 0x0, .none, [⟨1, 0, .rw, .range 0 1⟩]⟩,  -- TIME_TBn_CTRL
  ⟨0x104, 8, 0x40, 1, 0x0, .val 0x0, .none, [⟨31, 0, .rw, .any⟩]⟩,  -- TIME_TBn_INC_LO
  ⟨0x108, 8, 0x40, 1, 0x0, .val 0x5, .none, [⟨3, 0, .rw, .any⟩]⟩,  -- TIME_TBn_INC_HI
  ⟨0x10C, 8, 0x40, 1, 0x0, .val 0x0, .none, [⟨31, 0, .rw, .any⟩]⟩,  -- TIME_TBn_ADJ_A
  ⟨0x110, 8, 0x40, 1, 0x0, .val 0x0, .none, [⟨31, 0, .rw, .any⟩]⟩,  -- TIME_TBn_ADJ_B
  ⟨0x114, 8, 0x40, 1, 0x0, .val 0x0, .none, [⟨15, 0, .rw, .any⟩]⟩,  -- TIME_TBn_ADJ_C
  ⟨0x118, 8, 0x40, 1, 0x0, .val 0x0, .none, [⟨31, 24, .ro, .any⟩, ⟨16, 16, .ro, .any⟩, ⟨12, 4, .rw, .any⟩, ⟨2, 2, .w1s0, .any⟩, ⟨1, 0, .rw, .any⟩]⟩,  -- TIME_TBn_ADJCTL
  ⟨0x120, 8, 0x40, 1, 0x0, .val 0x0, .none, [⟨31, 0, .ro, .any⟩]⟩,  -- TIME_TBn_SNAP_SUB
  ⟨0x124, 8, 0x40, 1, 0x0, .val 0x0, .none, [⟨31, 0, .ro, .any⟩]⟩,  -- TIME_TBn_SNAP_NS
  ⟨0x128, 8, 0x40, 1, 0x0, .val 0x0, .none, [⟨31, 0, .ro, .any⟩]⟩,  -- TIME_TBn_SNAP_SEC_LO
  ⟨0x12C, 8, 0x40, 1, 0x0, .val 0x0, .none, [⟨31, 0, .ro, .any⟩]⟩,  -- TIME_TBn_SNAP_SEC_HI
  ⟨0x138, 8, 0x40, 1, 0x0, .val 0x0, .none, [⟨31, 0, .ro, .any⟩]⟩,  -- TIME_TBn_NOW_LO
  ⟨0x13C, 8, 0x40, 1, 0x0, .val 0x0, .none, [⟨31, 0, .ro, .any⟩]⟩,  -- TIME_TBn_NOW_HI
  ⟨0x400, 16, 0x40, 1, 0x0, .val 0x0, .sg, [⟨31, 31, .rws, .any⟩, ⟨2, 0, .rws, .any⟩]⟩,  -- TIME_SGn_CFG
  ⟨0x420, 16, 0x40, 1, 0x0, .val 0x0, .none, [⟨31, 31, .ro, .any⟩, ⟨2, 0, .ro, .any⟩]⟩,  -- TIME_SGn_CFG_ACT
  ⟨0x404, 16, 0x40, 1, 0x0, .val 0x2710, .sg, [⟨24, 0, .rws, .range 1250 20000000⟩]⟩,  -- TIME_SGn_PERIOD
  ⟨0x424, 16, 0x40, 1, 0x0, .val 0x2710, .none, [⟨24, 0, .ro, .any⟩]⟩,  -- TIME_SGn_PERIOD_ACT
  ⟨0x408, 16, 0x40, 1, 0x0, .val 0x0, .sg, [⟨24, 0, .rws, .any⟩]⟩,  -- TIME_SGn_PHASE
  ⟨0x428, 16, 0x40, 1, 0x0, .val 0x0, .none, [⟨24, 0, .ro, .any⟩]⟩,  -- TIME_SGn_PHASE_ACT
  ⟨0x40C, 16, 0x40, 1, 0x0, .val 0x0, .none, [⟨31, 31, .ro, .any⟩, ⟨24, 16, .ro, .any⟩, ⟨2, 0, .ro, .any⟩]⟩,  -- TIME_SGn_STAT
  ⟨0x410, 16, 0x40, 1, 0x0, .val 0x0, .none, [⟨31, 0, .ro, .any⟩]⟩,  -- TIME_SGn_IDX_LO
  ⟨0x414, 16, 0x40, 1, 0x0, .val 0x0, .none, [⟨31, 0, .ro, .any⟩]⟩,  -- TIME_SGn_IDX_HI
  ⟨0x418, 16, 0x40, 1, 0x0, .val 0x0, .none, [⟨31, 0, .ro, .any⟩]⟩,  -- TIME_SGn_NEXT_LO
  ⟨0x41C, 16, 0x40, 1, 0x0, .val 0x0, .none, [⟨31, 0, .ro, .any⟩]⟩,  -- TIME_SGn_NEXT_HI
  ⟨0x800, 8, 0x20, 1, 0x0, .val 0x0, .lg, [⟨31, 31, .rws, .any⟩, ⟨3, 0, .rws, .any⟩]⟩,  -- TIME_LGn_CFG
  ⟨0x810, 8, 0x20, 1, 0x0, .val 0x0, .none, [⟨31, 31, .ro, .any⟩, ⟨3, 0, .ro, .any⟩]⟩,  -- TIME_LGn_CFG_ACT
  ⟨0x804, 8, 0x20, 1, 0x0, .val 0x0, .lg, [⟨31, 0, .rws, .any⟩]⟩,  -- TIME_LGn_MEM_LO
  ⟨0x814, 8, 0x20, 1, 0x0, .val 0x0, .none, [⟨31, 0, .ro, .any⟩]⟩,  -- TIME_LGn_MEM_LO_ACT
  ⟨0x808, 8, 0x20, 1, 0x0, .val 0x0, .lg, [⟨15, 0, .rws, .any⟩]⟩,  -- TIME_LGn_MEM_HI
  ⟨0x818, 8, 0x20, 1, 0x0, .val 0x0, .none, [⟨15, 0, .ro, .any⟩]⟩,  -- TIME_LGn_MEM_HI_ACT
  ⟨0x900, 9, 0x20, 1, 0x0, .val 0x0, .none, [⟨31, 31, .rw, .any⟩, ⟨23, 16, .rw, .range 0 200⟩, ⟨9, 8, .rw, .any⟩, ⟨6, 4, .rw, .any⟩]⟩,  -- TIME_TRIGn_CFG
  ⟨0x904, 9, 0x20, 1, 0x0, .val 0x0, .none, [⟨31, 16, .rc, .any⟩, ⟨4, 0, .ro, .any⟩]⟩,  -- TIME_TRIGn_STAT
  ⟨0x908, 9, 0x20, 1, 0x0, .val 0x0, .none, [⟨31, 31, .rc, .any⟩, ⟨30, 29, .rc, .any⟩, ⟨28, 26, .rc, .any⟩, ⟨15, 0, .rc, .any⟩]⟩,  -- TIME_TRIGn_OUT0
  ⟨0x90C, 9, 0x20, 1, 0x0, .val 0x0, .none, [⟨31, 0, .ro, .any⟩]⟩,  -- TIME_TRIGn_OUT1
  ⟨0x910, 9, 0x20, 1, 0x0, .val 0x0, .none, [⟨31, 0, .ro, .any⟩]⟩]  -- TIME_TRIGn_OUT2

/-- The families of block SP (spec/04_operations.md). -/
def famsSp : List Fam := [
  ⟨0x0, 1, 0x0, 1, 0x0, .val 0x0, .none, [⟨7, 7, .w1c, .any⟩, ⟨6, 6, .w1c, .any⟩, ⟨5, 5, .w1c, .any⟩, ⟨4, 4, .w1c, .any⟩, ⟨3, 3, .w1c, .any⟩, ⟨2, 2, .w1c, .any⟩, ⟨1, 1, .w1c, .any⟩, ⟨0, 0, .w1c, .any⟩]⟩,  -- SP_EVSTAT
  ⟨0x4, 1, 0x0, 1, 0x0, .val 0x0, .none, [⟨7, 0, .rw, .any⟩]⟩,  -- SP_EVEN
  ⟨0x8, 1, 0x0, 1, 0x0, .val 0x0, .none, [⟨31, 0, .w1c, .any⟩]⟩,  -- SP_CMPL_LO
  ⟨0xC, 1, 0x0, 1, 0x0, .val 0x0, .none, [⟨31, 0, .w1c, .any⟩]⟩,  -- SP_CMPL_HI
  ⟨0x10, 1, 0x0, 1, 0x0, .val 0x0, .none, [⟨31, 0, .ro, .any⟩]⟩,  -- SP_FAULTED_LO
  ⟨0x14, 1, 0x0, 1, 0x0, .val 0x0, .none, [⟨31, 0, .ro, .any⟩]⟩,  -- SP_FAULTED_HI
  ⟨0x18, 1, 0x0, 1, 0x0, .val 0x0, .none, [⟨9, 0, .ro, .any⟩]⟩,  -- SP_INFLIGHT
  ⟨0x1C, 1, 0x0, 1, 0x0, .val 0x0, .none, [⟨31, 0, .rc, .any⟩]⟩,  -- SP_FORCED
  ⟨0x20, 1, 0x0, 1, 0x0, .val 0x0, .none, [⟨31, 0, .ro, .any⟩]⟩,  -- SP_RECFAULT_LO
  ⟨0x24, 1, 0x0, 1, 0x0, .val 0x0, .none, [⟨7, 0, .ro, .any⟩]⟩,  -- SP_RECFAULT_HI
  ⟨0x40, 8, 0x4, 1, 0x0, .val 0x0, .none, [⟨22, 16, .ro, .any⟩, ⟨15, 8, .ro, .any⟩, ⟨7, 0, .ro, .any⟩]⟩,  -- SP_Pn_STAT
  ⟨0x1000, 64, 0x40, 1, 0x0, .val 0x0, .none, [⟨1, 1, .w1s0, .any⟩, ⟨0, 0, .w1s0, .any⟩]⟩,  -- SP_Tt_CTRL
  ⟨0x1004, 64, 0x40, 1, 0x0, .val 0x1, .none, [⟨31, 31, .rw, .any⟩, ⟨11, 8, .rw, .any⟩, ⟨5, 4, .rw, .range 0 1⟩, ⟨1, 0, .rw, .any⟩]⟩,  -- SP_Tt_CFG
  ⟨0x1008, 64, 0x40, 1, 0x0, .val 0x0, .none, [⟨17, 2, .rw, .any⟩]⟩,  -- SP_Tt_ENTRY
  ⟨0x100C, 64, 0x40, 1, 0x0, .val 0x0, .none, [⟨23, 20, .ro, .any⟩, ⟨6, 4, .ro, .any⟩, ⟨1, 0, .ro, .any⟩]⟩,  -- SP_Tt_STAT
  ⟨0x1010, 64, 0x40, 1, 0x0, .val 0x0, .none, [⟨17, 0, .ro, .any⟩]⟩,  -- SP_Tt_PC
  ⟨0x1014, 64, 0x40, 1, 0x0, .val 0x0, .none, [⟨31, 31, .ro, .any⟩, ⟨27, 16, .ro, .any⟩, ⟨7, 0, .ro, .any⟩]⟩,  -- SP_Tt_FCODE
  ⟨0x1018, 64, 0x40, 1, 0x0, .val 0x0, .none, [⟨18, 0, .ro, .any⟩]⟩,  -- SP_Tt_FPC
  ⟨0x101C, 64, 0x40, 1, 0x0, .val 0x0, .none, [⟨31, 0, .ro, .any⟩]⟩,  -- SP_Tt_FADDR_LO
  ⟨0x1020, 64, 0x40, 1, 0x0, .val 0x0, .none, [⟨7, 0, .ro, .any⟩]⟩,  -- SP_Tt_FADDR_HI
  ⟨0x1024, 64, 0x40, 1, 0x0, .val 0x0, .none, [⟨31, 16, .ro, .any⟩, ⟨15, 0, .ro, .any⟩]⟩,  -- SP_Tt_HANDLES
  ⟨0x4000, 256, 0x4, 1, 0x0, .val 0x0, .none, [⟨31, 31, .ro, .any⟩, ⟨30, 30, .ro, .any⟩, ⟨29, 29, .wo, .any⟩, ⟨13, 8, .ro, .any⟩, ⟨5, 0, .ro, .any⟩]⟩,  -- SP_LOCKn
  ⟨0x8000, 64, 0x100, 64, 0x4, .val 0x0, .none, [⟨31, 0, .ro, .any⟩]⟩]  -- SP_Tt_HRECk_Ww

/-- The families of block LE (spec/06_loop_engine.md). -/
def famsLe : List Fam := [
  ⟨0x0, 1, 0x0, 1, 0x0, .val 0x0, .none, [⟨9, 9, .w1c, .any⟩, ⟨8, 8, .w1c, .any⟩, ⟨7, 7, .w1c, .any⟩, ⟨6, 6, .w1c, .any⟩, ⟨5, 5, .w1c, .any⟩, ⟨4, 4, .w1c, .any⟩, ⟨3, 3, .w1c, .any⟩, ⟨2, 2, .w1c, .any⟩, ⟨1, 1, .w1c, .any⟩, ⟨0, 0, .w1c, .any⟩]⟩,  -- LE_EVSTAT
  ⟨0x4, 1, 0x0, 1, 0x0, .val 0x0, .none, [⟨9, 0, .rw, .any⟩]⟩,  -- LE_EVEN
  ⟨0x8, 1, 0x0, 1, 0x0, .val 0x0, .none, [⟨24, 16, .ro, .any⟩, ⟨8, 0, .ro, .any⟩]⟩,  -- LE_STAT
  ⟨0xC, 1, 0x0, 1, 0x0, .val 0x0, .none, [⟨15, 0, .ro, .any⟩]⟩,  -- LE_UTIL
  ⟨0x10, 1, 0x0, 1, 0x0, .val 0x0, .none, [⟨28, 16, .ro, .any⟩, ⟨15, 0, .ro, .any⟩]⟩,  -- LE_TIN
  ⟨0x14, 1, 0x0, 1, 0x0, .val 0x0, .none, [⟨31, 24, .ro, .any⟩, ⟨23, 16, .ro, .any⟩, ⟨7, 0, .ro, .any⟩]⟩,  -- LE_LASTERR
  ⟨0x18, 1, 0x0, 1, 0x0, .val 0x0, .none, [⟨31, 0, .rc, .any⟩]⟩,  -- LE_ECC_CNT
  ⟨0x1C, 1, 0x0, 1, 0x0, .val 0x0, .none, [⟨31, 31, .rc, .any⟩, ⟨21, 0, .ro, .any⟩]⟩,  -- LE_ECC_ADDR
  ⟨0x20, 1, 0x0, 1, 0x0, .val 0x0, .none, [⟨31, 0, .w1s, .any⟩]⟩,  -- LE_COMMIT_LO
  ⟨0x24, 1, 0x0, 1, 0x0, .val 0x0, .none, [⟨31, 0, .w1s, .any⟩]⟩,  -- LE_COMMIT_HI
  ⟨0x40, 8, 0x4, 1, 0x0, .val 0x0, .none, [⟨31, 0, .ro, .any⟩]⟩,  -- LE_FBn
  ⟨0x60, 8, 0x4, 1, 0x0, .val 0x0, .none, [⟨31, 0, .ro, .any⟩]⟩,  -- LE_FLTn
  ⟨0x1000, 256, 0x8, 1, 0x0, .val 0x0, .none, [⟨31, 30, .ro, .any⟩, ⟨29, 29, .ro, .any⟩, ⟨23, 16, .ro, .any⟩, ⟨15, 8, .ro, .any⟩, ⟨7, 0, .ro, .any⟩]⟩,  -- LE_CTXc_STAT
  ⟨0x1004, 256, 0x8, 1, 0x0, .val 0x0, .none, [⟨31, 24, .rc, .any⟩, ⟨23, 12, .rc, .any⟩, ⟨11, 0, .rc, .any⟩]⟩,  -- LE_CTXc_CNT
  ⟨0x4000, 64, 0x40, 1, 0x0, .val 0x0, .tr, [⟨31, 31, .rws, .any⟩, ⟨30, 30, .rws, .any⟩, ⟨20, 16, .rws, .any⟩, ⟨15, 8, .rws, .any⟩, ⟨2, 0, .rws, .any⟩]⟩,  -- LE_TRb_CFG
  ⟨0x4020, 64, 0x40, 1, 0x0, .val 0x0, .none, [⟨31, 31, .ro, .any⟩, ⟨30, 30, .ro, .any⟩, ⟨20, 16, .ro, .any⟩, ⟨15, 8, .ro, .any⟩, ⟨2, 0, .ro, .any⟩]⟩,  -- LE_TRb_CFG_ACT
  ⟨0x4004, 64, 0x40, 1, 0x0, .val 0x0, .tr, [⟨12, 0, .rws, .range 0 4096⟩]⟩,  -- LE_TRb_POST
  ⟨0x4024, 64, 0x40, 1, 0x0, .val 0x0, .none, [⟨12, 0, .ro, .any⟩]⟩,  -- LE_TRb_POST_ACT
  ⟨0x4008, 64, 0x40, 1, 0x0, .val 0x0, .tr, [⟨31, 0, .rws, .any⟩]⟩,  -- LE_TRb_NODES_LO
  ⟨0x4028, 64, 0x40, 1, 0x0, .val 0x0, .none, [⟨31, 0, .ro, .any⟩]⟩,  -- LE_TRb_NODES_LO_ACT
  ⟨0x400C, 64, 0x40, 1, 0x0, .val 0x0, .tr, [⟨31, 0, .rws, .any⟩]⟩,  -- LE_TRb_NODES_HI
  ⟨0x402C, 64, 0x40, 1, 0x0, .val 0x0, .none, [⟨31, 0, .ro, .any⟩]⟩,  -- LE_TRb_NODES_HI_ACT
  ⟨0x4010, 64, 0x40, 1, 0x0, .val 0x0, .none, [⟨31, 30, .ro, .any⟩, ⟨29, 29, .ro, .any⟩, ⟨11, 0, .ro, .any⟩]⟩]  -- LE_TRb_STAT

/-- The families of block SIG (spec/05_signal_store.md). -/
def famsSig : List Fam := [
  ⟨0x0, 1, 0x0, 1, 0x0, .val 0x0, .none, [⟨8, 8, .w1c, .any⟩, ⟨7, 7, .w1c, .any⟩, ⟨6, 6, .w1c, .any⟩, ⟨5, 5, .w1c, .any⟩, ⟨4, 4, .w1c, .any⟩, ⟨3, 3, .w1c, .any⟩, ⟨2, 2, .w1c, .any⟩, ⟨1, 1, .w1c, .any⟩, ⟨0, 0, .w1c, .any⟩]⟩,  -- SIG_EVSTAT
  ⟨0x4, 1, 0x0, 1, 0x0, .val 0x0, .none, [⟨8, 0, .rw, .any⟩]⟩,  -- SIG_EVEN
  ⟨0x8, 1, 0x0, 1, 0x0, .val 0x0, .none, [⟨31, 16, .ro, .any⟩, ⟨9, 0, .ro, .any⟩]⟩,  -- SIG_STAT
  ⟨0xC, 1, 0x0, 1, 0x0, .val 0x0, .none, [⟨18, 0, .ro, .any⟩]⟩,  -- SIG_DEFINED
  ⟨0x10, 1, 0x0, 1, 0x0, .val 0x0, .none, [⟨31, 0, .rc, .any⟩]⟩,  -- SIG_LATE
  ⟨0x14, 1, 0x0, 1, 0x0, .val 0x0, .none, [⟨31, 0, .rc, .any⟩]⟩,  -- SIG_DENIED
  ⟨0x18, 1, 0x0, 1, 0x0, .val 0x0, .none, [⟨31, 0, .rc, .any⟩]⟩,  -- SIG_UNDEF
  ⟨0x1C, 1, 0x0, 1, 0x0, .val 0x0, .none, [⟨31, 0, .rc, .any⟩]⟩,  -- SIG_STAMPERR
  ⟨0x20, 1, 0x0, 1, 0x0, .val 0x0, .route, [⟨31, 3, .rws, .any⟩]⟩,  -- SIG_ROUTE_BASE_LO
  ⟨0x44, 1, 0x0, 1, 0x0, .val 0x0, .none, [⟨31, 3, .ro, .any⟩]⟩,  -- SIG_ROUTE_BASE_LO_ACT
  ⟨0x24, 1, 0x0, 1, 0x0, .val 0x0, .route, [⟨7, 0, .rws, .any⟩]⟩,  -- SIG_ROUTE_BASE_HI
  ⟨0x48, 1, 0x0, 1, 0x0, .val 0x0, .none, [⟨7, 0, .ro, .any⟩]⟩,  -- SIG_ROUTE_BASE_HI_ACT
  ⟨0x28, 1, 0x0, 1, 0x0, .val 0x0, .route, [⟨16, 0, .rws, .range 0 65536⟩]⟩,  -- SIG_ROUTE_LEN
  ⟨0x4C, 1, 0x0, 1, 0x0, .val 0x0, .none, [⟨16, 0, .ro, .any⟩]⟩,  -- SIG_ROUTE_LEN_ACT
  ⟨0x30, 1, 0x0, 1, 0x0, .val 0x30000A, .none, [⟨22, 16, .rw, .range 1 64⟩, ⟨15, 0, .rw, .nonzero⟩]⟩,  -- SIG_HOT_CFG
  ⟨0x34, 1, 0x0, 1, 0x0, .val 0x0, .none, [⟨17, 0, .rw, .any⟩]⟩,  -- SIG_LOCATE_IDX
  ⟨0x38, 1, 0x0, 1, 0x0, .val 0x0, .none, [⟨31, 28, .ro, .any⟩, ⟨13, 0, .ro, .any⟩]⟩,  -- SIG_LOCATE_RES
  ⟨0x3C, 1, 0x0, 1, 0x0, .val 0x0, .none, [⟨31, 31, .rc, .any⟩, ⟨17, 0, .ro, .any⟩]⟩,  -- SIG_ECC_IDX
  ⟨0x40, 1, 0x0, 1, 0x0, .val 0x0, .none, [⟨0, 0, .w1s, .any⟩]⟩,  -- SIG_COMMIT
  ⟨0x100, 16, 0x8, 1, 0x0, .val 0x0, .none, [⟨31, 31, .ro, .any⟩, ⟨6, 0, .ro, .any⟩]⟩,  -- SIG_BANKb_STAT
  ⟨0x104, 16, 0x8, 1, 0x0, .val 0x0, .none, [⟨15, 0, .rc, .any⟩]⟩,  -- SIG_BANKb_HOT
  ⟨0x200, 1, 0x0, 1, 0x0, .val 0x0, .none, [⟨17, 0, .rw, .any⟩]⟩,  -- SIG_DPORT_IDX
  ⟨0x204, 4, 0x4, 1, 0x0, .val 0x0, .none, [⟨31, 0, .rw, .any⟩]⟩,  -- SIG_DPORT_Wn
  ⟨0x214, 1, 0x0, 1, 0x0, .val 0x0, .none, [⟨31, 24, .ro, .any⟩, ⟨16, 16, .ro, .any⟩, ⟨3, 0, .wo, .any⟩]⟩,  -- SIG_DPORT_CMD
  ⟨0x220, 8, 0x4, 1, 0x0, .val 0x0, .none, [⟨31, 0, .ro, .any⟩]⟩]  -- SIG_DPORT_HISTn

/-- The families of block CAPT (spec/12_capture.md). -/
def famsCapt : List Fam := [
  ⟨0x0, 1, 0x0, 1, 0x0, .val 0x0, .none, [⟨8, 8, .w1c, .any⟩, ⟨7, 7, .w1c, .any⟩, ⟨6, 6, .w1c, .any⟩, ⟨5, 5, .w1c, .any⟩, ⟨4, 4, .w1c, .any⟩, ⟨3, 3, .w1c, .any⟩, ⟨2, 2, .w1c, .any⟩, ⟨1, 1, .w1c, .any⟩, ⟨0, 0, .w1c, .any⟩]⟩,  -- CAPT_EVSTAT
  ⟨0x4, 1, 0x0, 1, 0x0, .val 0x0, .none, [⟨8, 0, .rw, .any⟩]⟩,  -- CAPT_EVEN
  ⟨0x8, 1, 0x0, 1, 0x0, .val 0x0, .none, [⟨15, 0, .w1s, .any⟩]⟩,  -- CAPT_COMMIT
  ⟨0xC, 1, 0x0, 1, 0x0, .val 0x0, .none, [⟨31, 0, .w1s, .any⟩]⟩,  -- CAPT_COMMIT_TR_LO
  ⟨0x10, 1, 0x0, 1, 0x0, .val 0x0, .none, [⟨31, 0, .w1s, .any⟩]⟩,  -- CAPT_COMMIT_TR_HI
  ⟨0x14, 1, 0x0, 1, 0x0, .val 0x0, .none, [⟨15, 0, .ro, .any⟩]⟩,  -- CAPT_STAT
  ⟨0x18, 1, 0x0, 1, 0x0, .val 0x0, .none, [⟨31, 24, .ro, .any⟩, ⟨23, 16, .ro, .any⟩, ⟨15, 4, .ro, .any⟩, ⟨3, 0, .ro, .any⟩]⟩,  -- CAPT_LASTERR
  ⟨0x1C, 1, 0x0, 1, 0x0, .val 0x0, .none, [⟨31, 0, .rc, .any⟩]⟩,  -- CAPT_HERDERR
  ⟨0x100, 16, 0x40, 1, 0x0, .val 0x0, .capts, [⟨31, 31, .rws, .any⟩, ⟨30, 30, .rws, .any⟩, ⟨29, 29, .rws, .any⟩, ⟨12, 0, .rws, .any⟩]⟩,  -- CAPT_Sn_CFG
  ⟨0x800, 16, 0x40, 1, 0x0, .val 0x0, .none, [⟨31, 31, .ro, .any⟩, ⟨30, 30, .ro, .any⟩, ⟨29, 29, .ro, .any⟩, ⟨12, 0, .ro, .any⟩]⟩,  -- CAPT_Sn_CFG_ACT
  ⟨0x104, 16, 0x40, 1, 0x0, .val 0x0, .capts, [⟨31, 2, .rws, .any⟩]⟩,  -- CAPT_Sn_LIST_LO
  ⟨0x804, 16, 0x40, 1, 0x0, .val 0x0, .none, [⟨31, 2, .ro, .any⟩]⟩,  -- CAPT_Sn_LIST_LO_ACT
  ⟨0x108, 16, 0x40, 1, 0x0, .val 0x0, .capts, [⟨7, 0, .rws, .any⟩]⟩,  -- CAPT_Sn_LIST_HI
  ⟨0x808, 16, 0x40, 1, 0x0, .val 0x0, .none, [⟨7, 0, .ro, .any⟩]⟩,  -- CAPT_Sn_LIST_HI_ACT
  ⟨0x10C, 16, 0x40, 1, 0x0, .val 0x0, .capts, [⟨31, 3, .rws, .any⟩]⟩,  -- CAPT_Sn_BASE_LO
  ⟨0x80C, 16, 0x40, 1, 0x0, .val 0x0, .none, [⟨31, 3, .ro, .any⟩]⟩,  -- CAPT_Sn_BASE_LO_ACT
  ⟨0x110, 16, 0x40, 1, 0x0, .val 0x0, .capts, [⟨7, 0, .rws, .any⟩]⟩,  -- CAPT_Sn_BASE_HI
  ⟨0x810, 16, 0x40, 1, 0x0, .val 0x0, .none, [⟨7, 0, .ro, .any⟩]⟩,  -- CAPT_Sn_BASE_HI_ACT
  ⟨0x114, 16, 0x40, 1, 0x0, .val 0x10, .capts, [⟨27, 0, .rws, .range 16 268435455⟩]⟩,  -- CAPT_Sn_SIZE
  ⟨0x814, 16, 0x40, 1, 0x0, .val 0x10, .none, [⟨27, 0, .ro, .any⟩]⟩,  -- CAPT_Sn_SIZE_ACT
  ⟨0x118, 16, 0x40, 1, 0x0, .val 0x0, .capts, [⟨27, 0, .rws, .any⟩]⟩,  -- CAPT_Sn_PRE
  ⟨0x818, 16, 0x40, 1, 0x0, .val 0x0, .none, [⟨27, 0, .ro, .any⟩]⟩,  -- CAPT_Sn_PRE_ACT
  ⟨0x11C, 16, 0x40, 1, 0x0, .val 0x0, .capts, [⟨27, 0, .rws, .any⟩]⟩,  -- CAPT_Sn_POST
  ⟨0x81C, 16, 0x40, 1, 0x0, .val 0x0, .none, [⟨27, 0, .ro, .any⟩]⟩,  -- CAPT_Sn_POST_ACT
  ⟨0x120, 16, 0x40, 1, 0x0, .val 0x500000, .capts, [⟨22, 16, .rws, .any⟩, ⟨15, 0, .rws, .any⟩]⟩,  -- CAPT_Sn_HERD
  ⟨0x820, 16, 0x40, 1, 0x0, .val 0x500000, .none, [⟨22, 16, .ro, .any⟩, ⟨15, 0, .ro, .any⟩]⟩,  -- CAPT_Sn_HERD_ACT
  ⟨0x124, 16, 0x40, 1, 0x0, .val 0x0, .none, [⟨31, 29, .ro, .any⟩, ⟨23, 16, .ro, .any⟩, ⟨15, 0, .ro, .any⟩]⟩,  -- CAPT_Sn_STAT
  ⟨0x128, 16, 0x40, 1, 0x0, .val 0x0, .none, [⟨27, 0, .ro, .any⟩]⟩,  -- CAPT_Sn_WR
  ⟨0x12C, 16, 0x40, 1, 0x0, .val 0x0, .none, [⟨27, 0, .rw, .any⟩]⟩,  -- CAPT_Sn_RD
  ⟨0x130, 16, 0x40, 1, 0x0, .val 0x0, .none, [⟨27, 0, .ro, .any⟩]⟩,  -- CAPT_Sn_FIRST
  ⟨0x134, 16, 0x40, 1, 0x0, .val 0x0, .none, [⟨27, 0, .ro, .any⟩]⟩,  -- CAPT_Sn_COUNT
  ⟨0x138, 16, 0x40, 1, 0x0, .val 0x0, .none, [⟨31, 0, .rc, .any⟩]⟩,  -- CAPT_Sn_LOST
  ⟨0x13C, 16, 0x40, 1, 0x0, .val 0x0, .none, [⟨31, 0, .ro, .any⟩]⟩,  -- CAPT_Sn_ARMNO
  ⟨0x600, 16, 0x20, 1, 0x0, .val 0x0, .none, [⟨31, 0, .ro, .any⟩]⟩,  -- CAPT_Sn_TRIG_LO
  ⟨0x604, 16, 0x20, 1, 0x0, .val 0x0, .none, [⟨31, 0, .ro, .any⟩]⟩,  -- CAPT_Sn_TRIG_HI
  ⟨0x608, 16, 0x20, 1, 0x0, .val 0x0, .none, [⟨31, 31, .ro, .any⟩, ⟨30, 29, .ro, .any⟩, ⟨28, 28, .ro, .any⟩, ⟨21, 16, .ro, .any⟩, ⟨15, 0, .ro, .any⟩]⟩,  -- CAPT_Sn_TRIG_INFO
  ⟨0x60C, 16, 0x20, 1, 0x0, .val 0x0, .none, [⟨31, 0, .ro, .any⟩]⟩,  -- CAPT_Sn_MASK_LO
  ⟨0x610, 16, 0x20, 1, 0x0, .val 0x0, .none, [⟨31, 0, .ro, .any⟩]⟩,  -- CAPT_Sn_MASK_HI
  ⟨0x1000, 64, 0x20, 1, 0x0, .val 0x0, .capttr, [⟨31, 31, .rws, .any⟩, ⟨27, 24, .rws, .any⟩, ⟨23, 20, .rws, .any⟩, ⟨3, 0, .rws, .any⟩]⟩,  -- CAPT_TRu_CFG
  ⟨0x1800, 64, 0x20, 1, 0x0, .val 0x0, .none, [⟨31, 31, .ro, .any⟩, ⟨27, 24, .ro, .any⟩, ⟨23, 20, .ro, .any⟩, ⟨3, 0, .ro, .any⟩]⟩,  -- CAPT_TRu_CFG_ACT
  ⟨0x1004, 64, 0x20, 1, 0x0, .val 0x0, .capttr, [⟨17, 0, .rws, .any⟩]⟩,  -- CAPT_TRu_SIG
  ⟨0x1804, 64, 0x20, 1, 0x0, .val 0x0, .none, [⟨17, 0, .ro, .any⟩]⟩,  -- CAPT_TRu_SIG_ACT
  ⟨0x1008, 64, 0x20, 1, 0x0, .val 0x0, .capttr, [⟨31, 0, .rws, .any⟩]⟩,  -- CAPT_TRu_A
  ⟨0x1808, 64, 0x20, 1, 0x0, .val 0x0, .none, [⟨31, 0, .ro, .any⟩]⟩,  -- CAPT_TRu_A_ACT
  ⟨0x100C, 64, 0x20, 1, 0x0, .val 0x0, .capttr, [⟨31, 0, .rws, .any⟩]⟩,  -- CAPT_TRu_B
  ⟨0x180C, 64, 0x20, 1, 0x0, .val 0x0, .none, [⟨31, 0, .ro, .any⟩]⟩,  -- CAPT_TRu_B_ACT
  ⟨0x1010, 64, 0x20, 1, 0x0, .val 0x0, .capttr, [⟨31, 0, .rws, .any⟩]⟩,  -- CAPT_TRu_MASK
  ⟨0x1810, 64, 0x20, 1, 0x0, .val 0x0, .none, [⟨31, 0, .ro, .any⟩]⟩,  -- CAPT_TRu_MASK_ACT
  ⟨0x1014, 64, 0x20, 1, 0x0, .val 0x0, .none, [⟨31, 31, .ro, .any⟩, ⟨30, 30, .ro, .any⟩, ⟨15, 0, .ro, .any⟩]⟩]  -- CAPT_TRu_STAT

/-- The families of block HERD (spec/10_herd.md). -/
def famsHerd : List Fam := [
  ⟨0x0, 1, 0x0, 1, 0x0, .val 0x0, .none, [⟨22, 0, .w1c, .any⟩]⟩,  -- HERD_EVSTAT
  ⟨0x4, 1, 0x0, 1, 0x0, .val 0x0, .none, [⟨22, 0, .rw, .any⟩]⟩,  -- HERD_EVEN
  ⟨0x8, 1, 0x0, 1, 0x0, .val 0x0, .none, [⟨31, 31, .ro, .any⟩, ⟨30, 30, .ro, .any⟩, ⟨29, 29, .ro, .any⟩, ⟨28, 28, .ro, .any⟩, ⟨15, 0, .ro, .any⟩]⟩,  -- HERD_STAT
  ⟨0xC, 1, 0x0, 1, 0x0, .val 0x80042000, .none, [⟨31, 24, .rw, .any⟩, ⟨23, 16, .rw, .any⟩, ⟨15, 8, .rw, .nonzero⟩]⟩,  -- HERD_CFG
  ⟨0x10, 1, 0x0, 1, 0x0, .val 0x1, .none, [⟨15, 0, .rw, .range 1 65534⟩]⟩,  -- HERD_IDBASE
  ⟨0x14, 1, 0x0, 1, 0x0, .val 0xFA, .none, [⟨13, 0, .rw, .range 32 10000⟩]⟩,  -- HERD_SYNC
  ⟨0x18, 1, 0x0, 1, 0x0, .val 0x0, .none, [⟨31, 31, .ro, .any⟩, ⟨17, 16, .ro, .any⟩, ⟨15, 0, .ro, .any⟩]⟩,  -- HERD_PARENT
  ⟨0x1C, 1, 0x0, 1, 0x0, .val 0x0, .none, [⟨23, 16, .ro, .any⟩, ⟨15, 0, .ro, .any⟩]⟩,  -- HERD_STAG
  ⟨0x20, 4, 0x4, 1, 0x0, .val 0x0, .none, [⟨31, 0, .ro, .any⟩]⟩,  -- HERD_STAG_UIDi
  ⟨0x30, 1, 0x0, 1, 0x0, .val 0x0, .herdcyc, [⟨31, 31, .rws, .any⟩, ⟨3, 0, .rws, .any⟩]⟩,  -- HERD_CYC
  ⟨0x40, 1, 0x0, 1, 0x0, .val 0x0, .none, [⟨31, 31, .ro, .any⟩, ⟨3, 0, .ro, .any⟩]⟩,  -- HERD_CYC_ACT
  ⟨0x34, 1, 0x0, 1, 0x0, .val 0x0, .none, [⟨8, 8, .wo, .any⟩, ⟨4, 1, .w1s, .any⟩, ⟨0, 0, .w1s, .any⟩]⟩,  -- HERD_COMMIT
  ⟨0x38, 1, 0x0, 1, 0x0, .val 0x0, .none, [⟨31, 0, .rw, .any⟩]⟩,  -- HERD_COMMIT_CYC_LO
  ⟨0x3C, 1, 0x0, 1, 0x0, .val 0x0, .none, [⟨31, 0, .rw, .any⟩]⟩,  -- HERD_COMMIT_CYC_HI
  ⟨0x44, 1, 0x0, 1, 0x0, .val 0x120003E8, .none, [⟨29, 29, .rw, .any⟩, ⟨28, 28, .rw, .any⟩, ⟨26, 24, .rw, .any⟩, ⟨15, 0, .rw, .nonzero⟩]⟩,  -- HERD_TXN_CFG
  ⟨0x48, 1, 0x0, 1, 0x0, .val 0x0, .none, [⟨22, 16, .ro, .any⟩, ⟨10, 0, .ro, .any⟩]⟩,  -- HERD_TXN_STAT
  ⟨0x50, 1, 0x0, 1, 0x0, .val 0x0, .none, [⟨31, 0, .rc, .any⟩]⟩,  -- HERD_DROP_HOP
  ⟨0x54, 1, 0x0, 1, 0x0, .val 0x0, .none, [⟨31, 0, .rc, .any⟩]⟩,  -- HERD_DROP_CLASS
  ⟨0x58, 1, 0x0, 1, 0x0, .val 0x0, .none, [⟨31, 0, .rc, .any⟩]⟩,  -- HERD_DROP_UNR
  ⟨0x5C, 1, 0x0, 1, 0x0, .val 0x0, .none, [⟨31, 0, .rc, .any⟩]⟩,  -- HERD_DROP_CONG
  ⟨0x80, 4, 0x8, 1, 0x0, .val 0x0, .none, [⟨31, 3, .rw, .any⟩]⟩,  -- HERD_WINw_BASE
  ⟨0x84, 4, 0x8, 1, 0x0, .val 0x0, .none, [⟨31, 31, .rw, .any⟩, ⟨30, 30, .rw, .any⟩, ⟨29, 0, .rw, .any⟩]⟩,  -- HERD_WINw_SIZE
  ⟨0xA0, 4, 0x4, 1, 0x0, .val 0x0, .none, [⟨31, 0, .ro, .any⟩]⟩,  -- HERD_HERDIDi
  ⟨0x400, 4, 0x100, 1, 0x0, .val 0x1, .none, [⟨0, 0, .rw, .any⟩]⟩,  -- HERD_HPn_CTRL
  ⟨0x404, 4, 0x100, 1, 0x0, .val 0x0, .none, [⟨31, 29, .ro, .any⟩, ⟨28, 26, .ro, .any⟩, ⟨15, 0, .ro, .any⟩]⟩,  -- HERD_HPn_STAT
  ⟨0x408, 4, 0x100, 1, 0x0, .val 0x0, .none, [⟨15, 0, .rw, .any⟩]⟩,  -- HERD_HPn_ASYM
  ⟨0x40C, 4, 0x100, 1, 0x0, .val 0x0, .none, [⟨31, 0, .ro, .any⟩]⟩,  -- HERD_HPn_DELAY
  ⟨0x410, 4, 0x100, 1, 0x0, .val 0x0, .none, [⟨31, 0, .ro, .any⟩]⟩,  -- HERD_HPn_OFFSET
  ⟨0x414, 4, 0x100, 1, 0x0, .val 0x0, .none, [⟨31, 16, .ro, .any⟩, ⟨15, 0, .ro, .any⟩]⟩,  -- HERD_HPn_LANE
  ⟨0x418, 4, 0x100, 1, 0x0, .val 0x0, .none, [⟨31, 16, .rc, .any⟩, ⟨15, 8, .rc, .any⟩, ⟨7, 0, .rc, .any⟩]⟩,  -- HERD_HPn_ERRCNT
  ⟨0x41C, 4, 0x100, 1, 0x0, .val 0x0, .herdslot, [⟨10, 0, .rws, .any⟩]⟩,  -- HERD_HPn_SLOTLEN
  ⟨0x420, 4, 0x100, 1, 0x0, .val 0x0, .none, [⟨10, 0, .ro, .any⟩]⟩,  -- HERD_HPn_SLOTLEN_ACT
  ⟨0x424, 4, 0x100, 1, 0x0, .val 0x0, .none, [⟨31, 16, .rc, .any⟩, ⟨15, 0, .rc, .any⟩]⟩,  -- HERD_HPn_ISOCNT
  ⟨0x1000, 4, 0x100, 64, 0x4, .val 0x0, .none, [⟨31, 16, .ro, .any⟩, ⟨15, 0, .ro, .any⟩]⟩,  -- HERD_HPn_IVLi
  ⟨0x8000, 4, 0x1000, 1024, 0x4, .val 0x0, .herdslot, [⟨31, 20, .rws, .any⟩, ⟨19, 0, .rws, .any⟩]⟩,  -- HERD_HPn_SLOTi
  ⟨0xC000, 4, 0x1000, 1024, 0x4, .val 0x0, .none, [⟨31, 20, .ro, .any⟩, ⟨19, 0, .ro, .any⟩]⟩]  -- HERD_HPn_SLOTi_ACT

/-- The families of block ETH (spec/11_plant_ports.md). -/
def famsEth : List Fam := [
  ⟨0x0, 1, 0x0, 1, 0x0, .val 0x0, .none, [⟨7, 7, .w1c, .any⟩, ⟨6, 6, .w1c, .any⟩, ⟨5, 5, .w1c, .any⟩, ⟨4, 4, .w1c, .any⟩, ⟨3, 3, .w1c, .any⟩, ⟨2, 2, .w1c, .any⟩, ⟨1, 1, .w1c, .any⟩, ⟨0, 0, .w1c, .any⟩]⟩,  -- ETHn_EVSTAT
  ⟨0x4, 1, 0x0, 1, 0x0, .val 0x0, .none, [⟨7, 0, .rw, .any⟩]⟩,  -- ETHn_EVEN
  ⟨0x8, 1, 0x0, 1, 0x0, .val 0x20, .ethcfg, [⟨31, 31, .rws, .any⟩, ⟨30, 30, .rws, .any⟩, ⟨29, 29, .rws, .any⟩, ⟨28, 28, .rws, .any⟩, ⟨9, 8, .rws, .any⟩, ⟨5, 4, .rws, .any⟩, ⟨1, 0, .rws, .any⟩]⟩,  -- ETHn_CFG
  ⟨0x808, 1, 0x0, 1, 0x0, .val 0x20, .none, [⟨31, 31, .ro, .any⟩, ⟨30, 30, .ro, .any⟩, ⟨29, 29, .ro, .any⟩, ⟨28, 28, .ro, .any⟩, ⟨9, 8, .ro, .any⟩, ⟨5, 4, .ro, .any⟩, ⟨1, 0, .ro, .any⟩]⟩,  -- ETHn_CFG_ACT
  ⟨0xC, 1, 0x0, 1, 0x0, .val 0x0, .ethcfg, [⟨31, 0, .rws, .any⟩]⟩,  -- ETHn_MACADDR_LO
  ⟨0x80C, 1, 0x0, 1, 0x0, .val 0x0, .none, [⟨31, 0, .ro, .any⟩]⟩,  -- ETHn_MACADDR_LO_ACT
  ⟨0x10, 1, 0x0, 1, 0x0, .val 0x0, .ethcfg, [⟨15, 0, .rws, .any⟩]⟩,  -- ETHn_MACADDR_HI
  ⟨0x810, 1, 0x0, 1, 0x0, .val 0x0, .none, [⟨15, 0, .ro, .any⟩]⟩,  -- ETHn_MACADDR_HI_ACT
  ⟨0x14, 1, 0x0, 1, 0x0, .val 0x0, .ethcfg, [⟨31, 0, .rws, .any⟩]⟩,  -- ETHn_IPADDR
  ⟨0x814, 1, 0x0, 1, 0x0, .val 0x0, .none, [⟨31, 0, .ro, .any⟩]⟩,  -- ETHn_IPADDR_ACT
  ⟨0x18, 1, 0x0, 1, 0x0, .val 0x0, .ethcfg, [⟨31, 16, .rws, .any⟩, ⟨15, 0, .rws, .any⟩]⟩,  -- ETHn_LAT
  ⟨0x818, 1, 0x0, 1, 0x0, .val 0x0, .none, [⟨31, 16, .ro, .any⟩, ⟨15, 0, .ro, .any⟩]⟩,  -- ETHn_LAT_ACT
  ⟨0x1C, 1, 0x0, 1, 0x0, .val 0x0, .ethcfg, [⟨15, 0, .rws, .any⟩]⟩,  -- ETHn_RXSTEER
  ⟨0x81C, 1, 0x0, 1, 0x0, .val 0x0, .none, [⟨15, 0, .ro, .any⟩]⟩,  -- ETHn_RXSTEER_ACT
  ⟨0x20, 1, 0x0, 1, 0x0, .val 0x0, .none, [⟨1, 1, .w1s, .any⟩, ⟨0, 0, .w1s, .any⟩]⟩,  -- ETHn_COMMIT
  ⟨0x24, 1, 0x0, 1, 0x0, .val 0x0, .none, [⟨31, 31, .ro, .any⟩, ⟨1, 0, .ro, .any⟩]⟩,  -- ETHn_STAT
  ⟨0x28, 1, 0x0, 1, 0x0, .val 0x80603E8, .none, [⟨27, 24, .rw, .any⟩, ⟨19, 16, .rw, .any⟩, ⟨15, 0, .rw, .any⟩]⟩,  -- ETHn_PTP_CFG
  ⟨0x2C, 1, 0x0, 1, 0x0, .val 0x0, .none, [⟨31, 0, .wo, .any⟩]⟩,  -- ETHn_PTP_OFFSET
  ⟨0x30, 1, 0x0, 1, 0x0, .val 0x0, .none, [⟨31, 31, .rw, .any⟩, ⟨17, 0, .rw, .any⟩]⟩,  -- ETHn_PTP_SIG
  ⟨0x34, 1, 0x0, 1, 0x0, .val 0x0, .none, [⟨31, 0, .rc, .any⟩]⟩,  -- ETHn_CNT_RXDROP
  ⟨0x38, 1, 0x0, 1, 0x0, .val 0x0, .none, [⟨31, 0, .rc, .any⟩]⟩,  -- ETHn_CNT_CRC
  ⟨0x3C, 1, 0x0, 1, 0x0, .val 0x0, .none, [⟨31, 0, .rc, .any⟩]⟩,  -- ETHn_CNT_TXREF
  ⟨0x40, 1, 0x0, 1, 0x0, .val 0x0, .ethgcl, [⟨31, 31, .rws, .any⟩, ⟨8, 0, .rws, .any⟩]⟩,  -- ETHn_GCL_CTRL
  ⟨0x840, 1, 0x0, 1, 0x0, .val 0x0, .none, [⟨31, 31, .ro, .any⟩, ⟨8, 0, .ro, .any⟩]⟩,  -- ETHn_GCL_CTRL_ACT
  ⟨0x44, 1, 0x0, 1, 0x0, .val 0xF4240, .ethgcl, [⟨31, 0, .rws, .range 1000 1000000000⟩]⟩,  -- ETHn_GCL_CYCLE
  ⟨0x844, 1, 0x0, 1, 0x0, .val 0xF4240, .none, [⟨31, 0, .ro, .any⟩]⟩,  -- ETHn_GCL_CYCLE_ACT
  ⟨0x48, 1, 0x0, 1, 0x0, .val 0x0, .ethgcl, [⟨31, 0, .rws, .any⟩]⟩,  -- ETHn_GCL_BASE_LO
  ⟨0x848, 1, 0x0, 1, 0x0, .val 0x0, .none, [⟨31, 0, .ro, .any⟩]⟩,  -- ETHn_GCL_BASE_LO_ACT
  ⟨0x4C, 1, 0x0, 1, 0x0, .val 0x0, .ethgcl, [⟨31, 0, .rws, .any⟩]⟩,  -- ETHn_GCL_BASE_HI
  ⟨0x84C, 1, 0x0, 1, 0x0, .val 0x0, .none, [⟨31, 0, .ro, .any⟩]⟩,  -- ETHn_GCL_BASE_HI_ACT
  ⟨0x100, 8, 0x10, 1, 0x0, .val 0x0, .none, [⟨31, 5, .rw, .any⟩]⟩,  -- ETHn_TXQq_BASE_LO
  ⟨0x104, 8, 0x10, 1, 0x0, .val 0x0, .none, [⟨7, 0, .rw, .any⟩]⟩,  -- ETHn_TXQq_BASE_HI
  ⟨0x108, 8, 0x10, 1, 0x0, .val 0x0, .none, [⟨31, 31, .rw, .any⟩, ⟨28, 16, .ro, .any⟩, ⟨12, 0, .rw, .range 1 4096⟩]⟩,  -- ETHn_TXQq_RING
  ⟨0x10C, 8, 0x10, 1, 0x0, .val 0x0, .none, [⟨12, 0, .rw, .any⟩]⟩,  -- ETHn_TXQq_TAIL
  ⟨0x200, 4, 0x10, 1, 0x0, .val 0x0, .none, [⟨31, 5, .rw, .any⟩]⟩,  -- ETHn_RXr_BASE_LO
  ⟨0x204, 4, 0x10, 1, 0x0, .val 0x0, .none, [⟨7, 0, .rw, .any⟩]⟩,  -- ETHn_RXr_BASE_HI
  ⟨0x208, 4, 0x10, 1, 0x0, .val 0x0, .none, [⟨31, 31, .rw, .any⟩, ⟨28, 16, .ro, .any⟩, ⟨12, 0, .rw, .range 1 4096⟩]⟩,  -- ETHn_RXr_RING
  ⟨0x20C, 4, 0x10, 1, 0x0, .val 0x0, .none, [⟨12, 0, .rw, .any⟩]⟩,  -- ETHn_RXr_TAIL
  ⟨0x1000, 256, 0x4, 1, 0x0, .val 0x0, .ethgcl, [⟨31, 24, .rws, .any⟩, ⟨23, 0, .rws, .any⟩]⟩,  -- ETHn_GCLi
  ⟨0x1400, 256, 0x4, 1, 0x0, .val 0x0, .none, [⟨31, 24, .ro, .any⟩, ⟨23, 0, .ro, .any⟩]⟩]  -- ETHn_GCLi_ACT

/-- The families of block CAN (spec/11_plant_ports.md). -/
def famsCan : List Fam := [
  ⟨0x0, 1, 0x0, 1, 0x0, .val 0x0, .none, [⟨11, 0, .w1c, .any⟩]⟩,  -- CANn_EVSTAT
  ⟨0x4, 1, 0x0, 1, 0x0, .val 0x0, .none, [⟨11, 0, .rw, .any⟩]⟩,  -- CANn_EVEN
  ⟨0x8, 1, 0x0, 1, 0x0, .val 0x0, .can, [⟨8, 8, .rws, .any⟩, ⟨7, 7, .rws, .any⟩, ⟨6, 5, .rws, .any⟩, ⟨4, 4, .rws, .any⟩, ⟨2, 0, .rws, .any⟩]⟩,  -- CANn_CFG
  ⟨0x808, 1, 0x0, 1, 0x0, .val 0x0, .none, [⟨8, 8, .ro, .any⟩, ⟨7, 7, .ro, .any⟩, ⟨6, 5, .ro, .any⟩, ⟨4, 4, .ro, .any⟩, ⟨2, 0, .ro, .any⟩]⟩,  -- CANn_CFG_ACT
  ⟨0xC, 1, 0x0, 1, 0x0, .val 0x0, .can, [⟨31, 27, .rws, .any⟩, ⟨23, 16, .rws, .any⟩, ⟨14, 8, .rws, .any⟩, ⟨6, 0, .rws, .any⟩]⟩,  -- CANn_NBT
  ⟨0x80C, 1, 0x0, 1, 0x0, .val 0x0, .none, [⟨31, 27, .ro, .any⟩, ⟨23, 16, .ro, .any⟩, ⟨14, 8, .ro, .any⟩, ⟨6, 0, .ro, .any⟩]⟩,  -- CANn_NBT_ACT
  ⟨0x10, 1, 0x0, 1, 0x0, .val 0x0, .can, [⟨31, 27, .rws, .any⟩, ⟨20, 16, .rws, .any⟩, ⟨11, 8, .rws, .any⟩, ⟨3, 0, .rws, .any⟩]⟩,  -- CANn_DBT
  ⟨0x810, 1, 0x0, 1, 0x0, .val 0x0, .none, [⟨31, 27, .ro, .any⟩, ⟨20, 16, .ro, .any⟩, ⟨11, 8, .ro, .any⟩, ⟨3, 0, .ro, .any⟩]⟩,  -- CANn_DBT_ACT
  ⟨0x14, 1, 0x0, 1, 0x0, .val 0x0, .can, [⟨6, 0, .rws, .any⟩]⟩,  -- CANn_TDC
  ⟨0x814, 1, 0x0, 1, 0x0, .val 0x0, .none, [⟨6, 0, .ro, .any⟩]⟩,  -- CANn_TDC_ACT
  ⟨0x18, 1, 0x0, 1, 0x0, .val 0x0, .can, [⟨15, 8, .rws, .nonzero⟩, ⟨7, 0, .rws, .nonzero⟩]⟩,  -- CANn_ABDCFG
  ⟨0x818, 1, 0x0, 1, 0x0, .val 0x0, .none, [⟨15, 8, .ro, .any⟩, ⟨7, 0, .ro, .any⟩]⟩,  -- CANn_ABDCFG_ACT
  ⟨0x1C, 1, 0x0, 1, 0x0, .val 0x0, .none, [⟨0, 0, .w1s, .any⟩]⟩,  -- CANn_COMMIT
  ⟨0x20, 1, 0x0, 1, 0x0, .val 0x0, .none, [⟨0, 0, .w1s0, .any⟩]⟩,  -- CANn_CTRL
  ⟨0x24, 1, 0x0, 1, 0x0, .val 0x0, .none, [⟨31, 30, .ro, .any⟩, ⟨26, 24, .ro, .any⟩, ⟨23, 16, .ro, .any⟩, ⟨8, 0, .ro, .any⟩]⟩,  -- CANn_STAT
  ⟨0x28, 1, 0x0, 1, 0x0, .val 0x0, .none, [⟨6, 0, .wo, .any⟩]⟩,  -- CANn_ACK
  ⟨0x2C, 1, 0x0, 1, 0x0, .val 0x0, .none, [⟨31, 16, .rc, .any⟩, ⟨15, 0, .rc, .any⟩]⟩,  -- CANn_CNT
  ⟨0x30, 2, 0x4, 1, 0x0, .val 0x0, .none, [⟨22, 16, .ro, .any⟩, ⟨6, 0, .ro, .any⟩]⟩,  -- CANn_RXQk_STAT
  ⟨0x40, 8, 0x4, 1, 0x0, .val 0x0, .can, [⟨20, 16, .rws, .any⟩, ⟨4, 0, .rws, .any⟩]⟩,  -- CANn_ABDj
  ⟨0x840, 8, 0x4, 1, 0x0, .val 0x0, .none, [⟨20, 16, .ro, .any⟩, ⟨4, 0, .ro, .any⟩]⟩,  -- CANn_ABDj_ACT
  ⟨0x100, 32, 0x10, 1, 0x0, .val 0x0, .can, [⟨31, 31, .rws, .any⟩, ⟨29, 0, .rws, .any⟩]⟩,  -- CANn_FLTi_MATCH
  ⟨0x900, 32, 0x10, 1, 0x0, .val 0x0, .none, [⟨31, 31, .ro, .any⟩, ⟨29, 0, .ro, .any⟩]⟩,  -- CANn_FLTi_MATCH_ACT
  ⟨0x104, 32, 0x10, 1, 0x0, .val 0x0, .can, [⟨29, 0, .rws, .any⟩]⟩,  -- CANn_FLTi_MASK
  ⟨0x904, 32, 0x10, 1, 0x0, .val 0x0, .none, [⟨29, 0, .ro, .any⟩]⟩,  -- CANn_FLTi_MASK_ACT
  ⟨0x108, 32, 0x10, 1, 0x0, .val 0x0, .can, [⟨8, 7, .rws, .any⟩, ⟨6, 0, .rws, .any⟩]⟩,  -- CANn_FLTi_TGT
  ⟨0x908, 32, 0x10, 1, 0x0, .val 0x0, .none, [⟨8, 7, .ro, .any⟩, ⟨6, 0, .ro, .any⟩]⟩,  -- CANn_FLTi_TGT_ACT
  ⟨0x1000, 100, 0x60, 1, 0x0, .val 0x0, .none, [⟨31, 24, .rw, .any⟩, ⟨23, 16, .ro, .any⟩, ⟨15, 8, .ro, .any⟩, ⟨7, 0, .rw, .any⟩]⟩,  -- CANn_OBJj_W0
  ⟨0x1004, 100, 0x60, 1, 0x0, .val 0x0, .none, [⟨31, 31, .rw, .any⟩, ⟨30, 30, .rw, .any⟩, ⟨29, 29, .rw, .any⟩, ⟨28, 0, .rw, .any⟩]⟩,  -- CANn_OBJj_ID
  ⟨0x1008, 100, 0x60, 1, 0x0, .val 0x0, .none, [⟨31, 16, .ro, .any⟩, ⟨3, 0, .rw, .any⟩]⟩,  -- CANn_OBJj_DLC
  ⟨0x100C, 100, 0x60, 1, 0x0, .val 0x0, .none, [⟨31, 0, .ro, .any⟩]⟩,  -- CANn_OBJj_TS
  ⟨0x1010, 100, 0x60, 1, 0x0, .val 0x0, .none, [⟨17, 0, .rw, .any⟩]⟩,  -- CANn_OBJj_SIG
  ⟨0x1020, 100, 0x60, 16, 0x4, .val 0x0, .none, [⟨31, 0, .rw, .any⟩]⟩]  -- CANn_OBJj_DATA

/-- The families of block ADC (spec/09_analog.md). -/
def famsAdc : List Fam := [
  ⟨0x0, 1, 0x0, 1, 0x0, .val 0x0, .adc, [⟨31, 31, .rws, .any⟩, ⟨25, 24, .rws, .any⟩, ⟨23, 20, .rws, .any⟩, ⟨4, 0, .rws, .range 0 16⟩]⟩,  -- ADCn_CFG
  ⟨0x200, 1, 0x0, 1, 0x0, .val 0x0, .none, [⟨31, 31, .ro, .any⟩, ⟨25, 24, .ro, .any⟩, ⟨23, 20, .ro, .any⟩, ⟨4, 0, .ro, .any⟩]⟩,  -- ADCn_CFG_ACT
  ⟨0x4, 1, 0x0, 1, 0x0, .val 0x0, .adc, [⟨15, 0, .rws, .any⟩]⟩,  -- ADCn_TRGOFF
  ⟨0x204, 1, 0x0, 1, 0x0, .val 0x0, .none, [⟨15, 0, .ro, .any⟩]⟩,  -- ADCn_TRGOFF_ACT
  ⟨0x8, 1, 0x0, 1, 0x0, .val 0x0, .none, [⟨0, 0, .w1s, .any⟩]⟩,  -- ADCn_COMMIT
  ⟨0xC, 1, 0x0, 1, 0x0, .val 0x0, .none, [⟨1, 1, .w1s0, .any⟩, ⟨0, 0, .w1s0, .any⟩]⟩,  -- ADCn_CTRL
  ⟨0x10, 1, 0x0, 1, 0x0, .val 0x0, .none, [⟨31, 29, .ro, .any⟩, ⟨28, 28, .ro, .any⟩, ⟨27, 27, .ro, .any⟩, ⟨26, 26, .ro, .any⟩, ⟨25, 25, .ro, .any⟩, ⟨24, 24, .ro, .any⟩, ⟨23, 16, .ro, .any⟩, ⟨14, 12, .ro, .any⟩, ⟨4, 0, .ro, .any⟩]⟩,  -- ADCn_STAT
  ⟨0x14, 1, 0x0, 1, 0x0, .val 0x0, .none, [⟨7, 7, .w1c, .any⟩, ⟨6, 6, .w1c, .any⟩, ⟨5, 5, .w1c, .any⟩, ⟨4, 4, .w1c, .any⟩, ⟨3, 3, .w1c, .any⟩, ⟨2, 2, .w1c, .any⟩, ⟨1, 1, .w1c, .any⟩, ⟨0, 0, .w1c, .any⟩]⟩,  -- ADCn_EVSTAT
  ⟨0x18, 1, 0x0, 1, 0x0, .val 0x0, .none, [⟨7, 0, .rw, .any⟩]⟩,  -- ADCn_EVEN
  ⟨0x1C, 1, 0x0, 1, 0x0, .val 0x0, .none, [⟨31, 16, .rc, .any⟩, ⟨15, 8, .rc, .any⟩, ⟨7, 0, .rc, .any⟩]⟩,  -- ADCn_CNT
  ⟨0x20, 1, 0x0, 1, 0x0, .val 0x0, .none, [⟨31, 31, .rc, .any⟩, ⟨30, 30, .rc, .any⟩, ⟨29, 29, .ro, .any⟩, ⟨28, 26, .ro, .any⟩, ⟨25, 22, .ro, .any⟩, ⟨15, 0, .ro, .any⟩]⟩,  -- ADCn_DR_LO
  ⟨0x24, 1, 0x0, 1, 0x0, .val 0x0, .none, [⟨31, 0, .ro, .any⟩]⟩,  -- ADCn_DR_HI
  ⟨0x28, 1, 0x0, 1, 0x0, .val 0x0, .none, [⟨31, 31, .wo, .any⟩, ⟨30, 30, .wo, .any⟩, ⟨29, 27, .wo, .any⟩, ⟨26, 19, .wo, .any⟩, ⟨17, 0, .wo, .any⟩]⟩,  -- ADCn_INJ
  ⟨0x2C, 1, 0x0, 1, 0x0, .val 0x0, .none, [⟨16, 16, .rw, .any⟩, ⟨15, 0, .rw, .any⟩]⟩,  -- ADCn_OWSRC
  ⟨0x30, 1, 0x0, 1, 0x0, .val 0x0, .none, [⟨15, 8, .ro, .any⟩, ⟨7, 0, .ro, .any⟩]⟩,  -- ADCn_OWRES
  ⟨0x34, 1, 0x0, 1, 0x0, .val 0x0, .none, [⟨31, 16, .ro, .any⟩, ⟨15, 0, .ro, .any⟩]⟩,  -- ADCn_CAL
  ⟨0x40, 16, 0x4, 1, 0x0, .val 0x0, .adc, [⟨31, 31, .rws, .any⟩, ⟨30, 30, .rws, .any⟩, ⟨29, 27, .rws, .any⟩, ⟨26, 19, .rws, .any⟩, ⟨17, 0, .rws, .any⟩]⟩,  -- ADCn_SEQj
  ⟨0x240, 16, 0x4, 1, 0x0, .val 0x0, .none, [⟨31, 31, .ro, .any⟩, ⟨30, 30, .ro, .any⟩, ⟨29, 27, .ro, .any⟩, ⟨26, 19, .ro, .any⟩, ⟨17, 0, .ro, .any⟩]⟩]  -- ADCn_SEQj_ACT

/-- The families of block SDF (spec/07_axis_ports.md). -/
def famsSdf : List Fam := [
  ⟨0x0, 1, 0x0, 1, 0x0, .val 0x0, .none, [⟨2, 2, .w1c, .any⟩, ⟨1, 1, .w1c, .any⟩, ⟨0, 0, .w1c, .any⟩]⟩,  -- SDF_EVSTAT
  ⟨0x4, 1, 0x0, 1, 0x0, .val 0x0, .none, [⟨2, 0, .rw, .any⟩]⟩,  -- SDF_EVEN
  ⟨0x8, 1, 0x0, 1, 0x0, .val 0x0, .none, [⟨31, 0, .w1s, .any⟩]⟩,  -- SDF_COMMIT_LO
  ⟨0xC, 1, 0x0, 1, 0x0, .val 0x0, .none, [⟨16, 16, .w1s, .any⟩, ⟨15, 0, .w1s, .any⟩]⟩,  -- SDF_COMMIT_HI
  ⟨0x10, 5, 0x4, 1, 0x0, .val 0x0, .none, [⟨31, 0, .ro, .any⟩]⟩,  -- SDF_TRIPi
  ⟨0x30, 5, 0x4, 1, 0x0, .val 0x0, .none, [⟨31, 0, .w1c, .any⟩]⟩,  -- SDF_STUCKi
  ⟨0x80, 6, 0x4, 1, 0x0, .val 0x8, .sdfclk, [⟨31, 31, .rws, .any⟩, ⟨5, 0, .rws, .range 8 40⟩]⟩,  -- SDF_CLKk
  ⟨0xA0, 6, 0x4, 1, 0x0, .val 0x8, .none, [⟨31, 31, .ro, .any⟩, ⟨5, 0, .ro, .any⟩]⟩,  -- SDF_CLKk_ACT
  ⟨0x400, 144, 0x10, 1, 0x0, .val 0x800040, .sd, [⟨31, 31, .rws, .any⟩, ⟨30, 30, .rws, .any⟩, ⟨29, 27, .rws, .any⟩, ⟨25, 20, .rws, .range 4 32⟩, ⟨8, 0, .rws, .range 16 256⟩]⟩,  -- SDF_CHc_CFG
  ⟨0x1000, 144, 0x10, 1, 0x0, .val 0x800040, .none, [⟨31, 31, .ro, .any⟩, ⟨30, 30, .ro, .any⟩, ⟨29, 27, .ro, .any⟩, ⟨25, 20, .ro, .any⟩, ⟨8, 0, .ro, .any⟩]⟩,  -- SDF_CHc_CFG_ACT
  ⟨0x404, 144, 0x10, 1, 0x0, .val 0x7FF0000, .sd, [⟨26, 16, .rws, .any⟩, ⟨10, 0, .rws, .any⟩]⟩,  -- SDF_CHc_THR
  ⟨0x1004, 144, 0x10, 1, 0x0, .val 0x7FF0000, .none, [⟨26, 16, .ro, .any⟩, ⟨10, 0, .ro, .any⟩]⟩,  -- SDF_CHc_THR_ACT
  ⟨0x408, 144, 0x10, 1, 0x0, .val 0x0, .sd, [⟨17, 0, .rws, .any⟩]⟩,  -- SDF_CHc_SIG
  ⟨0x1008, 144, 0x10, 1, 0x0, .val 0x0, .none, [⟨17, 0, .ro, .any⟩]⟩,  -- SDF_CHc_SIG_ACT
  ⟨0x40C, 144, 0x10, 1, 0x0, .val 0x0, .none, [⟨31, 0, .ro, .any⟩]⟩]  -- SDF_CHc_RES

/-- The families of block PS (spec/11_plant_ports.md). -/
def famsPs : List Fam := [
  ⟨0x0, 1, 0x0, 1, 0x0, .val 0x0, .none, [⟨7, 0, .w1c, .any⟩]⟩,  -- PS_EVSTAT
  ⟨0x4, 1, 0x0, 1, 0x0, .val 0x0, .none, [⟨7, 0, .rw, .any⟩]⟩,  -- PS_EVEN
  ⟨0x8, 1, 0x0, 1, 0x0, .val 0x88B588B5, .none, [⟨31, 16, .rw, .any⟩, ⟨15, 0, .rw, .any⟩]⟩,  -- PS_CFG
  ⟨0xC, 1, 0x0, 1, 0x0, .val 0x0, .none, [⟨31, 6, .rw, .any⟩]⟩,  -- PS_TABLE_BASE_LO
  ⟨0x10, 1, 0x0, 1, 0x0, .val 0x0, .none, [⟨7, 0, .rw, .any⟩]⟩,  -- PS_TABLE_BASE_HI
  ⟨0x14, 1, 0x0, 1, 0x0, .val 0x0, .none, [⟨27, 16, .ro, .any⟩, ⟨11, 0, .ro, .any⟩]⟩,  -- PS_STAT
  ⟨0x18, 1, 0x0, 1, 0x0, .val 0x0, .none, [⟨31, 0, .rc, .any⟩]⟩,  -- PS_CNT_NOMATCH
  ⟨0x100, 64, 0x4, 1, 0x0, .val 0x0, .none, [⟨31, 0, .ro, .any⟩]⟩]  -- PS_TOUTn

/-- The families of block AX (spec/07_axis_ports.md). -/
def famsAx : List Fam := [
  ⟨0x0, 1, 0x0, 1, 0x0, .val 0x0, .axcfg, [⟨25, 24, .rws, .any⟩, ⟨19, 16, .rws, .any⟩, ⟨7, 4, .rws, .any⟩, ⟨3, 3, .rws, .any⟩, ⟨2, 2, .rws, .any⟩, ⟨1, 0, .rws, .any⟩]⟩,  -- AXn_CFG
  ⟨0x200, 1, 0x0, 1, 0x0, .val 0x0, .none, [⟨25, 24, .ro, .any⟩, ⟨19, 16, .ro, .any⟩, ⟨7, 4, .ro, .any⟩, ⟨3, 3, .ro, .any⟩, ⟨2, 2, .ro, .any⟩, ⟨1, 0, .ro, .any⟩]⟩,  -- AXn_CFG_ACT
  ⟨0x4, 1, 0x0, 1, 0x0, .val 0x2710, .axcfg, [⟨17, 0, .rws, .even 2000 200000⟩]⟩,  -- AXn_PWM
  ⟨0x204, 1, 0x0, 1, 0x0, .val 0x2710, .none, [⟨17, 0, .ro, .any⟩]⟩,  -- AXn_PWM_ACT
  ⟨0x8, 1, 0x0, 1, 0x0, .val 0x0, .axcfg, [⟨29, 16, .rws, .any⟩, ⟨13, 0, .rws, .any⟩]⟩,  -- AXn_DEAD
  ⟨0x208, 1, 0x0, 1, 0x0, .val 0x0, .none, [⟨29, 16, .ro, .any⟩, ⟨13, 0, .ro, .any⟩]⟩,  -- AXn_DEAD_ACT
  ⟨0xC, 1, 0x0, 1, 0x0, .val 0x0, .axcfg, [⟨5, 0, .rws, .any⟩]⟩,  -- AXn_POL
  ⟨0x20C, 1, 0x0, 1, 0x0, .val 0x0, .none, [⟨5, 0, .ro, .any⟩]⟩,  -- AXn_POL_ACT
  ⟨0x10, 1, 0x0, 1, 0x0, .val 0x14032000, .axcfg, [⟨31, 24, .rws, .any⟩, ⟨20, 10, .rws, .any⟩]⟩,  -- AXn_STEP
  ⟨0x210, 1, 0x0, 1, 0x0, .val 0x14032000, .none, [⟨31, 24, .ro, .any⟩, ⟨20, 10, .ro, .any⟩]⟩,  -- AXn_STEP_ACT
  ⟨0x14, 1, 0x0, 1, 0x0, .val 0x28, .axcfg, [⟨15, 0, .rws, .range 40 65535⟩]⟩,  -- AXn_STEPPER
  ⟨0x214, 1, 0x0, 1, 0x0, .val 0x28, .none, [⟨15, 0, .ro, .any⟩]⟩,  -- AXn_STEPPER_ACT
  ⟨0x18, 1, 0x0, 1, 0x0, .val 0xA400000, .axcfg, [⟨31, 31, .rws, .any⟩, ⟨30, 24, .rws, .range 1 100⟩, ⟨23, 12, .rws, .range 4 4095⟩, ⟨11, 0, .rws, .any⟩]⟩,  -- AXn_RET
  ⟨0x218, 1, 0x0, 1, 0x0, .val 0xA400000, .none, [⟨31, 31, .ro, .any⟩, ⟨30, 24, .ro, .any⟩, ⟨23, 12, .ro, .any⟩, ⟨11, 0, .ro, .any⟩]⟩,  -- AXn_RET_ACT
  ⟨0x1C, 1, 0x0, 1, 0x0, .val 0xC80A05, .axcfg, [⟨31, 16, .rws, .range 40 65535⟩, ⟨15, 8, .rws, .any⟩, ⟨7, 0, .rws, .any⟩]⟩,  -- AXn_RESEAT
  ⟨0x21C, 1, 0x0, 1, 0x0, .val 0xC80A05, .none, [⟨31, 16, .ro, .any⟩, ⟨15, 8, .ro, .any⟩, ⟨7, 0, .ro, .any⟩]⟩,  -- AXn_RESEAT_ACT
  ⟨0x20, 1, 0x0, 1, 0x0, .val 0x191000A0, .axcfg, [⟨31, 31, .rws, .any⟩, ⟨30, 24, .rws, .range 8 48⟩, ⟨20, 16, .rws, .range 5 16⟩, ⟨15, 0, .rws, .range 100 65535⟩]⟩,  -- AXn_FB
  ⟨0x220, 1, 0x0, 1, 0x0, .val 0x191000A0, .none, [⟨31, 31, .ro, .any⟩, ⟨30, 24, .ro, .any⟩, ⟨20, 16, .ro, .any⟩, ⟨15, 0, .ro, .any⟩]⟩,  -- AXn_FB_ACT
  ⟨0x24, 1, 0x0, 1, 0x0, .val 0x64, .axcfg, [⟨31, 16, .rws, .any⟩, ⟨15, 0, .rws, .range 1 65535⟩]⟩,  -- AXn_FBTIME
  ⟨0x224, 1, 0x0, 1, 0x0, .val 0x64, .none, [⟨31, 16, .ro, .any⟩, ⟨15, 0, .ro, .any⟩]⟩,  -- AXn_FBTIME_ACT
  ⟨0x28, 1, 0x0, 1, 0x0, .val 0x0, .axcfg, [⟨31, 16, .rws, .any⟩, ⟨15, 0, .rws, .any⟩]⟩,  -- AXn_CRC
  ⟨0x228, 1, 0x0, 1, 0x0, .val 0x0, .none, [⟨31, 16, .ro, .any⟩, ⟨15, 0, .ro, .any⟩]⟩,  -- AXn_CRC_ACT
  ⟨0x2C, 1, 0x0, 1, 0x0, .val 0x0, .axcfg, [⟨17, 0, .rws, .any⟩]⟩,  -- AXn_SIG0
  ⟨0x22C, 1, 0x0, 1, 0x0, .val 0x0, .none, [⟨17, 0, .ro, .any⟩]⟩,  -- AXn_SIG0_ACT
  ⟨0x30, 1, 0x0, 1, 0x0, .val 0x0, .axcfg, [⟨31, 31, .rws, .any⟩, ⟨17, 0, .rws, .any⟩]⟩,  -- AXn_SIG1
  ⟨0x230, 1, 0x0, 1, 0x0, .val 0x0, .none, [⟨31, 31, .ro, .any⟩, ⟨17, 0, .ro, .any⟩]⟩,  -- AXn_SIG1_ACT
  ⟨0x40, 1, 0x0, 1, 0x0, .val 0x0, .none, [⟨1, 1, .w1s, .any⟩, ⟨0, 0, .w1s, .any⟩]⟩,  -- AXn_COMMIT
  ⟨0x44, 1, 0x0, 1, 0x0, .val 0x0, .none, [⟨1, 1, .w1s0, .any⟩, ⟨0, 0, .rw, .any⟩]⟩,  -- AXn_CTRL
  ⟨0x48, 1, 0x0, 1, 0x0, .val 0x0, .none, [⟨31, 31, .ro, .any⟩, ⟨30, 30, .ro, .any⟩, ⟨29, 29, .ro, .any⟩, ⟨28, 28, .ro, .any⟩, ⟨27, 27, .ro, .any⟩, ⟨26, 26, .ro, .any⟩, ⟨25, 25, .ro, .any⟩, ⟨24, 24, .ro, .any⟩, ⟨23, 23, .ro, .any⟩]⟩,  -- AXn_STAT
  ⟨0x4C, 1, 0x0, 1, 0x0, .val 0x0, .none, [⟨8, 8, .w1c, .any⟩, ⟨7, 7, .w1c, .any⟩, ⟨6, 6, .w1c, .any⟩, ⟨5, 5, .w1c, .any⟩, ⟨4, 4, .w1c, .any⟩, ⟨3, 3, .w1c, .any⟩, ⟨2, 2, .w1c, .any⟩, ⟨1, 1, .w1c, .any⟩, ⟨0, 0, .w1c, .any⟩]⟩,  -- AXn_EVSTAT
  ⟨0x50, 1, 0x0, 1, 0x0, .val 0x0, .none, [⟨8, 0, .rw, .any⟩]⟩,  -- AXn_EVEN
  ⟨0x54, 1, 0x0, 1, 0x0, .val 0x0, .none, [⟨31, 16, .rc, .any⟩, ⟨15, 8, .rc, .any⟩, ⟨7, 0, .rc, .any⟩]⟩,  -- AXn_ERRCNT
  ⟨0x60, 3, 0x4, 1, 0x0, .val 0x0, .none, [⟨31, 0, .rw, .any⟩]⟩,  -- AXn_DUTYi
  ⟨0x70, 1, 0x0, 1, 0x0, .val 0x0, .none, [⟨31, 0, .ro, .any⟩]⟩,  -- AXn_POS_LO
  ⟨0x74, 1, 0x0, 1, 0x0, .val 0x0, .none, [⟨31, 0, .ro, .any⟩]⟩,  -- AXn_POS_HI
  ⟨0x78, 1, 0x0, 1, 0x0, .val 0x0, .none, [⟨31, 0, .ro, .any⟩]⟩,  -- AXn_ENC
  ⟨0x7C, 1, 0x0, 1, 0x0, .val 0x0, .none, [⟨31, 0, .ro, .any⟩]⟩,  -- AXn_ZLAT
  ⟨0x80, 1, 0x0, 1, 0x0, .val 0x0, .none, [⟨31, 0, .ro, .any⟩]⟩,  -- AXn_ZTS
  ⟨0x90, 4, 0x4, 1, 0x0, .val 0x0, .none, [⟨31, 0, .ro, .any⟩]⟩,  -- AXn_Fi
  ⟨0x100, 32, 0x4, 1, 0x0, .val 0x0, .axtpl, [⟨31, 0, .rws, .any⟩]⟩,  -- AXn_TPLi
  ⟨0x300, 32, 0x4, 1, 0x0, .val 0x0, .none, [⟨31, 0, .ro, .any⟩]⟩]  -- AXn_TPLi_ACT

/-- The families of block MOT (spec/08_motion.md). -/
def famsMot : List Fam := [
  ⟨0x0, 1, 0x0, 1, 0x0, .val 0x0, .mot, [⟨12, 12, .rws, .any⟩, ⟨11, 11, .rws, .any⟩, ⟨10, 8, .rws, .any⟩, ⟨7, 7, .rws, .any⟩, ⟨6, 6, .rws, .any⟩, ⟨5, 4, .rws, .any⟩, ⟨3, 3, .rws, .any⟩, ⟨2, 2, .rws, .any⟩, ⟨1, 0, .rws, .any⟩]⟩,  -- MOTn_CFG
  ⟨0x100, 1, 0x0, 1, 0x0, .val 0x0, .none, [⟨12, 12, .ro, .any⟩, ⟨11, 11, .ro, .any⟩, ⟨10, 8, .ro, .any⟩, ⟨7, 7, .ro, .any⟩, ⟨6, 6, .ro, .any⟩, ⟨5, 4, .ro, .any⟩, ⟨3, 3, .ro, .any⟩, ⟨2, 2, .ro, .any⟩, ⟨1, 0, .ro, .any⟩]⟩,  -- MOTn_CFG_ACT
  ⟨0x4, 1, 0x0, 1, 0x0, .val 0x0, .mot, [⟨31, 16, .rws, .range 0 10000⟩, ⟨15, 0, .rws, .range 0 10000⟩]⟩,  -- MOTn_DEB
  ⟨0x104, 1, 0x0, 1, 0x0, .val 0x0, .none, [⟨31, 16, .ro, .any⟩, ⟨15, 0, .ro, .any⟩]⟩,  -- MOTn_DEB_ACT
  ⟨0x8, 10, 0x4, 1, 0x0, .val 0x3F800000, .mot, [⟨31, 0, .rws, .nonzeroFloat⟩]⟩,  -- MOTn_LIMi
  ⟨0x108, 10, 0x4, 1, 0x0, .val 0x3F800000, .none, [⟨31, 0, .ro, .any⟩]⟩,  -- MOTn_LIMi_ACT
  ⟨0x30, 1, 0x0, 1, 0x0, .val 0x0, .mot, [⟨31, 0, .rws, .any⟩]⟩,  -- MOTn_HOMEPOS_LO
  ⟨0x130, 1, 0x0, 1, 0x0, .val 0x0, .none, [⟨31, 0, .ro, .any⟩]⟩,  -- MOTn_HOMEPOS_LO_ACT
  ⟨0x34, 1, 0x0, 1, 0x0, .val 0x0, .mot, [⟨31, 0, .rws, .any⟩]⟩,  -- MOTn_HOMEPOS_HI
  ⟨0x134, 1, 0x0, 1, 0x0, .val 0x0, .none, [⟨31, 0, .ro, .any⟩]⟩,  -- MOTn_HOMEPOS_HI_ACT
  ⟨0x38, 1, 0x0, 1, 0x0, .val 0x7FFFFFFF, .mot, [⟨30, 0, .rws, .nonzero⟩]⟩,  -- MOTn_HOMERANGE
  ⟨0x138, 1, 0x0, 1, 0x0, .val 0x7FFFFFFF, .none, [⟨30, 0, .ro, .any⟩]⟩,  -- MOTn_HOMERANGE_ACT
  ⟨0x3C, 1, 0x0, 1, 0x0, .val 0x0, .mot, [⟨31, 31, .rws, .any⟩, ⟨17, 0, .rws, .any⟩]⟩,  -- MOTn_SIGP
  ⟨0x13C, 1, 0x0, 1, 0x0, .val 0x0, .none, [⟨31, 31, .ro, .any⟩, ⟨17, 0, .ro, .any⟩]⟩,  -- MOTn_SIGP_ACT
  ⟨0x40, 1, 0x0, 1, 0x0, .val 0x0, .mot, [⟨31, 31, .rws, .any⟩, ⟨17, 0, .rws, .any⟩]⟩,  -- MOTn_SIGV
  ⟨0x140, 1, 0x0, 1, 0x0, .val 0x0, .none, [⟨31, 31, .ro, .any⟩, ⟨17, 0, .ro, .any⟩]⟩,  -- MOTn_SIGV_ACT
  ⟨0x44, 1, 0x0, 1, 0x0, .val 0x0, .mot, [⟨31, 31, .rws, .any⟩, ⟨17, 0, .rws, .any⟩]⟩,  -- MOTn_SIGA
  ⟨0x144, 1, 0x0, 1, 0x0, .val 0x0, .none, [⟨31, 31, .ro, .any⟩, ⟨17, 0, .ro, .any⟩]⟩,  -- MOTn_SIGA_ACT
  ⟨0x60, 1, 0x0, 1, 0x0, .val 0x0, .none, [⟨0, 0, .w1s, .any⟩]⟩,  -- MOTn_COMMIT
  ⟨0x64, 1, 0x0, 1, 0x0, .val 0x0, .none, [⟨13, 13, .ro, .any⟩, ⟨12, 12, .ro, .any⟩, ⟨11, 11, .ro, .any⟩, ⟨10, 10, .ro, .any⟩, ⟨9, 9, .ro, .any⟩, ⟨8, 8, .ro, .any⟩, ⟨2, 0, .ro, .any⟩]⟩,  -- MOTn_STAT
  ⟨0x68, 1, 0x0, 1, 0x0, .val 0x0, .none, [⟨8, 8, .w1c, .any⟩, ⟨7, 7, .w1c, .any⟩, ⟨6, 6, .w1c, .any⟩, ⟨5, 5, .w1c, .any⟩, ⟨4, 4, .w1c, .any⟩, ⟨3, 3, .w1c, .any⟩, ⟨2, 2, .w1c, .any⟩, ⟨0, 0, .w1c, .any⟩]⟩,  -- MOTn_EVSTAT
  ⟨0x6C, 1, 0x0, 1, 0x0, .val 0x0, .none, [⟨8, 2, .rw, .any⟩, ⟨0, 0, .rw, .any⟩]⟩,  -- MOTn_EVEN
  ⟨0x70, 1, 0x0, 1, 0x0, .val 0x0, .none, [⟨31, 0, .ro, .any⟩]⟩,  -- MOTn_REF_LO
  ⟨0x74, 1, 0x0, 1, 0x0, .val 0x0, .none, [⟨31, 0, .ro, .any⟩]⟩,  -- MOTn_REF_HI
  ⟨0x78, 1, 0x0, 1, 0x0, .val 0x0, .none, [⟨31, 0, .ro, .any⟩]⟩,  -- MOTn_VREF
  ⟨0x7C, 1, 0x0, 1, 0x0, .val 0x0, .none, [⟨31, 0, .ro, .any⟩]⟩,  -- MOTn_AREF
  ⟨0x80, 1, 0x0, 1, 0x0, .val 0x0, .none, [⟨31, 0, .ro, .any⟩]⟩,  -- MOTn_LATCH_LO
  ⟨0x84, 1, 0x0, 1, 0x0, .val 0x0, .none, [⟨31, 0, .ro, .any⟩]⟩,  -- MOTn_LATCH_HI
  ⟨0x88, 1, 0x0, 1, 0x0, .val 0x0, .none, [⟨31, 0, .ro, .any⟩]⟩,  -- MOTn_LATCH_TS
  ⟨0x8C, 1, 0x0, 1, 0x0, .val 0x0, .none, [⟨31, 31, .rc, .any⟩, ⟨2, 2, .ro, .any⟩, ⟨1, 0, .ro, .any⟩]⟩,  -- MOTn_LATCH_INFO
  ⟨0x90, 1, 0x0, 1, 0x0, .val 0x0, .none, [⟨31, 0, .ro, .any⟩]⟩,  -- MOTn_TARGET_LO
  ⟨0x94, 1, 0x0, 1, 0x0, .val 0x0, .none, [⟨31, 0, .ro, .any⟩]⟩,  -- MOTn_TARGET_HI
  ⟨0xA0, 1, 0x0, 1, 0x0, .val 0x0, .none, [⟨31, 24, .ro, .any⟩, ⟨23, 16, .ro, .any⟩, ⟨7, 0, .ro, .any⟩]⟩]  -- MOTn_LASTERR

/-- The families of block VM (spec/08_motion.md). -/
def famsVm : List Fam := [
  ⟨0x0, 1, 0x0, 1, 0x0, .val 0x0, .none, [⟨4, 4, .w1c, .any⟩, ⟨3, 3, .w1c, .any⟩, ⟨2, 2, .w1c, .any⟩, ⟨1, 1, .w1c, .any⟩, ⟨0, 0, .w1c, .any⟩]⟩,  -- VM_EVSTAT
  ⟨0x4, 1, 0x0, 1, 0x0, .val 0x0, .none, [⟨4, 0, .rw, .any⟩]⟩,  -- VM_EVEN
  ⟨0x8, 1, 0x0, 1, 0x0, .val 0x0, .none, [⟨15, 0, .w1s, .any⟩]⟩,  -- VM_COMMIT
  ⟨0xC, 1, 0x0, 1, 0x0, .val 0x0, .none, [⟨31, 0, .w1s, .any⟩]⟩,  -- VM_CAMCOMMIT_LO
  ⟨0x10, 1, 0x0, 1, 0x0, .val 0x0, .none, [⟨31, 0, .w1s, .any⟩]⟩,  -- VM_CAMCOMMIT_HI
  ⟨0x14, 1, 0x0, 1, 0x0, .val 0x0, .none, [⟨31, 0, .rc, .any⟩]⟩,  -- VM_FOREIGN
  ⟨0x100, 16, 0x20, 1, 0x0, .val 0x0, .vm, [⟨31, 30, .rws, .any⟩, ⟨23, 20, .rws, .any⟩, ⟨15, 0, .rws, .any⟩]⟩,  -- VM_VMm_CFG
  ⟨0x110, 16, 0x20, 1, 0x0, .val 0x0, .none, [⟨31, 30, .ro, .any⟩, ⟨23, 20, .ro, .any⟩, ⟨15, 0, .ro, .any⟩]⟩,  -- VM_VMm_CFG_ACT
  ⟨0x104, 16, 0x20, 1, 0x0, .val 0x3E8FFFF, .vm, [⟨31, 16, .rws, .any⟩, ⟨15, 0, .rws, .any⟩]⟩,  -- VM_VMm_DEST
  ⟨0x114, 16, 0x20, 1, 0x0, .val 0x3E8FFFF, .none, [⟨31, 16, .ro, .any⟩, ⟨15, 0, .ro, .any⟩]⟩,  -- VM_VMm_DEST_ACT
  ⟨0x108, 16, 0x20, 1, 0x0, .val 0x40, .vm, [⟨31, 0, .rws, .any⟩]⟩,  -- VM_VMm_TOL
  ⟨0x118, 16, 0x20, 1, 0x0, .val 0x40, .none, [⟨31, 0, .ro, .any⟩]⟩,  -- VM_VMm_TOL_ACT
  ⟨0x10C, 16, 0x20, 1, 0x0, .val 0x0, .none, [⟨31, 16, .rc, .any⟩, ⟨9, 9, .ro, .any⟩, ⟨8, 8, .ro, .any⟩, ⟨4, 0, .ro, .any⟩]⟩,  -- VM_VMm_STAT
  ⟨0x800, 64, 0x10, 1, 0x0, .val 0x0, .cam, [⟨31, 3, .rws, .any⟩]⟩,  -- VM_CAMc_BASE_LO
  ⟨0xC00, 64, 0x10, 1, 0x0, .val 0x0, .none, [⟨31, 3, .ro, .any⟩]⟩,  -- VM_CAMc_BASE_LO_ACT
  ⟨0x804, 64, 0x10, 1, 0x0, .val 0x0, .cam, [⟨7, 0, .rws, .any⟩]⟩,  -- VM_CAMc_BASE_HI
  ⟨0xC04, 64, 0x10, 1, 0x0, .val 0x0, .none, [⟨7, 0, .ro, .any⟩]⟩,  -- VM_CAMc_BASE_HI_ACT
  ⟨0x808, 64, 0x10, 1, 0x0, .val 0x2, .cam, [⟨31, 31, .rws, .any⟩, ⟨12, 0, .rws, .range 2 4096⟩]⟩,  -- VM_CAMc_CFG
  ⟨0xC08, 64, 0x10, 1, 0x0, .val 0x2, .none, [⟨31, 31, .ro, .any⟩, ⟨12, 0, .ro, .any⟩]⟩,  -- VM_CAMc_CFG_ACT
  ⟨0x80C, 64, 0x10, 1, 0x0, .val 0x1, .cam, [⟨30, 0, .rws, .nonzero⟩]⟩,  -- VM_CAMc_SPAN
  ⟨0xC0C, 64, 0x10, 1, 0x0, .val 0x1, .none, [⟨30, 0, .ro, .any⟩]⟩]  -- VM_CAMc_SPAN_ACT

/-- The families of block CHM (spec/13_chamois.md). -/
def famsChm : List Fam := [
  ⟨0x0, 1, 0x0, 1, 0x0, .val 0x0, .none, [⟨12, 0, .w1c, .any⟩]⟩,  -- CHM_EVSTAT
  ⟨0x4, 1, 0x0, 1, 0x0, .val 0x0, .none, [⟨12, 0, .rw, .any⟩]⟩,  -- CHM_EVEN
  ⟨0x8, 1, 0x0, 1, 0x0, .val 0x0, .none, [⟨31, 31, .ro, .any⟩, ⟨30, 30, .ro, .any⟩, ⟨29, 29, .ro, .any⟩, ⟨10, 0, .ro, .any⟩]⟩,  -- CHM_STAT
  ⟨0xC, 1, 0x0, 1, 0x0, .val 0x0, .none, [⟨31, 16, .ro, .any⟩, ⟨15, 0, .ro, .any⟩]⟩,  -- CHM_SI_STAT
  ⟨0x10, 1, 0x0, 1, 0x0, .val 0x0, .none, [⟨31, 16, .ro, .any⟩, ⟨15, 0, .ro, .any⟩]⟩,  -- CHM_SI_RAW
  ⟨0x14, 1, 0x0, 1, 0x0, .val 0x0, .none, [⟨31, 0, .ro, .any⟩]⟩,  -- CHM_GRP
  ⟨0x18, 1, 0x0, 1, 0x0, .val 0x0, .none, [⟨7, 0, .rw, .any⟩]⟩,  -- CHM_SW
  ⟨0x1C, 1, 0x0, 1, 0x0, .val 0x0, .none, [⟨7, 0, .rw, .any⟩]⟩,  -- CHM_SO_REQ
  ⟨0x20, 1, 0x0, 1, 0x0, .val 0x0, .none, [⟨23, 16, .ro, .any⟩, ⟨15, 8, .ro, .any⟩, ⟨7, 0, .ro, .any⟩]⟩,  -- CHM_SO_STAT
  ⟨0x24, 1, 0x0, 1, 0x0, .val 0x0, .none, [⟨31, 0, .ro, .any⟩]⟩,  -- CHM_AX_STO_LO
  ⟨0x28, 1, 0x0, 1, 0x0, .val 0x0, .none, [⟨15, 0, .ro, .any⟩]⟩,  -- CHM_AX_STO_HI
  ⟨0x2C, 1, 0x0, 1, 0x0, .val 0x0, .none, [⟨31, 0, .ro, .any⟩]⟩,  -- CHM_AX_LOCK_LO
  ⟨0x30, 1, 0x0, 1, 0x0, .val 0x0, .none, [⟨15, 0, .ro, .any⟩]⟩,  -- CHM_AX_LOCK_HI
  ⟨0x34, 1, 0x0, 1, 0x0, .val 0x0, .none, [⟨31, 0, .ro, .any⟩]⟩,  -- CHM_AX_STOP_LO
  ⟨0x38, 1, 0x0, 1, 0x0, .val 0x0, .none, [⟨15, 0, .ro, .any⟩]⟩,  -- CHM_AX_STOP_HI
  ⟨0x3C, 1, 0x0, 1, 0x0, .val 0x0, .none, [⟨31, 16, .ro, .any⟩, ⟨15, 0, .ro, .any⟩]⟩,  -- CHM_CONN
  ⟨0x40, 1, 0x0, 1, 0x0, .val 0x0, .none, [⟨31, 24, .ro, .any⟩, ⟨23, 16, .ro, .any⟩]⟩,  -- CHM_FAULT
  ⟨0x44, 1, 0x0, 1, 0x0, .val 0x0, .none, [⟨31, 0, .ro, .any⟩]⟩,  -- CHM_FAULT_CYC
  ⟨0x48, 1, 0x0, 1, 0x0, .val 0x0, .none, [⟨31, 24, .rc, .any⟩, ⟨23, 16, .rc, .any⟩, ⟨15, 0, .rc, .any⟩]⟩,  -- CHM_CNT
  ⟨0x4C, 1, 0x0, 1, 0x0, .val 0x0, .none, [⟨31, 0, .ro, .any⟩]⟩,  -- CHM_CYCLE
  ⟨0x50, 1, 0x0, 1, 0x0, .val 0x0, .none, [⟨31, 24, .ro, .any⟩, ⟨16, 16, .ro, .any⟩, ⟨0, 0, .w1s0, .any⟩]⟩,  -- CHM_SPS_CMD
  ⟨0x54, 1, 0x0, 1, 0x0, .val 0x0, .none, [⟨31, 0, .rw, .any⟩]⟩,  -- CHM_SPS_CRC
  ⟨0x58, 1, 0x0, 1, 0x0, .val 0x0, .none, [⟨11, 0, .ro, .any⟩]⟩,  -- CHM_SPS_POS
  ⟨0x5C, 1, 0x0, 1, 0x0, .val 0x0, .none, [⟨31, 0, .ro, .any⟩]⟩,  -- CHM_SPS_ACTCRC
  ⟨0x100, 48, 0x4, 1, 0x0, .val 0x0, .none, [⟨31, 0, .ro, .any⟩]⟩,  -- CHM_AXm_SPEED
  ⟨0x1000, 849, 0x4, 1, 0x0, .val 0x0, .none, [⟨31, 0, .rw, .any⟩]⟩,  -- CHM_SPSw
  ⟨0x2000, 849, 0x4, 1, 0x0, .val 0x0, .none, [⟨31, 0, .ro, .any⟩]⟩]  -- CHM_SPS_ACTw

/-- The families of block BHR (spec/16_ibex.md). -/
def famsBhr : List Fam := [
  ⟨0x0, 1, 0x0, 1, 0x0, .val 0x0, .none, [⟨13, 13, .w1c, .any⟩, ⟨12, 12, .w1c, .any⟩, ⟨11, 11, .w1c, .any⟩, ⟨10, 10, .w1c, .any⟩, ⟨9, 9, .w1c, .any⟩, ⟨8, 8, .w1c, .any⟩, ⟨7, 7, .w1c, .any⟩, ⟨6, 6, .w1c, .any⟩, ⟨5, 5, .w1c, .any⟩, ⟨4, 4, .w1c, .any⟩, ⟨3, 3, .w1c, .any⟩, ⟨2, 2, .w1c, .any⟩, ⟨1, 1, .w1c, .any⟩, ⟨0, 0, .w1c, .any⟩]⟩,  -- BHR_EVSTAT
  ⟨0x4, 1, 0x0, 1, 0x0, .val 0x0, .none, [⟨13, 0, .rw, .any⟩]⟩,  -- BHR_EVEN
  ⟨0x8, 1, 0x0, 1, 0x0, .val 0x0, .none, [⟨31, 29, .ro, .any⟩, ⟨28, 28, .ro, .any⟩, ⟨27, 27, .ro, .any⟩, ⟨26, 25, .ro, .any⟩]⟩,  -- BHR_STAT
  ⟨0xC, 1, 0x0, 1, 0x0, .val 0x489600A1, .none, [⟨31, 0, .ro, .any⟩]⟩,  -- BHR_TYPE
  ⟨0x10, 4, 0x4, 1, 0x0, .uid, .none, [⟨31, 0, .ro, .any⟩]⟩,  -- BHR_UIDi
  ⟨0x20, 1, 0x0, 1, 0x0, .val 0x0, .none, [⟨15, 8, .ro, .any⟩, ⟨6, 0, .ro, .any⟩]⟩,  -- BHR_OTP
  ⟨0x24, 1, 0x0, 1, 0x0, .val 0x0, .none, [⟨31, 31, .ro, .any⟩, ⟨30, 30, .ro, .any⟩, ⟨29, 29, .ro, .any⟩, ⟨17, 16, .ro, .any⟩, ⟨7, 0, .ro, .any⟩]⟩,  -- BHR_BOOT
  ⟨0x28, 1, 0x0, 1, 0x0, .val 0x64, .none, [⟨7, 0, .rw, .range 85 110⟩]⟩,  -- BHR_LIMIT
  ⟨0x30, 1, 0x0, 1, 0x0, .val 0x0, .none, [⟨31, 0, .ro, .any⟩]⟩,  -- BHR_LOG_SEQ
  ⟨0x34, 1, 0x0, 1, 0x0, .val 0x0, .none, [⟨31, 0, .rc, .any⟩]⟩,  -- BHR_LOG_LOST
  ⟨0x38, 1, 0x0, 1, 0x0, .val 0x0, .none, [⟨31, 31, .ro, .any⟩, ⟨30, 30, .ro, .any⟩, ⟨29, 29, .ro, .any⟩, ⟨15, 0, .ro, .any⟩]⟩,  -- BHR_CAMP
  ⟨0x3C, 1, 0x0, 1, 0x0, .val 0x0, .none, [⟨31, 0, .ro, .any⟩]⟩,  -- BHR_CAMP_ID
  ⟨0x40, 8, 0x4, 1, 0x0, .val 0x0, .none, [⟨15, 0, .ro, .any⟩]⟩,  -- BHR_TEMPi
  ⟨0x60, 12, 0x4, 1, 0x0, .val 0x0, .none, [⟨15, 0, .ro, .any⟩]⟩,  -- BHR_VOLTj
  ⟨0x90, 6, 0x4, 1, 0x0, .val 0x0, .none, [⟨31, 0, .ro, .any⟩]⟩,  -- BHR_CLKk
  ⟨0xA8, 1, 0x0, 1, 0x0, .val 0x0, .none, [⟨31, 26, .ro, .any⟩, ⟨25, 14, .ro, .any⟩, ⟨13, 6, .ro, .any⟩]⟩,  -- BHR_SENSSTAT
  ⟨0x100, 1, 0x0, 1, 0x0, .val 0x0, .none, [⟨31, 24, .ro, .any⟩, ⟨23, 16, .ro, .any⟩, ⟨15, 15, .ro, .any⟩, ⟨7, 0, .wo, .any⟩]⟩,  -- BHR_CMD
  ⟨0x1000, 1024, 0x4, 1, 0x0, .val 0x0, .none, [⟨31, 0, .rw, .any⟩]⟩]  -- BHR_MBXw

/-- The families of block RED (spec/14_redundancy.md). -/
def famsRed : List Fam := [
  ⟨0x0, 1, 0x0, 1, 0x0, .val 0x0, .none, [⟨9, 9, .w1c, .any⟩, ⟨8, 8, .w1c, .any⟩, ⟨7, 7, .w1c, .any⟩, ⟨6, 6, .w1c, .any⟩, ⟨5, 5, .w1c, .any⟩, ⟨4, 4, .w1c, .any⟩, ⟨3, 3, .w1c, .any⟩, ⟨2, 2, .w1c, .any⟩, ⟨1, 1, .w1c, .any⟩, ⟨0, 0, .w1c, .any⟩]⟩,  -- RED_EVSTAT
  ⟨0x4, 1, 0x0, 1, 0x0, .val 0x0, .none, [⟨9, 0, .rw, .any⟩]⟩,  -- RED_EVEN
  ⟨0x8, 1, 0x0, 1, 0x0, .val 0x9280000, .red, [⟨31, 31, .rws, .any⟩, ⟨30, 30, .rws, .any⟩, ⟨29, 27, .rws, .any⟩, ⟨26, 24, .rws, .nonzero⟩, ⟨23, 20, .rws, .nonzero⟩, ⟨19, 16, .rws, .any⟩, ⟨15, 0, .rws, .any⟩]⟩,  -- RED_CFG
  ⟨0x108, 1, 0x0, 1, 0x0, .val 0x9280000, .none, [⟨31, 31, .ro, .any⟩, ⟨30, 30, .ro, .any⟩, ⟨29, 27, .ro, .any⟩, ⟨26, 24, .ro, .any⟩, ⟨23, 20, .ro, .any⟩, ⟨19, 16, .ro, .any⟩, ⟨15, 0, .ro, .any⟩]⟩,  -- RED_CFG_ACT
  ⟨0xC, 1, 0x0, 1, 0x0, .val 0x18000000, .red, [⟨31, 24, .rws, .range 0 168⟩, ⟨23, 20, .rws, .any⟩, ⟨11, 0, .rws, .any⟩]⟩,  -- RED_CFG2
  ⟨0x10C, 1, 0x0, 1, 0x0, .val 0x18000000, .none, [⟨31, 24, .ro, .any⟩, ⟨23, 20, .ro, .any⟩, ⟨11, 0, .ro, .any⟩]⟩,  -- RED_CFG2_ACT
  ⟨0x10, 1, 0x0, 1, 0x0, .val 0x3F, .red, [⟨5, 0, .rws, .any⟩]⟩,  -- RED_DIAG
  ⟨0x110, 1, 0x0, 1, 0x0, .val 0x3F, .none, [⟨5, 0, .ro, .any⟩]⟩,  -- RED_DIAG_ACT
  ⟨0x20, 8, 0x4, 1, 0x0, .val 0x0, .red, [⟨15, 0, .rws, .any⟩]⟩,  -- RED_MEMBERm
  ⟨0x120, 8, 0x4, 1, 0x0, .val 0x0, .none, [⟨15, 0, .ro, .any⟩]⟩,  -- RED_MEMBERm_ACT
  ⟨0x40, 1, 0x0, 1, 0x0, .val 0x0, .red, [⟨31, 6, .rws, .any⟩]⟩,  -- RED_DUTY_BASE_LO
  ⟨0x140, 1, 0x0, 1, 0x0, .val 0x0, .none, [⟨31, 6, .ro, .any⟩]⟩,  -- RED_DUTY_BASE_LO_ACT
  ⟨0x44, 1, 0x0, 1, 0x0, .val 0x0, .red, [⟨7, 0, .rws, .any⟩]⟩,  -- RED_DUTY_BASE_HI
  ⟨0x144, 1, 0x0, 1, 0x0, .val 0x0, .none, [⟨7, 0, .ro, .any⟩]⟩,  -- RED_DUTY_BASE_HI_ACT
  ⟨0x48, 1, 0x0, 1, 0x0, .val 0x0, .none, [⟨0, 0, .w1s, .any⟩]⟩,  -- RED_COMMIT
  ⟨0x4C, 1, 0x0, 1, 0x0, .val 0x0, .none, [⟨31, 31, .ro, .any⟩, ⟨26, 24, .ro, .any⟩, ⟨20, 0, .ro, .any⟩]⟩,  -- RED_STAT
  ⟨0x60, 7, 0x4, 1, 0x0, .val 0x0, .none, [⟨31, 0, .ro, .any⟩]⟩,  -- RED_Dd_EPOCH
  ⟨0x80, 8, 0x4, 1, 0x0, .val 0x0, .none, [⟨31, 0, .ro, .any⟩]⟩,  -- RED_HEALTHm
  ⟨0xA0, 1, 0x0, 1, 0x0, .val 0x0, .none, [⟨31, 16, .rc, .any⟩, ⟨15, 8, .rc, .any⟩, ⟨7, 0, .rc, .any⟩]⟩]  -- RED_CNT

/-- The families of block EVC (spec/15_mesh_host.md). -/
def famsEvc : List Fam := [
  ⟨0x0, 4, 0x4, 1, 0x0, .val 0x0, .none, [⟨31, 0, .ro, .any⟩]⟩,  -- EVC_LEVELn
  ⟨0x10, 4, 0x4, 1, 0x0, .val 0x0, .none, [⟨31, 0, .ro, .any⟩]⟩,  -- EVC_VLEVELn
  ⟨0x20, 1, 0x0, 1, 0x0, .val 0x0, .none, [⟨6, 0, .wo, .any⟩]⟩,  -- EVC_EOI
  ⟨0x100, 128, 0x4, 1, 0x0, .index, .none, [⟨7, 7, .rw, .any⟩, ⟨6, 0, .rw, .any⟩]⟩,  -- EVC_MAPs
  ⟨0x8000, 128, 0x10, 1, 0x0, .val 0x0, .none, [⟨31, 2, .rw, .any⟩]⟩,  -- EVC_MSIXv_LO
  ⟨0x8004, 128, 0x10, 1, 0x0, .val 0x0, .none, [⟨31, 0, .rw, .any⟩]⟩,  -- EVC_MSIXv_HI
  ⟨0x8008, 128, 0x10, 1, 0x0, .val 0x0, .none, [⟨31, 0, .rw, .any⟩]⟩,  -- EVC_MSIXv_DATA
  ⟨0x800C, 128, 0x10, 1, 0x0, .val 0x1, .none, [⟨0, 0, .rw, .any⟩]⟩,  -- EVC_MSIXv_CTRL
  ⟨0xC000, 4, 0x4, 1, 0x0, .val 0x0, .none, [⟨31, 0, .ro, .any⟩]⟩]  -- EVC_PBAi

/-- The families of block PIN (spec/18_package.md). -/
def famsPin : List Fam := [
  ⟨0x0, 1, 0x0, 1, 0x0, .val 0x0, .none, [⟨10, 0, .ro, .any⟩]⟩,  -- PIN_BANK
  ⟨0x4, 1, 0x0, 1, 0x0, .val 0x0, .none, [⟨15, 0, .rw, .any⟩]⟩,  -- PIN_GPIO_DIR
  ⟨0x8, 1, 0x0, 1, 0x0, .val 0x0, .none, [⟨15, 0, .rw, .any⟩]⟩,  -- PIN_GPIO_OUT
  ⟨0xC, 1, 0x0, 1, 0x0, .val 0x0, .none, [⟨15, 0, .ro, .any⟩]⟩,  -- PIN_GPIO_IN
  ⟨0x10, 1, 0x0, 1, 0x0, .val 0x0, .none, [⟨31, 0, .rw, .any⟩]⟩]  -- PIN_GPIO_PULL

/-- Every block of the register space with the size of its window (15_mesh_host.md, address map). -/
def blocks : List Blk := [
  ⟨0x4000000, 1, 0x0, 0x10000, famsMesh⟩,
  ⟨0x4010000, 1, 0x0, 0x10000, famsPwr⟩,
  ⟨0x4020000, 1, 0x0, 0x10000, famsTime⟩,
  ⟨0x4030000, 1, 0x0, 0x10000, famsSp⟩,
  ⟨0x4040000, 1, 0x0, 0x10000, famsLe⟩,
  ⟨0x4050000, 1, 0x0, 0x10000, famsSig⟩,
  ⟨0x4060000, 1, 0x0, 0x10000, famsCapt⟩,
  ⟨0x4070000, 1, 0x0, 0x10000, famsHerd⟩,
  ⟨0x4080000, 2, 0x10000, 0x20000, famsEth⟩,
  ⟨0x40A0000, 4, 0x4000, 0x10000, famsCan⟩,
  ⟨0x40B0000, 12, 0x1000, 0x10000, famsAdc⟩,
  ⟨0x40C0000, 1, 0x0, 0x10000, famsSdf⟩,
  ⟨0x40D0000, 1, 0x0, 0x10000, famsPs⟩,
  ⟨0x4100000, 48, 0x1000, 0x30000, famsAx⟩,
  ⟨0x4140000, 48, 0x400, 0x10000, famsMot⟩,
  ⟨0x4150000, 1, 0x0, 0x10000, famsVm⟩,
  ⟨0x4180000, 1, 0x0, 0x10000, famsChm⟩,
  ⟨0x4190000, 1, 0x0, 0x10000, famsBhr⟩,
  ⟨0x41A0000, 1, 0x0, 0x10000, famsRed⟩,
  ⟨0x41B0000, 1, 0x0, 0x10000, famsEvc⟩,
  ⟨0x41C0000, 1, 0x0, 0x10000, famsPin⟩]


/-! Addresses of block MESH. -/
abbrev Reg.meshEvstat : Nat := 0x4000000
abbrev Reg.meshEven : Nat := 0x4000004
abbrev Reg.meshCfg : Nat := 0x4000008
abbrev Reg.meshAccLo : Nat := 0x400000C
abbrev Reg.meshAccHi : Nat := 0x4000010
abbrev Reg.meshEccCnt : Nat := 0x4000018
abbrev Reg.meshEccLo : Nat := 0x400001C
abbrev Reg.meshEccHi : Nat := 0x4000020
abbrev Reg.meshPStat (i : Nat) : Nat := 0x4000100 + i * 0x10
abbrev Reg.meshPWait (i : Nat) : Nat := 0x4000104 + i * 0x10
abbrev Reg.meshDdrCfg : Nat := 0x4000200
abbrev Reg.meshDdrTim : Nat := 0x4000204
abbrev Reg.meshDdrStat : Nat := 0x4000208
abbrev Reg.meshPcieId : Nat := 0x4000300
abbrev Reg.meshPcieStat : Nat := 0x4000304
abbrev Reg.meshPcieBar4 : Nat := 0x4000308
abbrev Reg.meshPcieErr : Nat := 0x400030C
abbrev Reg.meshPcieObHostLo (i : Nat) : Nat := 0x4000340 + i * 0x10
abbrev Reg.meshPcieObHostHi (i : Nat) : Nat := 0x4000344 + i * 0x10
abbrev Reg.meshPcieObSize (i : Nat) : Nat := 0x4000348 + i * 0x10
abbrev Reg.meshDmaDescLo (i : Nat) : Nat := 0x4000400 + i * 0x10
abbrev Reg.meshDmaDescHi (i : Nat) : Nat := 0x4000404 + i * 0x10
abbrev Reg.meshDmaCtrl (i : Nat) : Nat := 0x4000408 + i * 0x10
abbrev Reg.meshDmaStat (i : Nat) : Nat := 0x400040C + i * 0x10

/-! Addresses of block PWR. -/
abbrev Reg.pwrEvstat : Nat := 0x4010000
abbrev Reg.pwrEven : Nat := 0x4010004
abbrev Reg.rstCtrl : Nat := 0x4010008
abbrev Reg.rstCause : Nat := 0x401000C
abbrev Reg.rstCount : Nat := 0x4010010
abbrev Reg.clkStat : Nat := 0x4010014
abbrev Reg.pwrCfg : Nat := 0x4010018
abbrev Reg.pwrStat : Nat := 0x401001C
abbrev Reg.pwrHoldLo : Nat := 0x4010020
abbrev Reg.pwrHoldHi : Nat := 0x4010024
abbrev Reg.pwrPfTsLo : Nat := 0x4010028
abbrev Reg.pwrPfTsHi : Nat := 0x401002C
abbrev Reg.pwrPfSecLo : Nat := 0x4010030
abbrev Reg.pwrPfSecHi : Nat := 0x4010034
abbrev Reg.pwrPfInfo : Nat := 0x4010038
abbrev Reg.pwrBkp (i : Nat) : Nat := 0x4010100 + i * 0x4
abbrev Reg.pwrAxposLo (i : Nat) : Nat := 0x4010200 + i * 0x8
abbrev Reg.pwrAxposHi (i : Nat) : Nat := 0x4010204 + i * 0x8

/-! Addresses of block TIME. -/
abbrev Reg.timeCtrl : Nat := 0x4020000
abbrev Reg.timeStat : Nat := 0x4020004
abbrev Reg.timeCommit : Nat := 0x4020008
abbrev Reg.timeEvstat : Nat := 0x402000C
abbrev Reg.timeEven : Nat := 0x4020010
abbrev Reg.timeSnap : Nat := 0x4020014
abbrev Reg.timeTb0Lock : Nat := 0x4020018
abbrev Reg.timeTb0LockAct : Nat := 0x4020028
abbrev Reg.timeTb0Hold : Nat := 0x402001C
abbrev Reg.timeTb0HoldAct : Nat := 0x402002C
abbrev Reg.timePpsCfg : Nat := 0x4020020
abbrev Reg.timePpsOutdly : Nat := 0x4020024
abbrev Reg.timeTbCtrl (i : Nat) : Nat := 0x4020100 + i * 0x40
abbrev Reg.timeTbIncLo (i : Nat) : Nat := 0x4020104 + i * 0x40
abbrev Reg.timeTbIncHi (i : Nat) : Nat := 0x4020108 + i * 0x40
abbrev Reg.timeTbAdjA (i : Nat) : Nat := 0x402010C + i * 0x40
abbrev Reg.timeTbAdjB (i : Nat) : Nat := 0x4020110 + i * 0x40
abbrev Reg.timeTbAdjC (i : Nat) : Nat := 0x4020114 + i * 0x40
abbrev Reg.timeTbAdjctl (i : Nat) : Nat := 0x4020118 + i * 0x40
abbrev Reg.timeTbSnapSub (i : Nat) : Nat := 0x4020120 + i * 0x40
abbrev Reg.timeTbSnapNs (i : Nat) : Nat := 0x4020124 + i * 0x40
abbrev Reg.timeTbSnapSecLo (i : Nat) : Nat := 0x4020128 + i * 0x40
abbrev Reg.timeTbSnapSecHi (i : Nat) : Nat := 0x402012C + i * 0x40
abbrev Reg.timeTbNowLo (i : Nat) : Nat := 0x4020138 + i * 0x40
abbrev Reg.timeTbNowHi (i : Nat) : Nat := 0x402013C + i * 0x40
abbrev Reg.timeSgCfg (i : Nat) : Nat := 0x4020400 + i * 0x40
abbrev Reg.timeSgCfgAct (i : Nat) : Nat := 0x4020420 + i * 0x40
abbrev Reg.timeSgPeriod (i : Nat) : Nat := 0x4020404 + i * 0x40
abbrev Reg.timeSgPeriodAct (i : Nat) : Nat := 0x4020424 + i * 0x40
abbrev Reg.timeSgPhase (i : Nat) : Nat := 0x4020408 + i * 0x40
abbrev Reg.timeSgPhaseAct (i : Nat) : Nat := 0x4020428 + i * 0x40
abbrev Reg.timeSgStat (i : Nat) : Nat := 0x402040C + i * 0x40
abbrev Reg.timeSgIdxLo (i : Nat) : Nat := 0x4020410 + i * 0x40
abbrev Reg.timeSgIdxHi (i : Nat) : Nat := 0x4020414 + i * 0x40
abbrev Reg.timeSgNextLo (i : Nat) : Nat := 0x4020418 + i * 0x40
abbrev Reg.timeSgNextHi (i : Nat) : Nat := 0x402041C + i * 0x40
abbrev Reg.timeLgCfg (i : Nat) : Nat := 0x4020800 + i * 0x20
abbrev Reg.timeLgCfgAct (i : Nat) : Nat := 0x4020810 + i * 0x20
abbrev Reg.timeLgMemLo (i : Nat) : Nat := 0x4020804 + i * 0x20
abbrev Reg.timeLgMemLoAct (i : Nat) : Nat := 0x4020814 + i * 0x20
abbrev Reg.timeLgMemHi (i : Nat) : Nat := 0x4020808 + i * 0x20
abbrev Reg.timeLgMemHiAct (i : Nat) : Nat := 0x4020818 + i * 0x20
abbrev Reg.timeTrigCfg (i : Nat) : Nat := 0x4020900 + i * 0x20
abbrev Reg.timeTrigStat (i : Nat) : Nat := 0x4020904 + i * 0x20
abbrev Reg.timeTrigOut0 (i : Nat) : Nat := 0x4020908 + i * 0x20
abbrev Reg.timeTrigOut1 (i : Nat) : Nat := 0x402090C + i * 0x20
abbrev Reg.timeTrigOut2 (i : Nat) : Nat := 0x4020910 + i * 0x20

/-! Addresses of block SP. -/
abbrev Reg.spEvstat : Nat := 0x4030000
abbrev Reg.spEven : Nat := 0x4030004
abbrev Reg.spCmplLo : Nat := 0x4030008
abbrev Reg.spCmplHi : Nat := 0x403000C
abbrev Reg.spFaultedLo : Nat := 0x4030010
abbrev Reg.spFaultedHi : Nat := 0x4030014
abbrev Reg.spInflight : Nat := 0x4030018
abbrev Reg.spForced : Nat := 0x403001C
abbrev Reg.spRecfaultLo : Nat := 0x4030020
abbrev Reg.spRecfaultHi : Nat := 0x4030024
abbrev Reg.spPStat (i : Nat) : Nat := 0x4030040 + i * 0x4
abbrev Reg.spTCtrl (i : Nat) : Nat := 0x4031000 + i * 0x40
abbrev Reg.spTCfg (i : Nat) : Nat := 0x4031004 + i * 0x40
abbrev Reg.spTEntry (i : Nat) : Nat := 0x4031008 + i * 0x40
abbrev Reg.spTStat (i : Nat) : Nat := 0x403100C + i * 0x40
abbrev Reg.spTPc (i : Nat) : Nat := 0x4031010 + i * 0x40
abbrev Reg.spTFcode (i : Nat) : Nat := 0x4031014 + i * 0x40
abbrev Reg.spTFpc (i : Nat) : Nat := 0x4031018 + i * 0x40
abbrev Reg.spTFaddrLo (i : Nat) : Nat := 0x403101C + i * 0x40
abbrev Reg.spTFaddrHi (i : Nat) : Nat := 0x4031020 + i * 0x40
abbrev Reg.spTHandles (i : Nat) : Nat := 0x4031024 + i * 0x40
abbrev Reg.spLock (i : Nat) : Nat := 0x4034000 + i * 0x4
abbrev Reg.spTHrecW (i j : Nat) : Nat := 0x4038000 + i * 0x100 + j * 0x4

/-! Addresses of block LE. -/
abbrev Reg.leEvstat : Nat := 0x4040000
abbrev Reg.leEven : Nat := 0x4040004
abbrev Reg.leStat : Nat := 0x4040008
abbrev Reg.leUtil : Nat := 0x404000C
abbrev Reg.leTin : Nat := 0x4040010
abbrev Reg.leLasterr : Nat := 0x4040014
abbrev Reg.leEccCnt : Nat := 0x4040018
abbrev Reg.leEccAddr : Nat := 0x404001C
abbrev Reg.leCommitLo : Nat := 0x4040020
abbrev Reg.leCommitHi : Nat := 0x4040024
abbrev Reg.leFb (i : Nat) : Nat := 0x4040040 + i * 0x4
abbrev Reg.leFlt (i : Nat) : Nat := 0x4040060 + i * 0x4
abbrev Reg.leCtxStat (i : Nat) : Nat := 0x4041000 + i * 0x8
abbrev Reg.leCtxCnt (i : Nat) : Nat := 0x4041004 + i * 0x8
abbrev Reg.leTrCfg (i : Nat) : Nat := 0x4044000 + i * 0x40
abbrev Reg.leTrCfgAct (i : Nat) : Nat := 0x4044020 + i * 0x40
abbrev Reg.leTrPost (i : Nat) : Nat := 0x4044004 + i * 0x40
abbrev Reg.leTrPostAct (i : Nat) : Nat := 0x4044024 + i * 0x40
abbrev Reg.leTrNodesLo (i : Nat) : Nat := 0x4044008 + i * 0x40
abbrev Reg.leTrNodesLoAct (i : Nat) : Nat := 0x4044028 + i * 0x40
abbrev Reg.leTrNodesHi (i : Nat) : Nat := 0x404400C + i * 0x40
abbrev Reg.leTrNodesHiAct (i : Nat) : Nat := 0x404402C + i * 0x40
abbrev Reg.leTrStat (i : Nat) : Nat := 0x4044010 + i * 0x40

/-! Addresses of block SIG. -/
abbrev Reg.sigEvstat : Nat := 0x4050000
abbrev Reg.sigEven : Nat := 0x4050004
abbrev Reg.sigStat : Nat := 0x4050008
abbrev Reg.sigDefined : Nat := 0x405000C
abbrev Reg.sigLate : Nat := 0x4050010
abbrev Reg.sigDenied : Nat := 0x4050014
abbrev Reg.sigUndef : Nat := 0x4050018
abbrev Reg.sigStamperr : Nat := 0x405001C
abbrev Reg.sigRouteBaseLo : Nat := 0x4050020
abbrev Reg.sigRouteBaseLoAct : Nat := 0x4050044
abbrev Reg.sigRouteBaseHi : Nat := 0x4050024
abbrev Reg.sigRouteBaseHiAct : Nat := 0x4050048
abbrev Reg.sigRouteLen : Nat := 0x4050028
abbrev Reg.sigRouteLenAct : Nat := 0x405004C
abbrev Reg.sigHotCfg : Nat := 0x4050030
abbrev Reg.sigLocateIdx : Nat := 0x4050034
abbrev Reg.sigLocateRes : Nat := 0x4050038
abbrev Reg.sigEccIdx : Nat := 0x405003C
abbrev Reg.sigCommit : Nat := 0x4050040
abbrev Reg.sigBankStat (i : Nat) : Nat := 0x4050100 + i * 0x8
abbrev Reg.sigBankHot (i : Nat) : Nat := 0x4050104 + i * 0x8
abbrev Reg.sigDportIdx : Nat := 0x4050200
abbrev Reg.sigDportW (i : Nat) : Nat := 0x4050204 + i * 0x4
abbrev Reg.sigDportCmd : Nat := 0x4050214
abbrev Reg.sigDportHist (i : Nat) : Nat := 0x4050220 + i * 0x4

/-! Addresses of block CAPT. -/
abbrev Reg.captEvstat : Nat := 0x4060000
abbrev Reg.captEven : Nat := 0x4060004
abbrev Reg.captCommit : Nat := 0x4060008
abbrev Reg.captCommitTrLo : Nat := 0x406000C
abbrev Reg.captCommitTrHi : Nat := 0x4060010
abbrev Reg.captStat : Nat := 0x4060014
abbrev Reg.captLasterr : Nat := 0x4060018
abbrev Reg.captHerderr : Nat := 0x406001C
abbrev Reg.captSCfg (i : Nat) : Nat := 0x4060100 + i * 0x40
abbrev Reg.captSCfgAct (i : Nat) : Nat := 0x4060800 + i * 0x40
abbrev Reg.captSListLo (i : Nat) : Nat := 0x4060104 + i * 0x40
abbrev Reg.captSListLoAct (i : Nat) : Nat := 0x4060804 + i * 0x40
abbrev Reg.captSListHi (i : Nat) : Nat := 0x4060108 + i * 0x40
abbrev Reg.captSListHiAct (i : Nat) : Nat := 0x4060808 + i * 0x40
abbrev Reg.captSBaseLo (i : Nat) : Nat := 0x406010C + i * 0x40
abbrev Reg.captSBaseLoAct (i : Nat) : Nat := 0x406080C + i * 0x40
abbrev Reg.captSBaseHi (i : Nat) : Nat := 0x4060110 + i * 0x40
abbrev Reg.captSBaseHiAct (i : Nat) : Nat := 0x4060810 + i * 0x40
abbrev Reg.captSSize (i : Nat) : Nat := 0x4060114 + i * 0x40
abbrev Reg.captSSizeAct (i : Nat) : Nat := 0x4060814 + i * 0x40
abbrev Reg.captSPre (i : Nat) : Nat := 0x4060118 + i * 0x40
abbrev Reg.captSPreAct (i : Nat) : Nat := 0x4060818 + i * 0x40
abbrev Reg.captSPost (i : Nat) : Nat := 0x406011C + i * 0x40
abbrev Reg.captSPostAct (i : Nat) : Nat := 0x406081C + i * 0x40
abbrev Reg.captSHerd (i : Nat) : Nat := 0x4060120 + i * 0x40
abbrev Reg.captSHerdAct (i : Nat) : Nat := 0x4060820 + i * 0x40
abbrev Reg.captSStat (i : Nat) : Nat := 0x4060124 + i * 0x40
abbrev Reg.captSWr (i : Nat) : Nat := 0x4060128 + i * 0x40
abbrev Reg.captSRd (i : Nat) : Nat := 0x406012C + i * 0x40
abbrev Reg.captSFirst (i : Nat) : Nat := 0x4060130 + i * 0x40
abbrev Reg.captSCount (i : Nat) : Nat := 0x4060134 + i * 0x40
abbrev Reg.captSLost (i : Nat) : Nat := 0x4060138 + i * 0x40
abbrev Reg.captSArmno (i : Nat) : Nat := 0x406013C + i * 0x40
abbrev Reg.captSTrigLo (i : Nat) : Nat := 0x4060600 + i * 0x20
abbrev Reg.captSTrigHi (i : Nat) : Nat := 0x4060604 + i * 0x20
abbrev Reg.captSTrigInfo (i : Nat) : Nat := 0x4060608 + i * 0x20
abbrev Reg.captSMaskLo (i : Nat) : Nat := 0x406060C + i * 0x20
abbrev Reg.captSMaskHi (i : Nat) : Nat := 0x4060610 + i * 0x20
abbrev Reg.captTrCfg (i : Nat) : Nat := 0x4061000 + i * 0x20
abbrev Reg.captTrCfgAct (i : Nat) : Nat := 0x4061800 + i * 0x20
abbrev Reg.captTrSig (i : Nat) : Nat := 0x4061004 + i * 0x20
abbrev Reg.captTrSigAct (i : Nat) : Nat := 0x4061804 + i * 0x20
abbrev Reg.captTrA (i : Nat) : Nat := 0x4061008 + i * 0x20
abbrev Reg.captTrAAct (i : Nat) : Nat := 0x4061808 + i * 0x20
abbrev Reg.captTrB (i : Nat) : Nat := 0x406100C + i * 0x20
abbrev Reg.captTrBAct (i : Nat) : Nat := 0x406180C + i * 0x20
abbrev Reg.captTrMask (i : Nat) : Nat := 0x4061010 + i * 0x20
abbrev Reg.captTrMaskAct (i : Nat) : Nat := 0x4061810 + i * 0x20
abbrev Reg.captTrStat (i : Nat) : Nat := 0x4061014 + i * 0x20

/-! Addresses of block HERD. -/
abbrev Reg.herdEvstat : Nat := 0x4070000
abbrev Reg.herdEven : Nat := 0x4070004
abbrev Reg.herdStat : Nat := 0x4070008
abbrev Reg.herdCfg : Nat := 0x407000C
abbrev Reg.herdIdbase : Nat := 0x4070010
abbrev Reg.herdSync : Nat := 0x4070014
abbrev Reg.herdParent : Nat := 0x4070018
abbrev Reg.herdStag : Nat := 0x407001C
abbrev Reg.herdStagUid (i : Nat) : Nat := 0x4070020 + i * 0x4
abbrev Reg.herdCyc : Nat := 0x4070030
abbrev Reg.herdCycAct : Nat := 0x4070040
abbrev Reg.herdCommit : Nat := 0x4070034
abbrev Reg.herdCommitCycLo : Nat := 0x4070038
abbrev Reg.herdCommitCycHi : Nat := 0x407003C
abbrev Reg.herdTxnCfg : Nat := 0x4070044
abbrev Reg.herdTxnStat : Nat := 0x4070048
abbrev Reg.herdDropHop : Nat := 0x4070050
abbrev Reg.herdDropClass : Nat := 0x4070054
abbrev Reg.herdDropUnr : Nat := 0x4070058
abbrev Reg.herdDropCong : Nat := 0x407005C
abbrev Reg.herdWinBase (i : Nat) : Nat := 0x4070080 + i * 0x8
abbrev Reg.herdWinSize (i : Nat) : Nat := 0x4070084 + i * 0x8
abbrev Reg.herdHerdid (i : Nat) : Nat := 0x40700A0 + i * 0x4
abbrev Reg.herdHpCtrl (i : Nat) : Nat := 0x4070400 + i * 0x100
abbrev Reg.herdHpStat (i : Nat) : Nat := 0x4070404 + i * 0x100
abbrev Reg.herdHpAsym (i : Nat) : Nat := 0x4070408 + i * 0x100
abbrev Reg.herdHpDelay (i : Nat) : Nat := 0x407040C + i * 0x100
abbrev Reg.herdHpOffset (i : Nat) : Nat := 0x4070410 + i * 0x100
abbrev Reg.herdHpLane (i : Nat) : Nat := 0x4070414 + i * 0x100
abbrev Reg.herdHpErrcnt (i : Nat) : Nat := 0x4070418 + i * 0x100
abbrev Reg.herdHpSlotlen (i : Nat) : Nat := 0x407041C + i * 0x100
abbrev Reg.herdHpSlotlenAct (i : Nat) : Nat := 0x4070420 + i * 0x100
abbrev Reg.herdHpIsocnt (i : Nat) : Nat := 0x4070424 + i * 0x100
abbrev Reg.herdHpIvl (i j : Nat) : Nat := 0x4071000 + i * 0x100 + j * 0x4
abbrev Reg.herdHpSlot (i j : Nat) : Nat := 0x4078000 + i * 0x1000 + j * 0x4
abbrev Reg.herdHpSlotAct (i j : Nat) : Nat := 0x407C000 + i * 0x1000 + j * 0x4

/-! Addresses of block ETH. -/
abbrev Reg.ethEvstat (b : Nat) : Nat := 0x4080000 + b * 0x10000
abbrev Reg.ethEven (b : Nat) : Nat := 0x4080004 + b * 0x10000
abbrev Reg.ethCfg (b : Nat) : Nat := 0x4080008 + b * 0x10000
abbrev Reg.ethCfgAct (b : Nat) : Nat := 0x4080808 + b * 0x10000
abbrev Reg.ethMacaddrLo (b : Nat) : Nat := 0x408000C + b * 0x10000
abbrev Reg.ethMacaddrLoAct (b : Nat) : Nat := 0x408080C + b * 0x10000
abbrev Reg.ethMacaddrHi (b : Nat) : Nat := 0x4080010 + b * 0x10000
abbrev Reg.ethMacaddrHiAct (b : Nat) : Nat := 0x4080810 + b * 0x10000
abbrev Reg.ethIpaddr (b : Nat) : Nat := 0x4080014 + b * 0x10000
abbrev Reg.ethIpaddrAct (b : Nat) : Nat := 0x4080814 + b * 0x10000
abbrev Reg.ethLat (b : Nat) : Nat := 0x4080018 + b * 0x10000
abbrev Reg.ethLatAct (b : Nat) : Nat := 0x4080818 + b * 0x10000
abbrev Reg.ethRxsteer (b : Nat) : Nat := 0x408001C + b * 0x10000
abbrev Reg.ethRxsteerAct (b : Nat) : Nat := 0x408081C + b * 0x10000
abbrev Reg.ethCommit (b : Nat) : Nat := 0x4080020 + b * 0x10000
abbrev Reg.ethStat (b : Nat) : Nat := 0x4080024 + b * 0x10000
abbrev Reg.ethPtpCfg (b : Nat) : Nat := 0x4080028 + b * 0x10000
abbrev Reg.ethPtpOffset (b : Nat) : Nat := 0x408002C + b * 0x10000
abbrev Reg.ethPtpSig (b : Nat) : Nat := 0x4080030 + b * 0x10000
abbrev Reg.ethCntRxdrop (b : Nat) : Nat := 0x4080034 + b * 0x10000
abbrev Reg.ethCntCrc (b : Nat) : Nat := 0x4080038 + b * 0x10000
abbrev Reg.ethCntTxref (b : Nat) : Nat := 0x408003C + b * 0x10000
abbrev Reg.ethGclCtrl (b : Nat) : Nat := 0x4080040 + b * 0x10000
abbrev Reg.ethGclCtrlAct (b : Nat) : Nat := 0x4080840 + b * 0x10000
abbrev Reg.ethGclCycle (b : Nat) : Nat := 0x4080044 + b * 0x10000
abbrev Reg.ethGclCycleAct (b : Nat) : Nat := 0x4080844 + b * 0x10000
abbrev Reg.ethGclBaseLo (b : Nat) : Nat := 0x4080048 + b * 0x10000
abbrev Reg.ethGclBaseLoAct (b : Nat) : Nat := 0x4080848 + b * 0x10000
abbrev Reg.ethGclBaseHi (b : Nat) : Nat := 0x408004C + b * 0x10000
abbrev Reg.ethGclBaseHiAct (b : Nat) : Nat := 0x408084C + b * 0x10000
abbrev Reg.ethTxqBaseLo (b i : Nat) : Nat := 0x4080100 + b * 0x10000 + i * 0x10
abbrev Reg.ethTxqBaseHi (b i : Nat) : Nat := 0x4080104 + b * 0x10000 + i * 0x10
abbrev Reg.ethTxqRing (b i : Nat) : Nat := 0x4080108 + b * 0x10000 + i * 0x10
abbrev Reg.ethTxqTail (b i : Nat) : Nat := 0x408010C + b * 0x10000 + i * 0x10
abbrev Reg.ethRxBaseLo (b i : Nat) : Nat := 0x4080200 + b * 0x10000 + i * 0x10
abbrev Reg.ethRxBaseHi (b i : Nat) : Nat := 0x4080204 + b * 0x10000 + i * 0x10
abbrev Reg.ethRxRing (b i : Nat) : Nat := 0x4080208 + b * 0x10000 + i * 0x10
abbrev Reg.ethRxTail (b i : Nat) : Nat := 0x408020C + b * 0x10000 + i * 0x10
abbrev Reg.ethGcl (b i : Nat) : Nat := 0x4081000 + b * 0x10000 + i * 0x4
abbrev Reg.ethGclAct (b i : Nat) : Nat := 0x4081400 + b * 0x10000 + i * 0x4

/-! Addresses of block CAN. -/
abbrev Reg.canEvstat (b : Nat) : Nat := 0x40A0000 + b * 0x4000
abbrev Reg.canEven (b : Nat) : Nat := 0x40A0004 + b * 0x4000
abbrev Reg.canCfg (b : Nat) : Nat := 0x40A0008 + b * 0x4000
abbrev Reg.canCfgAct (b : Nat) : Nat := 0x40A0808 + b * 0x4000
abbrev Reg.canNbt (b : Nat) : Nat := 0x40A000C + b * 0x4000
abbrev Reg.canNbtAct (b : Nat) : Nat := 0x40A080C + b * 0x4000
abbrev Reg.canDbt (b : Nat) : Nat := 0x40A0010 + b * 0x4000
abbrev Reg.canDbtAct (b : Nat) : Nat := 0x40A0810 + b * 0x4000
abbrev Reg.canTdc (b : Nat) : Nat := 0x40A0014 + b * 0x4000
abbrev Reg.canTdcAct (b : Nat) : Nat := 0x40A0814 + b * 0x4000
abbrev Reg.canAbdcfg (b : Nat) : Nat := 0x40A0018 + b * 0x4000
abbrev Reg.canAbdcfgAct (b : Nat) : Nat := 0x40A0818 + b * 0x4000
abbrev Reg.canCommit (b : Nat) : Nat := 0x40A001C + b * 0x4000
abbrev Reg.canCtrl (b : Nat) : Nat := 0x40A0020 + b * 0x4000
abbrev Reg.canStat (b : Nat) : Nat := 0x40A0024 + b * 0x4000
abbrev Reg.canAck (b : Nat) : Nat := 0x40A0028 + b * 0x4000
abbrev Reg.canCnt (b : Nat) : Nat := 0x40A002C + b * 0x4000
abbrev Reg.canRxqStat (b i : Nat) : Nat := 0x40A0030 + b * 0x4000 + i * 0x4
abbrev Reg.canAbd (b i : Nat) : Nat := 0x40A0040 + b * 0x4000 + i * 0x4
abbrev Reg.canAbdAct (b i : Nat) : Nat := 0x40A0840 + b * 0x4000 + i * 0x4
abbrev Reg.canFltMatch (b i : Nat) : Nat := 0x40A0100 + b * 0x4000 + i * 0x10
abbrev Reg.canFltMatchAct (b i : Nat) : Nat := 0x40A0900 + b * 0x4000 + i * 0x10
abbrev Reg.canFltMask (b i : Nat) : Nat := 0x40A0104 + b * 0x4000 + i * 0x10
abbrev Reg.canFltMaskAct (b i : Nat) : Nat := 0x40A0904 + b * 0x4000 + i * 0x10
abbrev Reg.canFltTgt (b i : Nat) : Nat := 0x40A0108 + b * 0x4000 + i * 0x10
abbrev Reg.canFltTgtAct (b i : Nat) : Nat := 0x40A0908 + b * 0x4000 + i * 0x10
abbrev Reg.canObjW0 (b i : Nat) : Nat := 0x40A1000 + b * 0x4000 + i * 0x60
abbrev Reg.canObjId (b i : Nat) : Nat := 0x40A1004 + b * 0x4000 + i * 0x60
abbrev Reg.canObjDlc (b i : Nat) : Nat := 0x40A1008 + b * 0x4000 + i * 0x60
abbrev Reg.canObjTs (b i : Nat) : Nat := 0x40A100C + b * 0x4000 + i * 0x60
abbrev Reg.canObjSig (b i : Nat) : Nat := 0x40A1010 + b * 0x4000 + i * 0x60
abbrev Reg.canObjData (b i j : Nat) : Nat := 0x40A1020 + b * 0x4000 + i * 0x60 + j * 0x4

/-! Addresses of block ADC. -/
abbrev Reg.adcCfg (b : Nat) : Nat := 0x40B0000 + b * 0x1000
abbrev Reg.adcCfgAct (b : Nat) : Nat := 0x40B0200 + b * 0x1000
abbrev Reg.adcTrgoff (b : Nat) : Nat := 0x40B0004 + b * 0x1000
abbrev Reg.adcTrgoffAct (b : Nat) : Nat := 0x40B0204 + b * 0x1000
abbrev Reg.adcCommit (b : Nat) : Nat := 0x40B0008 + b * 0x1000
abbrev Reg.adcCtrl (b : Nat) : Nat := 0x40B000C + b * 0x1000
abbrev Reg.adcStat (b : Nat) : Nat := 0x40B0010 + b * 0x1000
abbrev Reg.adcEvstat (b : Nat) : Nat := 0x40B0014 + b * 0x1000
abbrev Reg.adcEven (b : Nat) : Nat := 0x40B0018 + b * 0x1000
abbrev Reg.adcCnt (b : Nat) : Nat := 0x40B001C + b * 0x1000
abbrev Reg.adcDrLo (b : Nat) : Nat := 0x40B0020 + b * 0x1000
abbrev Reg.adcDrHi (b : Nat) : Nat := 0x40B0024 + b * 0x1000
abbrev Reg.adcInj (b : Nat) : Nat := 0x40B0028 + b * 0x1000
abbrev Reg.adcOwsrc (b : Nat) : Nat := 0x40B002C + b * 0x1000
abbrev Reg.adcOwres (b : Nat) : Nat := 0x40B0030 + b * 0x1000
abbrev Reg.adcCal (b : Nat) : Nat := 0x40B0034 + b * 0x1000
abbrev Reg.adcSeq (b i : Nat) : Nat := 0x40B0040 + b * 0x1000 + i * 0x4
abbrev Reg.adcSeqAct (b i : Nat) : Nat := 0x40B0240 + b * 0x1000 + i * 0x4

/-! Addresses of block SDF. -/
abbrev Reg.sdfEvstat : Nat := 0x40C0000
abbrev Reg.sdfEven : Nat := 0x40C0004
abbrev Reg.sdfCommitLo : Nat := 0x40C0008
abbrev Reg.sdfCommitHi : Nat := 0x40C000C
abbrev Reg.sdfTrip (i : Nat) : Nat := 0x40C0010 + i * 0x4
abbrev Reg.sdfStuck (i : Nat) : Nat := 0x40C0030 + i * 0x4
abbrev Reg.sdfClk (i : Nat) : Nat := 0x40C0080 + i * 0x4
abbrev Reg.sdfClkAct (i : Nat) : Nat := 0x40C00A0 + i * 0x4
abbrev Reg.sdfChCfg (i : Nat) : Nat := 0x40C0400 + i * 0x10
abbrev Reg.sdfChCfgAct (i : Nat) : Nat := 0x40C1000 + i * 0x10
abbrev Reg.sdfChThr (i : Nat) : Nat := 0x40C0404 + i * 0x10
abbrev Reg.sdfChThrAct (i : Nat) : Nat := 0x40C1004 + i * 0x10
abbrev Reg.sdfChSig (i : Nat) : Nat := 0x40C0408 + i * 0x10
abbrev Reg.sdfChSigAct (i : Nat) : Nat := 0x40C1008 + i * 0x10
abbrev Reg.sdfChRes (i : Nat) : Nat := 0x40C040C + i * 0x10

/-! Addresses of block PS. -/
abbrev Reg.psEvstat : Nat := 0x40D0000
abbrev Reg.psEven : Nat := 0x40D0004
abbrev Reg.psCfg : Nat := 0x40D0008
abbrev Reg.psTableBaseLo : Nat := 0x40D000C
abbrev Reg.psTableBaseHi : Nat := 0x40D0010
abbrev Reg.psStat : Nat := 0x40D0014
abbrev Reg.psCntNomatch : Nat := 0x40D0018
abbrev Reg.psTout (i : Nat) : Nat := 0x40D0100 + i * 0x4

/-! Addresses of block AX. -/
abbrev Reg.axCfg (b : Nat) : Nat := 0x4100000 + b * 0x1000
abbrev Reg.axCfgAct (b : Nat) : Nat := 0x4100200 + b * 0x1000
abbrev Reg.axPwm (b : Nat) : Nat := 0x4100004 + b * 0x1000
abbrev Reg.axPwmAct (b : Nat) : Nat := 0x4100204 + b * 0x1000
abbrev Reg.axDead (b : Nat) : Nat := 0x4100008 + b * 0x1000
abbrev Reg.axDeadAct (b : Nat) : Nat := 0x4100208 + b * 0x1000
abbrev Reg.axPol (b : Nat) : Nat := 0x410000C + b * 0x1000
abbrev Reg.axPolAct (b : Nat) : Nat := 0x410020C + b * 0x1000
abbrev Reg.axStep (b : Nat) : Nat := 0x4100010 + b * 0x1000
abbrev Reg.axStepAct (b : Nat) : Nat := 0x4100210 + b * 0x1000
abbrev Reg.axStepper (b : Nat) : Nat := 0x4100014 + b * 0x1000
abbrev Reg.axStepperAct (b : Nat) : Nat := 0x4100214 + b * 0x1000
abbrev Reg.axRet (b : Nat) : Nat := 0x4100018 + b * 0x1000
abbrev Reg.axRetAct (b : Nat) : Nat := 0x4100218 + b * 0x1000
abbrev Reg.axReseat (b : Nat) : Nat := 0x410001C + b * 0x1000
abbrev Reg.axReseatAct (b : Nat) : Nat := 0x410021C + b * 0x1000
abbrev Reg.axFb (b : Nat) : Nat := 0x4100020 + b * 0x1000
abbrev Reg.axFbAct (b : Nat) : Nat := 0x4100220 + b * 0x1000
abbrev Reg.axFbtime (b : Nat) : Nat := 0x4100024 + b * 0x1000
abbrev Reg.axFbtimeAct (b : Nat) : Nat := 0x4100224 + b * 0x1000
abbrev Reg.axCrc (b : Nat) : Nat := 0x4100028 + b * 0x1000
abbrev Reg.axCrcAct (b : Nat) : Nat := 0x4100228 + b * 0x1000
abbrev Reg.axSig0 (b : Nat) : Nat := 0x410002C + b * 0x1000
abbrev Reg.axSig0Act (b : Nat) : Nat := 0x410022C + b * 0x1000
abbrev Reg.axSig1 (b : Nat) : Nat := 0x4100030 + b * 0x1000
abbrev Reg.axSig1Act (b : Nat) : Nat := 0x4100230 + b * 0x1000
abbrev Reg.axCommit (b : Nat) : Nat := 0x4100040 + b * 0x1000
abbrev Reg.axCtrl (b : Nat) : Nat := 0x4100044 + b * 0x1000
abbrev Reg.axStat (b : Nat) : Nat := 0x4100048 + b * 0x1000
abbrev Reg.axEvstat (b : Nat) : Nat := 0x410004C + b * 0x1000
abbrev Reg.axEven (b : Nat) : Nat := 0x4100050 + b * 0x1000
abbrev Reg.axErrcnt (b : Nat) : Nat := 0x4100054 + b * 0x1000
abbrev Reg.axDuty (b i : Nat) : Nat := 0x4100060 + b * 0x1000 + i * 0x4
abbrev Reg.axPosLo (b : Nat) : Nat := 0x4100070 + b * 0x1000
abbrev Reg.axPosHi (b : Nat) : Nat := 0x4100074 + b * 0x1000
abbrev Reg.axEnc (b : Nat) : Nat := 0x4100078 + b * 0x1000
abbrev Reg.axZlat (b : Nat) : Nat := 0x410007C + b * 0x1000
abbrev Reg.axZts (b : Nat) : Nat := 0x4100080 + b * 0x1000
abbrev Reg.axF (b i : Nat) : Nat := 0x4100090 + b * 0x1000 + i * 0x4
abbrev Reg.axTpl (b i : Nat) : Nat := 0x4100100 + b * 0x1000 + i * 0x4
abbrev Reg.axTplAct (b i : Nat) : Nat := 0x4100300 + b * 0x1000 + i * 0x4

/-! Addresses of block MOT. -/
abbrev Reg.motCfg (b : Nat) : Nat := 0x4140000 + b * 0x400
abbrev Reg.motCfgAct (b : Nat) : Nat := 0x4140100 + b * 0x400
abbrev Reg.motDeb (b : Nat) : Nat := 0x4140004 + b * 0x400
abbrev Reg.motDebAct (b : Nat) : Nat := 0x4140104 + b * 0x400
abbrev Reg.motLim (b i : Nat) : Nat := 0x4140008 + b * 0x400 + i * 0x4
abbrev Reg.motLimAct (b i : Nat) : Nat := 0x4140108 + b * 0x400 + i * 0x4
abbrev Reg.motHomeposLo (b : Nat) : Nat := 0x4140030 + b * 0x400
abbrev Reg.motHomeposLoAct (b : Nat) : Nat := 0x4140130 + b * 0x400
abbrev Reg.motHomeposHi (b : Nat) : Nat := 0x4140034 + b * 0x400
abbrev Reg.motHomeposHiAct (b : Nat) : Nat := 0x4140134 + b * 0x400
abbrev Reg.motHomerange (b : Nat) : Nat := 0x4140038 + b * 0x400
abbrev Reg.motHomerangeAct (b : Nat) : Nat := 0x4140138 + b * 0x400
abbrev Reg.motSigp (b : Nat) : Nat := 0x414003C + b * 0x400
abbrev Reg.motSigpAct (b : Nat) : Nat := 0x414013C + b * 0x400
abbrev Reg.motSigv (b : Nat) : Nat := 0x4140040 + b * 0x400
abbrev Reg.motSigvAct (b : Nat) : Nat := 0x4140140 + b * 0x400
abbrev Reg.motSiga (b : Nat) : Nat := 0x4140044 + b * 0x400
abbrev Reg.motSigaAct (b : Nat) : Nat := 0x4140144 + b * 0x400
abbrev Reg.motCommit (b : Nat) : Nat := 0x4140060 + b * 0x400
abbrev Reg.motStat (b : Nat) : Nat := 0x4140064 + b * 0x400
abbrev Reg.motEvstat (b : Nat) : Nat := 0x4140068 + b * 0x400
abbrev Reg.motEven (b : Nat) : Nat := 0x414006C + b * 0x400
abbrev Reg.motRefLo (b : Nat) : Nat := 0x4140070 + b * 0x400
abbrev Reg.motRefHi (b : Nat) : Nat := 0x4140074 + b * 0x400
abbrev Reg.motVref (b : Nat) : Nat := 0x4140078 + b * 0x400
abbrev Reg.motAref (b : Nat) : Nat := 0x414007C + b * 0x400
abbrev Reg.motLatchLo (b : Nat) : Nat := 0x4140080 + b * 0x400
abbrev Reg.motLatchHi (b : Nat) : Nat := 0x4140084 + b * 0x400
abbrev Reg.motLatchTs (b : Nat) : Nat := 0x4140088 + b * 0x400
abbrev Reg.motLatchInfo (b : Nat) : Nat := 0x414008C + b * 0x400
abbrev Reg.motTargetLo (b : Nat) : Nat := 0x4140090 + b * 0x400
abbrev Reg.motTargetHi (b : Nat) : Nat := 0x4140094 + b * 0x400
abbrev Reg.motLasterr (b : Nat) : Nat := 0x41400A0 + b * 0x400

/-! Addresses of block VM. -/
abbrev Reg.vmEvstat : Nat := 0x4150000
abbrev Reg.vmEven : Nat := 0x4150004
abbrev Reg.vmCommit : Nat := 0x4150008
abbrev Reg.vmCamcommitLo : Nat := 0x415000C
abbrev Reg.vmCamcommitHi : Nat := 0x4150010
abbrev Reg.vmForeign : Nat := 0x4150014
abbrev Reg.vmVmCfg (i : Nat) : Nat := 0x4150100 + i * 0x20
abbrev Reg.vmVmCfgAct (i : Nat) : Nat := 0x4150110 + i * 0x20
abbrev Reg.vmVmDest (i : Nat) : Nat := 0x4150104 + i * 0x20
abbrev Reg.vmVmDestAct (i : Nat) : Nat := 0x4150114 + i * 0x20
abbrev Reg.vmVmTol (i : Nat) : Nat := 0x4150108 + i * 0x20
abbrev Reg.vmVmTolAct (i : Nat) : Nat := 0x4150118 + i * 0x20
abbrev Reg.vmVmStat (i : Nat) : Nat := 0x415010C + i * 0x20
abbrev Reg.vmCamBaseLo (i : Nat) : Nat := 0x4150800 + i * 0x10
abbrev Reg.vmCamBaseLoAct (i : Nat) : Nat := 0x4150C00 + i * 0x10
abbrev Reg.vmCamBaseHi (i : Nat) : Nat := 0x4150804 + i * 0x10
abbrev Reg.vmCamBaseHiAct (i : Nat) : Nat := 0x4150C04 + i * 0x10
abbrev Reg.vmCamCfg (i : Nat) : Nat := 0x4150808 + i * 0x10
abbrev Reg.vmCamCfgAct (i : Nat) : Nat := 0x4150C08 + i * 0x10
abbrev Reg.vmCamSpan (i : Nat) : Nat := 0x415080C + i * 0x10
abbrev Reg.vmCamSpanAct (i : Nat) : Nat := 0x4150C0C + i * 0x10

/-! Addresses of block CHM. -/
abbrev Reg.chmEvstat : Nat := 0x4180000
abbrev Reg.chmEven : Nat := 0x4180004
abbrev Reg.chmStat : Nat := 0x4180008
abbrev Reg.chmSiStat : Nat := 0x418000C
abbrev Reg.chmSiRaw : Nat := 0x4180010
abbrev Reg.chmGrp : Nat := 0x4180014
abbrev Reg.chmSw : Nat := 0x4180018
abbrev Reg.chmSoReq : Nat := 0x418001C
abbrev Reg.chmSoStat : Nat := 0x4180020
abbrev Reg.chmAxStoLo : Nat := 0x4180024
abbrev Reg.chmAxStoHi : Nat := 0x4180028
abbrev Reg.chmAxLockLo : Nat := 0x418002C
abbrev Reg.chmAxLockHi : Nat := 0x4180030
abbrev Reg.chmAxStopLo : Nat := 0x4180034
abbrev Reg.chmAxStopHi : Nat := 0x4180038
abbrev Reg.chmConn : Nat := 0x418003C
abbrev Reg.chmFault : Nat := 0x4180040
abbrev Reg.chmFaultCyc : Nat := 0x4180044
abbrev Reg.chmCnt : Nat := 0x4180048
abbrev Reg.chmCycle : Nat := 0x418004C
abbrev Reg.chmSpsCmd : Nat := 0x4180050
abbrev Reg.chmSpsCrc : Nat := 0x4180054
abbrev Reg.chmSpsPos : Nat := 0x4180058
abbrev Reg.chmSpsActcrc : Nat := 0x418005C
abbrev Reg.chmAxSpeed (i : Nat) : Nat := 0x4180100 + i * 0x4
abbrev Reg.chmSps (i : Nat) : Nat := 0x4181000 + i * 0x4
abbrev Reg.chmSpsAct (i : Nat) : Nat := 0x4182000 + i * 0x4

/-! Addresses of block BHR. -/
abbrev Reg.bhrEvstat : Nat := 0x4190000
abbrev Reg.bhrEven : Nat := 0x4190004
abbrev Reg.bhrStat : Nat := 0x4190008
abbrev Reg.bhrType : Nat := 0x419000C
abbrev Reg.bhrUid (i : Nat) : Nat := 0x4190010 + i * 0x4
abbrev Reg.bhrOtp : Nat := 0x4190020
abbrev Reg.bhrBoot : Nat := 0x4190024
abbrev Reg.bhrLimit : Nat := 0x4190028
abbrev Reg.bhrLogSeq : Nat := 0x4190030
abbrev Reg.bhrLogLost : Nat := 0x4190034
abbrev Reg.bhrCamp : Nat := 0x4190038
abbrev Reg.bhrCampId : Nat := 0x419003C
abbrev Reg.bhrTemp (i : Nat) : Nat := 0x4190040 + i * 0x4
abbrev Reg.bhrVolt (i : Nat) : Nat := 0x4190060 + i * 0x4
abbrev Reg.bhrClk (i : Nat) : Nat := 0x4190090 + i * 0x4
abbrev Reg.bhrSensstat : Nat := 0x41900A8
abbrev Reg.bhrCmd : Nat := 0x4190100
abbrev Reg.bhrMbx (i : Nat) : Nat := 0x4191000 + i * 0x4

/-! Addresses of block RED. -/
abbrev Reg.redEvstat : Nat := 0x41A0000
abbrev Reg.redEven : Nat := 0x41A0004
abbrev Reg.redCfg : Nat := 0x41A0008
abbrev Reg.redCfgAct : Nat := 0x41A0108
abbrev Reg.redCfg2 : Nat := 0x41A000C
abbrev Reg.redCfg2Act : Nat := 0x41A010C
abbrev Reg.redDiag : Nat := 0x41A0010
abbrev Reg.redDiagAct : Nat := 0x41A0110
abbrev Reg.redMember (i : Nat) : Nat := 0x41A0020 + i * 0x4
abbrev Reg.redMemberAct (i : Nat) : Nat := 0x41A0120 + i * 0x4
abbrev Reg.redDutyBaseLo : Nat := 0x41A0040
abbrev Reg.redDutyBaseLoAct : Nat := 0x41A0140
abbrev Reg.redDutyBaseHi : Nat := 0x41A0044
abbrev Reg.redDutyBaseHiAct : Nat := 0x41A0144
abbrev Reg.redCommit : Nat := 0x41A0048
abbrev Reg.redStat : Nat := 0x41A004C
abbrev Reg.redDEpoch (i : Nat) : Nat := 0x41A0060 + i * 0x4
abbrev Reg.redHealth (i : Nat) : Nat := 0x41A0080 + i * 0x4
abbrev Reg.redCnt : Nat := 0x41A00A0

/-! Addresses of block EVC. -/
abbrev Reg.evcLevel (i : Nat) : Nat := 0x41B0000 + i * 0x4
abbrev Reg.evcVlevel (i : Nat) : Nat := 0x41B0010 + i * 0x4
abbrev Reg.evcEoi : Nat := 0x41B0020
abbrev Reg.evcMap (i : Nat) : Nat := 0x41B0100 + i * 0x4
abbrev Reg.evcMsixLo (i : Nat) : Nat := 0x41B8000 + i * 0x10
abbrev Reg.evcMsixHi (i : Nat) : Nat := 0x41B8004 + i * 0x10
abbrev Reg.evcMsixData (i : Nat) : Nat := 0x41B8008 + i * 0x10
abbrev Reg.evcMsixCtrl (i : Nat) : Nat := 0x41B800C + i * 0x10
abbrev Reg.evcPba (i : Nat) : Nat := 0x41BC000 + i * 0x4

/-! Addresses of block PIN. -/
abbrev Reg.pinBank : Nat := 0x41C0000
abbrev Reg.pinGpioDir : Nat := 0x41C0004
abbrev Reg.pinGpioOut : Nat := 0x41C0008
abbrev Reg.pinGpioIn : Nat := 0x41C000C
abbrev Reg.pinGpioPull : Nat := 0x41C0010

end Sys2Proof.Machine
end

