-- ==== Sys2Proof/Machine/Tbl.lean ====
section
/-!
DEFINITION. Sparse tables: lists of (key, value) pairs with rising keys and no entry equal to the value that an unlisted
key reads as, so that equal tables are equal lists. The register file and the memory are such tables.
-/
namespace Sys2Proof.Machine

/-- A sparse table from numbers to `α`. -/
abbrev Tbl (α : Type) := List (Nat × α)

/-- The value at key `k`; `d` is what an unlisted key reads as. -/
def tget {α : Type} (d : α) (k : Nat) : Tbl α → α
  | [] => d
  | (j, v) :: t => if j = k then v else tget d k t

/-- The table with the entry of `k` made `v`. -/
def tput {α : Type} (k : Nat) (v : α) : Tbl α → Tbl α
  | [] => [(k, v)]
  | (j, w) :: t => if j = k then (k, v) :: t else if k < j then (k, v) :: (j, w) :: t else (j, w) :: tput k v t

/-- The table without an entry of `k`. -/
def tdel {α : Type} (k : Nat) (t : Tbl α) : Tbl α := t.filter fun e => !(e.1 == k)

/-- The table with key `k` reading `v`, kept canonical: the default value is not listed. -/
def tset {α : Type} [DecidableEq α] (d : α) (k : Nat) (v : α) (t : Tbl α) : Tbl α :=
  if v = d then tdel k t else tput k v t

/-- Keys rise strictly from above `lo`, and no entry holds its default. -/
def twfFrom {α : Type} [DecidableEq α] (d : Nat → α) : Option Nat → Tbl α → Bool
  | _, [] => true
  | lo, (j, v) :: t =>
    (match lo with | none => true | some l => decide (l < j)) && decide (v ≠ d j) && twfFrom d (some j) t

/-- The canonical form of a sparse table. -/
def twf {α : Type} [DecidableEq α] (d : Nat → α) (t : Tbl α) : Bool := twfFrom d none t

end Sys2Proof.Machine
end

