-- ==== Sys2Proof/Machine/State.lean ====
section
/-!
DEFINITION. The state of the device: plain data, every register, memory, queue, counter and mode that the spec gives it,
one structure for each block, and the state after reset. A read-only register that only shows such a field is computed
from it when it is read (`Machine/Views.lean`), so that each piece of state has one home.
-/
namespace Sys2Proof.Machine

/-- Why the device stops. The spec gives every case an outcome (R20), so no command raises one today; the constructor
is kept for a step that the spec would stop. Safe: a stop proves nothing false. -/
inductive Fault where
  | stopped
deriving DecidableEq, Repr

/-- Why a command has no meaning. -/
inductive Refusal where
  /-- The command is not modelled yet; raised by its arm of `exec` only. Safe. -/
  | notModelled (mnemonic : String)
deriving DecidableEq, Repr

/-- What the requester of the last access received: a status and the data words (model's own port, log 3). -/
structure Resp where
  status : Status := .ok
  data : List Nat := []
deriving DecidableEq, Repr

/-- An error held in a 64-bit memory word (R28): correctable or not. -/
inductive EccKind where
  | single | double
deriving DecidableEq, Repr

/-- A pending commit of a group (R10, R12, R17): its stated time, the operations that wait for its outcome (R14),
whether the boundary at which it acts has come, whether an operation asked for it first, and the number of the
isochronous cycle at whose boundary it acts (R409). -/
structure Commit where
  group : Group
  time : Option Nat := none
  byOp : Bool := false
  cycle : Option Nat := none
  ops : List Nat := []
  late : Bool := false
  due : Bool := false
  boundary : Nat := 0
deriving DecidableEq, Repr

/-! ## Time (02_time.md) -/

/-- A move of a base that waits for the next TB tick (R53, R55): an amount in 2⁻³² ns, a full time, or a counter value. -/
inductive Move where
  | add (amt : Int)
  | load (sec ns : Nat)
  | counter (v : Nat)
deriving DecidableEq, Repr

/-- Who is told that a move has been made (R54): the base's ADJCTL register, an ADJUST operation, or nobody. -/
inductive MoveFor where
  | reg
  | op (id : Nat)
  | servo
deriving DecidableEq, Repr

/-- A time base (R47, R48, R51, R53): integer part, fraction in 2⁻³² ns, wrap count, the seconds and nanoseconds of a
privileged base's full time (R50), the increment that software has applied (R48), the increment in use, what the last tick
added, the value before that tick (R33), the moves that wait for the next tick, and the slew in progress. -/
structure Base where
  int : Nat := 0
  frac : Nat := 0
  wraps : Nat := 0
  sec : Nat := 0
  ns : Nat := 0
  applied : Nat := 0x500000000
  inc : Nat := 0x500000000
  added : Nat := 0x500000000
  was : Nat := 0
  moves : List (Move × MoveFor) := []
  slewing : Bool := false
  slewNeg : Bool := false
  slewStep : Nat := 0
  slewLeft : Nat := 0
  slewOp : Option Nat := none
deriving DecidableEq, Repr

/-- A sample grid (R74 to R79): whether its boundaries are issued, whether it waits for TB0 to lock, the TB tick of its
enable while a wrapping base has not passed the phase since (R76), the next boundary (48-bit counter with wraps on a wrapping
base), the index and time of the last boundary and its fine position. -/
structure Grid where
  running : Bool := false
  waiting : Bool := false
  armed : Option Nat := none
  next : Nat := 0
  nextIdx : Nat := 0
  idx : Nat := 0
  last : Nat := 0
  fine : Nat := 0
  /-- TB0 time of the last boundary, and the instant as which reads take it (R226) -/
  tb0 : Nat := 0
  readAt : Nat := 0
deriving DecidableEq, Repr

/-- A stamp taken by a stamp channel (R68, R71). -/
structure Stamp where
  rising : Bool
  base : Nat
  sub : Nat
  lo : Nat
  hi : Nat
deriving DecidableEq, Repr

/-- A raw edge at a stamp channel that the glitch filter has not qualified yet (R69): its stamp, its instant in 64ths of a
tick, and the tick at which it is qualified if the input stays at its level. -/
structure TrigWait where
  stamp : Stamp
  edge : Nat
  due : Nat
deriving DecidableEq, Repr

/-- A stamp channel (R68 to R72): the FIFO, oldest first, the instant of its last stamped edge in 64ths of a tick, and the
edge that waits for the filter. -/
structure TrigCh where
  fifo : List Stamp := []
  lastEdge : Option Nat := none
  wait : Option TrigWait := none
deriving DecidableEq, Repr

/-- The time block. -/
structure TimeSt where
  bases : Tbl Base := []
  grids : Tbl Grid := []
  trigs : Tbl TrigCh := []
  /-- consecutive in-window exchanges (R59); sync intervals without a result, and whether the present one has had one (R60) -/
  lockCount : Nat := 0
  missed : Nat := 0
  heard : Bool := false
  /-- SYS cycle at which TB0 entered HOLDOVER, and whether its limit has been exceeded since (R62) -/
  holdSince : Nat := 0
  holdHit : Bool := false
  /-- PPS_OUT: the instant at which it is to rise, and that of its rise while high, in 625 ps units (R73) -/
  ppsDue : Option Nat := none
  ppsRise : Option Nat := none
  /-- SYS cycle since which TB_REFIN has been present (R45) -/
  refinAt : Option Nat := none
deriving DecidableEq, Repr

/-! ## Sequence processors and operations (03_quiser_isa.md, 04_operations.md) -/

/-- The thread states of R140. -/
inductive ThreadState where
  | stopped | running | halted | faulted
deriving DecidableEq, Repr

/-- A completion record (R154). -/
structure OpRec where
  status : Status
  cause : Nat := 0
  uflags : Nat := 0
  unit : Nat := 0
  code : Nat := 0
  tag : Nat := 0
  stamp : Nat := 0
  obj : Nat := 0
deriving DecidableEq, Repr

/-- A handle register (R87): free, pending on an operation, or done with its record. -/
inductive Handle where
  | free
  | pending (op : Nat)
  | done (rec : OpRec)
deriving DecidableEq, Repr

/-- What a thread that is RUNNING waits for in an instruction that has issued (R127, R129, R131, R149): in `wait` its
mask, deadline, pd and rd; after `yield` the threads that have still to issue. An issue held by R114, R115 or R123 is
computed from the next instruction. -/
inductive Wait where
  | none
  | wait (all : Bool) (m : Nat) (deadline : Nat) (pd : Nat) (rd : Nat)
  | fence (storesOnly : Bool)
  | lock (n : Nat) (rd : Nat)
  | yield (others : List Nat)
deriving DecidableEq, Repr

/-- A posted store not yet acknowledged (R114); `orphan` when its thread has left RUNNING since. -/
structure Posted where
  addr : Nat
  data : List Byte
  orphan : Bool := false
deriving DecidableEq, Repr

/-- One thread (R87, R140, R146): registers by number, predicates p0 to p7, handles by number. -/
structure Thread where
  state : ThreadState := .stopped
  pc : Nat := 0
  g : Tbl DWord := []
  p : BitVec 8 := 1
  k : Tbl Handle := []
  wait : Wait := .none
  readyAt : Nat := 0
  starve : Nat := 0
  restarts : Nat := 0
  /-- SYS cycle of the fault whose restart under R179 is still to come -/
  restartFrom : Option Nat := none
  posted : List Posted := []
  /-- address of a refused posted store, before the fault of R116 is raised -/
  refused : Option Nat := none
  /-- held by the debug port, and let go for one instruction (R607) -/
  dbgHold : Bool := false
  dbgStep : Bool := false
deriving DecidableEq, Repr

/-- A hardware lock (R130, R131, R174): owner, broken mark, waiting threads in order. -/
structure HwLock where
  owner : Option Nat := none
  broken : Bool := false
  waiters : List Nat := []
deriving DecidableEq, Repr

/-- An operation in flight (R151 to R162). `time` is its stated time; `accepted` follows R152; `due` says that its time
has come; `taken` that its unit has checked it, at TB0 time `takenAt`, and waits for its boundary; `acted` that it has taken effect (R161), at TB0 time `actedAt`; `out` is its outcome with the results to write. -/
structure Op where
  id : Nat
  tid : Nat
  k : Nat
  unit : Nat
  obj : Nat
  rdesc : Nat
  time : Option Nat := none
  code : Nat := 0
  flags : Nat := 0
  tag : Nat := 0
  resAddr : Nat := 0
  resLen : Nat := 0
  recAddr : Nat := 0
  payload : List Byte := []
  accepted : Bool := false
  late : Bool := false
  held : Bool := false
  due : Bool := false
  /-- the number of its acceptance, and the TB0 time of it (R163, R260) -/
  acc : Nat := 0
  accAt : Nat := 0
  taken : Bool := false
  takenAt : Nat := 0
  acted : Bool := false
  actedAt : Nat := 0
  orphan : Bool := false
  out : Option OpRec := none
  results : List Byte := []
deriving DecidableEq, Repr

/-- The SP cluster: threads, locks, operations in flight, the cycle of the last reset (R88), the last issue of each
processor (SYS cycle plus 1), the thread that last issued at each priority level (R147), a warm restart asked for at a
SYS cycle, and the SYS cycle at which one in progress ends (R183). -/
structure SpSt where
  threads : Tbl Thread := []
  locks : Tbl HwLock := []
  ops : List Op := []
  nextOp : Nat := 0
  nextAcc : Nat := 1
  cyc0 : Nat := 0
  issued : Tbl Nat := []
  lastAt : Tbl Nat := []
  warmAsk : Option Nat := none
  restart : Option Nat := none
deriving DecidableEq, Repr

/-! ## Signal store (05_signal_store.md) -/

/-- A history entry (R190, R200). -/
structure Entry where
  val : Nat
  stamp : Nat
  aged : Bool := false
deriving DecidableEq, Repr

/-- A signal record (R191): descriptor and history, newest first. `watched` is computed from the pending WATCHes and
`fill` is the length of the history. -/
structure Sig where
  type : Nat := 0
  routeEn : Bool := false
  modular : Bool := false
  interp : Bool := false
  defined : Bool := false
  srcKind : Nat := 0
  srcInst : Nat := 0
  captMask : Nat := 0
  late : Nat := 0
  routeCnt : Nat := 0
  routeHead : Nat := 0
  hist : List Entry := []
deriving DecidableEq, Repr

/-- An update on its way to the store: signal, value, TS32 stamp, writer kind and instance (R193). -/
structure SigUpd where
  idx : Nat
  val : Nat
  stamp : Nat
  kind : Nat
  inst : Nat := 0
  /-- the SYS cycle at which it reached its bank -/
  at_ : Nat := 0
deriving DecidableEq, Repr

/-- A change notice on its way to a capture session (R204). -/
structure Notice where
  sess : Nat
  idx : Nat
  val : Nat
  stamp : Nat
  lateIns : Bool
  /-- the last one of its update, which holds its place in the notice stage -/
  last : Bool := true
deriving DecidableEq, Repr

/-- A pending WATCH: its operation, condition and threshold (R216, R657). -/
structure Watch where
  op : Nat
  idx : Nat
  cond : Nat
  thr : Nat
deriving DecidableEq, Repr

/-- An update on its way to another node (R206, R208): destination node and index, value and original stamp. -/
structure UpdOut where
  node : Nat
  idx : Nat
  val : Nat
  stamp : Nat
deriving DecidableEq, Repr

/-- The signal store: records, salt, results on the sample path, staging buffer, waiting updates of the banks and of their
writers, change notices, WATCHes, and since when each bank's queue has been at `hot_level` (R214). -/
structure SigSt where
  recs : Tbl Sig := []
  salt : DWord := 0
  path : List SigUpd := []
  stage : List SigUpd := []
  queue : List SigUpd := []
  /-- updates that their writers hold back while the bank's queue is full (R213) -/
  held : List SigUpd := []
  /-- a command at the descriptor port that waits for its bank -/
  dport : Option Nat := none
  notices : List Notice := []
  watches : List Watch := []
  hotSince : Tbl (Option Nat) := []
  /-- updates handed to the Herd fabric -/
  herdOut : List UpdOut := []
deriving DecidableEq, Repr

/-! ## Loop engine (06_loop_engine.md). Context blocks and trace buffers are bytes of LE local memory. -/

/-- A fetched input (R241 to R244): whether it is good (not stale), its signal word and type, and its stamp as TS64 of
TB0 when the read gave one that is not aged. -/
structure LeIn where
  good : Bool
  val : Nat
  type : Nat
  stamp : Option Nat
deriving DecidableEq, Repr

/-- A boundary of a context's grid that waits for its release (R251): its TB0 time, the instant as which reads take it (R226),
and the value of the grid's base at which it is released. -/
structure LeDue where
  k : Nat
  read : Nat
  relAt : Nat
deriving DecidableEq, Repr

/-- A released sample that no matrix unit has taken yet (R251): its boundary (TS64) and its fetched inputs, in the order
of the input table. -/
structure LeRelease where
  k : Nat
  ins : List LeIn
deriving DecidableEq, Repr

/-- What the engine holds of a context beside its block: the boundary that waits for release, a released sample, the
operations SWAP and RESUME due in it, and the last owner refresh as TS64 (R260). -/
structure LeCtx where
  bound : Option LeDue := none
  rel : Option LeRelease := none
  swapOp : Option Nat := none
  resumeOp : Option Nat := none
  lastRef : Nat := 0
deriving DecidableEq, Repr

/-- The loop engine: its contexts, and the entries left to record after a trace buffer's stop condition (R268). -/
structure LeSt where
  ctxs : Tbl LeCtx := []
  /-- contexts in whose blocks a Mesh read has met an uncorrectable error (R265, R272) -/
  eccHits : List Nat := []
  trPost : Tbl Nat := []
deriving DecidableEq, Repr

/-! ## Axis ports (07_axis_ports.md) and their limit inputs (R315). Instants are SYS cycles of the model's clock. -/

/-- The first raw edge of an AUX input since its last qualified transition (R315): its TB0 stamp, the position change
before it with its stamp, and the one after it (R316). Positions are in counts. -/
structure AuxEdge where
  stamp : Nat
  pos0 : Int
  t0 : Nat
  next : Option (Int × Nat) := none
deriving DecidableEq, Repr

/-- An AUX input: raw and qualified level, and since when the raw level has held (R315). -/
structure AuxIn where
  raw : Bool := false
  qual : Bool := false
  rawAt : Nat := 0
  edge : Option AuxEdge := none
deriving DecidableEq, Repr

/-- An axis port: carrier (instant of its last valley in 625 ps units, whether the last reload was at a peak, the lock
group and grid it belonged to there), duty words in use, commands and gates by bit, gates that wait for their dead time. -/
structure Axis where
  carAt : Int := 0
  peak : Bool := false
  joined : Option (Nat × Nat) := none
  duty : List Nat := [0, 0, 0]
  cmd : Nat := 0
  gate : Nat := 0
  gateAt : List (Nat × Nat) := []
  /-- mode STEP (R282, R283): P, the last three references of the generator, newest last, and their boundary -/
  pos : Int := 0
  ref2 : Int := 0
  ref0 : Int := 0
  ref1 : Int := 0
  refAt : Nat := 0
  /-- the target of `step_src` LE: the `step_per` it is counted in (0: not in use), anchor in microsteps, and since then in
  units of 1/(2³¹·`step_per`) -/
  lePer : Nat := 0
  leAnchor : Int := 0
  leNum : Int := 0
  leAt : Nat := 0
  dir : Bool := false
  dirAt : Nat := 0
  lastStep : Nat := 0
  pulseAt : Option Nat := none
  lag : Bool := false
  stepHold : Bool := false
  /-- reseat (R285): the wait for `reseat_delay`, the instant of the next action, corrective steps left -/
  rsWait : Option Nat := none
  rsAt : Nat := 0
  rsLeft : Nat := 0
  /-- INC feedback (R289): raw A and B with the ticks at which they are qualified, qualified A and B, the last 64 count changes, newest first, with their TB0 ticks -/
  rawA : Bool := false
  rawB : Bool := false
  dueA : Nat := 0
  dueB : Nat := 0
  encA : Bool := false
  encB : Bool := false
  chg : List (Nat × Nat) := []
  /-- SSI and FRAME feedback (R290 to R292): the frames due, oldest first, the frame running with its start and stamp, the last one -/
  frameAt : List Nat := []
  frame : Option (Nat × Nat) := none
  lastFrame : Option (Int × Nat) := none
  /-- the words handed to the safety taps, with their stamp, and the SYS cycle at which they came (R292) -/
  tap : Option (Nat × Nat × Nat) := none
  tapAt : Nat := 0
  aux0 : AuxIn := {}
  aux1 : AuxIn := {}
deriving DecidableEq, Repr

/-! ## Profile generators and virtual masters (08_motion.md). Speeds and accelerations are binary64 words, positions
raw 48.16. -/

/-- A segment of a plan: constant jerk for a time in seconds, from a position, a velocity and an acceleration. -/
structure MotSeg where
  jerk : Nat
  dur : Nat
  p : Int
  v : Nat
  a : Nat
deriving DecidableEq, Repr

/-- Where a plan ends. -/
inductive MotGoal where
  | position (p : Int)
  | velocity (v : Nat)
  | rest (quick : Bool)
deriving DecidableEq, Repr

/-- A plan: its start on the grid's base, its segments, the position that they reach, and its goal. -/
structure MotPlan where
  start : Nat
  segs : List MotSeg
  pEnd : Int
  goal : MotGoal
deriving DecidableEq, Repr

/-- The phases of homing (R321). -/
inductive HomePhase where
  | backOff | search | searchZ | brake | go
deriving DecidableEq, Repr

/-- Homing at work: its operation, phase, where the search began, and the latched position of the reference edge. -/
structure Homing where
  op : Nat
  phase : HomePhase
  from_ : Int := 0
  xe : Int := 0
deriving DecidableEq, Repr

/-- A segment of a virtual master (R325). -/
structure VmSeg where
  tStart : Nat
  c0 : Int
  c1 : Nat
  c2 : Nat
  c3 : Nat
  durUs : Nat
  roDec : Nat
  roJerk : Nat
  seq : Nat
deriving DecidableEq, Repr

/-- Following a virtual master (R332 to R337): the law, the correction's plan while not zero, operations to complete, and
the segment that a late one has replaced, until the next boundary (R330). -/
structure Follow where
  cam : Bool
  slot : Nat
  table : Nat
  num : Int
  den : Nat
  pm0 : Int
  pf0 : Int
  phi : Int
  corr : Option MotPlan := none
  ops : List Nat := []
  late : Option VmSeg := none
deriving DecidableEq, Repr

/-- A limit that has become active and waits for the next boundary: ramp or hard (R317), or the end of homing (R322). -/
inductive MotLimit where
  | hard | ramp
deriving DecidableEq, Repr

/-- A profile generator (R307): state, reference, target shown, plan, homing, following; `replan` when new limits have come
into use (R313). -/
structure Mot where
  state : Nat := 0
  ref : Int := 0
  v : Nat := 0
  a : Nat := 0
  prev : Int := 0
  target : Int := 0
  targetVel : Option Nat := none
  plan : Option MotPlan := none
  home : Option Homing := none
  follow : Option Follow := none
  limit : Option MotLimit := none
  /-- inputs that stood active as limits at the last look, by bit (R317); the axis was ready then (R314) -/
  lims : Nat := 0
  wasReady : Bool := false
  notReady : Bool := false
  camMiss : Bool := false
  replan : Bool := false
deriving DecidableEq, Repr

/-- A virtual-master slot: its queue, oldest first, the sequence numbers, the latest boundary a follower has evaluated. -/
structure Vm where
  queue : List VmSeg := []
  nextSeq : Nat := 0
  lastSeq : Option Nat := none
  evalAt : Nat := 0
  runout : Bool := false
deriving DecidableEq, Repr

/-- A sigma-delta channel (R294 to R297): the last 766 bits of its modulator stream, the newest at bit 0, for how many clocks
the data has stayed at one level, and for how many the comparator filter has lain outside its thresholds. -/
structure SdChan where
  bits : Nat := 0
  same : Nat := 0
  beyond : Nat := 0
deriving DecidableEq, Repr

/-- Axis ports and motion; the axes that a command given in TEST has enabled there, by bit (R35, R275). -/
structure MotionSt where
  axes : Tbl Axis := []
  sds : Tbl SdChan := []
  testEn : Nat := 0
  mots : Tbl Mot := []
  vms : Tbl Vm := []
deriving DecidableEq, Repr

/-! ## Converters (09_analog.md). Instants are TB ticks of the model's clock. -/

/-- A queued injected request (R350): input, extra tracking, destinations, the tick it reached the converter or the head
of the queue, its operation, and whether it was queued before the pending calibration. -/
structure AdcInj where
  input : Nat
  ext : Nat
  sig : Bool
  dr : Bool
  idx : Nat
  tick : Nat
  op : Option Nat := none
  early : Bool := false
deriving DecidableEq, Repr

/-- What a conversion is for (R352). -/
inductive AdcKind where
  | regular (entry : Nat)
  | injected (op : Option Nat)
  | openWire
deriving DecidableEq, Repr

/-- The conversion in progress: its input, destinations, TB0 time of the hold and tick of its end. -/
structure AdcConv where
  kind : AdcKind
  input : Nat
  sig : Bool
  dr : Bool
  idx : Nat
  stamp : Nat
  endAt : Nat
deriving DecidableEq, Repr

/-- The phases of the test of one input (R364). -/
inductive OwPhase where
  | up | down | recover
deriving DecidableEq, Repr

/-- A running OWDIAG (R364): operation, mask, whether it uses 50 µA, present input and phase, end of the settling time, whether a conversion is
due, cu of the present input, and the readings so far. -/
structure AdcOw where
  op : Nat
  mask : Nat
  big : Bool := false
  settle : Nat
  delta : Nat
  input : Nat
  phase : OwPhase
  waitTo : Nat
  ready : Bool := false
  cu : Nat := 0
  readings : Tbl (Nat × Nat) := []
deriving DecidableEq, Repr

/-- A converter: whether a triggered sequence waits for its first hold, regular sequence with its operation and the latched trigger with its, trigger tick due, injected queue,
conversion, last hold, calibration, open-wire test, ticks of the last results sent over the sample path, results that
wait for the Mesh. -/
structure Adc where
  armed : Bool := false
  running : Bool := false
  next : Nat := 0
  trigAt : Nat := 0
  seqOp : Option Nat := none
  latched : Bool := false
  latchOp : Option Nat := none
  trigDue : Option Nat := none
  inj : List AdcInj := []
  conv : Option AdcConv := none
  lastHold : Option Nat := none
  calPending : Bool := false
  calEnd : Option Nat := none
  calOps : List Nat := []
  ow : Option AdcOw := none
  sent : List Nat := []
  mesh : List SigUpd := []
deriving DecidableEq, Repr

/-- The converters, and whose turn it is at Mesh port 9 (R342). -/
structure AdcSt where
  convs : Tbl Adc := []
  turn : Nat := 0
deriving DecidableEq, Repr

/-! ## The Herd fabric (10_herd.md) -/

/-- A Herd frame (R375): header fields and payload. `transit` marks a frame of another node, `bad` one that ends with
an error control block (R378). -/
structure HerdFrame where
  dst : Nat
  src : Nat := 0
  cls : Nat
  prio : Nat := 3
  dup : Bool := false
  wrap : Bool := false
  hops : Nat := 0
  seq : Nat := 0
  ts : Nat := 0
  payload : List Byte := []
  transit : Bool := false
  bad : Bool := false
deriving DecidableEq, Repr

/-- What the last HELLO of a neighbour says (R386). -/
structure HNbr where
  port : Nat
  state : Nat
  running : Bool
  prio : Nat
  id : Nat
  hops : Nat
  uid : Nat
  stagUid : Nat
  herdId : Nat
deriving DecidableEq, Repr

/-- A Herd port: the neighbour, the SYS cycles of block lock or last HELLO heard, of the last HELLO sent and of the last
REQ, alignment in ps (R399, R402), output queues (R381), slots used in this cycle (R408), the frame on the medium with
its end, the exchange in progress (R398), exchanges done in CAL (R373), the child's subtree size (R389), the range given
with its UID (R390), and the neighbour's hops from the candidate (R387). -/
structure HPort where
  nbr : Option HNbr := none
  hearAt : Nat := 0
  helloAt : Option Nat := none
  reqAt : Option Nat := none
  alignTx : Nat := 0
  alignRx : Nat := 0
  syncQ : List HerdFrame := []
  isoQ : List (Nat × HerdFrame) := []
  q3 : List HerdFrame := []
  q2 : List HerdFrame := []
  q1 : List HerdFrame := []
  q0 : List HerdFrame := []
  slotsUsed : List Nat := []
  sending : Option (HerdFrame × Nat) := none
  exch : Nat := 0
  t1 : Option Nat := none
  calCount : Nat := 0
  childSize : Option Nat := none
  given : Option (Nat × Nat × Nat) := none
  candHops : Option Nat := none
deriving DecidableEq, Repr

/-- An election or a succession (R387, R403): the best candidate, its distance, and the SYS cycle of its last change. -/
structure Elect where
  prio : Nat
  uid : Nat
  hops : Nat
  since : Nat
  succession : Bool := false
deriving DecidableEq, Repr

/-- A transaction entry (R410, R413): destination, tag, priority and payload of the request, its operation, whether it
has been sent, tries made and the SYS cycle of the last one. `cls` is 7 for a TRIG transaction, whose answer goes to
place `pos` of session `sess` (R471). -/
structure TxnEntry where
  dest : Nat
  tag : Nat
  prio : Nat
  payload : List Byte
  op : Option Nat := none
  cls : Nat := 4
  sess : Nat := 0
  pos : Nat := 0
  sent : Bool := false
  tries : Nat := 0
  sentAt : Nat := 0
deriving DecidableEq, Repr

/-- A request in the target queue (R412). -/
structure TgtReq where
  src : Nat
  prio : Nat
  payload : List Byte
deriving DecidableEq, Repr

/-- A response in the replay store (R413). -/
structure Replay where
  src : Nat
  tag : Nat
  payload : List Byte
  stored : Nat
deriving DecidableEq, Repr

/-- The Herd block: ports; HERD_CFG as read on entry to START; the node's range and the spares left (R389); hops to the
Stag; whether the wait of START is over; the election; the instant of an ID failure; the wrap in force (broken port,
other ring port); whether ACQUIRE still waits for its first result (R401); the `path` of the last result and the SYS
cycle of the last with `path` = 1 (R398, R403); sequence numbers by class and the duplicate filter (R379); the
transaction entries, the target queue, the replay store and the next tag of the device's own (R410 to R413). -/
structure HerdSt where
  ports : Tbl HPort := []
  prio : Nat := 128
  spare : Nat := 4
  hopLimit : Nat := 32
  range : Option (Nat × Nat) := none
  spares : Option (Nat × Nat) := none
  hops : Nat := 0xFFFF
  joined : Bool := false
  sizeSent : Bool := false
  elect : Option Elect := none
  idFailAt : Option Nat := none
  wrap : Option (Nat × Nat) := none
  acqFirst : Bool := false
  lastPath : Bool := false
  pathAt : Nat := 0
  syncAt : Nat := 0
  seqs : Tbl Nat := []
  lastSeq : Tbl (Option Nat) := []
  txns : List TxnEntry := []
  tgtQ : List TgtReq := []
  replay : List Replay := []
  nextTag : Nat := 0
deriving DecidableEq, Repr

/-! ## Ethernet, CAN FD and partner sessions (11_plant_ports.md) -/

/-- What waits in a transmit queue of a MAC: the next descriptor of its ring, or a session's datagram as a frame without
FCS. -/
inductive EthItem where
  | ring
  | gram (sess : Nat) (frame : List Byte)
deriving DecidableEq, Repr

/-- A MAC (R421 to R430): what waits, queue and item in order of arrival; the frame in progress; the servo's I in 2⁻⁴ ns
and INC0 (R426); the gate states, the entry in force, the start of its cycle and the time of the next move (R428). -/
structure EthMac where
  items : List (Nat × EthItem) := []
  busy : Option (Nat × EthItem × List Byte) := none
  integ : Int := 0
  inc0 : Nat := 0x500000000
  gates : Nat := 0xFF
  gclIdx : Nat := 0
  gclStart : Nat := 0
  gclNext : Option Nat := none
deriving DecidableEq, Repr

/-- A CAN controller (R432 to R439): it takes part on the bus; the object in transmission, with a cancel asked while
ACTIVE; it counts for recovery; the bit-rate candidate, its round, the SYS cycle at which it began, and whether the
search goes on. -/
structure CanCtl where
  onBus : Bool := false
  active : Option Nat := none
  cancelReq : Bool := false
  counting : Bool := false
  abdIdx : Nat := 0
  abdRound : Nat := 0
  abdFrom : Nat := 0
  abdOn : Bool := false
deriving DecidableEq, Repr

/-- A session entry (R440). -/
structure PsEntry where
  role : Nat := 0
  transport : Nat := 0
  redEn : Bool := false
  mac : Nat := 0
  txq : Nat := 0
  n : Nat := 0
  flow : Nat := 0
  sid : Nat := 0
  peerNode : Nat := 0
  peerIp : Nat := 0
  peerMac : Nat := 0
  grid : Nat := 0
  every : Nat := 0
  txOff : Nat := 0
  wdUs : Nat := 0
  listAddr : Nat := 0
deriving DecidableEq, Repr

/-- A partner session: state (0 OFF, 1 RUN, 2 TIMEOUT), entry in use, entry of a pending RELOAD, operations that wait for
the next take, cycles since the first, time of the next take and of the send instant, the datagram between take and send,
counts, last `seq`, epoch, and the SYS cycle of the last acceptance. -/
structure PsSess where
  state : Nat := 0
  entry : PsEntry := {}
  reload : Option PsEntry := none
  startOp : Option Nat := none
  stopOp : Option Nat := none
  reloadOp : Option Nat := none
  stopping : Bool := false
  count : Nat := 0
  takeAt : Option Nat := none
  sendAt : Nat := 0
  gram : Option (List Byte) := none
  seq : Nat := 0
  lastSeq : Option Nat := none
  epoch : Nat := 0
  accepted : Nat := 0
  gap : Nat := 0
  dup : Nat := 0
  txDrop : Nat := 0
  heardAt : Nat := 0
deriving DecidableEq, Repr

/-- The plant ports. -/
structure PortSt where
  eth : Tbl EthMac := []
  can : Tbl CanCtl := []
  ps : Tbl PsSess := []
deriving DecidableEq, Repr

/-! ## Recording and triggers (12_capture.md) -/

/-- A record slot of 12 bytes (R453). `mark` 1 is the epoch marker before the first trigger of an arming, 2 the end of
that trigger's pair (R461, R462). -/
structure CaptSlot where
  w0 : Nat
  w1 : Nat
  w2 : Nat
  mark : Nat := 0
deriving DecidableEq, Repr

/-- A trigger (R469): time in 2⁻¹⁶ ns, source (0 LOCAL, 1 HERD, 2 SOFT), skew, defining unit, unit mask, source node. -/
structure CaptTrig where
  t : Nat
  src : Nat
  skew : Bool := false
  unit : Nat := 0
  mask : Nat := 0
  node : Nat := 0
deriving DecidableEq, Repr

/-- A coincidence window (R468): stamp of its first unit, SYS cycle at which it opened, and the units that have joined
with their trigger times and whether skew was applied. -/
structure CaptWin where
  key : Nat
  since : Nat
  units : List (Nat × Nat × Bool)
deriving DecidableEq, Repr

/-- A session (R450 to R474): its list; the queue to memory; the held marker, trigger pairs and gap (R459); slots written
since START, the slot of the TRIG marker with W, slots still to write after the trigger; windows; whether a trigger of
this arming has been placed and FIRE sent; the primary trigger; the count of armings; whether the fill level was high; any
notice lost; and the ARM or DISARM operation that waits for answers, one per listed node. -/
structure CaptSess where
  list : List Nat := []
  queue : List CaptSlot := []
  heldMark : Option (CaptSlot × CaptSlot) := none
  heldTrig : List (CaptSlot × CaptSlot) := []
  gapFirst : Nat := 0
  gapCount : Nat := 0
  written : Nat := 0
  trigAt : Option (Nat × Nat) := none
  postLeft : Option Nat := none
  wins : List CaptWin := []
  placed : Bool := false
  fired : Bool := false
  primary : Option CaptTrig := none
  arms : Nat := 0
  high : Bool := false
  lost : Bool := false
  waitOp : Option Nat := none
  answers : List (Option Nat) := []
  /-- listed signals that START has still to handle, and the START that waits for it (R451) -/
  todo : List Nat := []
  startOp : Option Nat := none
deriving DecidableEq, Repr

/-- What a trigger unit remembers (R465): v′ and s′. -/
structure CaptUnit where
  val : Nat := 0
  stamp : Nat := 0
deriving DecidableEq, Repr

/-- The capture block: sessions, units, and the multiple of 2³² ns that TB0 has last passed (R456). -/
structure CaptSt where
  sess : Tbl CaptSess := []
  units : Tbl CaptUnit := []
  epoch : Nat := 0
deriving DecidableEq, Repr

/-! ## Chamois (13_chamois.md). Times on the cycle timer are in microseconds; speeds are binary64 words. -/

/-- The filter of one ball of a safe input (R489): last sub-sample, how many equal ones in a row, qualified level. -/
structure ChmFilt where
  last : Bool := false
  run : Nat := 0
  qual : Bool := false
deriving DecidableEq, Repr

/-- A safe input (R488 to R492, R505): its two filters, the count of samples that differ, the discrepancy latch, whether a
RESET input is blocked, the samples of the present press. -/
structure ChmIn where
  a : ChmFilt := {}
  b : ChmFilt := {}
  disc : Nat := 0
  latched : Bool := false
  blocked : Bool := false
  press : Nat := 0
  /-- samples of the press that ended at the newest sample; 0: none ended -/
  ended : Nat := 0
deriving DecidableEq, Repr

/-- What locks a function or an output, and the faults not yet ended by a reset, by type (R503, R506). -/
structure ChmLock where
  demand : Bool := false
  fault : Bool := false
  start : Bool := false
  /-- a discrepancy fault reached a stop function that still runs; it locks when torque is removed -/
  disc : Bool := false
  faults : Nat := 0
deriving DecidableEq, Repr

/-- The speed measurement of one channel (R501): last position with its arrival, and v. -/
structure ChmSpeed where
  pos : Option (Nat × Nat) := none
  v : Nat := 0
deriving DecidableEq, Repr

/-- An axis function (R495 to R502): torque removed by the function, t_d and v_s of a stop under way, the count of
standstill samples, the time at which the pair last switched, the last off-pulses of the two balls and the end of the
last one. -/
structure ChmAx where
  lock : ChmLock := {}
  removed : Bool := false
  td : Option Nat := none
  vs : Nat := 0
  still : Nat := 0
  sa : ChmSpeed := {}
  sb : ChmSpeed := {}
  /-- SYS cycle of the newest tapped frame, and of the instant from which `t_enc_us` counts -/
  tapAt : Nat := 0
  encAt : Nat := 0
  encDisc : Nat := 0
  since : Nat := 0
  pulseA : Option Nat := none
  pulseB : Option Nat := none
  pulseEnd : Option Nat := none
deriving DecidableEq, Repr

/-- A safe output (R495, R498, R499). -/
structure ChmOut where
  lock : ChmLock := {}
  since : Nat := 0
  pulseA : Option Nat := none
  pulseB : Option Nat := none
deriving DecidableEq, Repr

/-- A safety connection (R508 to R512): for a producer the cycles since its last SPDU, the next `seq` and the newest SPDU
not yet fetched; for a consumer the waiting SPDUs with the operation that delivered each, and what was accepted last. -/
structure ChmConn where
  count : Nat := 0
  seq : Nat := 0
  spdu : Option (List Byte) := none
  waiting : List (List Byte × Option Nat) := []
  lastSeq : Option Nat := none
  data : Nat := 0
  valid : Bool := false
  lastAt : Nat := 0
deriving DecidableEq, Repr

/-- Chamois: whether it has started; the cycle timer at the start of the present cycle and the SYS cycle there; pairs and
outputs commanded in this cycle and for the next OUT; the channels whose outputs are forced off; a load in progress. -/
structure ChmSt where
  on : Bool := false
  clk : Nat := 0
  cycAt : Nat := 0
  /-- axes whose STO pair is on: both balls high (R494) -/
  torque : Nat := 0
  cmdT : Nat := 0
  cmdS : Nat := 0
  nextT : Nat := 0
  nextS : Nat := 0
  offA : Bool := false
  offB : Bool := false
  ins : Tbl ChmIn := []
  axes : Tbl ChmAx := []
  outs : Tbl ChmOut := []
  conns : Tbl ChmConn := []
  /-- a load in progress: the operation that asked for it, none for a register request -/
  load : Option (Option Nat) := none
  /-- SYS cycle of the last heartbeat of Bharal (R515) -/
  hbAt : Nat := 0
deriving DecidableEq, Repr

/-! ## Redundancy (14_redundancy.md) -/

/-- A duty of the table in use (R521): `mask` has bit c set when context c is replicated. -/
structure RedDuty where
  home : Nat := 0
  axShadow : Bool := false
  flow : Nat := 0
  perFrame : Nat := 1
  sessions : List Nat := []
  ctxMask : Nat := 0
deriving DecidableEq, Repr

/-- The snapshot of a replicated context (R527) with what a state entry takes beside it (R525): TS32 of its boundary,
exponent of x̂, the state mantissas, `state`, `bank`, `hcount` and `last_ref`. -/
structure RedSnap where
  stamp : Nat
  ex : Int
  x : List Int
  z : List Int
  u : List Int
  h : List Int
  st : Nat
  bank : Nat
  hcount : Nat
  lastRef : Nat
deriving DecidableEq, Repr

/-- What a member holds of a duty beside its role and the highest epoch known: the epoch it follows, its own while
ACTIVE, whether a member has been ACTIVE since the group came into use, whether a frame of the duty has been accepted in
the present cycle and how many cycles have ended without one (R534), the cycle of an accepted YIELD, a yield asked for or
under way with its operations (R533), a newer epoch met while ACTIVE (R537), whether the next state frame is a TAKEOVER
(R536), the contexts already corrected (R528), the contexts that come first in the next frame and the last one sent (R526),
the cycle whose frame has been taken, and the SYS cycle of the newest divergence (R529). -/
structure RedRun where
  follow : Nat := 0
  mine : Nat := 0
  ever : Bool := false
  heard : Bool := false
  misses : Nat := 0
  yieldAt : Option Nat := none
  yieldReq : Bool := false
  yielding : Option Nat := none
  yieldOps : List Nat := []
  superseded : Bool := false
  takeover : Bool := false
  joined : Nat := 0
  first : List Nat := []
  lastCtx : Nat := 255
  taken : Option Nat := none
  divAt : Option Nat := none
deriving DecidableEq, Repr

/-- The redundancy block: duties in use, what it holds of each, the snapshot memory, cycles of LISTEN left, the cycle of
the newest HEALTH frame of each member and of the own one, an uncorrectable memory error since the last boundary (R532),
and the role swap (R541): the last change of role and the next try after a cancelled one as SYS cycles, the swap cycle of a swap that this
member started or acknowledges, whether it has been acknowledged, and the operations that wait for it. -/
structure RedSt where
  duties : List RedDuty := []
  runs : Tbl RedRun := []
  snaps : Tbl (Option RedSnap) := []
  listen : Nat := 0
  healthAt : Tbl (Option Nat) := []
  healthTaken : Option Nat := none
  memErr : Bool := false
  roleAt : Nat := 0
  retryAt : Option Nat := none
  swapAt : Option Nat := none
  swapAck : Option Nat := none
  acked : Bool := false
  swapOps : List Nat := []
deriving DecidableEq, Repr

/-! ## Mesh, PCIe, DMA and event controller (15_mesh_host.md) -/

/-- A request that a port has presented to a target (R545 to R551): class 0 LOW to 3 CRIT, burst, the SYS cycle of its
presentation, preemptions in a row, and by how much its effective class is raised. -/
structure MeshReq where
  port : Nat
  cls : Nat
  addr : Nat
  len : Nat
  wr : Bool
  data : List Byte := []
  since : Nat := 0
  pre : Nat := 0
  raised : Nat := 0
deriving DecidableEq, Repr

/-- A burst that holds the path: its request, the SYS cycle of its first beat, whether it was granted under step 1. -/
structure MeshCur where
  req : MeshReq
  start : Nat
  first : Bool
deriving DecidableEq, Repr

/-- The arbiter of a target port: requests presented, oldest first, those that wait in their ports for the port's earlier
request to be granted, the burst that holds the path, the SYS cycle from which the path is free, grants completed since the
last grant under step 1, and the port last granted in each class. -/
structure MeshTgt where
  waiting : List MeshReq := []
  behind : List MeshReq := []
  cur : Option MeshCur := none
  freeAt : Nat := 0
  count : Nat := 0
  last : Tbl Nat := []
deriving DecidableEq, Repr

/-- One move of a DMA operation (R568): `src` is the source address, or the pattern of a FILL. -/
structure DmaEntry where
  fill : Bool
  src : Nat
  dst : Nat
  len : Nat
deriving DecidableEq, Repr

/-- The operation that a DMA channel carries out: its moves, those done, the bytes moved in the present one, and a cancel
request (R569). -/
structure DmaRun where
  op : Nat
  chain : Bool
  cls : Nat
  entries : List DmaEntry
  done : Nat := 0
  moved : Nat := 0
  cancel : Bool := false
deriving DecidableEq, Repr

/-- The Mesh with what hangs on it: arbiters, DMA channels, the vector levels last seen and the vectors requested (R573),
the function mask of MSI-X, whether PCIE_PERSTN is high, and the messages sent with the last one (R574). -/
structure MeshSt where
  tgts : Tbl MeshTgt := []
  dma : Tbl (Option DmaRun) := []
  seen : Nat := 0
  requested : List Nat := []
  fnMask : Bool := false
  perstn : Bool := true
  sent : Nat := 0
  lastMsg : Option (Nat × Nat) := none
deriving DecidableEq, Repr

/-! ## Bharal (16_ibex.md) -/

/-- Who asked for a Bharal operation: the host through BHR_CMD, or an operation in flight. -/
inductive BhrWho where
  | host
  | op (id : Nat)
deriving DecidableEq, Repr

/-- An event record (R582) without its number: kind, severity, node state, TS64, operating seconds, power cycles and
the data values in the order R586 names them. `who` waits for the record to be written (LOGWRITE). -/
structure LogRec where
  kind : Nat
  sev : Nat := 0
  node : Nat := 0
  ts : Nat := 0
  opS : Nat := 0
  pcyc : Nat := 0
  data : List Nat := []
  who : Option BhrWho := none
deriving DecidableEq, Repr

/-- A sensor (R578): since when it reads in the warning and in the fault condition, and whether each has been entered. -/
structure Sensor where
  warnAt : Option Nat := none
  faultAt : Option Nat := none
  warn : Bool := false
  fault : Bool := false
deriving DecidableEq, Repr

/-- A campaign as a node knows it (R598, R599): what ANNOUNCE says, the SYS cycle of adoption, and the port of its sender. -/
structure Camp where
  id : Nat
  t0 : Nat
  origin : Nat
  sv : Nat
  activate : Bool
  hash : List Byte
  len : Nat
  adoptedAt : Nat := 0
  port : Option Nat := none
deriving DecidableEq, Repr

/-- A receive session (R600, R601): the port, the next offset expected, and the SYS cycle of the last DATA. -/
structure CampRx where
  port : Nat
  next : Nat := 0
  dataAt : Nat := 0
deriving DecidableEq, Repr

/-- A transfer to a neighbour (R601, R602): offered or running, the offsets acknowledged and sent, the SYS cycle from which
20 ms count, rounds without progress, and whether the link has gone down. -/
structure CampTx where
  port : Nat
  running : Bool := false
  acked : Nat := 0
  sent : Nat := 0
  ackAt : Nat := 0
  rounds : Nat := 0
  dead : Bool := false
deriving DecidableEq, Repr

/-- A neighbour still to be offered (R602): the port, BUSY answers so far, and the SYS cycle before which it waits. -/
structure CampOffer where
  port : Nat
  busy : Nat := 0
  notBefore : Nat := 0
deriving DecidableEq, Repr

/-- A campaign that this node originates (R603, R608): who asked, REPORTs expected, the report area with its capacity in
entries, and the reports received. -/
structure CampOwn where
  who : BhrWho
  expect : Nat
  area : Nat
  cap : Nat
  reports : List (List Byte) := []
deriving DecidableEq, Repr

/-- An INSTALL that is writing a slot (R608): who asked, the slot, `activate`, and the bundle. -/
structure Install where
  who : BhrWho
  slot : Nat
  activate : Bool
  data : List Byte
deriving DecidableEq, Repr

/-- Bharal: records in MRAM by `seq`, the queue of records to write, the number lost, the next `seq`, the SYS cycle of the
last write; operating seconds up to SYS cycle `opAt`; the calibration set and the safety parameter set as stored; the boot
flash; the OTP counter and the key slots written by KEYPROG; trial counts, confirmed slots and a slot not to be tried in
the next BOOT; the operation or host command in hand; nonce and failed AUTHs; sensors; campaigns. -/
structure BhrSt where
  recs : Tbl (Option LogRec) := []
  logQ : List LogRec := []
  logLost : Nat := 0
  nextSeq : Nat := 0
  logAt : Option Nat := none
  opBase : Nat := 0
  opAt : Nat := 0
  pcyc : Nat := 0
  cal : List Byte := Config.factoryCal
  /-- 32-bit words of the calibration set in MRAM that hold an error, by word number (R26, R28) -/
  calEcc : Tbl EccKind := []
  /-- corrections that Bharal has counted in its own memories (R28); no register shows them (R575) -/
  eccCount : Nat := 0
  /-- the safety parameter set stored (R486) -/
  sps : List Byte := []
  flash : Tbl Byte := []
  otpSv : Nat := 0
  keys : Tbl (List Byte) := []
  trials : Tbl Nat := []
  confirmed : Tbl Bool := []
  badSlot : Option Nat := none
  /-- SYS cycle at which the node entered START (R624) -/
  startAt : Nat := 0
  cmd : Nat := 0
  running : Option BhrWho := none
  install : Option Install := none
  nonce : Option (List Byte × Nat) := none
  fails : List Nat := []
  sensors : Tbl Sensor := []
  /-- a sensor fault asks for SAFE_HOLD (R578) -/
  holdReq : Bool := false
  /-- Fawn has written a bundle and asks for a cold reset (R597) -/
  resetReq : Bool := false
  camp : Option Camp := none
  /-- the campaign whose bundle the node holds -/
  holds : Option Nat := none
  rx : Option CampRx := none
  tx : Option CampTx := none
  offers : List CampOffer := []
  own : Option CampOwn := none
deriving DecidableEq, Repr

/-! ## Power, reset, pins (17_power_reset.md, 18_package.md) -/

/-- Supplies, resets and pins: POR asserted, a cold reset in force until a SYS cycle with its source (R619), the holdover
count in 2⁻¹⁵ s with the TB0 second last seen (R614, R615), the backup domain's contents lost since the last POR release
(R616), salts drawn (R188), and the levels that the board drives on the GPIO balls (R653). -/
structure PwrSt where
  por : Bool := true
  coldUntil : Option Nat := none
  coldSrc : Nat := 1
  /-- the node state that the last cold reset has left (R38) -/
  coldNode : Nat := 0
  /-- SYS cycle of the last cycle of the backup oscillator (R30) -/
  xbatAt : Nat := 0
  hold : Nat := 0
  holdSec : Nat := 0
  bkpLost : Bool := false
  salts : Nat := 0
  gpio : Nat := 0
deriving DecidableEq, Repr

/-! ## The whole device -/

/-- The state of the device. -/
structure State where
  /-- the commands that wait, first in, first out (the model's own queue) -/
  pending : List Instr := []
  /-- SYS cycles since reset, the model's clock (log 1) -/
  cyc : Nat := 0
  /-- free values drawn so far (log 2) -/
  free : Nat := 0
  /-- what the requester of the last access received (log 3) -/
  resp : Resp := {}
  /-- high-word latches of the 64-bit registers, by the low word's address (R8) -/
  latch : Tbl Word := []
  /-- register file: address to value; an unlisted register holds its reset value -/
  regs : Tbl Word := []
  /-- memory bytes; an unlisted byte reads 0 (R617, log 4) -/
  mem : List Host.Cell := []
  /-- 64-bit words that hold an error (R28), by word address / 8 -/
  ecc : Tbl EccKind := []
  /-- pending commits (R12) -/
  commits : List Commit := []
  /-- time bases, grids, stamp channels -/
  time : TimeSt := {}
  /-- threads, locks, operations -/
  sp : SpSt := {}
  /-- signal store -/
  sig : SigSt := {}
  /-- loop engine -/
  le : LeSt := {}
  /-- axis ports, profile generators, virtual masters -/
  motion : MotionSt := {}
  /-- converters -/
  adc : AdcSt := {}
  /-- the Herd block -/
  herd : HerdSt := {}
  /-- Ethernet MACs, CAN controllers, partner sessions -/
  port : PortSt := {}
  /-- capture sessions and trigger units -/
  capt : CaptSt := {}
  /-- Chamois -/
  chm : ChmSt := {}
  /-- redundancy: duties, roles' counts, snapshots -/
  red : RedSt := {}
  /-- Mesh, PCIe, DMA, event controller -/
  mesh : MeshSt := {}
  /-- Bharal, MRAM, OTP, flash, campaigns -/
  bhr : BhrSt := {}
  /-- supplies, resets, pins, backup domain -/
  pwr : PwrSt := {}
deriving DecidableEq, Repr

/-- The device right after reset (R617): every register at its reset value, every memory zero, every block idle, no
command waiting. POR is still asserted; POR_RELEASE starts BOOT (R612). -/
def State.reset : State := {}

end Sys2Proof.Machine
end

