-- ==== Sys2Proof/Machine/Upd.lean ====
section
/-!
DEFINITION. The primitive updates of the state. Every command is a chain of them, so what each of them keeps, every
command keeps. None of them touches the queue of waiting commands.
-/
namespace Sys2Proof.Machine

/-- The block that holds a register address. -/
def findBlk (a : Nat) : List Blk → Option Blk
  | [] => none
  | b :: t => if b.base ≤ a ∧ a < b.base + b.size then some b else findBlk a t

/-- Instance and offset of a block address. -/
def Blk.split (b : Blk) (a : Nat) : Nat × Nat :=
  if b.n ≤ 1 then (0, a - b.base) else ((a - b.base) / b.st, (a - b.base) % b.st)

/-- Indices (i, j) of an offset in a family. -/
def Fam.index (f : Fam) (off : Nat) : Option (Nat × Nat) :=
  if off < f.off then none
  else
    let d := off - f.off
    if f.n ≤ 1 then (if d = 0 then some (0, 0) else none)
    else
      let i := d / f.st
      let e := d % f.st
      if ¬ i < f.n then none
      else if f.m ≤ 1 then (if e = 0 then some (i, 0) else none)
      else if e % f.st2 = 0 ∧ e / f.st2 < f.m then some (i, e / f.st2) else none

/-- The family of an offset with its indices. -/
def findFam (off : Nat) : List Fam → Option (Fam × Nat × Nat)
  | [] => none
  | f :: t => match f.index off with
    | some (i, j) => some (f, i, j)
    | none => findFam off t

/-- A register of the map: its block, instance, family and indices. -/
structure RegAt where
  blk : Nat
  inst : Nat
  fam : Fam
  i : Nat
  j : Nat

/-- The register at an address; `none` at a reserved offset. -/
def regAt (a : Nat) : Option RegAt :=
  match findBlk a blocks with
  | none => none
  | some b =>
    let (k, off) := b.split a
    if ¬ k < max b.n 1 then none
    else match findFam off b.fams with
      | none => none
      | some (f, i, j) => some ⟨b.base, k, f, i, j⟩

/-- The reset value of the register at an address; a reserved offset reads 0 (R5). -/
def resetOf (a : Nat) : Word :=
  match regAt a with
  | none => 0
  | some r => match r.fam.reset with
    | .val v => BitVec.ofNat 32 v
    | .index => BitVec.ofNat 32 r.i
    | .uid => Config.uidWord r.i

/-- The bits of a register that its fields implement; every other bit is reserved and reads 0 (R5). -/
def implMask (a : Nat) : Word :=
  match regAt a with
  | none => 0
  | some r => BitVec.ofNat 32 (r.fam.flds.foldl (fun m f => m ||| mask f.hi f.lo) 0)

/-- What a memory byte that nothing has written reads as: on-die memory is zeroed at reset (R617); DDR4 reads 0
(DESIGN CHOICE, log 4: R618 leaves it open). -/
def unwritten (_ : Nat) : Byte := 0

/-- The memory's canonical form: addresses rise strictly and no entry equals what an unlisted address reads as. -/
abbrev Memory.wf (m : List Host.Cell) : Bool := twf unwritten m

/-- One primitive update of the state. -/
inductive Upd where
  /-- set a register; reserved bits stay 0 (R5) -/
  | reg (a : Nat) (v : Word)
  /-- return a register to its reset value -/
  | regReset (a : Nat)
  /-- forget every register and latch for which `keep` holds no interval: return them to their reset values (R617) -/
  | regsKeep (keep : List (Nat × Nat))
  /-- latch the high word of a 64-bit register (R8) -/
  | latch (a : Nat) (v : Word)
  /-- write a memory byte -/
  | byte (a : Nat) (b : Byte)
  /-- zero the on-die memories (R617) -/
  | memClear
  | cyc (v : Nat)
  | free (v : Nat)
  | resp (v : Resp)
  | ecc (v : Tbl EccKind)
  | commits (v : List Commit)
  | time (v : TimeSt)
  | sp (v : SpSt)
  | sig (v : SigSt)
  | le (v : LeSt)
  | motion (v : MotionSt)
  | adc (v : AdcSt)
  | herd (v : HerdSt)
  | port (v : PortSt)
  | capt (v : CaptSt)
  | chm (v : ChmSt)
  | red (v : RedSt)
  | mesh (v : MeshSt)
  | bhr (v : BhrSt)
  | pwr (v : PwrSt)

/-- An address lies in one of the intervals. -/
def inRanges (l : List (Nat × Nat)) (a : Nat) : Bool := l.any fun (lo, hi) => decide (lo ≤ a ∧ a ≤ hi)

/-- The effect of a primitive update. -/
def Upd.apply (s : State) : Upd → State
  | .reg a v => { s with regs := tset (resetOf a) a (v &&& implMask a) s.regs }
  | .regReset a => { s with regs := tdel a s.regs }
  | .regsKeep keep => { s with regs := s.regs.filter fun e => inRanges keep e.1
                               latch := s.latch.filter fun e => inRanges keep e.1 }
  | .latch a v => { s with latch := tput a v s.latch }
  | .byte a b => { s with mem := tset (unwritten a) a b s.mem }
  | .memClear => { s with mem := s.mem.filter fun e => decide (0x100000000 ≤ e.1) }
  | .cyc v => { s with cyc := v }
  | .free v => { s with free := v }
  | .resp v => { s with resp := v }
  | .ecc v => { s with ecc := v }
  | .commits v => { s with commits := v }
  | .time v => { s with time := v }
  | .sp v => { s with sp := v }
  | .sig v => { s with sig := v }
  | .le v => { s with le := v }
  | .motion v => { s with motion := v }
  | .adc v => { s with adc := v }
  | .herd v => { s with herd := v }
  | .port v => { s with port := v }
  | .capt v => { s with capt := v }
  | .chm v => { s with chm := v }
  | .red v => { s with red := v }
  | .mesh v => { s with mesh := v }
  | .bhr v => { s with bhr := v }
  | .pwr v => { s with pwr := v }

/-- `Reach s t`: t comes from s by primitive updates. -/
inductive Reach (s : State) : State → Prop where
  | refl : Reach s s
  | step {t : State} (h : Reach s t) (u : Upd) : Reach s (u.apply t)

/-- A command at work: the state it has reached from the state it began in. -/
structure Run (s₀ : State) where
  s : State
  reach : Reach s₀ s

/-- The start of a command. -/
def Run.start (s : State) : Run s := ⟨s, .refl⟩

/-- One primitive update. -/
def Run.up {s₀ : State} (r : Run s₀) (u : Upd) : Run s₀ := ⟨u.apply r.s, .step r.reach u⟩

/-- The three outcomes of a command. -/
abbrev Out := Host.Outcome State Fault Refusal

/-- The end of a command: the state it has reached. -/
def Run.done {s₀ : State} (r : Run s₀) : Out := .next r.s

/-- An update for each element of a list, in order. -/
def Run.each {s₀ : State} {α : Type} (r : Run s₀) (l : List α) (f : Run s₀ → α → Run s₀) : Run s₀ := l.foldl f r

/-- A part of a command that happens only when `b` holds. -/
def Run.when {s₀ : State} (r : Run s₀) (b : Bool) (f : Run s₀ → Run s₀) : Run s₀ := if b then f r else r

end Sys2Proof.Machine
end

