-- ==== Sys2Proof/Machine/Flags.lean ====
section
/-!
DEFINITION. Registers, event flags and counters: reading and writing the register file, setting a flag of an EVSTAT
register (W1C, cleared by software), counters that saturate, and free values.
-/
namespace Sys2Proof.Machine

variable {s₀ : State}

/-- The value of a register. -/
def State.rget (s : State) (a : Nat) : Word := tget (resetOf a) a s.regs

/-- Bits [hi:lo] of a register. -/
def State.rf (s : State) (a hi lo : Nat) : Nat := fld (s.rget a) hi lo

/-- Bit `i` of a register. -/
def State.rb (s : State) (a i : Nat) : Bool := bit (s.rget a).toNat i

/-- A register set whole. -/
def Run.wr (r : Run s₀) (a : Nat) (v : Nat) : Run s₀ := r.up (.reg a (BitVec.ofNat 32 v))

/-- Bits [hi:lo] of a register set. -/
def Run.wf (r : Run s₀) (a hi lo x : Nat) : Run s₀ := r.up (.reg a (setFld (r.s.rget a) hi lo x))

/-- Bit `i` of a register set. -/
def Run.wb (r : Run s₀) (a i : Nat) (b : Bool) : Run s₀ := r.wf a i i (b2n b)

/-- A flag of an EVSTAT register set; its event's level is 1 while the flag and its enable are (R572). -/
def Run.flag (r : Run s₀) (evstat i : Nat) : Run s₀ := r.wb evstat i true

/-- One more in a counter field, which stops at its largest value. -/
def Run.count (r : Run s₀) (a hi lo : Nat) : Run s₀ :=
  r.wf a hi lo (satAdd (r.s.rf a hi lo) 1 (2 ^ (hi + 1 - lo) - 1))

/-- `k` more in a saturating counter field. -/
def Run.countBy (r : Run s₀) (a hi lo k : Nat) : Run s₀ :=
  r.wf a hi lo (satAdd (r.s.rf a hi lo) k (2 ^ (hi + 1 - lo) - 1))

/-- A 64-bit value set into a pair of registers, low word first. -/
def Run.wr64 (r : Run s₀) (lo hi v : Nat) : Run s₀ := (r.wr lo v).wr hi (v >>> 32)

/-- The 64-bit value of a pair of registers. -/
def State.rget64 (s : State) (lo hi : Nat) : Nat := (s.rget lo).toNat + (s.rget hi).toNat <<< 32

/-- The answer to the requester of an access. -/
def Run.answer (r : Run s₀) (st : Status) (data : List Nat) : Run s₀ := r.up (.resp ⟨st, data⟩)

/-- A free value (log 2): the next one of the sequence that nothing constrains. -/
def State.freeVal (s : State) : Nat := Config.freeValue s.free
def Run.drawn (r : Run s₀) : Run s₀ := r.up (.free (r.s.free + 1))

/-! ## Time and node state, as every block reads them -/

/-- A time base. -/
def State.base (s : State) (n : Nat) : Base := tget {} n s.time.bases

/-- TS64 of a privileged base, or the wrapping counter with its wraps (R50, R51). -/
def State.baseTime (s : State) (n : Nat) : Nat :=
  if n ≤ 2 then (s.base n).int else (s.base n).int + (s.base n).wraps <<< 32

/-- What a SYS-domain read of a base returns (R33): the count of a tick that lies 2.50 to 8.75 ns back. Ticks come with
every fourth SYS cycle of 1.25 ns, so for two cycles that is the tick before the last one, then either of the two. -/
def State.seenTime (s : State) (n : Nat) : Nat :=
  if 2 ≤ s.cyc % 4 && Config.seesNewer s.cyc n then s.baseTime n else (s.base n).was

/-- The TS64 of TB0. -/
def State.now (s : State) : Nat := (s.base 0).int

/-- TS32 of TB0 (R65). -/
def State.now32 (s : State) : Nat := s.now % 2 ^ 32

/-- The node state (R35). -/
def State.node (s : State) : NodeState := NodeState.ofCode (s.rf Reg.bhrStat 31 29)

/-- The lock state of TB0 (R57). -/
def State.tb0State (s : State) : Nat := s.rf Reg.timeStat 1 0

/-- TS32 stamps compared by signed 32-bit difference (R196): `p` is older than `q`. -/
def older (p q : Nat) : Bool := decide (0 < (q + 2 ^ 32 - p % 2 ^ 32) % 2 ^ 32 ∧ (q + 2 ^ 32 - p % 2 ^ 32) % 2 ^ 32 < 2 ^ 31)

/-- q − p of two TS32 stamps as a signed number. -/
def diff32 (q p : Nat) : Int := sInt 32 (q + 2 ^ 32 - p % 2 ^ 32)

/-- q − p of two TS64 times as a signed number. -/
def diff64 (q p : Nat) : Int := sInt 64 (q + 2 ^ 64 - p % 2 ^ 64)

/-- SYS cycles of a time: 800 in a microsecond. -/
def usCyc (us : Nat) : Nat := us * 800

end Sys2Proof.Machine
end

