-- ==== Sys2Proof/Machine/SigRec.lean ====
section
/-!
DEFINITION. The records of the signal store (05_signal_store.md, R186 to R203): where an index lies, its history and what
an update does to it, and the record as reads see it.
-/
namespace Sys2Proof.Machine

variable {s₀ : State}

/-! ## Banks and slots (R187) -/

/-- Multiplication in GF(2⁴) with the polynomial x⁴ + x + 1 (R187). -/
def gf16 (a b : Nat) : Nat :=
  let step (acc : Nat × Nat) (i : Nat) : Nat × Nat :=
    let x := if bit b i then acc.1 ^^^ acc.2 else acc.1
    let y := acc.2 * 2
    (x, if bit y 4 then (y ^^^ 0x13) % 16 else y)
  ((List.range 4).foldl step (0, a % 16)).1

/-- The multipliers m1 to m4 of the salt; 0 is replaced by 1 (R187). -/
def saltMul (salt : DWord) (i : Nat) : Nat :=
  let m := bits salt.toNat (21 + 4 * i) (18 + 4 * i)
  if m = 0 then 1 else m

/-- What the upper nibbles of x add to the bank (R187). -/
def bankMix (salt : DWord) (x : Nat) : Nat :=
  gf16 (saltMul salt 0) (bits x 7 4) ^^^ gf16 (saltMul salt 1) (bits x 11 8) ^^^
  gf16 (saltMul salt 2) (bits x 15 12) ^^^ gf16 (saltMul salt 3) (bits x 17 16)

/-- Bank and slot of a signal index (R187). -/
def State.locate (s : State) (i : Nat) : Nat × Nat :=
  let x := i ^^^ bits s.sig.salt.toNat 17 0
  (x % 16 ^^^ bankMix s.sig.salt x, x >>> 4)

/-- The index that owns a bank's slot: the mapping is one-to-one. -/
def State.indexOf (s : State) (bank slot : Nat) : Nat :=
  let x := slot * 16
  (x + (bank ^^^ bankMix s.sig.salt x)) ^^^ bits s.sig.salt.toNat 17 0

/-- A signal's record. -/
def State.sigRec (s : State) (i : Nat) : Sig := tget {} i s.sig.recs

/-- The store changed. -/
def Run.mapSig (r : Run s₀) (f : SigSt → SigSt) : Run s₀ := r.up (.sig (f r.s.sig))

/-- A record set. -/
def Run.setSig (r : Run s₀) (i : Nat) (g : Sig) : Run s₀ := r.mapSig fun t => { t with recs := tset {} i g t.recs }

/-! ## History (R196 to R200) -/

/-- An entry is older than a stamp: aged, or older by signed difference (R196, R200). -/
def Entry.olderThan (e : Entry) (u : Nat) : Bool := e.aged || older e.stamp u

/-- How an update with a stamp goes into a history (R197). -/
inductive Placed where
  | late
  | replaced (pos : Nat)
  | inserted (pos : Nat)
deriving DecidableEq, Repr

/-- The case of R197 for stamp `u`; `now` is TS32. -/
def placeOf (now : Nat) (h : List Entry) (u : Nat) : Placed :=
  if diff32 now u > 2 ^ 30 then .late
  else match h.findIdx? (fun e => !e.aged && e.stamp == u) with
  | some p => .replaced p
  | none =>
    let p := (h.findIdx? (fun e => e.olderThan u)).getD h.length
    if h.length < 4 then .inserted p
    else if p < h.length then .inserted p
    else .late

/-- The history after an update (R197): four entries at most, newest first. -/
def placeIn (h : List Entry) (u v : Nat) : Placed → List Entry
  | .late => h
  | .replaced p => h.set p { (h[p]?.getD { val := 0, stamp := 0 }) with val := v }
  | .inserted p => (h.take p ++ ([⟨v, u, false⟩] : List Entry) ++ h.drop p).take 4

/-- The position of the update's entry afterwards. -/
def Placed.pos : Placed → Option Nat
  | .late => none
  | .replaced p => some p
  | .inserted p => some p

/-! ## Who may write (R193, R194) -/

/-- The writer matches the descriptor (R193); kinds SAMPLE and ROUTE ignore the instance. -/
def Sig.takes (g : Sig) (kind inst : Nat) : Bool :=
  g.srcKind == 0 ||
    (g.srcKind == kind && (kind == 3 || kind == 10 || g.srcInst == 0xFFFF || g.srcInst == inst))

/-- The outcome that refuses an update, if any (R194). -/
def State.updRefusal (s : State) (u : SigUpd) : Option Status :=
  let g := s.sigRec u.idx
  if !g.defined then some .nosuch
  else if !g.takes u.kind u.inst then some .denied
  else if diff32 u.stamp s.now32 > 2 ^ 30 then some .cfgerr
  else none

/-- The first raw-window word of a record. -/
def State.recWord (s : State) (i : Nat) : Nat :=
  let (b, slot) := s.locate i
  (0x2000000 + b * 0xC0000 + slot * 48) / 8

/-- The record as reads see it: staged results are visible from the instant they are staged (R212). -/
def State.sigView (s : State) (i : Nat) : Sig :=
  (s.sig.stage.filter fun u => u.idx == i).foldl (fun g u =>
    if (s.updRefusal u).isSome then g
    else { g with hist := placeIn g.hist u.stamp u.val (placeOf s.now32 g.hist u.stamp) }) (s.sigRec i)

/-- The 48 bytes of a record (R190, R191), with the staged results that every read sees (R212). -/
def State.sigBytes (s : State) (i : Nat) : List Byte :=
  let g := s.sigView i
  let watched := s.sig.watches.any fun w => w.idx == i
  let aged := (g.hist.zipIdx.foldl (fun m e => m + b2n e.1.aged <<< e.2) 0)
  bytesLE 1 g.type
    ++ bytesLE 1 (b2n g.defined + 2 * b2n g.interp + 4 * b2n g.modular + 8 * b2n g.routeEn + 16 * b2n watched)
    ++ bytesLE 1 g.srcKind
    ++ bytesLE 1 (g.hist.length + aged <<< 4)
    ++ bytesLE 2 g.srcInst ++ bytesLE 2 g.captMask ++ bytesLE 2 g.late ++ bytesLE 2 g.routeCnt ++ bytesLE 2 g.routeHead
    ++ bytesLE 2 0
    ++ (List.range 4).flatMap fun e => match g.hist[e]? with
      | some x => bytesLE 4 x.val ++ bytesLE 4 x.stamp
      | none => bytesLE 8 0

/-! ## Banks (R210 to R213) -/

/-- The bank of a signal. -/
def State.bankOf (s : State) (i : Nat) : Nat := (s.locate i).1

/-- Waiting requests of a bank. -/
def State.bankLevel (s : State) (b : Nat) : Nat := (s.sig.queue.filter fun u => s.bankOf u.idx == b).length

/-- The updates that a bank serves before a request that reaches it now: staged results, those of the loop engine, the
others, oldest first, and those that their writers hold back (R211, R213). -/
def State.bankAhead (s : State) (b : Nat) : Nat :=
  ((s.sig.stage ++ s.sig.queue ++ s.sig.held).filter fun u => s.bankOf u.idx == b).length

/-- Updates that wait in the notice stage (R210). -/
def State.noticeLevel (s : State) : Nat := (s.sig.notices.filter (·.last)).length

/-- The banks of some signals serve a request for each of them at once: the notice stage has a place for every update that
goes before, and for theirs (R210, R213). -/
def State.banksOpen (s : State) (l : List Nat) : Bool :=
  decide (s.noticeLevel + ((l.map s.bankOf).dedup.map s.bankAhead).sum + l.length ≤ 256)

/-- SYS cycles for which a request waits in its bank: one access takes 8 (R211). -/
def State.bankWait (s : State) (i : Nat) : Nat := 8 * s.bankAhead (s.bankOf i)

end Sys2Proof.Machine
end

