-- ==== Sys2Proof/Machine/Ops.lean ====
section
/-!
DEFINITION. The named operations over memory and over operations in flight: the address map and who may write where
(R26, R27, R240, R570), error correction (R28), a block's reads and writes of memory, and the life of an operation
(R151 to R162).
-/
namespace Sys2Proof.Machine

variable {s₀ : State}

/-! ## The address map -/

/-- The ranges of R570. -/
inductive Region where
  | sram | sigRaw | le | spI (n : Nat) | spD (n : Nat) | regs | ddr | host (w : Nat) | unmapped
deriving DecidableEq, Repr

/-- The range of an address (R26, R570, R571); a block-register address in no window is unmapped. -/
def regionOf (a : Nat) : Region :=
  if a < 0x2000000 then .sram
  else if a < 0x2C00000 then .sigRaw
  else if a < 0x3000000 then .unmapped
  else if a < 0x3400000 then .le
  else if a < 0x3600000 then .spI ((a - 0x3400000) / 0x40000)
  else if a < 0x3A00000 then .spD ((a - 0x3600000) / 0x80000)
  else if a < 0x4000000 then .unmapped
  else if a < 0x5000000 then (if (findBlk a blocks).isSome then .regs else .unmapped)
  else if a < 0x100000000 then .unmapped
  else if a < 0x500000000 then .ddr
  else if a < 0x1000000000 then .unmapped
  else if a < 0x2000000000 then .host ((a - 0x1000000000) / 0x400000000)
  else .unmapped

/-- The Mesh port that serves an address (R23, R571); the Mesh's own registers occupy none. -/
def targetPort (a : Nat) : Option Nat :=
  match regionOf a with
  | .sram => some (if a < 0x1000000 then 10 else 11)
  | .sigRaw => some 3
  | .le => some 2
  | .spI n => some (n / 4)
  | .spD n => some (n / 4)
  | .ddr => some 12
  | .host _ => some 13
  | .unmapped => none
  | .regs =>
    match a / 0x10000 with
    | 0x400 => none | 0x401 => some 14 | 0x402 => some 14 | 0x403 => some 0 | 0x404 => some 2 | 0x405 => some 3
    | 0x406 => some 4 | 0x407 => some 5 | 0x408 => some 6 | 0x409 => some 6 | 0x40A => some 7 | 0x40B => some 9
    | 0x40C => some 9 | 0x40D => some 7 | 0x410 => some 8 | 0x411 => some 8 | 0x412 => some 8 | 0x414 => some 8
    | 0x415 => some 8 | 0x418 => some 15 | 0x419 => some 14 | 0x41A => some 15 | _ => some 14

/-- A memory byte as it stands. -/
def State.byte (s : State) (a : Nat) : Byte := tget (unwritten a) a s.mem

/-- A byte as the Mesh reads it: memory, or a signal record in the raw window, or the host's answer. -/
def State.meshByte (s : State) (a : Nat) : Byte :=
  match regionOf a with
  | .sigRaw =>
    let o := a - 0x2000000
    let b := o / 0xC0000
    let q := o % 0xC0000
    (s.sigBytes (s.indexOf b (q / 48)))[q % 48]?.getD 0
  | .host w =>
    let host := s.rget64 (Reg.meshPcieObHostLo w) (Reg.meshPcieObHostHi w)
    Config.hostByte s.free (host + (a - 0x1000000000) % 0x400000000)
  | _ => s.byte a

/-- `n` bytes from an address. -/
def State.bytes (s : State) (a n : Nat) : List Byte := (List.range n).map fun i => s.meshByte (a + i)

/-- A little-endian number in memory. -/
def State.memNat (s : State) (a n : Nat) : Nat := ofBytesLE (s.bytes a n)

/-! ## Loop-engine context blocks (R233 to R240), whose state decides who may write them -/

/-- Base of a context's block and of a trace buffer (R233). -/
def leBase (c : Nat) : Nat := 0x3000000 + c * 0x2000
def trBase (b : Nat) : Nat := 0x3200000 + b * 0x8000

/-- A header field of a context (R235). -/
def State.leH (s : State) (c off n : Nat) : Nat := s.memNat (leBase c + off) n

/-- The state of a context: 0 IDLE, 1 RUN, 2 FALLBACK, 3 FAULT. -/
def State.leState (s : State) (c : Nat) : Nat := s.leH c 96 1

/-- The operation of a unit, code and object that has been accepted and has no outcome yet. -/
def State.opWaiting (s : State) (unit code obj : Nat) : Option Op :=
  s.sp.ops.find? fun o => o.unit == unit && o.code == code && o.obj == obj && o.accepted && o.out.isNone

/-- A Mesh write of one byte of LE local memory is carried out (R240). -/
def State.leWritable (s : State) (a : Nat) : Bool :=
  if 0x3200000 ≤ a then false
  else
    let c := (a - 0x3000000) / 0x2000
    let off := (a - 0x3000000) % 0x2000
    if s.leState c = 0 then
      (s.opWaiting 0 1 c).isNone && (decide (off < 96) || off == 98 || decide (128 ≤ off))
    else
      let inBank (b : Nat) : Bool := decide (0x400 + b * 0xE00 ≤ off ∧ off < 0x400 + (b + 1) * 0xE00)
      inBank (1 - s.leH c 97 1 % 2) && (s.opWaiting 0 3 c).isNone

/-! ## Operations in flight -/

/-- An operation by number. -/
def State.op (s : State) (id : Nat) : Option Op := s.sp.ops.find? fun o => o.id == id

/-- The SP cluster changed. -/
def Run.mapSp (r : Run s₀) (f : SpSt → SpSt) : Run s₀ := r.up (.sp (f r.s.sp))

/-- One operation replaced. -/
def Run.opSet (r : Run s₀) (o : Op) : Run s₀ :=
  r.mapSp fun p => { p with ops := p.ops.map fun x => if x.id = o.id then o else x }

/-- An operation that names no object of its own is not ordered by R161. -/
def ignoresObj (unit code : Nat) : Bool :=
  (unit == 13 && code == 1) || (unit == 3 && (code == 3 || code == 4))

/-- `x` names the same unit and object as `o` and has not taken effect yet. -/
def Op.ahead (x o : Op) : Bool :=
  x.unit == o.unit && x.obj == o.obj && !x.acted && x.out.isNone && !ignoresObj x.unit x.code

/-- An earlier operation of the same thread, unit and object has not taken effect yet (R161). -/
def State.opBehind (s : State) (o : Op) : Bool :=
  !ignoresObj o.unit o.code && s.sp.ops.any fun x => decide (x.id < o.id) && x.tid == o.tid && x.ahead o

/-- The operation has been accepted, has no effect yet, and its time has come. -/
def Op.isDue (o : Op) : Bool := o.accepted && !o.acted && o.out.isNone && (o.time.isNone || o.late || o.due)

/-- The operation has to wait for another: one of its own thread (R161), or one of another thread that the unit accepted
before it and that may act (R163). -/
def State.opBlocked (s : State) (o : Op) : Bool :=
  s.opBehind o || !ignoresObj o.unit o.code && s.sp.ops.any fun x =>
    x.tid != o.tid && decide (x.acc < o.acc) && x.ahead o && x.isDue && !s.opBehind x

/-- The operation may act now: accepted, not ended, its time has come, and R161 and R163 let it. -/
def State.opReady (s : State) (o : Op) : Bool := o.isDue && !s.opBlocked o

/-- OK, or LATE for an operation that acts later than its stated time (R162, R170). -/
def Op.okSt (o : Op) : Status := if o.time.isSome && (o.late || o.held) then .late else .ok

/-- The end of an operation's action: its outcome and its results, which OP_COMPLETE delivers (R153, R157). -/
def Run.opEnd (r : Run s₀) (o : Op) (st : Status) (cause : Nat) (stamp : Nat) (res : List Byte) (uflags : Nat) : Run s₀ :=
  r.opSet { o with
    acted := true
    actedAt := r.s.now
    out := some { status := st, cause := cause, uflags := uflags, unit := o.unit, code := o.code, tag := o.tag,
                  stamp := stamp % 2 ^ 32, obj := o.obj }
    results := res }

/-- The end of an operation at the present tick, without unit flags. -/
def Run.opFin (r : Run s₀) (o : Op) (st : Status) (cause : Nat) (res : List Byte) : Run s₀ :=
  r.opEnd o st cause r.s.now32 res 0

/-- The end of the operation of a number, if it is still in flight. -/
def Run.opFinId (r : Run s₀) (id : Nat) (st : Status) (cause : Nat) (res : List Byte) : Run s₀ :=
  match r.s.op id with
  | none => r
  | some o => if o.out.isSome then r else r.opFin o (if st = .ok then o.okSt else st) cause res

/-- An operation takes effect but runs on (R155). -/
def Run.opAct (r : Run s₀) (o : Op) : Run s₀ := r.opSet { o with acted := true, actedAt := r.s.now }

/-- A command of a unit acts on the operation of number `id`, when that is one of its unit and code and may act. -/
def Run.opRow (r : Run s₀) (id unit code : Nat) (act : Run s₀ → Op → Run s₀) : Run s₀ :=
  match r.s.op id with
  | none => r
  | some o => if o.unit == unit && o.code == code && r.s.opReady o then act r o else r

/-- A grid-bound operation is checked and taken by its unit once R161 lets it; it acts at a boundary (R168), those of
different threads in the order in which the unit accepted them (R163). -/
def Run.opTake (r : Run s₀) (id unit code : Nat) (check : Run s₀ → Op → Run s₀) : Run s₀ :=
  match r.s.op id with
  | none => r
  | some o => if o.unit == unit && o.code == code && o.accepted && !o.taken && !o.acted && o.out.isNone
      && !r.s.opBehind o then check r o else r

/-- The same where operations due on one boundary act in issue order on it (R312): R161 is kept at the boundary. -/
def Run.opTakeFree (r : Run s₀) (id unit code : Nat) (check : Run s₀ → Op → Run s₀) : Run s₀ :=
  match r.s.op id with
  | none => r
  | some o => if o.unit == unit && o.code == code && o.accepted && !o.taken && !o.acted && o.out.isNone
      then check r o else r

/-- The unit has checked a grid-bound operation. -/
def Run.opTaken (r : Run s₀) (o : Op) : Run s₀ := r.opSet { o with taken := true, takenAt := r.s.now }

/-- A taken operation is due at the boundary that lies at TB0 time `b`: the first at or after its stated time (R168). -/
def State.opDueAt (_ : State) (o : Op) (b : Nat) : Bool :=
  o.taken && !o.acted && o.out.isNone && (match o.time with | none => true | some t => o.late || decide (t ≤ b))

/-- Operations in the order in which their units accepted them (R163). -/
def byAcceptance (l : List Op) : List Op := l.insertionSort fun a b => a.acc ≤ b.acc

/-- Grid-bound operations of an object that had to let boundary `k` pass although their stated time had come: they act later
than it alone would give (R162). -/
def Run.opsHeld (r : Run s₀) (unit obj k : Nat) (codes : List Nat) : Run s₀ :=
  r.mapSp fun p => { p with ops := p.ops.map fun o =>
    if o.unit == unit && o.obj == obj && codes.contains o.code && o.accepted && !o.acted && o.out.isNone
      && (match o.time with | none => false | some t => !o.late && decide (t ≤ k)) then { o with held := true } else o }

/-! ## Access checks -/

/-- The status of a request by a port to `n` bytes of memory (R7, R26, R27, R240, R558, R565). -/
def State.memStatus (s : State) (port a n : Nat) (wr : Bool) : Status :=
  if regionOf a ≠ regionOf (a + n - 1) then .fault
  else match regionOf a with
  | .sram => .ok
  | .sigRaw => if wr then .denied else .ok
  | .le => if wr && !((List.range n).all fun i => s.leWritable (a + i)) then .denied else .ok
  | .spI _ => if wr && port != 14 then .denied else .ok
  | .spD _ => .ok
  | .ddr =>
    if s.rb Reg.meshDdrCfg 31 && decide (a + n ≤ 0x100000000 + s.rf Reg.meshDdrCfg 4 0 * 2 ^ 30) then .ok else .fault
  | .host w =>
    if decide ((a + n - 1 - 0x1000000000) % 0x400000000 < s.rf (Reg.meshPcieObSize w) 21 0 * 4096)
      && s.rb Reg.meshPcieStat 31 && s.rb Reg.meshPcieStat 0 then .ok else .fault
  | .regs => .fault
  | .unmapped => .fault

/-- A refused access is recorded and raises the access-error event (R6, R7, R27). -/
def Run.accErr (r : Run s₀) (port a : Nat) (wr : Bool) (st : Status) : Run s₀ :=
  ((r.wr Reg.meshAccLo a).wr Reg.meshAccHi
    (2 ^ 31 + (port % 16) <<< 24 + st.code <<< 16 + b2n wr <<< 8 + bits a 39 32)).flag Reg.meshEvstat 0

/-- The words of a range that hold an error. -/
def State.eccIn (s : State) (a n : Nat) : List (Nat × EccKind) :=
  s.ecc.filter fun e => decide (a / 8 ≤ e.1 ∧ e.1 ≤ (a + n - 1) / 8)

/-- The mark of one word taken away. -/
def Run.eccClear (r : Run s₀) (w : Nat) : Run s₀ := r.up (.ecc (tdel w r.s.ecc))

/-- A single-bit error found by a read is corrected, written back and counted by the memory's owner (R28). -/
def Run.eccCorrect (r : Run s₀) (w : Nat) : Run s₀ :=
  let r := r.eccClear w
  match regionOf (w * 8) with
  | .le => (r.count Reg.leEccCnt 31 0).flag Reg.leEvstat 8
  | .sigRaw => r.flag Reg.sigEvstat 6
  | _ => (r.count Reg.meshEccCnt 31 0).flag Reg.meshEvstat 1

/-- An uncorrectable memory error has been reported since the last cycle boundary (R532). -/
def Run.memErr (r : Run s₀) : Run s₀ := r.up (.red { r.s.red with memErr := true })

/-- A commit of a group waits for its boundary, and its time has come (R10, R17). -/
def State.commitDue (s : State) (g : Group) : Bool :=
  s.commits.any fun c => c.group == g && c.time.all fun t => decide (t ≤ s.now)

/-! ## ECC in records (R219 to R221) -/

/-- WATCHes on a signal end (R216, R221). -/
def Run.endWatches (r : Run s₀) (i : Nat) (st : Status) (cause : Nat) : Run s₀ :=
  let ws := r.s.sig.watches.filter fun w => w.idx == i
  let r := r.mapSig fun t => { t with watches := t.watches.filter fun w => w.idx != i }
  r.each ws fun r w => r.opFinId w.op st cause []

/-- The store's own access to a record meets the errors it holds: a single-bit error is corrected, an uncorrectable
history entry leaves, an uncorrectable descriptor makes the signal undefined. -/
def Run.sigEcc (r : Run s₀) (i : Nat) : Run s₀ :=
  if r.s.ecc.isEmpty then r
  else
    let w := r.s.recWord i
    let l := r.s.ecc.filter fun e => decide (w ≤ e.1 ∧ e.1 < w + 6)
    let r := r.each l fun r e => if e.2 == .single then (r.eccClear e.1).flag Reg.sigEvstat 6 else r
    let bad := (l.filter fun e => e.2 == .double).map fun e => e.1 - w
    if bad.isEmpty then r
    else
      let r := r.memErr
      let r := r.each bad fun r k => r.eccClear (w + k)
      if bad.any fun k => decide (k < 2) then
        let r := (r.setSig i {}).wr Reg.sigEccIdx (2 ^ 31 + i)
        (r.endWatches i .fault 0).flag Reg.sigEvstat 7
      else
        let g := r.s.sigRec i
        let keep := g.hist.zipIdx.filter fun e => !bad.contains (e.2 + 2)
        r.setSig i { g with hist := keep.map (·.1) }

/-- The signal whose record holds a word of the raw window. -/
def State.recIndex (s : State) (w : Nat) : Nat :=
  let o := w * 8 - 0x2000000
  s.indexOf (o / 0xC0000) (o % 0xC0000 / 48)

/-- An uncorrectable error met by a Mesh read (R28, R556): in a context block the loop engine acts on it at once (R265,
R272), in a record the signal store (R220, R221). -/
def Run.eccFatal (r : Run s₀) (w : Nat) : Run s₀ :=
  let r := r.memErr
  match regionOf (w * 8) with
  | .le =>
    let a := w * 8 - 0x3000000
    let r := ((r.wr Reg.leEccAddr (2 ^ 31 + a)).flag Reg.leEvstat 9).flag Reg.meshEvstat 2
    if a < 0x200000 then r.up (.le { r.s.le with eccHits := r.s.le.eccHits ++ [a / 0x2000] }) else r
  | .sigRaw => (r.sigEcc (r.s.recIndex w)).flag Reg.meshEvstat 2
  | _ => ((r.wr Reg.meshEccLo (w * 8)).wr Reg.meshEccHi (2 ^ 31 + bits (w * 8) 39 32)).flag Reg.meshEvstat 2

/-- What a read of a range finds: each single-bit error corrected, an uncorrectable one reported (R28). -/
def Run.eccRead (r : Run s₀) (a n : Nat) : Run s₀ × Bool :=
  let l := r.s.eccIn a n
  let r := r.each (l.filter fun e => e.2 == .single) fun r e => r.eccCorrect e.1
  let bad := l.filter fun e => e.2 == .double
  (r.each bad fun r e => r.eccFatal e.1, !bad.isEmpty)

/-- A read of memory by a requester: status and bytes; a refusal is recorded (R7, R27, R28). -/
def Run.memRead (r : Run s₀) (port a n : Nat) : Run s₀ × Status × List Byte :=
  match r.s.memStatus port a n false with
  | .ok =>
    let (r', bad) := r.eccRead a n
    if bad then (r', .fault, [])
    else
      let d := r'.s.bytes a n
      match regionOf a with
      | .host _ => (r'.drawn, .ok, d)
      | _ => (r', .ok, d)
  | st => (r.accErr port a false st, st, [])

/-- Bytes put into memory. -/
def Run.putBytes (r : Run s₀) (a : Nat) : List Byte → Run s₀
  | [] => r
  | b :: t => (r.up (.byte a b)).putBytes (a + 1) t

/-- A word of the range written only in part is completed by a read-modify-write, which meets the word's error (R28). -/
def partialWord (a n w : Nat) : Bool := decide (w * 8 < a ∨ a + n < w * 8 + 8)

/-- A write of memory by a requester (R26 to R28). A write to a host window leaves the device. -/
def Run.memWrite (r : Run s₀) (port a : Nat) (d : List Byte) : Run s₀ × Status :=
  if d.isEmpty then (r, .ok)
  else match r.s.memStatus port a d.length true with
  | .ok =>
    let l := r.s.eccIn a d.length
    let bad := l.filter fun e => e.2 == .double && partialWord a d.length e.1
    if !bad.isEmpty then (r.each bad fun r e => r.eccFatal e.1, .fault)
    else
      let r := r.each l fun r e =>
        if partialWord a d.length e.1 then r.eccCorrect e.1 else r.eccClear e.1
      match regionOf a with
      | .host _ => (r, .ok)
      | _ => (r.putBytes a d, .ok)
  | st => (r.accErr port a true st, st)

end Sys2Proof.Machine
end

