-- ==== Sys2Proof/Machine/Node.lean ====
section
/-!
DEFINITION. The node state (R35 to R38), the event recorder's queue (R584), and the values of the calibration set that
every block reads (R579, R580).
-/
namespace Sys2Proof.Machine

variable {s₀ : State}

/-- The causes of a state change (R625). -/
inductive NodeCause where
  | powerOn | coldReset (src old : Nat) | imagesOk | noImage | loaded | locked | calInvalid | noLock | holdover | command
  | sensor | chamois | pllUnlock
deriving DecidableEq, Repr

def NodeCause.code : NodeCause → Nat
  | .powerOn => 0x01 | .coldReset _ _ => 0x02 | .imagesOk => 0x03 | .noImage => 0x04 | .loaded => 0x05 | .locked => 0x06
  | .calInvalid => 0x07 | .noLock => 0x08 | .holdover => 0x09 | .command => 0x0A | .sensor => 0x0B | .chamois => 0x0C
  | .pllUnlock => 0x0D

/-- Operating seconds, counted in every powered state (R582). -/
def State.opSeconds (s : State) : Nat :=
  s.bhr.opBase + (if s.pwr.por then 0 else (s.cyc - s.bhr.opAt) / 800000000)

/-- A record is queued for the event recorder; with 64 queued it is lost (R584). -/
def Run.log (r : Run s₀) (kind sev : Nat) (data : List Nat) : Run s₀ :=
  let b := r.s.bhr
  if 64 ≤ b.logQ.length then (r.up (.bhr { b with logLost := b.logLost + 1 })).count Reg.bhrLogLost 31 0
  else
    let ts := if r.s.rb Reg.timeStat 3 || r.s.tb0State == 2 then r.s.now else 0
    r.up (.bhr { b with logQ := b.logQ ++
      [{ kind := kind, sev := sev, node := r.s.node.code, ts := ts, opS := r.s.opSeconds, pcyc := b.pcyc, data := data }] })

/-- A flag of the time block is set with every change of TB0's lock state (R61). -/
def Run.setTb0State (r : Run s₀) (v : Nat) : Run s₀ :=
  if r.s.tb0State = v then r
  else
    let r := (r.wf Reg.timeStat 1 0 v).flag Reg.timeEvstat 0
    let r := if v = 2 then r.wb Reg.timeStat 3 true else r
    if v = 3 then r.up (.time { r.s.time with holdSince := r.s.cyc, holdHit := false }) else r

/-- The UID of a port's neighbour as four words, 0 while none has been heard. -/
def State.nbrUid (s : State) (p : Nat) : List Nat :=
  let u := (((tget {} p s.herd.ports).nbr).map (·.uid)).getD 0
  (List.range 4).map fun i => bits u (32 * i + 31) (32 * i)

/-- A CAMPAIGN record: campaign, role (0 sender, 1 receiver), outcome, neighbour UID (R586). -/
def Run.campRecord (r : Run s₀) (id role p : Nat) (st : Status) : Run s₀ :=
  r.log 0x000B 0 ([id, role, st.code] ++ r.s.nbrUid p)

/-- A link that goes down ends the campaign sessions over it at this end (R601): a receive session with status LOST in its
record, a transfer at its next ACK_TIMEOUT. -/
def Run.campLinkDown (r : Run s₀) (p : Nat) : Run s₀ :=
  let b := r.s.bhr
  let tx := b.tx.map fun t => if t.port = p then { t with dead := true } else t
  let r := r.up (.bhr { b with tx := tx })
  match b.rx with
  | some x =>
    if x.port = p then
      let r := (r.up (.bhr { r.s.bhr with rx := none })).campRecord ((b.camp.map (·.id)).getD 0) 1 p .lost
      (r.wb Reg.bhrCamp 30 false).flag Reg.bhrEvstat 8
    else r
  | none => r

/-- A Herd port changes its link state: `link_chg` is set (R374). -/
def Run.linkTo (r : Run s₀) (p v : Nat) : Run s₀ :=
  if r.s.rf (Reg.herdHpStat p) 31 29 = v then r
  else
    let r := r.when (v < 2) fun r => r.campLinkDown p
    (r.wf (Reg.herdHpStat p) 31 29 v).flag Reg.herdEvstat p

/-- The Herd block starts with START: HERD_CFG is read, and every enabled port leaves OFF (R372, R387). -/
def Run.herdStart (r : Run s₀) : Run s₀ :=
  let r := r.up (.herd { r.s.herd with
    prio := r.s.rf Reg.herdCfg 31 24, spare := r.s.rf Reg.herdCfg 23 16, hopLimit := r.s.rf Reg.herdCfg 15 8,
    joined := false, sizeSent := false, acqFirst := true })
  r.each (List.range 4) fun r p =>
    if r.s.rb (Reg.herdHpCtrl p) 0 && r.s.rf (Reg.herdHpStat p) 31 29 == 0 then r.linkTo p 1 else r

/-- The node enters NORMAL: the slot it booted from is confirmed and its trial count cleared (R593). -/
def Run.slotConfirmed (r : Run s₀) : Run s₀ :=
  let b := r.s.bhr
  let k := r.s.rf Reg.bhrBoot 31 31
  let r := r.up (.bhr { b with trials := tset 0 k 0 b.trials, confirmed := tset false k true b.confirmed })
  (r.wb Reg.bhrBoot 29 true).wf Reg.bhrBoot 17 16 0

/-- The node changes state and the change is recorded (R38). Entering START, a TB0 in FREE enters ACQUIRE, and
`tb0_ever_locked` says whether TB0 is LOCKED at that instant (R59). -/
def Run.nodeTo (r : Run s₀) (new : NodeState) (c : NodeCause) : Run s₀ :=
  let old := match c with | .coldReset _ old => old | _ => r.s.node.code
  let data := [old, new.code, c.code] ++ (match c with | .coldReset src _ => [src] | _ => [])
  let r := r.log 0x0001 0 data
  let r := (r.wf Reg.bhrStat 31 29 new.code).up (.motion { r.s.motion with testEn := 0 })
  let r := if new = .normal then r.slotConfirmed else r
  if new = .start then
    let r := (r.up (.bhr { r.s.bhr with startAt := r.s.cyc })).herdStart
    let r := r.wb Reg.timeStat 3 (r.s.tb0State == 2)
    if r.s.tb0State = 0 then r.setTb0State 1 else r
  else r

/-- The blocks of the device run: not in BOOT, LOAD and SAFE_HOLD, and not while Fawn runs (R35). -/
def State.blocksRun (s : State) : Bool :=
  match s.node with
  | .boot | .load | .safeHold => false
  | _ => !s.rb Reg.bhrStat 27

/-- A value of the calibration set, 0 while the set is not valid, and in RECOVERY, where defaults stand in its place (R35,
R580). -/
def State.calNat (s : State) (off n : Nat) : Nat :=
  if s.rb Reg.bhrStat 28 ∧ s.node ≠ .recovery then recNat s.bhr.cal off n else 0

/-- A signed 32-bit value of the calibration set. -/
def State.calInt (s : State) (off : Nat) : Int := sInt 32 (s.calNat off 4)

end Sys2Proof.Machine
end

