-- ==== Sys2Proof/Machine/Quiser.lean ====
section
/-!
DEFINITION. Quiser instruction words (03_quiser_isa.md, R93 to R99, R138): their fields, the row that a word belongs to,
and the decode checks of R98. A sequence processor decodes them from instruction memory; the block's own commands have
no words.
-/
namespace Sys2Proof.Machine

/-- The rows of the instruction set, as the opcode table names them. -/
inductive QRow where
  | intAlu | intImm | cmp | cmpi | predLogic | floatOp | fcmp | load | store
  | sigrd | sigwr | sigwrt | sigasH | sigasI | sighist | br | call | jr | op | opx | atT
  | hstat | hrel | hcan | hmask | waitAny | waitAll | fence | fenceM | lock | trylock | unlock
  | nop | yield | halt | mfs | mfp | mtp | trap | li | lih
deriving DecidableEq, Repr

/-! ## Fields (R93, R94) -/

def qMajor (w : Nat) : Nat := bits w 31 26
def qRd (w : Nat) : Nat := bits w 21 17
def qRs1 (w : Nat) : Nat := bits w 16 12
def qRs2 (w : Nat) : Nat := bits w 11 7
def qF7 (w : Nat) : Nat := bits w 6 0
def qUnit (w : Nat) : Nat := bits w 21 17
def qKd (w : Nat) : Nat := bits w 16 13
def qRo (w : Nat) : Nat := bits w 12 8
def qRdesc (w : Nat) : Nat := bits w 7 3

/-- A number as 64 bits, modulo 2⁶⁴. -/
def u64 (i : Int) : Nat := uNat 64 i

/-- imm12, off22 and off17, sign-extended (R95). -/
def qImm12 (w : Nat) : Int := sInt 12 w
def qOff22 (w : Nat) : Int := sInt 22 w
def qOff17 (w : Nat) : Int := sInt 17 w

/-- Bytes of an instruction: the X format has an extension word (R99). -/
def qLen (w : Nat) : Nat := if 0x30 ≤ qMajor w ∧ qMajor w ≤ 0x33 then 8 else 4

/-- A destination predicate in the rd field leaves bits [21:20] 0 (R94). -/
def qPdOk (w : Nat) : Bool := bits w 21 20 == 0

/-- The signal instructions by sub-code; `sigrd` has no rs2 (R117). -/
def qSigRow (w : Nat) : Option QRow :=
  match bits w 3 0 with
  | 0 => if qRs2 w = 0 then some .sigrd else none
  | 1 => some .sigwr
  | 2 => some .sigwrt
  | 3 => some .sigasH
  | 4 => some .sigasI
  | 5 => some .sighist
  | _ => none

/-- A word belongs to row `x` when the check holds. -/
def qIf (b : Bool) (x : QRow) : Option QRow := if b then some x else none

/-- The row of an instruction word; none when the word is illegal (R98). The extension word of major 0x33 has a check of
its own (`qExtOk`). -/
def qRow (w : Nat) : Option QRow :=
  let rd := qRd w
  let rs1 := qRs1 w
  let rs2 := qRs2 w
  let f := qF7 w
  let op := bits w 5 0
  match qMajor w with
  | 0x00 => qIf (decide (f ≤ 0x0C) || decide (0x10 ≤ f ∧ f ≤ 0x16) || (decide (0x18 ≤ f ∧ f ≤ 0x1E) && rs2 == 0)) .intAlu
  | 0x01 => some .intImm
  | 0x02 => some .intImm
  | 0x03 => some .intImm
  | 0x04 => some .intImm
  | 0x05 => qIf (bits w 11 10 != 3 && bits w 9 6 == 0) .intImm
  | 0x06 => qIf (qPdOk w) .cmpi
  | 0x07 => qIf (qPdOk w) .cmpi
  | 0x08 => qIf (qPdOk w) .cmpi
  | 0x09 => qIf (qPdOk w) .cmpi
  | 0x0A => qIf (qPdOk w) .cmpi
  | 0x0B => qIf (qPdOk w) .cmpi
  | 0x0C => qIf (qPdOk w && decide (f ≤ 6)) .cmp
  | 0x0D => qIf (qPdOk w && bits w 16 15 == 0 && bits w 11 10 == 0 &&
      (decide (f ≤ 3) || (f == 4 && rs2 == 0) || ((f == 5 || f == 6) && rs1 == 0 && rs2 == 0))) .predLogic
  | 0x10 => qIf ((decide (op ≤ 7) && (op != 4 || rs2 == 0)) || (decide (8 ≤ op ∧ op ≤ 0x0D) && rs2 == 0)) .floatOp
  | 0x11 => qIf (qPdOk w && decide (op ≤ 3)) .fcmp
  | 0x14 => some .load
  | 0x15 => some .load
  | 0x16 => some .load
  | 0x17 => some .load
  | 0x18 => some .load
  | 0x19 => some .load
  | 0x1A => some .load
  | 0x1B => some .store
  | 0x1C => some .store
  | 0x1D => some .store
  | 0x1E => some .store
  | 0x20 => qSigRow w
  | 0x33 => if rs1 = 0 then qSigRow w else none
  | 0x21 => some .br
  | 0x22 => some .call
  | 0x23 => some .jr
  | 0x24 => qIf (bits w 2 0 == 0) .op
  | 0x32 => qIf (bits w 2 0 == 0 && qRo w == 0) .opx
  | 0x25 => qIf (bits w 25 22 == 0 && rd == 0 && rs2 == 0 && f == 0) .atT
  | 0x26 =>
    if bit w 16 then none
    else match f with
      | 0 => some .hstat
      | 1 => qIf (rd == 0 && rs2 == 0) .hrel
      | 2 => qIf (rd == 0 && rs2 == 0) .hcan
      | 3 => qIf (rs1 == 0 && rs2 == 0) .hmask
      | _ => none
  | 0x27 => qIf (bits w 2 0 == 0) (if bit w 3 then .waitAll else .waitAny)
  | 0x28 => qIf (rd == 0 && rs1 == 0 && rs2 == 0 && decide (f ≤ 1)) (if f = 0 then .fence else .fenceM)
  | 0x29 => some .lock
  | 0x2A => some .trylock
  | 0x2B => some .unlock
  | 0x2C =>
    match f with
    | 0x00 => qIf (rd == 0 && rs1 == 0 && rs2 == 0) .nop
    | 0x01 => qIf (rd == 0 && rs1 == 0 && rs2 == 0) .yield
    | 0x02 => qIf (rd == 0 && rs1 == 0 && rs2 == 0) .halt
    | 0x10 => qIf (rs2 == 0 && decide (rs1 ≤ 2)) .mfs
    | 0x11 => qIf (rs1 == 0 && rs2 == 0) .mfp
    | 0x12 => qIf (rd == 0 && rs2 == 0) .mtp
    | _ => none
  | 0x2D => qIf (rd == 0 && rs1 == 0) .trap
  | 0x30 => qIf (rs1 == 0 && rs2 == 0 && f == 0) .li
  | 0x31 => qIf (rs1 == 0 && rs2 == 0 && f == 0) .lih
  | _ => none

/-- The reserved bits of the extension word of a signal instruction are 0 (R117). -/
def qExtOk (w ext : Nat) : Bool := qMajor w != 0x33 || bits ext 31 18 == 0

/-- The instruction is an operation, which may follow `at` (R125). -/
def qIsOp (w : Nat) : Bool := qRow w == some .op || qRow w == some .opx

/-! ## Integer results (R100 to R104) -/

/-- Signed quotient rounded toward zero and remainder with the sign of the dividend, with the special cases of R101. -/
def qDiv (a b : Nat) : Nat :=
  if b = 0 then 2 ^ 64 - 1 else u64 (Int.tdiv (sInt 64 a) (sInt 64 b))
def qRem (a b : Nat) : Nat :=
  if b = 0 then a else u64 (Int.tmod (sInt 64 a) (sInt 64 b))

/-- Leading zeros, trailing zeros and ones of 64 bits. -/
def clz64 (a : Nat) : Nat := if a = 0 then 64 else 63 - Nat.log2 a
def ctz64 (a : Nat) : Nat := ((List.range 64).find? fun i => bit a i).getD 64
def popc64 (a : Nat) : Nat := ((List.range 64).filter fun i => bit a i).length

/-- The result of an R-format integer instruction (R100, R101). -/
def intAlu (f a b : Nat) : Nat :=
  let m := 2 ^ 64
  match f with
  | 0x00 => (a + b) % m
  | 0x01 => (a + m - b) % m
  | 0x02 => a &&& b
  | 0x03 => a ||| b
  | 0x04 => a ^^^ b
  | 0x05 => a &&& (m - 1 - b)
  | 0x06 => (a <<< (b % 64)) % m
  | 0x07 => a >>> (b % 64)
  | 0x08 => u64 (sInt 64 a >>> (b % 64))
  | 0x09 => if sInt 64 a ≤ sInt 64 b then a else b
  | 0x0A => if sInt 64 a ≤ sInt 64 b then b else a
  | 0x0B => min a b
  | 0x0C => max a b
  | 0x10 => (a * b) % m
  | 0x11 => u64 ((sInt 64 a * sInt 64 b) >>> 64)
  | 0x12 => (a * b) >>> 64
  | 0x13 => qDiv a b
  | 0x14 => if b = 0 then m - 1 else a / b
  | 0x15 => qRem a b
  | 0x16 => if b = 0 then a else a % b
  | 0x18 => clz64 a
  | 0x19 => ctz64 a
  | 0x1A => popc64 a
  | 0x1B => u64 (sInt 8 a)
  | 0x1C => u64 (sInt 16 a)
  | 0x1D => u64 (sInt 32 a)
  | _ => a % 2 ^ 32

/-- Cycles of an R-format integer instruction (R139). -/
def intCycles (f : Nat) : Nat :=
  if 0x10 ≤ f ∧ f ≤ 0x12 then 4 else if 0x13 ≤ f ∧ f ≤ 0x16 then 36 else 1

/-- The result of an I-format integer instruction (R102). -/
def intImm (major a : Nat) (w : Nat) : Nat :=
  let imm := u64 (qImm12 w)
  match major with
  | 0x01 => (a + imm) % 2 ^ 64
  | 0x02 => a &&& imm
  | 0x03 => a ||| imm
  | 0x04 => a ^^^ imm
  | _ =>
    let k := bits w 5 0
    match bits w 11 10 with
    | 0 => (a <<< k) % 2 ^ 64
    | 1 => a >>> k
    | _ => u64 (sInt 64 a >>> k)

/-- The conditions of R103 and R104. -/
def qCond (f a b : Nat) : Bool :=
  match f with
  | 0 => decide (a = b)
  | 1 => decide (a ≠ b)
  | 2 => decide (sInt 64 a < sInt 64 b)
  | 3 => decide (sInt 64 b ≤ sInt 64 a)
  | 4 => decide (a < b)
  | 5 => decide (b ≤ a)
  | _ => decide (a &&& b ≠ 0)

/-- The predicate results of R105. -/
def qPred (f : Nat) (a b : Bool) : Bool :=
  match f with
  | 0 => a && b
  | 1 => a || b
  | 2 => a != b
  | 3 => a && !b
  | 4 => !a
  | 5 => true
  | _ => false

end Sys2Proof.Machine
end

