-- ==== Sys2Proof/Machine/Sp.lean ====
section
/-!
DEFINITION. Threads, handles, hardware locks, scheduling and thread faults (04_operations.md, R140 to R150, R174 to
R184), and the registers of the SP cluster that act on them.
-/
namespace Sys2Proof.Machine

variable {s₀ : State}

/-! ## Threads and their registers (R87, R90) -/

/-- A thread. -/
def State.thread (s : State) (t : Nat) : Thread := tget {} t s.sp.threads
def Run.setThread (r : Run s₀) (t : Nat) (x : Thread) : Run s₀ :=
  r.mapSp fun p => { p with threads := tset {} t x p.threads }

/-- General register: g0 reads 0 and discards writes (R87). -/
def Thread.gr (x : Thread) (i : Nat) : Nat := if i = 0 then 0 else (tget 0 i x.g).toNat
def Thread.setG (x : Thread) (i v : Nat) : Thread :=
  if i = 0 then x else { x with g := tset 0 i (BitVec.ofNat 64 v) x.g }

/-- Predicate: p0 reads 1 and discards writes (R87). -/
def Thread.pr (x : Thread) (i : Nat) : Bool := i == 0 || x.p.getLsbD i
def Thread.setP (x : Thread) (i : Nat) (b : Bool) : Thread :=
  if i = 0 then x else { x with p := BitVec.ofNat 8 (putBits x.p.toNat i i (b2n b)) }

/-- Handle register. -/
def Thread.handle (x : Thread) (k : Nat) : Handle := tget .free k x.k
def Thread.setHandle (x : Thread) (k : Nat) (h : Handle) : Thread := { x with k := tset .free k h x.k }

/-- The handle is PENDING or DONE. -/
def Handle.isPending : Handle → Bool
  | .pending _ => true
  | _ => false
def Handle.isDone : Handle → Bool
  | .done _ => true
  | _ => false

/-- Masks of the handles that are DONE and PENDING. -/
def Thread.doneMask (x : Thread) : Nat := ((List.range 16).map fun k => b2n (x.handle k).isDone <<< k).sum
def Thread.pendMask (x : Thread) : Nat := ((List.range 16).map fun k => b2n (x.handle k).isPending <<< k).sum

/-- A record as its 16 bytes (R154). -/
def OpRec.bytes (c : OpRec) : List Byte :=
  bytesLE 1 c.status.code ++ bytesLE 1 c.cause ++ bytesLE 1 (c.uflags + c.unit) ++ bytesLE 1 c.code ++ bytesLE 4 c.tag
    ++ bytesLE 4 c.stamp ++ bytesLE 4 c.obj

/-- The guard of an instruction holds (R96). -/
def Thread.guardOk (x : Thread) (w : Nat) : Bool := x.pr (bits w 24 22) != bit w 25

/-! ## What a thread waits for -/

/-- Operations in flight of a thread, orphans of an earlier life left out. -/
def State.opsOf (s : State) (t : Nat) : List Op := s.sp.ops.filter fun o => o.tid == t && !o.orphan

/-- Posted stores of a thread not yet acknowledged; those of an earlier life of it do not count (DESIGN CHOICE, log 55). -/
def Thread.outstanding (x : Thread) : List Posted := x.posted.filter fun q => !q.orphan

/-- Operations in flight on a processor, orphans included (R123). -/
def State.procInflight (s : State) (p : Nat) : Nat := (s.sp.ops.filter fun o => decide (o.tid < 64) && o.tid / 8 == p).length

/-- The condition of a `wait` (R127). -/
def Thread.waitMet (x : Thread) (all : Bool) (m : Nat) : Bool :=
  (x.pendMask &&& m) == 0 || (!all && (x.doneMask &&& m) != 0)

/-- A wait returns (R127): pd, and the DONE handles of the mask in rd; the thread goes on. -/
def Thread.waitReturn (x : Thread) (cyc m pd rd : Nat) (met : Bool) : Thread :=
  let x := (x.setP pd met).setG rd (x.doneMask &&& m % 2 ^ 16)
  { x with wait := .none, pc := x.pc + 4, readyAt := max x.readyAt (cyc + 1) }

/-- The condition of a fence (R129). -/
def State.fenceMet (s : State) (t : Nat) (stores : Bool) : Bool :=
  (s.thread t).outstanding.isEmpty && (stores || (s.opsOf t).isEmpty)

/-- A waiting thread looks again at what it waits for: `wait` and `fence` return once their condition holds; a wait whose
deadline has passed by then has timed out (R128). -/
def Run.spWake (r : Run s₀) (t : Nat) : Run s₀ :=
  let x := r.s.thread t
  match x.wait with
  | .wait all m deadline pd rd =>
    if x.waitMet all m then r.setThread t (x.waitReturn r.s.cyc m pd rd (decide (r.s.now ≤ deadline))) else r
  | .fence stores =>
    if x.refused.isSome then r.setThread t { x with wait := .none, readyAt := max x.readyAt (r.s.cyc + 1) }
    else if r.s.fenceMet t stores then
      r.setThread t { x with wait := .none, pc := x.pc + 4, readyAt := max x.readyAt (r.s.cyc + 1) }
    else r
  | _ => r

/-! ## Hardware locks (R130 to R132, R174 to R177) -/

/-- A lock. -/
def State.hwlock (s : State) (n : Nat) : HwLock := tget {} n s.sp.locks
def Run.setLock (r : Run s₀) (n : Nat) (l : HwLock) : Run s₀ :=
  r.mapSp fun p => { p with locks := tset {} n l p.locks }

/-- A lock is released; the first waiter takes it, with status BROKEN when it was released as broken (R131, R175). -/
def Run.lockRelease (r : Run s₀) (n : Nat) (broken : Bool) : Run s₀ :=
  match (r.s.hwlock n).waiters with
  | [] => r.setLock n { broken := broken }
  | t :: rest =>
    let r := r.setLock n { owner := some t, waiters := rest }
    let x := r.s.thread t
    match x.wait with
    | .lock _ rd =>
      let x := x.setG rd (if broken then Status.broken.code else Status.ok.code)
      r.setThread t { x with wait := .none, pc := x.pc + 4, readyAt := max x.readyAt (r.s.cyc + 1) }
    | _ => r

/-- A held lock is released as broken (R174). -/
def Run.lockBreak (r : Run s₀) (n : Nat) : Run s₀ := (r.flag Reg.spEvstat 2).lockRelease n true

/-! ## Leaving RUNNING, starting, faults (R141 to R145, R178 to R180) -/

/-- A thread leaves RUNNING: its operations become orphans, its locks are released as broken, and it leaves the queues of
locks it waits for (R143, R174, R175). -/
def Run.threadEnd (r : Run s₀) (t : Nat) (st : ThreadState) : Run s₀ :=
  let x := r.s.thread t
  let r := r.setThread t { x with
    state := st, wait := .none, refused := none, posted := x.posted.map fun q => { q with orphan := true } }
  let r := r.mapSp fun p => { p with
    ops := p.ops.map fun o => if o.tid = t then { o with orphan := true } else o
    locks := p.locks.map fun e => (e.1, { e.2 with waiters := e.2.waiters.filter (· != t) }) }
  r.each (r.s.sp.locks.filter fun e => e.2.owner == some t) fun r e => r.lockBreak e.1

/-- The bit of a thread in SP_FAULTED_LO or _HI, or in SP_CMPL_LO or _HI. -/
def Run.threadBit (r : Run s₀) (lo t : Nat) (b : Bool) : Run s₀ := r.wb (lo + 4 * (t / 32)) (t % 32) b

/-- A thread starts (R141, R90). -/
def Run.threadStart (r : Run s₀) (t : Nat) : Run s₀ :=
  let x := r.s.thread t
  (r.setThread t { state := .running, pc := r.s.rf (Reg.spTEntry t) 17 0, readyAt := r.s.cyc + 1, restarts := x.restarts, dbgHold := x.dbgHold,
                   posted := x.posted.map fun q => { q with orphan := true } }).threadBit Reg.spFaultedLo t false

/-- A start by `start` or by autostart; `restarts` returns to 0 (R180). -/
def Run.threadStartNew (r : Run s₀) (t : Nat) : Run s₀ :=
  (r.setThread t { r.s.thread t with restarts := 0 }).threadStart t

/-- Every thread with `autostart` starts (R144). -/
def Run.autostart (r : Run s₀) : Run s₀ :=
  r.each (List.range 64) fun r t => if r.s.rb (Reg.spTCfg t) 31 then r.threadStartNew t else r

/-- The fault codes of R137. -/
inductive FaultCode where
  | illegal | ifetch | misalign | buserr | memecc | handle | trap
deriving DecidableEq, Repr

def FaultCode.code : FaultCode → Nat
  | .illegal => 1 | .ifetch => 2 | .misalign => 3 | .buserr => 4 | .memecc => 5 | .handle => 6 | .trap => 7

/-- A thread raises a fault (R178, R179): the record, the end of the thread, the flag, and the wait for a restart. -/
def Run.threadFault (r : Run s₀) (t : Nat) (c : FaultCode) (pc addr trapCode : Nat) (imprecise : Bool) : Run s₀ :=
  let r := r.wr (Reg.spTFcode t) (b2n imprecise <<< 31 + trapCode <<< 16 + c.code)
  let r := ((r.wr (Reg.spTFpc t) pc).wr (Reg.spTFaddrLo t) (addr % 2 ^ 32)).wr (Reg.spTFaddrHi t) (bits addr 39 32)
  let r := ((r.threadEnd t .faulted).threadBit Reg.spFaultedLo t true).flag Reg.spEvstat 0
  let x := r.s.thread t
  if r.s.rf (Reg.spTCfg t) 5 4 = 1 ∧ x.restarts < r.s.rf (Reg.spTCfg t) 11 8 then
    r.setThread t { x with restartFrom := some r.s.cyc }
  else r

/-- FAULT_RESTART: the restart of a faulted thread (R179). -/
def execFaultRestart (t : Nat) (s : State) : Out :=
  let r := Run.start s
  let x := s.thread t
  if x.restartFrom.isSome ∧ x.state = .faulted then
    ((r.setThread t { x with restarts := x.restarts + 1 }).threadStart t).done
  else r.done

/-! ## Registers (R141, R142, R174) -/

/-- A write of SP_Tt_CTRL: `stop`, then `start`; without effect while a warm restart is in progress (R141, R142, R183). -/
def Run.writeSpCtrl (r : Run s₀) (t v : Nat) : Run s₀ :=
  if r.s.sp.restart.isSome then r
  else
    let r := if bit v 1 && (r.s.thread t).state == .running then r.threadEnd t .stopped else r
    if bit v 0 then
      (if (r.s.thread t).state = .running then r.flag Reg.spEvstat 4 else r.threadStartNew t)
    else r

/-- THREAD_START and THREAD_STOP: SP_Tt_CTRL is written with `start`, or with `stop` (R141, R142). -/
def execThreadStart (t : Nat) (s : State) : Out := ((Run.start s).writeSpCtrl t 1).done
def execThreadStop (t : Nat) (s : State) : Out := ((Run.start s).writeSpCtrl t 2).done

/-- A write of SP_LOCKn: `force_break` releases a held lock as broken (R174). -/
def Run.writeSpLock (r : Run s₀) (n v : Nat) : Run s₀ :=
  if bit v 29 && (r.s.hwlock n).owner.isSome then r.lockBreak n else r

/-- LOCK_FORCE_BREAK (R174). -/
def execLockForceBreak (n : Nat) (s : State) : Out := ((Run.start s).writeSpLock n (2 ^ 29)).done

/-! ## Scheduling (R146 to R149) -/

/-- An instruction that R115 holds until every earlier posted store has been acknowledged. `fence` issues and waits. -/
def heldByStores (own : Bool) (x : QRow) : Bool :=
  match x with
  | .load => !own
  | .sigrd | .sigwr | .sigwrt | .sigasH | .sigasI | .sighist | .op | .opx | .atT | .unlock => true
  | _ => false

/-- Address of an instruction word of a processor's memory, and the word (R87). -/
def imemAddr (t pc : Nat) : Nat := 0x3400000 + (t / 8) * 0x40000 + pc
def State.imem (s : State) (t pc : Nat) : Nat := ofBytesLE ((List.range 4).map fun i => s.byte (imemAddr t pc + i))

/-- Effective address of a load or store (R112), and whether it lies in the own data memory (R113). -/
def Thread.ea (x : Thread) (w : Nat) : Nat := (x.gr (qRs1 w) + u64 (qImm12 w)) % 2 ^ 64
def ownDmem (t a : Nat) : Bool := decide (0x3600000 + (t / 8) * 0x80000 ≤ a ∧ a < 0x3600000 + (t / 8 + 1) * 0x80000)

/-- The issue of an operation is held by R123: its handle is not PENDING and the processor has 64 in flight. -/
def State.opHeld (s : State) (t : Nat) (x : Thread) (kd : Nat) : Bool :=
  !(x.handle kd).isPending && decide (64 ≤ s.procInflight (t / 8))

/-- A signal instruction. -/
def QRow.isSig : QRow → Bool
  | .sigrd | .sigwr | .sigwrt | .sigasH | .sigasI | .sighist => true
  | _ => false

/-- Every bank can serve a request at once. -/
def State.banksIdle (s : State) : Bool :=
  decide (s.noticeLevel + s.sig.stage.length + s.sig.queue.length + s.sig.held.length < 256)

/-- The bank of a signal cannot serve an instruction yet (R139, R213). -/
def State.bankShut (s : State) (i : Nat) : Bool := decide (i < 2 ^ 18) && !s.banksOpen [i]

/-- Why the issue of the next instruction is held: 0 not held, 1 by a bank that back-pressures (R213), 5 by R123, 7 by R114
or R115. -/
def State.held (s : State) (t : Nat) : Nat :=
  let x := s.thread t
  let w := s.imem t x.pc
  if x.outstanding.isEmpty ∧ s.procInflight (t / 8) < 64 ∧ s.banksIdle then 0
  else if x.refused.isSome ∨ 0x40000 ≤ x.pc then 0
  else
    let w2 := s.imem t (x.pc + 4)
    let wg := if qRow w = some .atT then w2 else w
    if !x.guardOk wg then 0
    else match qRow w with
    | none => 0
    | some .store => if !ownDmem t (x.ea w) ∧ 8 ≤ x.outstanding.length then 7 else 0
    | some q =>
      let isOp := q == .op || q == .opx || q == .atT
      if heldByStores (ownDmem t (x.ea w)) q && !x.outstanding.isEmpty then 7
      else if q.isSig && s.bankShut (if qMajor w = 0x33 then w2 % 2 ^ 18 else x.gr (qRs1 w)) then 1
      else if isOp && s.opHeld t x (qKd wg) then 5
      else 0

/-- A thread has an operation whose descriptor its unit has not read yet (R124). -/
def State.descWait (s : State) (t : Nat) : Bool := s.sp.ops.any fun o => o.tid == t && !o.orphan && !o.accepted && o.out.isNone

/-- The thread is ready (R146). -/
def State.threadReady (s : State) (t : Nat) : Bool :=
  let x := s.thread t
  x.state == .running && decide (x.readyAt ≤ s.cyc) && x.wait == .none && (!x.dbgHold || x.dbgStep) && !s.descWait t
    && s.held t == 0

/-- The threads of a processor. -/
def procThreads (p : Nat) : List Nat := (List.range 8).map fun j => p * 8 + j

/-- The ready threads of a processor. -/
def State.readyOf (s : State) (p : Nat) : List Nat := (procThreads p).filter fun t => s.threadReady t

def State.prioOf (s : State) (t : Nat) : Nat := s.rf (Reg.spTCfg t) 1 0

/-- A processor that has issued in this cycle issues no more (R147). -/
def State.slotFree (s : State) (p : Nat) : Bool := tget 0 p s.sp.issued != s.cyc + 1

/-- The largest of a list under a key, the first of equal ones. -/
def argMax (key : Nat → Nat) : List Nat → Option Nat
  | [] => none
  | a :: t => match argMax key t with
    | none => some a
    | some b => if key a < key b then some b else some a

/-- The thread from which a processor issues (R147), and whether the slot is forced. Before a level has issued, its thread 0
comes first (DESIGN CHOICE, log 55). -/
def State.pick (s : State) (p : Nat) : Option (Nat × Bool) :=
  let l := s.readyOf p
  match argMax (fun t => (s.thread t).starve) (l.filter fun t => decide (4096 < (s.thread t).starve)) with
  | some t => some (t, true)
  | none =>
    match argMax s.prioOf l with
    | none => none
    | some b =>
      let q := s.prioOf b
      let lv := l.filter fun t => s.prioOf t == q
      let last := tget 7 (p * 4 + q) s.sp.lastAt
      -- round-robin: the first after the thread that last issued at that level
      (argMax (fun t => 7 - (t % 8 + 7 - last) % 8) lv).map fun t => (t, false)

/-- A thread has its issue slot in this cycle; in BOOT, LOAD and SAFE_HOLD, and under Fawn, no thread runs (R35). -/
def State.mayIssue (s : State) (t : Nat) : Bool :=
  s.blocksRun && s.slotFree (t / 8) && s.sp.restart.isNone && (match s.pick (t / 8) with | some (x, _) => x == t | none => false)

/-- A forced slot is counted (R148). -/
def Run.slotForced (r : Run s₀) (p : Nat) : Run s₀ :=
  match r.s.pick p with
  | some (_, true) => (r.count Reg.spForced 31 0).flag Reg.spEvstat 3
  | _ => r

/-- The processor has issued in this cycle, from `t`: the order of the level goes on, and `t` no longer starves. -/
def Run.slotTaken (r : Run s₀) (t : Nat) : Run s₀ :=
  let p := t / 8
  let q := r.s.prioOf t
  let x := r.s.thread t
  (r.mapSp fun sp => { sp with
    issued := tset 0 p (r.s.cyc + 1) sp.issued, lastAt := tset 7 (p * 4 + q) (t % 8) sp.lastAt }).setThread t
      { x with starve := 0, dbgStep := false }

/-- A thread `u` that has yielded no longer waits for `t`, which has issued (R149). -/
def Run.yieldSeen (r : Run s₀) (t u : Nat) : Run s₀ :=
  let x := r.s.thread u
  match x.wait with
  | .yield l =>
    let l := l.filter (· != t)
    r.setThread u { x with
      wait := if l.isEmpty then .none else .yield l
      readyAt := max x.readyAt (if l.isEmpty then r.s.cyc + 1 else 0) }
  | _ => r

/-- The slot is used: starvation counts, forced slots, the order of the level, and yields that waited for this thread
(R146 to R149). -/
def Run.useSlot (r : Run s₀) (t : Nat) : Run s₀ :=
  ((r.slotForced (t / 8)).slotTaken t).each (procThreads (t / 8)) fun r u => r.yieldSeen t u

/-- A SYS cycle ends for the threads: a ready thread that has not issued starves by one, and a yield no longer waits for
threads that have stopped being ready (R146, R149). -/
def Run.spCycle (r : Run s₀) : Run s₀ :=
  let s := r.s
  r.each s.sp.threads fun r e =>
    let t := e.1
    let x := s.thread t
    match x.wait with
    | .yield l =>
      let l := l.filter fun u => s.threadReady u
      r.setThread t { x with wait := if l.isEmpty then .none else .yield l }
    | _ => if s.threadReady t then r.setThread t { x with starve := x.starve + 1 } else r

/-! ## Warm restart (R182, R183) -/

/-- The registers that a warm restart keeps: all but the SP_ window, and there SP_Tt_CFG and SP_Tt_ENTRY. -/
def warmKeep : List (Nat × Nat) :=
  [(0, 0x402FFFF)] ++ (List.range 64).map (fun t => (Reg.spTCfg t, Reg.spTEntry t)) ++ [(0x4040000, 2 ^ 40)]

/-- What R182 does to an operation in flight. -/
def State.opRestart (s : State) (o : Op) : Op :=
  -- the descriptor of an operation that its unit has not accepted yet is read now
  let flags := if o.accepted then o.flags else s.memNat (o.rdesc + 1) 1
  let o := { o with orphan := true }
  let stop (cause : Nat) : Op :=
    { o with acted := true, out := some { status := .aborted, cause := cause, unit := o.unit, code := o.code, tag := o.tag,
                                          stamp := s.now32, obj := o.obj } }
  if o.out.isSome then o
  else if o.unit = 7 then stop 3
  else if (match o.time with | some t => decide (s.now < t) | none => false) && !o.late && !o.due && !o.acted
      && !bit flags 1 then stop 2
  else o

/-- The SP cluster in a warm restart (R182): threads and operations, then its registers, then the held locks. -/
def Run.spRestart (r : Run s₀) : Run s₀ :=
  let p := r.s.sp
  let s := r.s
  let orphans (x : Thread) : Thread := { posted := x.posted.map fun q => { q with orphan := true } }
  let r := r.up (.sp { p with
    threads := (p.threads.map fun e => (e.1, orphans e.2)).filter fun e => !e.2.posted.isEmpty
    ops := p.ops.map s.opRestart, cyc0 := s.cyc, issued := [], lastAt := []
    locks := (p.locks.filter fun e => e.2.owner.isSome).map fun e => (e.1, { e.2 with waiters := [], broken := false })
    warmAsk := none, restart := some (p.warmAsk.getD s.cyc + usCyc 2) })
  let r := r.up (.regsKeep warmKeep)
  r.each (p.locks.filter fun e => e.2.owner.isSome) fun r e => r.lockBreak e.1

end Sys2Proof.Machine
end

