-- ==== Sys2Proof/Machine/Dma.lean ====
section
/-!
DEFINITION. The DMA engine (15_mesh_host.md, R567 to R569), unit 7: its checks, bursts and ends.
-/
namespace Sys2Proof.Machine

variable {s₀ : State}

/-- The Mesh state changed. -/
def Run.mapMesh (r : Run s₀) (f : MeshSt → MeshSt) : Run s₀ := r.up (.mesh (f r.s.mesh))

/-- The operation that a channel carries out. -/
def State.dmaRun (s : State) (c : Nat) : Option DmaRun := tget none c s.mesh.dma
def Run.setDma (r : Run s₀) (c : Nat) (x : Option DmaRun) : Run s₀ := r.mapMesh fun m => { m with dma := tset none c x m.dma }

/-- A range lies wholly in memory that DMA may use; the signal-store window as a source only (R568 check 2). -/
def dmaRange (a n : Nat) (src : Bool) : Bool :=
  n == 0 ||
  (decide (regionOf a = regionOf (a + n - 1)) && match regionOf a with
   | .sram | .le | .spD _ | .ddr | .host _ => true
   | .sigRaw => src
   | _ => false)

/-- SP data memories lie side by side, so a range may span several; so do the outbound windows (R568, R570). -/
def dmaRangeOk (a n : Nat) (src : Bool) : Bool :=
  dmaRange a n src || (decide (0x3600000 ≤ a) && decide (a + n ≤ 0x3A00000))
    || (decide (0x1000000000 ≤ a) && decide (a + n ≤ 0x2000000000))

/-- A destination that R26 does not let DMA write (R568 check 3): a live context's block of LE local memory. -/
def State.dmaDenied (s : State) (a n : Nat) : Bool :=
  regionOf a == .le && !((List.range n).all fun i => s.leWritable (a + i))

/-- A move of a COPY or FILL payload. -/
def dmaMove (fill : Bool) (d : List Byte) : DmaEntry :=
  { fill := fill, src := recNat d 0 8, dst := recNat d 8 8, len := recNat d 16 4 }

/-- The moves of a CHAIN list, with the kind of each (R568). -/
def dmaList : Nat → List Byte → List (Nat × DmaEntry)
  | 0, _ => []
  | n + 1, d => (recNat d 20 1, dmaMove (recNat d 20 1 == 2) d) :: dmaList n (d.drop 24)

/-- The checks of R568 over all moves: kinds, ranges, destinations. -/
def State.dmaChecks (s : State) (l : List (Nat × DmaEntry)) : Option Status :=
  if !(l.all fun e => e.1 == 1 || e.1 == 2) then some .cfgerr
  else if !(l.all fun e => (e.2.fill || dmaRangeOk e.2.src e.2.len true) && dmaRangeOk e.2.dst e.2.len false) then some .cfgerr
  else if l.any fun e => s.dmaDenied e.2.dst e.2.len then some .denied
  else none

/-- The result of an operation (R568): bytes moved; for a CHAIN entries done and bytes moved in the last entry. -/
def DmaRun.result (x : DmaRun) : List Byte :=
  if x.chain then bytesLE 4 x.done ++ bytesLE 4 x.moved else bytesLE 4 x.moved

/-- The channel carries out no operation and `o` is the first in its order (R567, R161, R163). -/
def State.dmaFirst (s : State) (o : Op) : Bool :=
  (s.dmaRun o.obj).isNone && !(s.sp.ops.any fun x => decide (x.acc < o.acc) && x.unit == 7 && x.obj == o.obj && x.accepted
    && x.out.isNone && s.opReady x)

/-- An operation starts on its channel, or ends with what the checks give (R568). -/
def Run.dmaStart (r : Run s₀) (o : Op) (chain : Bool) (cls : Nat) (l : List (Nat × DmaEntry)) (empty : Bool) : Run s₀ :=
  match r.s.dmaChecks l with
  | some st => r.opFin o st 0 []
  | none =>
    if empty then r.opFin o .empty 0 []
    else (r.setDma o.obj (some { op := o.id, chain := chain, cls := cls, entries := l.map (·.2) })).opAct o

/-- COPY and FILL act (R568). -/
def Run.actDmaMove (fill : Bool) (r : Run s₀) (o : Op) : Run s₀ :=
  if !r.s.dmaFirst o then r
  else
    let cls := recNat o.payload 20 1 % 4
    let e := dmaMove fill o.payload
    if cls = 3 then r.opFin o .cfgerr 0 []
    else r.dmaStart o false cls [(if fill then 2 else 1, e)] (e.len == 0)

/-- CHAIN acts (R568). The list is read as its port would; a refused read ends with FAULT. -/
def Run.actDmaChain (r : Run s₀) (o : Op) : Run s₀ :=
  if !r.s.dmaFirst o then r
  else
    let cls := recNat o.payload 10 1 % 4
    let n := recNat o.payload 8 2
    if cls = 3 ∨ 256 < n then r.opFin o .cfgerr 0 []
    else if n = 0 then r.opFin o .empty 0 []
    else
      let a := recNat o.payload 0 8
      match (if 2 ^ 40 ≤ a then (r, Status.fault, []) else r.memRead 13 a (24 * n)) with
      | (r, .ok, d) => r.dmaStart o true cls (dmaList n d) false
      | (r, _, _) => r.opFin o .fault 0 []

/-- A channel's operation ends: the flags and the channel's status (R569, R567). -/
def Run.dmaDone (r : Run s₀) (c : Nat) (st : Status) : Run s₀ :=
  let r := (r.flag Reg.meshEvstat 5).when (decide (0x10 ≤ st.code)) fun r => r.flag Reg.meshEvstat 6
  if c < 8 then r.wf (Reg.meshDmaStat c) 31 24 st.code else r

/-- The operation of a channel ends with a status. -/
def Run.dmaEnd (r : Run s₀) (c : Nat) (x : DmaRun) (st : Status) (cause : Nat) : Run s₀ :=
  let r := r.setDma c none
  match r.s.op x.op with
  | none => r
  | some o => r.opFin o (if st = .ok then o.okSt else st) cause x.result

/-- Bytes of the next burst: up to 256, within one aligned block of the source and of the destination (R545, R569). -/
def DmaEntry.burst (e : DmaEntry) (moved : Nat) : Nat :=
  let d := 256 - (e.dst + moved) % 256
  let s := if e.fill then 256 else 256 - (e.src + moved) % 256
  min (e.len - moved) (min d s)

/-- The pattern of a FILL at an address (R568). -/
def fillBytes (pat a n : Nat) : List Byte := (List.range n).map fun i => BitVec.ofNat 8 (pat >>> (8 * ((a + i) % 8)))

/-- One burst of a channel: it is read whole, then written (R569). -/
def Run.dmaBurst (r : Run s₀) (c : Nat) : Run s₀ :=
  match r.s.dmaRun c with
  | none => r
  | some x =>
    if x.cancel then r.dmaEnd c x .aborted 0x01
    else match x.entries[x.done]? with
    | none => r.dmaEnd c x .ok 0
    | some e =>
      let n := e.burst x.moved
      let dst := e.dst + x.moved
      let (r, st, d) :=
        if n = 0 then (r, Status.ok, [])
        else if e.fill then (r, Status.ok, fillBytes e.src dst n)
        else r.memRead 13 (e.src + x.moved) n
      if st ≠ .ok then r.dmaEnd c x .fault 0
      else
        let (r, st) := r.memWrite 13 dst d
        if st ≠ .ok then r.dmaEnd c x .fault 0
        else
          let moved := x.moved + n
          if moved < e.len then r.setDma c (some { x with moved := moved })
          else if x.done + 1 < x.entries.length then r.setDma c (some { x with done := x.done + 1, moved := 0 })
          else r.dmaEnd c { x with done := x.done + 1, moved := moved } .ok 0

/-- DMA_BURST (R569). -/
def execDmaBurst (c : Nat) (s : State) : Out := ((Run.start s).dmaBurst c).done

/-- DMA_COPY, DMA_FILL, DMA_CHAIN: the operation of number `id` acts on its channel. -/
def execDmaCopy (id : Nat) (s : State) : Out := ((Run.start s).opRow id 7 1 (Run.actDmaMove false)).done
def execDmaFill (id : Nat) (s : State) : Out := ((Run.start s).opRow id 7 2 (Run.actDmaMove true)).done
def execDmaChain (id : Nat) (s : State) : Out := ((Run.start s).opRow id 7 3 Run.actDmaChain).done

/-- `hcan` on a running operation stops it at its next burst boundary (R569). -/
def Run.dmaCancel (r : Run s₀) (o : Op) : Run s₀ :=
  match r.s.dmaRun o.obj with
  | some x => if x.op = o.id then r.setDma o.obj (some { x with cancel := true }) else r
  | none => r

/-- A write of `go` (R567): refused while the channel has an operation running or queued; otherwise the descriptor goes to
the channel. It has no thread: its number is 64. -/
def Run.dmaGo (r : Run s₀) (c : Nat) : Run s₀ :=
  if r.s.sp.ops.any fun o => o.unit == 7 && o.obj == c then r.flag Reg.meshEvstat 7
  else
    let id := r.s.sp.nextOp
    r.mapSp fun p => { p with
      nextOp := id + 1
      ops := p.ops ++ [{ id := id, tid := 64, k := 0, unit := 7, obj := c,
                         rdesc := r.s.rget64 (Reg.meshDmaDescLo c) (Reg.meshDmaDescHi c) }] }

/-- DMA_GO (R567). -/
def execDmaGo (c : Nat) (s : State) : Out := ((Run.start s).dmaGo c).done

end Sys2Proof.Machine
end

