-- ==== Sys2Proof/Machine/Evc.lean ====
section
/-!
DEFINITION. The event controller (15_mesh_host.md, R572 to R574): levels of the 128 event sources under the rules of
their blocks, vectors, requests, MSI-X messages and the pending bits.
-/
namespace Sys2Proof.Machine

variable {s₀ : State}

/-- The flags that raise a source: EVSTAT registers with masks of their flags; the enable register follows each EVSTAT
(R572 and the rules it names). -/
def evSource (e : Nat) : List (Nat × Nat) :=
  if e < 8 then [(Reg.spEvstat, 1 <<< e)]
  else if e < 12 then [(Reg.leEvstat, 1 <<< (e - 8))]
  else if e < 32 then
    match e with
    | 12 => [(Reg.leEvstat, 0x30)] | 13 => [(Reg.leEvstat, 0x40)] | 14 => [(Reg.leEvstat, 0x80)]
    | 15 => [(Reg.leEvstat, 0x300)]
    | 16 => [(Reg.sigEvstat, 0x1)] | 17 => [(Reg.sigEvstat, 0x6)] | 18 => [(Reg.sigEvstat, 0x8)]
    | 19 => [(Reg.sigEvstat, 0x10)] | 20 => [(Reg.sigEvstat, 0x20)] | 21 => [(Reg.sigEvstat, 0x40)]
    | 22 => [(Reg.sigEvstat, 0x80)] | 23 => [(Reg.sigEvstat, 0x100)]
    | 24 => [(Reg.captEvstat, 0x1)] | 25 => [(Reg.captEvstat, 0x2)] | 26 => [(Reg.captEvstat, 0x4)]
    | 27 => [(Reg.captEvstat, 0x18)] | 28 => [(Reg.captEvstat, 0x20)] | 29 => [(Reg.captEvstat, 0x40)]
    | 30 => [(Reg.captEvstat, 0x80)] | _ => [(Reg.captEvstat, 0x100)]
  else if e < 40 then (List.range 6).map fun i => (Reg.axEvstat (6 * (e - 32) + i), 0x1FF)
  else if e < 48 then
    ((List.range 6).map fun i => (Reg.motEvstat (6 * (e - 40) + i), 0x1FD)) ++ (if e = 47 then [(Reg.vmEvstat, 0x1F)] else [])
  else if e < 54 then [(Reg.adcEvstat (2 * (e - 48)), 0xFF), (Reg.adcEvstat (2 * (e - 48) + 1), 0xFF)]
  else if e < 72 then
    match e with
    | 54 => [(Reg.sdfEvstat, 0x1)] | 55 => [(Reg.sdfEvstat, 0x6)]
    | 64 => [(Reg.herdEvstat, 0x401F00)] | 65 => [(Reg.herdEvstat, 0x2000)] | 66 => [(Reg.herdEvstat, 0xC000)]
    | 67 => [(Reg.herdEvstat, 0x30000)] | 68 => [(Reg.herdEvstat, 0x40000)] | 69 => [(Reg.herdEvstat, 0x80000)]
    | 70 => [(Reg.herdEvstat, 0x100000)] | 71 => [(Reg.herdEvstat, 0x200000)]
    | _ => [(Reg.herdEvstat, 1 <<< (e - 56))]
  else if e < 80 then
    let a := Reg.ethEvstat ((e - 72) / 4)
    match (e - 72) % 4 with
    | 0 => [(a, 0x3)] | 1 => [(a, 0x4)] | 2 => [(a, 0x88)] | _ => [(a, 0x70)]
  else if e < 88 then [(Reg.canEvstat ((e - 80) / 2), if e % 2 = 0 then 0x7 else 0xFF8)]
  else if e < 96 then [(Reg.psEvstat, 1 <<< (e - 88))]
  else
    match e with
    | 101 => [(Reg.chmEvstat, 0x60)] | 102 => [(Reg.chmEvstat, 0x380)] | 103 => [(Reg.chmEvstat, 0x1C00)]
    | 104 => [(Reg.redEvstat, 0x7)] | 105 => [(Reg.redEvstat, 0x38)] | 106 => [(Reg.redEvstat, 0x1C0)]
    | 107 => [(Reg.redEvstat, 0x200)]
    | 108 => [(Reg.bhrEvstat, 0x1)] | 109 => [(Reg.bhrEvstat, 0x2)] | 110 => [(Reg.bhrEvstat, 0x4)]
    | 111 => [(Reg.bhrEvstat, 0x18)] | 112 => [(Reg.bhrEvstat, 0xE0)] | 113 => [(Reg.bhrEvstat, 0x100)]
    | 114 => [(Reg.bhrEvstat, 0xE00)] | 115 => [(Reg.bhrEvstat, 0x3000)]
    | 116 => [(Reg.meshEvstat, 0x1)] | 117 => [(Reg.meshEvstat, 0x6)] | 118 => [(Reg.meshEvstat, 0x18)]
    | 119 => [(Reg.meshEvstat, 0xE0)]
    | 120 => [(Reg.timeEvstat, 0x1)] | 121 => [(Reg.timeEvstat, 0xE)] | 122 => [(Reg.timeEvstat, 0x10)]
    | 123 => [(Reg.timeEvstat, 0xE0)]
    | 124 => [(Reg.pwrEvstat, 0x3)] | 125 => [(Reg.pwrEvstat, 0xC)] | 126 => [(Reg.pwrEvstat, 0x30)]
    | 127 => [(Reg.pwrEvstat, 0x40)]
    | _ => if e < 101 then [(Reg.chmEvstat, 1 <<< (e - 96))] else []

/-- The level of an event source (R572). -/
def State.evLevel (s : State) (e : Nat) : Bool :=
  (evSource e).any fun (a, m) => ((s.rget a).toNat &&& (s.rget (a + 4)).toNat &&& m) != 0

/-- The level of a vector: the OR of the sources mapped to it (R573). -/
def State.vecLevel (s : State) (v : Nat) : Bool :=
  (List.range 128).any fun e => s.rf (Reg.evcMap e) 7 0 == v && s.evLevel e

/-- The words of EVC_LEVELn and EVC_VLEVELn. -/
def State.evcLevelWord (s : State) (n : Nat) : Nat :=
  ((List.range 32).map fun i => b2n (s.evLevel (32 * n + i)) <<< i).sum
def State.evcVlevelWord (s : State) (n : Nat) : Nat :=
  ((List.range 32).map fun i => b2n (s.vecLevel (32 * n + i)) <<< i).sum

/-- The pending bit of a vector. -/
def State.pba (s : State) (v : Nat) : Bool := s.rb (Reg.evcPba (v / 32)) (v % 32)
def Run.setPba (r : Run s₀) (v : Nat) (b : Bool) : Run s₀ := r.wb (Reg.evcPba (v / 32)) (v % 32) b

/-- A vector is requested (R573). -/
def Run.evcRequest (r : Run s₀) (v : Nat) : Run s₀ :=
  r.mapMesh fun m => { m with requested := m.requested.filter (· != v) ++ [v] }

/-- Levels that have fallen are forgotten, and clear a set pending bit (R574). -/
def Run.evcSync (r : Run s₀) : Run s₀ :=
  let m := r.s.mesh
  if m.seen = 0 then r
  else
    let fallen := (List.range 128).filter fun v => bit m.seen v && !r.s.vecLevel v
    r.each fallen fun r v =>
      let r := r.mapMesh fun m => { m with seen := putBits m.seen v v 0 }
      if r.s.pba v then r.setPba v false else r

/-- EVENT_LEVEL_RISE: the level of vector v rises from 0 to 1 (R573). -/
def execEventLevelRise (v : Nat) (s : State) : Out :=
  let r := Run.start s
  if decide (v < 128) && s.vecLevel v && !bit s.mesh.seen v then
    ((r.mapMesh fun m => { m with seen := putBits m.seen v v 1 }).evcRequest v).done
  else r.done

/-- A write of EVC_EOI (R573). -/
def Run.writeEoi (r : Run s₀) (v : Nat) : Run s₀ := if r.s.vecLevel (v % 128) then r.evcRequest (v % 128) else r

/-- EVC_EOI_WRITE. -/
def execEvcEoiWrite (v : Word) (s : State) : Out := ((Run.start s).writeEoi v.toNat).done

/-- A vector may send its message (R574). -/
def State.msixOpen (s : State) (v : Nat) : Bool :=
  s.rb Reg.meshPcieStat 1 && s.rb Reg.meshPcieStat 0 && !s.mesh.fnMask && !s.rb (Reg.evcMsixCtrl v) 0

/-- The message of a vector leaves. -/
def Run.msixOut (r : Run s₀) (v : Nat) : Run s₀ :=
  let a := r.s.rget64 (Reg.evcMsixLo v) (Reg.evcMsixHi v)
  let d := (r.s.rget (Reg.evcMsixData v)).toNat
  (r.setPba v false).mapMesh fun m => { m with
    requested := m.requested.filter (· != v), sent := m.sent + 1, lastMsg := some (a, d) }

/-- MSIX_SEND: a requested vector sends its message or sets its pending bit; a pending one sends once it may (R574). -/
def execMsixSend (v : Nat) (s : State) : Out :=
  let r := Run.start s
  let req := s.mesh.requested.contains v
  let open_ := s.msixOpen v
  (if req && open_ then r.msixOut v
   else if req then (r.setPba v true).mapMesh fun m => { m with requested := m.requested.filter (· != v) }
   else if s.pba v && open_ && s.vecLevel v then r.msixOut v
   else r).done

end Sys2Proof.Machine
end

