-- ==== Sys2Proof/Machine/Float.lean ====
section
/-!
DEFINITION. IEEE 754 binary32 and binary64 arithmetic as the device computes it (R107): exact results rounded once to
nearest, ties to even, subnormals kept, every NaN result the quiet NaN of the format.
-/
namespace Sys2Proof.Machine

/-- A format: bits of the exponent field and of the fraction field. -/
structure FFmt where
  eb : Nat
  fb : Nat
deriving DecidableEq, Repr

/-- binary32 and binary64. -/
def f32 : FFmt := ⟨8, 23⟩
def f64 : FFmt := ⟨11, 52⟩

/-- A floating-point datum: NaN, infinity, or the finite number ±m·2^e. -/
inductive FVal where
  | nan
  | inf (neg : Bool)
  | fin (neg : Bool) (m : Nat) (e : Int)
deriving DecidableEq, Repr

/-- The exponent of the least bit of a subnormal. -/
def FFmt.emin (f : FFmt) : Int := 2 - (2 ^ (f.eb - 1) : Nat) - (f.fb : Nat)

/-- The quiet NaN of R107. -/
def FFmt.qnan (f : FFmt) : Nat := (2 ^ (f.eb + 1) - 1) <<< (f.fb - 1)

/-- The infinity of a sign. -/
def FFmt.infBits (f : FFmt) (neg : Bool) : Nat := b2n neg <<< (f.eb + f.fb) + (2 ^ f.eb - 1) <<< f.fb

/-- The largest finite number of a sign. -/
def FFmt.maxFin (f : FFmt) (neg : Bool) : Nat := f.infBits neg - 1

/-- The datum that bits spell. -/
def FFmt.dec (f : FFmt) (b : Nat) : FVal :=
  let neg := bit b (f.eb + f.fb)
  let e := bits b (f.eb + f.fb - 1) f.fb
  let m := b % 2 ^ f.fb
  if e = 2 ^ f.eb - 1 then (if m = 0 then .inf neg else .nan)
  else if e = 0 then .fin neg m f.emin
  else .fin neg (m + 2 ^ f.fb) (f.emin + (e - 1 : Nat))

/-- `m / 2^k` rounded to nearest, ties to even; `sticky` says that the true value lies above `m`, less than 1 away. -/
def rne (m k : Nat) (sticky : Bool) : Nat :=
  let q := m >>> k
  let r := m % 2 ^ k
  if k = 0 then q
  else
    let h := 2 ^ (k - 1)
    if h < r ∨ (r = h ∧ (sticky ∨ q % 2 = 1)) then q + 1 else q

/-- The bits of ±(m + δ)·2^e rounded, where 0 < δ < 1 exactly when `sticky`. -/
def FFmt.round (f : FFmt) (neg : Bool) (m : Nat) (e : Int) (sticky : Bool) : Nat :=
  let sgn := b2n neg <<< (f.eb + f.fb)
  -- two more bits below, so that a sticky part never stands on the rounding bit
  let m2 := m * 4 + b2n sticky
  let e2 := e - 2
  if m2 = 0 then sgn
  else
    let len : Int := (Nat.log2 m2 : Int) + 1
    let q := max (e2 + len - (f.fb + 1 : Nat)) f.emin
    let mm := if q ≤ e2 then m2 <<< (e2 - q).toNat else rne m2 (q - e2).toNat false
    let carry := decide (2 ^ (f.fb + 1) ≤ mm)
    let mm' := if carry then mm / 2 else mm
    let q' := if carry then q + 1 else q
    let ef := if mm' < 2 ^ f.fb then 0 else (q' - f.emin).toNat + 1
    if 2 ^ f.eb - 1 ≤ ef then f.infBits neg
    else sgn + (if ef = 0 then mm' else (ef <<< f.fb) + (mm' - 2 ^ f.fb))

/-- The bits of a datum in a format. -/
def FFmt.enc (f : FFmt) : FVal → Nat
  | .nan => f.qnan
  | .inf neg => f.infBits neg
  | .fin neg m e => f.round neg m e false

/-- The signed integer m at a common exponent. -/
def FVal.at (neg : Bool) (m : Nat) (e q : Int) : Int :=
  let v : Int := ((m <<< (e - q).toNat : Nat) : Int)
  if neg then -v else v

/-- Exact sum of two data; an exact zero sum is −0 only when both are −0 (round to nearest). -/
def FVal.add : FVal → FVal → FVal
  | .nan, _ => .nan
  | _, .nan => .nan
  | .inf a, .inf b => if a = b then .inf a else .nan
  | .inf a, _ => .inf a
  | _, .inf b => .inf b
  | .fin a m e, .fin b n d =>
    let q := min e d
    let s := FVal.at a m e q + FVal.at b n d q
    if s = 0 then .fin (m == 0 && n == 0 && a && b) 0 q else .fin (decide (s < 0)) s.natAbs q

/-- The datum with its sign inverted. -/
def FVal.neg : FVal → FVal
  | .nan => .nan
  | .inf a => .inf (!a)
  | .fin a m e => .fin (!a) m e

/-- Exact product. -/
def FVal.mul : FVal → FVal → FVal
  | .nan, _ => .nan
  | _, .nan => .nan
  | .inf a, .inf b => .inf (a != b)
  | .inf a, .fin b n _ => if n = 0 then .nan else .inf (a != b)
  | .fin a m _, .inf b => if m = 0 then .nan else .inf (a != b)
  | .fin a m e, .fin b n d => .fin (a != b) (m * n) (e + d)

/-- Floor of the square root, `fuel` bits. -/
def isqrtGo : Nat → Nat → Nat → Nat
  | 0, _, acc => acc
  | k + 1, n, acc =>
    let t := acc + 2 ^ k
    isqrtGo k n (if t * t ≤ n then t else acc)

/-- Floor of the square root. -/
def isqrt (n : Nat) : Nat := isqrtGo (Nat.log2 n / 2 + 1) n 0

/-- Addition, subtraction and multiplication of bits in a format. -/
def FFmt.add (f : FFmt) (a b : Nat) : Nat := f.enc ((f.dec a).add (f.dec b))
def FFmt.sub (f : FFmt) (a b : Nat) : Nat := f.enc ((f.dec a).add (f.dec b).neg)
def FFmt.mul (f : FFmt) (a b : Nat) : Nat := f.enc ((f.dec a).mul (f.dec b))

/-- Fused multiply-add a + b·c with one rounding. -/
def FFmt.fma (f : FFmt) (a b c : Nat) : Nat := f.enc ((f.dec a).add ((f.dec b).mul (f.dec c)))

/-- Quotient. -/
def FFmt.div (f : FFmt) (a b : Nat) : Nat :=
  match f.dec a, f.dec b with
  | .nan, _ => f.qnan
  | _, .nan => f.qnan
  | .inf _, .inf _ => f.qnan
  | .inf s, .fin t _ _ => f.infBits (s != t)
  | .fin s _ _, .inf t => f.round (s != t) 0 0 false
  | .fin s m e, .fin t n d =>
    if n = 0 then (if m = 0 then f.qnan else f.infBits (s != t))
    else
      let k := 2 * f.fb + 6
      let num := m <<< k
      f.round (s != t) (num / n) (e - d - (k : Nat)) (num % n != 0)

/-- Square root: NaN below −0, −0 of −0. -/
def FFmt.sqrt (f : FFmt) (a : Nat) : Nat :=
  match f.dec a with
  | .nan => f.qnan
  | .inf true => f.qnan
  | .inf false => f.infBits false
  | .fin s m e =>
    if m = 0 then a
    else if s then f.qnan
    else
      let k := 2 * f.fb + 6
      -- an even exponent below
      let e' := e - (k : Nat)
      let (mm, ee) := if e' % 2 = 0 then (m <<< k, e') else (m <<< (k + 1), e' - 1)
      let r := isqrt mm
      f.round false r (ee / 2) (r * r != mm)

/-- Comparison: `none` when an operand is a NaN. -/
def FVal.cmp : FVal → FVal → Option Ordering
  | .nan, _ => none
  | _, .nan => none
  | .inf a, .inf b => some (if a = b then .eq else if a then .lt else .gt)
  | .inf a, .fin _ _ _ => some (if a then .lt else .gt)
  | .fin _ _ _, .inf b => some (if b then .gt else .lt)
  | .fin a m e, .fin b n d =>
    let q := min e d
    some (compare (FVal.at a m e q) (FVal.at b n d q))

def FFmt.lt (f : FFmt) (a b : Nat) : Bool := (f.dec a).cmp (f.dec b) == some .lt
def FFmt.eq (f : FFmt) (a b : Nat) : Bool := (f.dec a).cmp (f.dec b) == some .eq
def FFmt.le (f : FFmt) (a b : Nat) : Bool := f.lt a b || f.eq a b
def FFmt.isNan (f : FFmt) (a : Nat) : Bool := f.dec a == .nan
def FFmt.isInf (f : FFmt) (a : Nat) : Bool := match f.dec a with | .inf _ => true | _ => false
def FFmt.isZero (f : FFmt) (a : Nat) : Bool := a % 2 ^ (f.eb + f.fb) == 0
def FFmt.signBit (f : FFmt) (a : Nat) : Bool := bit a (f.eb + f.fb)

/-- minNum and maxNum of R106: the other operand when one is a NaN; −0 is less than +0. -/
def FFmt.min (f : FFmt) (a b : Nat) : Nat :=
  match f.isNan a, f.isNan b with
  | true, true => f.qnan
  | true, false => b
  | false, true => a
  | false, false => if f.lt a b then a else if f.lt b a then b else if f.signBit a then a else b
def FFmt.max (f : FFmt) (a b : Nat) : Nat :=
  match f.isNan a, f.isNan b with
  | true, true => f.qnan
  | true, false => b
  | false, true => a
  | false, false => if f.lt a b then b else if f.lt b a then a else if f.signBit a then b else a

/-- Sign-bit operations, for every operand (R107). -/
def FFmt.abs (f : FFmt) (a : Nat) : Nat := a % 2 ^ (f.eb + f.fb)
def FFmt.neg (f : FFmt) (a : Nat) : Nat := a % 2 ^ (f.eb + f.fb) + b2n (!f.signBit a) <<< (f.eb + f.fb)

/-- The integer part of a finite datum, toward zero. -/
def FVal.trunc : FVal → Int
  | .fin s m e =>
    let v : Nat := if 0 ≤ e then m <<< e.toNat else m >>> (-e).toNat
    if s then -(v : Int) else (v : Int)
  | _ => 0

/-- Conversion to int64 (R108): toward zero, saturating, NaN to 0. -/
def FFmt.toInt64 (f : FFmt) (a : Nat) : Int :=
  match f.dec a with
  | .nan => 0
  | .inf s => if s then -(2 ^ 63) else 2 ^ 63 - 1
  | v => Max.max (-(2 ^ 63)) (Min.min (2 ^ 63 - 1) v.trunc)

/-- Conversion of an integer. -/
def FFmt.ofInt (f : FFmt) (i : Int) : Nat := f.round (decide (i < 0)) i.natAbs 0 false

/-- The rational ±num/den rounded, with its binary weight 2^e. -/
def FFmt.ofRat (f : FFmt) (neg : Bool) (num den : Nat) (e : Int) : Nat :=
  if den = 0 then f.qnan
  else
    let k := Nat.log2 den + 2 * f.fb + 8
    let n := num <<< k
    f.round neg (n / den) (e - (k : Nat)) (n % den != 0)

/-- Conversion between formats. -/
def FFmt.conv (f g : FFmt) (a : Nat) : Nat := g.enc (f.dec a)

/-- A finite datum times 2^k rounded to the nearest integer, ties to even; none of a NaN or an infinity. -/
def FVal.scaleRne (v : FVal) (k : Int) : Option Int :=
  match v with
  | .fin s m e =>
    let x := e + k
    let q : Nat := if 0 ≤ x then m <<< x.toNat else rne m (-x).toNat false
    some (if s then -(q : Int) else (q : Int))
  | _ => none

/-- The nearest integer of a finite datum, ties away from zero. -/
def FVal.roundAway : FVal → Int
  | .fin s m e =>
    let v : Nat := if 0 ≤ e then m <<< e.toNat else (m + 2 ^ ((-e).toNat - 1)) >>> (-e).toNat
    if s then -(v : Int) else (v : Int)
  | _ => 0

/-- The class mask of R109. -/
def FFmt.classify (f : FFmt) (a : Nat) : Nat :=
  let neg := f.signBit a
  let e := bits a (f.eb + f.fb - 1) f.fb
  let m := a % 2 ^ f.fb
  if e = 2 ^ f.eb - 1 then
    (if m = 0 then (if neg then 1 else 128) else if bit m (f.fb - 1) then 512 else 256)
  else if e = 0 then
    (if m = 0 then (if neg then 8 else 16) else if neg then 4 else 32)
  else if neg then 2 else 64

end Sys2Proof.Machine
end

