-- ==== Sys2Proof/Machine/Crc.lean ====
section
/-!
DEFINITION. The cyclic redundancy checks that the spec names: CRC-16 of Herd headers (R376), the CRC-32 of the IEEE 802.3
frame check sequence (R376), and CRC-32C (R509).
-/
namespace Sys2Proof.Machine

/-- `n` steps of a left-shifting register of `w` bits with polynomial `poly`. -/
def crcL (w poly : Nat) : Nat → Nat → Nat
  | 0, c => c
  | n + 1, c => crcL w poly n (let d := c * 2; if bit c (w - 1) then (d ^^^ poly) % 2 ^ w else d % 2 ^ w)

/-- `n` steps of a right-shifting (reflected) register. -/
def crcR (poly : Nat) : Nat → Nat → Nat
  | 0, c => c
  | n + 1, c => crcR poly n (if bit c 0 then c / 2 ^^^ poly else c / 2)

/-- One byte into a left-shifting register of `w` bits, and into a reflected one. -/
def crcLByte (w poly c : Nat) (b : Byte) : Nat := crcL w poly 8 (c ^^^ (b.toNat <<< (w - 8)))
def crcRByte (poly c : Nat) (b : Byte) : Nat := crcR poly 8 (c ^^^ b.toNat)

/-- A left-shifting CRC over bytes from a register value: no reflection, no final inversion. -/
def crcLeft (w poly c : Nat) (d : List Byte) : Nat := d.foldl (crcLByte w poly) c

/-- A reflected CRC over bytes from a register value, without final inversion. -/
def crcRight (poly c : Nat) (d : List Byte) : Nat := d.foldl (crcRByte poly) c

/-- CRC-16 of a Herd header: polynomial 0x1021, initial value 0xFFFF (R376). -/
def crc16 (d : List Byte) : Nat := crcLeft 16 0x1021 0xFFFF d

/-- The CRC-32 of the IEEE 802.3 frame check sequence. -/
def crc32 (d : List Byte) : Nat := crcRight 0xEDB88320 0xFFFFFFFF d ^^^ 0xFFFFFFFF

/-- CRC-32C (R509) from a seed, with final inversion. -/
def crc32c (seed : Nat) (d : List Byte) : Nat := crcRight 0x82F63B78 seed d ^^^ 0xFFFFFFFF

end Sys2Proof.Machine
end

