-- ==== Sys2Proof/Machine/CaptQ.lean ====
section
/-!
DEFINITION. The record stream of a capture session (12_capture.md, R453 to R459): records, epoch markers, and what is
held or lost while the queue or the ring is full.
-/
namespace Sys2Proof.Machine

variable {s₀ : State}

/-- A TS32 stamp extended with `now` as the reference (R65). -/
def State.ts64 (s : State) (u : Nat) : Nat := uNat 64 ((s.now : Int) - diff32 s.now32 u)

def State.cs (s : State) (n : Nat) : CaptSess := tget {} n s.capt.sess
def Run.setCs (r : Run s₀) (n : Nat) (x : CaptSess) : Run s₀ :=
  r.up (.capt { r.s.capt with sess := tset {} n x r.s.capt.sess })

/-- The state of a session (R450). -/
def State.csState (s : State) (n : Nat) : Nat := s.rf (Reg.captSStat n) 31 29
def State.csRuns (s : State) (n : Nat) : Bool := decide (1 ≤ s.csState n ∧ s.csState n ≤ 3)
def State.csStream (s : State) (n : Nat) : Bool := s.rb (Reg.captSCfgAct n) 31
def State.csSize (s : State) (n : Nat) : Nat := s.rf (Reg.captSSizeAct n) 27 0

/-- A session enters a state; CAPT_STAT shows which run. -/
def Run.csTo (r : Run s₀) (n st : Nat) : Run s₀ :=
  (r.wf (Reg.captSStat n) 31 29 st).wb Reg.captStat n (decide (1 ≤ st ∧ st ≤ 3))

/-- A STREAM ring is full (R463). -/
def State.csFull (s : State) (n : Nat) : Bool :=
  s.csStream n && (s.rf (Reg.captSWr n) 27 0 + 1) % max 1 (s.csSize n) == s.rf (Reg.captSRd n) 27 0

/-- The session has room for `k` more records (R458, R459). -/
def State.csRoom (s : State) (n k : Nat) : Bool := decide ((s.cs n).queue.length + k ≤ 256) && !s.csFull n

/-- Records join the queue. -/
def Run.csPut (r : Run s₀) (n : Nat) (l : List CaptSlot) : Run s₀ :=
  let x := r.s.cs n
  r.setCs n { x with queue := x.queue ++ l }

/-- What was held follows when space returns: the latest marker, trigger pairs, one GAP record (R459). -/
def Run.csFlush (r : Run s₀) (n : Nat) : Run s₀ :=
  let r := match (r.s.cs n).heldMark with
    | some (a, b) => if r.s.csRoom n 2 then (r.setCs n { r.s.cs n with heldMark := none }).csPut n [a, b] else r
    | none => r
  let r := r.each (r.s.cs n).heldTrig fun r p =>
    if (r.s.cs n).heldMark.isNone && r.s.csRoom n 2 then
      let x := r.s.cs n
      (r.setCs n { x with heldTrig := x.heldTrig.drop 1 }).csPut n [p.1, p.2]
    else r
  let x := r.s.cs n
  if 0 < x.gapCount ∧ x.heldMark.isNone ∧ x.heldTrig.isEmpty ∧ r.s.csRoom n 1 then
    (r.setCs n { x with gapCount := 0, gapFirst := 0 }).csPut n [⟨5 <<< 28, x.gapFirst, x.gapCount, 0⟩]
  else r

/-- Something is held back. -/
def CaptSess.held (x : CaptSess) : Bool := x.heldMark.isSome || !x.heldTrig.isEmpty || decide (0 < x.gapCount)

/-- An epoch marker of TB0 now (R454, R456): 0 START, 1 WRAP, 2 STEP, 3 TRIG. -/
def State.epochPair (s : State) (cause mark : Nat) : CaptSlot × CaptSlot :=
  let t := s.now
  let sec := (s.base 0).sec
  (⟨1 <<< 28 + cause <<< 26, t % 2 ^ 32, t >>> 32, mark⟩,
   ⟨2 <<< 28 + bits sec 47 32, sec % 2 ^ 32, (s.base 0).ns, 0⟩)

/-- A marker is queued, or held; only the latest held one is kept (R456, R459). -/
def Run.csMarker (r : Run s₀) (n cause mark : Nat) : Run s₀ :=
  let r := r.csFlush n
  let p := r.s.epochPair cause mark
  if !(r.s.cs n).held && r.s.csRoom n 2 then r.csPut n [p.1, p.2]
  else
    -- a TRIG marker that a later one replaces leaves its place to it
    let was := ((r.s.cs n).heldMark.map fun m => m.1.mark).getD 0
    r.setCs n { r.s.cs n with heldMark := some ({ p.1 with mark := max was p.1.mark }, p.2) }

/-- A trigger pair is queued, or held (R459). -/
def Run.csPair (r : Run s₀) (n : Nat) (a b : CaptSlot) : Run s₀ :=
  let r := r.csFlush n
  if !(r.s.cs n).held && r.s.csRoom n 2 then r.csPut n [a, b]
  else r.setCs n { r.s.cs n with heldTrig := (r.s.cs n).heldTrig ++ [(a, b)] }

/-- TB0 has been stepped or set: every running session writes a marker (R456). -/
def Run.captStepped (r : Run s₀) : Run s₀ :=
  let r := r.up (.capt { r.s.capt with epoch := r.s.now >>> 32 })
  r.each ((List.range 16).filter r.s.csRuns) fun r n => r.csMarker n 2 0

/-- EPOCH_WRAP: TB0 reaches a multiple of 2³² ns (R456). -/
def execEpochWrap (s : State) : Out :=
  let r := Run.start s
  if s.now >>> 32 = s.capt.epoch then r.done
  else
    let r := r.up (.capt { r.s.capt with epoch := s.now >>> 32 })
    (r.each ((List.range 16).filter s.csRuns) fun r n => r.csMarker n 1 0).done

end Sys2Proof.Machine
end

