-- ==== Sys2Proof/Machine/Time.lean ====
section
/-!
DEFINITION. Time bases, adjustments, grids, stamp channels and the TIME unit (02_time.md, R44 to R86).
-/
namespace Sys2Proof.Machine

variable {s₀ : State}

/-- The time block changed. -/
def Run.mapTime (r : Run s₀) (f : TimeSt → TimeSt) : Run s₀ := r.up (.time (f r.s.time))

/-- A time base set. -/
def Run.setBase (r : Run s₀) (n : Nat) (b : Base) : Run s₀ := r.mapTime fun t => { t with bases := tset {} n b t.bases }

/-- Width of the integer part (R47). -/
def intBits (n : Nat) : Nat := if n ≤ 2 then 64 else 32

/-! ## The tick -/

/-- The full time of a privileged base in nanoseconds, modulo its 48 bits of seconds (R50). -/
def Base.full (b : Base) : Nat := b.sec * 1000000000 + b.ns

/-- The full time moved to `v` nanoseconds; a wrapping base has none (R50). -/
def Base.setFull (b : Base) (n v : Nat) : Base :=
  if n ≤ 2 then { b with sec := v / 1000000000 % 2 ^ 48, ns := v % 1000000000 } else b

/-- One TB tick of a base: the increment and the slew term are added; a wrapping base counts its wraps (R47, R51, R53), and a
privileged one carries its full time on (R50). -/
def Base.tick (b : Base) (n : Nat) : Base :=
  let term := if b.slewing then min b.slewStep b.slewLeft else 0
  let add : Nat := if b.slewNeg then b.inc - term else b.inc + term
  let v := b.int <<< 32 + b.frac + add
  let w := v >>> 32
  let m := 2 ^ intBits n
  ({ b with
      int := w % m, frac := v % 2 ^ 32, added := add, slewLeft := b.slewLeft - term
      wraps := if n ≤ 2 then b.wraps else (b.wraps + w / m) % 2 ^ 16
      was := if n ≤ 2 then b.int else b.int + b.wraps <<< 32 }).setFull n (b.full + (w - b.int))

/-- A move of a base (R53). An amount shifts the time and leaves the wrap count (DESIGN CHOICE, log 51); a full time or a counter value is
loaded with the fraction cleared (R50). -/
def Base.move (b : Base) (n : Nat) : Move → Base
  | .add amt =>
    let v : Int := ((b.int <<< 32 + b.frac : Nat) : Int) + amt
    let w := v / (2 ^ 32 : Nat)
    let full : Int := (b.full : Int) + (w - b.int)
    { b with int := uNat (intBits n) w, frac := (v % (2 ^ 32 : Nat)).toNat }.setFull n
      (full % ((2 ^ 48 * 1000000000 : Nat) : Int)).toNat
  | .load sec ns =>
    { b with int := (sec * 1000000000 + ns) % 2 ^ 64, frac := 0, sec := sec % 2 ^ 48, ns := ns % 1000000000 }
  | .counter v => { b with int := v % 2 ^ 32, frac := 0 }

/-- The grid-bound operations (R168): every COMMIT, and those that the units' chapters mark. -/
def gridBound (unit code : Nat) : Bool :=
  match unit with
  | 0 => code == 1 || code == 2 || code == 3 || code == 5 || code == 8
  | 1 => code == 1 || code == 2 || code == 4
  | 2 => code == 1 || (decide (2 ≤ code ∧ code ≤ 8) && code != 6)
  | 13 => code == 3
  | _ => code == 1 && (unit == 4 || unit == 5 || unit == 8 || unit == 9 || unit == 10 || unit == 14)

/-- What a step of TB0 from `old` to `new` does to a waiting timed operation: carried past its time it acts late; stepped
back it waits again (R171). -/
def Op.stepped (o : Op) (old new : Nat) : Op :=
  if o.acted || o.out.isSome || o.late || gridBound o.unit o.code then o
  else match o.time with
    | none => o
    | some t =>
      if decide (new < t) then { o with due := false }
      else if decide (old < t) then { o with held := true } else o

/-- A base is moved at once; operations and capture sessions see a move of TB0 (R171, R456). -/
def Run.moveBase (r : Run s₀) (n : Nat) (m : Move) : Run s₀ :=
  let old := r.s.now
  let r := r.setBase n ((r.s.base n).move n m)
  r.when (n == 0) fun r =>
    (r.mapSp fun p => { p with ops := p.ops.map fun o => o.stepped old r.s.now }).captStepped

/-- A base is to be moved on the next TB tick (R55). -/
def Run.moveLater (r : Run s₀) (n : Nat) (m : Move) (w : MoveFor) : Run s₀ :=
  r.setBase n { r.s.base n with moves := (r.s.base n).moves ++ [(m, w)] }

/-- The status of an adjustment's request shown in TIME_TBn_ADJCTL. -/
def Run.adjStatus (r : Run s₀) (n : Nat) (st : Status) : Run s₀ := r.wf (Reg.timeTbAdjctl n) 31 24 st.code

/-- The moves of a base that wait are made, and whoever asked for one is told (R54, R55). -/
def Run.movesDue (r : Run s₀) (n : Nat) : Run s₀ :=
  match (r.s.base n).moves with
  | [] => r
  | l =>
    let r := r.setBase n { r.s.base n with moves := [] }
    r.each l fun r e =>
      let r := r.moveBase n e.1
      match e.2 with
      | .reg => r.adjStatus n .ok
      | .op id => r.opFinId id .ok 0 []
      | .servo => r

/-- The delay of PPS_OUT in 625 ps steps, rounded to the nearest (R73). -/
def State.ppsSteps (s : State) : Int := (2 * sInt 16 (s.rf Reg.timePpsOutdly 15 0) + 625) / 1250

/-- Whether base `b` counts through a second on the `j`-th tick from now, the next one being number 0 (R73). -/
def Base.secondAt (b : Base) (n j : Nat) : Bool :=
  let x := (fun y : Base => y.tick n)^[j] b
  (x.tick n).sec != x.sec

/-- On the tick to come, PPS_OUT learns of a second that its base counts through: on this tick when its delay is not
negative, else on the later tick for which the pulse has to come early. A step or set brings none (R73). -/
def Run.ppsTick (r : Run s₀) : Run s₀ :=
  let n := r.s.rf Reg.timePpsCfg 30 29
  let d := r.s.ppsSteps
  let j := divUp (-d).toNat 8
  if r.s.rb Reg.timePpsCfg 31 && (r.s.base n).secondAt n j then
    r.mapTime fun t => { t with ppsDue := some (((r.s.cyc * 2 + 8 * j : Nat) : Int) + d).toNat }
  else r

/-- One TB tick: every base adds its increment, then the steps and sets that wait are made (R47, R55). -/
def Run.tickAll (r : Run s₀) : Run s₀ :=
  let r := r.ppsTick
  let r := r.each (List.range 8) fun r n => r.setBase n ((r.s.base n).tick n)
  r.each (List.range 8) Run.movesDue

/-! ## Grids -/

/-- A grid. -/
def State.grid (s : State) (g : Nat) : Grid := tget {} g s.time.grids
def Run.setGrid (r : Run s₀) (g : Nat) (x : Grid) : Run s₀ := r.mapTime fun t => { t with grids := tset {} g x t.grids }

/-- The active configuration of a grid (R74): base, period and phase in nanoseconds, enable. -/
def State.gridBase (s : State) (g : Nat) : Nat := s.rf (Reg.timeSgCfgAct g) 2 0
def State.gridP (s : State) (g : Nat) : Nat := s.rf (Reg.timeSgPeriodAct g) 24 0 * 5
def State.gridPhi (s : State) (g : Nat) : Nat := s.rf (Reg.timeSgPhaseAct g) 24 0 * 5
def State.gridEn (s : State) (g : Nat) : Bool := s.rb (Reg.timeSgCfgAct g) 31

/-- The earliest boundary of a period and phase at or after `v` on a privileged base, with its index (R75). -/
def firstBoundary (p phi v : Nat) : Nat × Nat :=
  let k := if v ≤ phi then 0 else divUp (v - phi) p
  (phi + k * p, k)

/-- The grid issues no boundary until TB0 locks (R79). -/
def Run.gridWait (r : Run s₀) (g : Nat) : Run s₀ := r.setGrid g { r.s.grid g with running := false, waiting := true, armed := none }

/-- A grid on TB0 while TB0 is in FREE or ACQUIRE (R79). -/
def State.gridIdle (s : State) (g : Nat) : Bool := s.gridBase g == 0 && decide (s.tb0State < 2)

/-- The grid looks for its first boundary as after an enable on the present tick (R75, R76, R78). On TB0 it waits while
TB0 is in FREE or ACQUIRE (R79). The base's fraction is not counted (DESIGN CHOICE, log 53). -/
def Run.gridStart (r : Run s₀) (g : Nat) : Run s₀ :=
  let b := r.s.gridBase g
  let v := r.s.baseTime b
  if r.s.gridIdle g then r.gridWait g
  else if b ≤ 2 then
    let (n, k) := firstBoundary (r.s.gridP g) (r.s.gridPhi g) (v + 1000)
    r.setGrid g { r.s.grid g with running := true, waiting := false, armed := none, next := n, nextIdx := k }
  else
    -- the next value at which the counter passes the phase; passes of the first 1,000 ns do not count
    let phi := r.s.gridPhi g % 2 ^ 32
    let d := (phi + 2 ^ 32 - (v + 1) % 2 ^ 32) % 2 ^ 32
    r.setGrid g { r.s.grid g with
      running := true, waiting := false, armed := some (r.s.cyc / 4), next := (v + 1 + d) % 2 ^ 48, nextIdx := 0 }

/-- A running grid whose period, phase or base changes at boundary value `v` (R78); the base's fraction is not counted
(DESIGN CHOICE, log 53). -/
def Run.gridChange (r : Run s₀) (g : Nat) : Run s₀ :=
  let b := r.s.gridBase g
  let v := r.s.baseTime b
  if r.s.gridIdle g then r.gridWait g
  else if b ≤ 2 then
    let (n, k) := firstBoundary (r.s.gridP g) (r.s.gridPhi g) (v + r.s.gridP g)
    r.setGrid g { r.s.grid g with next := n, nextIdx := k, armed := none }
  else r.setGrid g { r.s.grid g with next := (v + r.s.gridP g) % 2 ^ 48, nextIdx := 0, armed := none }

/-- How far a grid's base has gone past its next boundary, modulo the width of its time. -/
def State.gridPast (s : State) (g : Nat) : Nat :=
  let m := if s.gridBase g ≤ 2 then 2 ^ 64 else 2 ^ 48
  (s.baseTime (s.gridBase g) + m - (s.grid g).next % m) % m

/-- The base of a grid has come to the grid's next boundary value (R76, R77). -/
def State.gridPassed (s : State) (g : Nat) : Bool :=
  decide (s.gridPast g < if s.gridBase g ≤ 2 then 2 ^ 63 else 2 ^ 47)

/-- A pass of the phase by a wrapping base: the first boundary once 200 ticks have gone by since the enable, else the grid
looks for the next pass (R76). -/
def Run.gridPass (r : Run s₀) (g : Nat) : Run s₀ :=
  let x := r.s.grid g
  match x.armed with
  | none => r
  | some t =>
    if !(x.running && r.s.gridPassed g) then r
    else if t + 200 ≤ r.s.cyc / 4 then r.setGrid g { x with armed := none }
    else r.setGrid g { x with next := (x.next + 2 ^ 32) % 2 ^ 48 }

/-- A boundary of a grid is to be issued. -/
def State.gridReached (s : State) (g : Nat) : Bool :=
  let x := s.grid g
  x.running && x.armed.isNone && s.gridPassed g

/-- The interpolated position of a boundary in whole 625 ps steps before the tick (R77). -/
def State.gridFine (s : State) (g : Nat) : Nat :=
  let b := s.base (s.gridBase g)
  min 7 ((s.gridPast g <<< 32 + b.frac) * 8 / max 1 b.added)

/-- The grid's boundary is issued: index, time and fine position are taken, the next boundary lies one period on (R75 to
R77, R81). On a base other than TB0, what carries the stamp that the last boundary foresaw for this one is read as having
come into use with it (R226). -/
def Run.gridAdvance (r : Run s₀) (g : Nat) : Run s₀ :=
  let x := r.s.grid g
  let m := if r.s.gridBase g ≤ 2 then 2 ^ 64 else 2 ^ 48
  let now := if r.s.gridBase g = 0 then x.next else r.s.now
  let pred := x.tb0 + r.s.gridP g
  r.setGrid g { x with last := x.next, idx := x.nextIdx, fine := r.s.gridFine g,
                       next := (x.next + r.s.gridP g) % m, nextIdx := (x.nextIdx + 1) % 2 ^ 64
                       tb0 := now, readAt := if now < pred ∧ pred ≤ now + r.s.gridP g / 2 then pred else now }

/-- Grids on TB0 find their first boundary on the tick on which TB0 enters LOCKED from FREE or ACQUIRE (R79). -/
def Run.gridsOnLock (r : Run s₀) : Run s₀ :=
  r.each (List.range 16) fun r g => if (r.s.grid g).waiting && r.s.gridEn g then r.gridStart g else r

/-- TB0 enters LOCKED (R59). -/
def Run.tb0Lock (r : Run s₀) : Run s₀ :=
  let was := r.s.tb0State
  let r := r.setTb0State 2
  if was < 2 then r.gridsOnLock else r

/-! ## Adjusting a base (R53 to R55) -/

/-- A request for an adjustment. -/
structure Adj where
  mode : Nat
  ppm : Nat
  a : Nat
  b : Nat
  c : Nat
deriving DecidableEq, Repr

/-- The signed amount A:B of STEP and SLEW. -/
def Adj.amount (x : Adj) : Int := sInt 64 (x.a + x.b <<< 32)

/-- The slew term of a rate in units of 2⁻³² ns: round(r × 21,474.83648) (R53). -/
def slewUnits (ppm : Nat) : Nat := divNear (ppm * 2147483648) 100000

/-- A base has a grid with `enable` = 1 in its active configuration. -/
def State.baseHasGrid (s : State) (n : Nat) : Bool :=
  (List.range 16).any fun g => s.gridEn g && s.gridBase g == n

/-- The outcome of an adjustment request: the first condition of R54 that holds. -/
def State.adjOutcome (s : State) (n : Nat) (x : Adj) : Status :=
  if x.mode = 3 ∨ (x.mode = 1 ∧ (x.ppm < 1 ∨ 500 < x.ppm)) ∨ (x.mode = 2 ∧ n ≤ 2 ∧ 999999999 < x.a % 2 ^ 30) then .cfgerr
  else if n = 0 ∧ !s.rb Reg.timeStat 2 then .denied
  else if (n = 1 ∨ n = 2) ∧ s.rf (Reg.timeTbCtrl n) 1 0 = 1 then .denied
  else if n = 0 ∧ x.mode ≠ 1 then .refused
  else if x.mode ≠ 1 ∧ s.baseHasGrid n then .refused
  else if (s.base n).slewing then .busy
  else if x.mode ≠ 2 ∧ x.amount = 0 then .empty
  else .ok

/-- The move that a STEP or SET asks for (R53): SET takes a full time on a privileged base, a counter value on a wrapping
one. -/
def Adj.move (x : Adj) (n : Nat) : Move :=
  if x.mode = 0 then .add (x.amount * (2 ^ 32 : Nat))
  else if n ≤ 2 then .load (x.b + (x.c % 2 ^ 16) <<< 32) (x.a % 2 ^ 30)
  else .counter x.a

/-- The start of a slew (R53). -/
def Base.slew (b : Base) (x : Adj) (op : Option Nat) : Base :=
  { b with slewing := true, slewNeg := decide (x.amount < 0), slewStep := slewUnits x.ppm,
           slewLeft := x.amount.natAbs * 2 ^ 32, slewOp := op }

/-- The adjustment is carried out: a slew starts, a step or set waits for the next tick (R53 to R55). `op` is the ADJUST
operation that it completes. -/
def Run.adjust (r : Run s₀) (n : Nat) (x : Adj) (op : Option Nat) : Run s₀ :=
  if x.mode = 1 then (r.setBase n ((r.s.base n).slew x op)).wb (Reg.timeTbAdjctl n) 16 true
  else r.moveLater n (x.move n) (match op with | some id => .op id | none => .reg)

/-- A refused adjustment sets `adj_refused` (R54). -/
def Run.adjRefused (r : Run s₀) : Run s₀ := r.flag Reg.timeEvstat 6

/-- A write of TIME_TBn_ADJCTL: the fields take their values, and `go` requests the adjustment (R54). -/
def Run.writeAdjctl (r : Run s₀) (n v : Nat) : Run s₀ :=
  let a := Reg.timeTbAdjctl n
  let r := (r.wf a 12 4 (bits v 12 4)).wf a 1 0 (bits v 1 0)
  if !bit v 2 then r
  else
    let x : Adj := ⟨bits v 1 0, bits v 12 4, (r.s.rget (Reg.timeTbAdjA n)).toNat, (r.s.rget (Reg.timeTbAdjB n)).toNat,
                    r.s.rf (Reg.timeTbAdjC n) 15 0⟩
    match r.s.adjOutcome n x with
    | .ok => r.adjust n x none
    | .empty => r.adjStatus n .empty
    | st => (r.adjStatus n st).adjRefused

/-- TIME_ADJ_GO (R54). -/
def execTimeAdjGo (n : Nat) (v : Word) (s : State) : Out := ((Run.start s).writeAdjctl n v.toNat).done

/-- SLEW_END: the whole amount has been added; the request or its operation ends OK (R53, R54). -/
def execSlewEnd (n : Nat) (s : State) : Out :=
  let r := Run.start s
  let b := s.base n
  if b.slewing && b.slewLeft == 0 then
    let r := r.setBase n { b with slewing := false, slewOp := none }
    let r := r.wb (Reg.timeTbAdjctl n) 16 false
    match b.slewOp with
    | none => (r.adjStatus n .ok).done
    | some id => match r.s.op id with
      | none => r.done
      | some o => (r.opFin o o.okSt 0 []).done
  else r.done

/-! ## Increments and the TB clock's reference (R44 to R48) -/

/-- A write of TIME_TBn_INC_HI applies the whole increment, or is refused outside 5 ns ± 1,000 ppm (R48). -/
def Run.writeIncHi (r : Run s₀) (n v : Nat) : Run s₀ :=
  let inc := (v % 16) <<< 32 + (r.s.rget (Reg.timeTbIncLo n)).toNat
  if 0x4FEB851EC ≤ inc ∧ inc ≤ 0x50147AE14 then
    (r.wr (Reg.timeTbIncHi n) (v % 16)).setBase n { r.s.base n with inc := inc, applied := inc }
  else r.flag Reg.timeEvstat 5

/-- INC_HI_WRITE (R48, R56). -/
def execIncHiWrite (n : Nat) (v : Word) (s : State) : Out := ((Run.start s).writeIncHi n v.toNat).done

/-- The PLL's reference changes; `refin_used` follows and `refin_chg` is set (R45). -/
def Run.refinUse (r : Run s₀) (used : Bool) : Run s₀ :=
  if r.s.rb Reg.timeStat 29 == used then r else (r.wb Reg.timeStat 29 used).flag Reg.timeEvstat 2

/-- REFIN_LOSS: TB_REFIN becomes absent (R45). -/
def execRefinLoss (s : State) : Out :=
  ((((Run.start s).mapTime fun t => { t with refinAt := none }).wb Reg.timeStat 30 false).refinUse false).done

/-- TB_REFIN has been present for 1 ms without a break (R45). -/
def State.refinLong (s : State) : Bool :=
  match s.time.refinAt with | some c => decide (c + usCyc 1000 ≤ s.cyc) | none => false

/-- REFIN_RETURN: TB_REFIN is there. The first time its presence begins; once that has lasted 1 ms without a break, the PLL
returns to it while `refin_en` is 1 (R45; log 13). -/
def execRefinReturn (s : State) : Out :=
  let r := Run.start s
  match s.time.refinAt with
  | none => ((r.mapTime fun t => { t with refinAt := some s.cyc }).wb Reg.timeStat 30 true).done
  | some _ => (if s.rb Reg.timeCtrl 0 && s.refinLong then r.refinUse true else r).done

/-- A write of `refin_en` changes the reference at once where it may (R45). -/
def Run.writeRefinEn (r : Run s₀) (v : Nat) : Run s₀ :=
  let r := r.wf Reg.timeCtrl 0 0 (v % 2)
  if v % 2 = 0 then r.refinUse false else if r.s.refinLong then r.refinUse true else r

/-- REFIN_EN_WRITE (R45). -/
def execRefinEnWrite (v : Word) (s : State) : Out := ((Run.start s).writeRefinEn v.toNat).done

/-- TB_PLL_UNLOCK: the lock bit falls, the flag is set, a node in START or NORMAL enters RECOVERY (R46). -/
def execTbPllUnlock (s : State) : Out :=
  let r := (((Run.start s).wb Reg.timeStat 31 false).wb Reg.clkStat 1 false).flag Reg.timeEvstat 3
  (if s.node = .start ∨ s.node = .normal then r.nodeTo .recovery .pllUnlock else r).done

/-! ## Snapshots (R67) -/

/-- The four snapshot words of a base: SUB, NS, SEC_LO, SEC_HI. -/
def State.snapWords (s : State) (n : Nat) : List Nat :=
  let b := s.base n
  if n ≤ 2 then
    [b.frac >>> 16, b.ns, b.sec % 2 ^ 32, (b.sec >>> 32) % 2 ^ 16]
  else [b.frac >>> 16, b.int, b.wraps, 0]

/-- All eight bases captured into the SNAP registers (R67). -/
def Run.snapshot (r : Run s₀) : Run s₀ :=
  r.each (List.range 8) fun r n =>
    match r.s.snapWords n with
    | [a, b, c, d] => (((r.wr (Reg.timeTbSnapSub n) a).wr (Reg.timeTbSnapNs n) b).wr (Reg.timeTbSnapSecLo n) c).wr
        (Reg.timeTbSnapSecHi n) d
    | _ => r

/-- TIME_SNAP_WRITE (R67). -/
def execTimeSnapWrite (v : Word) (s : State) : Out :=
  (if bit v.toNat 0 then (Run.start s).snapshot else Run.start s).done

/-! ## Stamp channels (R68 to R72) -/

/-- A stamp channel. -/
def State.trig (s : State) (ch : Nat) : TrigCh := tget {} ch s.time.trigs
def Run.setTrig (r : Run s₀) (ch : Nat) (x : TrigCh) : Run s₀ := r.mapTime fun t => { t with trigs := tset {} ch x t.trigs }

/-- The stamp of an edge at fine code `f` of the present tick, in units of 2⁻¹⁶ ns, less the channel's input delay
(R68, R70). -/
def State.stampOf (s : State) (ch n f : Nat) : Int :=
  let b := s.base n
  let v : Nat := (b.int <<< 32 + b.frac) * 64 + f * b.added
  ((v + 2 ^ 21) >>> 22 : Nat) - s.calInt (0x060 + 4 * ch)

/-- A stamp in its channel's form: a carry or borrow of a wrapping base's counter moves its wrap count. -/
def State.mkStamp (s : State) (rising : Bool) (n : Nat) (v : Int) : Stamp :=
  let u := uNat 80 (if n ≤ 2 then v else v + ((s.base n).wraps <<< 48 : Nat))
  { rising := rising, base := n, sub := u % 2 ^ 16, lo := (u >>> 16) % 2 ^ 32,
    hi := (u >>> 48) % (if n ≤ 2 then 2 ^ 32 else 2 ^ 16) }

/-- The channel stamps edges of this direction. -/
def State.trigTakes (s : State) (ch : Nat) (rising : Bool) : Bool :=
  s.rb (Reg.timeTrigCfg ch) 31 && bit (s.rf (Reg.timeTrigCfg ch) 9 8) (if rising then 0 else 1)

/-- The instant of an edge in 64ths of a tick of the model's clock. -/
def State.edgeAt (s : State) (f : Nat) : Nat := s.cyc / 4 * 64 + f

/-- A qualified edge with the stamp of its raw edge at instant `t`: put into the FIFO, or counted as lost when it lies less
than 20 ns after the previous stamped edge or the FIFO is full (R68, R71, R72). The stamp taken is answered. -/
def Run.trigEdge (r : Run s₀) (ch : Nat) (st : Stamp) (t : Nat) : Run s₀ × Option Stamp :=
  if !r.s.trigTakes ch st.rising then (r, none)
  else
    let c := r.s.trig ch
    let close := match c.lastEdge with | none => false | some l => decide (t < l + 256)
    if close || decide (16 ≤ c.fifo.length) then
      ((r.count (Reg.timeTrigStat ch) 31 16).flag Reg.timeEvstat 7, none)
    else
      let r' := r.setTrig ch { c with fifo := c.fifo ++ [st], lastEdge := some t }
      (if c.fifo.isEmpty then r'.flag Reg.timeEvstat 4 else r', some st)

/-- A read of TIME_TRIGn_OUT0: the oldest stamp moves into OUT0 to OUT2 (R71); an empty FIFO leaves OUT1 and OUT2. -/
def Run.readTrigOut (r : Run s₀) (ch : Nat) : Run s₀ × Nat :=
  let c := r.s.trig ch
  match c.fifo with
  | [] => (r.wr (Reg.timeTrigOut0 ch) 0, (r.s.rget (Reg.timeTrigOut0 ch)).toNat % 2 ^ 31)
  | x :: t =>
    let v := 2 ^ 31 + (if x.rising then 1 else 2) <<< 29 + x.base <<< 26 + x.sub
    let r := r.setTrig ch { c with fifo := t }
    (((r.wr (Reg.timeTrigOut1 ch) x.lo).wr (Reg.timeTrigOut2 ch) x.hi).wr (Reg.timeTrigOut0 ch) 0, v)

/-- TRIG_OUT0_READ (R71). -/
def execTrigOut0Read (ch : Nat) (s : State) : Out :=
  let (r, v) := (Run.start s).readTrigOut ch
  (r.answer .ok [v]).done

/-! ## PPS output (R73) -/

/-- PPS_OUT_PULSE: the instant has come at which PPS_OUT is to rise. -/
def execPpsOutPulse (s : State) : Out :=
  let r := Run.start s
  match s.time.ppsDue with
  | none => r.done
  | some d =>
    if s.cyc * 2 < d then r.done
    else
      let up := s.rb Reg.timePpsCfg 31 && decide (0 < s.rf Reg.timePpsCfg 18 0)
      (r.mapTime fun t => { t with ppsDue := none, ppsRise := if up then some d else t.ppsRise }).done

/-- PPS_PULSE_END: `width_us` microseconds after the rise. -/
def execPpsPulseEnd (s : State) : Out :=
  let r := Run.start s
  match s.time.ppsRise with
  | none => r.done
  | some d =>
    if d + 2 * usCyc (s.rf Reg.timePpsCfg 18 0) ≤ s.cyc * 2 then (r.mapTime fun t => { t with ppsRise := none }).done
    else r.done

/-! ## Lock and holdover (R59 to R62) -/

/-- HOLDOVER_LIMIT: TB0 has been in HOLDOVER for longer than `hold_limit`, once in each stay there (R37, R62). A node in
NORMAL enters RECOVERY. -/
def Run.holdoverLimit (r : Run s₀) : Run s₀ :=
  if r.s.tb0State = 3 ∧ r.s.time.holdSince + r.s.rf Reg.timeTb0HoldAct 11 0 * 800000000 < r.s.cyc
      ∧ !r.s.time.holdHit then
    let r := (r.mapTime fun t => { t with holdHit := true }).flag Reg.timeEvstat 1
    if r.s.node = .normal then r.nodeTo .recovery .holdover else r
  else r

def execHoldoverLimit (s : State) : Out := (Run.start s).holdoverLimit.done

/-- SYNC_INTERVALS_MISSED: four intervals without an exchange result move TB0 from LOCKED to HOLDOVER (R60). -/
def execSyncIntervalsMissed (s : State) : Out :=
  let r := Run.start s
  (if s.tb0State = 2 ∧ !s.rb Reg.timeStat 2 ∧ 4 ≤ s.time.missed then r.setTb0State 3 else r).done

/-! ## Configuration groups of the time block -/

/-- Bindings of a grid (R80): lock groups here; loop contexts, axes, converters and the Herd cycle. -/
def State.bindCount (s : State) (g : Nat) : Nat :=
  let le := ((List.range 256).filter fun c => decide (s.leState c ≠ 0) && s.leH c 5 1 % 16 == g).length
  let ax := ((List.range 48).filter fun n =>
    decide (s.rf (Reg.axCfgAct n) 1 0 ≠ 0) && s.rf (Reg.axCfgAct n) 19 16 == g).length
  let lg := ((List.range 8).filter fun n => s.rb (Reg.timeLgCfgAct n) 31 && s.rf (Reg.timeLgCfgAct n) 3 0 == g).length
  let adc := ((List.range 12).filter fun n =>
    s.rb (Reg.adcCfgAct n) 31 && s.rf (Reg.adcCfgAct n) 25 24 == 1 && s.rf (Reg.adcCfgAct n) 23 20 == g).length
  let hd := b2n (s.rb Reg.herdCycAct 31 && s.rf Reg.herdCycAct 3 0 == g)
  le + ax + lg + adc + hd

/-- The members of a lock group as a bit mask of axes, in the shadow or the active copy (R82). -/
def State.lgMembers (s : State) (act : Bool) (n : Nat) : Nat :=
  if act then (s.rget (Reg.timeLgMemLoAct n)).toNat + s.rf (Reg.timeLgMemHiAct n) 15 0 <<< 32
  else (s.rget (Reg.timeLgMemLo n)).toNat + s.rf (Reg.timeLgMemHi n) 15 0 <<< 32

/-- A grid period is an integer multiple of half a carrier period, both in TB ticks (R82, R84, R276). -/
def halfCarrierFits (gridTicks pwm : Nat) : Bool := decide (pwm ≠ 0) && gridTicks * 2 % pwm == 0

/-- The check of R15 for group SGn (R74, R80). -/
def State.sgCheck (s : State) (g : Nat) : Bool :=
  let sh := (s.rget (Reg.timeSgCfg g), s.rget (Reg.timeSgPeriod g), s.rget (Reg.timeSgPhase g))
  let ac := (s.rget (Reg.timeSgCfgAct g), s.rget (Reg.timeSgPeriodAct g), s.rget (Reg.timeSgPhaseAct g))
  decide (s.rf (Reg.timeSgPhase g) 24 0 < s.rf (Reg.timeSgPeriod g) 24 0) && (sh == ac || s.bindCount g == 0)

/-- The check of R15 for group LGn (R82). -/
def State.lgCheck (s : State) (n : Nat) : Bool :=
  if !s.rb (Reg.timeLgCfg n) 31 then true
  else
    let g := s.rf (Reg.timeLgCfg n) 3 0
    let m := s.lgMembers false n
    s.gridEn g
      && (List.range 8).all (fun k => k == n || !s.rb (Reg.timeLgCfgAct k) 31 || (s.lgMembers true k &&& m) == 0)
      && (List.range 48).all (fun a => !bit m a || s.rf (Reg.axCfgAct a) 1 0 != 1
            || halfCarrierFits (s.rf (Reg.timeSgPeriodAct g) 24 0) (s.rf (Reg.axPwmAct a) 17 0))

/-- The check of R15 for group TB0LOCK (R63). -/
def State.tb0lockCheck (s : State) : Bool :=
  decide (s.rf Reg.timeTb0Lock 11 0 < s.rf Reg.timeTb0Lock 23 12) &&
  decide (1 ≤ s.rf Reg.timeTb0Hold 20 12 ∧ s.rf Reg.timeTb0Hold 20 12 ≤ 500)

/-- What follows when SGn comes into use (R78). `was` is whether the grid was enabled. -/
def Run.sgApplied (r : Run s₀) (g : Nat) (was changed : Bool) : Run s₀ :=
  if r.s.gridEn g then
    (if !was then r.gridStart g else if changed then
      (if (r.s.grid g).waiting then r.gridStart g else r.gridChange g) else r)
  else r.setGrid g { r.s.grid g with running := false, waiting := false, armed := none }

/-- What follows when TB0LOCK comes into use: the count of in-window exchanges starts again (R64). -/
def Run.tb0lockApplied (r : Run s₀) : Run s₀ := (r.mapTime fun t => { t with lockCount := 0 }).holdoverLimit

/-! ## Operations of the TIME unit (R85), unit 13 -/

/-- TIME SNAP acts (R67, R85). -/
def Run.actTimeSnap (r : Run s₀) (o : Op) : Run s₀ :=
  r.opFin o o.okSt 0 (wordsLE ((List.range 8).flatMap r.s.snapWords))

/-- TIME ADJUST acts (R54, R85); a `mode` above 3 is taken as 3 (DESIGN CHOICE, log 54). -/
def Run.actTimeAdjust (r : Run s₀) (o : Op) : Run s₀ :=
  let x : Adj := ⟨recNat o.payload 0 1, recNat o.payload 2 2, recNat o.payload 4 4, recNat o.payload 8 4,
                  recNat o.payload 12 2⟩
  let x := { x with mode := if 3 ≤ x.mode then 3 else x.mode }
  match r.s.adjOutcome o.obj x with
  | .ok => (r.adjust o.obj x (some o.id)).opAct o
  | .empty => r.opFin o .empty 0 []
  | st => r.adjRefused.opFin o st 0 []

/-- TIME BOUNDARY acts: it waits for the grid's next boundary, or is refused at once (R85). A timed one acts at its time and so
waits for the first boundary after it (DESIGN CHOICE, log 54). -/
def Run.actTimeBoundary (r : Run s₀) (o : Op) : Run s₀ :=
  if (r.s.grid o.obj).running then r.opAct o else r.opFin o .refused 0 []

/-- A boundary of a grid completes the BOUNDARY operations that wait for it, stamped with its value on the grid's own base
(R85; DESIGN CHOICE on a base other than TB0, log 54). -/
def Run.boundaryOps (r : Run s₀) (g : Nat) : Run s₀ :=
  let b := (r.s.grid g).last
  r.each (r.s.sp.ops.filter fun o => o.unit == 13 && o.code == 4 && o.obj == g && o.acted && o.out.isNone)
    fun r o => r.opEnd o o.okSt 0 b [] 0

/-- The TB0 time of the last boundary of a grid: the boundary itself on TB0, that of its tick on another base. -/
def State.boundaryTb0 (s : State) (g : Nat) : Nat := if s.gridBase g = 0 then (s.grid g).last else (s.grid g).tb0

/-- The TB0 instant as which reads take the last boundary of a grid (R226). -/
def State.boundaryRead (s : State) (g : Nat) : Nat := if s.gridBase g = 0 then (s.grid g).last else (s.grid g).readAt

/-- TIME_SNAP, TIME_ADJUST and TIME_BOUNDARY: the operation of number `id` acts. -/
def execTimeSnap (id : Nat) (s : State) : Out := ((Run.start s).opRow id 13 1 Run.actTimeSnap).done
def execTimeAdjust (id : Nat) (s : State) : Out := ((Run.start s).opRow id 13 2 Run.actTimeAdjust).done
def execTimeBoundary (id : Nat) (s : State) : Out := ((Run.start s).opRow id 13 4 Run.actTimeBoundary).done

end Sys2Proof.Machine
end

