-- ==== Sys2Proof/Machine/HerdNet.lean ====
section
/-!
DEFINITION. Frames of the Herd fabric and their way out of the node: layout and checks (R375, R376), routing (R395,
R396), output queues (R381 to R383) and slots (R408).
-/
namespace Sys2Proof.Machine

variable {s₀ : State}

/-! ## The node and its ports -/

/-- The 128-bit unit identifier (R1). -/
def State.uid (_ : State) : Nat :=
  (List.range 4).foldl (fun v i => v + (Config.uidWord i).toNat <<< (32 * i)) 0

def State.hport (s : State) (p : Nat) : HPort := tget {} p s.herd.ports
def Run.setHport (r : Run s₀) (p : Nat) (x : HPort) : Run s₀ :=
  r.up (.herd { r.s.herd with ports := tset {} p x r.s.herd.ports })

/-- Link state and role of a port (R372, R388, R393). -/
def State.hlink (s : State) (p : Nat) : Nat := s.rf (Reg.herdHpStat p) 31 29
def State.hrole (s : State) (p : Nat) : Nat := s.rf (Reg.herdHpStat p) 28 26

/-- The node's ID and whether it has one (R389). -/
def State.hasId (s : State) : Bool := s.rb Reg.herdStat 31
def State.nodeId (s : State) : Nat := s.rf Reg.herdStat 15 0

/-- A dropped frame is counted and sets `drop` (R378). -/
def Run.herdDrop (r : Run s₀) (counter : Nat) : Run s₀ := (r.count counter 31 0).flag Reg.herdEvstat 20

/-! ## Layout (R375, R376) -/

/-- Bytes 0 to 13 of a header. -/
def HerdFrame.head (f : HerdFrame) : List Byte :=
  bytesBE 2 f.dst ++ bytesBE 2 f.src
    ++ bytesBE 1 ((f.cls % 16) <<< 4 + (f.prio % 4) <<< 2 + b2n f.dup <<< 1 + b2n f.wrap)
    ++ bytesBE 1 f.hops ++ bytesBE 2 f.payload.length ++ bytesBE 2 f.seq ++ bytesBE 4 f.ts

/-- A frame as it stands on the medium. -/
def HerdFrame.wire (f : HerdFrame) : List Byte :=
  f.head ++ bytesBE 2 (crc16 f.head) ++ f.payload ++ bytesLE 4 (crc32 f.payload)

/-- The frame that received bytes spell; its payload has the length that the header states. -/
def frameOf (d : List Byte) : HerdFrame :=
  let be (o n : Nat) : Nat := ofBytesBE ((d.drop o).take n)
  { dst := be 0 2, src := be 2 2, cls := bits (be 4 1) 7 4, prio := bits (be 4 1) 3 2, dup := bit (be 4 1) 1,
    wrap := bit (be 4 1) 0, hops := be 5 1, seq := be 8 2, ts := be 10 4, payload := (d.drop 16).take (be 6 2) }

/-- The header check and the frame check of received bytes. -/
def headOk (d : List Byte) : Bool := crc16 (d.take 14) == ofBytesBE ((d.drop 14).take 2)
def lenOf (d : List Byte) : Nat := ofBytesBE ((d.drop 6).take 2)
def bodyOk (d : List Byte) : Bool :=
  let p := (d.drop 16).take (lenOf d)
  p.length == lenOf d && crc32 p == ofBytesLE ((d.drop (16 + lenOf d)).take 4)

/-- The wire time of a frame in tenths of a nanosecond (R376). -/
def HerdFrame.wireTime (f : HerdFrame) : Nat := (f.payload.length + 40) * 8

/-! ## The isochronous cycle (R406) -/

/-- The isochronous cycle runs, on this grid. -/
def State.cycOn (s : State) : Bool := s.rb Reg.herdCycAct 31
def State.cycGrid (s : State) : Nat := s.rf Reg.herdCycAct 3 0

/-- The cycle's number and the time since its boundary in tenths of a nanosecond. -/
def State.cycNo (s : State) : Nat := (s.grid s.cycGrid).idx
def State.cycPos (s : State) : Nat := (s.now - (s.grid s.cycGrid).last) * 10

/-- The active slot table of a port: flow and offset of each entry in use (R407). -/
def State.slots (s : State) (p : Nat) : List (Nat × Nat) :=
  (List.range (s.rf (Reg.herdHpSlotlenAct p) 10 0)).map fun i =>
    (s.rf (Reg.herdHpSlotAct p i) 31 20, s.rf (Reg.herdHpSlotAct p i) 19 0)

/-- The slots of a port that may be used: none while the cycle is disabled or a wrap is in force (R406, R408). -/
def State.slotsInForce (s : State) (p : Nat) : List (Nat × Nat) :=
  if s.cycOn && !s.rb Reg.herdStat 29 then s.slots p else []

/-- A frame as it would go out now: an UPDATE frame of this node that stands for the updates waiting for its
destination carries up to 64 of them (R384). -/
def State.asSent (s : State) (f : HerdFrame) : HerdFrame :=
  if f.cls = 6 ∧ !f.transit ∧ f.payload.isEmpty then
    { f with payload := ((s.sig.herdOut.filter fun u => u.node == f.dst).take 64).flatMap fun u =>
        bytesBE 4 u.idx ++ bytesBE 4 u.val ++ bytesBE 4 u.stamp }
  else f

/-- A frame sent now, with all that it then carries, ends before the offset of the next slot, of this cycle or the next
(R381). -/
def State.fitsBeforeSlot (s : State) (p : Nat) (f : HerdFrame) : Bool :=
  let f := s.asSent f
  let pos := s.cycPos
  match (if s.cycOn then s.slots p else []) with
  | [] => true
  | l@((_, o) :: _) =>
    let next := match l.find? fun e => decide (pos < e.2 * 50) with
      | some e => e.2 * 50
      | none => s.gridP s.cycGrid * 10 + o * 50
    decide (pos + f.wireTime < next)

/-! ## Output queues (R381 to R383, R408) -/

/-- The queue P0 to P3 of a frame: SAFE, TRIG and MGMT always use P3, and so does an ISO frame that finds no slot;
ASYNC, TXN and UPDATE the queue that `prio` names (R377, R383). -/
def prioOf (cls prio : Nat) : Nat := if cls = 1 ∨ cls = 2 ∨ cls = 5 ∨ cls = 7 then 3 else prio % 4

/-- A queue of a port, and the port with a frame added to it. -/
def HPort.queue (x : HPort) (q : Nat) : List HerdFrame :=
  if q = 3 then x.q3 else if q = 2 then x.q2 else if q = 1 then x.q1 else x.q0
def HPort.setQueue (x : HPort) (q : Nat) (l : List HerdFrame) : HPort :=
  if q = 3 then { x with q3 := l } else if q = 2 then { x with q2 := l }
  else if q = 1 then { x with q1 := l } else { x with q0 := l }

/-- Bytes of forwarded frames that wait at a port (R382). -/
def HPort.transitBytes (x : HPort) : Nat :=
  (((x.q3 ++ x.q2 ++ x.q1 ++ x.q0 ++ x.isoQ.map (·.2)).filter fun f => f.transit).map fun f => f.payload.length + 20).sum

/-- Classes for which a part of the transit buffer is reserved (R382). -/
def reservedClass (cls : Nat) : Bool := cls == 0 || cls == 1 || cls == 2 || cls == 7

/-- The bytes of the transit buffer that other classes may fill: 32 KiB less the reserved part, whose size the spec
leaves open (log 2). -/
def transitLimit : Nat := 32768 - Config.herdReserve % 32768

/-- A frame joins queue `q` of a port. -/
def Run.toQueue (r : Run s₀) (p q : Nat) (f : HerdFrame) : Run s₀ :=
  let x := r.s.hport p
  r.setHport p (x.setQueue q (x.queue q ++ [f]))

/-- An ISO frame takes the first matching slot of the current cycle that is neither taken nor past and that it fits;
otherwise it is unslotted, in P3 (R408). -/
def Run.isoPlace (r : Run s₀) (p : Nat) (f : HerdFrame) : Run s₀ :=
  let x := r.s.hport p
  let flow := bits (ofBytesBE (f.payload.take 2)) 11 0
  let l := r.s.slotsInForce p
  let pos := r.s.cycPos
  let mine := l.zipIdx.filter fun e => e.1.1 == flow
  let past := mine.filter fun e => decide (e.1.2 * 50 < pos)
  let free := mine.filter fun e => decide (pos ≤ e.1.2 * 50) && !x.slotsUsed.contains e.2
  let ends (e : (Nat × Nat) × Nat) : Bool := match l[e.2 + 1]? with
    | some n => decide (e.1.2 * 50 + f.wireTime ≤ n.2 * 50)
    | none => decide (e.1.2 * 50 + f.wireTime ≤ r.s.gridP r.s.cycGrid * 10 + ((l.head?.map (·.2)).getD 0) * 50)
  match free.find? ends with
  | some e => r.setHport p { x with isoQ := x.isoQ ++ [(e.2, f)], slotsUsed := x.slotsUsed ++ [e.2] }
  | none =>
    let r := (r.count (Reg.herdHpIsocnt p) 15 0).flag Reg.herdEvstat 17
    let r := if free.isEmpty && !past.isEmpty then (r.count (Reg.herdHpIsocnt p) 31 16).flag Reg.herdEvstat 16 else r
    r.toQueue p 3 f

/-- A frame is handed to an output port. A forwarded frame of an unreserved class that finds the transit buffer full is
dropped (R382). -/
def Run.enqueue (r : Run s₀) (p : Nat) (f : HerdFrame) : Run s₀ :=
  if f.transit && !reservedClass f.cls && decide (transitLimit < (r.s.hport p).transitBytes + f.payload.length + 20) then
    r.herdDrop Reg.herdDropCong
  else if f.cls = 1 then r.isoPlace p f
  else r.toQueue p (prioOf f.cls f.prio) f

/-! ## Routing (R394 to R396) -/

/-- The port one of whose intervals holds a destination. -/
def State.ivlPort (s : State) (dst : Nat) : Option Nat :=
  (List.range 4).find? fun p => (List.range 64).any fun i =>
    let lo := s.rf (Reg.herdHpIvl p i) 15 0
    decide (lo ≠ 0 ∧ lo ≤ dst ∧ dst ≤ s.rf (Reg.herdHpIvl p i) 31 16)

/-- The port to the parent. -/
def State.upPort (s : State) : Option Nat := (List.range 4).find? fun p => s.hrole p == 1

/-- The port that R395 gives a frame for another node: the DOWN or repaired ring port an interval of which holds it, else
the UP port; `none`: the node drops it. -/
def State.routePort (s : State) (dst : Nat) : Option Nat :=
  match s.ivlPort dst with
  | some p => if s.hrole p = 2 ∨ (s.herd.wrap.map (·.1)) = some p then some p else s.upPort
  | none => s.upPort

/-- A frame leaves on a port that routing chose; one for the broken link of a ring is wrapped (R396). -/
def Run.sendOn (r : Run s₀) (p : Nat) (f : HerdFrame) : Run s₀ :=
  match r.s.herd.wrap with
  | some (b, o) =>
    if p = b then (if f.wrap then r.herdDrop Reg.herdDropUnr else r.enqueue o { f with wrap := true }) else r.enqueue p f
  | none => r.enqueue p f

/-- A unicast frame for another node (R395). -/
def Run.routeFrame (r : Run s₀) (f : HerdFrame) : Run s₀ :=
  match r.s.routePort f.dst with
  | some p => r.sendOn p f
  | none => r.herdDrop Reg.herdDropUnr

/-- A broadcast leaves on every UP and DOWN port except the one on which it arrived (R395). -/
def Run.spread (r : Run s₀) (arrival : Option Nat) (f : HerdFrame) : Run s₀ :=
  r.each ((List.range 4).filter fun p => some p != arrival && (r.s.hrole p == 1 || r.s.hrole p == 2))
    fun r p => r.sendOn p f

/-! ## Origination (R379, R383) -/

/-- The next sequence number of a class. -/
def Run.nextSeq (r : Run s₀) (cls : Nat) : Run s₀ :=
  r.up (.herd { r.s.herd with seqs := tset 0 cls ((tget 0 cls r.s.herd.seqs + 1) % 65536) r.s.herd.seqs })

/-- A frame that the node originates; before it has an ID it sends no routed frame (R392). A broadcast ASYNC frame is
sent twice, the second time with `dup` = 1 (R379), and so is FIRE, the one broadcast of class TRIG (R473). -/
def Run.originate (r : Run s₀) (cls dst prio : Nat) (payload : List Byte) : Run s₀ :=
  if !r.s.hasId then r
  else
    let f : HerdFrame := { dst := dst, src := r.s.nodeId, cls := cls, prio := prioOf cls prio, hops := r.s.herd.hopLimit,
                           seq := tget 0 cls r.s.herd.seqs, payload := payload }
    let r := r.nextSeq cls
    if dst = 0xFFFF then
      let r := r.spread none f
      if cls = 3 ∨ cls = 7 then r.spread none { f with dup := true } else r
    else r.routeFrame f

/-- A link-local MGMT frame on one port, with `dst` 0 (R386). -/
def Run.linkLocal (r : Run s₀) (p : Nat) (payload : List Byte) : Run s₀ :=
  let f : HerdFrame := { dst := 0, src := r.s.nodeId, cls := 5, hops := r.s.herd.hopLimit,
                         seq := tget 0 5 r.s.herd.seqs, payload := payload }
  (r.nextSeq 5).toQueue p 3 f

/-- Link-local MGMT kinds: those of the fabric (R386) and of campaigns (R602). -/
def linkLocalKind (k : Nat) : Bool := decide (1 ≤ k ∧ k ≤ 4) || decide (0x11 ≤ k ∧ k ≤ 0x15)

/-- The frame may go in the present state of its link: LOCK and CAL carry link-local MGMT, CAL also the time transfer; a
RESTING link SYNC, wrapped frames and kinds 0x01 to 0x04; a BLOCKED link HELLO (R372, R393). -/
def State.mayGo (s : State) (p : Nat) (f : HerdFrame) : Bool :=
  let kind := ((f.payload.head?).map (·.toNat)).getD 0
  let fabric := f.cls == 5 && decide (1 ≤ kind ∧ kind ≤ 4)
  match s.hlink p with
  | 2 => f.cls == 5 && linkLocalKind kind
  | 3 => (f.cls == 5 && linkLocalKind kind) || f.cls == 0
  | 4 => if s.hrole p = 4 then f.cls == 5 && kind == 1
         else if s.hrole p = 3 then fabric || f.cls == 0 || f.wrap
         else true
  | _ => false

end Sys2Proof.Machine
end

