-- ==== Sys2Proof/Machine/Sig.lean ====
section
/-!
DEFINITION. The signal store (05_signal_store.md, R186 to R221 and R657): updates, history, as-of reads, notices,
routes, watches, the descriptor port and the SIG unit.
-/
namespace Sys2Proof.Machine

variable {s₀ : State}

/-! ## Banks (R211 to R214) -/

/-- A bank's level has changed: since when it has been at `hot_level`, and the end of being hot (R214). -/
def Run.bankSeen (r : Run s₀) (b : Nat) : Run s₀ :=
  let lvl := r.s.bankLevel b
  let hot := r.s.rf Reg.sigHotCfg 22 16
  let since := tget none b r.s.sig.hotSince
  let r := r.wf (Reg.sigBankStat b) 6 0 (min lvl 64)
  let r := if hot ≤ lvl then (if since.isSome then r
      else r.mapSig fun t => { t with hotSince := tset none b (some r.s.cyc) t.hotSince })
    else r.mapSig fun t => { t with hotSince := tset none b none t.hotSince }
  if lvl < hot / 2 then (r.wb (Reg.sigBankStat b) 31 false).wb Reg.sigStat (16 + b) false else r

/-- An update joins its bank's queue, or is held back by its writer while that holds 64 (R211, R213). -/
def Run.sigPush (r : Run s₀) (u : SigUpd) : Run s₀ :=
  let b := r.s.bankOf u.idx
  let u := { u with at_ := r.s.cyc }
  if r.s.bankLevel b < 64 ∧ !(r.s.sig.held.any fun x => r.s.bankOf x.idx == b) then
    (r.mapSig fun t => { t with queue := t.queue ++ [u] }).bankSeen b
  else r.mapSig fun t => { t with held := t.held ++ [u] }

/-- The oldest update held back for a bank takes the place that has become free (R213). -/
def Run.bankRefill (r : Run s₀) (b : Nat) : Run s₀ :=
  match r.s.sig.held.find? fun u => r.s.bankOf u.idx == b with
  | some u =>
    if r.s.bankLevel b < 64 then
      r.mapSig fun t => { t with queue := t.queue ++ [{ u with at_ := r.s.cyc }], held := t.held.erase u }
    else r
  | none => r

/-- A result of the sample path starts towards the staging buffer (R212). -/
def Run.sample (r : Run s₀) (u : SigUpd) : Run s₀ := r.mapSig fun t => { t with path := t.path ++ [u] }

/-! ## Reading (R201 to R203) -/

/-- The outcome of a read: status, value, stamp, and whether the entry is aged (R200). -/
structure ReadOut where
  status : Status
  val : Nat := 0
  stamp : Nat := 0
  aged : Bool := false
deriving DecidableEq, Repr

/-- The read of history entry `e` (R201). -/
def State.sigHist (s : State) (i e : Nat) : ReadOut :=
  if 0x40000 ≤ i then { status := .nosuch }
  else
    let g := s.sigView i
    if !g.defined then { status := .nosuch }
    else match g.hist[e]? with
    | none => { status := .empty }
    | some x => ⟨.ok, x.val, x.stamp, x.aged⟩

/-- num/den times an integer, rounded to nearest, ties away from zero (R203). -/
def roundMul (d : Int) (num den : Nat) : Int :=
  let q : Nat := divNear (d.natAbs * num) den
  if d < 0 then -(q : Int) else (q : Int)

/-- Interpolation between (sa, va) and (sb, vb) at τ by type (R203). -/
def interpVal (type : Nat) (modular : Bool) (sa va sb vb tau : Nat) : Nat :=
  let num := (tau + 2 ^ 32 - sa) % 2 ^ 32
  let den := (sb + 2 ^ 32 - sa) % 2 ^ 32
  if type = 3 then
    let a := f32.conv f64 va
    let d := f64.sub (f32.conv f64 vb) a
    f64.conv f32 (f64.add a (f64.mul d (f64.ofRat false num den 0)))
  else
    let signed := type != 2
    let a : Int := if signed then sInt 32 va else (va : Int)
    let b : Int := if signed then sInt 32 vb else (vb : Int)
    let d : Int := if modular then sInt 32 (uNat 32 (b - a)) else b - a
    uNat 32 (a + roundMul d num den)

/-- The as-of read at TS64 `t` (R202, R203). -/
def State.sigAsOf (s : State) (i t : Nat) (interp : Bool) : ReadOut :=
  if 0x40000 ≤ i then { status := .nosuch }
  else
    let g := s.sigView i
    let tau := t % 2 ^ 32
    if !g.defined then { status := .nosuch }
    else match g.hist with
    | [] => { status := .empty }
    | e0 :: _ =>
      let d := diff64 s.now t
      if d > 2 ^ 30 then { status := .empty }
      else if d < -(2 ^ 30) ∨ e0.aged ∨ !older tau e0.stamp then ⟨.ok, e0.val, e0.stamp, e0.aged⟩
      else match g.hist.find? (fun e => !e.aged && e.stamp == tau) with
      | some e => ⟨.ok, e.val, e.stamp, e.aged⟩
      | none => match g.hist.findIdx? (fun e => e.olderThan tau) with
        | none => { status := .empty }
        | some p =>
          let a := g.hist[p]?.getD e0
          let b := g.hist[p - 1]?.getD e0
          if !interp || !g.interp || g.type == 5 || a.aged then ⟨.ok, a.val, a.stamp, a.aged⟩
          else ⟨.ok, interpVal g.type g.modular a.stamp a.val b.stamp b.val tau, tau, false⟩

/-! ## Applying an update (R194 to R209, R657) -/

/-- Comparison of two signal words in a type; none with a NaN (R657). -/
def cmpVal (type a b : Nat) : Option Ordering :=
  if type = 3 then (f32.dec a).cmp (f32.dec b)
  else if type = 2 ∨ type = 5 then some (compare a b)
  else some (compare (sInt 32 a) (sInt 32 b))

/-- A WATCH condition is met by entry 0 changing from `prev` to `new` (R657). -/
def watchMet (cond thr type : Nat) (prev : Option Nat) (new : Nat) : Bool :=
  match cond with
  | 0 => true
  | 1 => prev != some new
  | 2 => match prev with
    | none => false
    | some p => (cmpVal type p thr == some .lt || cmpVal type p thr == some .eq) && cmpVal type new thr == some .gt
  | _ => match prev with
    | none => false
    | some p => (cmpVal type p thr == some .gt || cmpVal type p thr == some .eq) && cmpVal type new thr == some .lt

/-- Pending WATCHes of the signal that the update meets complete OK with value, stamp, previous value and stamp (R216). -/
def Run.serveWatches (r : Run s₀) (i : Nat) (type : Nat) (prev : Option Entry) (new : Entry) : Run s₀ :=
  let met := r.s.sig.watches.filter fun w => w.idx == i && watchMet w.cond w.thr type (prev.map (·.val)) new.val
  let r := r.mapSig fun t => { t with watches := t.watches.filter fun w => !met.contains w }
  let pv := (prev.map (·.val)).getD 0
  let ps := (prev.map (·.stamp)).getD 0
  r.each met fun r w => match r.s.op w.op with
    | none => r
    | some o => r.opFin o o.okSt 0 (wordsLE [new.val, new.stamp, pv, ps])

/-- An update for another node (R384): it waits for the UPDATE frame that its port packs. One frame without entries
stands for all updates that wait for its destination, until it starts; a broadcast goes out at once. An update for the
node itself is delivered (R395). -/
def Run.remoteUpdate (r : Run s₀) (node idx val stamp : Nat) : Run s₀ :=
  if !r.s.hasId then r
  else if node = r.s.nodeId then r.sigPush { idx := idx, val := val, stamp := stamp, kind := 6, inst := node }
  else if node = 0xFFFF then r.originate 6 node 2 (bytesBE 4 idx ++ bytesBE 4 val ++ bytesBE 4 stamp)
  else if (r.s.routePort node).isNone then r.herdDrop Reg.herdDropUnr
  else
    let r := r.mapSig fun t => { t with herdOut := t.herdOut ++ [⟨node, idx, val, stamp⟩] }
    let waits := (List.range 4).any fun p => (r.s.hport p).q2.any fun g =>
      g.cls == 6 && g.dst == node && !g.transit && g.payload.isEmpty
    if waits then r else r.originate 6 node 2 []

/-- One route entry (R206, R208): sent as an UPDATE, written locally with kind ROUTE, or skipped with `route_fault`. -/
def Run.routeOne (r : Run s₀) (e : Nat) (u : SigUpd) : Run s₀ :=
  let a := r.s.rget64 Reg.sigRouteBaseLoAct Reg.sigRouteBaseHiAct + 8 * e
  let (r, st, d) := r.memRead 3 a 8
  let node := recNat d 0 2
  let idx := recNat d 2 3
  let kind := recNat d 6 1
  if st ≠ .ok ∨ 1 < kind ∨ recNat d 5 1 ≠ 0 ∨ recNat d 7 1 ≠ 0 ∨ 0x40000 ≤ idx ∨ (kind = 1 ∧ node ≠ 0) then
    r.flag Reg.sigEvstat 5
  else if kind = 1 then r.sigPush { idx := idx, val := u.val, stamp := u.stamp, kind := 10 }
  else r.remoteUpdate node idx u.val u.stamp

/-- Change notices for the sessions of a mask (R204). -/
def Run.notify (r : Run s₀) (m : Nat) (u : SigUpd) (lateIns : Bool) : Run s₀ :=
  let ns := (List.range 16).filter fun n => bit m n
  let l := ns.map fun n => (⟨n, u.idx, u.val, u.stamp, lateIns, ns.getLast? == some n⟩ : Notice)
  r.mapSig fun t => { t with notices := t.notices ++ l }

/-- The notice stage for an accepted update (R204, R206, R209). -/
def Run.noticeStage (r : Run s₀) (g : Sig) (h' : List Entry) (pos : Nat) (u : SigUpd) : Run s₀ :=
  let r :=
    if pos ≠ 0 then r.notify g.captMask u true
    else if g.hist.isEmpty then r.notify g.captMask u false
    else match h'[1]? with
      | some o => if o.val ≠ u.val then r.notify g.captMask u false else r
      | none => r
  let r := if pos = 0 then r.serveWatches u.idx g.type g.hist.head? ⟨u.val, u.stamp, false⟩ else r
  if g.routeEn && u.kind != 10 then r.each (List.range g.routeCnt) fun r k => r.routeOne (g.routeHead + k) u else r

/-- An update reaches its bank: refused (R194), dropped as LATE (R198), or applied to the history (R197) with its
notices, routes and watches. -/
def Run.sigUpdate (r : Run s₀) (u : SigUpd) : Run s₀ × Status :=
  let r := r.sigEcc u.idx
  match r.s.updRefusal u with
  | some .nosuch => ((r.count Reg.sigUndef 31 0).flag Reg.sigEvstat 2, .nosuch)
  | some .denied => ((r.count Reg.sigDenied 31 0).flag Reg.sigEvstat 1, .denied)
  | some st => ((r.count Reg.sigStamperr 31 0).flag Reg.sigEvstat 4, st)
  | none =>
    let g := r.s.sigRec u.idx
    let p := placeOf r.s.now32 g.hist u.stamp
    match p.pos with
    | none =>
      let r := r.setSig u.idx { g with late := satAdd g.late 1 65535 }
      ((r.count Reg.sigLate 31 0).flag Reg.sigEvstat 0, .late)
    | some k =>
      let h' := placeIn g.hist u.stamp u.val p
      ((r.setSig u.idx { g with hist := h' }).noticeStage g h' k u, .ok)

/-- SAMPLE_STAGE: the oldest result on the sample path enters the staging buffer of 512 (R212). -/
def execSampleStage (s : State) : Out :=
  let r := Run.start s
  match s.sig.path with
  | [] => r.done
  | u :: t =>
    if 512 ≤ s.sig.stage.length then r.done
    else
      let r := r.mapSig fun x => { x with path := t, stage := x.stage ++ [u] }
      (r.wf Reg.sigStat 9 0 r.s.sig.stage.length).done

/-- The next update that a bank serves: staged results, then the loop engine, then the oldest (R211). -/
def State.bankNext (s : State) (b : Nat) : Option (SigUpd × Bool) :=
  match s.sig.stage.find? fun u => s.bankOf u.idx == b with
  | some u => some (u, true)
  | none => match s.sig.queue.find? fun u => s.bankOf u.idx == b && u.kind == 4 with
    | some u => some (u, false)
    | none => (s.sig.queue.find? fun u => s.bankOf u.idx == b).map fun u => (u, false)

/-- A refused update of a loop-engine output is counted for its context (R246); one of a profile generator sets its
`cfgerr` (R305). -/
def Run.leOutErr (r : Run s₀) (u : SigUpd) (st : Status) : Run s₀ :=
  if u.kind = 4 ∧ st.isRefusal then (r.count (Reg.leCtxCnt u.inst) 31 24).flag Reg.leEvstat 5
  else if u.kind = 5 ∧ st.isRefusal then r.flag (Reg.motEvstat u.inst) 0
  else r

/-- An update that waits is applied: a staged one, or one of the bank's queue. -/
def Run.bankServe (r : Run s₀) (b : Nat) (u : SigUpd) (staged : Bool) : Run s₀ :=
  let r :=
    if staged then
      let r := r.mapSig fun t => { t with stage := t.stage.erase u }
      r.wf Reg.sigStat 9 0 r.s.sig.stage.length
    else ((r.mapSig fun t => { t with queue := t.queue.erase u }).bankRefill b).bankSeen b
  let (r, st) := r.sigUpdate u
  r.leOutErr u st

/-- SIG_UPDATE_APPLY: bank `b` serves its next update, while the notice stage has a place; staged results go ahead of all
other updates there (R197, R210, R211). -/
def execSigUpdateApply (b : Nat) (s : State) : Out :=
  let r := Run.start s
  match s.bankNext b with
  | none => r.done
  | some (u, staged) =>
    if 256 ≤ s.noticeLevel + (if staged then 0 else s.sig.stage.length) then r.done else (r.bankServe b u staged).done

/-- What waits in a bank is served before a request that reaches it now (R199, R211). -/
def Run.bankFlush (r : Run s₀) (i : Nat) : Run s₀ :=
  let b := r.s.bankOf i
  r.each (List.range (r.s.bankAhead b)) fun r _ => match r.s.bankNext b with
    | some (u, staged) => r.bankServe b u staged
    | none => r

/-- An update that reaches its bank with those before it served. -/
def Run.sigWrite (r : Run s₀) (u : SigUpd) : Run s₀ × Status := (r.bankFlush u.idx).sigUpdate u

/-- The store's own access to a record: what waits goes first (R42, R211), and the record's errors are met (R219 to R221). -/
def Run.sigMeet (r : Run s₀) (i : Nat) : Run s₀ := (r.bankFlush i).sigEcc i

/-- Results on the sample path are staged while the buffer has room: they are there before the loop engine reads (R40). -/
def Run.pathFlush (r : Run s₀) : Run s₀ :=
  let k := min r.s.sig.path.length (512 - r.s.sig.stage.length)
  if k = 0 then r
  else
    let r := r.mapSig fun x => { x with path := x.path.drop k, stage := x.stage ++ x.path.take k }
    r.wf Reg.sigStat 9 0 r.s.sig.stage.length

/-- A read of the loop engine goes ahead of other requests, but not of an update of the same signal that has reached the bank
in the same SYS cycle (R42, R211). -/
def Run.leMeet (r : Run s₀) (i : Nat) : Run s₀ :=
  let now := r.s.sig.queue.filter fun u => u.idx == i && u.at_ == r.s.cyc
  (r.each now fun r u => r.bankServe (r.s.bankOf i) u false).sigEcc i

/-- AGEING_VISIT: entries more than 2³⁰ ns before `now` are marked aged (R200). -/
def execAgeingVisit (i : Nat) (s : State) : Out :=
  let r := (Run.start s).sigEcc i
  let g := r.s.sigRec i
  (if g.defined then
    r.setSig i { g with hist := g.hist.map fun e => if diff32 r.s.now32 e.stamp > 2 ^ 30 then { e with aged := true } else e }
   else r).done

/-- BANK_HOT: the queue has held `hot_level` requests for `hot_us` (R214). -/
def execBankHot (b : Nat) (s : State) : Out :=
  let r := Run.start s
  match tget none b s.sig.hotSince with
  | none => r.done
  | some c =>
    if c + usCyc (s.rf Reg.sigHotCfg 15 0) ≤ s.cyc ∧ !s.rb (Reg.sigBankStat b) 31 then
      let r := (r.wb (Reg.sigBankStat b) 31 true).wb Reg.sigStat (16 + b) true
      ((r.count (Reg.sigBankHot b) 15 0).flag Reg.sigEvstat 3).done
    else r.done

/-- SIG_LOCATE_WRITE: the result register shows the index's bank and slot (R189). -/
def Run.writeLocate (r : Run s₀) (v : Nat) : Run s₀ :=
  let i := v % 2 ^ 18
  let (b, slot) := r.s.locate i
  (r.wr Reg.sigLocateIdx i).wr Reg.sigLocateRes (b <<< 28 + slot)

def execSigLocateWrite (v : Word) (s : State) : Out := ((Run.start s).writeLocate v.toNat).done

/-! ## Descriptors (R191, R195, R216) -/

/-- The descriptor that 16 bytes spell, without history. -/
def sigOfBytes (d : List Byte) : Sig :=
  let f := recNat d 1 1
  { type := recNat d 0 1 % 16, routeEn := bit f 3, modular := bit f 2, interp := bit f 1, defined := bit f 0,
    srcKind := recNat d 2 1 % 16, srcInst := recNat d 4 2, captMask := recNat d 6 2, late := recNat d 8 2,
    routeCnt := recNat d 10 2, routeHead := recNat d 12 2 }

/-- The fields that the store and capture maintain are 0 in a DEFINE. -/
def maintainedZero (d : List Byte) : Bool :=
  !bit (recNat d 1 1) 4 && recNat d 3 1 &&& 0xF7 == 0 && recNat d 6 2 == 0 && recNat d 8 2 == 0

/-- The route fields fit the route table (R216). -/
def State.routeFits (s : State) (en : Bool) (cnt head : Nat) : Bool :=
  decide (cnt ≤ 64) && (!en || decide (head + cnt ≤ s.rf Reg.sigRouteLenAct 16 0))

/-- DEFINE (R216): outcome, and the record created. -/
def Run.sigDefine (r : Run s₀) (i : Nat) (d : List Byte) (init : Option (Nat × Nat)) : Run s₀ × Status :=
  let g := sigOfBytes d
  let r := r.sigMeet i
  if (r.s.sigRec i).defined then (r, .refused)
  else if !g.defined || g.type == 0 || decide (5 < g.type) || decide (10 < g.srcKind) || !maintainedZero d
      || !r.s.routeFits g.routeEn g.routeCnt g.routeHead then (r, .cfgerr)
  else match init with
  | none => (r.setSig i g, .ok)
  | some (v, u) =>
    let e := diff32 u r.s.now32
    if e > 2 ^ 30 ∨ e < -(2 ^ 30) then (r, .cfgerr)
    else (r.setSig i { g with hist := [⟨v, u, false⟩] }, .ok)

/-- UNDEFINE (R216): EMPTY if not defined; WATCHes end ABORTED, cause UNDEF. -/
def Run.sigUndefine (r : Run s₀) (i : Nat) : Run s₀ × Status :=
  let r := r.sigMeet i
  if !(r.s.sigRec i).defined then (r, .empty)
  else ((r.setSig i {}).endWatches i .aborted 0x10, .ok)

/-- The status of a command at the descriptor port. -/
def Run.dportStatus (r : Run s₀) (st : Status) : Run s₀ := r.wf Reg.sigDportCmd 31 24 st.code

/-- A command at the descriptor port is carried out. -/
def Run.dportDo (r : Run s₀) (cmd : Nat) : Run s₀ :=
  let i := r.s.rf Reg.sigDportIdx 17 0
  let w (n : Nat) : Nat := (r.s.rget (Reg.sigDportW n)).toNat
  match cmd with
  | 1 => let (r, st) := r.sigDefine i (wordsLE [w 0, w 1, w 2, w 3]) none; r.dportStatus st
  | 2 => let (r, st) := r.sigUndefine i; r.dportStatus st
  | 3 =>
    let r := r.sigMeet i
    if !(r.s.sigRec i).defined then r.dportStatus .nosuch
    else
      let d := r.s.sigBytes i
      let r := r.each (List.range 4) fun r n => r.wr (Reg.sigDportW n) (recNat d (4 * n) 4)
      (r.each (List.range 8) fun r n => r.wr (Reg.sigDportHist n) (recNat d (16 + 4 * n) 4)).dportStatus .ok
  | 4 => let (r, st) := r.sigWrite { idx := i, val := w 0, stamp := w 1, kind := 2 }; r.dportStatus st
  | _ => let (r, st) := r.sigWrite { idx := i, val := w 0, stamp := r.s.now32, kind := 2 }; r.dportStatus st

/-- A write of SIG_DPORT_CMD: values other than 1 to 5, and any while a command is in progress, are refused with `cfgerr`; a
command whose bank cannot serve it yet is in progress until it can (R213). -/
def Run.dport (r : Run s₀) (cmd : Nat) : Run s₀ :=
  if cmd < 1 ∨ 5 < cmd ∨ r.s.sig.dport.isSome then r.flag Reg.sigEvstat 8
  else if r.s.banksOpen [r.s.rf Reg.sigDportIdx 17 0] then r.dportDo cmd
  else (r.mapSig fun t => { t with dport := some cmd }).wb Reg.sigDportCmd 16 true

/-- The bank can serve the command in progress at the descriptor port. -/
def Run.dportDue (r : Run s₀) : Run s₀ :=
  match r.s.sig.dport with
  | none => r
  | some cmd =>
    if r.s.banksOpen [r.s.rf Reg.sigDportIdx 17 0] then
      ((r.mapSig fun t => { t with dport := none }).wb Reg.sigDportCmd 16 false).dportDo cmd
    else r

def execDportDefine (s : State) : Out := ((Run.start s).dport 1).done
def execDportUndefine (s : State) : Out := ((Run.start s).dport 2).done
def execDportInfo (s : State) : Out := ((Run.start s).dport 3).done
def execDportWrite (s : State) : Out := ((Run.start s).dport 4).done
def execDportWriteNow (s : State) : Out := ((Run.start s).dport 5).done

/-! ## Operations of the SIG unit (R216, R217), unit 3 -/

def Run.actSigDefine (r : Run s₀) (o : Op) : Run s₀ :=
  let d := o.payload
  if !r.s.banksOpen [o.obj] then r
  else
  let init := if bit (recNat d 16 1) 0 then some (recNat d 20 4, recNat d 24 4) else none
  let (r, st) := r.sigDefine o.obj (d.take 16) init
  r.opFin o (if st = .ok then o.okSt else st) 0 []

def Run.actSigUndefine (r : Run s₀) (o : Op) : Run s₀ :=
  if !r.s.banksOpen [o.obj] then r
  else
  let (r, st) := r.sigUndefine o.obj
  r.opFin o (if st = .ok then o.okSt else st) 0 []

/-- One read of READ: mode 0 NEWEST, 1 HIST, 2 HOLD, 3 INTERP (R216). -/
def State.sigReadMode (s : State) (mode e t i : Nat) : ReadOut :=
  match mode with
  | 0 => s.sigHist i 0
  | 1 => s.sigHist i e
  | 2 => s.sigAsOf i t false
  | _ => s.sigAsOf i t true

def Run.actSigRead (r : Run s₀) (o : Op) : Run s₀ :=
  let d := o.payload
  let n := recNat d 10 2
  let mode := recNat d 8 1
  if 256 < n ∨ 3 < mode then r.opFin o .cfgerr 0 []
  else if n = 0 then r.opFin o .empty 0 []
  else
    let idx := (List.range n).map fun k => recNat d (16 + 4 * k) 4
    if !r.s.banksOpen (idx.filter fun i => decide (i < 0x40000)) then r
    else
    let r := r.each idx fun r i => if i < 0x40000 then r.sigMeet i else r
    let outs := idx.map fun i => r.s.sigReadMode mode (recNat d 9 1) (recNat d 0 8) i
    r.opFin o o.okSt 0 (outs.flatMap (fun x => bytesLE 4 x.val ++ bytesLE 4 x.stamp)
      ++ outs.map fun x => BitVec.ofNat 8 x.status.code)

def Run.actSigWrite (r : Run s₀) (o : Op) : Run s₀ :=
  let d := o.payload
  let n := recNat d 2 2
  let useNow := bit (recNat d 0 1) 0
  if 256 < n then r.opFin o .cfgerr 0 []
  else if n = 0 then r.opFin o .empty 0 []
  else
    let now := r.s.now32
    let step (acc : Run s₀ × List Status) (k : Nat) : Run s₀ × List Status :=
      let i := recNat d (16 + 12 * k) 4
      let u := if useNow then now else recNat d (24 + 12 * k) 4
      if 0x40000 ≤ i then (acc.1, acc.2 ++ [.nosuch])
      else
        let (r, st) := acc.1.sigWrite { idx := i, val := recNat d (20 + 12 * k) 4, stamp := u, kind := 1, inst := o.tid }
        (r, acc.2 ++ [st])
    let idx := ((List.range n).map fun k => recNat d (16 + 12 * k) 4).filter fun i => decide (i < 0x40000)
    if !r.s.banksOpen idx then r
    else
    let (r, sts) := (List.range n).foldl step (r, [])
    r.opFin o o.okSt 0 (sts.map fun x => BitVec.ofNat 8 x.code)

def Run.actSigSetroute (r : Run s₀) (o : Op) : Run s₀ :=
  let d := o.payload
  if !r.s.banksOpen [o.obj] then r
  else
  let r := r.sigMeet o.obj
  let g := r.s.sigRec o.obj
  let en := bit (recNat d 0 1) 0
  if !g.defined then r.opFin o .nosuch 0 []
  else if !r.s.routeFits en (recNat d 2 2) (recNat d 4 2) then r.opFin o .cfgerr 0 []
  else (r.setSig o.obj { g with routeEn := en, routeCnt := recNat d 2 2, routeHead := recNat d 4 2 }).opFin o o.okSt 0 []

/-- WATCH takes effect when it is accepted and completes at the update that meets it (R161, R216). -/
def Run.actSigWatch (r : Run s₀) (o : Op) : Run s₀ :=
  let d := o.payload
  if 3 < recNat d 0 1 then r.opFin o .cfgerr 0 []
  else if !r.s.banksOpen [o.obj] then r
  else
  let r := r.sigMeet o.obj
  if !(r.s.sigRec o.obj).defined then r.opFin o .nosuch 0 []
  else if 256 ≤ r.s.sig.watches.length then r.opFin o .overload 0 []
  else (r.mapSig fun t => { t with watches := t.watches ++ [⟨o.id, o.obj, recNat d 0 1, recNat d 4 4⟩] }).opAct o

def Run.actSigInfo (r : Run s₀) (o : Op) : Run s₀ :=
  if !r.s.banksOpen [o.obj] then r
  else
  let r := r.sigMeet o.obj
  if !(r.s.sigRec o.obj).defined then r.opFin o .nosuch 0 [] else r.opFin o o.okSt 0 (r.s.sigBytes o.obj)

def execSigDefine (id : Nat) (s : State) : Out := ((Run.start s).opRow id 3 1 Run.actSigDefine).done
def execSigUndefine (id : Nat) (s : State) : Out := ((Run.start s).opRow id 3 2 Run.actSigUndefine).done
def execSigRead (id : Nat) (s : State) : Out := ((Run.start s).opRow id 3 3 Run.actSigRead).done
def execSigWrite (id : Nat) (s : State) : Out := ((Run.start s).opRow id 3 4 Run.actSigWrite).done
def execSigSetroute (id : Nat) (s : State) : Out := ((Run.start s).opRow id 3 5 Run.actSigSetroute).done
def execSigWatch (id : Nat) (s : State) : Out := ((Run.start s).opRow id 3 6 Run.actSigWatch).done
def execSigInfo (id : Nat) (s : State) : Out := ((Run.start s).opRow id 3 7 Run.actSigInfo).done

/-- The check of R15 for group ROUTE: no defined signal with routes reaches beyond the table. -/
def State.routeCheck (s : State) : Bool :=
  s.sig.recs.all fun e => !(e.2.defined && e.2.routeEn) || decide (e.2.routeHead + e.2.routeCnt ≤ s.rf Reg.sigRouteLen 16 0)

end Sys2Proof.Machine
end

