-- ==== Sys2Proof/Machine/Adc.lean ====
section
/-!
DEFINITION. Converters and open-wire diagnosis (09_analog.md, R342 to R370) and the ADC unit (unit 8). The raw code of a
conversion and the trims of a calibration are what the outside world gives.
-/
namespace Sys2Proof.Machine

variable {s₀ : State}

/-- A converter. -/
def State.adcC (s : State) (n : Nat) : Adc := tget {} n s.adc.convs
def Run.setAdc (r : Run s₀) (n : Nat) (x : Adc) : Run s₀ :=
  r.up (.adc { r.s.adc with convs := tset {} n x r.s.adc.convs })

/-- The present TB tick of the model's clock. -/
def State.tick (s : State) : Nat := s.cyc / 4

/-- `en` and `len` in use. -/
def State.adcEn (s : State) (n : Nat) : Bool := s.rb (Reg.adcCfgAct n) 31
def State.adcLen (s : State) (n : Nat) : Nat := s.rf (Reg.adcCfgAct n) 4 0

/-- Bit i: source field i is not 0. -/
def srcOn (src : Nat) : Nat := (List.range 8).foldl (fun m i => m + b2n (bits src (2 * i + 1) (2 * i) != 0) <<< i) 0

/-- Inputs under test (R363): a source on through OWSRC, or the present input of a running OWDIAG. -/
def State.underTest (s : State) (n : Nat) : Nat :=
  let src := s.rf (Reg.adcOwsrc n) 15 0
  match (s.adcC n).ow with
  | none => srcOn src
  | some w => srcOn src ||| 2 ^ w.input

/-- ADCn_STAT with the bits that follow from the converter's state. -/
def State.adcStatReg (s : State) (n : Nat) : Nat :=
  let x := s.adcC n
  let st := if !s.adcEn n then 0
    else if x.calEnd.isSome then 4
    else match x.conv with
      | some c => (match c.kind with | .regular _ => 2 | .injected _ => 3 | .openWire => 5)
      | none => if x.running then 2 else 1
  let cal := x.calPending || x.calEnd.isSome
  st <<< 29 + b2n (s.rb (Reg.adcStat n) 28) <<< 28 + b2n x.calPending <<< 27 + b2n x.latched <<< 26
    + b2n (x.running && cal) <<< 25 + b2n (s.rb Reg.bhrStat 28) <<< 24 + s.underTest n <<< 16 + x.inj.length <<< 12 + x.next

/-! ## Triggers (R347 to R349) -/

/-- A commit of the converter waits for its boundary and its time has come (R359). -/
def State.adcCommitting (s : State) (n : Nat) : Bool :=
  s.commitDue (.adc n)

/-- Entries on inputs under test are skipped (R363). -/
def skipEntries (entry : Nat → Nat) (under len : Nat) : Nat → Nat → Nat × Nat
  | 0, next => (next, 0)
  | fuel + 1, next =>
    if next < len && bit under (entry next) then
      let (n', k) := skipEntries entry under len fuel (next + 1)
      (n', k + 1)
    else (next, 0)

/-- A sequence is at work: triggered, or running from its first hold (R346). -/
def Adc.busy (x : Adc) : Bool := x.armed || x.running

/-- The next regular entry to hold, after skips (R363). -/
def Run.adcSkip (r : Run s₀) (n : Nat) : Run s₀ :=
  let x := r.s.adcC n
  if !x.busy then r
  else
  let (next, k) := skipEntries (fun j => r.s.rf (Reg.adcSeqAct n j) 29 27) (r.s.underTest n) (r.s.adcLen n) 17 x.next
  if k = 0 then r else (r.setAdc n { x with next := next }).countBy (Reg.adcCnt n) 7 0 k

/-- A sequence is triggered: entry 0 holds on the present tick at the earliest, and from its first hold on the sequence is
running (R346). -/
def Run.adcStart (r : Run s₀) (n : Nat) (op : Option Nat) : Run s₀ :=
  r.setAdc n { r.s.adcC n with armed := true, next := 0, trigAt := r.s.tick, seqOp := op }

/-- A latched trigger starts its sequence. -/
def Run.adcUnlatch (r : Run s₀) (n : Nat) : Run s₀ :=
  let x := r.s.adcC n
  if x.latched ∧ !x.busy ∧ !x.calPending ∧ x.calEnd.isNone ∧ !r.s.adcCommitting n then
    (r.setAdc n { x with latched := false, latchOp := none }).adcStart n x.latchOp
  else r

/-- An operation of the unit ends; class 0x10 sets `cfgerr`, or `inj_refused` for INJECT. -/
def Run.adcFin (r : Run s₀) (o : Op) (st : Status) (cause stamp : Nat) (res : List Byte) : Run s₀ :=
  (r.when (st.isRefusal && decide (o.obj < 12)) fun r => r.flag (Reg.adcEvstat o.obj) (if o.code = 3 then 7 else 0)).opEnd o st cause stamp res 0

/-- Operations by number end. -/
def Run.adcEnd (r : Run s₀) (ids : List Nat) (st : Option Status) (cause stamp : Nat) (res : List Byte) : Run s₀ :=
  r.each ids fun r id => match r.s.op id with
    | none => r
    | some o => if o.out.isSome then r else r.adcFin o (st.getD o.okSt) cause stamp res

/-- The regular sequence has ended (R346, R347 CONT, R348). -/
def Run.adcSeqEnd (r : Run s₀) (n : Nat) : Run s₀ :=
  let x := r.s.adcC n
  let due := if r.s.rf (Reg.adcCfgAct n) 25 24 = 3 then some r.s.tick else x.trigDue
  let r := r.setAdc n { x with armed := false, running := false, seqOp := none, next := 0, trigDue := due }
  (r.adcEnd x.seqOp.toList none 0 r.s.now32 []).adcUnlatch n

/-- The outcome of a trigger. -/
inductive Trig where
  | started | latched | lost | nothing
deriving DecidableEq, Repr

/-- A trigger arrives: it starts the sequence, is latched, or is lost (R348, R349). -/
def Run.adcTrigger (r : Run s₀) (n : Nat) (op : Option Nat) : Run s₀ × Trig :=
  let x := r.s.adcC n
  if r.s.adcLen n = 0 then (r, .nothing)
  else if x.busy || x.calPending || x.calEnd.isSome then
    if x.latched then ((r.count (Reg.adcCnt n) 31 16).flag (Reg.adcEvstat n) 2, .lost)
    else (r.setAdc n { x with latched := true, latchOp := op }, .latched)
  else (r.adcStart n op, .started)

/-- The conversion boundary (R359). -/
def State.adcAtBoundary (s : State) (n : Nat) : Bool :=
  let x := s.adcC n
  !x.running && x.conv.isNone && x.calEnd.isNone

/-- ADC_SEQUENCE_TRIGGER: the trigger that `trg_src` names has come (R347). At a conversion boundary a waiting commit comes
first (R359). -/
def execAdcSequenceTrigger (n : Nat) (s : State) : Out :=
  let r := Run.start s
  let x := s.adcC n
  match x.trigDue with
  | none => r.done
  | some t =>
    if s.adcEn n ∧ t ≤ s.tick ∧ !(s.adcCommitting n && s.adcAtBoundary n) then (((r.setAdc n { x with trigDue := none }).adcTrigger n none).1).done else r.done

/-- A grid's boundary sets the trigger tick of its converters (R347). -/
def Run.adcBoundary (r : Run s₀) (g : Nat) : Run s₀ :=
  r.each ((List.range 12).filter fun n => r.s.adcEn n && r.s.rf (Reg.adcCfgAct n) 25 24 == 1
      && r.s.rf (Reg.adcCfgAct n) 23 20 == g) fun r n =>
    r.setAdc n { r.s.adcC n with trigDue := some (r.s.tick + r.s.rf (Reg.adcTrgoffAct n) 15 0) }

/-- A qualified edge of TRIGch sets the trigger tick of its converters: the tick after qualification, for the directions
of `edge`, whether or not the stamp channel is enabled (R347). -/
def Run.adcPin (r : Run s₀) (ch : Nat) (rising : Bool) : Run s₀ :=
  if bit (r.s.rf (Reg.timeTrigCfg ch) 9 8) (if rising then 0 else 1) then
    r.each ((List.range 12).filter fun n => r.s.adcEn n && r.s.rf (Reg.adcCfgAct n) 25 24 == 2
        && r.s.rf (Reg.adcCfgAct n) 23 20 == ch) fun r n =>
      r.setAdc n { r.s.adcC n with trigDue := some (r.s.tick + 1) }
  else r

/-- A write of `trigger` in ADCn_CTRL. -/
def Run.writeTrigger (r : Run s₀) (n v : Nat) : Run s₀ :=
  if !bit v 0 then r
  else if !r.s.adcEn n then r.flag (Reg.adcEvstat n) 0
  else (r.adcTrigger n none).1

def execAdcTriggerWrite (n : Nat) (v : Word) (s : State) : Out := ((Run.start s).writeTrigger n v.toNat).done

/-! ## Calibration (R356 to R358) -/

/-- A calibration becomes pending: the requests queued at this moment come before it (R356). -/
def Run.adcCalRequest (r : Run s₀) (n : Nat) : Run s₀ :=
  let x := r.s.adcC n
  if x.calPending || x.calEnd.isSome then r
  else r.setAdc n { x with calPending := true, inj := x.inj.map fun i => { i with early := true } }

def Run.writeCalib (r : Run s₀) (n v : Nat) : Run s₀ :=
  if !bit v 1 then r
  else if !r.s.adcEn n then r.flag (Reg.adcEvstat n) 0
  else r.adcCalRequest n

def execAdcCalibWrite (n : Nat) (v : Word) (s : State) : Out := ((Run.start s).writeCalib n v.toNat).done

/-- ADC_CAL_START: earlier injected requests have been held and no conversion is in progress. -/
def execAdcCalStart (n : Nat) (s : State) : Out :=
  let r := Run.start s
  let x := s.adcC n
  if x.calPending ∧ x.conv.isNone ∧ !x.inj.any (·.early) then
    (r.setAdc n { x with calPending := false, calEnd := some (s.tick + 9600) }).done
  else r.done

/-- ADC_CAL_END: the trims found, or none when they lie outside their range (R357). -/
def execAdcCalEnd (n : Nat) (trims : Option Word) (s : State) : Out :=
  let r := Run.start s
  let x := s.adcC n
  match x.calEnd with
  | none => r.done
  | some t =>
    if s.tick < t then r.done
    else
      let r := r.setAdc n { x with calEnd := none, calOps := [], lastHold := some s.tick
                                   inj := x.inj.map fun i => { i with tick := max i.tick s.tick } }
      let r := r.flag (Reg.adcEvstat n) 3
      let r := match trims with
        | some w => ((r.wr (Reg.adcCal n) w.toNat).wb (Reg.adcStat n) 28 true).adcEnd x.calOps none 0 r.s.now32 []
        | none => r.adcEnd x.calOps (some .fault) 0x11 r.s.now32 []
      (r.adcUnlatch n).done

/-! ## Injected requests (R350, R351) -/

/-- A request is queued, or refused with the status of R367. -/
def Run.adcInject (r : Run s₀) (n : Nat) (q : AdcInj) : Run s₀ × Status × Nat :=
  let x := r.s.adcC n
  if !r.s.adcEn n then (r, .refused, 0x12)
  else if 7 < q.input then (r, .cfgerr, 0)
  else if q.sig ∧ 0x3FFFF < q.idx then (r, .nosuch, 0)
  else if bit (r.s.underTest n) q.input then (r, .refused, 0x10)
  else if 4 ≤ x.inj.length then (r, .overload, 0)
  else (r.setAdc n { x with inj := x.inj ++ [q] }, .ok, 0)

/-- A write of ADCn_INJ. -/
def Run.writeInj (r : Run s₀) (n v : Nat) : Run s₀ :=
  match r.adcInject n { input := bits v 29 27, ext := bits v 26 19, sig := bit v 31, dr := bit v 30,
                        idx := bits v 17 0, tick := r.s.tick } with
  | (r, .ok, _) => r
  | (r, _, _) => r.flag (Reg.adcEvstat n) 7

def execAdcInjWrite (n : Nat) (v : Word) (s : State) : Out := ((Run.start s).writeInj n v.toNat).done

/-! ## Open-wire diagnosis (R363 to R365) -/

/-- A write of ADCn_OWSRC: source codes of 3 and a change of an input under an OWDIAG are refused (R362, R363). -/
def Run.writeOwsrc (r : Run s₀) (n v : Nat) : Run s₀ :=
  let old := r.s.rf (Reg.adcOwsrc n) 15 0
  let m := match (r.s.adcC n).ow with
    | none => 0
    | some w => w.mask
  let f (x i : Nat) : Nat := bits x (2 * i + 1) (2 * i)
  let bad := (List.range 8).any fun i => f v i == 3 || (bit m i && f v i != f old i)
  let r := r.wb (Reg.adcOwsrc n) 16 (bit v 16)
  if bad then r.flag (Reg.adcEvstat n) 0 else r.wf (Reg.adcOwsrc n) 15 0 (bits v 15 0)

def execAdcOwsrcWrite (n : Nat) (v : Word) (s : State) : Out := ((Run.start s).writeOwsrc n v.toNat).done

/-- The current source of an input (R364, R370): 0 off, 1 up, 2 down, and its current in µA. -/
def State.adcSource (s : State) (n i : Nat) : Nat × Nat :=
  let uA (b : Bool) : Nat := if b then 50 else 10
  match (s.adcC n).ow with
  | some w => if w.input = i then ((match w.phase with | .up => 1 | .down => 2 | .recover => 0), uA w.big)
      else (bits (s.rf (Reg.adcOwsrc n) 15 0) (2 * i + 1) (2 * i), uA (s.rb (Reg.adcOwsrc n) 16))
  | none => (bits (s.rf (Reg.adcOwsrc n) 15 0) (2 * i + 1) (2 * i), uA (s.rb (Reg.adcOwsrc n) 16))

/-- The lowest input of a mask from `i` on. -/
def nextInput (m i : Nat) : Option Nat := (List.range 8).find? fun k => decide (i ≤ k) && bit m k

/-- The result of OWDIAG: cu and cd of each input, the open and the done mask. -/
def State.owBytes (s : State) (n : Nat) (w : AdcOw) : List Byte :=
  (List.range 8).flatMap (fun i => let (cu, cd) := tget (0, 0) i w.readings; bytesLE 2 cu ++ bytesLE 2 cd)
    ++ bytesLE 1 (s.rf (Reg.adcOwres n) 7 0) ++ bytesLE 1 (s.rf (Reg.adcOwres n) 15 8) ++ bytesLE 6 0

/-- OW_SETTLE_END: a conversion is due, or the input is finished (R364). -/
def execOwSettleEnd (n : Nat) (s : State) : Out :=
  let r := Run.start s
  let x := s.adcC n
  match x.ow with
  | none => r.done
  | some w =>
    if w.ready ∨ s.tick < w.waitTo then r.done
    else if w.phase ≠ .recover then (r.setAdc n { x with ow := some { w with ready := true } }).done
    else
      let (cu, cd) := tget (0, 0) w.input w.readings
      let r := (r.wb (Reg.adcOwres n) w.input (decide (cd + w.delta ≤ cu))).wb (Reg.adcOwres n) (8 + w.input) true
      match nextInput w.mask (w.input + 1) with
      | some i => (r.setAdc n { x with ow := some { w with input := i, phase := .up, waitTo := s.tick + w.settle } }).done
      | none =>
        let r := (r.setAdc n { x with ow := none }).flag (Reg.adcEvstat n) 4
        let r := if r.s.rf (Reg.adcOwres n) 7 0 ≠ 0 then r.flag (Reg.adcEvstat n) 5 else r
        (r.adcEnd [w.op] none 0 s.now32 (r.s.owBytes n w)).done

/-! ## Holds (R343, R344, R351, R352, R355) -/

/-- The regular sequence's next entry, with the tick from which it may be held (R344, R346). -/
def State.adcRegular (s : State) (n : Nat) (x : Adc) (mk : AdcKind → Nat → Bool → Bool → Nat → AdcConv)
    (free : Nat → Nat) : Option (AdcConv × Nat) :=
  if x.busy ∧ x.next < s.adcLen n then
    let e := (s.rget (Reg.adcSeqAct n x.next)).toNat
    some (mk (.regular x.next) (bits e 29 27) (bit e 31) (bit e 30) (bits e 17 0),
      if x.next = 0 then max x.trigAt (free (bits e 26 19)) else free (bits e 26 19))
  else none

/-- The hold that comes next, by priority, and the tick from which it may be made; none when there is no work. -/
def State.adcNext (s : State) (n : Nat) : Option (AdcConv × Nat) :=
  let x := s.adcC n
  let free (ext : Nat) : Nat := match x.lastHold with
    | none => 0
    | some h => h + 40 + ext
  let mk (k : AdcKind) (input : Nat) (sig dr : Bool) (idx : Nat) : AdcConv :=
    { kind := k, input := input, sig := sig, dr := dr, idx := idx, stamp := s.now, endAt := s.tick + 40 }
  let inj : Option (AdcConv × Nat) := x.inj.head?.map fun q =>
    (mk (.injected q.op) q.input q.sig q.dr q.idx, max (q.tick + 40 + q.ext) (free q.ext))
  let early := match x.inj.head? with
    | some q => q.early
    | none => false
  if x.calEnd.isSome then none
  else if early then inj
  else if x.calPending then none
  else if inj.isSome then inj
  else match x.ow with
    | some w => if w.ready then some (mk .openWire w.input false false 0, free 0) else s.adcRegular n x mk free
    | none => s.adcRegular n x mk free

/-- ADC_HOLD: the converter holds its next input; with 16 results waiting for the Mesh it stalls instead (R355). -/
def Run.adcHold (r : Run s₀) (n : Nat) : Run s₀ :=
  if (r.s.adcC n).conv.isSome then r
  else
    let r := r.adcSkip n
    match r.s.adcNext n with
    | none =>
      let x := r.s.adcC n
      if x.busy ∧ r.s.adcLen n ≤ x.next then r.adcSeqEnd n else r
    | some (c, t) =>
      if r.s.tick < t then r
      else if 16 ≤ (r.s.adcC n).mesh.length then r.flag (Reg.adcEvstat n) 6
      else
        let x := { r.s.adcC n with conv := some c, lastHold := some r.s.tick }
        match c.kind with
        | .regular e => r.setAdc n { x with next := e + 1, armed := false, running := true }
        | .injected _ => r.setAdc n { x with inj := (x.inj.drop 1).zipIdx.map fun q =>
            if q.2 = 0 then { q.1 with tick := max q.1.tick r.s.tick } else q.1 }
        | .openWire => r.setAdc n { x with ow := x.ow.map fun w => { w with ready := false } }

def execAdcHold (n : Nat) (s : State) : Out := ((Run.start s).adcHold n).done

/-! ## Results (R345, R353, R354) -/

/-- i / 2³¹ to nearest, ties away from zero. -/
def divQ31 (i : Int) : Int :=
  let q : Nat := divNear i.natAbs (2 ^ 31)
  if i < 0 then -(q : Int) else (q : Int)

/-- The code corrected with the gain and offset of its input (R345). -/
def State.adcCorrect (s : State) (n input raw : Nat) : Nat :=
  let a := 8 * n + input
  let g := s.calInt (0x090 + 8 * a)
  let o := sInt 16 (s.calNat (0x094 + 8 * a) 2)
  (max 0 (min (divQ31 ((raw % 65536 : Nat) * (2 ^ 31 + g)) + o) 65535)).toNat

/-- A result into the data register (R353). -/
def Run.adcData (r : Run s₀) (n : Nat) (c : AdcConv) (code : Nat) : Run s₀ :=
  let unread := r.s.rb (Reg.adcDrLo n) 31
  let r := if unread then ((r.flag (Reg.adcEvstat n) 1).count (Reg.adcCnt n) 15 8) else r
  let (inj, entry) := match c.kind with
    | .regular e => (false, e)
    | _ => (true, 0)
  (r.wr (Reg.adcDrLo n) (2 ^ 31 + b2n unread <<< 30 + b2n inj <<< 29 + c.input <<< 26 + entry <<< 22 + code)).wr
    (Reg.adcDrHi n) c.stamp

/-- A result to its signal: over the sample path within its budget of 8 in 1,250 ticks, else through the Mesh (R354). -/
def Run.adcMove (r : Run s₀) (n : Nat) (u : SigUpd) : Run s₀ :=
  let x := r.s.adcC n
  let recent := x.sent.filter fun t => decide (r.s.tick < t + 1250)
  if recent.length < 8 then (r.setAdc n { x with sent := recent ++ [r.s.tick] }).sample u
  else r.setAdc n { x with sent := recent, mesh := x.mesh ++ [u] }

/-- An open-wire reading (R364). -/
def Run.owReading (r : Run s₀) (n code : Nat) : Run s₀ :=
  let x := r.s.adcC n
  match x.ow with
  | none => r
  | some w =>
    let t := r.s.tick + w.settle
    match w.phase with
    | .up => r.setAdc n { x with ow := some { w with phase := .down, waitTo := t, cu := code } }
    | _ => r.setAdc n { x with ow := some { w with
        phase := .recover, waitTo := t, readings := tset (0, 0) w.input (w.cu, code) w.readings } }

/-- ADC_RESULT: the conversion in progress ends with raw code `raw` (R343, R345). -/
def Run.adcResult (r : Run s₀) (n raw : Nat) : Run s₀ :=
  let x := r.s.adcC n
  match x.conv with
  | none => r
  | some c =>
    if r.s.tick < c.endAt then r
    else
      let code := r.s.adcCorrect n c.input raw
      let r := r.setAdc n { x with conv := none }
      let r := if c.dr then r.adcData n c code else r
      let r := if c.sig then r.adcMove n { idx := c.idx, val := code, stamp := c.stamp % 2 ^ 32, kind := 3 } else r
      match c.kind with
      | .openWire => r.owReading n code
      | .injected op => r.adcEnd op.toList none 0 c.stamp (bytesLE 2 code ++ bytesLE 2 0 ++ bytesLE 4 c.stamp)
      | .regular _ =>
        let r := r.adcSkip n
        if r.s.adcLen n ≤ (r.s.adcC n).next then r.adcSeqEnd n else r

def execAdcResult (n : Nat) (raw : Word) (s : State) : Out := ((Run.start s).adcResult n raw.toNat).done

/-- ADC_MESH_RESULT: the converter's oldest waiting result is sent when its turn comes (R342, R354). -/
def execAdcMeshResult (n : Nat) (s : State) : Out :=
  let r := Run.start s
  let order := (List.range 12).map fun i => (s.adc.turn + i) % 12
  if order.find? (fun i => !(s.adcC i).mesh.isEmpty) ≠ some n then r.done
  else match (s.adcC n).mesh with
    | [] => r.done
    | u :: t =>
      let r := r.setAdc n { s.adcC n with mesh := t }
      ((r.up (.adc { r.s.adc with turn := (n + 1) % 12 })).sigPush u).done

/-! ## Group CFG (R359 to R361) -/

/-- The check of R15 for group CFG of ADCn (R360). -/
def State.adcCheck (s : State) (n : Nat) : Bool :=
  let c := (s.rget (Reg.adcCfg n)).toNat
  let len := bits c 4 0
  let sel := bits c 23 20
  let ext (j : Nat) : Nat := s.rf (Reg.adcSeq n j) 26 19
  !bit c 31 || (match bits c 25 24 with
    | 1 => s.gridEn sel && decide (s.rf (Reg.adcTrgoff n) 15 0 + 40 * len
        + ((List.range len).drop 1).foldl (fun m j => m + ext j) 0 ≤ s.rf (Reg.timeSgPeriodAct sel) 24 0)
    | 2 => decide (sel ≤ 7)
    | 3 => len != 0
    | _ => true)

/-- What follows when CFG comes into use (R356, R359, R361); `old` is the former ADCn_CFG_ACT. -/
def Run.adcApplied (r : Run s₀) (n old : Nat) : Run s₀ :=
  let c := (r.s.rget (Reg.adcCfgAct n)).toNat
  let x := r.s.adcC n
  let drop := x.latched && (!bit c 31 || bits c 25 20 != bits old 25 20)
  let r := if drop then
      ((r.setAdc n { x with latched := false, latchOp := none }).when (bits c 25 20 != bits old 25 20) fun r =>
        (r.count (Reg.adcCnt n) 31 16).flag (Reg.adcEvstat n) 2).adcEnd x.latchOp.toList (some .aborted) 0x04 r.s.now32 []
    else r
  -- a trigger tick of another source does not come any more (R347)
  let r := if bits c 25 20 != bits old 25 20 then r.setAdc n { r.s.adcC n with trigDue := none } else r
  if !bit c 31 then
    let x := r.s.adcC n
    let ids := (x.inj.filterMap (·.op)) ++ (x.ow.toList.map (·.op))
    ((r.setAdc n { x with inj := [], ow := none, armed := false, trigDue := none }).wf (Reg.adcOwsrc n) 15 0 0).adcEnd ids (some .aborted) 0x04
      r.s.now32 []
  else
    let r := if !bit old 31 ∧ !r.s.rb (Reg.adcStat n) 28 then r.adcCalRequest n else r
    r.adcUnlatch n

/-! ## Operations of the ADC unit (R367) -/

/-- An operation that needs an enabled converter. -/
def Run.adcNeedsOn (r : Run s₀) (o : Op) (f : Run s₀ → Run s₀) : Run s₀ :=
  if r.s.adcEn o.obj then f r else r.adcFin o .refused 0x12 r.s.now32 []

def Run.actAdcTrigger (r : Run s₀) (o : Op) : Run s₀ :=
  r.adcNeedsOn o fun r =>
    match r.adcTrigger o.obj (some o.id) with
    | (r, .nothing) => r.adcFin o .empty 0 r.s.now32 []
    | (r, .lost) => r.adcFin o .busy 0 r.s.now32 []
    | (r, _) => r.opAct o

def Run.actAdcInject (r : Run s₀) (o : Op) : Run s₀ :=
  let d := o.payload
  let q : AdcInj := { input := recNat d 0 1, ext := recNat d 1 1, sig := bit (recNat d 2 1) 0, dr := bit (recNat d 2 1) 1
                      idx := recNat d 4 4, tick := r.s.tick, op := some o.id }
  match r.adcInject o.obj q with
  | (r, .ok, _) => r.opAct o
  | (r, st, cause) => r.adcFin o st cause r.s.now32 []

def Run.actAdcCalib (r : Run s₀) (o : Op) : Run s₀ :=
  r.adcNeedsOn o fun r =>
    let r := r.adcCalRequest o.obj
    let x := r.s.adcC o.obj
    (r.setAdc o.obj { x with calOps := x.calOps ++ [o.id] }).opAct o

def Run.actOwdiag (r : Run s₀) (o : Op) : Run s₀ :=
  r.adcNeedsOn o fun r =>
    let n := o.obj
    let d := o.payload
    let m := recNat d 0 1
    let x := r.s.adcC n
    match nextInput m 0 with
    | none => r.adcFin o .empty 0 r.s.now32 []
    | some i =>
      if x.ow.isSome then r.adcFin o .busy 0 r.s.now32 []
      else if (r.s.underTest n &&& m) != 0 then r.adcFin o .refused 0x10 r.s.now32 []
      else
        let settle := recNat d 2 2 * 2000
        ((r.setAdc n { x with ow := some { op := o.id, mask := m, big := bit (recNat d 1 1) 0, settle := settle, delta := recNat d 4 2, input := i,
                                           phase := .up, waitTo := r.s.tick + settle } }).wr (Reg.adcOwres n) 0).opAct o

def Run.actAdcStatus (r : Run s₀) (o : Op) : Run s₀ :=
  let n := o.obj
  let w (a : Nat) : Nat := (r.s.rget a).toNat
  r.opFin o o.okSt 0 (wordsLE [r.s.adcStatReg n, w (Reg.adcCnt n), w (Reg.adcDrLo n), w (Reg.adcDrHi n), w (Reg.adcOwres n),
    w (Reg.adcCal n)])

def execAdcTrigger (id : Nat) (s : State) : Out := ((Run.start s).opRow id 8 2 Run.actAdcTrigger).done
def execAdcInject (id : Nat) (s : State) : Out := ((Run.start s).opRow id 8 3 Run.actAdcInject).done
def execAdcCalib (id : Nat) (s : State) : Out := ((Run.start s).opRow id 8 4 Run.actAdcCalib).done
def execAdcOwdiag (id : Nat) (s : State) : Out := ((Run.start s).opRow id 8 5 Run.actOwdiag).done
def execAdcStatus (id : Nat) (s : State) : Out := ((Run.start s).opRow id 8 6 Run.actAdcStatus).done

/-- `hcan` on a latched TRIGGER removes the latch; on a running OWDIAG the present step ends and the source turns off
(R365, R367). True says that the operation ends. -/
def Run.adcCancel (r : Run s₀) (o : Op) : Run s₀ × Bool :=
  let n := o.obj
  let x := r.s.adcC n
  if x.latchOp = some o.id then (r.setAdc n { x with latched := false, latchOp := none }, true)
  else match x.ow with
    | some w =>
      if w.op = o.id then
        (r.setAdc n { x with ow := none, conv := x.conv.filter fun c => c.kind != .openWire }, true)
      else (r, false)
    | none => (r, false)

end Sys2Proof.Machine
end

