-- ==== Sys2Proof/Machine/LeLaw.lean ====
section
/-!
DEFINITION. The loop engine's arithmetic and the layout of a context block (06_loop_engine.md, R222 to R243, R253, R254,
R258): block floating point, the control law of one sample, and the readers of header, tables and banks.
-/
namespace Sys2Proof.Machine

/-! ## Block floating point (R227 to R231) -/

/-- i / 2^k rounded to nearest, ties to even (R229, R230). -/
def rneInt (i : Int) (k : Nat) : Int :=
  let q : Nat := rne i.natAbs k false
  if i < 0 then -(q : Int) else (q : Int)

/-- i / 2^k truncated toward zero. -/
def truncInt (i : Int) (k : Nat) : Int :=
  let q : Nat := i.natAbs >>> k
  if i < 0 then -(q : Int) else (q : Int)

/-- Clamping between two bounds. -/
def clampInt (v lo hi : Int) : Int := max lo (min v hi)

/-- Saturation to a 32-bit mantissa (R230). -/
def sat32 (v : Int) : Int := clampInt v (-(2 ^ 31)) (2 ^ 31 - 1)

/-- Elements that a saturation changes. -/
def satCount (l : List Int) : Nat := (l.filter fun v => sat32 v != v).length

/-- A vector of accumulators with their common exponent: an element is worth v·2^(e−54) (R229). -/
structure LAcc where
  e : Int
  v : List Int
deriving DecidableEq, Repr

/-- The element at an index of a list of mantissas; 0 beyond its end. -/
def nthI (l : List Int) (i : Nat) : Int := l[i]?.getD 0

/-- Product of a matrix, given by rows, with a vector (R229). -/
def matVec (eM : Int) (rows : List (List Int)) (ev : Int) (x : List Int) : LAcc :=
  ⟨eM + ev, rows.map fun row => (List.zipWith (· * ·) row x).foldl (· + ·) 0⟩

/-- A term subtracted. -/
def LAcc.neg (t : LAcc) : LAcc := { t with v := t.v.map (- ·) }

/-- A vector as a term of a sum: its mantissas at the accumulator's weight (DEDUCED, log 20). -/
def vecTerm (ev : Int) (x : List Int) : LAcc := ⟨ev + 23, x⟩

/-- A term aligned to a larger weight; a shift of 63 bits or more gives 0 (R229). -/
def LAcc.align (t : LAcc) (e : Int) : List Int :=
  let k := (e - t.e).toNat
  if 63 ≤ k then t.v.map fun _ => 0 else t.v.map fun v => rneInt v k

/-- Sum of the terms that are not empty, aligned to the largest weight (R229, R18); `n` is the number of elements. -/
def sumTerms (n : Nat) (ts : List (Bool × LAcc)) : LAcc :=
  let l := (ts.filter (·.1)).map (·.2)
  match l with
  | [] => ⟨0, List.replicate n 0⟩
  | t :: _ =>
    let e := l.foldl (fun m x => max m x.e) t.e
    ⟨e, l.foldl (fun acc x => List.zipWith (· + ·) acc (x.align e)) (List.replicate n 0)⟩

/-- One accumulator shifted to a vector exponent (R230), before saturation. -/
def cvtOne (trunc : Bool) (e ev v : Int) : Int :=
  let k := 23 + ev - e
  if k ≤ 0 then v * (2 ^ (-k).toNat : Nat) else if trunc then truncInt v k.toNat else rneInt v k.toNat

/-- Conversion to a vector with exponent `ev` (R230): the mantissas and how many saturated. -/
def LAcc.cvt (t : LAcc) (trunc : Bool) (ev : Int) : List Int × Nat :=
  let l := t.v.map (cvtOne trunc t.e ev)
  (l.map sat32, satCount l)

/-- `need` of R231: the smallest exponent from the floor on whose full scale exceeds every element. -/
def LAcc.need (t : LAcc) (exMin : Int) : Int :=
  t.v.foldl (fun m v => if v = 0 then m else max m ((Nat.log2 v.natAbs : Int) + 1 + t.e - 54)) exMin

/-- The exponent and the hysteresis count after R231. -/
def renorm (need ex : Int) (hcount hyst : Nat) : Int × Nat :=
  if ex < need then (need, 0)
  else if need ≤ ex - 2 then (if hcount + 1 = hyst then (ex - 1, 0) else (ex, hcount + 1))
  else (ex, 0)

/-- One step of the absorber's decay (R258). -/
def decayOne (alpha : Nat) (h : Int) : Int :=
  if h = 0 then 0
  else
    let d : Int := (max 1 (h.natAbs * alpha / 65536) : Nat)
    if 0 < h then max 0 (h - d) else min 0 (h + d)

/-! ## Context blocks (R234 to R239) -/

/-- The header fields of a context that its owner sets (R235). -/
structure LeHd where
  n : Nat
  p : Nat
  m : Nat
  q : Nat
  r : Nat
  grid : Nat
  absorb : Bool
  xTrunc : Bool
  startBank : Nat
  fbMode : Nat
  offset : Nat
  tOwn : Nat
  alpha : Nat
  hyst : Nat
  staleMax : Nat
  exMin : Int
  ey : Int
  er : Int
  ez : Int
  eu : Int
  owner : Nat
  drive : List Nat
  ufb : List Int
deriving DecidableEq, Repr

/-- A signed byte of a context's header. -/
def State.leHS (s : State) (c off : Nat) : Int := sInt 8 (s.leH c off 1)

/-- `n` mantissas of a context block from an offset. -/
def State.leVec (s : State) (c off n : Nat) : List Int := (List.range n).map fun i => sInt 32 (s.leH c (off + 4 * i) 4)

/-- The header of a context. -/
def State.leHd (s : State) (c : Nat) : LeHd :=
  { n := s.leH c 0 1, p := s.leH c 1 1, m := s.leH c 2 1, q := s.leH c 3 1, r := s.leH c 4 1
    grid := s.leH c 5 1 % 16, absorb := bit (s.leH c 6 1) 0, xTrunc := bit (s.leH c 6 1) 1
    startBank := b2n (bit (s.leH c 6 1) 2), fbMode := s.leH c 7 1, offset := s.leH c 8 4, tOwn := s.leH c 12 4
    alpha := s.leH c 16 2, hyst := s.leH c 18 1, staleMax := s.leH c 19 1, exMin := s.leHS c 20
    ey := s.leHS c 21, er := s.leHS c 22, ez := s.leHS c 23, eu := s.leHS c 24, owner := s.leH c 25 1 % 64
    drive := (List.range 8).map fun j => s.leH c (32 + j) 1, ufb := s.leVec c 40 8 }

/-- An input entry (R236). -/
structure LeInE where
  idx : Nat
  kind : Nat
  isR : Bool
  elt : Nat
  gain : Int
  own : Bool
  delay : Nat
  maxAge : Nat
  reserved : Bool
deriving DecidableEq, Repr

/-- The input entries of a context whose `kind` is not 0. -/
def State.leIns (s : State) (c : Nat) : List LeInE :=
  ((List.range 16).map fun e =>
    let f (o n : Nat) : Nat := s.leH c (0x80 + 16 * e + o) n
    { idx := f 0 4 % 2 ^ 18, kind := f 4 1, isR := bit (f 5 1) 7, elt := f 5 1 % 8, gain := sInt 8 (f 6 1)
      own := bit (f 7 1) 0, delay := f 8 4, maxAge := f 12 2
      reserved := f 0 4 >>> 18 != 0 || bits (f 5 1) 6 3 != 0 || f 7 1 >>> 1 != 0 || f 14 2 != 0 : LeInE }).filter
    fun e => e.kind != 0

/-- An output entry (R237). -/
structure LeOutE where
  idx : Nat
  sigEn : Bool
  okind : Nat
  axis : Nat
  chan : Nat
  gain : Int
  reserved : Bool
deriving DecidableEq, Repr

/-- The output entries 0 to m − 1 of a context. -/
def State.leOuts (s : State) (c m : Nat) : List LeOutE :=
  (List.range m).map fun e =>
    let f (o n : Nat) : Nat := s.leH c (0x180 + 16 * e + o) n
    { idx := f 0 4 % 2 ^ 18, sigEn := bit (f 0 4) 31, okind := f 4 1, axis := f 5 1, chan := f 6 1
      gain := sInt 8 (f 7 1), reserved := bits (f 0 4) 30 18 != 0 || f 8 8 != 0 }

/-- Offset of a bank in a context block. -/
def bankOff (b : Nat) : Nat := 0x400 + b * 0xE00

/-- The exponent of matrix number `i` of a bank (A, B, C, L, K, Kz, F, Hr, Hy). -/
def State.leExp (s : State) (c b i : Nat) : Int := s.leHS c (bankOff b + i)

/-- A matrix of a bank: rows of 24-bit coefficients (R227, R239). -/
def State.leMat (s : State) (c b off stride rows cols : Nat) : List (List Int) :=
  (List.range rows).map fun i => (List.range cols).map fun j =>
    sInt 24 (s.leH c (bankOff b + off + i * stride + 3 * j) 3)

/-- A bank passes its check (R239). -/
def State.bankOk (s : State) (c b m q : Nat) : Bool :=
  let v (off : Nat) : List Int := s.leVec c (bankOff b + off) 8
  let en := s.leH c (bankOff b + 9) 1
  (List.range m).all (fun i => decide (nthI (v 0x10) i ≤ nthI (v 0x30) i) &&
    (!bit en i || decide (0 < nthI (v 0x50) i)))
  && (List.range q).all fun j => decide (0 ≤ nthI (v 0x70) j)

/-! ## One sample (R253, step 7) -/

/-- What one sample takes beside the block: the vectors y and r, the bank, and the events of this sample. -/
structure LeArgs where
  y : List Int
  r : List Int
  bank : Nat
  swapped : Bool
  resumedOutput : Bool
  fbOutput : Bool
deriving DecidableEq, Repr

/-- What one sample computes. -/
structure LeRes where
  x : List Int
  z : List Int
  u : List Int
  w : List Int
  h : List Int
  eps : List Int
  ex : Int
  hcount : Nat
  need : Int
  frz : Nat
  sat : Nat
  vsat : Nat
  /-- those of ε alone, which is converted before `need` is judged (R230, R232) -/
  epsSat : Nat
deriving DecidableEq, Repr

/-- The bits of the indices of a list whose element holds. -/
def bitsOf (l : List Bool) : Nat := l.zipIdx.foldl (fun m e => m + b2n e.1 <<< e.2) 0

/-- The sample of R253 step 7 over the context's block, with the arithmetic of R229 to R231. -/
def State.leCompute (s : State) (c : Nat) (d : LeHd) (a : LeArgs) : LeRes :=
  let b := a.bank
  let ex := s.leHS c 98
  let xh := s.leVec c 0x200 d.n
  let z0 := s.leVec c 0x240 d.q
  let u := s.leVec c 0x260 d.m
  let w0 := s.leVec c 0x280 d.m
  let h0 := s.leVec c 0x2A0 d.m
  let lim (off k : Nat) : List Int := s.leVec c (bankOff b + off) k
  let umin := lim 0x10 d.m
  let umax := lim 0x30 d.m
  let slew := lim 0x50 d.m
  let zlim := lim 0x70 d.q
  let slewEn := s.leH c (bankOff b + 9) 1
  let sigma := (List.range d.m).map fun i =>
    if nthI umax i < nthI w0 i then (1 : Int) else if nthI w0 i < nthI umin i then -1 else 0
  let z1 := if a.swapped then List.zipWith (fun z l => clampInt z (-l) l) z0 zlim else z0
  let eps := (sumTerms d.p [(d.p != 0, vecTerm d.ey a.y),
      (d.n != 0, (matVec (s.leExp c b 2) (s.leMat c b 0x580 48 d.p d.n) ex xh).neg)]).cvt false (d.ey + 1)
  let xa := sumTerms d.n [(d.n != 0, matVec (s.leExp c b 0) (s.leMat c b 0x100 48 d.n d.n) ex xh),
      (d.m != 0, matVec (s.leExp c b 1) (s.leMat c b 0x400 24 d.n d.m) d.eu u),
      (d.p != 0, matVec (s.leExp c b 3) (s.leMat c b 0x700 24 d.n d.p) (d.ey + 1) eps.1)]
  let need := xa.need d.exMin
  let (ex', hc) := renorm need ex (s.leH c 99 1) d.hyst
  let xn := xa.cvt d.xTrunc ex'
  let e := (sumTerms d.q [(d.r != 0, matVec (s.leExp c b 7) (s.leMat c b 0xB80 24 d.q d.r) d.er a.r),
      (d.p != 0, (matVec (s.leExp c b 8) (s.leMat c b 0xC40 24 d.q d.p) d.ey a.y).neg)]).cvt false d.ez
  let kz := s.leMat c b 0xA00 24 d.m d.q
  let g := (List.range d.q).map fun j =>
    let dj := d.drive[j]?.getD 0
    let sj := -(nthI (kz[dj]?.getD []) j).sign
    !(nthI sigma dj != 0 && sj * (nthI e.1 j).sign == nthI sigma dj) && !a.fbOutput
  let z2 := (List.range d.q).map fun j => if g[j]?.getD false then nthI z1 j + nthI e.1 j else nthI z1 j
  let z3 := List.zipWith (fun z l => clampInt (sat32 z) (-l) l) z2 zlim
  let v := (sumTerms d.m [(d.n != 0, (matVec (s.leExp c b 4) (s.leMat c b 0x880 48 d.m d.n) ex' xn.1).neg),
      (d.q != 0, (matVec (s.leExp c b 5) kz d.ez z3).neg),
      (d.r != 0, matVec (s.leExp c b 6) (s.leMat c b 0xAC0 24 d.m d.r) d.er a.r)]).cvt false d.eu
  let h := if (a.swapped || a.resumedOutput) && d.absorb then List.zipWith (fun x y => sat32 (x - y)) u v.1
    else h0.map (decayOne d.alpha)
  let wv := List.zipWith (· + ·) v.1 h
  let w := wv.map sat32
  let t0 := if a.fbOutput then d.ufb.take d.m else w
  let t1 := (List.range d.m).map fun i =>
    let t := nthI t0 i
    if bit slewEn i then clampInt t (nthI u i - nthI slew i) (nthI u i + nthI slew i) else t
  let t2 := (List.range d.m).map fun i => clampInt (nthI t1 i) (nthI umin i) (nthI umax i)
  { x := xn.1, z := z3, u := t2, w := w, h := h, eps := eps.1, ex := ex', hcount := hc, need := need
    frz := bitsOf (g.map (!·)), sat := bitsOf (List.zipWith (fun x y => x != y) t2 t0)
    epsSat := eps.2
    vsat := eps.2 + xn.2 + e.2 + satCount z2 + v.2 + satCount wv }

/-! ## Values in and out (R243, R245) -/

/-- The value of a signal word in its type (R192); none of BITS. -/
def sigVal (type val : Nat) : FVal :=
  match type with
  | 1 => let i := sInt 32 val; .fin (decide (i < 0)) i.natAbs 0
  | 2 => .fin false (val % 2 ^ 32) 0
  | 3 => f32.dec val
  | _ => let i := sInt 32 val; .fin (decide (i < 0)) i.natAbs (-16)

/-- A fetched value as the mantissa of its element (R243), before saturation. -/
def inMant (v : FVal) (gain e : Int) : Int := (v.scaleRne (gain + 31 - e)).getD 0

/-- The value u·2^(eu − 31)·2^(g_o) of an output. -/
def outVal (u eu gain : Int) : FVal := .fin (decide (u < 0)) u.natAbs (eu - 31 + gain)

/-- The value as a signed Q1.31 fraction of full scale (R245). -/
def outQ31 (v : FVal) : Nat := uNat 32 (sat32 ((v.scaleRne 31).getD 0))

/-- The value in a signal's type (R245); a value beyond F32 saturates to the largest finite number. -/
def outSig (type : Nat) (v : FVal) : Nat :=
  match type with
  | 1 => uNat 32 (sat32 v.roundAway)
  | 2 => (clampInt v.roundAway 0 (2 ^ 32 - 1)).toNat
  | 3 =>
    let b := f32.enc v
    if f32.isInf b then f32.maxFin (f32.signBit b) else b
  | _ => match v with
    | .fin s m e => uNat 32 (sat32 (FVal.fin s m (e + 16)).roundAway)
    | _ => 0

end Sys2Proof.Machine
end

