-- ==== Sys2Proof/Machine/Chm.lean ====
section
/-!
DEFINITION. Chamois (13_chamois.md): the safety cycle, safe inputs, demand groups, axis functions, safe outputs, faults,
lock-outs and resets, safety connections, the safety parameter set, and the mailbox.
-/
namespace Sys2Proof.Machine

variable {s₀ : State}

/-! ## The set in use (R485) -/

/-- `n` bytes of the set in use from an offset; they lie in one word. -/
def State.sps (s : State) (off n : Nat) : Nat := (s.rget (Reg.chmSpsAct (off / 4))).toNat >>> (8 * (off % 4)) % 256 ^ n

def State.spsIn (s : State) (k off n : Nat) : Nat := s.sps (0x040 + 8 * k + off) n
def State.spsGrp (s : State) (i off n : Nat) : Nat := s.sps (0x0C0 + 8 * i + off) n
def State.spsAx (s : State) (n off len : Nat) : Nat := s.sps (0x1C0 + 48 * n + off) len
def State.spsOut (s : State) (k off n : Nat) : Nat := s.sps (0xAC0 + 16 * k + off) n
def State.spsConn (s : State) (c off n : Nat) : Nat := s.sps (0xB40 + 32 * c + off) n

/-- t_cyc in microseconds. -/
def State.tCyc (s : State) : Nat := s.sps 8 2

/-- The expected values and the layout checks of R486 over a set whose little-endian fields `g offset length` reads:
(offset, holds) in order of offset. -/
def spsChecks (g : Nat → Nat → Nat) : List (Nat × Bool) :=
  let between (lo hi v : Nat) : Bool := decide (lo ≤ v ∧ v ≤ hi)
  let zeros (off n : Nat) : List (Nat × Bool) := (List.range n).map fun i => (off + i, g (off + i) 1 == 0)
  let kind (k : Nat) : Nat := g (0x040 + 8 * k) 1
  let isReset (v : Nat) : Bool := decide (v < 16) && kind v == 3
  let role (c : Nat) : Nat := g (0xB40 + 32 * c) 1
  let header :=
    [(0, g 0 4 == 0x53465331), (4, g 4 2 == 1), (6, g 6 2 == 0x0D44),
     (8, between 125 2000 (g 8 2) && g 8 2 % 125 == 0), (10, g 10 2 == 0 || between 100 1000 (g 10 2)),
     (12, g 12 2 == 0 || between 100 1000 (g 12 2)), (14, between 1 3600 (g 14 2))] ++ zeros 16 48
  let input (k : Nat) :=
    let b := 0x040 + 8 * k
    [(b, decide (g b 1 ≤ 3)), (b + 1, g (b + 1) 1 == 0), (b + 2, decide (g (b + 2) 2 ≤ 20000) && g (b + 2) 2 % 10 == 0),
     (b + 4, between 1 3000 (g (b + 4) 2))] ++ zeros (b + 6) 2
  let group (i : Nat) :=
    let b := 0x0C0 + 8 * i
    let maskOk (j : Nat) : Bool := (List.range 8).all fun e =>
      !bit (g (b + j) 1) e || kind (8 * j + e) == 1 || kind (8 * j + e) == 2
    [(b, maskOk 0), (b + 1, maskOk 1), (b + 3, g (b + 3) 1 == 0), (b + 4, bits (g (b + 4) 1) 6 4 == 0),
     (b + 5, decide (g (b + 5) 1 < 32))] ++ zeros (b + 6) 2
  let axis (n : Nat) :=
    let b := 0x1C0 + 48 * n
    [(b, decide (g b 1 ≤ 3)), (b + 1, decide (g (b + 1) 1 < 32)), (b + 2, decide (g (b + 2) 1 < 8)),
     (b + 3, isReset (g (b + 3) 1)), (b + 4, between 1 60000 (g (b + 4) 4)), (b + 8, between 100 100000 (g (b + 8) 4)),
     (b + 16, f32.lt 0 (g (b + 16) 4)), (b + 20, decide (g (b + 20) 4 ≤ 1000000)),
     (b + 32, between 100 100000 (g (b + 32) 4)), (b + 36, decide (g (b + 36) 1 ≤ 15)),
     (b + 37, decide (g (b + 37) 1 ≤ 15)), (b + 38, between 8 32 (g (b + 38) 1)), (b + 39, between 1 255 (g (b + 39) 1))]
      ++ zeros (b + 40) 8
  let output (k : Nat) :=
    let b := 0xAC0 + 16 * k
    [(b, decide (g b 1 ≤ 1)), (b + 1, decide (g (b + 1) 1 < 32)), (b + 2, decide (g (b + 2) 1 < 4)),
     (b + 3, isReset (g (b + 3) 1)), (b + 4, between 100 100000 (g (b + 4) 4))] ++ zeros (b + 8) 8
  let conn (c : Nat) :=
    let b := 0xB40 + 32 * c
    let dup := (List.range c).any fun e =>
      role e == role c && role c != 0 && g (0xB40 + 32 * e + 2) 2 == g (b + 2) 2
    [(b, decide (role c ≤ 2)), (b + 1, decide (g (b + 1) 1 ≤ 2)), (b + 2, !dup),
     (b + 10, role c != 1 || between 1 255 (g (b + 10) 1)), (b + 11, g (b + 11) 1 == 0),
     (b + 12, g (b + 12) 4 == 0 || between 1 1000000 (g (b + 12) 4)),
     (b + 16, role c != 2 || between 1 10000000 (g (b + 16) 4))] ++ zeros (b + 20) 12
  header ++ (List.range 16).flatMap input ++ (List.range 32).flatMap group ++ (List.range 48).flatMap axis
    ++ (List.range 8).flatMap output ++ (List.range 16).flatMap conn

/-- The offset of the first failing byte, if any (R486). -/
def spsRange (l : List Byte) : Option Nat := ((spsChecks (recNat l)).find? fun e => !e.2).map (·.1)

/-- The set's own CRC-32C over bytes 0x000 to 0xD3F (R485). -/
def spsCrc (l : List Byte) : Nat := crc32c 0xFFFFFFFF (l.take 0xD40)

/-- The staged set as bytes. -/
def State.staged (s : State) : List Byte := (List.range 849).flatMap fun w => bytesLE 4 (s.rget (Reg.chmSps w)).toNat

/-! ## State access -/

def State.chmIn (s : State) (k : Nat) : ChmIn := tget {} k s.chm.ins
def State.chmAx (s : State) (n : Nat) : ChmAx := tget {} n s.chm.axes
def State.chmOut (s : State) (k : Nat) : ChmOut := tget {} k s.chm.outs
def State.chmConn (s : State) (c : Nat) : ChmConn := tget {} c s.chm.conns
def Run.mapChm (r : Run s₀) (f : ChmSt → ChmSt) : Run s₀ := r.up (.chm (f r.s.chm))
def Run.setChmIn (r : Run s₀) (k : Nat) (x : ChmIn) : Run s₀ := r.mapChm fun t => { t with ins := tset {} k x t.ins }
def Run.setChmAx (r : Run s₀) (n : Nat) (x : ChmAx) : Run s₀ := r.mapChm fun t => { t with axes := tset {} n x t.axes }
def Run.setChmOut (r : Run s₀) (k : Nat) (x : ChmOut) : Run s₀ := r.mapChm fun t => { t with outs := tset {} k x t.outs }
def Run.setChmConn (r : Run s₀) (c : Nat) (x : ChmConn) : Run s₀ :=
  r.mapChm fun t => { t with conns := tset {} c x t.conns }

/-- A valid set is in use (R487). -/
def State.spsValid (s : State) : Bool := s.rb Reg.chmStat 31

/-- An internal fault is present (R504). -/
def State.chmInternal (s : State) : Bool := s.rb Reg.chmStat 30

/-- The cycle timer now: the start of the present cycle and what has passed since, in microseconds. -/
def State.chmNow (s : State) : Nat := s.chm.clk + (s.cyc - s.chm.cycAt) / 800

/-- Group i is in demand (R493), as the newest sample left it. -/
def State.inDemand (s : State) (i : Nat) : Bool := s.rb Reg.chmGrp i

def ChmLock.locked (x : ChmLock) : Bool := x.demand || x.fault || x.start

/-! ## Outputs (R494, R495) -/

/-- The pads of a channel are at their off level whatever is commanded. -/
def ChmSt.off (t : ChmSt) (b : Bool) : Bool := if b then t.offB else t.offA

/-- What pads are driven: a pair is on while both of its balls are high (R494). A pair that switches starts its times. -/
def Run.chmDrive (r : Run s₀) (cmdT cmdS : Nat) : Run s₀ :=
  let t := r.s.chm
  let off := t.offA || t.offB
  let new := if off then 0 else cmdT
  let newS := if off then 0 else cmdS
  let oldS := r.s.rf Reg.chmSoStat 7 0
  let r := r.mapChm fun t => { t with cmdT := cmdT, cmdS := cmdS, torque := new }
  let r := r.each ((List.range 48).filter fun n => bit t.torque n != bit new n) fun r n =>
    r.setChmAx n { r.s.chmAx n with since := t.clk }
  let r := r.each ((List.range 8).filter fun k => bit oldS k != bit newS k) fun r k =>
    r.setChmOut k { r.s.chmOut k with since := t.clk }
  let sto := 2 ^ 48 - 1 - new % 2 ^ 48
  ((r.wf Reg.chmSoStat 7 0 newS).wr Reg.chmAxStoLo (sto % 2 ^ 32)).wr Reg.chmAxStoHi (sto >>> 32)

/-- The outputs of a channel go off at once. -/
def Run.chmOff (r : Run s₀) (b : Bool) : Run s₀ :=
  let r := r.mapChm fun t => if b then { t with offB := true } else { t with offA := true }
  r.chmDrive r.s.chm.cmdT r.s.chm.cmdS

/-! ## Faults and lock-outs (R503, R504) -/

/-- A fault is reported: flag, CHM_FAULT, CHM_FAULT_CYC and an event record (R503). -/
def Run.chmReport (r : Run s₀) (typ obj flag : Nat) : Run s₀ :=
  let v := typ <<< 24 + obj <<< 16
  let c := (r.s.rget Reg.chmCycle).toNat
  (((r.flag Reg.chmEvstat flag).wr Reg.chmFault v).wr Reg.chmFaultCyc c).log 0x0007 2 [v, c]

/-- An internal fault: every STO pair and every safe output off at once (R483, R503). -/
def Run.chmInternalFault (r : Run s₀) (typ : Nat) : Run s₀ :=
  if r.s.chmInternal then r
  else (((r.chmReport typ 0 3).wb Reg.chmStat 30 true).chmOff false).chmOff true

/-- The lock-out registers show the locks. -/
def Run.chmShowLocks (r : Run s₀) : Run s₀ :=
  let m := bitsOf ((List.range 48).map fun n => (r.s.chmAx n).lock.locked)
  let so := bitsOf ((List.range 8).map fun k => (r.s.chmOut k).lock.locked)
  let sf := bitsOf ((List.range 8).map fun k => decide ((r.s.chmOut k).lock.faults ≠ 0))
  (((r.wr Reg.chmAxLockLo (m % 2 ^ 32)).wr Reg.chmAxLockHi (m >>> 32)).wf Reg.chmSoStat 23 16 so).wf Reg.chmSoStat 15 8 sf

/-- A lock of an axis function changes; an entry into a lock-out sets `lockout` (R503). A locked axis has no torque from
the next OUT on. -/
def Run.chmAxLock (r : Run s₀) (n : Nat) (l : ChmLock) : Run s₀ :=
  let x := r.s.chmAx n
  let entry := (l.demand && !x.lock.demand) || (l.fault && !x.lock.fault) || (l.start && !x.lock.start)
  let r := (r.setChmAx n { x with lock := l }).when entry fun r => r.flag Reg.chmEvstat 1
  if l.locked then r.mapChm fun t => { t with nextT := setBit t.nextT n false } else r

def Run.chmOutLock (r : Run s₀) (k : Nat) (l : ChmLock) : Run s₀ :=
  let x := r.s.chmOut k
  let entry := (l.demand && !x.lock.demand) || (l.fault && !x.lock.fault) || (l.start && !x.lock.start)
  let r := (r.setChmOut k { x with lock := l }).when entry fun r => r.flag Reg.chmEvstat 1
  if l.locked then r.mapChm fun t => { t with nextS := setBit t.nextS k false } else r

/-- A fault of an axis, taken once until a reset ends it. -/
def Run.chmAxFault (r : Run s₀) (n typ : Nat) (b : Bool) : Run s₀ :=
  let l := (r.s.chmAx n).lock
  if b && !bit l.faults typ then
    (r.chmReport typ n 2).chmAxLock n { l with fault := true, faults := setBit l.faults typ true }
  else r

/-- A fault of a safe output. -/
def Run.chmOutFault (r : Run s₀) (k typ : Nat) (b : Bool) : Run s₀ :=
  let l := (r.s.chmOut k).lock
  if b && !bit l.faults typ then
    (r.chmReport typ k 2).chmOutLock k { l with fault := true, faults := setBit l.faults typ true }
  else r

/-! ## Safe inputs (R488 to R492) -/

/-- One sub-sample of a ball (R489). -/
def ChmFilt.see (n : Nat) (f : ChmFilt) (b : Bool) : ChmFilt :=
  let run := if b == f.last then min (f.run + 1) 2000 else 1
  { last := b, run := run, qual := if n ≤ run then b else f.qual }

/-- Channel A, channel B of an input is in demand, or pressed (R488). -/
def demandA (kind : Nat) (q : Bool) : Bool := match kind with | 1 => !q | 2 => !q | 3 => q | _ => false
def demandB (kind : Nat) (q : Bool) : Bool := match kind with | 1 => !q | 2 => q | 3 => q | _ => false

/-- An input after a sample, and whether it takes a discrepancy fault (R491, R492, R505). -/
def ChmIn.sample (x : ChmIn) (kind n : Nat) : ChmIn × Bool :=
  let a := demandA kind x.a.qual
  let b := demandB kind x.b.qual
  let disc := if a != b then min (x.disc + 1) (n + 2) else 0
  let fault := disc == n + 1
  if kind = 3 then
    let blocked := if !a && !b then false else x.blocked || fault
    let both := a && b
    ({ x with disc := disc, blocked := blocked,
              press := if both && !x.blocked then x.press + 1 else 0,
              ended := if both || blocked then 0 else x.press }, fault)
  else ({ x with disc := disc, latched := if a && b then false else x.latched || fault, ended := 0 }, fault)

/-- The discrepancy fault reaches the functions whose group holds the input (R492, R503). A stop function that runs locks
when it removes torque. -/
def Run.chmDisc (r : Run s₀) (k : Nat) : Run s₀ :=
  let holds (s : State) (g : Nat) : Bool := bit (s.spsGrp g 0 4) k
  let r := r.each ((List.range 48).filter fun n => r.s.spsAx n 0 1 != 0 && holds r.s (r.s.spsAx n 1 1)) fun r n =>
    let l := { (r.s.chmAx n).lock with faults := setBit (r.s.chmAx n).lock.faults 1 true }
    if r.s.spsAx n 0 1 = 1 then r.chmAxLock n { l with fault := true } else r.chmAxLock n { l with disc := true }
  r.each ((List.range 8).filter fun o => r.s.spsOut o 0 1 == 1 && holds r.s (r.s.spsOut o 1 1)) fun r o =>
    let l := (r.s.chmOut o).lock
    r.chmOutLock o { l with fault := true, faults := setBit l.faults 1 true }

/-- SAMPLE and the evaluation of one input (R489 to R492). -/
def Run.chmInput (r : Run s₀) (x : SafeSample) (k : Nat) : Run s₀ :=
  let kind := r.s.spsIn k 0 1
  let nf := max 1 (divUp (r.s.spsIn k 2 2) 10)
  let n := divUp (r.s.spsIn k 4 2 * 1000) r.s.tCyc
  let i := r.s.chmIn k
  let i := { i with a := x.subs.foldl (fun f (e : Nat × Nat) => f.see nf (bit e.1 k)) i.a,
                    b := x.subs.foldl (fun f (e : Nat × Nat) => f.see nf (bit e.2 k)) i.b }
  let (i, fault) := i.sample kind n
  let r := r.setChmIn k i
  let a := demandA kind i.a.qual
  let b := demandB kind i.b.qual
  let r := (r.wb Reg.chmSiRaw k a).wb Reg.chmSiRaw (16 + k) b
  let r := (r.wb Reg.chmSiStat k i.latched).wb Reg.chmSiStat (16 + k)
    ((kind == 1 || kind == 2) && (a || b || i.latched))
  if fault then (r.chmReport 1 k 2).when (kind != 3) fun r => r.chmDisc k else r

/-! ## Connections (R508 to R512) -/

/-- The SPDU of a producer (R508, R509). -/
def State.spduOf (s : State) (c : Nat) (seq : Nat) : List Byte :=
  let body := bytesBE 2 (s.spsConn c 2 2) ++ bytesBE 1 0x10 ++ bytesBE 1 s.tb0State ++ bytesBE 4 seq ++ bytesBE 8 s.now
    ++ bytesBE 4 (2 ^ 32 - 1 - (s.rget Reg.chmGrp).toNat)
  body ++ bytesBE 4 (crc32c (s.spsConn c 4 4) body)

/-- The check of R511 that an SPDU fails, as a cause code of R516; none when it is accepted. -/
def State.spduCause (s : State) (c : Nat) (d : List Byte) : Option Nat :=
  let g (off n : Nat) : Nat := ofBytesBE ((d.drop off).take n)
  let age := s.spsConn c 12 4
  let unlocked (v : Nat) : Bool := decide (v < 2)
  let old := diff64 s.now (g 8 8)
  if g 2 1 / 16 ≠ 1 then some 0x16
  else if crc32c (s.spsConn c 4 4) (d.take 20) ≠ g 20 4 then some 0x10
  else if g 0 2 ≠ s.spsConn c 2 2 then some 0x13
  else if age ≠ 0 ∧ (unlocked (g 3 1 % 4) || unlocked s.tb0State) then some 0x14
  else if age ≠ 0 ∧ ((age * 1000 : Nat) < old ∨ old < -1000) then some 0x12
  else match (s.chmConn c).lastSeq with
    | none => none
    | some q =>
      let k := (g 4 4 + 2 ^ 32 - q) % 2 ^ 32
      if k = 0 ∨ 2 ^ 31 ≤ k then some 0x11 else none

/-- A consumer takes one SPDU (R511, R512). -/
def Run.chmConsume (r : Run s₀) (c : Nat) (d : List Byte) (op : Option Nat) : Run s₀ :=
  let cause := r.s.spduCause c d
  let r := match cause with
    | some _ => (r.count Reg.chmCnt 15 0).flag Reg.chmEvstat 8
    | none =>
      let x := r.s.chmConn c
      let r := r.when (x.lastSeq.isSome && !x.valid) fun r => r.flag Reg.chmEvstat 9
      (r.setChmConn c { r.s.chmConn c with
        lastSeq := some (ofBytesBE ((d.drop 4).take 4)), data := ofBytesBE ((d.drop 16).take 4),
        valid := true, lastAt := r.s.chm.clk }).wb Reg.chmConn (16 + c) true
  match op, cause with
  | some id, some k => r.opFinId id .lost k []
  | some id, none => r.opFinId id .ok 0 []
  | none, _ => r

/-- A consumer at SAMPLE: up to four waiting SPDUs, in order of arrival. -/
def Run.chmTakeSpdus (r : Run s₀) (c : Nat) : Run s₀ :=
  let w := (r.s.chmConn c).waiting
  let r := r.setChmConn c { r.s.chmConn c with waiting := w.drop 4 }
  r.each (w.take 4) fun r e => r.chmConsume c e.1 e.2

/-- No SPDU accepted for more than `t_wd_us`: the consumer is no longer VALID (R512). -/
def Run.chmConnExpire (r : Run s₀) (c : Nat) : Run s₀ :=
  let x := r.s.chmConn c
  if x.valid && decide (r.s.spsConn c 16 4 < r.s.chmNow - x.lastAt) then
    ((r.setChmConn c { x with valid := false }).wb Reg.chmConn (16 + c) false).flag Reg.chmEvstat 7
  else r

/-- CONNECTION_WATCHDOG. -/
def execConnectionWatchdog (c : Nat) (s : State) : Out :=
  let r := Run.start s
  (if s.chm.on && decide (c < 16) then r.chmConnExpire c else r).done

/-- A producer in EVAL: an SPDU every `period`-th cycle (R510). `send` is false when the comparison failed (R483). -/
def Run.chmProduce (r : Run s₀) (send : Bool) (c : Nat) : Run s₀ :=
  let x := r.s.chmConn c
  if x.count + 1 < r.s.spsConn c 10 1 then r.setChmConn c { x with count := x.count + 1 }
  else
    let d := r.s.spduOf c x.seq
    let r := r.setChmConn c { x with count := 0, seq := (x.seq + 1) % 2 ^ 32 }
    if !send then r
    else if r.s.spsConn c 1 1 = 0 then r.originate 2 (r.s.spsConn c 8 2) 3 d
    else r.setChmConn c { r.s.chmConn c with spdu := some d }

/-- A SAFE frame that has arrived: it waits at the consumer that it matches, or is counted as foreign (R511). -/
def Run.chmSafeFrame (r : Run s₀) (src : Nat) (d : List Byte) : Run s₀ :=
  let hit (c : Nat) : Bool := r.s.spsConn c 0 1 == 2 && r.s.spsConn c 1 1 == 0 && r.s.spsConn c 8 2 == src
    && r.s.spsConn c 2 2 == ofBytesBE (d.take 2)
  match (List.range 16).find? hit with
  | some c => if r.s.chm.on then
      r.setChmConn c { r.s.chmConn c with waiting := (r.s.chmConn c).waiting ++ [(d, none)] } else r
  | none => r.when r.s.chm.on fun r => r.count Reg.chmCnt 23 16

/-! ## Demand groups (R493) -/

/-- What group i evaluates to on the newest samples. -/
def State.groupDemand (s : State) (i : Nat) : Bool :=
  let m := s.spsGrp i 0 4
  let c := s.spsGrp i 4 1 % 16
  let x := s.chmConn c
  s.spsValid && ((m &&& s.rf Reg.chmSiStat 31 16) != 0 || (m >>> 16 &&& s.rf Reg.chmSw 7 0) != 0
    || (bit (s.spsGrp i 4 1) 7 && (!x.valid || !bit x.data (s.spsGrp i 5 1 % 32))))

/-- All groups are evaluated; one that enters demand sets `demand`. -/
def Run.chmGroups (r : Run s₀) : Run s₀ :=
  let old := (r.s.rget Reg.chmGrp).toNat
  let new := bitsOf ((List.range 32).map r.s.groupDemand)
  (r.wr Reg.chmGrp new).when ((List.range 32).any fun i => bit new i && !bit old i) fun r => r.flag Reg.chmEvstat 0

/-! ## Axis functions (R500 to R502) -/

/-- The speed of one channel after a new frame: v = Δp / Δt over the newest frames (R501); arrivals in microseconds. -/
def ChmSpeed.frame (x : ChmSpeed) (word shift wrap us : Nat) : ChmSpeed :=
  let p := (word % 2 ^ 32) >>> shift % 2 ^ wrap
  match x.pos with
  | none => { x with pos := some (p, us) }
  | some (q, t) =>
    let d := sInt wrap (p + 2 ^ wrap - q)
    let v := if us ≤ t then x.v else f64.ofRat (decide (d < 0)) (d.natAbs * 1000000) (us - t) 0
    { pos := some (p, us), v := v }

/-- The monitored speed: the larger of |v_A| and |v_B| (R501). -/
def ChmAx.speed (x : ChmAx) : Nat := f64.max (f64.abs x.sa.v) (f64.abs x.sb.v)

/-- A binary32 field of an axis as binary64. -/
def State.spsAxF (s : State) (n off : Nat) : Nat := f32.conv f64 (s.spsAx n off 4)

/-- The envelope of R502 at `t` microseconds after t_d. -/
def State.envelope (s : State) (n vs t : Nat) : Nat :=
  let lag := s.spsAx n 20 4
  if t ≤ lag then vs
  else f64.max (s.spsAxF n 24) (f64.sub vs (f64.mul (s.spsAxF n 16) (f64.ofRat false (t - lag) 1000000 0)))

/-- The speed measurement of an SS1R axis and its encoder faults (R501). -/
def Run.chmEncoder (r : Run s₀) (n : Nat) : Run s₀ :=
  let a := tget {} n r.s.motion.axes
  let x := r.s.chmAx n
  let x := match a.tap with
    | some (f0, f1, _) =>
      if x.tapAt < a.tapAt then
        { x with tapAt := a.tapAt, encAt := a.tapAt,
                 sa := x.sa.frame f0 (r.s.spsAx n 36 1) (r.s.spsAx n 38 1) (a.tapAt / 800),
                 sb := x.sb.frame f1 (r.s.spsAx n 37 1) (r.s.spsAx n 38 1) (a.tapAt / 800) }
      else x
    | none => x
  let apart := f64.lt (r.s.spsAxF n 28) (f64.abs (f64.sub x.sa.v x.sb.v))
  let x := { x with encDisc := if apart then min (x.encDisc + 1) 2 else 0 }
  let r := (r.setChmAx n x).wr (Reg.chmAxSpeed n) (f64.conv f32 x.speed)
  (r.chmAxFault n 7 (decide (r.s.spsAx n 32 4 ≤ (r.s.cyc - x.encAt) / 800))).chmAxFault n 8 (decide (2 ≤ x.encDisc))

/-- At SAMPLE a ball is in an off-pulse of `width` microseconds that began at `p`, or within `after` microseconds of its end
(R496, R499). -/
def ChmSt.inPulse (t : ChmSt) (width after : Nat) (p : Option Nat) : Bool :=
  p.any fun p => decide (p ≤ t.clk ∧ t.clk < p + width + after)

/-- The pads and the feedback of an axis (R496, R497). A pad is not judged within an off-pulse. -/
def Run.chmAxReadback (r : Run s₀) (i : SafeSample) (n : Nat) : Run s₀ :=
  let t := r.s.chm
  let x := r.s.chmAx n
  let on := bit t.torque n
  let padA := bit t.cmdT n && !t.offA
  let padB := bit t.cmdT n && !t.offB
  let quiet (p : Option Nat) : Bool := t.inPulse (r.s.sps 10 2) 0 p
  let r := r.chmAxFault n 4 ((!quiet x.pulseA && bit i.stoA n != padA) || (!quiet x.pulseB && bit i.stoB n != padB))
  let lim := r.s.spsAx n 8 4
  let pulse := match x.pulseEnd with | some e => decide (t.clk < e + lim) | none => false
  let late := decide (x.since + lim ≤ t.clk)
  let bad (q : Bool) : Bool := if on then late && !pulse && q else late && !q
  let apart := bit i.stofbA n != bit i.stofbB n
  if r.s.spsAx n 0 1 ≠ 0 ∧ bit (r.s.spsAx n 2 1) 1 then
    r.chmAxFault n 6 (apart || bad (bit i.stofbA n))
  else r

/-- An SS1 function under way is carried on, or one begins: t_d, `stop_req`, standstill, envelope, and whether torque is
to be removed at the next OUT (R500, R502). -/
def Run.chmStop (r : Run s₀) (n : Nat) : Run s₀ :=
  let t := r.s.chm.clk
  let func := r.s.spsAx n 0 1
  let dem := r.s.inDemand (r.s.spsAx n 1 1)
  let x := r.s.chmAx n
  let starts := x.td.isNone && dem
  let v := x.speed
  let r := if starts then
      let r := r.setChmAx n { x with td := some t, still := 0, removed := false,
                                     vs := f64.add v (r.s.spsAxF n 12) }
      (r.wb (if n < 32 then Reg.chmAxStopLo else Reg.chmAxStopHi) (n % 32) true).flag Reg.chmEvstat 4
    else r
  let x := r.s.chmAx n
  match x.td with
  | none => r
  | some td =>
    if x.removed then r
    else
      let timeUp := decide (td + r.s.spsAx n 4 4 * 1000 ≤ t + r.s.tCyc)
      let still := if f64.le v (r.s.spsAxF n 24) then x.still + 1 else 0
      let breach := func == 3 && f64.lt (r.s.envelope n x.vs (t - td)) v
      let r := r.setChmAx n { x with still := still }
      let r := r.chmAxFault n 9 breach
      let x := r.s.chmAx n
      let go := timeUp || x.lock.locked || (func == 3 && decide (r.s.spsAx n 39 1 ≤ still))
      if go then r.setChmAx n { x with removed := true } else r

/-- The end of a stop: torque may be permitted again. -/
def Run.chmStopEnd (r : Run s₀) (n : Nat) : Run s₀ :=
  (r.setChmAx n { r.s.chmAx n with td := none, removed := false, still := 0 }).wb
    (if n < 32 then Reg.chmAxStopLo else Reg.chmAxStopHi) (n % 32) false

/-- The function of an axis in EVAL (R500 to R503). -/
def Run.chmFunction (r : Run s₀) (n : Nat) : Run s₀ :=
  let func := r.s.spsAx n 0 1
  let dem := r.s.inDemand (r.s.spsAx n 1 1)
  if func = 0 then r
  else
    let r := if func = 1 then r.setChmAx n { r.s.chmAx n with removed := dem } else r.chmStop n
    let x := r.s.chmAx n
    if x.removed then
      if bit (r.s.spsAx n 2 1) 0 then
        let r := r.when x.lock.disc fun r => r.chmAxLock n { x.lock with disc := false, fault := true }
        if !dem && !bit r.s.chm.torque n && !(r.s.chmAx n).lock.locked then r.chmStopEnd n else r
      else r.chmAxLock n { x.lock with demand := true, disc := false, fault := x.lock.fault || x.lock.disc }
    else r

/-- Torque is permitted (R495). -/
def State.chmPermitted (s : State) (n : Nat) : Bool :=
  let x := s.chmAx n
  s.spsValid && s.spsAx n 0 1 != 0 && !x.removed && !x.lock.locked

/-! ## Safe outputs (R495, R496, R498) -/

/-- Readbacks of an output; a pad is not judged within an off-pulse, and the external readback follows it within `t_fb_us`
(R496, R498). -/
def Run.chmOutReadback (r : Run s₀) (i : SafeSample) (k : Nat) : Run s₀ :=
  let t := r.s.chm
  let padA := bit t.cmdS k && !t.offA
  let padB := bit t.cmdS k && !t.offB
  let x := r.s.chmOut k
  let on := r.s.rb Reg.chmSoStat k
  let late := r.s.spsOut k 0 1 == 1 && decide (x.since + r.s.spsOut k 4 4 ≤ t.clk)
  let fb := r.s.spsOut k 4 4
  let quiet (after : Nat) (p : Option Nat) : Bool := t.inPulse (r.s.sps 12 2) after p
  r.chmOutFault k 2 ((!quiet 0 x.pulseA && bit i.soA k != padA) || (!quiet 0 x.pulseB && bit i.soB k != padB)
    || (late && ((!quiet fb x.pulseA && bit i.fbA k != on) || (!quiet fb x.pulseB && bit i.fbB k != on))))

/-- The lock of an output by demand. -/
def Run.chmOutFunction (r : Run s₀) (k : Nat) : Run s₀ :=
  let l := (r.s.chmOut k).lock
  if r.s.spsOut k 0 1 == 1 && r.s.inDemand (r.s.spsOut k 1 1) && !bit (r.s.spsOut k 2 1) 0 then
    r.chmOutLock k { l with demand := true }
  else r

/-- The output is to be on (R495). -/
def State.chmSoOn (s : State) (k : Nat) : Bool :=
  s.spsValid && s.spsOut k 0 1 == 1 && !s.inDemand (s.spsOut k 1 1) && !(s.chmOut k).lock.locked && s.rb Reg.chmSoReq k

/-! ## Reset (R505) -/

/-- The conditions of the faults of an axis are no longer present. -/
def State.chmAxClear (s : State) (i : SafeSample) (n : Nat) : Bool :=
  let t := s.chm
  let x := s.chmAx n
  let f := x.lock.faults
  let pads := bit i.stoA n == (bit t.cmdT n && !t.offA) && bit i.stoB n == (bit t.cmdT n && !t.offB)
  (!(bit f 4 || bit f 5) || pads) && (!bit f 6 || (bit i.stofbA n && bit i.stofbB n))
    && (!bit f 7 || decide ((s.cyc - x.encAt) / 800 < s.spsAx n 32 4)) && (!bit f 8 || x.encDisc == 0)

/-- The conditions of the faults of an output are no longer present. -/
def State.chmOutClear (s : State) (i : SafeSample) (k : Nat) : Bool :=
  let t := s.chm
  let f := (s.chmOut k).lock.faults
  let on := s.rb Reg.chmSoStat k
  !(bit f 2 || bit f 3) || (bit i.soA k == (bit t.cmdS k && !t.offA) && bit i.soB k == (bit t.cmdS k && !t.offB)
    && bit i.fbA k == on && bit i.fbB k == on)

/-- A reset by RESET input k, of `len` samples; it acts at the first sample after the release. -/
def Run.chmReset (r : Run s₀) (i : SafeSample) (k len : Nat) : Run s₀ :=
  let us := len * r.s.tCyc
  let axs := (List.range 48).filter fun n => r.s.spsAx n 0 1 != 0 && r.s.spsAx n 3 1 == k && (r.s.chmAx n).lock.locked
    && !r.s.inDemand (r.s.spsAx n 1 1) && r.s.chmAxClear i n
  let sos := (List.range 8).filter fun o => r.s.spsOut o 0 1 == 1 && r.s.spsOut o 3 1 == k && (r.s.chmOut o).lock.locked
    && !r.s.inDemand (r.s.spsOut o 1 1) && r.s.chmOutClear i o
  if us < 200000 ∨ 2000000 < us ∨ (axs.isEmpty && sos.isEmpty) then
    (r.count Reg.chmCnt 31 24).flag Reg.chmEvstat 6
  else
    let r := r.each axs fun r n => (r.setChmAx n { r.s.chmAx n with lock := {} }).chmStopEnd n
    let r := r.each sos fun r o => r.setChmOut o { r.s.chmOut o with lock := {} }
    r.flag Reg.chmEvstat 5

/-! ## The set comes into use (R486, R506) -/

/-- A set comes into use: every function and every output enters the start lock-out, and STO is active (R506). -/
def Run.chmUse (r : Run s₀) (l : List Byte) : Run s₀ :=
  let r := r.each (List.range 849) fun r w => r.wr (Reg.chmSpsAct w) (recNat l (4 * w) 4)
  let r := ((r.wr Reg.chmSpsActcrc (recNat l 0xD40 4)).wb Reg.chmStat 31 true).wf Reg.chmStat 10 0 (recNat l 8 2)
  let lock : ChmLock := { start := true }
  let r := r.mapChm fun t => { t with
    nextT := 0, nextS := 0, ins := [], conns := []
    axes := (List.range 48).map fun n =>
      (n, { lock := lock, tapAt := r.s.cyc, encAt := r.s.cyc, since := (r.s.chmAx n).since })
    outs := (List.range 8).map fun k => (k, { lock := lock, since := (r.s.chmOut k).since }) }
  let run := bitsOf ((List.range 16).map fun c => decide (recNat l (0xB40 + 32 * c) 1 ≠ 0))
  let r := (r.wr Reg.chmConn run).flag Reg.chmEvstat 1
  let r := (r.wr Reg.chmAxStopLo 0).wr Reg.chmAxStopHi 0
  (r.each (List.range 48) fun r n => r.wr (Reg.chmAxSpeed n) 0).chmDrive 0 0

/-- The outcome of a load request that is refused (R486): status, cause, offset of a byte out of range. -/
def State.spsRefusal (s : State) (expected : Nat) : Option (Status × Nat × Nat) :=
  let l := s.staged
  if s.node ≠ .test then some (.refused, 0, 0)
  else if s.chm.load.isSome then some (.busy, 0, 0)
  else if spsCrc l ≠ recNat l 0xD40 4 ∨ spsCrc l ≠ expected then some (.cfgerr, 0x10, 0)
  else match spsRange l with
    | some off => some (.cfgerr, 0x15, off)
    | none => none

/-- A load is requested, by an operation or by CHM_SPS_CMD. -/
def Run.spsLoad (r : Run s₀) (op : Option Op) : Run s₀ :=
  let expected := match op with | some o => recNat o.payload 0 4 | none => (r.s.rget Reg.chmSpsCrc).toNat
  match r.s.spsRefusal expected with
  | some (st, cause, off) =>
    let r := r.flag Reg.chmEvstat 10
    let r := if cause = 0x15 then r.wr Reg.chmSpsPos off else r
    match op with
    | some o => r.opFin o st cause []
    | none => r.wf Reg.chmSpsCmd 31 24 st.code
  | none =>
    let r := (r.wb Reg.chmSpsCmd 16 true).mapChm fun t => { t with load := some (op.map (·.id)) }
    match op with
    | some o => r.opAct o
    | none => r

/-- SPDUs that waited when a set came into use are taken at its first SAMPLE by a connection that still consumes over the
transport they came by; a DELIVER for any other connection is REFUSED (R486, R516; DEDUCED, log 63). -/
def Run.chmWaited (r : Run s₀) (c : Nat) (l : List (List Byte × Option Nat)) : Run s₀ :=
  let herd := r.s.spsConn c 1 1 == 0
  let stay (e : List Byte × Option Nat) : Bool := r.s.spsConn c 0 1 == 2 && e.2.isNone == herd
  let r := r.setChmConn c { r.s.chmConn c with waiting := l.filter stay }
  r.each (l.filter fun e => !stay e) fun r e => match e.2 with
    | some id => r.opFinId id .refused 0 []
    | none => r

/-- A load in progress ends at the cycle boundary; Bharal stores the set and records it. -/
def Run.spsUse (r : Run s₀) : Run s₀ :=
  match r.s.chm.load with
  | none => r
  | some op =>
    let l := r.s.staged
    let waited := r.s.chm.conns.filter fun e => !e.2.waiting.isEmpty
    let r := (r.mapChm fun t => { t with load := none }).chmUse l
    let r := r.each waited fun r e => r.chmWaited e.1 e.2.waiting
    let r := (r.up (.bhr { r.s.bhr with sps := l })).log 0x0008 0 [recNat l 0xD40 4]
    let r := (r.wb Reg.chmSpsCmd 16 false).flag Reg.chmEvstat 11
    match op with
    | some id => r.opFinId id .ok 0 []
    | none => r.wf Reg.chmSpsCmd 31 24 0

/-- Bharal starts Chamois in LOAD with the set it has stored (R485, R487). -/
def Run.chmBoot (r : Run s₀) : Run s₀ :=
  let l := r.s.bhr.sps
  let r := r.mapChm fun t => { t with on := true, hbAt := r.s.cyc, cycAt := r.s.cyc }
  if l.length = 3396 ∧ spsCrc l = recNat l 0xD40 4 ∧ (spsRange l).isNone then r.chmUse l else r.chmDrive 0 0

/-! ## The safety cycle (R482) -/

/-- EVAL: inputs, groups, functions, outputs, resets, and the outputs for the next OUT. -/
def Run.chmEval (r : Run s₀) (i : SafeSample) : Run s₀ :=
  let r := r.each (List.range 16) fun r k => r.chmInput i k
  let r := r.chmGroups
  let r := r.each ((List.range 48).filter fun n => r.s.spsAx n 0 1 == 3) Run.chmEncoder
  let r := r.each (List.range 48) fun r n => r.chmAxReadback i n
  let r := r.each (List.range 8) fun r k => r.chmOutReadback i k
  let r := r.each (List.range 48) Run.chmFunction
  let r := r.each (List.range 8) Run.chmOutFunction
  let r := r.each ((List.range 16).filter fun k => (r.s.chmIn k).ended != 0) fun r k => r.chmReset i k (r.s.chmIn k).ended
  let r := r.mapChm fun t => { t with
    nextT := bitsOf ((List.range 48).map r.s.chmPermitted)
    nextS := bitsOf ((List.range 8).map r.s.chmSoOn) }
  r.chmShowLocks

/-- SAFETY_CYCLE: OUT, SAMPLE, EXCH, EVAL and COMP of one cycle. -/
def execSafetyCycle (i : SafeSample) (s : State) : Out :=
  let r := Run.start s
  if !s.chm.on then r.done
  else
    let r := r.spsUse
    let r := r.mapChm fun t => { t with clk := t.clk + r.s.tCyc, cycAt := r.s.cyc }
    let r := r.wr Reg.chmCycle ((r.s.rget Reg.chmCycle).toNat + 1)
    let r := r.chmDrive r.s.chm.nextT r.s.chm.nextS
    let role (s : State) (c : Nat) : Nat := if s.spsValid then s.spsConn c 0 1 else 0
    let consumers := (List.range 16).filter fun c => role r.s c == 2
    let r := r.each consumers Run.chmTakeSpdus
    let r := r.each consumers Run.chmConnExpire
    let r := r.chmEval i
    let fault := decide (0x20 ≤ i.internal ∧ i.internal ≤ 0x27)
    let r := r.each ((List.range 16).filter fun c => role r.s c == 1)
      fun r c => r.chmProduce (i.internal != 0x20 && i.internal != 0x21) c
    (r.when fault fun r => r.chmInternalFault i.internal).done

/-! ## Events of one channel (R479, R480, R484, R499) -/

/-- CHAMOIS_WATCHDOG_EXPIRY: two refreshes missed, the channel's outputs go off (R484). -/
def execChamoisWatchdogExpiry (b : Bool) (s : State) : Out :=
  let r := Run.start s
  (if s.chm.on then r.chmOff b else r).done

/-- SAFE_ISLAND_UNDERVOLT: the channel's pads go off, and the other channel's monitor reports SUPPLY (R479, R503). -/
def execSafeIslandUndervolt (b : Bool) (s : State) : Out :=
  let r := (Run.start s).chmOff b
  (if s.chm.on then r.chmInternalFault 0x25 else r).done

/-- CHAMOIS_FREQ_WINDOW: a raw frequency in Hz, the cycle lengths of the two channels in nanoseconds, and whether the
backup clock has been absent for more than 2 s (R480). -/
def execChamoisFreqWindow (hz lenA lenB : Nat) (absent : Bool) (s : State) : Out :=
  let r := Run.start s
  let apart := decide (max lenA lenB < (max lenA lenB - min lenA lenB) * 200)
  if s.chm.on && (absent || apart || decide (hz < 47500000 ∨ 52500000 < hz)) then (r.chmInternalFault 0x24).done else r.done

/-- IMAGE_CRC_CHECK: a channel has checked the CRC of its image in RAM (R479, R503). -/
def execImageCrcCheck (good : Bool) (s : State) : Out :=
  let r := Run.start s
  (if s.chm.on && !good then r.chmInternalFault 0x27 else r).done

/-- OFF_PULSE: one ball (false A, true B) of a pair that is on is switched low for the pulse width; `low` says that the
readbacks of R499 showed low within it. `out` false: STO pair of axis k; true: safe output k. -/
def execOffPulse (out : Bool) (k : Nat) (b low : Bool) (s : State) : Out :=
  let r := Run.start s
  let t := s.chmNow
  let test := s.sps 14 2 * 1000000
  let due (mine other : Option Nat) : Bool :=
    (match mine with | some p => decide (p + test ≤ t) | none => true) &&
    (match other with | some p => decide (p + test / 2 ≤ t) | none => true)
  if !(s.chm.on && s.spsValid) then r.done
  else if out then
    let x := s.chmOut k
    if decide (k < 8) && bit (s.spsOut k 2 1) 1 && s.sps 12 2 != 0 && s.rb Reg.chmSoStat k
        && (if b then due x.pulseB x.pulseA else due x.pulseA x.pulseB) then
      let x := if b then { x with pulseB := some t } else { x with pulseA := some t }
      ((r.setChmOut k x).chmOutFault k 3 (!low)).chmShowLocks.done
    else r.done
  else
    let x := s.chmAx k
    if decide (k < 48) && bit (s.spsAx k 2 1) 2 && s.sps 10 2 != 0 && bit s.chm.torque k
        && (if b then due x.pulseB x.pulseA else due x.pulseA x.pulseB) then
      let x := { x with pulseEnd := some (t + s.sps 10 2) }
      let x := if b then { x with pulseB := some t } else { x with pulseA := some t }
      ((r.setChmAx k x).chmAxFault k 5 (!low)).chmShowLocks.done
    else r.done

/-- HEARTBEAT_LOSS: no heartbeat of Bharal for 100 ms (R515). -/
def execHeartbeatLoss (s : State) : Out :=
  let r := Run.start s
  if s.chm.on && !s.rb Reg.chmStat 29 && decide (usCyc 100000 ≤ s.cyc - s.chm.hbAt) then
    ((r.wb Reg.chmStat 29 true).flag Reg.chmEvstat 12).done
  else r.done

/-- A heartbeat of Bharal arrives. -/
def Run.chmHeartbeat (r : Run s₀) : Run s₀ :=
  (r.mapChm fun t => { t with hbAt := r.s.cyc }).wb Reg.chmStat 29 false

/-! ## Mailbox and operations (R515, R516) -/

/-- CHM_SW_WRITE, CHM_SO_REQ_WRITE: the bits that the next SAMPLE takes. -/
def execChmSwWrite (v : Word) (s : State) : Out := ((Run.start s).wf Reg.chmSw 7 0 v.toNat).done
def execChmSoReqWrite (v : Word) (s : State) : Out := ((Run.start s).wf Reg.chmSoReq 7 0 v.toNat).done

/-- A refusal of class 0x10 sets `cfgerr` (R516). -/
def Run.chmRefuse (r : Run s₀) (o : Op) (st : Status) : Run s₀ := (r.flag Reg.chmEvstat 10).opFin o st 0 []

/-- CHM_SPSLOAD: by operation `id`, or by CHM_SPS_CMD (`none`). -/
def execChmSpsload (id : Option Nat) (s : State) : Out :=
  match id with
  | none => ((Run.start s).spsLoad none).done
  | some id => ((Run.start s).opRow id 11 1 fun r o => r.spsLoad (some o)).done

/-- DELIVER: the SPDU waits for the next SAMPLE. -/
def Run.actChmDeliver (r : Run s₀) (o : Op) : Run s₀ :=
  let c := o.obj
  let x := r.s.chmConn c
  if !(r.s.spsValid && r.s.spsConn c 0 1 == 2 && r.s.spsConn c 1 1 != 0) then r.chmRefuse o .refused
  else if 4 ≤ x.waiting.length then r.chmRefuse o .overload
  else (r.setChmConn c { x with waiting := x.waiting ++ [(o.payload.take 24, some o.id)] }).opAct o

/-- FETCH: the newest SPDU not yet fetched. -/
def Run.actChmFetch (r : Run s₀) (o : Op) : Run s₀ :=
  let c := o.obj
  let x := r.s.chmConn c
  if !(r.s.spsValid && r.s.spsConn c 0 1 == 1 && r.s.spsConn c 1 1 != 0) then r.chmRefuse o .refused
  else match x.spdu with
    | none => r.opFin o .empty 0 []
    | some d => (r.setChmConn c { x with spdu := none }).opFin o o.okSt 0 d

/-- STATUS: twelve registers. -/
def Run.actChmStatus (r : Run s₀) (o : Op) : Run s₀ :=
  r.opFin o o.okSt 0 (wordsLE (([Reg.chmStat, Reg.chmSiStat, Reg.chmGrp, Reg.chmSoStat, Reg.chmAxStoLo, Reg.chmAxStoHi,
    Reg.chmAxLockLo, Reg.chmAxLockHi, Reg.chmConn, Reg.chmFault, Reg.chmFaultCyc, Reg.chmCycle].map
    fun a => (r.s.rget a).toNat)))

def execChmDeliver (id : Nat) (s : State) : Out := ((Run.start s).opRow id 11 2 Run.actChmDeliver).done
def execChmFetch (id : Nat) (s : State) : Out := ((Run.start s).opRow id 11 3 Run.actChmFetch).done
def execChmStatus (id : Nat) (s : State) : Out := ((Run.start s).opRow id 11 4 Run.actChmStatus).done

/-- `hcan` takes back an SPDU that still waits (R159). -/
def Run.chmCancel (r : Run s₀) (o : Op) : Run s₀ :=
  let x := r.s.chmConn o.obj
  if x.waiting.any fun e => e.2 == some o.id then
    (r.setChmConn o.obj { x with waiting := x.waiting.filter fun e => e.2 != some o.id }).opFin o .aborted 0x01 []
  else r

end Sys2Proof.Machine
end

