-- ==== Sys2Proof/Machine/Herd.lean ====
section
/-!
DEFINITION. The Herd fabric (10_herd.md, R371 to R419): link bring-up, discovery and node IDs, rings, time transfer, the
transmitter of a port and the requester's side of transactions.
-/
namespace Sys2Proof.Machine

variable {s₀ : State}

/-- The Herd block changed. -/
def Run.mapHerd (r : Run s₀) (f : HerdSt → HerdSt) : Run s₀ := r.up (.herd (f r.s.herd))
def Run.mapPort (r : Run s₀) (p : Nat) (f : HPort → HPort) : Run s₀ := r.setHport p (f (r.s.hport p))

/-- The role of a port; HERD_PARENT shows the UP port and its neighbour's ID (R388). -/
def Run.setRole (r : Run s₀) (p v : Nat) : Run s₀ :=
  let r := r.wf (Reg.herdHpStat p) 28 26 v
  match r.s.upPort with
  | some u => r.wr Reg.herdParent (2 ^ 31 + u <<< 16 + (((r.s.hport u).nbr.map (·.id)).getD 0))
  | none => r.wr Reg.herdParent 0

/-- A rank is better: lower priority value, then lower UID (R387). -/
def better (p₁ u₁ p₂ u₂ : Nat) : Bool := decide (p₁ < p₂ ∨ (p₁ = p₂ ∧ u₁ < u₂))

/-- A 128-bit value in four registers, low word first. -/
def Run.wr128 (r : Run s₀) (a : Nat → Nat) (v : Nat) : Run s₀ :=
  r.each (List.range 4) fun r i => r.wr (a i) (v >>> (32 * i))
def State.rget128 (s : State) (a : Nat → Nat) : Nat :=
  (List.range 4).foldl (fun v i => v + (s.rget (a i)).toNat <<< (32 * i)) 0

/-- The UID of the Stag and the `herd_id` that the node knows. -/
def State.stagUid (s : State) : Nat := s.rget128 Reg.herdStagUid
def State.herdId (s : State) : Nat := s.rget128 Reg.herdHerdid

/-! ## Joining NORMAL (R36, R624) -/

/-- START ends when TB0 is LOCKED and the node has joined or formed a Herd: NORMAL with a valid calibration set,
RECOVERY without (R36). -/
def Run.startEnd (r : Run s₀) : Run s₀ :=
  if r.s.node = .start ∧ r.s.herd.joined ∧ r.s.tb0State = 2 then
    (if r.s.rb Reg.bhrStat 28 then r.nodeTo .normal .locked else r.nodeTo .recovery .calInvalid)
  else r

/-- The node follows a Stag. A change of a running Stag sets `stag_chg` and moves TB0 from LOCKED to HOLDOVER (R60, R403). -/
def Run.takeStag (r : Run s₀) (prio uid id : Nat) : Run s₀ :=
  let had := r.s.rb Reg.herdStat 28
  let chg := had && r.s.stagUid != uid
  let r := (r.wr128 Reg.herdStagUid uid).wr Reg.herdStag ((prio % 256) <<< 16 + id % 65536)
  let own := decide (uid = r.s.uid)
  let r := (r.wb Reg.herdStat 30 own).wb Reg.timeStat 2 own
  let r := r.wb Reg.herdStat 28 true
  if chg then
    let r := r.flag Reg.herdEvstat 8
    if !own && r.s.tb0State == 2 then (r.setTb0State 3).mapTime fun t => { t with lockCount := 0 } else r
  else r

/-! ## Links (R371 to R374) -/

/-- BLOCK_LOCK: a port gains block lock, with the alignment of its lanes in ps (R373, R399). -/
def execBlockLock (p alignTx alignRx : Nat) (s : State) : Out :=
  let r := Run.start s
  (if s.hlink p = 1 then
    (r.linkTo p 2).mapPort p fun x => { x with hearAt := s.cyc, helloAt := none, calCount := 0, nbr := none, t1 := none,
                                               alignTx := alignTx, alignRx := alignRx }
   else r).done

/-- What waits for a broken ring link goes round the ring (R396). -/
def Run.rewrap (r : Run s₀) (p : Nat) : Run s₀ :=
  let x := r.s.hport p
  let l := x.q3 ++ x.q2 ++ x.q1 ++ x.q0
  let keep (f : HerdFrame) : Bool := f.cls == 5 && f.dst == 0
  let r := r.setHport p { x with q3 := x.q3.filter keep, q2 := [], q1 := [], q0 := [], isoQ := [] }
  r.each ((x.isoQ.map (·.2)) ++ l.filter fun f => !keep f) fun r f => r.sendOn p f

/-- A port enters DOWN. The frame on the medium is lost. On a ring the node wraps to its other ring port and broadcasts
CUT; outside a ring the port loses its role (R374, R396, R397). `ring` is the mask of the node's ports on the ring. -/
def Run.linkDown (r : Run s₀) (p : Nat) (ring : Nat) : Run s₀ :=
  let was := r.s.hlink p
  let role := r.s.hrole p
  let nbr := ((r.s.hport p).nbr.map (·.id)).getD 0
  let r := (r.linkTo p 1).mapPort p fun x => { x with sending := none, nbr := none, t1 := none, calCount := 0, syncQ := [] }
  let r := r.wf (Reg.herdHpStat p) 15 0 0
  let other := (List.range 4).find? fun q => q != p && bit ring q
  match other with
  | some o =>
    if was = 4 ∧ bit ring p ∧ role = 3 then r.setRole p 0
    else if was = 4 ∧ bit ring p ∧ (role = 1 ∨ role = 2) then
      let r := ((r.mapHerd fun h => { h with wrap := some (p, o) }).wb Reg.herdStat 29 true).flag Reg.herdEvstat 9
      let r := r.rewrap p
      r.originate 5 0xFFFF 3 (bytesBE 4 0x05000000 ++ bytesBE 2 r.s.nodeId ++ bytesBE 2 nbr)
    else r.setRole p 0
  | none => r.setRole p 0

/-- LINK_DOWN: loss of signal for 1 µs, or of block lock, which is counted in `bler` (R374). -/
def execLinkDown (p : Nat) (lockLost : Bool) (ring : Nat) (s : State) : Out :=
  let r := Run.start s
  (if 2 ≤ s.hlink p then
    let r := if lockLost then (r.count (Reg.herdHpErrcnt p) 7 0).flag Reg.herdEvstat (4 + p) else r
    r.linkDown p ring
   else r).done

/-- HELLO_TIMEOUT: no HELLO for 3 ms (R374). -/
def execHelloTimeout (p ring : Nat) (s : State) : Out :=
  let r := Run.start s
  (if 2 ≤ s.hlink p ∧ (s.hport p).hearAt + usCyc 3000 ≤ s.cyc then r.linkDown p ring else r).done

/-- A write of `enable` switches a port on or off (R372). -/
def Run.herdEnable (r : Run s₀) (p v : Nat) : Run s₀ :=
  let r := r.wf (Reg.herdHpCtrl p) 0 0 (v % 2)
  if v % 2 = 0 then (if r.s.hlink p = 0 then r else (r.linkDown p 0).linkTo p 0)
  else if r.s.hlink p = 0 ∧ (r.s.node ≠ .boot ∧ r.s.node ≠ .load) then r.linkTo p 1 else r

/-- The payload of a HELLO (R386). Byte 3 is the priority of the node's Stag, and its own while it has none. -/
def State.helloPayload (s : State) (p : Nat) : List Byte :=
  let run := s.rb Reg.herdStat 28
  bytesBE 1 1 ++ bytesBE 1 p ++ bytesBE 1 (s.node.code + b2n run <<< 3)
    ++ bytesBE 1 (if run then s.rf Reg.herdStag 23 16 else s.herd.prio)
    ++ bytesBE 2 s.nodeId ++ bytesBE 2 s.herd.hops ++ bytesBE 16 s.uid ++ bytesBE 16 s.stagUid ++ bytesBE 16 s.herdId

/-- HELLO_SEND: every 1 ms (R386). -/
def execHelloSend (p : Nat) (s : State) : Out :=
  let r := Run.start s
  let x := s.hport p
  let dueNow : Bool := match x.helloAt with
    | none => true
    | some c => decide (c + usCyc 1000 ≤ s.cyc)
  (if 2 ≤ s.hlink p ∧ dueNow then
    (r.linkLocal p (s.helloPayload p)).mapPort p fun x => { x with helloAt := some s.cyc }
   else r).done

/-- What a HELLO says. -/
def nbrOf (d : List Byte) : HNbr :=
  let be (o n : Nat) : Nat := ofBytesBE ((d.drop o).take n)
  { port := be 1 1, state := bits (be 2 1) 2 0, running := bit (be 2 1) 3, prio := be 3 1, id := be 4 2, hops := be 6 2,
    uid := be 8 16, stagUid := be 24 16, herdId := be 40 16 }

/-- Hops to the Stag follow the parent's (R386, R388). -/
def Run.hopsFrom (r : Run s₀) (p : Nat) (n : HNbr) : Run s₀ :=
  if r.s.hrole p = 1 then
    let r := r.mapHerd fun h => { h with hops := if n.hops = 0xFFFF then 0xFFFF else n.hops + 1 }
    let r := r.wf Reg.herdParent 15 0 n.id
    if n.hops = 0 then r.wf Reg.herdStag 15 0 n.id else r
  else r

/-- A Stag of better rank in the same Herd is taken (R403): the port becomes the way to it. -/
def Run.yieldTo (r : Run s₀) (p : Nat) (n : HNbr) : Run s₀ :=
  let old := r.s.upPort
  let r := r.takeStag n.prio n.stagUid (if n.hops = 0 then n.id else r.s.freeVal)
  let r := if n.hops = 0 then r else r.drawn
  let r := match old with
    | some u => if u = p then r else r.setRole u 2
    | none => r
  (r.setRole p 1).hopsFrom p n

/-- A HELLO is received: the neighbour is noted, a LOCK port that sees its UID echoed enters CAL, and a better Stag of
the same Herd is taken (R373, R388, R403). `echo`: the HELLO echoes the port's own UID. Fawn keeps its ports in LOCK
(R597). -/
def Run.hello (r : Run s₀) (p : Nat) (d : List Byte) (echo : Bool) : Run s₀ :=
  if r.s.hlink p < 2 then r
  else
    let n := nbrOf d
    let r := r.mapPort p fun x => { x with nbr := some n, hearAt := r.s.cyc }
    let r := r.wf (Reg.herdHpStat p) 15 0 n.id
    let r := if r.s.hlink p = 2 ∧ echo ∧ !r.s.rb Reg.bhrStat 27 then r.linkTo p 3 else r
    let run := r.s.rb Reg.herdStat 28
    if r.s.hlink p = 4 ∧ (r.s.hrole p = 1 ∨ r.s.hrole p = 2) ∧ run ∧ n.running ∧ n.herdId = r.s.herdId
        ∧ n.stagUid ≠ r.s.stagUid ∧ r.s.herd.elect.isNone ∧ better n.prio n.stagUid (r.s.rf Reg.herdStag 23 16) r.s.stagUid then
      r.yieldTo p n
    else r.hopsFrom p n

def execHello (p : Nat) (d : List Byte) (echo : Bool) (s : State) : Out := ((Run.start s).hello p d echo).done

/-! ## Elections (R387, R403) -/

/-- A CLAIM for the best candidate the node knows, on every port (R386, R387). -/
def Run.sendClaims (r : Run s₀) : Run s₀ :=
  match r.s.herd.elect with
  | none => r
  | some e => r.each ((List.range 4).filter fun p => decide (2 ≤ r.s.hlink p)) fun r p =>
      r.linkLocal p (bytesBE 1 2 ++ bytesBE 1 e.prio ++ bytesBE 2 e.hops ++ bytesBE 4 0 ++ bytesBE 16 e.uid)

/-- The node stands as its own candidate. -/
def Run.elect (r : Run s₀) (succession : Bool) : Run s₀ :=
  let r := r.mapHerd fun h => { h with
    elect := some { prio := h.prio, uid := r.s.uid, hops := 0, since := r.s.cyc, succession := succession }
    sizeSent := false, idFailAt := none }
  (r.each (List.range 4) fun r p => r.mapPort p fun x => { x with candHops := none }).sendClaims

/-- The parent of R388 among ports of a distance: fewest hops, then lower UID, then lower own port. -/
def State.bestParent (s : State) (hops : Nat → Option Nat) : Option Nat :=
  (List.range 4).foldl (fun best p => match hops p, (s.hport p).nbr with
    | some h, some n => match best with
      | none => some p
      | some q =>
        let hq := (hops q).getD 0
        let uq := ((s.hport q).nbr.map (·.uid)).getD 0
        if h < hq ∨ (h = hq ∧ n.uid < uq) then some p else best
    | _, _ => best) none

/-- The SIZE report: S = 1 + spare + Σ S_child (R389). -/
def State.subtree (s : State) : Nat :=
  1 + s.herd.spare + ((List.range 4).map fun p =>
    if s.hrole p = 2 then ((s.hport p).childSize).getD 0 else 0).sum

/-- A child's interval is entered and its ASSIGN sent; the port remembers the UID it gave the range to (R389, R390). -/
def Run.assignChild (r : Run s₀) (p slot f l : Nat) : Run s₀ :=
  let r := r.wr (Reg.herdHpIvl p slot) (l <<< 16 + f)
  let uid := ((r.s.hport p).nbr.map (·.uid)).getD 0
  let r := r.mapPort p fun x => { x with given := some (uid, f, l) }
  r.linkLocal p (bytesBE 1 4 ++ bytesBE 3 0 ++ bytesBE 2 f ++ bytesBE 2 l)

/-- A node takes its range: f is its own ID, children take consecutive ranges in port order, the last `spare` IDs stay
spares (R389). -/
def Run.takeRange (r : Run s₀) (f l : Nat) : Run s₀ :=
  let r := r.mapHerd fun h => { h with
    range := some (f, l), spares := if h.spare = 0 then none else some (l + 1 - h.spare, l), idFailAt := none }
  let r := (r.wf Reg.herdStat 15 0 f).wb Reg.herdStat 31 true
  let r := if r.s.rb Reg.herdStat 30 then r.wf Reg.herdStag 15 0 f else r
  let give (acc : Run s₀ × Nat) (p : Nat) : Run s₀ × Nat :=
    if acc.1.s.hrole p = 2 then
      match (acc.1.s.hport p).childSize with
      | some n => (acc.1.assignChild p 0 acc.2 (acc.2 + n - 1), acc.2 + n)
      | none => acc
    else acc
  ((List.range 4).foldl give (r, f + 1)).1

/-- The subtree is complete when every neighbour over an UP link other than the parent has reported its size or its link
rests; the Stag then numbers, any other node reports (R389). -/
def Run.sizeCheck (r : Run s₀) : Run s₀ :=
  let open' := (List.range 4).any fun p => r.s.hlink p == 4 && r.s.hrole p == 0
  if open' || r.s.hasId || !r.s.rb Reg.herdStat 28 || r.s.herd.elect.isSome then r
  else
    let n := r.s.subtree
    if r.s.rb Reg.herdStat 30 then
      let f := r.s.rf Reg.herdIdbase 15 0
      if 0xFFFE < f + n - 1 then
        (r.flag Reg.herdEvstat 13).mapHerd fun h => { h with idFailAt := some r.s.cyc }
      else r.takeRange f (f + n - 1)
    else match r.s.upPort with
    | some p =>
      if r.s.herd.sizeSent then r
      else (r.linkLocal p (bytesBE 1 3 ++ bytesBE 3 0 ++ bytesBE 4 n)).mapHerd fun h => { h with sizeSent := true }
    | none => r

/-- The node joins a running Herd over a port (R387, R392). -/
def Run.join (r : Run s₀) (p : Nat) (n : HNbr) : Run s₀ :=
  let r := r.takeStag n.prio n.stagUid (if n.hops = 0 then n.id else r.s.freeVal)
  let r := if n.hops = 0 then r else r.drawn
  let r := r.wr128 Reg.herdHerdid n.herdId
  let r := ((r.setRole p 1).hopsFrom p n).mapHerd fun h => { h with joined := true, pathAt := r.s.cyc, syncAt := r.s.cyc }
  r.sizeCheck

/-- ELECTION_START: after the 3 ms wait of START the node joins a running Herd that a neighbour reports, or stands for
election (R387). A node that is already in a running Herd stays in it (R390). -/
def execElectionStart (s : State) : Out :=
  let r := Run.start s
  if s.node ≠ .start ∨ s.herd.joined ∨ s.herd.elect.isSome ∨ s.cyc < s.bhr.startAt + usCyc 3000 then r.done
  else if s.rb Reg.herdStat 28 then (r.mapHerd fun h => { h with joined := true }).startEnd.done
  else
    let hops (p : Nat) : Option Nat := match (s.hport p).nbr with
      | some n => if n.running && decide (3 ≤ s.hlink p) then some n.hops else none
      | none => none
    match s.bestParent hops with
    | some p => match (s.hport p).nbr with
      | some n => ((r.join p n).startEnd).done
      | none => r.done
    | none => (r.elect false).done

/-- A CLAIM is received: a better candidate is adopted and claimed at once (R387). At a node that has reported its subtree
and waits for its ID a CLAIM is that of the election that an ID failure repeats: it sets `id_fail` and takes part (R389;
DEDUCED, log 59). -/
def Run.claim (r : Run s₀) (p : Nat) (d : List Byte) : Run s₀ :=
  let be (o n : Nat) : Nat := ofBytesBE ((d.drop o).take n)
  let prio := be 1 1
  let hops := be 2 2
  let uid := be 8 16
  let again := r.s.herd.elect.isNone && r.s.rb Reg.herdStat 28 && !r.s.hasId && r.s.herd.sizeSent
  let r := r.when again fun r => (r.flag Reg.herdEvstat 13).elect false
  match r.s.herd.elect with
  | none => r
  | some e =>
    if better prio uid e.prio e.uid then
      let r := r.each (List.range 4) fun r q => r.mapPort q fun x => { x with candHops := if q = p then some hops else none }
      (r.mapHerd fun h => { h with elect := some { e with prio := prio, uid := uid, hops := hops + 1, since := r.s.cyc } }).sendClaims
    else if prio = e.prio ∧ uid = e.uid then r.mapPort p fun x => { x with candHops := some hops }
    else r

def execClaim (p : Nat) (d : List Byte) (s : State) : Out := ((Run.start s).claim p d).done

/-- A newly elected Stag loads TB0 from the holdover seconds when they are valid, else with zero, and TB0 is LOCKED
(R58). -/
def Run.loadTb0 (r : Run s₀) : Run s₀ :=
  let sec := if r.s.rb Reg.pwrStat 31 then r.s.pwr.hold / 32768 else 0
  (r.moveBase 0 (.load sec 0)).tb0Lock

/-- The winner takes office: at an election it loads TB0 and names the Herd, at a succession TB0 runs on (R387, R403). -/
def Run.becomeStag (r : Run s₀) (succession : Bool) : Run s₀ :=
  let r := r.takeStag r.s.herd.prio r.s.uid (if r.s.hasId then r.s.nodeId else 0)
  let r := r.mapHerd fun h => { h with hops := 0 }
  if succession then (r.flag Reg.herdEvstat 15).tb0Lock
  else (r.wr128 Reg.herdHerdid r.s.uid).loadTb0

/-- ELECTION_END: 1 ms after the last change of candidate on the node (R387, R403). `resting` and `blocked` are the masks
of the node's ports whose links are no tree links (R393), a fact of the whole fabric. -/
def execElectionEnd (resting blocked : Nat) (s : State) : Out :=
  let r := Run.start s
  match s.herd.elect with
  | none => r.done
  | some e =>
    if s.cyc < e.since + usCyc 1000 then r.done
    else
      let won := decide (e.uid = s.uid)
      let r := r.mapHerd fun h => { h with elect := none, joined := true, pathAt := s.cyc, syncAt := s.cyc }
      let old := r.s.upPort
      let r := match old with
        | some u => r.setRole u (if (s.hport u).childSize.isSome then 2 else 0)
        | none => r
      let r := r.each (List.range 4) fun r p =>
        if bit resting p then r.setRole p 3
        else if bit blocked p then (r.setRole p 4).flag Reg.herdEvstat 22 else r
      let r :=
        if won then r.becomeStag e.succession
        else
          let hops (p : Nat) : Option Nat := if s.hlink p = 4 ∧ !bit blocked p then (s.hport p).candHops else none
          let r := r.takeStag e.prio e.uid 0
          let r := r.mapHerd fun h => { h with hops := e.hops }
          let r := if e.succession then r else r.wr128 Reg.herdHerdid e.uid
          match s.bestParent hops with
          | some p => r.setRole p 1
          | none => r
      (r.sizeCheck.startEnd).done

/-- Intervals in use on a port. -/
def State.ivlsUsed (s : State) (p : Nat) : Nat :=
  ((List.range 64).filter fun i => decide (s.rf (Reg.herdHpIvl p i) 15 0 ≠ 0)).length

/-- A graft (R390, R392): the range given before to this UID on this port, or a block of the node's spares. -/
def Run.graft (r : Run s₀) (p n : Nat) : Run s₀ :=
  let uid := ((r.s.hport p).nbr.map (·.uid)).getD 0
  let again := match (r.s.hport p).given with
    | some (u, f, l) => if u = uid then some (f, l) else none
    | none => none
  match again with
  | some (f, l) => r.linkLocal p (bytesBE 1 4 ++ bytesBE 3 0 ++ bytesBE 2 f ++ bytesBE 2 l)
  | none =>
    let slot := r.s.ivlsUsed p
    match r.s.herd.spares with
    | some (a, b) =>
      if a + n ≤ b + 1 ∧ slot < 64 ∧ 0 < n then
        let r := r.mapHerd fun h => { h with spares := if a + n = b + 1 then none else some (a + n, b) }
        (r.assignChild p slot a (a + n - 1)).flag Reg.herdEvstat 11
      else r.flag Reg.herdEvstat 13
    | none => r.flag Reg.herdEvstat 13

/-- A SIZE is received: the neighbour has chosen this node as its parent (R388, R389). A node that already has an ID
grafts it (R392). -/
def Run.size (r : Run s₀) (p : Nat) (d : List Byte) : Run s₀ :=
  let n := ofBytesBE ((d.drop 4).take 4)
  let r := (r.mapPort p fun x => { x with childSize := some n }).setRole p 2
  if r.s.hasId then r.graft p n else r.sizeCheck

def execSize (p : Nat) (d : List Byte) (s : State) : Out := ((Run.start s).size p d).done

/-- An ASSIGN is received from the parent (R389). A node keeps an ID that it has (R390). -/
def Run.assign (r : Run s₀) (p : Nat) (d : List Byte) : Run s₀ :=
  let be (o n : Nat) : Nat := ofBytesBE ((d.drop o).take n)
  if r.s.hrole p = 1 ∧ !r.s.hasId then r.takeRange (be 4 2) (be 6 2) else r

def execAssign (p : Nat) (d : List Byte) (s : State) : Out := ((Run.start s).assign p d).done

/-- ID_FAIL_RETRY: 100 ms after an ID failure the election is repeated (R389). -/
def execIdFailRetry (s : State) : Out :=
  let r := Run.start s
  match s.herd.idFailAt with
  | none => r.done
  | some c => (if c + usCyc 100000 ≤ s.cyc then r.elect false else r).done

/-! ## A new link (R391 to R393) -/

/-- LINK_UP: after 16 exchanges a CAL port is UP, and its ends act on what their HELLOs report (R373, R391 to R393).
`first`: the link is the first of its cycle that is no tree link. -/
def execLinkUp (p : Nat) (first : Bool) (s : State) : Out :=
  let r := Run.start s
  if s.hlink p ≠ 3 ∨ (s.hport p).calCount < 16 then r.done
  else
    let r := r.linkTo p 4
    match (s.hport p).nbr with
    | none => r.done
    | some n =>
      let run := s.rb Reg.herdStat 28
      if !run ∨ !n.running then r.done
      else if n.herdId ≠ s.herdId then ((r.setRole p 4).flag Reg.herdEvstat 12).done
      else if n.stagUid ≠ s.stagUid then
        (if better n.prio n.stagUid (s.rf Reg.herdStag 23 16) s.stagUid then r.yieldTo p n else r.setRole p 2).done
      else if s.upPort.isNone ∧ !s.rb Reg.herdStat 30 then ((r.setRole p 1).hopsFrom p n).done
      else if (match (s.hport p).given with | some (u, _, _) => u == n.uid | none => false) && n.hops == 0xFFFF then
        (r.setRole p 2).done
      else if first then (r.setRole p 3).done
      else ((r.setRole p 4).flag Reg.herdEvstat 22).done

/-! ## Repair of a ring (R397) -/

/-- The intervals of a port replaced. -/
def Run.setIvls (r : Run s₀) (p : Nat) (l : List (Nat × Nat)) : Run s₀ :=
  r.each (List.range 64) fun r i => match l[i]? with
    | some (lo, hi) => r.wr (Reg.herdHpIvl p i) ((hi % 65536) <<< 16 + lo % 65536)
    | none => r.wr (Reg.herdHpIvl p i) 0

/-- CUT: a node of the ring repairs it: the RESTING link becomes a tree link, the parent is `parent` by R388, the
interval tables of its ring ports are rebuilt with the IDs unchanged, and wrapping stops (R397). `ring` is the mask of
the node's ring ports. -/
def Run.cut (r : Run s₀) (ring : Nat) (parent : Option Nat) (ivls : List (Nat × List (Nat × Nat))) : Run s₀ :=
  if ring % 16 = 0 then r
  else
    let r := r.when r.s.herd.wrap.isNone fun r => r.flag Reg.herdEvstat 9
    let r := (r.mapHerd fun h => { h with wrap := none }).wb Reg.herdStat 29 false
    let r := r.each ((List.range 4).filter fun p => bit ring p) fun r p =>
      if r.s.hlink p ≠ 4 then r.setRole p 0
      else if parent = some p then r.setRole p 1
      else r.setRole p 2
    let r := r.each (ivls.filter fun e => decide (e.1 < 4)) fun r e => r.setIvls e.1 e.2
    r.flag Reg.herdEvstat 10

def execCut (ring : Nat) (parent : Option Nat) (ivls : List (Nat × List (Nat × Nat))) (s : State) : Out :=
  ((Run.start s).cut ring parent ivls).done

/-! ## Time transfer (R398 to R402) -/

/-- A lane delay in ps times 4,096 (R402): default 1,850 and 2,400 ps while the calibration set is not valid. -/
def State.lane (s : State) (p : Nat) (tx : Bool) : Int :=
  let off := (if tx then 0x020 else 0x028) + 16 * p
  let t : Int := sInt 16 (s.rf (Reg.bhrTemp (p / 2)) 15 0)
  let l0 : Nat := if s.rb Reg.bhrStat 28 then s.calNat off 4 else if tx then 1850 else 2400
  let al := if tx then (s.hport p).alignTx else (s.hport p).alignRx
  (l0 : Int) * 4096 + s.calInt (off + 4) * (t - 400) + (al : Int) * 4096

/-- The same in 2⁻¹⁶ ns, and in whole ps. -/
def State.laneSub (s : State) (p : Nat) (tx : Bool) : Int := (s.lane p tx * 2) / 125
def State.lanePs (s : State) (p : Nat) (tx : Bool) : Nat := uNat 16 ((s.lane p tx + 2048) / 4096)

/-- HERD_HPn_LANE shows the delays in use, recomputed at every exchange (R402). -/
def Run.showLane (r : Run s₀) (p : Nat) : Run s₀ :=
  r.wr (Reg.herdHpLane p) (r.s.lanePs p true <<< 16 + r.s.lanePs p false)

/-- `path` in the node's SYNC frames (R398). -/
def State.pathBit (s : State) : Bool := s.rb Reg.herdStat 30 || (s.tb0State == 2 && s.herd.lastPath)

/-- A SYNC payload (R398). -/
def State.syncPayload (s : State) (kind exch t2 : Nat) : List Byte :=
  bytesBE 1 kind ++ bytesBE 1 (b2n s.pathBit <<< 2 + s.tb0State) ++ bytesBE 2 exch ++ bytesBE 4 0
    ++ bytesBE 8 (t2 >>> 16) ++ bytesBE 2 t2 ++ bytesBE 14 0

/-- A SYNC frame joins the queue ahead of all (R377, R381). -/
def Run.syncSend (r : Run s₀) (p : Nat) (payload : List Byte) : Run s₀ :=
  let f : HerdFrame := { dst := 0, src := r.s.nodeId, cls := 0, hops := r.s.herd.hopLimit,
                         seq := tget 0 0 r.s.herd.seqs, payload := payload }
  (r.nextSeq 0).mapPort p fun x => { x with syncQ := x.syncQ ++ [f] }

/-- SYNC_REQ_SEND: the child sends REQ every `sync_us`, a port in CAL every 10 µs (R373, R398). A sync interval without
an exchange result is counted until the next result (R60). -/
def execSyncReqSend (p : Nat) (s : State) : Out :=
  let r := Run.start s
  let x := s.hport p
  let send (r : Run s) : Run s :=
    (r.mapPort p fun x => { x with exch := (x.exch + 1) % 65536, reqAt := some s.cyc }).syncSend p
      (s.syncPayload 0 ((x.exch + 1) % 65536) 0)
  let interval := usCyc (s.rf Reg.herdSync 13 0)
  if s.hlink p = 3 then
    let dueNow : Bool := match x.reqAt with
      | none => true
      | some c => decide (c + usCyc 10 ≤ s.cyc)
    (if dueNow then send r else r).done
  else if s.rb Reg.herdStat 28 ∧ !s.rb Reg.herdStat 30 ∧ s.herd.syncAt + interval ≤ s.cyc then
    let r := r.mapHerd fun h => { h with syncAt := s.cyc }
    let r := r.mapTime fun t => { t with missed := if t.heard then 0 else t.missed + 1, heard := false }
    (if s.hlink p = 4 ∧ s.hrole p = 1 then send r else r).done
  else r.done

/-- A REQ is received with its stamp `t` at the PCS (2⁻¹⁶ ns of TB0); the RESP follows at once (R398, R399). -/
def Run.syncReq (r : Run s₀) (p : Nat) (d : List Byte) (t : Nat) : Run s₀ :=
  if r.s.hlink p < 3 ∨ r.s.hrole p = 4 then r
  else
    let r := r.showLane p
    let t2 := uNat 80 ((t : Int) - r.s.laneSub p false)
    r.syncSend p (r.s.syncPayload 1 (ofBytesBE ((d.drop 2).take 2)) t2)

def execSyncReq (p : Nat) (d : List Byte) (t : Nat) (s : State) : Out := ((Run.start s).syncReq p d t).done

/-- The increment that removes an offset of `m`/250 · 2⁻¹⁶ ns over the next sync interval, within a range of ppm around
`inc` (R401). -/
def steerInc (inc : Nat) (m : Int) (syncUs ppm : Nat) : Nat :=
  let lim : Int := ((inc * ppm / 1000000 : Nat) : Int)
  let want : Int := -(m * 65536) / ((250 * (syncUs * 200) : Nat) : Int)
  let d := if want > lim then lim else if want < -lim then -lim else want
  ((inc : Int) + d).toNat

/-- The increment that software has applied (R48), and the base with another increment in use. -/
def State.incSet (s : State) (n : Nat) : Nat := (s.base n).applied
def Run.useInc (r : Run s₀) (inc : Nat) : Run s₀ := r.setBase 0 { r.s.base 0 with inc := inc }

/-- A free rate of at most `ppm`, either way (log 2: R401 bounds the rate in LOCKED and HOLDOVER and gives no law). -/
def State.freeRate (s : State) (ppm : Nat) : Int :=
  let lim := s.incSet 0 * ppm / 1000000
  (s.freeVal % (2 * lim + 1) : Nat) - (lim : Int)

/-- The servo acts on a result θ = m/250 · 2⁻¹⁶ ns; it says whether it stepped TB0 (R401). -/
def Run.servo (r : Run s₀) (m : Int) : Run s₀ × Bool :=
  let inc := r.s.incSet 0
  match r.s.tb0State with
  | 1 =>
    if r.s.herd.acqFirst || decide (250 * 65536 * 1000 < m.natAbs) then
      let r := r.mapHerd fun h => { h with acqFirst := false }
      (r.moveLater 0 (.add (-((m * 65536) / 250))) .servo, true)
    else (r.useInc (steerInc inc m (r.s.rf Reg.herdSync 13 0) 1000), false)
  | 2 => ((r.useInc ((inc : Int) + r.s.freeRate 200).toNat).drawn, false)
  | 3 =>
    let lim := inc * r.s.rf Reg.timeTb0HoldAct 20 12 / 1000000
    let d := r.s.freeVal % (lim + 1)
    ((r.useInc (if m > 0 then inc - d else if m < 0 then inc + d else inc)).drawn, false)
  | _ => (r, false)

/-- The judgement of TB0's lock on a result with `path` = 1 (R59, R60). -/
def Run.judge (r : Run s₀) (m : Int) (stepped : Bool) : Run s₀ :=
  let ns := 250 * 65536
  let inWin := decide (m.natAbs ≤ r.s.rf Reg.timeTb0LockAct 11 0 * ns)
  let r := r.mapTime fun t => { t with missed := 0, heard := true }
  match r.s.tb0State with
  | 2 => if r.s.rf Reg.timeTb0LockAct 23 12 * ns < m.natAbs then
      (r.setTb0State 3).mapTime fun t => { t with lockCount := 0 } else r
  | 0 => r
  | _ =>
    let n := if !inWin then 0 else if stepped then r.s.time.lockCount else r.s.time.lockCount + 1
    let r := r.mapTime fun t => { t with lockCount := n }
    if r.s.rf Reg.timeTb0LockAct 31 24 + 1 ≤ n then (r.tb0Lock.mapTime fun t => { t with lockCount := 0 }) else r

/-- A RESP is received with its stamp `t` at the PCS: offset and delay are computed and TB0 is steered and judged (R400,
R401). On a port in CAL the exchange only counts towards UP (R373). -/
def Run.syncResult (r : Run s₀) (p : Nat) (d : List Byte) (t : Nat) : Run s₀ :=
  let be (o n : Nat) : Nat := ofBytesBE ((d.drop o).take n)
  let x := r.s.hport p
  match x.t1 with
  | none => r
  | some t1 =>
    if be 2 2 ≠ x.exch ∨ r.s.hlink p < 3 then r
    else
      let r := r.showLane p
      let t4 : Int := (t : Int) - r.s.laneSub p false
      let t2 : Int := (be 8 8 <<< 16 + be 16 2 : Nat)
      let t3 : Int := (be 20 8 <<< 16 + be 18 2 : Nat)
      let a : Int := if r.s.hrole p = 1 then sInt 16 (r.s.rf (Reg.herdHpAsym p) 15 0) else 0
      let m : Int := 125 * ((t4 - t3) - (t2 - t1)) - 8192 * a
      let delay : Int := ((t2 - t1) + (t4 - t3)) / 2
      let th : Int := (m + 125) / 250
      let sat : Int := if th > 2147483647 then 2147483647 else if th < -2147483648 then -2147483648 else th
      let r := (r.wr (Reg.herdHpDelay p) (uNat 32 delay)).wr (Reg.herdHpOffset p) (uNat 32 sat)
      let r := r.mapPort p fun x => { x with t1 := none }
      if r.s.hlink p = 3 then r.mapPort p fun x => { x with calCount := x.calCount + 1 }
      else if r.s.hrole p ≠ 1 ∨ r.s.rb Reg.herdStat 30 then r
      else
        let path := bit (be 1 1) 2
        let r := r.mapHerd fun h => { h with lastPath := path, pathAt := if path then r.s.cyc else h.pathAt }
        let (r, stepped) := r.servo m
        let r := if path then r.judge m stepped else r
        r.startEnd

def execSyncResult (p : Nat) (d : List Byte) (t : Nat) (s : State) : Out := ((Run.start s).syncResult p d t).done

/-- PATH_LOSS: no result with `path` = 1 for the longer of 16 sync intervals and 10 ms; a succession begins (R403). -/
def execPathLoss (s : State) : Out :=
  let r := Run.start s
  let lim := max (16 * usCyc (s.rf Reg.herdSync 13 0)) (usCyc 10000)
  (if s.rb Reg.herdStat 28 ∧ !s.rb Reg.herdStat 30 ∧ s.herd.elect.isNone ∧ s.herd.pathAt + lim ≤ s.cyc then
    (r.flag Reg.herdEvstat 14).elect true
   else r).done

/-! ## The transmitter of a port (R376, R381, R408) -/

/-- The port is free: no frame on the medium. -/
def State.portFree (s : State) (p : Nat) : Bool := match (s.hport p).sending with
  | none => true
  | some (_, e) => decide (e ≤ s.cyc)

/-- The updates that wait for a node go into the starting frame, up to 64 (R384). -/
def Run.packUpdates (r : Run s₀) (p : Nat) (f : HerdFrame) : Run s₀ × HerdFrame :=
  let sent := r.s.asSent f
  let rest := (r.s.sig.herdOut.filter fun u => u.node == f.dst).drop 64
  let others := r.s.sig.herdOut.filter fun u => u.node != f.dst
  let r := r.mapSig fun t => { t with herdOut := others ++ rest }
  let r := if rest.isEmpty then r
    else r.toQueue p 2 { f with seq := tget 0 6 r.s.herd.seqs } |>.nextSeq 6
  (r, sent)

/-- A frame starts on the medium; its own departure time goes into `ts`, a REQ's stamp is kept as t1, a RESP carries t3
(R375, R398, R399). `t` is the stamp at the PCS in 2⁻¹⁶ ns of TB0. -/
def Run.startFrame (r : Run s₀) (p : Nat) (f : HerdFrame) (t : Nat) : Run s₀ :=
  let (r, f) := if f.cls = 6 ∧ !f.transit ∧ f.payload.isEmpty then r.packUpdates p f else (r, f)
  let f := if f.transit then f else { f with ts := r.s.now32 }
  let at' := uNat 80 ((t : Int) + r.s.laneSub p true)
  let f := if f.cls = 0 ∧ (f.payload.head?.map (·.toNat)) = some 1 then
      { f with payload := f.payload.take 18 ++ bytesBE 2 at' ++ bytesBE 8 (at' >>> 16) ++ f.payload.drop 28 } else f
  let r := if f.cls = 0 ∧ (f.payload.head?.map (·.toNat)) = some 0 then r.mapPort p fun x => { x with t1 := some at' } else r
  let r := if !f.transit then
      r.mapHerd fun h => { h with txns := h.txns.map fun e =>
        if e.cls = f.cls ∧ e.dest = f.dst ∧ e.payload = f.payload then { e with sent := true, sentAt := r.s.cyc } else e }
    else r
  r.mapPort p fun x => { x with sending := some (f, r.s.cyc + divUp ((f.payload.length + 40) * 16) 25) }

/-- The next frame of a port: SYNC, ISO frames due in a slot, then P3 to P0, each first in, first out; a frame of a queue
P only when it ends before the next slot (R381). -/
def Run.txNext (r : Run s₀) (p t : Nat) : Run s₀ :=
  let x := r.s.hport p
  let pos := r.s.cycPos
  let slots := r.s.slots p
  match x.syncQ.find? (r.s.mayGo p) with
  | some f => (r.setHport p { x with syncQ := x.syncQ.erase f }).startFrame p f t
  | none =>
    match x.isoQ.find? fun e => r.s.mayGo p e.2 && decide (((slots[e.1]?.map (·.2)).getD 0) * 50 ≤ pos) with
    | some e => (r.setHport p { x with isoQ := x.isoQ.erase e }).startFrame p e.2 t
    | none =>
      match [3, 2, 1, 0].find? fun q => (x.queue q).any fun f => r.s.mayGo p f with
      | none => r
      | some q => match (x.queue q).find? (r.s.mayGo p) with
        | none => r
        | some f =>
          if r.s.fitsBeforeSlot p f then (r.setHport p (x.setQueue q ((x.queue q).erase f))).startFrame p f t else r

/-- PORT_TX_START: a free output port starts its next frame, whose stamp at the PCS is `t` (R381). -/
def execPortTxStart (p t : Nat) (s : State) : Out :=
  let r := Run.start s
  (if s.portFree p then r.txNext p t else r).done

/-- ISO_SLOT: the offset of slot `i` is reached and the port sends the ISO frame placed in it (R408). -/
def execIsoSlot (p i t : Nat) (s : State) : Out :=
  let r := Run.start s
  let x := s.hport p
  let off := (((s.slots p)[i]?).map (·.2)).getD 0
  match x.isoQ.find? fun e => e.1 == i with
  | some e =>
    (if s.portFree p && s.mayGo p e.2 && decide (off * 50 ≤ s.cycPos) then
      (r.setHport p { x with isoQ := x.isoQ.erase e }).startFrame p e.2 t else r).done
  | none => r.done

/-- A cycle boundary: every slot is free again except those whose frame still waits (R408). -/
def Run.herdCycle (r : Run s₀) : Run s₀ :=
  r.each (List.range 4) fun r p => r.mapPort p fun x => { x with slotsUsed := x.isoQ.map (·.1) }

/-! ## Transactions: the requester (R410 to R413) -/

/-- HERD_TXN_STAT shows the entries in use and the requests in the target queue. -/
def Run.showTxn (r : Run s₀) : Run s₀ :=
  r.wr Reg.herdTxnStat (r.s.herd.tgtQ.length <<< 16 + r.s.herd.txns.length)

/-- A status by its code. -/
def statusOfCode (c : Nat) : Option Status :=
  [Status.ok, .empty, .late, .trunc, .broken, .refused, .busy, .overload, .cfgerr, .nosuch, .denied, .timeout, .aborted,
   .fault, .lost].find? fun x => x.code == c

/-- The results of a response in the device's byte order: entries of 4 bytes for SIGRD (R3, R411). -/
def txnResults (kind n : Nat) (d : List Byte) : List Byte :=
  if kind = 3 then
    (List.range (2 * n)).flatMap (fun k => bytesLE 4 (ofBytesBE ((d.drop (4 * k)).take 4))) ++ d.drop (8 * n)
  else d

/-- A response is received: the transaction ends with the target's status (R413, R417). -/
def Run.txnResponse (r : Run s₀) (src : Nat) (d : List Byte) : Run s₀ :=
  let be (o n : Nat) : Nat := ofBytesBE ((d.drop o).take n)
  match r.s.herd.txns.find? fun e => e.cls == 4 && e.dest == src && e.tag == be 4 4, statusOfCode (be 1 1) with
  | some e, some st =>
    let r := (r.mapHerd fun h => { h with txns := h.txns.erase e }).showTxn
    match e.op with
    | none => r
    | some id => match r.s.op id with
      | none => r
      | some o =>
        if o.out.isSome then r
        else if st = .ok then r.opFin o o.okSt 0 (txnResults (be 0 1 % 16) (be 2 2) (d.drop 16))
        else r.opFin o st 0x11 []
  | _, _ => r

/-! ## Transactions: the target's queue (R412, R413) -/

/-- A response goes to its requester, which may be the node itself. -/
def Run.txnReply (r : Run s₀) (src prio : Nat) (d : List Byte) : Run s₀ :=
  if src = r.s.nodeId then r.txnResponse src d else r.originate 4 src prio d

/-- The tag of a request. -/
def txnTag (d : List Byte) : Nat := ofBytesBE ((d.drop 4).take 4)

/-- A response: kind with bit 7, status, length, tag, the request's address bytes, data (R411). -/
def txnAnswer (d : List Byte) (st : Status) (data : List Byte) : List Byte :=
  [BitVec.ofNat 8 (0x80 + ((d.head?.map (·.toNat)).getD 0) % 16), BitVec.ofNat 8 st.code] ++ (d.drop 2).take 14 ++ data

/-- The stored response to a request whose source and tag the replay store holds (R413). -/
def State.txnStored (s : State) (src tag : Nat) : Option (List Byte) :=
  (s.herd.replay.find? fun x => x.src == src && x.tag == tag).map (·.payload)

/-- The target answers a request and keeps the answer while its replay store has room; a refusal sets `txn_refused`. -/
def Run.txnAnswered (r : Run s₀) (q : TgtReq) (st : Status) (data : List Byte) : Run s₀ :=
  let a := txnAnswer q.payload st data
  let r := r.when (st != .ok) fun r => r.flag Reg.herdEvstat 19
  let r := if 1024 ≤ r.s.herd.replay.length then r
    else r.mapHerd fun h => { h with replay := h.replay ++ [⟨q.src, txnTag q.payload, a, r.s.cyc⟩] }
  r.txnReply q.src q.prio a

/-- A request reaches the target's queue of 64; a full queue answers BUSY (R412). -/
def Run.txnArrive (r : Run s₀) (q : TgtReq) : Run s₀ :=
  match r.s.txnStored q.src (txnTag q.payload) with
  | some a => r.txnReply q.src q.prio a
  | none =>
    if 64 ≤ r.s.herd.tgtQ.length then r.txnAnswered q .busy []
    else (r.mapHerd fun h => { h with tgtQ := h.tgtQ ++ [q] }).showTxn

/-- A request is sent, or handed to the node's own target when it is the destination. -/
def Run.txnSend (r : Run s₀) (e : TxnEntry) : Run s₀ :=
  if e.dest = r.s.nodeId ∧ e.cls = 4 then
    (r.mapHerd fun h => { h with
      txns := h.txns.map fun x => if x = e then { x with sent := true, sentAt := r.s.cyc } else x }).txnArrive
        ⟨e.dest, e.prio, e.payload⟩
  else r.originate e.cls e.dest e.prio e.payload

/-- A new transaction takes an entry and is sent; false when all 1,024 are in use (R410). -/
def Run.txnOpen (r : Run s₀) (e : TxnEntry) : Run s₀ × Bool :=
  if 1024 ≤ r.s.herd.txns.length then (r, false)
  else
    let e := { e with tries := 1, sentAt := r.s.cyc }
    let r := r.mapHerd fun h => { h with txns := h.txns ++ [e] }
    (r.txnSend e |>.showTxn, true)

/-- TXN acts: the checks of R417 in their order, then the request. -/
def Run.actHerdTxn (r : Run s₀) (o : Op) : Run s₀ :=
  let d := o.payload
  let kind := recNat d 0 1 % 16
  let len := recNat d 2 2
  let dest := o.obj
  if dest = 0 ∨ 0xFFFF ≤ dest then r.opFin o .nosuch 0 []
  else if bit (recNat d 0 1) 7 ∨ kind < 1 ∨ 4 < kind ∨ (kind ≤ 2 ∧ 2032 < len) ∨ (3 ≤ kind ∧ 64 < len) then r.opFin o .cfgerr 0 []
  else if len = 0 then r.opFin o .empty 0 []
  else if !r.s.hasId then r.opFin o .refused 0x12 []
  else if dest ≠ r.s.nodeId ∧ (r.s.routePort dest).isNone then (r.herdDrop Reg.herdDropUnr).opFin o .refused 0x10 []
  else if 1024 ≤ r.s.herd.txns.length then r.opFin o .overload 0 []
  else
    let data := if kind = 2 then (d.drop 16).take len else if kind = 3 then
        (List.range len).flatMap fun k => bytesBE 4 (recNat d (16 + 4 * k) 4)
      else if kind = 4 then
        (List.range (3 * len)).flatMap fun k => bytesBE 4 (recNat d (16 + 4 * k) 4)
      else []
    let payload := bytesBE 1 kind ++ bytesBE 1 (recNat d 1 1 % 64) ++ bytesBE 2 len ++ bytesBE 4 (recNat d 4 4)
      ++ bytesBE 8 (recNat d 8 8) ++ data
    ((r.opAct o).txnOpen
      { dest := dest, tag := recNat d 4 4, prio := recNat d 1 1 / 64, payload := payload, op := some o.id }).1

def execHerdTxn (id : Nat) (s : State) : Out := ((Run.start s).opRow id 5 2 Run.actHerdTxn).done

def execTxnResponse (src : Nat) (d : List Byte) (s : State) : Out := ((Run.start s).txnResponse src d).done

/-- REPLAY_EXPIRY: a stored response leaves the replay store after 8 × `txn_us` (R413). -/
def execReplayExpiry (src tag : Nat) (s : State) : Out :=
  let r := Run.start s
  let old (x : Replay) : Bool :=
    x.src == src && x.tag == tag && decide (x.stored + 8 * usCyc (s.rf Reg.herdTxnCfg 15 0) ≤ s.cyc)
  (r.mapHerd fun h => { h with replay := h.replay.filter fun x => !old x }).done

/-- `hcan` ends a TXN that has not been sent (R417). -/
def Run.herdCancel (r : Run s₀) (o : Op) : Run s₀ :=
  match r.s.herd.txns.find? fun e => e.op == some o.id && !e.sent && e.tries == 1 with
  | some e =>
    let r := (r.mapHerd fun h => { h with txns := h.txns.erase e }).showTxn
    let r := r.each (List.range 4) fun r p => r.mapPort p fun x =>
      let drop (l : List HerdFrame) : List HerdFrame := l.filter fun f =>
        !(f.cls == 4 && f.dst == e.dest && !f.transit && f.payload == e.payload)
      { x with q3 := drop x.q3, q2 := drop x.q2, q1 := drop x.q1, q0 := drop x.q0 }
    r.opFin o .aborted 0x01 []
  | none => r

/-! ## Other operations (R417) and the checks of the groups (R406, R407) -/

/-- LINKSTAT acts. -/
def Run.actLinkstat (r : Run s₀) (o : Op) : Run s₀ :=
  let p := o.obj
  let w (a : Nat) : Nat := (r.s.rget a).toNat
  r.opFin o o.okSt 0 (wordsLE [w (Reg.herdHpStat p), w (Reg.herdHpDelay p), w (Reg.herdHpOffset p), w (Reg.herdHpLane p),
    w (Reg.herdHpErrcnt p), w (Reg.herdHpIsocnt p), w (Reg.herdHpAsym p) % 65536, w (Reg.herdHpSlotlenAct p)])

/-- STATUS acts. -/
def Run.actHerdStatus (r : Run s₀) (o : Op) : Run s₀ :=
  let w (a : Nat) : Nat := (r.s.rget a).toNat
  r.opFin o o.okSt 0 (wordsLE ([w Reg.herdStat, w Reg.herdStag, w Reg.herdParent, w Reg.herdTxnStat]
    ++ (List.range 4).map fun i => w (Reg.herdStagUid i)))

def execHerdLinkstat (id : Nat) (s : State) : Out := ((Run.start s).opRow id 5 3 Run.actLinkstat).done
def execHerdStatus (id : Nat) (s : State) : Out := ((Run.start s).opRow id 5 4 Run.actHerdStatus).done

/-- The check of R15 for group CYC (R406). -/
def State.cycCheck (s : State) : Bool :=
  !s.rb Reg.herdCyc 31 ||
    (let g := s.rf Reg.herdCyc 3 0
     let p := s.rf (Reg.timeSgPeriodAct g) 24 0
     s.gridEn g && s.gridBase g == 0 && decide (6250 ≤ p ∧ p ≤ 800000))

/-- Offsets rise strictly from above a bound and stay below the period. -/
def risingBelow (period : Nat) : Option Nat → List Nat → Bool
  | _, [] => true
  | lo, o :: t => (match lo with | none => true | some l => decide (l < o)) && decide (o < period) && risingBelow period (some o) t

/-- The check of R15 for group SLOTn (R407). -/
def State.slotCheck (s : State) (p : Nat) : Bool :=
  let n := s.rf (Reg.herdHpSlotlen p) 10 0
  decide (n ≤ 1024) &&
    risingBelow (s.rf (Reg.timeSgPeriodAct s.cycGrid) 24 0) none ((List.range n).map fun i => s.rf (Reg.herdHpSlot p i) 19 0)

end Sys2Proof.Machine
end

