-- ==== Sys2Proof/Machine/Le.lean ====
section
/-!
DEFINITION. The loop engine (06_loop_engine.md, R222 to R272): release and fetch, the sample in its order, owner
supervision and fallback, faults, admission, trace buffers and the LE unit.
-/
namespace Sys2Proof.Machine

variable {s₀ : State}

/-- The engine's own state changed. -/
def Run.mapLe (r : Run s₀) (f : LeSt → LeSt) : Run s₀ := r.up (.le (f r.s.le))

/-- What the engine holds of a context. -/
def State.lec (s : State) (c : Nat) : LeCtx := tget {} c s.le.ctxs
def Run.setLec (r : Run s₀) (c : Nat) (x : LeCtx) : Run s₀ := r.mapLe fun t => { t with ctxs := tset {} c x t.ctxs }

/-- `n` bytes of a context's block set by the engine. -/
def Run.leSet (r : Run s₀) (c off n v : Nat) : Run s₀ := r.putBytes (leBase c + off) (bytesLE n v)

/-- A list of mantissas set into a context's block. -/
def Run.leSetVec (r : Run s₀) (c off : Nat) (l : List Int) : Run s₀ :=
  r.putBytes (leBase c + off) (l.flatMap fun v => bytesLE 4 (uNat 32 v))

/-- The last owner refresh (R260), in the engine and in the header. -/
def Run.leRef (r : Run s₀) (c t : Nat) : Run s₀ := (r.setLec c { r.s.lec c with lastRef := t }).leSet c 104 4 t

/-! ## Redundancy as the engine sees it (R522, R527) -/

/-- The duty that replicates a context while the group runs. -/
def State.redDutyOf (s : State) (c : Nat) : Option Nat :=
  if s.rb Reg.redStat 31 then s.red.duties.findIdx? fun d => bit d.ctxMask c else none

/-- The node's role for a duty (R519). -/
def State.redRole (s : State) (d : Nat) : Nat := s.rf Reg.redStat (3 * d + 2) (3 * d)

/-- The context is a shadow: this node is JOINING or STANDBY for its duty. -/
def State.leShadow (s : State) (c : Nat) : Bool :=
  match s.redDutyOf c with
  | none => false
  | some d => s.redRole d == 2 || s.redRole d == 3

/-- AXIS outputs of the context are suppressed (R522). -/
def State.leAxOff (s : State) (c : Nat) : Bool :=
  match s.redDutyOf c with
  | none => false
  | some d => s.leShadow c && !((s.red.duties[d]?.getD {}).axShadow)

/-- A TB0 time is a cycle boundary of the isochronous cycle (R406). -/
def State.isCycleBoundary (s : State) (k : Nat) : Bool :=
  let g := s.rf Reg.herdCycAct 3 0
  s.rb Reg.herdCycAct 31 && decide (s.gridPhi g ≤ k) && (k - s.gridPhi g) % max 1 (s.gridP g) == 0

/-! ## Errors (R257, R270) -/

/-- The status of the last refused START or SWAP. -/
def Run.leLastErr (r : Run s₀) (c : Nat) (st : Status) (cause : Nat) : Run s₀ :=
  r.wr Reg.leLasterr (st.code <<< 24 + cause <<< 16 + c % 256)

/-- An operation of the unit ends; a CFGERR sets `cfgerr`, and LE_LASTERR records every CFGERR and every refusal of START
and SWAP (R270). -/
def Run.leFin (r : Run s₀) (o : Op) (st : Status) (cause : Nat) : Run s₀ :=
  ((r.when (st == .cfgerr) fun r => r.flag Reg.leEvstat 0).when
    (st == .cfgerr || (st.isRefusal && (o.code == 1 || o.code == 3))) fun r => r.leLastErr o.obj st cause).opFin o st cause []

/-- An operation that a shadow context refuses (R522). -/
def Run.leStandby (r : Run s₀) (o : Op) : Run s₀ := (r.flag Reg.leEvstat 0).leFin o .refused 0x1C

/-! ## Trace buffers (R267, R268) -/

/-- State of a trace buffer: 0 OFF, 1 RECORD, 2 POST, 3 DONE. -/
def State.trState (s : State) (b : Nat) : Nat := s.rf (Reg.leTrStat b) 31 30

/-- Nodes of the buffer in use. -/
def State.trNodes (s : State) (b : Nat) : List Nat :=
  (List.range (s.rf (Reg.leTrCfgAct b) 2 0 + 1)).map fun i =>
    if i < 4 then bits (s.rget (Reg.leTrNodesLoAct b)).toNat (8 * i + 7) (8 * i)
    else bits (s.rget (Reg.leTrNodesHiAct b)).toNat (8 * (i - 4) + 7) (8 * (i - 4))

/-- The buffer stops (R268). -/
def Run.trDone (r : Run s₀) (b : Nat) : Run s₀ := (r.wf (Reg.leTrStat b) 31 30 3).flag Reg.leEvstat 7

/-- A stop condition (bit of `stop_mask`) arises for a buffer: in mode RING the first one enabled starts POST. -/
def Run.trStop (r : Run s₀) (b condBit : Nat) : Run s₀ :=
  if r.s.trState b = 1 ∧ r.s.rb (Reg.leTrCfgAct b) 30 ∧ r.s.rb (Reg.leTrCfgAct b) condBit then
    let n := (r.s.trNodes b).length
    let left := min 4096 (divUp (r.s.rf (Reg.leTrPostAct b) 12 0) n * n)
    if left = 0 then r.trDone b
    else (r.wf (Reg.leTrStat b) 31 30 2).mapLe fun t => { t with trPost := tset 0 b left t.trPost }
  else r

/-- A stop condition of a context reaches every buffer that traces it. -/
def Run.trStopCtx (r : Run s₀) (c condBit : Nat) : Run s₀ :=
  r.each ((List.range 64).filter fun b => r.s.rf (Reg.leTrCfgAct b) 15 8 == c && r.s.rb (Reg.leTrCfgAct b) 31)
    fun r b => r.trStop b condBit

/-- A recording buffer writes one entry (R267). -/
def Run.trEntry (r : Run s₀) (b val stamp : Nat) : Run s₀ :=
  let next := r.s.rf (Reg.leTrStat b) 11 0
  let r := r.putBytes (trBase b + 8 * next) (bytesLE 4 val ++ bytesLE 4 stamp)
  let r := r.wf (Reg.leTrStat b) 11 0 ((next + 1) % 4096)
  if next = 4095 ∧ r.s.rb (Reg.leTrCfgAct b) 30 then r.wb (Reg.leTrStat b) 29 true else r

/-- The entries of one sample in a buffer; `vals` gives the value of a node byte. After the stop condition no more than the
entries left are written (R268). -/
def Run.trSample (r : Run s₀) (b stamp : Nat) (vals : Nat → Nat) : Run s₀ :=
  let st := r.s.trState b
  if st = 1 ∨ st = 2 then
    let left0 := tget 0 b r.s.le.trPost
    let nodes := if st = 2 then (r.s.trNodes b).take left0 else r.s.trNodes b
    let next := r.s.rf (Reg.leTrStat b) 11 0
    let r := r.each nodes fun r nb => r.trEntry b (vals nb) stamp
    if st = 2 then
      let left := left0 - nodes.length
      let r := r.mapLe fun t => { t with trPost := tset 0 b left t.trPost }
      if left = 0 then r.trDone b else r
    else if !r.s.rb (Reg.leTrCfgAct b) 30 && decide (4096 < next + 2 * nodes.length) then r.trDone b
    else r
  else r

/-- The check of R15 for group TRb: every node names an element of the context. -/
def State.trCheck (s : State) (b : Nat) : Bool :=
  let c := s.rf (Reg.leTrCfg b) 15 8
  let d := s.leHd c
  (List.range (s.rf (Reg.leTrCfg b) 2 0 + 1)).all fun i =>
    let nb := if i < 4 then bits (s.rget (Reg.leTrNodesLo b)).toNat (8 * i + 7) (8 * i)
      else bits (s.rget (Reg.leTrNodesHi b)).toNat (8 * (i - 4) + 7) (8 * (i - 4))
    let dim := match nb / 32 with
      | 0 => d.p | 1 => d.r | 2 => d.n | 3 => d.p | 4 => d.q | _ => d.m
    decide (nb % 32 < dim)

/-- What follows when TRb comes into use: an enabled buffer records from entry 0 (R268). -/
def Run.trApplied (r : Run s₀) (b : Nat) : Run s₀ :=
  (r.wr (Reg.leTrStat b) (if r.s.rb (Reg.leTrCfgAct b) 31 then 2 ^ 30 else 0)).mapLe fun t =>
    { t with trPost := tset 0 b 0 t.trPost }

/-! ## Cost and admission (R248 to R250) -/

/-- Unit-cycles of a sample (R248). -/
def LeHd.cost (d : LeHd) : Nat :=
  48 + divUp (d.n * d.n + d.n * d.m + d.p * d.n + d.n * d.p + d.m * d.n + d.m * d.q + d.m * d.r + d.q * d.r + d.q * d.p) 16

/-- The admitted set: contexts in RUN or FALLBACK, and those with a START pending; one in FAULT keeps no
share (R250; DESIGN CHOICE, log 56). -/
def State.leAdmitted (s : State) : List Nat :=
  (List.range 256).filter fun c => s.leState c == 1 || s.leState c == 2 ||
    s.sp.ops.any fun o => o.unit == 0 && o.code == 1 && o.obj == c && o.taken && !o.acted && o.out.isNone

/-- A_max of a set of contexts (R249). -/
def State.leAmax (s : State) (set : List Nat) : Nat :=
  let banks := set.flatMap fun c => ((s.leIns c).filter fun e => 2 ≤ e.kind).map fun e => (s.locate e.idx).1
  (List.range 16).foldl (fun m b => max m (banks.filter (· == b)).length) 0

/-- A context has an as-of input. -/
def State.leAsOf (s : State) (c : Nat) : Bool := (s.leIns c).any fun e => 2 ≤ e.kind

/-- t_in in nanoseconds for a set (R249). -/
def State.leTin (s : State) (set : List Nat) : Nat :=
  if set.any s.leAsOf then 210 + 10 * (480 + s.leAmax set) else 0

/-- The window of a context in nanoseconds (R249). -/
def State.leWindow (s : State) (amax c : Nat) : Int :=
  let d := s.leHd c
  (s.gridP d.grid : Int) - d.offset - (if s.leAsOf c then ((210 + 10 * (480 + amax) : Nat) : Int) else 0) - 240

/-- U of a set as a fraction: Σ 5c / (16 D) (R250). -/
def State.leU (s : State) (set : List Nat) : Nat × Nat :=
  let amax := s.leAmax set
  set.foldl (fun (acc : Nat × Nat) c =>
    let d := 16 * (max 1 (s.leWindow amax c)).toNat
    (acc.1 * d + 5 * (s.leHd c).cost * acc.2, acc.2 * d)) (0, 1)

/-- The set is admitted: U ≤ 0.90 and every window at least 1,100 ns (R250). -/
def State.leFits (s : State) (set : List Nat) : Bool :=
  let amax := s.leAmax set
  let (a, b) := s.leU set
  set.all (fun c => decide (1100 ≤ s.leWindow amax c)) && decide (10 * a ≤ 9 * b)

/-! ## START (R247, R270) -/

/-- Each element of y and r is fed by exactly one entry, and no entry feeds another element. -/
def slotsOk (p r : Nat) (l : List LeInE) : Bool :=
  l.all (fun e => decide (e.elt < (if e.isR then r else p)))
  && (List.range p).all (fun i => (l.filter fun e => !e.isR && e.elt == i).length == 1)
  && (List.range r).all (fun i => (l.filter fun e => e.isR && e.elt == i).length == 1)

/-- The check INPUT for one entry. -/
def State.inputOk (s : State) (e : LeInE) : Bool :=
  let g := s.sigRec e.idx
  decide (e.kind ≤ 3) && decide (e.delay ≤ 1000000) && g.defined && g.type != 5
  && (e.kind != 1 || ((g.srcKind == 3 || g.srcKind == 4 || g.srcKind == 5) && e.delay == 0))
  && !(e.kind == 3 && e.own)

/-- The axis is a member of an enabled lock group on the grid (R247). -/
def State.axisLocked (s : State) (axis grid : Nat) : Bool :=
  (List.range 8).any fun n => s.rb (Reg.timeLgCfgAct n) 31 && s.rf (Reg.timeLgCfgAct n) 3 0 == grid
    && bit (s.lgMembers true n) axis

/-- The check OUTPUT for one entry (R281, R247). -/
def State.outputOk (s : State) (grid : Nat) (e : LeOutE) : Bool :=
  let mode := s.rf (Reg.axCfgAct e.axis) 1 0
  decide (e.okind ≤ 1)
  && (e.okind == 0 || (decide (e.axis ≤ 47) && mode != 0 && decide (e.chan ≤ (if mode = 1 then 2 else 0))
        && s.axisLocked e.axis grid))
  && (!e.sigEn || ((s.sigRec e.idx).defined && (s.sigRec e.idx).type != 5))

/-- The axis channels that a context drives. -/
def State.leDrives (s : State) (c : Nat) : List (Nat × Nat) :=
  ((s.leOuts c (s.leHd c).m).filter fun e => e.okind == 1).map fun e => (e.axis, e.chan)

/-- Reserved bits of the header are 0. -/
def State.hdReserved (s : State) (c : Nat) : Bool :=
  s.leH c 5 1 / 16 == 0 && s.leH c 6 1 / 8 == 0 && s.leH c 25 1 / 64 == 0 && s.leH c 26 6 == 0 && s.leH c 72 24 == 0

/-- The outcome of the checks of START, in the order of R270; OK admits the context. -/
def State.startOutcome (s : State) (c : Nat) : Status × Nat :=
  let d := s.leHd c
  let ins := s.leIns c
  let outs := s.leOuts c d.m
  if s.sp.ops.any (fun o => o.unit == 0 && o.code == 1 && o.obj == c && o.taken && !o.acted && o.out.isNone) then (.busy, 0)
  else if s.leState c ≠ 0 then (.refused, 0)
  else if 16 < d.n ∨ 8 < d.p ∨ 8 < d.m ∨ 8 < d.q ∨ 8 < d.r then (.cfgerr, 0x10)
  else if d.m = 0 then (.empty, 0)
  else if !((List.range d.q).all fun j => decide (d.drive[j]?.getD 0 < d.m)) then (.cfgerr, 0x10)
  else if !(slotsOk d.p d.r ins && ins.all s.inputOk) then (.cfgerr, 0x11)
  else if !outs.all (s.outputOk d.grid) then (.cfgerr, 0x12)
  else if (List.range 256).any (fun x => x != c && s.leState x != 0 &&
      (s.leDrives x).any fun a => (s.leDrives c).contains a) then (.refused, 0x12)
  else if d.offset < 400 ∨ 1000000 < d.offset ∨ d.offset % 5 ≠ 0 ∨ !s.gridEn d.grid ∨ 100000000 < d.tOwn
      ∨ d.tOwn * 1000 < s.gridP d.grid then (.cfgerr, 0x13)
  else if d.alpha = 0 ∨ d.hyst = 0 ∨ d.staleMax = 0 ∨ 2 < d.fbMode ∨ s.leHS c 98 < d.exMin ∨ !s.hdReserved c
      ∨ ins.any (·.reserved) ∨ outs.any (·.reserved) then (.cfgerr, 0x14)
  else if !s.bankOk c d.startBank d.m d.q then (.cfgerr, 0x15)
  else if !s.leFits (c :: s.leAdmitted) then (.overload, 0x16)
  else (.ok, 0)

/-- LE START is checked and taken (R270, R250). -/
def Run.takeStart (r : Run s₀) (o : Op) : Run s₀ :=
  match r.s.startOutcome o.obj with
  | (.ok, _) => r.opTaken o
  | (.overload, cause) => (r.flag Reg.leEvstat 1).leFin o .overload cause
  | (st, cause) => r.leFin o st cause

/-- LE STOP is taken; of an IDLE context it is EMPTY (R266), of a shadow context REFUSED (R522). -/
def Run.takeStop (r : Run s₀) (o : Op) : Run s₀ :=
  if r.s.leShadow o.obj then r.leStandby o
  else if r.s.leState o.obj = 0 then r.leFin o .empty 0
  else r.opTaken o

/-- LE SWAP is checked and taken (R255, R257, R259). Behind an earlier operation of its thread it is not taken yet, but
what its acceptance decides is decided: a shadow context, another thread's SWAP that came before, the target bank. -/
def Run.takeSwap (r : Run s₀) (o : Op) : Run s₀ :=
  let c := o.obj
  let d := r.s.leHd c
  let b := recNat o.payload 0 1 % 2
  let behind := r.s.opBehind o
  if r.s.leShadow c then r.leStandby o
  else if !behind && (r.s.leState c == 0 || r.s.leState c == 3) then r.leFin o .refused 0
  else if r.s.sp.ops.any (fun x => x.unit == 0 && x.code == 3 && x.obj == c && x.tid != o.tid && x.accepted
      && decide (x.acc < o.acc) && !x.acted && x.out.isNone) then r.leFin o .busy 0
  else if !behind && b == r.s.leH c 97 1 then r.leFin o .empty 0
  else if !r.s.bankOk c b d.m d.q then r.leFin o .cfgerr 0x15
  else if behind then r
  else r.opTaken o

/-- LE KICK acts (R260, R263). -/
def Run.actKick (r : Run s₀) (o : Op) : Run s₀ :=
  let c := o.obj
  if r.s.leShadow c then r.leStandby o
  else if r.s.leState c = 0 then r.leFin o .refused 0
  else if o.tid ≠ (r.s.leHd c).owner then r.leFin o .denied 0
  else (r.leRef c o.accAt).leFin o o.okSt 0

/-- LE RESUME is taken (R260, R263, R264). -/
def Run.takeResume (r : Run s₀) (o : Op) : Run s₀ :=
  let c := o.obj
  if r.s.leShadow c then r.leStandby o
  else if r.s.leState c = 0 ∨ r.s.leState c = 3 then r.leFin o .refused 0
  else if o.tid ≠ (r.s.leHd c).owner then r.leFin o .denied 0
  else (r.leRef c o.accAt).opTaken o

/-- LE STATUS acts: one consistent set of 68 bytes, read as R28 says. -/
def Run.actLeStatus (r : Run s₀) (o : Op) : Run s₀ :=
  let c := o.obj
  let (r, bad1) := r.eccRead (leBase c + 96) 32
  let (r, bad2) := r.eccRead (leBase c + 0x260) 32
  if bad1 || bad2 then r.leFin o .fault 0
  else r.opFin o o.okSt 0 (r.s.bytes (leBase c + 96) 32 ++ bytesLE 4 (r.s.rget (Reg.leCtxCnt c)).toNat
    ++ r.s.bytes (leBase c + 0x260) 32)

/-- LE TRACE acts: byte 0 is 0 STOP or 1 REARM. -/
def Run.actTrace (r : Run s₀) (o : Op) : Run s₀ :=
  let b := o.obj
  let st := r.s.trState b
  match recNat o.payload 0 1 with
  | 0 => if st = 1 ∨ st = 2 then (r.trStop b 20).leFin o o.okSt 0 else r.leFin o .refused 0
  | 1 =>
    if st = 3 then ((r.wr (Reg.leTrStat b) (2 ^ 30)).mapLe fun t => { t with trPost := tset 0 b 0 t.trPost }).leFin o o.okSt 0
    else r.leFin o .refused 0
  | _ => r.leFin o .cfgerr 0

/-! ## Outputs (R245, R246) -/

/-- One output written: into its axis channel and, with the stamp of boundary k+1, to its signal. -/
def Run.leOut (r : Run s₀) (c : Nat) (eu : Int) (stamp : Nat) (e : LeOutE) (u : Int) : Run s₀ :=
  let v := outVal u eu e.gain
  let r := if e.okind = 1 ∧ !r.s.leAxOff c then r.wr (Reg.axDuty e.axis e.chan) (outQ31 v) else r
  if e.sigEn then
    let type := (r.s.sigRec e.idx).type
    if type = 5 then
      (r.drawn).sigPush { idx := e.idx, val := r.s.freeVal % 2 ^ 32, stamp := stamp, kind := 4, inst := c }
    else r.sigPush { idx := e.idx, val := outSig type v, stamp := stamp, kind := 4, inst := c }
  else r

/-- The outputs of a context written for the boundary that follows the one at `k`; none in SAFE_HOLD (R265). -/
def Run.leOutputs (r : Run s₀) (c k : Nat) (u : List Int) : Run s₀ :=
  let d := r.s.leHd c
  let stamp := (k + r.s.gridP d.grid) % 2 ^ 32
  if r.s.node = .safeHold then r else r.each ((r.s.leOuts c d.m).zip u) fun r e => r.leOut c d.eu stamp e.1 e.2

/-- `ufb` is written and kept as the output in use (R265, R266). -/
def Run.leWriteUfb (r : Run s₀) (c k : Nat) : Run s₀ :=
  let d := r.s.leHd c
  (r.leOutputs c k (d.ufb.take d.m)).leSetVec c 0x260 (d.ufb.take d.m)

/-- A context in RUN or FALLBACK enters FAULT (R265); `k` is the boundary of the sample in progress, and in SAFE_HOLD
no output is written. A SWAP or RESUME that was due in it is refused (R259, R264). -/
def Run.leFault (r : Run s₀) (c cause : Nat) (k : Option Nat) : Run s₀ :=
  let r := match k with
    | none => r
    | some k => r.leWriteUfb c k
  let r := ((r.leSet c 96 1 3).leSet c 100 1 cause).flag Reg.leEvstat 3
  let l := r.s.lec c
  let r := r.setLec c { l with bound := none, rel := none, swapOp := none, resumeOp := none }
  let r := r.each (l.swapOp.toList ++ l.resumeOp.toList) fun r id => r.opFinId id .refused 0 []
  (r.when l.swapOp.isSome fun r => r.leLastErr c .refused 0).trStopCtx c 18

/-- The node enters SAFE_HOLD: every context that runs enters FAULT with cause HOLD (R265). -/
def Run.leHold (r : Run s₀) : Run s₀ :=
  r.each ((List.range 256).filter fun c => r.s.leState c == 1 || r.s.leState c == 2) fun r c => r.leFault c 0x1B none

/-- Mesh reads have met uncorrectable errors in context blocks: those that run enter FAULT (R265, R272). -/
def Run.leEccActs (r : Run s₀) : Run s₀ :=
  let l := r.s.le.eccHits
  if l.isEmpty then r
  else
    let r := r.mapLe fun t => { t with eccHits := [] }
    r.each l fun r c => if r.s.leState c = 1 ∨ r.s.leState c = 2 then
      r.leFault c 0x1A (some (r.s.boundaryTb0 (r.s.leH c 5 1 % 16))) else r

/-! ## Release and fetch (R241, R242, R251) -/

/-- The newest update of a FAST input that is not later than the boundary and has arrived (R241). -/
def State.sigFast (s : State) (i k : Nat) : ReadOut :=
  let g := s.sigView i
  let waiting := (((s.sig.queue ++ s.sig.held).filter fun u => u.idx == i && (s.updRefusal u).isNone && (u.kind == 4 || u.kind == 5)).map
    fun u => (⟨u.val, u.stamp, false⟩ : Entry))
  if !g.defined then { status := .nosuch }
  else
    let cand := (g.hist ++ waiting).filter fun e => e.aged || !older (k % 2 ^ 32) e.stamp
    match cand with
    | [] => { status := .empty }
    | e :: t =>
      let best := t.foldl (fun b x => if b.aged then (if x.aged then b else x) else if x.aged then b
        else if older b.stamp x.stamp || (b.stamp == x.stamp) then x else b) e
      { status := .ok, val := best.val, stamp := best.stamp, aged := best.aged }

/-- One input read at its instant (R241, R242, R244). -/
def State.leRead (s : State) (k : Nat) (e : LeInE) : LeIn :=
  let t := (k + 2 ^ 64 - e.delay) % 2 ^ 64
  let o := match e.kind with
    | 1 => s.sigFast e.idx k
    | 2 => s.sigAsOf e.idx t false
    | _ => s.sigAsOf e.idx t true
  let type := (s.sigRec e.idx).type
  let stamp := if o.status = .ok ∧ !o.aged then some (uNat 64 ((s.now : Int) + diff32 o.stamp s.now32)) else none
  let fresh := e.maxAge == 0 || (match stamp with
    | none => false
    | some u => decide (diff64 t u ≤ (e.maxAge * 1000 : Nat)))
  let val := if type = 5 then s.freeVal % 2 ^ 32 else o.val
  { good := o.status == .ok && (type != 3 || !(f32.isNan o.val || f32.isInf o.val)) && fresh
    val := val, type := type, stamp := stamp }

/-- A context is released: its inputs are fetched (R251), each behind the updates that have reached its bank in the same
cycle (R42) and with the errors of its record met (R219 to R221). -/
def Run.leReleaseCtx (r : Run s₀) (c : Nat) (b : LeDue) : Run s₀ :=
  let es := r.s.leIns c
  let r := r.each (es.filter fun e => 1 ≤ e.kind) fun r e => r.leMeet e.idx
  let r' := r.setLec c { r.s.lec c with bound := none, rel := some ⟨b.k, es.map (r.s.leRead b.read)⟩ }
  if es.any fun e => (r.s.sigRec e.idx).type == 5 then r'.drawn else r'

/-- The value of a grid's base has reached `v`. -/
def State.baseReached (s : State) (n v : Nat) : Bool :=
  let t := s.baseTime n
  if n ≤ 2 then decide ((t + 2 ^ 64 - v % 2 ^ 64) % 2 ^ 64 < 2 ^ 63)
  else decide ((t + 2 ^ 48 - v % 2 ^ 48) % 2 ^ 48 < 2 ^ 47)

/-- LE_RELEASE: every context of grid `g` whose boundary plus offset has come is released (R251); the results of the sample
path are staged before it reads (R40). -/
def execLeRelease (g : Nat) (s : State) : Out :=
  let r := (Run.start s).pathFlush
  (r.each (List.range 256) fun r c =>
    match (r.s.lec c).bound with
    | none => r
    | some b =>
      if r.s.leH c 5 1 % 16 = g ∧ r.s.baseReached (r.s.gridBase g) b.relAt then r.leReleaseCtx c b else r).done

/-! ## The sample (R253 steps 4 to 7) -/

/-- The engine's own reads of a block from offset `off` meet its errors (R272); true says that one is uncorrectable. -/
def Run.leEcc (r : Run s₀) (c off n : Nat) : Run s₀ × Bool :=
  if r.s.ecc.isEmpty then (r, false)
  else
    let l := r.s.eccIn (leBase c + off) n
    let r := r.each (l.filter fun e => e.2 == .single) fun r e => r.eccCorrect e.1
    match l.find? fun e => e.2 == .double with
    | none => (r, false)
    | some e => ((r.memErr.wr Reg.leEccAddr (2 ^ 31 + (e.1 * 8 - 0x3000000))).flag Reg.leEvstat 9, true)

/-- One more in a counter of LE_CTXc_CNT, and `vsat` with its flag (R230, R244). -/
def Run.leVsat (r : Run s₀) (c k : Nat) : Run s₀ :=
  if k = 0 then r else (r.countBy (Reg.leCtxCnt c) 11 0 k).flag Reg.leEvstat 6

/-- A vector of inputs: fetched values converted (R243), stale elements at their last good value (R244). -/
def inVec (base e : Int) (isR : Bool) (old : List Int) (n : Nat) (es : List (LeInE × LeIn)) : List Int × Nat :=
  let raw := (List.range n).map fun i => match es.find? fun x => x.1.isR == isR && x.1.elt == i && x.2.good with
    | some x => inMant (sigVal x.2.type x.2.val) x.1.gain (base + e)
    | none => nthI old i
  (raw.map sat32, satCount raw)

/-- Entry into FALLBACK (R261). -/
def Run.leFallback (r : Run s₀) (c cause : Nat) : Run s₀ :=
  (((r.leSet c 96 1 2).leSet c 100 1 cause).flag Reg.leEvstat 2).trStopCtx c 17

/-- Owner supervision and the stale check (R260, R261): true says that the context enters FALLBACK now. -/
def Run.leSupervise (r : Run s₀) (c k : Nat) (d : LeHd) (es : List (LeInE × LeIn)) : Run s₀ × Bool :=
  let shadow := r.s.leShadow c
  let r := if shadow then r
    else r.each (es.filter fun x => x.1.own) fun r x => match x.2.stamp with
      | none => r
      | some u => if 0 < diff64 u (r.s.lec c).lastRef then r.leRef c u else r
  let stale := es.any fun x => !x.2.good
  let r := if stale then
      ((r.leSet c 103 1 (satAdd (r.s.leH c 103 1) 1 255)).count (Reg.leCtxCnt c) 23 12).flag Reg.leEvstat 4
    else r.leSet c 103 1 0
  if r.s.leState c ≠ 1 then (r, false)
  else if !shadow && decide ((d.tOwn * 1000 : Nat) < diff64 k (r.s.lec c).lastRef) then (r.leFallback c 0x18, true)
  else if d.staleMax ≤ r.s.leH c 103 1 then (r.leFallback c 0x17, true)
  else (r, false)

/-- A due SWAP takes effect (R255); true says that the bank has changed in this sample. -/
def Run.leSwapDue (r : Run s₀) (c k : Nat) : Run s₀ × Bool :=
  match (r.s.lec c).swapOp with
  | none => (r, false)
  | some id =>
    let r := r.setLec c { r.s.lec c with swapOp := none }
    match r.s.op id with
    | none => (r, false)
    | some o =>
      let b := recNat o.payload 0 1 % 2
      if b = r.s.leH c 97 1 then (r.opEnd o .empty 0 k [] 0, false)
      else ((r.leSet c 97 1 b).opEnd o o.okSt 0 k [] 0, true)

/-- A due RESUME takes effect (R264); true says that the context left FALLBACK in this sample. -/
def Run.leResumeDue (r : Run s₀) (c k : Nat) : Run s₀ × Bool :=
  match (r.s.lec c).resumeOp with
  | none => (r, false)
  | some id =>
    let r := r.setLec c { r.s.lec c with resumeOp := none }
    match r.s.op id with
    | none => (r, false)
    | some o =>
      if r.s.leState c = 2 then
        ((((r.leSet c 96 1 1).leSet c 100 1 0).leSet c 103 1 0).opEnd o o.okSt 0 k [] 0, true)
      else (r.opEnd o .empty 0 k [] 0, false)

/-- The value of a trace node (R267), as binary32. -/
def nodeVal (d : LeHd) (y r : List Int) (o : LeRes) (nb : Nat) : Nat :=
  let i := nb % 32
  let (l, e) := match nb / 32 with
    | 0 => (y, d.ey) | 1 => (r, d.er) | 2 => (o.x, o.ex) | 3 => (o.eps, d.ey + 1) | 4 => (o.z, d.ez) | 5 => (o.w, d.eu)
    | 6 => (o.u, d.eu) | _ => (o.h, d.eu)
  f32.enc (outVal (nthI l i) e 0)

/-- The results of a sample stored: state area and header (R238, R254). -/
def Run.leStore (r : Run s₀) (c k : Nat) (o : LeRes) : Run s₀ :=
  let r := ((((r.leSetVec c 0x200 o.x).leSetVec c 0x240 o.z).leSetVec c 0x260 o.u).leSetVec c 0x280 o.w).leSetVec c 0x2A0 o.h
  let r := ((r.leSet c 98 1 (uNat 8 o.ex)).leSet c 99 1 o.hcount).leSet c 101 1 o.sat
  (r.leSet c 102 1 o.frz).leSet c 108 4 k

/-- The snapshot of a replicated context's sample at a cycle boundary: shadows compare with it (R527), the active member
sends it (R526). -/
def Run.redSnapshot (r : Run s₀) (c k : Nat) (o : LeRes) : Run s₀ :=
  if (r.s.redDutyOf c).isSome && r.s.isCycleBoundary k then
    let x : RedSnap :=
      { stamp := k % 2 ^ 32, ex := o.ex, x := o.x, z := o.z, u := o.u, h := o.h, st := r.s.leState c
        bank := r.s.leH c 97 1 % 2, hcount := r.s.leH c 99 1, lastRef := (r.s.lec c).lastRef % 2 ^ 32 }
    r.up (.red { r.s.red with snaps := tset none c (some x) r.s.red.snaps })
  else r

/-- Step 7 of R253: the law is computed in the bank in use, outputs are written, results stored; `y` and `rl` are the
inputs, `swapped` and `resumed` what has taken effect in this sample. -/
def Run.leLaw (r : Run s₀) (c k : Nat) (d : LeHd) (y rl : List Int) (swapped resumed : Bool) : Run s₀ :=
  let fb := r.s.leState c == 2
  let held := fb && d.fbMode != 2
  let rv := if held then r.s.leVec c 0x2C0 d.r else rl
  let r := if held then r else r.leSetVec c 0x2C0 rl
  let o := r.s.leCompute c d
    { y := y, r := rv, bank := r.s.leH c 97 1 % 2, swapped := swapped, resumedOutput := resumed && d.fbMode == 2
      fbOutput := fb && d.fbMode == 2 }
  if 127 < o.need then (r.leVsat c o.epsSat).leFault c 0x19 (some k)
  else
    let r := (r.leVsat c o.vsat).leOutputs c k o.u
    let r := (r.leStore c k o).redSnapshot c k o
    let r := r.each ((List.range 64).filter fun b => r.s.rb (Reg.leTrCfgAct b) 31 && r.s.rf (Reg.leTrCfgAct b) 15 8 == c)
      fun r b => r.trSample b (k % 2 ^ 32) (nodeVal d y rv o)
    let r := r.when swapped fun r => r.trStopCtx c 16
    r.when (o.sat != 0) fun r => r.trStopCtx c 19

/-- The sample of a released context (R253 steps 4 to 7). -/
def Run.leSample (r : Run s₀) (c : Nat) (rel : LeRelease) : Run s₀ :=
  let k := rel.k
  let d := r.s.leHd c
  let es := (r.s.leIns c).zip rel.ins
  let r := r.setLec c { r.s.lec c with rel := none }
  let (r, bad) := r.leEcc c 0 0x300
  if bad then r.leFault c 0x1A (some k)
  else
    let (y, ys) := inVec 0 d.ey false (r.s.leVec c 0x2E0 8) d.p es
    let (rl, rs) := inVec 0 d.er true (r.s.leVec c 0x2C0 8) d.r es
    let r := (r.leSetVec c 0x2E0 y).leVsat c (ys + rs)
    let (r, entered) := r.leSupervise c k d es
    let toBank := entered && d.fbMode == 1
    let r := if toBank then r.leSet c 97 1 (1 - r.s.leH c 97 1) else r
    let (r, swap) := r.leSwapDue c k
    let (r, resumed) := r.leResumeDue c k
    let swapped := toBank || swap
    let (r, bad) := r.leEcc c (bankOff (r.s.leH c 97 1 % 2)) 0xE00
    if bad then r.leFault c 0x1A (some k) else r.leLaw c k d y rl swapped resumed

/-- A released context whose inputs are in and whose deadline, then number, lies before that of `c` (R251). -/
def State.leBefore (s : State) (x c : Nat) : Bool :=
  let dl (y : Nat) : Nat := match (s.lec y).rel with
    | none => 0
    | some l => l.k + s.gridP (s.leHd y).grid
  (s.lec x).rel.isSome && !s.leAsOf x && (decide (dl x < dl c) || (dl x == dl c && decide (x < c)))

/-- LE_SAMPLE: a matrix unit takes released context `c`, when no ready context comes before it. -/
def execLeSample (c : Nat) (s : State) : Out :=
  let r := Run.start s
  match (s.lec c).rel with
  | none => r.done
  | some rel => if (List.range 256).any (s.leBefore · c) then r.done else (r.leSample c rel).done

/-! ## At the boundary (R253 steps 1 and 2) -/

/-- START takes effect: the context runs from this boundary (R238, R260, R270). Bytes 99 to 103 and `last_k` are cleared
as well (DESIGN CHOICE, log 56). -/
def Run.leStart (r : Run s₀) (c k : Nat) : Run s₀ :=
  let d := r.s.leHd c
  let u := r.s.leVec c 0x260 8
  let r := (r.leSet c 96 1 1).leSet c 97 1 d.startBank
  let r := (r.leSet c 99 5 0).leSet c 108 4 0
  let r := (r.leSetVec c 0x280 u).leSetVec c 0x2A0 (List.replicate 8 0)
  let r := r.setLec c {}
  r.leRef c k

/-- STOP takes effect: `ufb` is written, then nothing further; the context is IDLE (R266). -/
def Run.leStop (r : Run s₀) (c k : Nat) : Run s₀ := (((r.leWriteUfb c k).leSet c 96 1 0).leSet c 100 1 0).setLec c {}

/-- A sample that no unit has taken by the next boundary is computed before it: none is skipped (R252). -/
def Run.leCatchUp (r : Run s₀) (c : Nat) : Run s₀ :=
  let r := match (r.s.lec c).bound with
    | none => r
    | some b => r.leReleaseCtx c b
  match (r.s.lec c).rel with
  | none => r
  | some rel => r.leSample c rel

/-- A grid-bound operation that finds its context in IDLE or FAULT at its boundary: a STOP of an IDLE context is EMPTY, a
SWAP or a RESUME is refused (R259, R264, R266, R270). -/
def Run.leNoRun (r : Run s₀) (c k : Nat) (o : Op) : Run s₀ :=
  if o.code = 2 then r.opEnd o .empty 0 k [] 0
  else (r.when (o.code == 3) fun r => r.leLastErr c .refused 0).opEnd o .refused 0 k [] 0

/-- One context at a boundary of its grid; `k` is the boundary's TB0 time, `read` the instant as which reads take it, and `v`
its value on the grid's base. -/
def Run.leAtBoundary (r : Run s₀) (c k read v : Nat) : Run s₀ :=
  let r := r.leCatchUp c
  let due := r.s.sp.ops.filter fun o => o.unit == 0 && o.obj == c && r.s.opDueAt o k &&
    (o.code == 1 || o.code == 2 || o.code == 3 || o.code == 5)
  let of (code : Nat) : Option Op := due.find? fun o => o.code == code
  let arm (r : Run s₀) : Run s₀ :=
    r.setLec c { r.s.lec c with bound := some ⟨k, read, v + (r.s.leHd c).offset⟩, rel := none }
  if r.s.leState c = 0 then
    match of 1 with
    | some o => (arm (r.leStart c k)).opEnd o o.okSt 0 k [] 0
    | none => r.each due fun r o => r.leNoRun c k o
  else match of 2 with
  | some o =>
    let r := r.each (due.filter fun x => x.id != o.id) fun r x => r.opEnd x .aborted 0x04 k [] 0
    (r.leStop c k).opEnd o o.okSt 0 k [] 0
  | none =>
    if r.s.leState c = 3 then r.each due fun r o => r.leNoRun c k o
    else
      let r := arm r
      let r := match of 3 with
        | some o => (r.opAct o).setLec c { r.s.lec c with swapOp := some o.id }
        | none => r
      match of 5 with
      | some o => (r.opAct o).setLec c { r.s.lec c with resumeOp := some o.id }
      | none => r

/-- The engine at a boundary of grid `g`. -/
def Run.leBoundary (r : Run s₀) (g : Nat) : Run s₀ :=
  let k := r.s.boundaryTb0 g
  let read := r.s.boundaryRead g
  let v := (r.s.grid g).last
  r.each ((List.range 256).filter fun c => r.s.leH c 5 1 % 16 == g) fun r c =>
    (r.leAtBoundary c k read v).opsHeld 0 c k [1, 2, 3, 5]

/-! ## The LE unit -/

/-- The operations of the LE unit (unit 0). -/
def execLeStart (id : Nat) (s : State) : Out := ((Run.start s).opTake id 0 1 Run.takeStart).done
def execLeStop (id : Nat) (s : State) : Out := ((Run.start s).opTake id 0 2 Run.takeStop).done
def execLeSwap (id : Nat) (s : State) : Out := ((Run.start s).opTakeFree id 0 3 Run.takeSwap).done
def execLeKick (id : Nat) (s : State) : Out := ((Run.start s).opRow id 0 4 Run.actKick).done
def execLeResume (id : Nat) (s : State) : Out := ((Run.start s).opTake id 0 5 Run.takeResume).done
def execLeStatus (id : Nat) (s : State) : Out := ((Run.start s).opRow id 0 6 Run.actLeStatus).done

/-- LE_TRACE_STOP and LE_TRACE_REARM: TRACE with byte 0 not 1, and with byte 0 = 1. -/
def execLeTraceStop (id : Nat) (s : State) : Out :=
  ((Run.start s).opRow id 0 7 fun r o => if recNat o.payload 0 1 = 1 then r else r.actTrace o).done
def execLeTraceRearm (id : Nat) (s : State) : Out :=
  ((Run.start s).opRow id 0 7 fun r o => if recNat o.payload 0 1 = 1 then r.actTrace o else r).done

/-! ## What the read-only registers show -/

/-- Contexts 32n to 32n + 31 that are in state `st`, as bits. -/
def State.leStateBits (s : State) (st n : Nat) : Nat := bitsOf ((List.range 32).map fun i => s.leState (32 * n + i) == st)

/-- LE_CTXc_STAT. -/
def State.leCtxStat (s : State) (c : Nat) : Nat :=
  s.leState c <<< 30 + (s.leH c 97 1 % 2) <<< 29 + s.leH c 100 1 <<< 16 + s.leH c 101 1 <<< 8 + s.leH c 98 1

/-- LE_STAT. -/
def State.leStat (s : State) : Nat :=
  let n (st : Nat) : Nat := ((List.range 256).filter fun c => s.leState c == st).length
  (n 1 + n 2) <<< 16 + n 3

/-- LE_UTIL and LE_TIN (R249, R250). -/
def State.leUtil (s : State) : Nat := let (a, b) := s.leU s.leAdmitted; divUp (a * 65536) b
def State.leTinReg (s : State) : Nat := let l := s.leAdmitted; s.leAmax l <<< 16 + s.leTin l

end Sys2Proof.Machine
end

