-- ==== Sys2Proof/Machine/Axis.lean ====
section
/-!
DEFINITION. Axis ports (07_axis_ports.md, R273 to R302): PWM carriers and gates, step output, driver loss and reseat,
encoders and frames, sigma-delta channels, and the AXIS unit. Instants are SYS cycles; a TB tick has 4, and a unit of
625 ps is half a cycle.
-/
namespace Sys2Proof.Machine

variable {s₀ : State}

/-- An axis port. -/
def State.ax (s : State) (n : Nat) : Axis := tget {} n s.motion.axes
def Run.setAx (r : Run s₀) (n : Nat) (x : Axis) : Run s₀ :=
  r.up (.motion { r.s.motion with axes := tset {} n x r.s.motion.axes })

/-- `mode`, `fb` and `grid` in use. -/
def State.axMode (s : State) (n : Nat) : Nat := s.rf (Reg.axCfgAct n) 1 0
def State.axFb (s : State) (n : Nat) : Nat := s.rf (Reg.axCfgAct n) 25 24
def State.axGrid (s : State) (n : Nat) : Nat := s.rf (Reg.axCfgAct n) 19 16

/-- STO of an axis is active: its pair is not on (R494, R495). -/
def State.stoActive (s : State) (n : Nat) : Bool := !bit s.chm.torque n

/-- The outputs of a port are enabled (R275). In TEST the test enables an axis by setting its `out_en` there (log 21). -/
def State.axOn (s : State) (n : Nat) : Bool :=
  (s.axMode n == 1 || s.axMode n == 2) && s.rb (Reg.axCtrl n) 0
    && (s.node == .normal || (s.node == .test && bit s.motion.testEn n)) && !s.rb (Reg.axStat n) 29
    && !s.stoActive n

/-- `ready` (R288). -/
def State.axReady (s : State) (n : Nat) : Bool :=
  !(s.rb (Reg.axStat n) 27 || s.rb (Reg.axStat n) 26 || s.rb (Reg.axStat n) 25) && s.rb (Reg.axStat n) 28

/-- AXn_STAT with the bits that follow from other state. -/
def State.axStatReg (s : State) (n : Nat) : Nat :=
  s.rf (Reg.axStat n) 29 24 <<< 24 + b2n (s.axOn n) <<< 31 + b2n (s.stoActive n) <<< 30 + b2n (s.axReady n) <<< 23

/-- `cfgerr` of a port. -/
def Run.axErr (r : Run s₀) (n : Nat) : Run s₀ := r.flag (Reg.axEvstat n) 8

/-! ## Carrier and gates (R276 to R279) -/

/-- H, half the carrier period in 625 ps units (R276). -/
def State.axH (s : State) (n : Nat) : Nat := 4 * s.rf (Reg.axPwmAct n) 17 0

/-- The present instant in 625 ps units. -/
def State.units (s : State) : Nat := 2 * s.cyc

/-- The compare value of a duty word (R277): halves are rounded up. -/
def compareVal (h d : Nat) : Nat :=
  let x : Int := ((2 ^ 31 + sInt 32 d) * h * 2 + 2 ^ 32) / 2 ^ 33
  min h x.toNat

/-- The compare value of phase `x` in use. -/
def State.axD (s : State) (n x : Nat) : Nat := compareVal (s.axH n) ((s.ax n).duty[x]?.getD 0)

/-- The carrier's place in its period, from the valley. -/
def State.carPos (s : State) (n : Nat) : Nat := (((s.units : Int) - (s.ax n).carAt) % (max 1 (2 * s.axH n) : Nat)).toNat

/-- The carrier count (R276). -/
def State.carCount (s : State) (n : Nat) : Nat :=
  let p := s.carPos n
  if p ≤ s.axH n then p else 2 * s.axH n - p

/-- The high-side command of a phase (R277). -/
def State.axCmd (s : State) (n x : Nat) : Bool :=
  let d := s.axD n x
  decide (s.carCount n < d) || d == s.axH n

/-- Units from an instant to the next change of a phase's command with the compare values in use; none when the command
does not change. -/
def State.cmdLeft (s : State) (n x t : Nat) : Option Nat :=
  let h := s.axH n
  let d := s.axD n x
  if d = 0 ∨ d = h then none
  else
    let p := (((t : Int) - (s.ax n).carAt) % (max 1 (2 * h) : Nat)).toNat
    some (if p < d then d - p else if p < 2 * h - d then 2 * h - d - p else 2 * h + d - p)

/-- The three duty shadows come into use together (R279). -/
def Run.axReload (r : Run s₀) (n : Nat) : Run s₀ :=
  r.setAx n { r.s.ax n with duty := (List.range 3).map fun i => (r.s.rget (Reg.axDuty n i)).toNat }

/-- The lock group of an axis (R82). -/
def State.axGroup (s : State) (n : Nat) : Option Nat :=
  (List.range 8).find? fun k => s.rb (Reg.timeLgCfgAct k) 31 && bit (s.lgMembers true k) n

/-- The grid of a lock group, and the axes in PWM mode that the groups on a grid hold (R82, R83). -/
def State.lgGrid (s : State) (q : Nat) : Nat := s.rf (Reg.timeLgCfgAct q) 3 0
def State.lockAxesOn (s : State) (g : Nat) : List Nat :=
  (List.range 48).filter fun n => s.axMode n == 1 && (s.axGroup n).any fun q => s.lgGrid q == g

/-- A lock group's member at a boundary of grid `g` of group `q` (R279): joining the group on this grid starts a carrier
period at a valley; later boundaries are valleys, or alternately peaks and valleys. The edge lies at the boundary's
interpolated instant (R77). -/
def Run.axLockReload (r : Run s₀) (n q g : Nat) : Run s₀ :=
  let x := r.s.ax n
  let h := r.s.axH n
  let halves := r.s.gridP g / 5 * 8 / max 1 h
  let peak := if x.joined = some (q, g) then (if halves % 2 = 1 then !x.peak else x.peak) else false
  let at_ : Int := (r.s.units : Int) - ((r.s.grid g).fine : Nat)
  (r.setAx n { x with joined := some (q, g), peak := peak, carAt := if peak then at_ - (h : Nat) else at_ }).axReload n

/-- CARRIER_RELOAD: the carrier of an axis in no lock group reaches a valley (R279); a member reloads with its grid's
boundary. -/
def execCarrierReload (n : Nat) (s : State) : Out :=
  let r := Run.start s
  let x := s.ax n
  if s.axMode n = 1 ∧ (s.axGroup n).isNone ∧ x.carAt + (2 * s.axH n : Nat) ≤ (s.units : Int) then
    ((r.setAx n { x with joined := none, carAt := x.carAt + (2 * s.axH n : Nat) }).axReload n).done
  else r.done

/-- The command of a phase takes its present value: the gate of the old command turns off, the other waits `dt` (R278). -/
def Run.axCompare (r : Run s₀) (n x : Nat) : Run s₀ :=
  let a := r.s.ax n
  let c := r.s.axCmd n x
  if c == bit a.cmd x then r
  else
    let off := if c then 2 * x + 1 else 2 * x
    let on := if c then 2 * x else 2 * x + 1
    r.setAx n { a with cmd := putBits a.cmd x x (b2n c), gate := putBits a.gate off off 0,
                       gateAt := (a.gateAt.filter fun e => e.1 / 2 != x) ++
                         [(on, r.s.units + r.s.rf (Reg.axDeadAct n) 13 0)] }

/-- PWM_COMPARE: the carrier count passes the compare value of phase `x` (R277). -/
def execPwmCompare (n x : Nat) (s : State) : Out :=
  let r := Run.start s
  (if s.axMode n = 1 ∧ x < 3 then r.axCompare n x else r).done

/-- DEAD_TIME_END: the dead time of gate `i` has passed; the gate turns on unless the on-interval would be shorter than
`min_on` (R278). -/
def execDeadTimeEnd (n i : Nat) (s : State) : Out :=
  let r := Run.start s
  let a := s.ax n
  match a.gateAt.find? fun e => e.1 == i && decide (e.2 ≤ s.units) with
  | none => r.done
  | some e =>
    let short := match s.cmdLeft n (i / 2) e.2 with
      | none => false
      | some left => decide (left < s.rf (Reg.axDeadAct n) 29 16)
    (r.setAx n { a with gate := if short then a.gate else putBits a.gate i i 1
                        gateAt := a.gateAt.filter fun f => f.1 != i }).done

/-- A loop context in RUN, FALLBACK or FAULT drives a channel of an axis. -/
def State.axDriven (s : State) (n i : Nat) : Bool :=
  (List.range 256).any fun c => s.leState c != 0 && (s.leDrives c).contains (n, i)

/-- A register write of a duty shadow, refused while a context drives the phase (R280). -/
def Run.writeDuty (r : Run s₀) (n i v : Nat) : Run s₀ :=
  if r.s.axDriven n i then r.axErr n else r.wr (Reg.axDuty n i) v

/-- DUTY_WRITE (R280). -/
def execDutyWrite (n i : Nat) (v : Word) (s : State) : Out := ((Run.start s).writeDuty n i v.toNat).done

/-- `out_en` is set (R275); in TEST the axis counts as enabled by the test from then on. -/
def Run.setOutEn (r : Run s₀) (n : Nat) (on : Bool) : Run s₀ :=
  let r := r.wb (Reg.axCtrl n) 0 on
  if r.s.node = .test then r.up (.motion { r.s.motion with testEn := setBit r.s.motion.testEn n on }) else r

/-- OUT_EN_WRITE (R275). -/
def execOutEnWrite (n : Nat) (v : Word) (s : State) : Out := ((Run.start s).setOutEn n (bit v.toNat 0)).done

/-- The gates of a carrier that starts: all are off, and those that the commands turn on wait `dt` (R278). -/
def Run.axGatesStart (r : Run s₀) (n : Nat) : Run s₀ :=
  let on (x : Nat) : Nat := if r.s.axCmd n x then 2 * x else 2 * x + 1
  r.setAx n { r.s.ax n with
    cmd := b2n (r.s.axCmd n 0) + 2 * b2n (r.s.axCmd n 1) + 4 * b2n (r.s.axCmd n 2), gate := 0
    gateAt := [0, 1, 2].map fun x => (on x, r.s.units + r.s.rf (Reg.axDeadAct n) 13 0) }

/-! ## Step output (R282, R283) -/

/-- A difference of positions that wrap at `m`, taken to the near side. -/
def wrapDiff (m : Nat) (d : Int) : Int := (d + (m / 2 : Nat)) % (m : Int) - (m / 2 : Nat)

/-- Linear movement of the target between references (R282): raw 48.16 position at instant `t`. -/
def Axis.motTarget (a : Axis) (period t : Nat) : Int :=
  let lin (p q : Int) (dt : Nat) : Int := p + wrapDiff (2 ^ 64) (q - p) * (min dt period : Nat) / (max 1 period : Nat)
  if t < a.refAt + 160 then lin a.ref2 a.ref0 (t + period - (a.refAt + 160)) else lin a.ref0 a.ref1 (t - (a.refAt + 160))

/-- The target of `step_src` LE at a tick, in units of 1/(2³¹·`step_per`) microsteps since the anchor. -/
def Axis.leTarget (a : Axis) (tick : Nat) : Int := a.leNum + sInt 32 (a.duty[0]?.getD 0) * ((tick - a.leAt : Nat) : Int)

/-- The step that is due: +1, −1 or 0 (R282). -/
def State.stepDue (s : State) (n : Nat) : Int :=
  let a := s.ax n
  if s.rb (Reg.axCfgAct n) 2 then
    let u := 2 ^ 31 * s.rf (Reg.axStepperAct n) 15 0
    let d := wrapDiff (2 ^ 48 * u) (a.leTarget (s.cyc / 4) - (a.pos - a.leAnchor) * u)
    if (u : Int) ≤ d then 1 else if d ≤ -(u : Int) then -1 else 0
  else
    let d := wrapDiff (2 ^ 64) (a.motTarget (s.gridP (s.axGrid n) / 5 * 4) s.cyc - a.pos * 65536)
    if 65536 ≤ d then 1 else if d ≤ -65536 then -1 else 0

/-- P wraps at 48 bits (R282). -/
def wrap48 (p : Int) : Int := sInt 48 (uNat 48 p)

/-- A step whose tick has come meets the port's limits: the episode's start is marked once (R283). -/
def Run.stepLag (r : Run s₀) (n : Nat) : Run s₀ :=
  if (r.s.ax n).lag then r
  else ((r.setAx n { r.s.ax n with lag := true }).flag (Reg.axEvstat n) 7).count (Reg.axErrcnt n) 7 0

/-- STEP_ISSUE: a step is due. The direction changes first; a step keeps `step_per` from the last one and `dir_setup`
from a change of DIR; a step held back by them begins an episode of lag (R282, R283). -/
def Run.stepIssue (r : Run s₀) (n : Nat) : Run s₀ :=
  let a := r.s.ax n
  let d := r.s.stepDue n
  if r.s.axMode n ≠ 2 ∨ !r.s.axOn n ∨ !r.s.rb (Reg.axStat n) 28 ∨ r.s.rb (Reg.axStat n) 26 ∨ a.rsWait.isSome
      ∨ a.stepHold ∨ d = 0 then r
  else
    let up := decide (0 < d)
    let setup := 4 * r.s.rf (Reg.axStepAct n) 20 10
    let r := if a.dir == up then r else r.setAx n { a with dir := up, dirAt := r.s.cyc }
    let a := r.s.ax n
    if r.s.cyc < a.dirAt + setup ∨ (0 < a.lastStep ∧ r.s.cyc < a.lastStep + 4 * r.s.rf (Reg.axStepperAct n) 15 0) then r.stepLag n
    else
      let r := (r.setAx n { a with pos := wrap48 (a.pos + d), lastStep := r.s.cyc, pulseAt := some r.s.cyc }).wb
        (Reg.axStat n) 24 false
      if r.s.stepDue n = 0 then r.setAx n { r.s.ax n with lag := false } else r

def execStepIssue (n : Nat) (s : State) : Out := ((Run.start s).stepIssue n).done

/-- STEP_PULSE_END: `pw` ticks after its start (R283). -/
def execStepPulseEnd (n : Nat) (s : State) : Out :=
  let r := Run.start s
  match (s.ax n).pulseAt with
  | none => r.done
  | some c =>
    if c + 4 * s.rf (Reg.axStepAct n) 31 24 ≤ s.cyc then (r.setAx n { s.ax n with pulseAt := none }).done else r.done

/-- STANDSTILL_REACHED: no step for `still_ms`. -/
def execStandstillReached (n : Nat) (s : State) : Out :=
  let r := Run.start s
  (if (s.ax n).lastStep + usCyc (1000 * s.rf (Reg.axRetAct n) 30 24) ≤ s.cyc then r.wb (Reg.axStat n) 24 true else r).done

/-! ## DRVOK and the reseat (R284 to R287) -/

/-- DRVOK_FALL: the qualified fall of DRVOK. A running reseat is abandoned and `retained` stays (R284, R287); the step source
is ignored from here to the rise. -/
def execDrvokFall (n : Nat) (s : State) : Out :=
  let r := Run.start s
  if s.axMode n ≠ 2 ∨ !s.rb (Reg.axStat n) 28 then r.done
  else
    let r := ((r.wb (Reg.axStat n) 28 false).wb (Reg.axStat n) 26 false).flag (Reg.axEvstat n) 4
    let t := s.cyc / 4
    let r := r.setAx n { s.ax n with rsWait := none, rsLeft := 0, leNum := (s.ax n).leTarget t, leAt := t }
    if s.rb (Reg.axStat n) 27 then r.done
    else if s.rb (Reg.axStat n) 24 ∧ s.rb (Reg.axRetAct n) 31 then (r.wb (Reg.axStat n) 27 true).done
    else ((r.wb (Reg.axStat n) 25 true).flag (Reg.axEvstat n) 5).done

/-- DRVOK_RISE: the qualified rise; a retained axis starts its reseat wait (R285, R287). -/
def execDrvokRise (n : Nat) (s : State) : Out :=
  let r := Run.start s
  if s.axMode n ≠ 2 ∨ s.rb (Reg.axStat n) 28 then r.done
  else
    let r := (r.wb (Reg.axStat n) 28 true).setAx n { s.ax n with leAt := s.cyc / 4 }
    (if s.rb (Reg.axStat n) 27 then
      r.setAx n { r.s.ax n with rsWait := some (s.cyc + usCyc (1000 * s.rf (Reg.axReseatAct n) 7 0)) }
     else r).done

/-- RESEAT_START: after `reseat_delay`; DIR goes high and N corrective steps follow (R285). -/
def execReseatStart (n : Nat) (s : State) : Out :=
  let r := Run.start s
  let a := s.ax n
  match a.rsWait with
  | none => r.done
  | some t =>
    if s.cyc < t then r.done
    else
      let left := (a.pos - s.rf (Reg.axRetAct n) 11 0) % (max 1 (s.rf (Reg.axRetAct n) 23 12) : Nat)
      ((r.wb (Reg.axStat n) 26 true).setAx n { a with
        rsWait := none, dir := true, dirAt := s.cyc, rsAt := s.cyc + 4 * s.rf (Reg.axStepAct n) 20 10
        rsLeft := left.toNat }).done

/-- RESEAT_STEP: one corrective step, which does not change P (R285). -/
def execReseatStep (n : Nat) (s : State) : Out :=
  let r := Run.start s
  let a := s.ax n
  if s.rb (Reg.axStat n) 26 ∧ 0 < a.rsLeft ∧ a.rsAt ≤ s.cyc then
    ((r.setAx n { a with rsLeft := a.rsLeft - 1, rsAt := a.rsAt + 4 * s.rf (Reg.axReseatAct n) 31 16
                         pulseAt := some s.cyc, lastStep := s.cyc }).wb (Reg.axStat n) 24 false).done
  else r.done

/-- RESEAT_DONE: `dir_setup` after the last corrective step; EN becomes active (R285). -/
def execReseatDone (n : Nat) (s : State) : Out :=
  let r := Run.start s
  let a := s.ax n
  if s.rb (Reg.axStat n) 26 ∧ a.rsLeft = 0 ∧ a.rsAt + 4 * s.rf (Reg.axStepAct n) 20 10 ≤ s.cyc then
    (((r.wb (Reg.axStat n) 26 false).wb (Reg.axStat n) 27 false).flag (Reg.axEvstat n) 6).done
  else r.done

/-! ## The balls (R273, R274, R283) -/

/-- EN is active while the outputs are enabled, DRVOK is high and no reseat runs or waits (R283 to R287). -/
def State.axEn (s : State) (n : Nat) : Bool :=
  s.axOn n && s.rb (Reg.axStat n) 28 && !s.rb (Reg.axStat n) 26 && !s.rb (Reg.axStat n) 27

/-- The active state of output ball PHi before polarity. A corrective step is a STEP pulse too. -/
def State.axPhActive (s : State) (n i : Nat) : Bool :=
  let a := s.ax n
  match s.axMode n with
  | 1 => s.axOn n && bit a.gate i
  | 2 => s.axOn n && (match i with
      | 0 => a.pulseAt.isSome
      | 1 => a.dir
      | 2 => s.axEn n
      | _ => false)
  | _ => false

/-- The level of output ball PHi (R274). -/
def State.axPh (s : State) (n i : Nat) : Bool := s.axPhActive n i != s.rb (Reg.axPolAct n) i

/-! ## Encoders (R289) -/

/-- The first position change after a pending raw edge is kept for its interpolation (R316). -/
def AuxIn.see (x : AuxIn) (pos : Int) (t : Nat) : AuxIn :=
  match x.edge with
  | some e => if e.next.isNone then { x with edge := some { e with next := some (pos, t) } } else x
  | none => x

/-- A position change at TB0 time `t` becomes known to both AUX inputs. -/
def Axis.moved (a : Axis) (pos : Int) (t : Nat) : Axis := { a with aux0 := a.aux0.see pos t, aux1 := a.aux1.see pos t }

/-- The quadrature step of new levels of A and B: +1 in the order 00, 10, 11, 01 (PRESUMED, log 22). -/
def quadStep (a b a' b' : Bool) : Int :=
  if a == a' && b == b' then 0
  else if a != a' then (if a' == b then -1 else 1)
  else (if b' == a then 1 else -1)

/-- Qualified levels of A and B reach the counter (R289). -/
def Run.encCount (r : Run s₀) (n : Nat) (a b : Bool) : Run s₀ :=
  let x := r.s.ax n
  if x.encA == a && x.encB == b then r
  else if x.encA != a && x.encB != b then
    ((r.setAx n { x with encA := a, encB := b }).count (Reg.axErrcnt n) 15 8).flag (Reg.axEvstat n) 3
  else
    let d := quadStep x.encA x.encB a b
    let d := if r.s.rb (Reg.axCfgAct n) 3 then -d else d
    let c := uNat 32 ((r.s.rget (Reg.axEnc n)).toNat + d)
    let x := ({ x with encA := a, encB := b, chg := ((c, r.s.now) :: x.chg).take 64 }).moved (sInt 32 c) r.s.now
    (r.setAx n x).wr (Reg.axEnc n) c

/-- Inputs that have been stable for `enc_filt` ticks are qualified (R289). -/
def Run.encQualify (r : Run s₀) (n : Nat) : Run s₀ :=
  if r.s.axFb n ≠ 1 then r
  else
    let x := r.s.ax n
    let t := r.s.cyc / 4
    r.encCount n (if x.dueA ≤ t then x.rawA else x.encA) (if x.dueB ≤ t then x.rawB else x.encB)

/-- ENCODER_EDGE: A and B come to the levels `a` and `b`; with `enc_filt` = 0 they are qualified at once (R289). -/
def execEncoderEdge (n : Nat) (a b : Bool) (s : State) : Out :=
  let r := Run.start s
  let x := s.ax n
  if s.axFb n ≠ 1 then r.done
  else
    let due := s.cyc / 4 + s.rf (Reg.axCfgAct n) 7 4
    ((r.setAx n { x with rawA := a, rawB := b, dueA := if x.rawA == a then x.dueA else due
                         dueB := if x.rawB == b then x.dueB else due }).encQualify n).done

/-! ## SSI and FRAME feedback (R290 to R292) -/

/-- The instant of boundary plus `req_off` at which a frame is due (R290, R291). -/
def Run.frameDue (r : Run s₀) (n : Nat) : Run s₀ :=
  if 2 ≤ r.s.axFb n then
    let x := r.s.ax n
    r.setAx n { x with frameAt := x.frameAt ++ [r.s.cyc + 4 * r.s.rf (Reg.axFbtimeAct n) 31 16] }
  else r

/-- A frame ends in error (R292): nothing is updated. -/
def Run.frameError (r : Run s₀) (n : Nat) (timeout : Bool) : Run s₀ :=
  let r := ((r.setAx n { r.s.ax n with frame := none }).count (Reg.axErrcnt n) 31 16).flag (Reg.axEvstat n) 1
  if timeout then r.flag (Reg.axEvstat n) 2 else r

/-- A frame that is due starts; one still running is abandoned and the next is not started (R292). -/
def Run.frameStart (r : Run s₀) (n fb : Nat) : Run s₀ :=
  match (r.s.ax n).frameAt with
  | [] => r
  | t :: later =>
    if r.s.axFb n ≠ fb ∨ r.s.cyc < t then r
    else
      let r := r.setAx n { r.s.ax n with frameAt := later }
      if (r.s.ax n).frame.isSome then r.frameError n true
      else r.setAx n { r.s.ax n with frame := some (r.s.cyc, r.s.now) }

/-- SSI_FRAME_START (R290) and FRAME_ENGINE_START (R291). -/
def execSsiFrameStart (n : Nat) (s : State) : Out := ((Run.start s).frameStart n 2).done
def execFrameEngineStart (n : Nat) (s : State) : Out := ((Run.start s).frameStart n 3).done

/-- Bits, first the most significant, as a number. -/
def ofBits (l : List Bool) : Nat := l.foldl (fun v b => 2 * v + b2n b) 0

/-- A number as `n` bits, first the most significant. -/
def toBits (n v : Nat) : List Bool := (List.range n).map fun i => bit v (n - 1 - i)

/-- Gray code converted to binary: each bit is the parity of the bits from the top down to it (R290). -/
def ofGray (l : List Bool) : Nat :=
  ofBits ((l.foldl (fun (acc : Bool × List Bool) b => let p := acc.1 != b; (p, acc.2 ++ [p])) (false, [])).2)

/-- The running CRC after bits (R291). -/
def crcBits (w poly crc : Nat) (l : List Bool) : Nat :=
  l.foldl (fun c b =>
    let top := bit c (w - 1) != b
    let c := 2 * c % 2 ^ w
    if top then c ^^^ poly % 2 ^ w else c) crc

/-- The frame engine at work: received bits and the waits of its TURNs that are left, running CRC, fields, whether an error has
been met, and the line bit by bit: what the engine sends, none while it does not transmit. -/
structure FrameRun where
  rx : List Bool
  turns : List Nat
  crc : Nat
  f : List Nat
  bad : Bool := false
  line : List (Option Bool) := []

/-- The engine sends bits; the running CRC takes them (R291). -/
def FrameRun.send (x : FrameRun) (w poly : Nat) (l : List Bool) : FrameRun :=
  { x with crc := crcBits w poly x.crc l, line := x.line ++ l.map some }

/-- The line is not driven for `n` bit times. -/
def FrameRun.idle (x : FrameRun) (n : Nat) : FrameRun := { x with line := x.line ++ List.replicate n none }

/-- One template entry (R291). Nothing follows an error but the end of the frame. -/
def FrameRun.entry (w poly init : Nat) (x : FrameRun) (e : Nat) : FrameRun :=
  let cnt := bits e 23 16
  if x.bad then x
  else match bits e 31 28 with
  | 1 => x.send w poly (toBits cnt (e % 65536))
  | 2 => x.send w poly (toBits w x.crc)
  | 3 => match x.turns with
    | [] => { x with bad := true }
    | t :: l => if e % 65536 < t then { x with bad := true } else ({ x with turns := l }).idle (t + 1)
  | 4 =>
    if x.rx.length < cnt then { x with bad := true }
    else
      let b := x.rx.take cnt
      ({ x with rx := x.rx.drop cnt, crc := crcBits w poly x.crc b, f := x.f.set (bits e 27 26) (ofBits b) }).idle cnt
  | 5 => { x with crc := init % 2 ^ w }
  | 6 =>
    if x.rx.length < w then { x with bad := true }
    else
      let b := x.rx.take w
      ({ x with rx := x.rx.drop w, crc := crcBits w poly x.crc b, bad := ofBits b != x.crc }).idle w
  | 7 => x.idle cnt
  | _ => x

/-- The entries of a template before its END. -/
def State.axTemplate (s : State) (n : Nat) : List Nat :=
  ((List.range 32).map fun i => (s.rget (Reg.axTplAct n i)).toNat).takeWhile fun e => bits e 31 28 != 0

/-- The template run over received bits; `turns` gives for each TURN the bit times before the start bit (R291). -/
def State.axFrame (s : State) (n : Nat) (rx : List Bool) (turns : List Nat) : FrameRun :=
  let w := s.rf (Reg.axFbAct n) 20 16
  let poly := s.rf (Reg.axCrcAct n) 15 0
  let init := s.rf (Reg.axCrcAct n) 31 16
  let f := (List.range 4).map fun i => (s.rget (Reg.axF n i)).toNat
  (s.axTemplate n).foldl (FrameRun.entry w poly init) { rx := rx, turns := turns, crc := init % 2 ^ w, f := f }

/-- The time in 625 ps units for which the running frame has lasted. -/
def State.frameUnits (s : State) (start : Nat) : Nat := 2 * (s.cyc - start)

/-- ENC0 as an output (R273): the SSI clock, idle high, whose bits begin with a falling edge; the data that the frame engine
sends before its first TURN. None where the port does not drive the ball. -/
def State.axEnc0 (s : State) (n : Nat) : Option Bool :=
  let bt := max 1 (s.rf (Reg.axFbAct n) 15 0)
  match s.axFb n, (s.ax n).frame with
  | 2, none => some true
  | 2, some (c, _) =>
    let u := s.frameUnits c
    some (decide (s.rf (Reg.axFbAct n) 30 24 * bt ≤ u) || decide (bt ≤ 2 * (u % bt)))
  | 3, some (c, _) => ((s.axFrame n [] []).line[s.frameUnits c / bt]?).join
  | _, _ => none

/-- ENC1 as an output: the driver enable of FRAME feedback, active while the engine transmits (R291). -/
def State.axEnc1 (s : State) (n : Nat) : Option Bool := if s.axFb n = 3 then some (s.axEnc0 n).isSome else none

/-- A frame has succeeded: fields, signals and safety taps update together (R292). -/
def Run.frameGood (r : Run s₀) (n stamp : Nat) (f : List Nat) : Run s₀ :=
  let r := r.each f.zipIdx fun r e => r.wr (Reg.axF n e.2) e.1
  let f0 := f[0]?.getD 0 % 2 ^ 32
  let f1 := f[1]?.getD 0 % 2 ^ 32
  let x := ({ r.s.ax n with frame := none, lastFrame := some (sInt 32 f0, stamp), tap := some (f0, f1, stamp), tapAt := r.s.cyc }).moved
    (sInt 32 f0) stamp
  let r := (r.setAx n x).sample { idx := r.s.rf (Reg.axSig0Act n) 17 0, val := f0, stamp := stamp % 2 ^ 32, kind := 3 }
  if r.s.rb (Reg.axSig1Act n) 31 then
    r.sample { idx := r.s.rf (Reg.axSig1Act n) 17 0, val := f1, stamp := stamp % 2 ^ 32, kind := 3 }
  else r

/-- FEEDBACK_FRAME_END: the running frame ends with the bits received in order and the bit times waited at its TURNs. It does not end
before its bits have taken their time (R290 to R292). -/
def execFeedbackFrameEnd (n : Nat) (got : FrameRx) (s : State) : Out :=
  let r := Run.start s
  let rx := got.bits
  let turns := got.turns
  let bt := s.rf (Reg.axFbAct n) 15 0
  match (s.ax n).frame with
  | none => r.done
  | some (c, stamp) =>
    if s.axFb n = 2 then
      let nb := s.rf (Reg.axFbAct n) 30 24
      if 2 * s.frameUnits c < (2 * nb - 1) * bt then r.done
      else if rx.length < nb then (r.frameError n false).done
      else
        let l := rx.take nb
        let v := if s.rb (Reg.axFbAct n) 31 then ofGray l else ofBits l
        let f := (List.range 4).map fun i => if i = 0 then v % 2 ^ 32 else (s.rget (Reg.axF n i)).toNat
        (r.frameGood n stamp f).done
    else
      let x := s.axFrame n rx turns
      if s.frameUnits c < x.line.length * bt then r.done
      else (if x.bad then r.frameError n false else r.frameGood n stamp x.f).done

/-- FEEDBACK_FRAME_TIMEOUT: a frame has not ended `tout` × 100 ns after its start (R292). -/
def execFeedbackFrameTimeout (n : Nat) (s : State) : Out :=
  let r := Run.start s
  match (s.ax n).frame with
  | none => r.done
  | some (c, _) => (if c + 80 * s.rf (Reg.axFbtimeAct n) 15 0 ≤ s.cyc then r.frameError n true else r).done

/-! ## Sigma-delta channels (R293 to R297) -/

/-- A channel's filters and counts. -/
def State.sd (s : State) (c : Nat) : SdChan := tget {} c s.motion.sds
def Run.setSd (r : Run s₀) (c : Nat) (x : SdChan) : Run s₀ :=
  r.up (.motion { r.s.motion with sds := tset {} c x r.s.motion.sds })

/-- SDCLKk (R293): 200 MHz / `div` while `en` is 1. Its rising edges lie on the ticks that `div` divides (log 60). -/
def State.sdclkRise (s : State) (k : Nat) : Bool :=
  s.rb (Reg.sdfClkAct k) 31 && s.cyc / 4 % max 1 (s.rf (Reg.sdfClkAct k) 5 0) == 0

/-- The level of output SDCLKk. -/
def State.sdclk (s : State) (k : Nat) : Bool :=
  let div := max 1 (s.rf (Reg.sdfClkAct k) 5 0)
  s.rb (Reg.sdfClkAct k) 31 && decide (2 * (s.cyc / 4 % div) < div)

/-- Weight of the bit `i` clocks back in a sinc filter of order `k` and decimation `d`. -/
def sincTap (d : Nat) : Nat → Nat → Nat
  | 0, i => if i = 0 then 1 else 0
  | k + 1, i => ((List.range (min d (i + 1))).map fun a => sincTap d k (i - a)).sum

/-- A sinc filter's raw output over the stream, from 0 to dᵏ (R294, R295). -/
def SdChan.sinc (x : SdChan) (k d : Nat) : Nat :=
  ((List.range (k * d + 1 - k)).map fun i => if bit x.bits i then sincTap d k i else 0).sum

/-- The comparator filter of a channel, and whether it lies within its thresholds (R295, R296). -/
def State.sdComp (s : State) (c : Nat) : Nat := (s.sd c).sinc 2 (s.rf (Reg.sdfChCfgAct c) 25 20)
def State.sdWithin (s : State) (c : Nat) : Bool :=
  !s.rb (Reg.sdfChCfgAct c) 31 || decide (s.rf (Reg.sdfChThrAct c) 10 0 ≤ s.sdComp c ∧ s.sdComp c ≤ s.rf (Reg.sdfChThrAct c) 26 16)

/-- A channel takes one bit of its modulator stream. -/
def Run.sdTake (r : Run s₀) (c : Nat) (b : Bool) : Run s₀ :=
  let x := r.s.sd c
  let r := r.setSd c { x with
    bits := (2 * x.bits + b2n b) % 2 ^ 766, same := if x.same ≠ 0 ∧ bit x.bits 0 = b then min 256 (x.same + 1) else 1 }
  r.setSd c { r.s.sd c with beyond := if r.s.sdWithin c then 0 else min 8 (x.beyond + 1) }

/-- Rising edges of the clocks on this tick: the channels that run read their inputs (R293). -/
def Run.sdTick (r : Run s₀) : Run s₀ :=
  r.each ((List.range 6).filter fun k => r.s.sdclkRise k) fun r k =>
    r.each ((List.range 24).filter fun j => r.s.rb (Reg.sdfChCfgAct (24 * k + j)) 31) fun r j =>
      r.sdTake (24 * k + j) (Config.sdBit (24 * k + j) r.s.cyc)

/-- A channel's window closes at a boundary (R294): the raw sinc3 output gives the result. -/
def Run.sdResult (r : Run s₀) (k c : Nat) : Run s₀ :=
  if r.s.rb (Reg.sdfChCfgAct c) 31 then
    let d := r.s.rf (Reg.sdfChCfgAct c) 8 0
    let v := uNat 32 (((r.s.sd c).sinc 3 d : Nat) - (d * d * d / 2 : Nat))
    (r.wr (Reg.sdfChRes c) v).sample { idx := r.s.rf (Reg.sdfChSigAct c) 17 0, val := v, stamp := k % 2 ^ 32, kind := 3 }
  else r

/-- OC_TRIP: the comparator filter of channel `c` has stayed beyond a threshold for `persist_m1` + 1 clocks (R295). -/
def execOcTrip (c : Nat) (s : State) : Out :=
  let r := Run.start s
  if !s.rb (Reg.sdfChCfgAct c) 31 || decide ((s.sd c).beyond < s.rf (Reg.sdfChCfgAct c) 29 27 + 1) then r.done
  else
    let r := (r.wb (Reg.sdfTrip (c / 32)) (c % 32) true).flag Reg.sdfEvstat 0
    (if s.rb (Reg.sdfChCfgAct c) 30 then (r.wb (Reg.axStat (c / 3)) 29 true).flag (Reg.axEvstat (c / 3)) 0 else r).done

/-- SD_STUCK: a channel's data has stayed at one level for 256 modulator clocks (R297). -/
def execSdStuck (c : Nat) (s : State) : Out :=
  let r := Run.start s
  (if s.rb (Reg.sdfChCfgAct c) 31 ∧ 256 ≤ (s.sd c).same then
    (r.wb (Reg.sdfStuck (c / 32)) (c % 32) true).flag Reg.sdfEvstat 1 else r).done

/-- Every comparator of an axis lies within its thresholds (R296). -/
def State.axWithin (s : State) (n : Nat) : Bool := [3 * n, 3 * n + 1, 3 * n + 2].all s.sdWithin

/-- A latched trip and the TRIP bits of the axis end (R296). -/
def Run.tripEnd (r : Run s₀) (n : Nat) : Run s₀ :=
  r.each ([3 * n, 3 * n + 1, 3 * n + 2]) (fun r c => r.wb (Reg.sdfTrip (c / 32)) (c % 32) false) |>.wb (Reg.axStat n) 29 false

/-- AX_CLEAR_WRITE: `clear` takes effect while every comparator of the axis lies within its thresholds (R296). -/
def execAxClearWrite (n : Nat) (v : Word) (_ : Unit) (s : State) : Out :=
  let r := Run.start s
  (if bit v.toNat 1 ∧ s.axWithin n then r.tripEnd n else r).done

/-! ## AUX inputs (R274, R315) -/

/-- The port's position at this instant in counts, for the interpolation of R316, with the instant it was known at. -/
def State.axPosNow (s : State) (n : Nat) : Int × Nat :=
  let a := s.ax n
  if s.axMode n = 2 then (a.pos, s.now)
  else if s.axFb n = 1 then (match a.chg with
    | [] => (sInt 32 (s.rget (Reg.axEnc n)).toNat, s.now)
    | e :: _ => (sInt 32 e.1, e.2))
  else a.lastFrame.getD (0, s.now)

/-- An AUX input of a port. -/
def Axis.aux (a : Axis) (i : Nat) : AuxIn := if i = 0 then a.aux0 else a.aux1
def Axis.setAux (a : Axis) (i : Nat) (x : AuxIn) : Axis := if i = 0 then { a with aux0 := x } else { a with aux1 := x }

/-- AUX_EDGE: a raw edge of an AUX input; the first one away from the qualified level is stamped on TB0 (R274, R315). -/
def execAuxEdge (n i : Nat) (level : Bool) (s : State) : Out :=
  let r := Run.start s
  let x := (s.ax n).aux i
  if x.raw == level then r.done
  else
    let (p, t) := s.axPosNow n
    let edge := if x.edge.isNone && level != x.qual then some { stamp := s.now, pos0 := p, t0 := t } else x.edge
    (r.setAx n ((s.ax n).setAux i { x with raw := level, rawAt := s.cyc, edge := edge })).done

/-- The latched position of an edge, raw 48.16 (R316); a count wraps at 32 bits. -/
def AuxEdge.latched (e : AuxEdge) (step : Bool) : Int :=
  match e.next with
  | some (p1, t1) =>
    if step || t1 ≤ e.t0 then e.pos0 * 65536
    else e.pos0 * 65536 + roundMul (wrapDiff (2 ^ 32) (p1 - e.pos0) * 65536) (e.stamp - e.t0) (t1 - e.t0)
  | none => e.pos0 * 65536

/-! ## Groups (R298, R299) -/

/-- The check of R15 for group CFG of AXn (R298). -/
def State.axcfgCheck (s : State) (n : Nat) : Bool :=
  let mode := s.rf (Reg.axCfg n) 1 0
  let g := s.rf (Reg.axCfg n) 19 16
  mode != 3 && (mode == 0 || s.gridEn g)
  && (match s.axGroup n with
      | none => true
      | some k => g == s.rf (Reg.timeLgCfgAct k) 3 0
          && (mode != 1 || halfCarrierFits (s.rf (Reg.timeSgPeriodAct g) 24 0) (s.rf (Reg.axPwm n) 17 0)))
  && !(mode != s.axMode n && (List.range 256).any fun c => s.leState c != 0 && (s.leDrives c).any fun d => d.1 == n)
  && decide (s.rf (Reg.axStep n) 31 24 < s.rf (Reg.axStepper n) 15 0)
  && decide (s.rf (Reg.axRet n) 11 0 < s.rf (Reg.axRet n) 23 12)

/-- The check of R15 for group TPL: an END precedes entry 32 and no reserved op comes before it. -/
def State.axtplCheck (s : State) (n : Nat) : Bool :=
  let ops := (List.range 32).map fun i => bits (s.rget (Reg.axTpl n i)).toNat 31 28
  ops.contains 0 && (ops.takeWhile (· != 0)).all fun o => decide (o < 8)

/-- The check of R15 for group SDn: an enabled channel's D × `div` divides the grid period. -/
def State.sdCheck (s : State) (n : Nat) : Bool :=
  let t := s.rf (Reg.timeSgPeriodAct (s.axGrid n)) 24 0
  [3 * n, 3 * n + 1, 3 * n + 2].all fun c => !s.rb (Reg.sdfChCfg c) 31 ||
    t % max 1 (s.rf (Reg.sdfChCfg c) 8 0 * s.rf (Reg.sdfClkAct (n / 8)) 5 0) == 0

/-- The check of R15 for group CLK: no enabled channel uses a clock that changes. -/
def State.sdclkCheck (s : State) : Bool :=
  (List.range 6).all fun k => s.rget (Reg.sdfClk k) == s.rget (Reg.sdfClkAct k) ||
    (List.range 24).all fun j => !s.rb (Reg.sdfChCfgAct (24 * k + j)) 31

/-- The target of `step_src` LE when CFG comes into use: it begins at P, and one in use keeps what it has not stepped yet,
counted in the new `step_per` (R282, R283). -/
def State.leSource (s : State) (n : Nat) : Axis :=
  let a := s.ax n
  let per := s.rf (Reg.axStepperAct n) 15 0
  let t := s.cyc / 4
  if s.axMode n ≠ 2 ∨ !s.rb (Reg.axCfgAct n) 2 then { a with lePer := 0 }
  else if a.lePer = 0 then { a with lePer := per, leAnchor := a.pos, leNum := 0, leAt := t }
  else if a.lePer ≠ per then { a with lePer := per, leNum := a.leTarget t * per / (a.lePer : Int), leAt := t }
  else a

/-- What follows when CFG of AXn comes into use: a carrier that starts does so at a valley, with its gates (R278, R279). `was`
is the former mode. -/
def Run.axcfgApplied (r : Run s₀) (n was : Nat) : Run s₀ :=
  let mode := r.s.axMode n
  let a := r.s.leSource n
  if mode = was then r.setAx n a
  else
    let p := a.pos * 65536
    let r := r.setAx n { a with cmd := 0, gate := 0, gateAt := [], stepHold := false, rsWait := none, ref0 := p, ref1 := p
                                ref2 := p, carAt := r.s.units, peak := false, joined := none }
    if mode = 1 then (r.axReload n).axGatesStart n else r

/-! ## The boundary (R279, R282, R289, R290, R294) -/

/-- The rate of `step_src` LE comes into use with the boundary; while DRVOK is low the target rests (R284). -/
def Run.axRate (r : Run s₀) (n : Nat) : Run s₀ :=
  let a := r.s.ax n
  let t := r.s.cyc / 4
  (r.setAx n { a with leNum := if r.s.rb (Reg.axStat n) 28 then a.leTarget t else a.leNum, leAt := t }).axReload n

/-- The carrier of a member of a lock group at a boundary of the group's grid `g` (R83). -/
def Run.axLock (r : Run s₀) (g n : Nat) : Run s₀ :=
  match r.s.axGroup n with
  | some q => r.axLockReload n q g
  | none => r

/-- The step rate of an axis at a boundary of its grid. -/
def Run.axStepRate (r : Run s₀) (n : Nat) : Run s₀ := if r.s.axMode n = 2 then r.axRate n else r

/-- The encoder count is latched and written at a boundary (R289). -/
def Run.axLatch (r : Run s₀) (n k : Nat) : Run s₀ :=
  if r.s.axFb n = 1 then
    r.sample { idx := r.s.rf (Reg.axSig0Act n) 17 0, val := (r.s.rget (Reg.axEnc n)).toNat, stamp := k % 2 ^ 32, kind := 3 }
  else r

/-- An axis at a boundary of its grid. -/
def Run.axBoundary (r : Run s₀) (n k : Nat) : Run s₀ :=
  (((r.axStepRate n).axLatch n k).frameDue n).each [3 * n, 3 * n + 1, 3 * n + 2] fun r c => r.sdResult k c

/-! ## Operations of the AXIS unit (R301), unit 1 -/

/-- The end of an AXIS operation. -/
def Run.axFin (r : Run s₀) (o : Op) (st : Status) (k : Nat) : Run s₀ := r.opEnd o st 0 k [] 0

/-- The count of an axis moves by an offset, with the count changes that the port keeps (R301, R321). -/
def Run.encShift (r : Run s₀) (n : Nat) (c : Int) : Run s₀ :=
  let x := r.s.ax n
  (r.setAx n { x with chg := x.chg.map fun e => (uNat 32 (e.1 + c), e.2) }).wr (Reg.axEnc n)
    (uNat 32 ((r.s.rget (Reg.axEnc n)).toNat + c))

/-- ENABLE may be carried out. -/
def State.axMayEnable (s : State) (n : Nat) : Bool :=
  s.axMode n != 0 && (s.node == .normal || s.node == .test) && !s.rb (Reg.axStat n) 29

/-- SETPOS may be carried out. -/
def State.axMaySetpos (s : State) (n : Nat) : Bool :=
  s.rb (Reg.axStat n) 24 && !s.rb (Reg.axStat n) 27 && !s.rb (Reg.axStat n) 26

/-- P, or the count, set; `poslost` is cleared (R301). -/
def Run.setPos (r : Run s₀) (n : Nat) (p : Int) : Run s₀ :=
  let r := if r.s.axMode n = 2 then
      r.setAx n { r.s.ax n with pos := wrap48 p, leAnchor := wrap48 p, leNum := 0, leAt := r.s.cyc / 4 }
    else if r.s.axFb n = 1 then r.encShift n (p - (r.s.rget (Reg.axEnc n)).toNat)
    else r
  r.wb (Reg.axStat n) 25 false

/-- ENABLE or SETPOS takes effect; `k` is its boundary. -/
def Run.axAct (r : Run s₀) (o : Op) (k : Nat) : Run s₀ :=
  if o.code = 2 then
    if r.s.axMayEnable o.obj then (r.setOutEn o.obj (bit (recNat o.payload 0 1) 0)).axFin o o.okSt k
    else r.axFin o .refused k
  else if r.s.axMaySetpos o.obj then (r.setPos o.obj (sInt 48 (recNat o.payload 0 8))).axFin o o.okSt k
  else r.axFin o .refused k

/-- ENABLE and SETPOS are taken for their boundary; while the axis's grid does not run they act at once (R16, log 23). -/
def Run.axTake (r : Run s₀) (o : Op) : Run s₀ :=
  let ok := if o.code = 2 then r.s.axMayEnable o.obj else r.s.axMaySetpos o.obj
  if !ok then r.axFin o .refused r.s.now
  else if (r.s.grid (r.s.axGrid o.obj)).running then r.opTaken o
  else if o.time.isNone ∨ o.late ∨ o.due then r.axAct o r.s.now
  else r.opTaken o

/-- The AXIS operations due at a boundary act in the order of acceptance (R163). -/
def Run.axOps (r : Run s₀) (n k : Nat) : Run s₀ :=
  r.each (byAcceptance (r.s.sp.ops.filter fun o =>
      o.unit == 1 && o.obj == n && r.s.opDueAt o k && (o.code == 2 || o.code == 4)))
    fun r o => match r.s.op o.id with
      | none => r
      | some o => if r.s.opBlocked o then r.opSet { o with held := o.held || o.time.isSome } else r.axAct o k

def Run.actAxStatus (r : Run s₀) (o : Op) : Run s₀ :=
  let n := o.obj
  r.opFin o o.okSt 0 (bytesLE 4 (r.s.axStatReg n) ++ bytesLE 8 (uNat 64 (r.s.ax n).pos)
    ++ wordsLE ([(r.s.rget (Reg.axEnc n)).toNat] ++ ((List.range 4).map fun i => (r.s.rget (Reg.axF n i)).toNat)
        ++ [(r.s.rget (Reg.axErrcnt n)).toNat]))

def execAxisEnable (id : Nat) (s : State) : Out := ((Run.start s).opTakeFree id 1 2 Run.axTake).done
def execAxisSetpos (id : Nat) (s : State) : Out := ((Run.start s).opTakeFree id 1 4 Run.axTake).done
def execAxisStatus (id : Nat) (s : State) : Out := ((Run.start s).opRow id 1 5 Run.actAxStatus).done

/-- CLEAR acts (R296). -/
def Run.actAxClear (r : Run s₀) (o : Op) : Run s₀ :=
  if r.s.axWithin o.obj then (r.tripEnd o.obj).opFin o o.okSt 0 [] else r.opFin o .refused 0 []

def execAxisClear (id : Nat) (_ : Unit) (s : State) : Out := ((Run.start s).opRow id 1 3 Run.actAxClear).done

end Sys2Proof.Machine
end

