-- ==== Sys2Proof/Machine/Reset.lean ====
section
/-!
DEFINITION. Power-on reset and cold reset (17_power_reset.md, R612, R617, R619, R627): what they clear and what they keep.
-/
namespace Sys2Proof.Machine

variable {s₀ : State}

/-- A position is written to PWR_AXPOSn for every axis; it is valid on an axis in mode STEP that is at standstill and has
not lost its position (R627). -/
def Run.saveAxes (r : Run s₀) : Run s₀ :=
  r.each (List.range 48) fun r n =>
    if r.s.axMode n = 2 then
      let p := uNat 48 (r.s.ax n).pos
      let ok := r.s.rb (Reg.axStat n) 24 && !r.s.rb (Reg.axStat n) 25
      (r.wr (Reg.pwrAxposLo n) (p % 2 ^ 32)).wr (Reg.pwrAxposHi n) (b2n ok <<< 31 + p >>> 32)
    else (r.wr (Reg.pwrAxposLo n) 0).wr (Reg.pwrAxposHi n) 0

/-- Registers that a cold reset keeps: the backup domain, RST_CAUSE and RST_COUNT, the clock and supply status, and the
bank levels found in BOOT (R614, R617). -/
def coldKeep : List (Nat × Nat) :=
  [(Reg.rstCause, Reg.rstCount), (Reg.clkStat, Reg.clkStat), (Reg.pwrStat, Reg.pwrPfInfo),
   (Reg.pwrBkp 0, Reg.pwrAxposHi 47), (Reg.pinBank, Reg.pinBank)]

/-- Registers that a power-on reset keeps: the backup domain. -/
def porKeep : List (Nat × Nat) := [(Reg.pwrStat, Reg.pwrPfInfo), (Reg.pwrBkp 0, Reg.pwrAxposHi 47)]

/-- What Bharal keeps in MRAM, OTP and boot flash (R617). -/
def BhrSt.kept (b : BhrSt) : BhrSt :=
  { recs := b.recs, nextSeq := b.nextSeq, opBase := b.opBase, opAt := b.opAt, pcyc := b.pcyc, cal := b.cal
    calEcc := b.calEcc, sps := b.sps, flash := b.flash, otpSv := b.otpSv, keys := b.keys, trials := b.trials, confirmed := b.confirmed, badSlot := b.badSlot }

/-- Everything that both resets clear (R617): registers but those of `keep`, on-die memories, every block. -/
def Run.wipe (r : Run s₀) (keep : List (Nat × Nat)) : Run s₀ :=
  let r := (r.up (.regsKeep keep)).up .memClear
  let r := r.up (.ecc (r.s.ecc.filter fun e => decide (0x20000000 ≤ e.1)))
  let r := ((r.up (.commits [])).up (.time {})).up (.sp { cyc0 := r.s.cyc })
  let r := ((r.up (.sig {})).up (.le {})).up (.motion {})
  let r := ((r.up (.adc {})).up (.herd {})).up (.port {})
  let r := ((r.up (.capt {})).up (.chm {})).up (.red {})
  let r := r.up (.mesh { perstn := r.s.mesh.perstn })
  r.up (.bhr r.s.bhr.kept)

/-- A cold reset request acts: the axis positions are saved, and the device is held in reset for 100 µs (R619, R627). -/
def Run.coldReset (r : Run s₀) (src : Nat) : Run s₀ :=
  let was := r.s.node.code
  let r := r.saveAxes.wipe coldKeep
  let r := (r.wf Reg.rstCause 15 0 (src <<< 8)).count Reg.rstCount 31 16
  let r := r.wf Reg.rstCount 15 0 0
  r.up (.pwr { r.s.pwr with coldUntil := some (r.s.cyc + usCyc 100), coldSrc := src, coldNode := was })

/-- POR asserts: everything but the backup domain and Bharal's stores is lost (R612, R617). -/
def Run.porAssert (r : Run s₀) : Run s₀ :=
  let b := { r.s.bhr with opBase := r.s.opSeconds, opAt := r.s.cyc }
  let r := (r.up (.bhr b)).wipe porKeep
  let r := r.wb Reg.pwrStat 29 false
  r.up (.pwr { r.s.pwr with por := true, coldUntil := none })

/-- The device is held in reset. -/
def State.inReset (s : State) : Bool := s.pwr.por || s.pwr.coldUntil.isSome

end Sys2Proof.Machine
end

