-- ==== Sys2Proof/Machine/Bhr.lean ====
section
/-!
DEFINITION. Bharal (16_ibex.md): sensors, calibration set, event recorder, images, boot and load, authorisation, and the
operations of the BHR unit, unit 12, which the host carries out through BHR_CMD and the mailbox words as well.
-/
namespace Sys2Proof.Machine

variable {s₀ : State}

def Run.mapBhr (r : Run s₀) (f : BhrSt → BhrSt) : Run s₀ := r.up (.bhr (f r.s.bhr))

/-- A list of bytes cut or filled with zeros to a length. -/
def padTo (n : Nat) (d : List Byte) : List Byte := d.take n ++ List.replicate (n - d.length) 0

/-- The unit identifier as 16 bytes. -/
def State.uidBytes (s : State) : List Byte := bytesLE 16 s.uid

/-! ## The calibration set (R579, R580) -/

/-- The check of R580 that fails first: 1 magic, 2 format, 3 length, 4 UID, 5 CRC; 0 when the set is valid. -/
def State.calCheck (s : State) (d : List Byte) : Nat :=
  if recNat d 0 4 ≠ 0x43414C31 then 1
  else if recNat d 4 2 ≠ 1 then 2
  else if recNat d 6 2 ≠ 0x800 then 3
  else if (d.drop 8).take 16 ≠ s.uidBytes then 4
  else if crc32c 0xFFFFFFFF (padTo 0x7FC d) ≠ recNat d 0x7FC 4 then 5
  else 0

/-- Bharal reads the set in MRAM: single-bit errors are corrected, written back and counted; a word with an
uncorrectable error gives no data, and so no set (R28; DEDUCED, log 58). -/
def Run.calRead (r : Run s₀) : Run s₀ × Option (List Byte) :=
  let b := r.s.bhr
  let bad := b.calEcc.filter fun e => e.2 == .double
  let r := r.mapBhr fun b => { b with calEcc := bad, eccCount := b.eccCount + (b.calEcc.length - bad.length) }
  (r, if bad.isEmpty then some b.cal else none)

/-- Bharal checks the set in BOOT and after every write (R580); a set that cannot be read is not valid. -/
def Run.calJudge (r : Run s₀) : Run s₀ :=
  let (r, d) := r.calRead
  let k := r.s.calCheck (d.getD [])
  if k = 0 then r.wb Reg.bhrStat 28 true
  else ((r.wb Reg.bhrStat 28 false).flag Reg.bhrEvstat 3).log 0x0005 1 [k]

/-! ## The event recorder (R582 to R585) -/

/-- A record as its 64 bytes; data values take 4 bytes each. -/
def LogRec.bytes (x : LogRec) (seq : Nat) : List Byte :=
  let d := bytesLE 4 seq ++ bytesLE 4 x.opS ++ bytesLE 4 x.pcyc ++ bytesLE 8 x.ts ++ bytesLE 2 x.kind ++ bytesLE 1 x.sev
    ++ bytesLE 1 x.node ++ padTo 32 (wordsLE x.data)
  d ++ bytesLE 4 (crc32c 0xFFFFFFFF d) ++ bytesLE 4 0x56414C44

/-- The flag and the record of a requester's own record, kept until it is written (R608 LOGWRITE). -/
def Run.logFor (r : Run s₀) (kind : Nat) (data : List Nat) (who : BhrWho) : Run s₀ :=
  let r := r.log kind 0 data
  r.mapBhr fun b => { b with logQ := match b.logQ.reverse with
    | [] => []
    | x :: t => ({ x with who := some who } :: t).reverse }

/-! ## Completion of an operation or of a host command (R608) -/

/-- The mailbox words as bytes. -/
def State.mbx (s : State) : List Byte := wordsLE ((List.range 1024).map fun w => (s.rget (Reg.bhrMbx w)).toNat)

/-- Result words put into the mailbox. -/
def Run.mbxPut (r : Run s₀) (d : List Byte) : Run s₀ :=
  r.each (List.range (divUp d.length 4)) fun r w => r.wr (Reg.bhrMbx w) (recNat d (4 * w) 4)

/-- An operation or host command ends; class 0x10 sets `cfgerr`, except where `auth_fail` applies. -/
def Run.bhrFin (r : Run s₀) (w : BhrWho) (st : Status) (cause : Nat) (res : List Byte) : Run s₀ :=
  let r := r.when (st.isRefusal && !(w == .host && r.s.bhr.cmd == 6 && st == .denied)) fun r =>
    match w with
    | .host => r.flag Reg.bhrEvstat 12
    | .op id => match r.s.op id with
      | some o => if o.code = 6 ∧ st = .denied then r else r.flag Reg.bhrEvstat 12
      | none => r
  let r := r.mapBhr fun b => { b with running := if b.running = some w then none else b.running }
  match w with
  | .op id => match r.s.op id with
    | some o => if o.out.isSome then r else r.opFin o (if st = .ok then o.okSt else st) cause res
    | none => r
  | .host =>
    let r := (r.mbxPut res).mapBhr fun b => { b with cmd := 0 }
    (r.wr Reg.bhrCmd (st.code <<< 24 + cause <<< 16)).flag Reg.bhrEvstat 13

/-- A BHR operation acts: for operation `id`, or for the host command (`none`); one runs at a time, but for LOGREAD,
STATUS and SENSORS. -/
def Run.bhrRow (r : Run s₀) (id : Option Nat) (code : Nat) (act : Run s₀ → BhrWho → List Byte → Run s₀) : Run s₀ :=
  let busy := r.s.bhr.running.isSome && decide (3 < code)
  match id with
  | some i => r.opRow i 12 code fun r o => if busy then r.bhrFin (.op i) .busy 0 [] else act r (.op i) o.payload
  | none =>
    if r.s.bhr.cmd ≠ code then r
    else if r.s.bhr.running = some .host then r
    else if busy then r.bhrFin .host .busy 0 [] else act r .host r.s.mbx

/-- A write of BHR_CMD (R608). -/
def Run.writeBhrCmd (r : Run s₀) (v : Nat) : Run s₀ :=
  let c := v % 256
  if r.s.rb Reg.bhrCmd 15 || c == 0 || decide (15 < c) then r.flag Reg.bhrEvstat 12
  else (r.wb Reg.bhrCmd 15 true).mapBhr fun b => { b with cmd := c }

/-- LOG_RECORD_WRITE: the oldest queued record goes to its slot, at most 1,000 a second (R583, R584). -/
def execLogRecordWrite (s : State) : Out :=
  let r := Run.start s
  let ok := match s.bhr.logAt with | none => true | some t => decide (t + usCyc 1000 ≤ s.cyc)
  match s.bhr.logQ with
  | [] => r.done
  | x :: t =>
    if s.inReset || !ok then r.done
    else
      let n := s.bhr.nextSeq
      let r := r.mapBhr fun b =>
        let recs := tset none n (some { x with who := none }) b.recs
        let recs := if 1024 + 4096 ≤ n then tset none (n - 4096) none recs else recs
        { b with recs := recs, logQ := t, nextSeq := n + 1, logAt := some s.cyc }
      let r := r.flag Reg.bhrEvstat 2
      let r := match x.who with | some w => r.bhrFin w .ok 0 [] | none => r
      let k := r.s.bhr.logLost
      if k = 0 then r.done else ((r.mapBhr fun b => { b with logLost := 0 }).log 0x000D 1 [k]).done

/-! ## Sensors (R577, R578) -/

/-- The nominal of a supply monitor in mV: SM7 to SM11 at the level of the lowest bank of their group (R637, R638). -/
def State.smNominal (s : State) (j : Nat) : Nat :=
  let bank (b : Nat) : Nat := if s.rb Reg.pinBank b then 1800 else 3300
  match j with
  | 0 => 800 | 1 => 800 | 2 => 1200 | 3 => 900 | 4 => 1800 | 5 => 3300 | 6 => 3000
  | 7 => bank 0 | 8 => bank 3 | 9 => bank 6 | 10 => bank 7 | _ => bank 8

/-- A reading outside ±p % of a nominal. -/
def outside (x : Int) (nom p : Nat) : Bool := decide (x * 100 < (nom * (100 - p) : Nat) ∨ (nom * (100 + p) : Nat) < x * 100)

/-- A clock monitor's reading outside ±1 %; the Ethernet clock runs at 125 or 312.5 MHz (R30). -/
def cmBad (k : Nat) (x : Int) : Bool :=
  match k with
  | 0 => outside x 800000 1 | 1 => outside x 200000 1 | 2 => outside x 161133 1
  | 3 => outside x 125000 1 && outside x 312500 1 | 4 => outside x 250000 1 | _ => outside x 1600000 1

/-- A reading meets a fault condition, and a warning condition (R578), of sensor 0 to 7 TS, 8 to 19 SM, 20 to 25 CM. -/
def State.sensFault (s : State) (i : Nat) (x : Int) : Bool :=
  if i < 8 then decide (118 * 16 ≤ x)
  else if i < 20 then (if i = 14 then decide (x < 1600 ∨ 3600 < x) else outside x (s.smNominal (i - 8)) 8)
  else cmBad (i - 20) x
def State.sensWarn (s : State) (i : Nat) (x : Int) : Bool :=
  if i < 8 then decide ((s.rf Reg.bhrLimit 7 0 * 16 : Nat) ≤ x ∨ x < -640)
  else decide (i < 20) && outside x (s.smNominal (i - 8)) 4

/-- The filter time of a sensor in SYS cycles. -/
def sensFilter (i : Nat) : Nat := if i < 8 then usCyc 10000 else if i < 20 then usCyc 10 else 0

/-- A fault's action (R578). -/
def Run.sensAction (r : Run s₀) (i : Nat) : Run s₀ :=
  if i < 13 ∨ i = 20 ∨ i = 21 then r.mapBhr fun b => { b with holdReq := true }
  else if i = 25 ∧ (r.s.node = .start ∨ r.s.node = .normal) then r.nodeTo .recovery .sensor
  else r

/-- A condition's start is remembered; it has been entered once it has held for the filter time. -/
def condNext (cond : Bool) (since : Option Nat) (cyc filt : Nat) : Option Nat × Bool :=
  if cond then
    let t := since.getD cyc
    (some t, decide (t + filt ≤ cyc))
  else (none, false)

/-- SENSOR_SAMPLE: Bharal reads sensor i (TS in 2⁻⁴ °C, SM in mV, CM in kHz, 0 without an edge for 1 µs). -/
def execSensorSample (i : Nat) (x : Int) (s : State) : Out :=
  let r := Run.start s
  if s.inReset || decide (25 < i) then r.done
  else
    let r := if i < 8 then r.wr (Reg.bhrTemp i) (uNat 16 x)
      else if i < 20 then r.wr (Reg.bhrVolt (i - 8)) (uNat 16 x)
      else r.wr (Reg.bhrClk (i - 20)) (uNat 32 x)
    let r := if i < 8 then r.wb Reg.bhrSensstat (6 + i) (decide ((s.rf Reg.bhrLimit 7 0 * 16 : Nat) ≤ x)) else r
    let r := if i = 2 then r.wb Reg.meshDdrStat 8 (decide (85 * 16 < x)) else r
    let f := s.sensFault i x
    let q := tget {} i s.bhr.sensors
    let (fa, fIn) := condNext f q.faultAt s.cyc (sensFilter i)
    let (wa, wIn) := condNext (!f && s.sensWarn i x) q.warnAt s.cyc (sensFilter i)
    let r := r.mapBhr fun b => { b with
      sensors := tset {} i { faultAt := fa, fault := fIn, warnAt := wa, warn := wIn } b.sensors }
    let r := if 8 ≤ i then r.wb Reg.bhrSensstat (if i < 20 then 14 + (i - 8) else 26 + (i - 20)) fIn else r
    let r := if fIn && !q.fault then
        ((r.flag Reg.bhrEvstat 1).log 0x0006 2 [i, uNat 32 x, 2]).sensAction i
      else r
    (if wIn && !q.warn then (r.flag Reg.bhrEvstat 0).log 0x0006 1 [i, uNat 32 x, 1] else r).done

/-- SAFE_HOLD_ENTRY: an internal Chamois fault or a sensor fault takes the node to SAFE_HOLD (R35, R504, R578). -/
def execSafeHoldEntry (s : State) : Out :=
  let r := Run.start s
  let chm := s.chmInternal
  if (chm || s.bhr.holdReq) && s.node != .safeHold && !s.inReset then
    let r := r.mapBhr fun b => { b with holdReq := false }
    let r := (r.nodeTo .safeHold (if chm then .chamois else .sensor)).leHold
    (if s.chm.on then (r.chmOff false).chmOff true else r).done
  else r.done

/-- HEARTBEAT_SEND: every 10 ms from the end of BOOT (R576). -/
def execHeartbeatSend (s : State) : Out :=
  let r := Run.start s
  if s.node ≠ .boot ∧ !s.inReset ∧ s.chm.on ∧ s.chm.hbAt + usCyc 10000 ≤ s.cyc then r.chmHeartbeat.done else r.done

/-! ## Boot flash, slots and packages (R588 to R591, R595) -/

/-- The flash in bytes, and where a slot begins (R588). -/
def flashSize : Nat := Config.flashMiB * 2 ^ 20
def slotBase (b : Nat) : Nat := if b = 0 then 0 else flashSize / 2

/-- Bytes of the flash; erased bytes read 0xFF. -/
def State.flashBytes (s : State) (a n : Nat) : List Byte := (List.range n).map fun i => tget 0xFF (a + i) s.bhr.flash
def Run.flashPut (r : Run s₀) (a : Nat) : List Byte → Run s₀
  | [] => r
  | b :: t => (r.mapBhr fun x => { x with flash := tset 0xFF a b x.flash }).flashPut (a + 1) t

/-- A slot's record, and whether it has its valid mark and a correct CRC. -/
def State.slotRec (s : State) (b : Nat) : List Byte := s.flashBytes (slotBase b) 48
def State.recOk (s : State) (b : Nat) : Bool :=
  let d := s.slotRec b
  recNat d 44 4 == 0x56414C44 && crc32c 0xFFFFFFFF (d.take 40) == recNat d 40 4
def State.slotSeq (s : State) (b : Nat) : Nat := if s.recOk b then recNat (s.slotRec b) 4 4 else 0

/-- A package of a slot: the Chozia package (0) or the builder package (1). -/
def State.slotPkg (s : State) (b which : Nat) : List Byte :=
  let d := s.slotRec b
  s.flashBytes (slotBase b + recNat d (8 + 16 * which) 8) (recNat d (16 + 16 * which) 8)

/-- A slot record as its 48 bytes. -/
def slotRecBytes (seq oC lC oB lB : Nat) : List Byte :=
  let d := bytesLE 4 0x534C4F54 ++ bytesLE 4 seq ++ bytesLE 8 oC ++ bytesLE 8 lC ++ bytesLE 8 oB ++ bytesLE 8 lB
  d ++ bytesLE 4 (crc32c 0xFFFFFFFF d) ++ bytesLE 4 0x56414C44

/-- A slot's record gets another `slot_seq`. -/
def Run.slotSetSeq (r : Run s₀) (b seq : Nat) : Run s₀ :=
  let d := r.s.slotRec b
  r.flashPut (slotBase b) (slotRecBytes seq (recNat d 8 8) (recNat d 16 8) (recNat d 24 8) (recNat d 32 8))

/-- A slot's record is erased, so that the slot is not valid. -/
def Run.slotErase (r : Run s₀) (b : Nat) : Run s₀ := r.flashPut (slotBase b) (List.replicate 48 0xFF)

/-- Component i of a package: type, offset, length, and whether its reserved bytes are 0. -/
def pkgComp (p : List Byte) (i : Nat) : Nat × Nat × Nat × Bool :=
  let e := (p.drop (0x540 + 48 * i)).take 48
  (recNat e 0 4, recNat e 8 4, recNat e 12 4, recNat e 4 4 == 0)

/-- The component of a type. -/
def pkgFind (p : List Byte) (typ : Nat) : Option (List Byte) :=
  ((List.range (recNat p 0x1E 2)).find? fun i => (pkgComp p i).1 == typ).map fun i =>
    (p.drop (pkgComp p i).2.1).take (pkgComp p i).2.2.1

/-- The hash in a key slot; a slot of all zeros is empty (R590). -/
def State.keySlot (s : State) (k : Nat) : List Byte := if k < 4 then Config.chozKey k else tget [] k s.bhr.keys
def keyEmpty (h : List Byte) : Bool := h.all (· == 0)

/-- A USER component that R595 accepts: sections of at most 192 KiB that lie in it, no entry that SP_Tt_CFG refuses. -/
def userOk (d : List Byte) : Bool :=
  recNat d 0 4 == 0x55534552 &&
  (List.range 64).all (fun t => decide (bits (recNat d (8 + 8 * t) 4) 5 4 < 2)) &&
  (List.range 8).all (fun n =>
    decide (recNat d (520 + 8 * n + 4) 4 ≤ 192 * 1024) &&
    decide (recNat d (520 + 8 * n) 4 + recNat d (520 + 8 * n + 4) 4 ≤ d.length))

/-- The header, lengths and reserved bytes of a package are as R589 says. -/
def pkgFormat (p : List Byte) : Bool :=
  let n := recNat p 0x1E 2
  let len := recNat p 0x20 8
  let zero (a k : Nat) : Bool := ((p.drop a).take k).all (· == 0)
  recNat p 0 4 == 0x43485A50 && recNat p 4 2 == 1 && recNat p 6 2 == 512 && decide (1 ≤ n ∧ n ≤ 16) &&
  decide (0x840 ≤ len ∧ len ≤ p.length) && zero 0x4C 436 && zero 0x504 60 &&
  (List.range n).all (fun i =>
    let (_, o, l, z) := pkgComp p i
    z && o % 64 == 0 && decide (0x840 ≤ o ∧ o + l ≤ len)) &&
  (List.range 16).all (fun i => decide (i < n) || zero (0x540 + 48 * i) 48) &&
  (match pkgFind p 7 with | some d => userOk d | none => true)

/-- The types of a package's components, in order. -/
def pkgTypes (p : List Byte) : List Nat := (List.range (recNat p 0x1E 2)).map fun i => (pkgComp p i).1

/-- The contents match the kind of the key slot (R590). -/
def pkgContents (p : List Byte) : Bool :=
  let l := pkgTypes p
  if recNat p 0x1D 1 < 4 then l.length == 6 && [1, 2, 3, 4, 5, 6].all l.contains else l == [7]

/-- Component hashes are right. -/
def pkgHashes (p : List Byte) : Bool :=
  Config.sha256 ((p.drop 0x540).take 768) == (p.drop 0x28).take 32 &&
  (List.range (recNat p 0x1E 2)).all fun i =>
    let (_, o, l, _) := pkgComp p i
    Config.sha256 ((p.drop o).take l) == ((p.drop (0x540 + 48 * i + 16)).take 32)

/-- The checks of R591 in their order; `none` when the package is valid. -/
def State.pkgCheck (s : State) (p : List Byte) : Option (Status × Nat) :=
  let slot := recNat p 0x1D 1
  let key := (p.drop 0x380).take 388
  let bind := (p.drop 0xC).take 16
  if !pkgFormat p then some (.cfgerr, 0x10)
  else if recNat p 8 4 ≠ 0x489600A1 then some (.denied, 0x11)
  else if !bind.all (· == 0) && bind != s.uidBytes then some (.denied, 0x11)
  else if decide (7 < slot) || keyEmpty (s.keySlot slot) || Config.sha256 key != s.keySlot slot || !pkgContents p then
    some (.denied, 0x12)
  else if !Config.rsaVerify key (p.take 512) ((p.drop 0x200).take 384) then some (.denied, 0x13)
  else if 64 < recNat p 0x1C 1 ∨ recNat p 0x1C 1 < s.bhr.otpSv then some (.denied, 0x14)
  else if !pkgHashes p then some (.denied, 0x15)
  else none

/-- A package that fails is recorded (R591). `which` is 0 for the Chozia package. -/
def Run.imageFail (r : Run s₀) (slot which : Nat) (st : Status) (cause : Nat) : Run s₀ :=
  (r.flag Reg.bhrEvstat 6).log 0x0003 2 [slot, which, st.code, cause, 0]

/-- A package of kind `which` (0 Chozia, 1 builder) is checked, and its failure recorded. -/
def Run.pkgJudge (r : Run s₀) (slot which : Nat) (p : List Byte) : Run s₀ × Option (Status × Nat) :=
  let c := match r.s.pkgCheck p with
    | some x => some x
    | none => if (recNat p 0x1D 1 < 4) = (which = 0) then none else some (.denied, 0x12)
  match c with
  | none => (r, none)
  | some (st, cause) => (r.imageFail slot which st cause, some (st, cause))

/-- A slot is checked (R591, "Boot and load"): none when it is valid, else the first failure. -/
def Run.slotJudge (r : Run s₀) (b : Nat) : Run s₀ × Option (Status × Nat) :=
  if !r.s.recOk b ∨ r.s.bhr.badSlot = some b then (r, some (.cfgerr, 0x10))
  else
    let (r, c) := r.pkgJudge b 0 (r.s.slotPkg b 0)
    match c with
    | some x => (r, some x)
    | none => if recNat (r.s.slotRec b) 32 8 = 0 then (r, none) else r.pkgJudge b 1 (r.s.slotPkg b 1)

/-- A slot is valid as it stands. -/
def State.slotOk (s : State) (b : Nat) : Bool :=
  s.recOk b && (s.pkgCheck (s.slotPkg b 0)).isNone && decide (recNat (s.slotPkg b 0) 0x1D 1 < 4) &&
  (recNat (s.slotRec b) 32 8 == 0 || ((s.pkgCheck (s.slotPkg b 1)).isNone && decide (4 ≤ recNat (s.slotPkg b 1) 0x1D 1)))

/-- Security versions and build numbers of a slot's packages, 0 for none. -/
def State.slotVersions (s : State) (b : Nat) : List Nat :=
  let v (w : Nat) : List Nat :=
    if recNat (s.slotRec b) (16 + 16 * w) 8 = 0 then [0, 0]
    else [recNat (s.slotPkg b w) 0x1C 1, recNat (s.slotPkg b w) 0x48 4]
  match v 0, v 1 with
  | [a, x], [c, y] => [a, c, x, y]
  | _, _ => []

/-- The slot booted, and the slot that may be written: the other one, or A under Fawn (R601). -/
def State.fawn (s : State) : Bool := s.rb Reg.bhrStat 27
def State.bootSlot (s : State) : Nat := s.rf Reg.bhrBoot 31 31
def State.spareSlot (s : State) : Nat := if s.fawn then 0 else 1 - s.bootSlot

/-- A slot is activated: `slot_seq` one above the other slot's, a trial count of 0, not yet confirmed (R608). -/
def Run.slotActivate (r : Run s₀) (b : Nat) : Run s₀ :=
  let r := r.slotSetSeq b (r.s.slotSeq (1 - b) + 1)
  r.mapBhr fun x => { x with trials := tset 0 b 0 x.trials, confirmed := tset false b false x.confirmed }

/-! ## BOOT and LOAD (R593, R594, R597) -/

/-- The preferred slot: the valid record with the higher `slot_seq` (R593). -/
def State.preferred (s : State) : Nat :=
  match s.recOk 0, s.recOk 1 with
  | true, true => if s.slotSeq 0 < s.slotSeq 1 then 1 else 0
  | false, true => 1
  | _, _ => 0

/-- A BOOT record (R586). -/
def Run.bootRecord (r : Run s₀) (slot : Nat) (versions : List Nat) : Run s₀ :=
  r.log 0x0002 0 (slot :: versions ++ [r.s.bhr.otpSv])

/-- Neither slot is valid: Fawn runs in RECOVERY and brings up the Herd ports (R597). -/
def Run.fawnStart (r : Run s₀) : Run s₀ :=
  let r := ((r.mapBhr fun x => { x with badSlot := none }).wb Reg.bhrStat 27 true).bootRecord 0xFF [0, 0, 0, 0]
  (r.nodeTo .recovery .noImage).herdStart

/-- The node boots from a slot (R593): trial count, `fallback`, BHR_BOOT, the BOOT record, LOAD. -/
def Run.bootFrom (r : Run s₀) (b pref cause : Nat) : Run s₀ :=
  let x := r.s.bhr
  let conf := tget false b x.confirmed
  let trial := tget 0 b x.trials + (if b = pref ∧ !conf then 1 else 0)
  let r := r.mapBhr fun x => { x with trials := tset 0 b trial x.trials, badSlot := none }
  let fb := decide (b ≠ pref)
  let r := r.wr Reg.bhrBoot (b <<< 31 + b2n fb <<< 30 + b2n conf <<< 29 + min trial 3 <<< 16 + (if fb then cause else 0))
  let r := r.when fb fun r => r.flag Reg.bhrEvstat 5
  (r.bootRecord b (r.s.slotVersions b)).nodeTo .load .imagesOk

/-- BOOT_DONE: the slot is chosen (R593). -/
def execBootDone (s : State) : Out :=
  let r := Run.start s
  if s.node ≠ .boot ∨ s.inReset then r.done
  else
    let pref := s.preferred
    let first := if !(tget false pref s.bhr.confirmed) && decide (3 ≤ tget 0 pref s.bhr.trials) then 1 - pref else pref
    let (r, c) := r.slotJudge first
    match c with
    | none => (r.bootFrom first pref 0).done
    | some (_, cause) =>
      let (r, c) := r.slotJudge (1 - first)
      (match c with
       | none => r.bootFrom (1 - first) pref cause
       | some _ => r.fawnStart).done

/-- Bytes copied into an SP instruction memory over Mesh port 14 (R594). -/
def Run.imemLoad (r : Run s₀) (n off : Nat) (d : List Byte) : Run s₀ :=
  (r.memWrite 14 (0x3400000 + n * 0x40000 + off) d).1

/-- The DDR4 part of LOAD: the board record's devices and the outcome of training (R557, R558). The record of a failure
tells a size that is not supported (1) from a training that has failed (2) (DESIGN CHOICE, log 49). -/
def Run.ddrLoad (r : Run s₀) (x : DdrBoard) : Run s₀ :=
  if !x.fitted then r
  else if (x.twoRanks && decide (x.density = 2)) || !x.trained then
    (r.flag Reg.bhrEvstat 7).log 0x000F 2 [if x.twoRanks && decide (x.density = 2) then 1 else 2]
  else
    let gib := 4 <<< (x.density % 3) * (if x.twoRanks then 2 else 1)
    (r.wr Reg.meshDdrCfg (2 ^ 31 + (x.density % 3) <<< 8 + b2n x.twoRanks <<< 5 + gib)).wr Reg.meshDdrTim
      ((x.tRc % 65536) <<< 16 + x.tRfc % 65536)

/-- The USER component: code sections and the thread table (R594, R595). -/
def Run.userLoad (r : Run s₀) (d : List Byte) : Run s₀ :=
  let r := r.each (List.range 8) fun r n =>
    r.imemLoad n 0 ((d.drop (recNat d (520 + 8 * n) 4)).take (recNat d (520 + 8 * n + 4) 4))
  r.each (List.range 64) fun r t =>
    (r.wr (Reg.spTCfg t) (recNat d (8 + 8 * t) 4 &&& 0x80000F33)).wr (Reg.spTEntry t) (recNat d (12 + 8 * t) 4 &&& 0x3FFFC)

/-- LOAD_DONE: the components are in place and the node enters START (R594), or a hash mismatch causes a cold reset. -/
def execLoadDone (mismatch : Bool) (ddr : DdrBoard) (s : State) : Out :=
  let r := Run.start s
  if s.node ≠ .load ∨ s.inReset then r.done
  else
    let b := s.bootSlot
    if mismatch then ((r.mapBhr fun x => { x with badSlot := some b }).coldReset 4).done
    else
      let r := r.chmBoot
      let r := match pkgFind (r.s.slotPkg b 0) 6 with
        | some d => r.each (List.range 8) fun r n => r.imemLoad n 0x30000 (d.take 0x10000)
        | none => r
      let user := if recNat (r.s.slotRec b) 32 8 = 0 then none else pkgFind (r.s.slotPkg b 1) 7
      let r := match user with | some d => r.userLoad d | none => r
      let r := (r.ddrLoad ddr).nodeTo .start .loaded
      r.autostart.done

/-- START_TIMEOUT: NORMAL has not been reached `start_s` seconds after START began (R624). -/
def execStartTimeout (s : State) : Out :=
  let r := Run.start s
  if s.node = .start ∧ s.bhr.startAt + s.rf Reg.pwrCfg 7 0 * 800000000 ≤ s.cyc then (r.nodeTo .recovery .noLock).done
  else r.done

/-! ## Operations on the log, the set, keys and states (R605 to R608) -/

/-- STATUS: 64 bytes. -/
def Run.actBhrStatus (r : Run s₀) (w : BhrWho) (_ : List Byte) : Run s₀ :=
  let s := r.s
  let otp := s.bhr.otpSv + ((List.range 8).map fun k => b2n (!keyEmpty (s.keySlot k)) <<< (8 + k)).sum
  r.bhrFin w .ok 0 (padTo 64 (wordsLE ([(s.rget Reg.bhrStat).toNat, (s.rget Reg.bhrBoot).toNat, otp, s.slotSeq 0, s.slotSeq 1]
    ++ (if s.fawn then [] else s.slotVersions s.bootSlot))))

/-- SENSORS: 27 words. -/
def Run.actBhrSensors (r : Run s₀) (w : BhrWho) (_ : List Byte) : Run s₀ :=
  let g (a : Nat) : Nat := (r.s.rget a).toNat
  r.bhrFin w .ok 0 (wordsLE ((List.range 8).map (fun i => g (Reg.bhrTemp i)) ++ (List.range 12).map (fun i => g (Reg.bhrVolt i))
    ++ (List.range 6).map (fun i => g (Reg.bhrClk i)) ++ [g Reg.bhrSensstat]))

/-- LOGREAD: the records whose `seq` lies in the range (R585). -/
def Run.actLogread (r : Run s₀) (w : BhrWho) (d : List Byte) : Run s₀ :=
  let first := recNat d 0 4
  let n := recNat d 4 2
  if 64 < n then r.bhrFin w .cfgerr 0x10 []
  else if n = 0 then r.bhrFin w .empty 0 []
  else r.bhrFin w .ok 0 ((List.range n).flatMap fun i =>
    match tget none (first + i) r.s.bhr.recs with
    | some x => x.bytes (first + i)
    | none => [])

/-- LOGWRITE: OK once the record is written. -/
def Run.actLogwrite (r : Run s₀) (w : BhrWho) (d : List Byte) : Run s₀ :=
  let kind := recNat d 0 2
  if kind < 0x100 ∨ 0x1FF < kind then r.bhrFin w .cfgerr 0 []
  else if 64 ≤ r.s.bhr.logQ.length then r.bhrFin w .overload 0 []
  else
    let r := (r.mapBhr fun b => { b with running := some w }).logFor kind ((List.range 8).map fun i => recNat d (8 + 4 * i) 4) w
    match w with
    | .op id => match r.s.op id with | some o => r.opAct o | none => r
    | .host => r

/-- CHALLENGE: a fresh nonce, valid for 10 min (R605). -/
def Run.actChallenge (r : Run s₀) (w : BhrWho) (_ : List Byte) : Run s₀ :=
  let n := bytesLE 16 r.s.freeVal
  let r := r.drawn.mapBhr fun b => { b with nonce := some (n, r.s.cyc + 600 * 800000000) }
  r.bhrFin w .ok 0 (n ++ r.s.uidBytes)

/-- NONCE_EXPIRY (R605). -/
def execNonceExpiry (s : State) : Out :=
  let r := Run.start s
  match s.bhr.nonce with
  | some (_, t) => if t ≤ s.cyc then (r.mapBhr fun b => { b with nonce := none }).done else r.done
  | none => r.done

/-- The outcome of AUTH (R606). -/
def State.authOutcome (s : State) (d : List Byte) : Status × Nat :=
  let tok := d.take 64
  let key := (d.drop 64).take 388
  let kind := recNat tok 4 1
  let slot := recNat tok 5 1
  let lvl := recNat tok 6 1
  let recent := s.bhr.fails.filter fun t => decide (s.cyc < t + 3600 * 800000000)
  if 5 ≤ recent.length then (.denied, 0x1A)
  else if recNat tok 0 4 != 0x41555448 || !(kind == 1 || kind == 2) || recNat tok 7 1 != 0
      || !((tok.drop 40).all (· == 0)) then (.cfgerr, 0x10)
  else if (tok.drop 8).take 16 ≠ s.uidBytes then (.denied, 0x11)
  else if s.bhr.nonce.map (·.1) ≠ some ((tok.drop 24).take 16) then (.denied, 0x17)
  else if decide (slot < 4) || decide (7 < slot) || keyEmpty (s.keySlot slot) || Config.sha256 key != s.keySlot slot then
    (.denied, 0x12)
  else if !Config.rsaVerify key tok ((d.drop 452).take 384) then (.denied, 0x13)
  else if kind = 2 ∧ s.node ≠ .test then (.refused, 0x18)
  else if kind = 2 ∧ lvl ≠ 1 ∧ lvl ≠ 2 then (.cfgerr, 0x10)
  else (.ok, 0)

/-- AUTH: the nonce is consumed, the outcome recorded, the action carried out (R587, R606, R607). -/
def Run.actAuth (r : Run s₀) (w : BhrWho) (d : List Byte) : Run s₀ :=
  let (st, cause) := r.s.authOutcome d
  let kind := recNat d 4 1
  let slot := recNat d 5 1
  let r := r.mapBhr fun b => { b with
    nonce := none
    fails := if st = .ok then b.fails else (r.s.cyc :: b.fails).take 5 }
  let r := r.log 0x000A (if st = .ok then 0 else 1) [kind, st.code, slot]
  let r := r.when (st == .denied) fun r => r.flag Reg.bhrEvstat 9
  let r := if st ≠ .ok then r
    else if kind = 1 then
      let n := (r.s.bhr.recs.filter fun e => decide (1024 ≤ e.1)).length
      let r := r.mapBhr fun b => { b with recs := b.recs.filter fun e => decide (e.1 < 1024) }
      (r.flag Reg.bhrEvstat 11).log 0x0009 0 [n, slot]
    else (r.wf Reg.bhrStat 26 25 (recNat d 6 1)).flag Reg.bhrEvstat 10
  r.bhrFin w st cause []

/-- CALREAD: the set as stored; FAULT where a word of it cannot be read (R28). -/
def Run.actCalread (r : Run s₀) (w : BhrWho) (_ : List Byte) : Run s₀ :=
  let (r, d) := r.calRead
  match d with
  | some l => r.bhrFin w .ok 0 (padTo 2048 l)
  | none => r.bhrFin w .fault 0 []

/-- CALWRITE (R581): in TEST only; the set is checked before it is written and once more when read back. -/
def Run.actCalwrite (r : Run s₀) (w : BhrWho) (d : List Byte) : Run s₀ :=
  let set := padTo 2048 (d.drop 8)
  if r.s.node ≠ .test then r.bhrFin w .refused 0x18 []
  else if r.s.calCheck set ≠ 0 ∨ recNat set 0x7FC 4 ≠ recNat d 0 4 then r.bhrFin w .cfgerr 0x10 []
  else
    let old := recNat r.s.bhr.cal 0x7FC 4
    let r := (r.mapBhr fun b => { b with cal := set, calEcc := [] }).calJudge
    ((r.flag Reg.bhrEvstat 4).log 0x0004 0 [old, recNat set 0x7FC 4]).bhrFin w .ok 0 []

/-- SVBUMP (R592). -/
def Run.actSvbump (r : Run s₀) (w : BhrWho) (d : List Byte) : Run s₀ :=
  let v := recNat d 0 1
  let old := r.s.bhr.otpSv
  let b := r.s.bootSlot
  if 64 < v then r.bhrFin w .cfgerr 0 []
  else if v ≤ old then r.bhrFin w .empty 0 []
  else if recNat (r.s.slotPkg b 0) 0x1C 1 < v ∨
      (recNat (r.s.slotRec b) 32 8 ≠ 0 ∧ recNat (r.s.slotPkg b 1) 0x1C 1 < v) then r.bhrFin w .refused 0 []
  else ((r.mapBhr fun x => { x with otpSv := v }).log 0x000C 0 [old, v]).bhrFin w .ok 0 []

/-- KEYPROG: a builder key slot is written in TEST (R608). -/
def Run.actKeyprog (r : Run s₀) (w : BhrWho) (d : List Byte) : Run s₀ :=
  let k := recNat d 0 1
  if r.s.node ≠ .test then r.bhrFin w .refused 0x18 []
  else if k < 4 ∨ 7 < k then r.bhrFin w .cfgerr 0 []
  else if !keyEmpty (r.s.keySlot k) then r.bhrFin w .refused 0 []
  else (r.mapBhr fun b => { b with keys := tset [] k ((d.drop 8).take 32) b.keys }).bhrFin w .ok 0 []

/-- The cause of RECOVERY has been removed: the set is valid, the TB PLL locked, the DDR clock good. -/
def State.causeRemoved (s : State) : Bool :=
  s.rb Reg.bhrStat 28 && s.rb Reg.timeStat 31 && !(tget {} 25 s.bhr.sensors).fault

/-- STATE: transitions of R35 by command (R608). -/
def Run.actState (r : Run s₀) (w : BhrWho) (d : List Byte) : Run s₀ :=
  let n := r.s.node
  match recNat d 0 1 with
  | 1 =>
    if n = .normal ∨ (n = .recovery ∧ !r.s.fawn) then (r.nodeTo .test .command).bhrFin w .ok 0 []
    else r.bhrFin w .refused 0x18 []
  | 2 =>
    if r.s.rf Reg.bhrStat 26 25 = 0 ∧ (n = .test ∨ (n = .recovery ∧ !r.s.fawn ∧ r.s.causeRemoved)) then
      (r.nodeTo .start .command).bhrFin w .ok 0 []
    else r.bhrFin w .refused 0x18 []
  | _ => r.bhrFin w .refused 0x18 []

/-- ACTIVATE; `failed`: a flash program or erase error, after which the record stands as before (R608, log 62). -/
def Run.actActivate (failed : Bool) (r : Run s₀) (w : BhrWho) (d : List Byte) : Run s₀ :=
  let b := recNat d 0 1
  if 1 < b then r.bhrFin w .cfgerr 0 []
  else if !r.s.slotOk b then r.bhrFin w .refused 0 []
  else if r.s.preferred = b then r.bhrFin w .empty 0 []
  else if failed then r.bhrFin w .fault 0x19 []
  else (r.slotActivate b).bhrFin w .ok 0 []

def execBhrStatus (id : Option Nat) (s : State) : Out := ((Run.start s).bhrRow id 1 Run.actBhrStatus).done
def execBhrSensors (id : Option Nat) (s : State) : Out := ((Run.start s).bhrRow id 2 Run.actBhrSensors).done
def execBhrLogread (id : Option Nat) (s : State) : Out := ((Run.start s).bhrRow id 3 Run.actLogread).done
def execBhrLogwrite (id : Option Nat) (s : State) : Out := ((Run.start s).bhrRow id 4 Run.actLogwrite).done
def execBhrChallenge (id : Option Nat) (s : State) : Out := ((Run.start s).bhrRow id 5 Run.actChallenge).done
def execBhrAuth (id : Option Nat) (s : State) : Out := ((Run.start s).bhrRow id 6 Run.actAuth).done
def execBhrCalread (id : Option Nat) (s : State) : Out := ((Run.start s).bhrRow id 7 Run.actCalread).done
def execBhrCalwrite (id : Option Nat) (s : State) : Out := ((Run.start s).bhrRow id 8 Run.actCalwrite).done
def execBhrActivate (x : SlotAsk) (s : State) : Out := ((Run.start s).bhrRow x.id 10 (Run.actActivate x.failed)).done
def execBhrSvbump (id : Option Nat) (s : State) : Out := ((Run.start s).bhrRow id 13 Run.actSvbump).done
def execBhrKeyprog (id : Option Nat) (s : State) : Out := ((Run.start s).bhrRow id 14 Run.actKeyprog).done
def execBhrState (id : Option Nat) (s : State) : Out := ((Run.start s).bhrRow id 15 Run.actState).done

end Sys2Proof.Machine
end

