-- ==== Sys2Proof/Machine/Camp.lean ====
section
/-!
DEFINITION. Update campaigns and INSTALL (16_ibex.md, R597 to R604, R608): bundles, receive sessions, transfers to the
neighbours, reports to the origin. Payloads are big-endian.
-/
namespace Sys2Proof.Machine

variable {s₀ : State}

/-! ## Bundles (R591, R601) -/

/-- The largest bundle that a slot takes (R600), of a flash of `f` bytes and of the one fitted. -/
def roomOf (f : Nat) : Nat := f / 2 - 4096
def slotRoom : Nat := roomOf flashSize

/-- The packages of a bundle, with the offset of each: the second starts at the next multiple of 64 bytes. -/
def bundleSplit (d : List Byte) : List (Nat × List Byte) :=
  let n := recNat d 0x20 8
  let o := (n + 63) / 64 * 64
  (0, d.take n) :: (if n ≠ 0 ∧ o < d.length then [(o, (d.drop o).take (recNat (d.drop o) 0x20 8))] else [])

/-- A package is a Chozia package (0) or a builder package (1). -/
def pkgKind (p : List Byte) : Nat := if recNat p 0x1D 1 < 4 then 0 else 1

/-- The package of a kind that the bundle lacks, as the slot booted from holds it; Fawn has booted from none. -/
def State.missingPkg (s : State) (which : Nat) : Option (List Byte) :=
  if s.fawn ∨ recNat (s.slotRec s.bootSlot) (16 + 16 * which) 8 = 0 then none else some (s.slotPkg s.bootSlot which)

/-- The contents of the slot after its record, and offset and length of the Chozia and of the builder package in it. -/
structure SlotPlan where
  data : List Byte
  oC : Nat
  lC : Nat
  oB : Nat
  lB : Nat

/-- What a bundle makes of a slot (R601). -/
def State.slotPlan (s : State) (d : List Byte) : SlotPlan :=
  let l := bundleSplit d
  let find (k : Nat) : Option (Nat × Nat) := (l.find? fun e => pkgKind e.2 == k).map fun e => (e.1, e.2.length)
  let o := (d.length + 63) / 64 * 64
  match find 0, find 1 with
  | some c, some b => ⟨d, c.1, c.2, b.1, b.2⟩
  | some c, none => match s.missingPkg 1 with
    | some p => ⟨padTo o d ++ p, c.1, c.2, o, p.length⟩
    | none => ⟨d, c.1, c.2, 0, 0⟩
  | none, some b => match s.missingPkg 0 with
    | some p => ⟨padTo o d ++ p, o, p.length, b.1, b.2⟩
    | none => ⟨d, 0, 0, b.1, b.2⟩
  | none, none => ⟨d, 0, 0, 0, 0⟩

/-- Each package of a bundle is checked, then the copied one, then that the whole fits: the first failure (R601). -/
def Run.bundleJudge (r : Run s₀) (slot : Nat) (d : List Byte) : Run s₀ × Option (Status × Nat) :=
  let l := (bundleSplit d).map (·.2)
  let kinds := l.map pkgKind
  let copies := ([0, 1].filter fun k => !kinds.contains k).filterMap r.s.missingPkg
  let go (a : Run s₀ × Option (Status × Nat)) (p : List Byte) : Run s₀ × Option (Status × Nat) :=
    match a.2 with
    | some _ => a
    | none => a.1.pkgJudge slot (pkgKind p) p
  match (l ++ copies).foldl go (r, none) with
  | (r, some x) => (r, some x)
  | (r, none) =>
    let plan := r.s.slotPlan d
    if plan.lC = 0 ∨ kinds = [0, 0] ∨ kinds = [1, 1] then (r.imageFail slot 0 .cfgerr 0x10, some (.cfgerr, 0x10))
    else if slotRoom < plan.data.length then (r, some (.overload, 0))
    else (r, none)

/-- The slot gets its contents and its record with `slot_seq` 0; with `activate` it is activated. Fawn gives slot A a
`slot_seq` one above that of slot B, records BOOT and asks for a cold reset (R597, R601). -/
def Run.slotWrite (r : Run s₀) (b : Nat) (d : List Byte) (activate : Bool) : Run s₀ :=
  let x := r.s.slotPlan d
  let r := (r.flashPut (slotBase b + 4096) x.data).flashPut (slotBase b)
    (slotRecBytes 0 (if x.lC = 0 then 0 else 4096 + x.oC) x.lC (if x.lB = 0 then 0 else 4096 + x.oB) x.lB)
  if r.s.fawn then
    let r := r.slotSetSeq 0 (r.s.slotSeq 1 + 1)
    (r.bootRecord 0 (r.s.slotVersions 0)).mapBhr fun y => { y with resetReq := true }
  else r.when activate fun r => r.slotActivate b

/-! ## INSTALL (R604, R608) -/

/-- INSTALL acts: the bundle is checked, and the writing of the inactive slot begins. -/
def Run.actInstall (r : Run s₀) (w : BhrWho) (d : List Byte) : Run s₀ :=
  let a := recNat d 0 8
  let n := recNat d 8 8
  if r.s.bhr.camp.isSome then r.bhrFin w .refused 0x16 []
  else if n = 0 then r.bhrFin w .empty 0 []
  else if slotRoom < n then r.bhrFin w .overload 0 []
  else match (if 2 ^ 40 ≤ a then (r, Status.fault, []) else r.memRead 14 a n) with
    | (r, .ok, x) =>
      let slot := r.s.spareSlot
      (match r.bundleJudge slot x with
       | (r, some (st, cause)) => r.bhrFin w st cause []
       | (r, none) =>
         let r := (r.slotErase slot).mapBhr fun b => { b with
           running := some w, install := some ⟨w, slot, bit (recNat d 16 1) 0, x⟩, holds := none }
         match w with
         | .op id => match r.s.op id with | some o => r.opAct o | none => r
         | .host => r)
    | (r, _, _) => r.bhrFin w .fault 0 []

/-- BHR_INSTALL. -/
def execBhrInstall (id : Option Nat) (s : State) : Out := ((Run.start s).bhrRow id 9 Run.actInstall).done

/-- INSTALL_WRITE_END: the slot is written, or its programming has failed (R608). -/
def execInstallWriteEnd (failed : Bool) (s : State) : Out :=
  let r := Run.start s
  match s.bhr.install with
  | none => r.done
  | some x =>
    let r := r.mapBhr fun b => { b with install := none }
    (if failed then r.bhrFin x.who .fault 0x19 [] else (r.slotWrite x.slot x.data x.activate).bhrFin x.who .ok 0 []).done

/-- `hcan` ends a running INSTALL with ABORTED, CANCEL; its slot stays not valid (R608). -/
def Run.bhrCancel (r : Run s₀) (o : Op) : Run s₀ :=
  match r.s.bhr.install with
  | some x => if x.who = .op o.id then (r.mapBhr fun b => { b with install := none }).bhrFin x.who .aborted 0x01 [] else r
  | none => r

/-! ## Frames (R598) -/

def beAt (d : List Byte) (o n : Nat) : Nat := ofBytesBE ((d.drop o).take n)

/-- ANNOUNCE and OFFER as read and as sent. -/
def campOf (d : List Byte) : Camp :=
  { id := beAt d 4 4, t0 := beAt d 8 8, origin := beAt d 16 2, sv := beAt d 18 1, activate := bit (beAt d 19 1) 0,
    hash := (d.drop 20).take 32, len := beAt d 52 8 }
def Camp.frame (c : Camp) (kind : Nat) : List Byte :=
  bytesBE 1 kind ++ bytesBE 3 0 ++ bytesBE 4 c.id ++ bytesBE 8 c.t0 ++ bytesBE 2 c.origin ++ bytesBE 1 c.sv
    ++ bytesBE 1 (b2n c.activate) ++ c.hash ++ bytesBE 8 c.len

/-- ANSWER, ACK, CLOSE. -/
def answerFrame (st : Status) (cause id : Nat) : List Byte :=
  bytesBE 1 0x12 ++ bytesBE 1 st.code ++ bytesBE 1 cause ++ bytesBE 1 0 ++ bytesBE 4 id
def ackFrame (id next : Nat) : List Byte := bytesBE 1 0x14 ++ bytesBE 3 0 ++ bytesBE 4 id ++ bytesBE 8 next
def closeFrame (id : Nat) : List Byte := bytesBE 1 0x17 ++ bytesBE 3 0 ++ bytesBE 4 id

/-- DONE and REPORT: status, cause, campaign, UID and node ID. -/
def outcomeFrame (kind : Nat) (st : Nat) (cause id : Nat) (uid : List Byte) (node : Nat) : List Byte :=
  bytesBE 1 kind ++ bytesBE 1 st ++ bytesBE 1 cause ++ bytesBE 1 0 ++ bytesBE 4 id ++ uid ++ bytesBE 2 node

/-- The UID as the wire carries it. -/
def uidWire (words : List Nat) : List Byte := (wordsLE words).reverse

/-- The campaign running at the node, when its ID is `id`. -/
def State.campIs (s : State) (id : Nat) : Option Camp := s.bhr.camp.filter fun c => c.id == id

/-! ## The campaign at a node (R599, R603) -/

/-- The node adopts a campaign. -/
def Run.adopt (r : Run s₀) (c : Camp) (own : Bool) : Run s₀ :=
  let r := r.mapBhr fun b => { b with camp := some { c with adoptedAt := r.s.cyc } }
  let rx := b2n r.s.bhr.rx.isSome
  ((r.wr Reg.bhrCamp (2 ^ 31 + rx <<< 30 + b2n own <<< 29 + c.origin % 65536)).wr Reg.bhrCampId c.id).flag Reg.bhrEvstat 8

/-- The end of a receive session with its record. -/
def Run.rxEnd (r : Run s₀) (x : CampRx) (id : Nat) (st : Status) : Run s₀ :=
  let r := (r.mapBhr fun b => { b with rx := none }).campRecord id 1 x.port st
  (r.wb Reg.bhrCamp 30 false).flag Reg.bhrEvstat 8

/-- The campaign ends at the node, and with it the sessions that carry it. -/
def Run.campEnd (r : Run s₀) : Run s₀ :=
  let id := (r.s.bhr.camp.map (·.id)).getD 0
  let r := match r.s.bhr.rx with | some x => r.rxEnd x id .aborted | none => r
  let r := match r.s.bhr.tx with
    | some t => r.when t.running fun r => r.campRecord id 0 t.port .aborted
    | none => r
  let r := r.mapBhr fun b => { b with camp := none, tx := none, offers := [], own := none }
  ((r.wb Reg.bhrCamp 31 false).wb Reg.bhrCamp 29 false).flag Reg.bhrEvstat 8

/-- The status with which CAMPAIGN completes (R608). -/
def CampOwn.outcome (o : CampOwn) : Status :=
  if o.reports.length < o.expect then .timeout
  else if o.reports.all fun x => decide (recNat x 0 1 ≤ 1) then
    (if o.cap < o.reports.length then .trunc else .ok)
  else .lost

/-- The origin closes its campaign: CLOSE is broadcast, the reports are stored, the operation completes (R603). -/
def Run.campClose (r : Run s₀) : Run s₀ :=
  match r.s.bhr.camp, r.s.bhr.own with
  | some c, some o =>
    let r := (r.originate 5 0xFFFF 3 (closeFrame c.id)).campEnd
    let d := (o.reports.take o.cap).flatMap id
    let (r, st) := if d.isEmpty then (r, Status.ok) else if 2 ^ 40 ≤ o.area then (r, Status.fault) else r.memWrite 14 o.area d
    if st = .ok then r.bhrFin o.who o.outcome 0 [] else r.bhrFin o.who .lost 6 []
  | _, _ => r.campEnd

/-! ## Transfers to the neighbours (R601, R602) -/

/-- The bundle that the node holds: the contents of the slot that it did not boot from. -/
def State.bundleBytes (s : State) (o n : Nat) : List Byte := s.flashBytes (slotBase s.spareSlot + 4096 + o) n

/-- The next DATA frame goes out, while fewer than 16 are unacknowledged. -/
def Run.sendData (r : Run s₀) (c : Camp) : Run s₀ :=
  match r.s.bhr.tx with
  | none => r
  | some t =>
    if t.sent < c.len ∧ divUp (t.sent - t.acked) 2000 < 16 then
      let n := min 2000 (c.len - t.sent)
      let r := r.linkLocal t.port (bytesBE 1 0x13 ++ bytesBE 3 0 ++ bytesBE 4 c.id ++ bytesBE 8 t.sent ++ r.s.bundleBytes t.sent n)
      r.mapBhr fun b => { b with tx := some { t with sent := t.sent + n } }
    else r
def Run.sendWindow (r : Run s₀) (c : Camp) : Run s₀ := r.each (List.range 16) fun r _ => r.sendData c

/-- The next neighbour is offered the bundle, one transfer at a time. -/
def Run.campNext (r : Run s₀) : Run s₀ :=
  let b := r.s.bhr
  match b.camp, b.tx with
  | some c, none =>
    (match b.offers.find? fun o => decide (o.notBefore ≤ r.s.cyc) with
     | none => r
     | some o =>
       (r.mapBhr fun b => { b with tx := some { port := o.port, ackAt := r.s.cyc } }).linkLocal o.port (c.frame 0x11))
  | _, _ => r

/-- The node holds the bundle and forwards it on its UP and DOWN ports but one, in ascending order (R602). -/
def Run.forward (r : Run s₀) (except : Option Nat) : Run s₀ :=
  let l := (List.range 4).filter fun p => some p != except && (r.s.hrole p == 1 || r.s.hrole p == 2)
  (r.mapBhr fun b => { b with offers := l.map fun p => { port := p } }).campNext

/-- A report reaches the origin; with `expect` of them the campaign closes (R603). -/
def Run.reportIn (r : Run s₀) (d : List Byte) : Run s₀ :=
  match r.s.bhr.own with
  | none => r
  | some o =>
    -- the entry leaves out the reserved byte 3
    let e := padTo 24 ((d.drop 1).take 2 ++ (d.drop 4).take 22)
    let o := { o with reports := o.reports ++ [e] }
    let r := r.mapBhr fun b => { b with own := some o }
    if o.reports.length = o.expect then r.campClose else r

/-- The final outcome of a neighbour: the transfer ends, its REPORT goes to the origin, the next is offered (R602). -/
def Run.txEnd (r : Run s₀) (c : Camp) (t : CampTx) (st : Status) (cause : Nat) (uid : List Byte) (node : Nat) : Run s₀ :=
  let r := r.when t.running fun r => (r.campRecord c.id 0 t.port st).flag Reg.bhrEvstat 8
  let r := r.mapBhr fun b => { b with tx := none, offers := b.offers.filter fun o => o.port != t.port }
  let d := outcomeFrame 0x16 st.code cause c.id uid node
  let r := if r.s.bhr.own.isSome then r.reportIn d else r.originate 5 c.origin 3 d
  r.campNext

/-- The same with what HELLO says of the neighbour. -/
def Run.txEndNbr (r : Run s₀) (c : Camp) (t : CampTx) (st : Status) (cause : Nat) : Run s₀ :=
  r.txEnd c t st cause (uidWire (r.s.nbrUid t.port)) ((((r.s.hport t.port).nbr).map (·.id)).getD 0)

/-! ## Received frames -/

/-- The node takes part in campaigns: Bharal runs its firmware. -/
def State.campAble (s : State) : Bool := !s.inReset && s.node != .boot && s.node != .load

/-- ANNOUNCE (R599). -/
def Run.announce (r : Run s₀) (d : List Byte) : Run s₀ :=
  if r.s.campAble && r.s.bhr.camp.isNone then r.adopt (campOf d) false else r
def execAnnounce (d : List Byte) (s : State) : Out := ((Run.start s).announce d).done

/-- The answer to an OFFER (R600, R604). -/
def State.offerAnswer (s : State) (c : Camp) : Status × Nat :=
  let b := s.bhr
  if b.install.isSome ∨ b.rx.isSome then (.busy, 0)
  else if b.camp.isSome ∧ b.camp.map (·.id) ≠ some c.id then (.refused, 0x16)
  else if b.holds = some c.id then (.empty, 0)
  else if s.node = .safeHold then (.refused, 0x18)
  else if slotRoom < c.len then (.overload, 0)
  else (.ok, 0)

/-- OFFER on port p. -/
def Run.offer (r : Run s₀) (p : Nat) (d : List Byte) : Run s₀ :=
  if !r.s.campAble then r
  else
    let c := campOf d
    let (st, cause) := r.s.offerAnswer c
    let r := if st ≠ .ok then r
      else
        let r := if r.s.bhr.camp.isSome then r else r.adopt c false
        let r := r.mapBhr fun b => { b with
          camp := b.camp.map fun x => { x with port := some p, hash := c.hash, len := c.len, activate := c.activate }
          rx := some { port := p, dataAt := r.s.cyc }, holds := none }
        ((r.wb Reg.bhrCamp 30 true)).slotErase r.s.spareSlot
    r.linkLocal p (answerFrame st cause c.id)
def execOffer (p : Nat) (d : List Byte) (s : State) : Out := ((Run.start s).offer p d).done

/-- ANSWER on port p (R602). -/
def Run.answerIn (r : Run s₀) (p : Nat) (d : List Byte) : Run s₀ :=
  match r.s.campIs (beAt d 4 4), r.s.bhr.tx with
  | some c, some t =>
    if t.port ≠ p ∨ t.running then r
    else
      let code := beAt d 1 1
      let tries := ((r.s.bhr.offers.find? fun o => o.port == p).map (·.busy)).getD 0
      if code = 0 then
        (r.mapBhr fun b => { b with tx := some { t with running := true, acked := 0, sent := 0, ackAt := r.s.cyc, rounds := 0 } }).sendWindow c
      else if code = Status.busy.code ∧ tries < 8 then
        (r.mapBhr fun b => { b with
          tx := none
          offers := b.offers.filter (fun o => o.port != p) ++ [⟨p, tries + 1, r.s.cyc + usCyc 10000000⟩] }).campNext
      else match statusOfCode code with
        | some st => r.txEndNbr c t st (beAt d 2 1)
        | none => r
  | _, _ => r
def execAnswer (p : Nat) (d : List Byte) (s : State) : Out := ((Run.start s).answerIn p d).done

/-- DATA on port p is written in order and acknowledged (R601). -/
def Run.dataIn (r : Run s₀) (p : Nat) (d : List Byte) : Run s₀ :=
  match r.s.campIs (beAt d 4 4), r.s.bhr.rx with
  | some c, some x =>
    if x.port ≠ p then r
    else
      let body := (d.drop 16).take 2000
      let take := beAt d 8 8 = x.next ∧ x.next + body.length ≤ c.len
      let r := if take then r.flashPut (slotBase r.s.spareSlot + 4096 + x.next) body else r
      let next := if take then x.next + body.length else x.next
      (r.mapBhr fun b => { b with rx := some { x with next := next, dataAt := r.s.cyc } }).linkLocal p (ackFrame c.id next)
  | _, _ => r
def execData (p : Nat) (d : List Byte) (s : State) : Out := ((Run.start s).dataIn p d).done

/-- ACK on port p (R601). -/
def Run.ackIn (r : Run s₀) (p : Nat) (d : List Byte) : Run s₀ :=
  match r.s.campIs (beAt d 4 4), r.s.bhr.tx with
  | some c, some t =>
    if t.port ≠ p ∨ !t.running then r
    else
      let next := beAt d 8 8
      let t := if t.acked < next ∧ next ≤ t.sent then { t with acked := next, rounds := 0 } else t
      (r.mapBhr fun b => { b with tx := some { t with ackAt := r.s.cyc } }).sendWindow c
  | _, _ => r
def execAck (p : Nat) (d : List Byte) (s : State) : Out := ((Run.start s).ackIn p d).done

/-- ACK_TIMEOUT: 20 ms without an ACK, or the link has gone down (R601). -/
def execAckTimeout (s : State) : Out :=
  let r := Run.start s
  match s.bhr.camp, s.bhr.tx with
  | some c, some t =>
    if t.dead then (r.txEndNbr c t .timeout 0).done
    else if s.cyc < t.ackAt + usCyc 20000 then r.done
    else if 16 ≤ t.rounds then (r.txEndNbr c t .timeout 0).done
    else
      let r := r.mapBhr fun b => { b with tx := some { t with rounds := t.rounds + 1, sent := t.acked, ackAt := s.cyc } }
      (if t.running then r.sendWindow c else r.linkLocal t.port (c.frame 0x11)).done
  | _, _ => r.done

/-- DATA_TIMEOUT: a receiver without DATA for 1 s (R601). -/
def execDataTimeout (s : State) : Out :=
  let r := Run.start s
  match s.bhr.camp, s.bhr.rx with
  | some c, some x => if x.dataAt + usCyc 1000000 ≤ s.cyc then (r.rxEnd x c.id .timeout).done else r.done
  | _, _ => r.done

/-- The outcome of a bundle received whole (R601). -/
def Run.bundleOutcome (r : Run s₀) (c : Camp) (failed : Bool) : Run s₀ × Status × Nat :=
  let slot := r.s.spareSlot
  let d := r.s.bundleBytes 0 c.len
  if failed then (r, .fault, 0x19)
  else if Config.sha256 d ≠ c.hash then (r, .denied, 0x15)
  else match r.bundleJudge slot d with
    | (r, some (st, cause)) => (r, st, cause)
    | (r, none) => (r.slotWrite slot d c.activate, .ok, 0)

/-- BUNDLE_RECEIVED: the check, the slot record, DONE, and the forwarding, which Fawn does not do (R597, R601, R602).
`failed`: a flash program or erase error (R608). -/
def execBundleReceived (failed : Bool) (s : State) : Out :=
  let r := Run.start s
  match s.bhr.camp, s.bhr.rx with
  | some c, some x =>
    if x.next ≠ c.len then r.done
    else
      let fawn := s.fawn
      let (r, st, cause) := r.bundleOutcome c failed
      let r := r.linkLocal x.port (outcomeFrame 0x15 st.code cause c.id (uidWire ((List.range 4).map fun i => (Config.uidWord i).toNat))
        (if fawn then 0 else r.s.nodeId))
      let r := r.rxEnd x c.id st
      (if st = .ok then
        let r := r.mapBhr fun b => { b with holds := some c.id }
        if fawn then r else r.forward (some x.port)
      else r).done
  | _, _ => r.done

/-- DONE on port p (R602). -/
def Run.doneIn (r : Run s₀) (p : Nat) (d : List Byte) : Run s₀ :=
  match r.s.campIs (beAt d 4 4), r.s.bhr.tx, statusOfCode (beAt d 1 1) with
  | some c, some t, some st =>
    if t.port ≠ p ∨ !t.running then r else r.txEnd c t st (beAt d 2 1) ((d.drop 8).take 16) (beAt d 24 2)
  | _, _, _ => r
def execDone (p : Nat) (d : List Byte) (s : State) : Out := ((Run.start s).doneIn p d).done

/-- OFFER_RETRY: 10 s after BUSY the neighbour is offered again (R602). -/
def execOfferRetry (s : State) : Out := ((Run.start s).campNext).done

/-- REPORT (R603). -/
def Run.report (r : Run s₀) (d : List Byte) : Run s₀ :=
  match r.s.campIs (beAt d 4 4) with
  | some _ => r.reportIn d
  | none => r
def execReport (d : List Byte) (s : State) : Out := ((Run.start s).report d).done

/-- CLOSE (R599). -/
def Run.closeIn (r : Run s₀) (d : List Byte) : Run s₀ :=
  match r.s.campIs (beAt d 4 4) with
  | some _ => if r.s.bhr.own.isSome then r.campClose else r.campEnd
  | none => r
def execClose (d : List Byte) (s : State) : Out := ((Run.start s).closeIn d).done

/-- CAMPAIGN_TIMEOUT: 30 min after t0, or after adoption under Fawn, whose TB0 is FREE (R599). -/
def execCampaignTimeout (s : State) : Out :=
  let r := Run.start s
  match s.bhr.camp with
  | none => r.done
  | some c =>
    let ended := if s.fawn then decide (c.adoptedAt + 1800 * 800000000 ≤ s.cyc) else decide (c.t0 + 1800000000000 ≤ s.now)
    (if ended then r.campClose else r).done

/-! ## CAMPAIGN and CLOSE (R603, R608) -/

/-- The bundle of the inactive slot ends where its last package ends. -/
def State.bundleLen (s : State) (b : Nat) : Nat :=
  let d := s.slotRec b
  max (recNat d 8 8 + recNat d 16 8) (if recNat d 32 8 = 0 then 0 else recNat d 24 8 + recNat d 32 8) - 4096

/-- CAMPAIGN acts: the node adopts its own campaign, announces it and offers the bundle. -/
def Run.actCampaign (r : Run s₀) (w : BhrWho) (d : List Byte) : Run s₀ :=
  let slot := r.s.spareSlot
  if r.s.bhr.own.map (·.who) = some w then r
  else if !r.s.slotOk slot then r.bhrFin w .refused 0 []
  else if !r.s.hasId then r.bhrFin w .refused 0x18 []
  else if r.s.bhr.camp.isSome then r.bhrFin w .refused 0x16 []
  else if recNat d 6 2 = 0 then r.bhrFin w .empty 0 []
  else
    let n := r.s.bundleLen slot
    let c : Camp := { id := recNat d 0 4, t0 := r.s.now, origin := r.s.nodeId, sv := recNat (r.s.slotPkg slot 0) 0x1C 1,
                      activate := bit (recNat d 4 1) 0, hash := Config.sha256 (r.s.bundleBytes 0 n), len := n }
    let r := (r.adopt c true).mapBhr fun b => { b with
      own := some ⟨w, recNat d 6 2, recNat d 8 8, recNat d 16 4, []⟩, holds := some c.id }
    let r := match w with
      | .op id => match r.s.op id with | some o => r.opAct o | none => r
      | .host => r
    (r.originate 5 0xFFFF 3 (c.frame 0x10)).forward none

/-- CLOSE acts. -/
def Run.actClose (r : Run s₀) (w : BhrWho) (d : List Byte) : Run s₀ :=
  if r.s.bhr.own.isSome ∧ (r.s.campIs (recNat d 0 4)).isSome then r.campClose.bhrFin w .ok 0 []
  else r.bhrFin w .refused 0 []

def execBhrCampaign (id : Option Nat) (s : State) : Out := ((Run.start s).bhrRow id 11 Run.actCampaign).done
def execBhrClose (id : Option Nat) (s : State) : Out := ((Run.start s).bhrRow id 12 Run.actClose).done

end Sys2Proof.Machine
end

