-- ==== Sys2Proof/Machine/Can.lean ====
section
/-!
DEFINITION. The CAN FD controllers (11_plant_ports.md, R431 to R439): message objects, sending, error states, receiving
and bit-rate detection.
-/
namespace Sys2Proof.Machine

variable {s₀ : State}

def State.canc (s : State) (n : Nat) : CanCtl := tget {} n s.port.can
def Run.setCan (r : Run s₀) (n : Nat) (x : CanCtl) : Run s₀ :=
  r.up (.port { r.s.port with can := tset {} n x r.s.port.can })

/-- Fields of a message object (R433). -/
def State.coKind (s : State) (n j : Nat) : Nat := s.rf (Reg.canObjW0 n j) 7 0
def State.coState (s : State) (n j : Nat) : Nat := s.rf (Reg.canObjW0 n j) 15 8
def Run.coSet (r : Run s₀) (n j st : Nat) : Run s₀ := r.wf (Reg.canObjW0 n j) 15 8 st
def Run.coFlag (r : Run s₀) (n j i : Nat) : Run s₀ := r.wb (Reg.canObjW0 n j) (16 + i) true

/-- The mode in use, and the error state: 0 active, 1 passive, 2 bus-off (R432, R437). -/
def State.canMode (s : State) (n : Nat) : Nat := s.rf (Reg.canCfgAct n) 2 0
def State.canErr (s : State) (n : Nat) : Nat := s.rf (Reg.canStat n) 31 30

/-- `cfgerr` of a controller. -/
def Run.canCfgerr (r : Run s₀) (n : Nat) : Run s₀ := r.flag (Reg.canEvstat n) 11

/-- The order of frames in bus arbitration, the winner lowest: base identifier, IDE, extended identifier. -/
def arbKey (w : Nat) : Nat :=
  bits w 28 18 <<< 19 + (if bit w 29 then 2 ^ 18 + bits w 17 0 else 0)

/-- The operation that waits for an object's transmission. -/
def State.canOp (s : State) (n j : Nat) : Option Op :=
  s.sp.ops.find? fun o => o.unit == 9 && o.code == 2 && o.obj == n * 128 + j && o.acted && o.out.isNone

/-! ## Sending (R435, R436) -/

/-- An idle bus: the pending frame that would win arbitration is offered; its object is ACTIVE (R435). A commit of the
group whose time has come goes first (R432). -/
def Run.canPick (r : Run s₀) (n : Nat) : Run s₀ :=
  let c := r.s.canc n
  if c.active.isSome || !c.onBus || r.s.canMode n != 1 || r.s.canErr n == 2
      || r.s.commitDue (.can n) then r
  else
    let fd := r.s.rb (Reg.canCfgAct n) 4
    let pend := (List.range 100).filter fun j =>
      r.s.coKind n j == 1 && r.s.coState n j == 1 && (fd || !r.s.rb (Reg.canObjId n j) 30)
    let key (j : Nat) : Nat := arbKey (r.s.rget (Reg.canObjId n j)).toNat
    let best := pend.foldl (fun (b : Option Nat) j => match b with
      | none => some j
      | some i => if key j < key i then some j else some i) none
    match best with
    | none => r
    | some j => (r.setCan n { c with active := some j, cancelReq := false }).coSet n j 2

/-- A request to send: IDLE, TXDONE, CANCELLED and FAILED go to PENDING (R435). -/
def Run.canReq (r : Run s₀) (n j : Nat) : Run s₀ :=
  let st := r.s.coState n j
  if r.s.coKind n j = 1 ∧ (st = 0 ∨ 3 ≤ st) then
    ((r.coSet n j 1).wb (Reg.canObjW0 n j) 16 false).canPick n
  else r

/-- CAN_REQ_WRITE (R435). -/
def execCanReqWrite (n j : Nat) (s : State) : Out := ((Run.start s).canReq n j).done

/-- An object ends CANCELLED (R436). -/
def Run.canCancelled (r : Run s₀) (n j : Nat) : Run s₀ :=
  let r := (r.coSet n j 4).flag (Reg.canEvstat n) 2
  match r.s.canOp n j with
  | some o => r.opFin o .aborted 0x01 []
  | none => r

/-- A cancel acts according to the object's state (R436). -/
def Run.canCancel (r : Run s₀) (n j : Nat) : Run s₀ :=
  if r.s.coKind n j ≠ 1 then r
  else match r.s.coState n j with
  | 1 => r.canCancelled n j
  | 2 => r.setCan n { r.s.canc n with cancelReq := true }
  | _ => r

/-- CAN_CANCEL_WRITE (R436). -/
def execCanCancelWrite (n j : Nat) (s : State) : Out := ((Run.start s).canCancel n j).done

/-! ## Error states (R437) -/

/-- New error counters: the state follows ISO 11898-1; bus-off is left by recovery only. -/
def Run.canCounters (r : Run s₀) (n tec rec' : Nat) : Run s₀ :=
  let was := r.s.canErr n
  let r := (r.wf (Reg.canStat n) 8 0 (min tec 511)).wf (Reg.canStat n) 23 16 (min rec' 255)
  if was = 2 then r
  else if 255 < tec then
    let r := (r.wf (Reg.canStat n) 31 30 2).flag (Reg.canEvstat n) 4
    r.setCan n { r.s.canc n with counting := r.s.rb (Reg.canCfgAct n) 7 }
  else if 127 < tec ∨ 127 < rec' then
    let r := r.wf (Reg.canStat n) 31 30 1
    if was = 1 then r else r.flag (Reg.canEvstat n) 3
  else r.wf (Reg.canStat n) 31 30 0

def State.canTec (s : State) (n : Nat) : Nat := s.rf (Reg.canStat n) 8 0
def State.canRec (s : State) (n : Nat) : Nat := s.rf (Reg.canStat n) 23 16

/-- CAN_TX_END: a transmission ends sent (0), with arbitration lost (1) or with an error (2) that adds `tecAdd` to the
transmit error counter; `ts` is the SOF's stamp (R435 to R437). -/
def execCanTxEnd (n result tecAdd ts : Nat) (s : State) : Out :=
  let r := Run.start s
  let c := s.canc n
  match c.active with
  | none => r.done
  | some j =>
    let w := Reg.canObjW0 n j
    let ev := s.rb w 27
    let r := r.setCan n { c with active := none, cancelReq := false }
    let r :=
      if result = 0 then
        let r := (r.coSet n j 3).wr (Reg.canObjTs n j) ts
        let r := if c.cancelReq then r.coFlag n j 0 else r
        let r := if ev then r.flag (Reg.canEvstat n) 1 else r
        let r := match r.s.canOp n j with
          | some o => r.opEnd o o.okSt 0 ts [] (if c.cancelReq then 0x20 else 0)
          | none => r
        r.canCounters n (s.canTec n - 1) (s.canRec n)
      else
        let r := if result = 2 then r.canCounters n (s.canTec n + tecAdd) (s.canRec n) else r
        if c.cancelReq then r.canCancelled n j
        else if s.rb w 26 ∧ r.s.canErr n ≠ 2 then
          let r := r.coSet n j 5
          let r := if ev then r.flag (Reg.canEvstat n) 8 else r
          match r.s.canOp n j with
          | some o => r.opFin o .aborted 0x10 []
          | none => r
        else r.coSet n j 1
    (r.canPick n).done

/-- CAN_RECOVERED: 128 occurrences of 11 recessive bits have been counted in bus-off (R437). -/
def execCanRecovered (n : Nat) (s : State) : Out :=
  let r := Run.start s
  let c := s.canc n
  if s.canErr n = 2 ∧ c.counting then
    let r := ((r.wr (Reg.canStat n) (s.rf (Reg.canStat n) 26 24 <<< 24)).setCan n { c with counting := false }).flag
      (Reg.canEvstat n) 5
    let r := r.each (r.s.sp.ops.filter fun o => o.unit == 9 && o.code == 5 && o.obj == n && o.acted && o.out.isNone)
      fun r o => r.opFin o o.okSt 0 []
    (r.canPick n).done
  else r.done

/-- Counting for recovery begins (R437). -/
def Run.canRecover (r : Run s₀) (n : Nat) : Run s₀ :=
  if r.s.canErr n = 2 then r.setCan n { r.s.canc n with counting := true } else r

/-- CAN_RECOVER_WRITE (R437). -/
def execCanRecoverWrite (n : Nat) (s : State) : Out := ((Run.start s).canRecover n).done

/-- BUS_INTEGRATION: a controller that has left OFF has seen 11 recessive bits (R432). -/
def execBusIntegration (n : Nat) (s : State) : Out :=
  let r := Run.start s
  (if s.canMode n ≠ 0 ∧ !(s.canc n).onBus then (r.setCan n { s.canc n with onBus := true }).canPick n else r).done

/-! ## Receiving (R438) -/

/-- A received frame: identifier word with IDE, FDF and BRS as in `id`, ESI, DLC, data and the SOF's stamp. -/
structure CanFrame where
  id : Nat
  esi : Bool
  dlc : Nat
  data : List Byte
  ts : Nat

/-- The frame goes into an object (R433). -/
def Run.canStore (r : Run s₀) (n j flt : Nat) (f : CanFrame) : Run s₀ :=
  let r := (r.coSet n j 1).wf (Reg.canObjW0 n j) 19 18 (b2n f.esi + b2n (bit f.id 31) <<< 1)
  let r := (r.wr (Reg.canObjId n j) f.id).wr (Reg.canObjTs n j) f.ts
  let r := (r.wf (Reg.canObjDlc n j) 3 0 f.dlc).wf (Reg.canObjDlc n j) 31 16 flt
  let r := r.each (List.range 16) fun r k => r.wr (Reg.canObjData n j k) (recNat f.data (4 * k) 4)
  r.flag (Reg.canEvstat n) 0

/-- The objects of a receive queue in ascending number. -/
def State.canQueue (s : State) (n k : Nat) : List Nat := (List.range 100).filter fun j => s.coKind n j == 3 + k

/-- RXQk_STAT shows the FULL entries (R438). -/
def Run.canQueueSeen (r : Run s₀) (n k : Nat) : Run s₀ :=
  r.wf (Reg.canRxqStat n k) 6 0 ((r.s.canQueue n k).filter fun j => r.s.coState n j == 1).length

/-- A frame for queue k (R438). -/
def Run.canRxq (r : Run s₀) (n k flt : Nat) (f : CanFrame) : Run s₀ :=
  let l := r.s.canQueue n k
  let wr := r.s.rf (Reg.canRxqStat n k) 22 16
  match l[wr]? with
  | none => r.canCfgerr n
  | some j =>
    if r.s.coState n j = 1 then (r.count (Reg.canCnt n) 31 16).flag (Reg.canEvstat n) 7
    else
      let r := r.canStore n j flt f
      (r.wf (Reg.canRxqStat n k) 22 16 (if wr + 1 = l.length then 0 else wr + 1)).canQueueSeen n k

/-- A frame for an object (R438): stored when EMPTY, lost when FULL; with `sig_en` its first word goes to a signal. -/
def Run.canObject (r : Run s₀) (n j flt : Nat) (f : CanFrame) : Run s₀ :=
  if 100 ≤ j ∨ r.s.coKind n j ≠ 2 then r.canCfgerr n
  else
    let r := if r.s.coState n j = 1 then
        ((r.coFlag n j 1).count (Reg.canCnt n) 15 0).flag (Reg.canEvstat n) 6
      else r.canStore n j flt f
    if r.s.rb (Reg.canObjW0 n j) 28 then
      r.sigPush { idx := r.s.rf (Reg.canObjSig n j) 17 0, val := recNat f.data 0 4, stamp := f.ts, kind := 8, inst := n }
    else r

/-- The filters in order (R438). -/
def Run.canFilter (r : Run s₀) (n : Nat) (f : CanFrame) : Run s₀ :=
  let hit (i : Nat) : Bool :=
    r.s.rb (Reg.canFltMatchAct n i) 31 &&
      (bits f.id 29 0 ^^^ r.s.rf (Reg.canFltMatchAct n i) 29 0) &&& r.s.rf (Reg.canFltMaskAct n i) 29 0 == 0
  match (List.range 32).find? hit with
  | some i => match r.s.rf (Reg.canFltTgtAct n i) 8 7 with
    | 0 => r.canObject n (r.s.rf (Reg.canFltTgtAct n i) 6 0) i f
    | 1 => r.canRxq n 0 i f
    | 2 => r.canRxq n 1 i f
    | _ => r
  | none => match r.s.rf (Reg.canCfgAct n) 6 5 with
    | 1 => r.canRxq n 0 0 f
    | 2 => r.canRxq n 1 0 f
    | _ => r

/-- The first good frame in ABD ends the search: the candidate's prescalers come into use (R439). -/
def Run.abdHit (r : Run s₀) (n : Nat) : Run s₀ :=
  let c := r.s.canc n
  let a := Reg.canAbdAct n c.abdIdx
  if r.s.canMode n ≠ 4 ∨ !c.abdOn ∨ r.s.rf a 4 0 = 0 then r
  else
    let r := (r.wf (Reg.canNbtAct n) 31 27 (r.s.rf a 4 0 - 1)).wf (Reg.canDbtAct n) 31 27 (r.s.rf a 20 16 - 1)
    ((r.setCan n { c with abdOn := false }).wf (Reg.canStat n) 26 24 c.abdIdx).flag (Reg.canEvstat n) 9

/-- CAN_RX_FRAME: a frame ends on the bus. With `recAdd` = 0 it was received without error: a data frame is filtered, a
remote frame discarded; otherwise the error adds `recAdd` to the receive error counter (R431, R437 to R439). -/
def execCanRxFrame (n id : Nat) (esi remote : Bool) (dlc : Nat) (data : List Byte) (ts recAdd : Nat) (s : State) : Out :=
  let r := Run.start s
  let c := s.canc n
  let mode := s.canMode n
  if mode = 0 ∨ !c.onBus ∨ s.canErr n = 2 then r.done
  else if 0 < recAdd then
    (if mode = 1 ∨ mode = 3 then r.canCounters n (s.canTec n) (s.canRec n + recAdd) else r).done
  else
    let down := if 127 < s.canRec n then 127 else s.canRec n - 1
    let r := if mode = 1 ∨ mode = 3 then r.canCounters n (s.canTec n) down else r
    let r := r.abdHit n
    let f : CanFrame := ⟨id % 2 ^ 32, esi, dlc % 16, data, ts % 2 ^ 32⟩
    let r := if remote ∨ (bit id 30 ∧ !s.rb (Reg.canCfgAct n) 4) then r else r.canFilter n f
    (r.canPick n).done

/-- An acknowledgement makes a FULL object EMPTY; otherwise `cfgerr` (R438). It says whether it did. -/
def Run.canAck (r : Run s₀) (n j : Nat) : Run s₀ × Bool :=
  let k := r.s.coKind n j
  if 100 ≤ j ∨ k < 2 ∨ r.s.coState n j ≠ 1 then (r.canCfgerr n, false)
  else
    let r := (r.coSet n j 0).wf (Reg.canObjW0 n j) 23 16 0
    (if 3 ≤ k then r.canQueueSeen n (k - 3) else r, true)

/-- CAN_ACK_WRITE (R438). -/
def execCanAckWrite (n : Nat) (v : Word) (s : State) : Out := ((Run.start s).canAck n (v.toNat % 128)).1.done

/-! ## Bit-rate detection (R439) -/

/-- ABD_CANDIDATE_END: a candidate has listened for `abd_ms`; the next is tried, and after `abd_rounds` passes the search
fails. -/
def execAbdCandidateEnd (n : Nat) (s : State) : Out :=
  let r := Run.start s
  let c := s.canc n
  if s.canMode n ≠ 4 ∨ !c.abdOn ∨ s.cyc < c.abdFrom + usCyc (s.rf (Reg.canAbdcfgAct n) 7 0 * 1000) then r.done
  else
    let nxt := c.abdIdx + 1
    if nxt < 8 ∧ s.rf (Reg.canAbdAct n nxt) 4 0 ≠ 0 then
      (r.setCan n { c with abdIdx := nxt, abdFrom := s.cyc }).done
    else if s.rf (Reg.canAbdcfgAct n) 15 8 ≤ c.abdRound + 1 then
      ((r.setCan n { c with abdOn := false, onBus := false }).flag (Reg.canEvstat n) 10).done
    else (r.setCan n { c with abdIdx := 0, abdRound := c.abdRound + 1, abdFrom := s.cyc }).done

/-! ## Register writes to an object (R434) -/

/-- A write of word `k` of an object: 0 kind and control, 1 identifier, 2 DLC, 4 signal, 8 to 23 data. -/
def Run.canObjWrite (r : Run s₀) (n j k v : Nat) : Run s₀ :=
  let kind := r.s.coKind n j
  let st := r.s.coState n j
  let held := (kind = 1 ∧ (st = 1 ∨ st = 2)) ∨ (2 ≤ kind ∧ st = 1)
  if k = 0 then
    let r := if bits v 7 0 = kind then r
      else if r.s.canMode n ≠ 0 then r.canCfgerr n
      else r.wr (Reg.canObjW0 n j) (bits v 7 0)
    let r := r.wf (Reg.canObjW0 n j) 28 26 (bits v 28 26)
    let r := if bit v 24 then r.canReq n j else r
    if bit v 25 then r.canCancel n j else r
  else if k = 4 then r.wr (Reg.canObjSig n j) (v % 2 ^ 18)
  else if decide held then r.canCfgerr n
  else if k = 1 then r.wr (Reg.canObjId n j) v
  else if k = 2 then r.wf (Reg.canObjDlc n j) 3 0 v
  else if 8 ≤ k ∧ k < 24 then r.wr (Reg.canObjData n j (k - 8)) v
  else r

/-! ## Group CFG (R431, R432) and operations (R448), unit 9 -/

/-- The check of R15 for group CFG of a controller. -/
def State.canCheck (s : State) (n : Nat) : Bool :=
  let nb := Reg.canNbt n
  let db := Reg.canDbt n
  let cands := (List.range 8).map fun j => (s.rf (Reg.canAbd n j) 4 0, s.rf (Reg.canAbd n j) 20 16)
  decide (s.rf (Reg.canCfg n) 2 0 ≤ 4) && s.rf (Reg.canCfg n) 6 5 != 3
    && decide (40 ≤ (s.rf nb 31 27 + 1) * (3 + s.rf nb 23 16 + s.rf nb 14 8))
    && decide (5 ≤ (s.rf db 31 27 + 1) * (3 + s.rf db 20 16 + s.rf db 11 8))
    && (cands.takeWhile fun e => e.1 != 0).all fun e => e.2 != 0

/-- What follows when CFG comes into use: OFF leaves the bus, a controller that leaves OFF waits for 11 recessive bits, and
ABD begins with candidate 0 (R432, R439). -/
def Run.canApplied (r : Run s₀) (n was : Nat) : Run s₀ :=
  let mode := r.s.canMode n
  let c := r.s.canc n
  let r := r.setCan n { c with
    onBus := c.onBus && decide (was ≠ 0 ∧ mode ≠ 0)
    abdOn := decide (mode = 4), abdIdx := 0, abdRound := 0, abdFrom := r.s.cyc }
  r.canPick n

/-- SEND acts (R448). -/
def Run.actCanSend (r : Run s₀) (o : Op) : Run s₀ :=
  let n := o.obj / 128
  let j := o.obj % 128
  let mode := r.s.canMode n
  let st := r.s.coState n j
  if r.s.coKind n j = 1 ∧ (st = 1 ∨ st = 2) then r.opFin o .busy 0 []
  else if r.s.coKind n j ≠ 1 ∨ mode = 0 ∨ mode = 2 ∨ mode = 4 then r.opFin o .refused 0 []
  else
    let d := o.payload
    let r := if bit (recNat d 0 1) 0 then
        let r := (r.wr (Reg.canObjId n j) (recNat d 4 4)).wf (Reg.canObjDlc n j) 3 0 (recNat d 8 1)
        r.each (List.range 16) fun r k => r.wr (Reg.canObjData n j k) (recNat d (32 + 4 * k) 4)
      else r
    (r.opAct o).canReq n j

/-- READ acts: the object's 96 bytes. -/
def Run.actCanRead (r : Run s₀) (o : Op) : Run s₀ :=
  let n := o.obj / 128
  let j := o.obj % 128
  let w (a : Nat) : Nat := (r.s.rget a).toNat
  r.opFin o o.okSt 0 (wordsLE ([w (Reg.canObjW0 n j), w (Reg.canObjId n j), w (Reg.canObjDlc n j), w (Reg.canObjTs n j),
    w (Reg.canObjSig n j), 0, 0, 0] ++ (List.range 16).map fun k => w (Reg.canObjData n j k)))

/-- ACK acts. -/
def Run.actCanAck (r : Run s₀) (o : Op) : Run s₀ :=
  let (r, did) := r.canAck (o.obj / 128) (o.obj % 128)
  r.opFin o (if did then o.okSt else .empty) 0 []

/-- RECOVER acts. -/
def Run.actCanRecover (r : Run s₀) (o : Op) : Run s₀ :=
  if r.s.canErr o.obj ≠ 2 then r.opFin o .empty 0 []
  else if r.s.rb (Reg.canCfgAct o.obj) 7 then r.opFin o .refused 0x11 []
  else (r.canRecover o.obj).opAct o

def execCanSend (id : Nat) (s : State) : Out := ((Run.start s).opRow id 9 2 Run.actCanSend).done
def execCanRead (id : Nat) (s : State) : Out := ((Run.start s).opRow id 9 3 Run.actCanRead).done
def execCanAck (id : Nat) (s : State) : Out := ((Run.start s).opRow id 9 4 Run.actCanAck).done
def execCanRecover (id : Nat) (s : State) : Out := ((Run.start s).opRow id 9 5 Run.actCanRecover).done

end Sys2Proof.Machine
end

