-- ==== Sys2Proof/Machine/Capt.lean ====
section
/-!
DEFINITION. Recording and triggers (12_capture.md, R450 to R477).
-/
namespace Sys2Proof.Machine

variable {s₀ : State}

/-! ## Sessions (R450 to R452, R462) -/

/-- A session enters DONE or OFF: `capt_mask` is cleared in every listed signal (R452). -/
def Run.csMaskOff (r : Run s₀) (n : Nat) : Run s₀ :=
  r.each (r.s.cs n).list fun r i =>
    let g := r.s.sigRec i
    if bit g.captMask n then r.setSig i { g with captMask := g.captMask - 2 ^ n } else r

/-- A START that is still at work ends, with a failure where the session has met one (R451, R460). -/
def Run.csStarted (r : Run s₀) (n : Nat) (st : Status) : Run s₀ :=
  match (r.s.cs n).startOp with
  | none => r
  | some id => (r.setCs n { r.s.cs n with startOp := none, todo := [] }).opFinId id st 0 []

/-- A session ends in DONE with an end status (R460, R462, R463). -/
def Run.csDone (r : Run s₀) (n : Nat) (st : Status) : Run s₀ :=
  let r := r.csStarted n (if st = .fault then .fault else .ok)
  let r := (r.csMaskOff n).csTo n 4
  let r := r.wf (Reg.captSStat n) 23 16 st.code
  let x := r.s.cs n
  (r.setCs n { x with queue := [], heldMark := none, heldTrig := [], gapCount := 0, wins := [], postLeft := none }).flag
    Reg.captEvstat 0

/-- P_eff and K of R462, with W slots written before the trigger. -/
def State.csPost (s : State) (n : Nat) : Nat := min (s.rf (Reg.captSPostAct n) 27 0) (s.csSize n - 4)
def State.csPre (s : State) (n w : Nat) : Nat :=
  min (min (s.rf (Reg.captSPreAct n) 27 0) w) (s.csSize n - 4 - s.csPost n)

/-- The retained region of a RING session is complete (R462). -/
def Run.csComplete (r : Run s₀) (n : Nat) : Run s₀ :=
  match (r.s.cs n).trigAt with
  | none => r
  | some (slot, w) =>
    let p := r.s.csPost n
    let k := r.s.csPre n w
    let size := max 1 (r.s.csSize n)
    let st : Status :=
      if p < r.s.rf (Reg.captSPostAct n) 27 0 ∨ k < min (r.s.rf (Reg.captSPreAct n) 27 0) w then .trunc
      else if (r.s.cs n).lost then .lost else .ok
    let r := (r.wr (Reg.captSFirst n) ((slot + size - k % size) % size)).wr (Reg.captSCount n) (k + 4 + p)
    r.csDone n st

/-- Fill level of a STREAM ring above `hiwat` percent (R463). -/
def Run.csLevel (r : Run s₀) (n : Nat) : Run s₀ :=
  let size := max 1 (r.s.csSize n)
  let fill := (r.s.rf (Reg.captSWr n) 27 0 + size - r.s.rf (Reg.captSRd n) 27 0 % size) % size
  let high := r.s.csStream n && decide (r.s.rf (Reg.captSHerdAct n) 22 16 * size < fill * 100)
  let was := (r.s.cs n).high
  let r := r.setCs n { r.s.cs n with high := high }
  if high && !was then r.flag Reg.captEvstat 6 else r

/-- START handles its listed signals in order, while the session's queue has room: one access sets the bit in `capt_mask`
and reads entry 0 (R451, R458). -/
def Run.csInit (r : Run s₀) (n : Nat) : List Nat → Run s₀
  | [] => r.csStarted n .ok
  | i :: t =>
    if (r.s.cs n).held || !r.s.csRoom n 1 then r.setCs n { r.s.cs n with todo := i :: t }
    else
      let r := r.sigMeet i
      let g := r.s.sigRec i
      let r := r.when g.defined fun r => r.setSig i { g with captMask := g.captMask ||| 2 ^ n }
      let r := match g.hist.head? with
        | none => r
        | some e => r.csPut n [⟨b2n (bit (r.s.ts64 e.stamp) 32) <<< 27 + 1 <<< 25 + i, e.stamp, e.val, 0⟩]
      r.csInit n t

/-- Space has come: what was held follows (R459), then what START has still to write (R451). -/
def Run.csSpace (r : Run s₀) (n : Nat) : Run s₀ :=
  let r := r.csFlush n
  if (r.s.cs n).startOp.isSome then r.csInit n (r.s.cs n).todo else r

/-- CAPT_RECORD_WRITE: the Mesh serves the next record of a session's queue (R458 to R463). -/
def execCaptRecordWrite (n : Nat) (s : State) : Out :=
  let r := Run.start s
  let x := s.cs n
  match x.queue with
  | [] => r.done
  | q :: rest =>
    if !s.csRuns n || s.csFull n then r.done
    else
      let wr := s.rf (Reg.captSWr n) 27 0
      let a := s.rget64 (Reg.captSBaseLoAct n) (Reg.captSBaseHiAct n) + 12 * wr
      let (r, st) := r.memWrite 4 a (wordsLE [q.w0, q.w1, q.w2])
      if st ≠ .ok then ((r.csDone n .fault).flag Reg.captEvstat 7).done
      else
        let r := r.wr (Reg.captSWr n) ((wr + 1) % max 1 (s.csSize n))
        let x := r.s.cs n
        let x := { x with queue := rest, written := x.written + 1
                          trigAt := if q.mark = 1 then some (wr, x.written) else x.trigAt
                          postLeft := if q.mark = 2 then some (s.csPost n) else x.postLeft.map (· - 1) }
        let r := ((r.setCs n x).csSpace n).csLevel n
        (if !s.csStream n && x.postLeft == some 0 then r.csComplete n else r).done

/-- CAPT_RD_WRITE: the reader frees slots of a STREAM ring; a value at or above S is refused (R463). -/
def Run.captRd (r : Run s₀) (n v : Nat) : Run s₀ :=
  let v := v % 2 ^ 28
  if r.s.csSize n ≤ v then r.flag Reg.captEvstat 8
  else ((r.wr (Reg.captSRd n) v).csSpace n).csLevel n

def execCaptRdWrite (n : Nat) (v : Word) (s : State) : Out := ((Run.start s).captRd n v.toNat).done

/-! ## Placing triggers (R466 to R469, R473) -/

/-- The order of triggers: earlier time, then LOCAL, SOFT, HERD, then lower source node (R469). -/
def CaptTrig.before (a b : CaptTrig) : Bool :=
  let rank (x : CaptTrig) : Nat := if x.src = 0 then 0 else if x.src = 2 then 1 else 2
  decide (a.t < b.t ∨ (a.t = b.t ∧ (rank a < rank b ∨ (rank a = rank b ∧ a.node < b.node))))

/-- The trigger is placed: records, the primary trigger's registers, POST or RUN, and FIRE (R461, R469, R473). -/
def Run.placeTrig (r : Run s₀) (n : Nat) (t : CaptTrig) : Run s₀ :=
  if r.s.csState n ≠ 2 ∧ r.s.csState n ≠ 3 then r
  else
    let x := r.s.cs n
    let first := !x.placed
    let prim := match x.primary with
      | none => true
      | some p => t.before p
    let r := if first then r.csMarker n 3 1 else r
    let a : CaptSlot := ⟨3 <<< 28 + b2n prim <<< 27 + (t.src % 4) <<< 25 + b2n t.skew <<< 24 + (t.unit % 64) <<< 18
        + (if t.src = 1 then t.node % 65536 else 0), bits t.t 47 16, bits t.t 79 48, 0⟩
    let b : CaptSlot := ⟨4 <<< 28 + t.t % 65536, t.mask % 2 ^ 32, t.mask >>> 32, if first then 2 else 0⟩
    let r := r.csPair n a b
    let r := r.setCs n { r.s.cs n with placed := true, primary := if prim then some t else x.primary }
    let r := if prim then
        ((r.wr64 (Reg.captSTrigLo n) (Reg.captSTrigHi n) (t.t >>> 16)).wr (Reg.captSTrigInfo n)
          (2 ^ 31 + (t.src % 4) <<< 29 + b2n t.skew <<< 28 + (t.unit % 64) <<< 16 + t.t % 65536)).wr64
          (Reg.captSMaskLo n) (Reg.captSMaskHi n) t.mask
      else r
    let r := r.flag Reg.captEvstat 1
    let r := if r.s.csStream n then (r.csTo n 1).setCs n { r.s.cs n with wins := [] } else r.csTo n 3
    let cfg := Reg.captSCfgAct n
    if t.src ≠ 1 ∧ r.s.rb cfg 29 ∧ r.s.rb cfg 30 ∧ !(r.s.cs n).fired then
      let r := r.setCs n { r.s.cs n with fired := true }
      r.originate 7 0xFFFF 3 (bytesBE 1 3 ++ bytesBE 1 0 ++ bytesBE 2 (r.s.rf (Reg.captSHerdAct n) 15 0)
        ++ bytesBE 4 (r.s.rget (Reg.captSArmno n)).toNat ++ bytesBE 8 (t.t >>> 16) ++ bytesBE 2 t.t
        ++ bytesBE 1 t.unit ++ bytesBE 1 t.src ++ bytesBE 8 t.mask ++ bytesBE 4 0)
    else r

/-- COINCIDENCE_WINDOW_END: 1 µs after it opened the session's window becomes a trigger, and the next window opens
(R468). -/
def execCoincidenceWindowEnd (n : Nat) (s : State) : Out :=
  let r := Run.start s
  let x := s.cs n
  match x.wins with
  | [] => r.done
  | w :: rest =>
    if s.cyc < w.since + usCyc 1 then r.done
    else
      let rest := match rest with
        | [] => []
        | v :: t => { v with since := s.cyc } :: t
      let r := r.setCs n { x with wins := rest }
      let mask := w.units.foldl (fun m u => m ||| 2 ^ u.1) 0
      let best := w.units.foldl (fun b u => match b with
        | none => some u
        | some v => if u.1 < v.1 then some u else some v) (none : Option (Nat × Nat × Bool))
      match best with
      | none => r.done
      | some (u, t, skew) => (r.placeTrig n { t := t, src := 0, skew := skew, unit := u, mask := mask }).done

/-- The input delay of the AIN input or sigma-delta channel that produces a signal, in 2⁻¹⁶ ns; 0 for others (R467). -/
def State.sigDelay (s : State) (i : Nat) : Int :=
  if (s.sigRec i).srcKind ≠ 3 then 0
  else
    let ain := (List.range 12).findSome? fun n =>
      if !s.rb (Reg.adcCfgAct n) 31 then none
      else (List.range (s.rf (Reg.adcCfgAct n) 4 0)).findSome? fun j =>
        let e := (s.rget (Reg.adcSeqAct n j)).toNat
        if bit e 31 ∧ bits e 17 0 = i then some (8 * n + bits e 29 27) else none
    match ain with
    | some a => s.calInt (0x390 + 4 * a)
    | none =>
      match (List.range 144).find? fun c => s.rb (Reg.sdfChCfgAct c) 31 && s.rf (Reg.sdfChSigAct c) 17 0 == i with
      | some c => s.calInt (0x510 + 4 * c)
      | none => 0

/-- Skew correction applies in NORMAL with a valid calibration set (R467). -/
def State.skewOn (s : State) : Bool := s.node == .normal && s.rb Reg.bhrStat 28

/-- The number of a signal word as binary64, and the difference of two words under R203. -/
def sigDbl (type v : Nat) : Nat :=
  if type = 3 then f32.conv f64 v else f64.ofInt (if type = 2 ∨ type = 5 then (v : Int) else sInt 32 v)
def sigDiff (type : Nat) (modular : Bool) (b a : Nat) : Nat :=
  if type = 3 then f64.sub (sigDbl type b) (sigDbl type a)
  else
    let n (v : Nat) : Int := if type = 2 ∨ type = 5 then (v : Int) else sInt 32 v
    f64.ofInt (if modular then sInt 32 (uNat 32 (n b - n a)) else n b - n a)

/-- The threshold that was passed between v′ and v, if any (R464, R466). -/
def passed (cond type a b prev new : Nat) : Option Nat :=
  let lt (x y : Nat) : Bool := cmpVal type x y == some .lt
  let le (x y : Nat) : Bool := lt x y || cmpVal type x y == some .eq
  match cond with
  | 1 => if le prev a && lt a new then some a else none
  | 2 => if le a prev && lt new a then some a else none
  | 3 => some a
  | 4 => some a
  | 5 => if lt prev a then some a else if lt b prev then some b else none
  | 6 => if le a prev && lt new a then some a else if le prev b && lt b new then some b else none
  | _ => none

/-- A condition is met by a notice (R464). -/
def condMet (cond type a b mask : Nat) (prev : Option Nat) (v : Nat) : Bool :=
  let lt (x y : Nat) : Bool := cmpVal type x y == some .lt
  let le (x y : Nat) : Bool := lt x y || cmpVal type x y == some .eq
  match cond with
  | 1 => lt a v
  | 2 => lt v a
  | 3 => match prev with
    | none => false
    | some p => le p a && lt a v
  | 4 => match prev with
    | none => false
    | some p => le a p && lt v a
  | 5 => le a v && le v b
  | 6 => lt v a || lt b v
  | 7 => true
  | 8 => (v ^^^ a) &&& mask == 0
  | _ => false

/-- The crossing time in 2⁻¹⁶ ns (R466). -/
def State.crossing (s : State) (cond a b i : Nat) (prev : Option CaptUnit) (v u : Nat) : Nat :=
  let g := s.sigRec i
  let plain := s.ts64 u <<< 16
  match prev with
  | none => plain
  | some p =>
    if cond < 1 ∨ 6 < cond ∨ !g.interp ∨ g.type = 5 then plain
    else match passed cond g.type a b p.val v with
    | none => plain
    | some th =>
      let dt : Nat := (u + 2 ^ 32 - p.stamp) % 2 ^ 32
      let f := f64.div (sigDiff g.type g.modular th p.val) (sigDiff g.type g.modular v p.val)
      match (f64.dec (f64.mul f (f64.ofInt (dt : Int)))).scaleRne 16 with
      | some k => uNat 80 (((s.ts64 u - dt) <<< 16 : Nat) + k)
      | none => plain

/-- A unit fires: once per arming; it opens or joins a coincidence window (R465, R468). -/
def Run.unitFires (r : Run s₀) (u n key t : Nat) (delay : Int) : Run s₀ :=
  if r.s.rb (Reg.captTrStat u) 31 then r
  else
    let r := (r.wb (Reg.captTrStat u) 31 true).count (Reg.captTrStat u) 15 0
    let skew := r.s.skewOn
    let t := if skew then uNat 80 ((t : Int) - delay) else t
    let x := r.s.cs n
    let joined := x.wins.any fun w => w.key == key
    let wins := if joined then x.wins.map fun w => if w.key = key then { w with units := w.units ++ [(u, t, skew)] } else w
      else x.wins ++ [⟨key, r.s.cyc, [(u, t, skew)]⟩]
    r.setCs n { x with wins := wins }

/-- A unit works on a notice of its signal (R464 to R467). -/
def Run.unitNotice (r : Run s₀) (u n : Nat) (x : Notice) : Run s₀ :=
  let st := Reg.captTrStat u
  let prev := if r.s.rb st 30 then some (tget {} u r.s.capt.units) else none
  let cond := r.s.rf (Reg.captTrCfgAct u) 23 20
  let a := (r.s.rget (Reg.captTrAAct u)).toNat
  let b := (r.s.rget (Reg.captTrBAct u)).toNat
  let mask := (r.s.rget (Reg.captTrMaskAct u)).toNat
  let type := (r.s.sigRec x.idx).type
  let met := condMet cond type a b mask (prev.map (·.val)) x.val
  let t := r.s.crossing cond a b x.idx prev x.val x.stamp
  let r := if met then r.unitFires u n x.stamp t (r.s.sigDelay x.idx) else r
  (r.up (.capt { r.s.capt with units := tset {} u ⟨x.val, x.stamp⟩ r.s.capt.units })).wb st 30 true

/-- Units of a session that are in use. -/
def State.unitsOf (s : State) (n : Nat) : List Nat :=
  (List.range 64).filter fun u => s.rb (Reg.captTrCfgAct u) 31 && s.rf (Reg.captTrCfgAct u) 27 24 == n

/-- A notice reaches its session: a CHANGE record, or a lost notice, and the trigger units (R455, R458, R459, R465). -/
def Run.captNotice (r : Run s₀) (x : Notice) : Run s₀ :=
  let n := x.sess
  if !r.s.csRuns n then r
  else
    let r := r.csFlush n
    let b32 := bit (r.s.ts64 x.stamp) 32
    let r :=
      if !(r.s.cs n).held && r.s.csRoom n 1 then
        r.csPut n [⟨b2n b32 <<< 27 + b2n x.lateIns <<< 26 + x.idx, x.stamp, x.val, 0⟩]
      else
        let c := r.s.cs n
        let r := r.setCs n { c with gapFirst := if c.gapCount = 0 then x.stamp else c.gapFirst
                                    gapCount := satAdd c.gapCount 1 (2 ^ 32 - 1), lost := true }
        (r.count (Reg.captSLost n) 31 0).flag Reg.captEvstat 2
    if x.lateIns ∨ (r.s.csState n ≠ 2 ∧ r.s.csState n ≠ 3) then r
    else r.each ((r.s.unitsOf n).filter fun u =>
        r.s.rf (Reg.captTrSigAct u) 17 0 == x.idx && r.s.rf (Reg.captTrCfgAct u) 23 20 != 9
          && r.s.rf (Reg.captTrCfgAct u) 23 20 != 0) fun r u => r.unitNotice u n x

/-- CAPT_NOTICE: the oldest change notice reaches its session (R458). -/
def execCaptNotice (s : State) : Out :=
  let r := Run.start s
  match s.sig.notices with
  | [] => r.done
  | x :: rest => ((r.mapSig fun t => { t with notices := rest }).captNotice x).done

/-- A stamp that a channel has just taken goes to the PIN units that evaluate, and is then no longer in the FIFO (R465). -/
def Run.captPin (r : Run s₀) (ch : Nat) (st : Stamp) : Run s₀ :=
  let us := (List.range 64).filter fun u =>
    let n := r.s.rf (Reg.captTrCfgAct u) 27 24
    r.s.rb (Reg.captTrCfgAct u) 31 && r.s.rf (Reg.captTrCfgAct u) 23 20 == 9 && r.s.rf (Reg.captTrCfgAct u) 3 0 == ch
      && (r.s.csState n == 2 || r.s.csState n == 3)
  if us.isEmpty then r
  else
    let c := r.s.trig ch
    let r := r.setTrig ch { c with fifo := c.fifo.dropLast }
    let t := st.sub + st.lo <<< 16 + st.hi <<< 48
    r.each us fun r u => r.unitFires u (r.s.rf (Reg.captTrCfgAct u) 27 24) (2 ^ 32 + t) t 0

/-! ## Arming across the Herd (R470 to R474) -/

/-- A session becomes ARMED: its units start afresh with v′ from entry 0 (R465, R471, R472). -/
def Run.csArm (r : Run s₀) (n armNo master : Nat) : Run s₀ :=
  let r := (r.wr (Reg.captSArmno n) armNo).wf (Reg.captSStat n) 15 0 master
  let x := r.s.cs n
  let r := r.setCs n { x with wins := [], placed := false, fired := false, primary := none, trigAt := none, postLeft := none }
  let r := (r.wr (Reg.captSTrigInfo n) 0).csTo n 2
  r.each (r.s.unitsOf n) fun r u =>
    let i := r.s.rf (Reg.captTrSigAct u) 17 0
    let e := r.s.sigHist i 0
    let r := (r.wb (Reg.captTrStat u) 31 false).wb (Reg.captTrStat u) 30 (e.status == .ok)
    r.up (.capt { r.s.capt with units := tset {} u ⟨e.val, e.stamp⟩ r.s.capt.units })

/-- ARMED → RUN. -/
def Run.csDisarm (r : Run s₀) (n : Nat) : Run s₀ :=
  (r.csTo n 1).setCs n { r.s.cs n with wins := [] }

/-- One node's answer to an ARM or DISARM; with the last one the operation ends (R471). -/
def Run.captAnswer (r : Run s₀) (n pos code : Nat) : Run s₀ :=
  let x := r.s.cs n
  let l := x.answers.set pos (some code)
  let r := r.setCs n { x with answers := l }
  let r := if code = 0 then r else r.flag Reg.captEvstat 5
  if l.all (·.isSome) then
    match x.waitOp with
    | none => r
    | some id => match r.s.op id with
      | none => r
      | some o =>
        let codes := l.map fun a => a.getD 0
        let r := r.setCs n { r.s.cs n with waitOp := none, answers := [] }
        if o.out.isSome then r
        else r.opFin o (if codes.all (· == 0) then o.okSt else .lost) 0 (codes.map (BitVec.ofNat 8))
  else r

/-- One frame of an ARM or DISARM to a listed node, with a transaction entry (R470, R471). -/
def Run.captAsk (r : Run s₀) (n kind node pos : Nat) : Run s₀ :=
  let tag := r.s.herd.nextTag
  let r := r.mapHerd fun h => { h with nextTag := (tag + 1) % 2 ^ 32 }
  let payload := bytesBE 1 kind ++ bytesBE 1 0 ++ bytesBE 2 (r.s.rf (Reg.captSHerdAct n) 15 0)
    ++ bytesBE 4 (r.s.rget (Reg.captSArmno n)).toNat ++ bytesBE 20 0 ++ bytesBE 4 tag
  let (r, ok) := r.txnOpen { dest := node, tag := tag, prio := 3, payload := payload, cls := 7, sess := n, pos := pos }
  if ok then r else r.captAnswer n pos Status.overload.code

/-- The frames of an ARM or DISARM; with no node it is complete at once. -/
def Run.captAskAll (r : Run s₀) (o : Op) (n kind : Nat) (nodes : List Nat) : Run s₀ :=
  if nodes.isEmpty then r.opFin o o.okSt 0 []
  else
    let r := r.setCs n { r.s.cs n with waitOp := some o.id, answers := nodes.map fun _ => none }
    r.each nodes.zipIdx fun r e => r.captAsk n kind e.1 e.2

/-- A received ARM or DISARM is answered; a repeated one gets the stored answer (R413, R471, R472). -/
def Run.captServe (r : Run s₀) (src : Nat) (d : List Byte) (arm : Bool) : Run s₀ :=
  let be (o k : Nat) : Nat := ofBytesBE ((d.drop o).take k)
  let tag := be 28 4
  match r.s.herd.replay.find? fun x => x.src == src && x.tag == tag with
  | some x => r.originate 7 src 3 x.payload
  | none =>
    let armNo := be 4 4
    let sess := (List.range 16).find? fun n => r.s.rb (Reg.captSCfgAct n) 29 && r.s.rf (Reg.captSHerdAct n) 15 0 == be 2 2
    let (r, st) : Run s₀ × Status := match sess with
      | none => (r, .nosuch)
      | some n =>
        let state := r.s.csState n
        let same := decide ((r.s.rget (Reg.captSArmno n)).toNat = armNo)
        if arm then
          if (state = 2 ∨ state = 3) ∧ same then (r, .ok)
          else if state = 2 ∨ state = 3 then (r, .busy)
          else if state ≠ 1 then (r, .refused)
          else (r.csArm n armNo src, .ok)
        else if state = 2 ∧ same then (r.csDisarm n, .ok)
        else (r, .refused)
    let payload := bytesBE 1 (if arm then 2 else 5) ++ bytesBE 1 st.code ++ (d.drop 2).take 6 ++ bytesBE 20 0 ++ bytesBE 4 tag
    let r := r.mapHerd fun h => if h.replay.length < 1024 then
        { h with replay := h.replay ++ [⟨src, tag, payload, r.s.cyc⟩] } else h
    r.originate 7 src 3 payload

/-- A received ARMACK or DISACK (R471). -/
def Run.captAck (r : Run s₀) (src : Nat) (d : List Byte) : Run s₀ :=
  let be (o k : Nat) : Nat := ofBytesBE ((d.drop o).take k)
  match r.s.herd.txns.find? fun e => e.cls == 7 && e.dest == src && e.tag == be 28 4 with
  | none => r
  | some e =>
    let r := (r.mapHerd fun h => { h with txns := h.txns.erase e }).showTxn
    r.captAnswer e.sess e.pos (be 1 1)

/-- A received FIRE (R474). -/
def Run.captFire (r : Run s₀) (src : Nat) (d : List Byte) : Run s₀ :=
  let be (o k : Nat) : Nat := ofBytesBE ((d.drop o).take k)
  let sess := (List.range 16).find? fun n =>
    r.s.rf (Reg.captSHerdAct n) 15 0 == be 2 2 && (r.s.rget (Reg.captSArmno n)).toNat == be 4 4
      && (r.s.csState n == 2 || r.s.csState n == 3)
  match sess with
  | none => (r.count Reg.captHerderr 31 0).flag Reg.captEvstat 4
  | some n =>
    (r.placeTrig n { t := be 8 8 <<< 16 + be 16 2, src := 1, unit := be 18 1 % 64, mask := be 20 8, node := src }).flag
      Reg.captEvstat 3

def execArm (src : Nat) (d : List Byte) (s : State) : Out := ((Run.start s).captServe src d true).done
def execDisarm (src : Nat) (d : List Byte) (s : State) : Out := ((Run.start s).captServe src d false).done
def execArmack (src : Nat) (d : List Byte) (s : State) : Out := ((Run.start s).captAck src d).done
def execDisack (src : Nat) (d : List Byte) (s : State) : Out := ((Run.start s).captAck src d).done
def execFire (src : Nat) (d : List Byte) (s : State) : Out := ((Run.start s).captFire src d).done

/-- A delivered TRIG frame (R470). -/
def Run.captFrame (r : Run s₀) (src : Nat) (d : List Byte) : Run s₀ :=
  if d.length ≠ 32 then r.count Reg.captHerderr 31 0
  else match (d.head?.map (·.toNat)).getD 0 with
  | 1 => r.captServe src d true
  | 2 => r.captAck src d
  | 3 => r.captFire src d
  | 4 => r.captServe src d false
  | 5 => r.captAck src d
  | _ => r.count Reg.captHerderr 31 0

/-- TXN_RETRY_TIMEOUT: no response within `txn_us`; the request is sent again, or the transaction ends TIMEOUT (R413,
R471). -/
def execTxnRetryTimeout (tag dest : Nat) (s : State) : Out :=
  let r := Run.start s
  match s.herd.txns.find? fun e => e.tag == tag && e.dest == dest with
  | none => r.done
  | some e =>
    if !e.sent ∨ s.cyc < e.sentAt + usCyc (s.rf Reg.herdTxnCfg 15 0) then r.done
    else if e.tries ≤ s.rf Reg.herdTxnCfg 26 24 then
      let e' := { e with tries := e.tries + 1, sent := false, sentAt := s.cyc }
      let r := r.mapHerd fun h => { h with txns := h.txns.map fun x => if x = e then e' else x }
      (r.txnSend e').done
    else
      let r := (r.mapHerd fun h => { h with txns := h.txns.erase e }).showTxn.flag Reg.herdEvstat 18
      (if e.cls = 7 then r.captAnswer e.sess e.pos Status.timeout.code
       else match e.op with
       | none => r
       | some id => r.opFinId id .timeout 0 []).done

/-! ## Operations (R475), unit 4 -/

/-- A refusal of class 0x10 sets `cfgerr` and fills CAPT_LASTERR (R475). -/
def Run.captRefuse (r : Run s₀) (o : Op) (st : Status) (cause pos : Nat) : Run s₀ :=
  let r := (r.flag Reg.captEvstat 8).wr Reg.captLasterr (st.code <<< 24 + cause <<< 16 + (pos % 4096) <<< 4 + o.obj % 16)
  r.opFin o st cause []

/-- No index occurs twice. -/
def noDup : List Nat → Bool
  | [] => true
  | a :: t => !t.contains a && noDup t

/-- The ring lies where its mode asks for (R461, R475). -/
def State.csRingOk (s : State) (n : Nat) : Bool :=
  let a := s.rget64 (Reg.captSBaseLoAct n) (Reg.captSBaseHiAct n)
  let len := 12 * s.csSize n
  s.memStatus 4 a len true == .ok &&
    (match regionOf a with
     | .ddr => true
     | .host _ => s.csStream n
     | _ => false)

/-- The order of START: pointers, marker, then each listed signal (R451). -/
def Run.csStart (r : Run s₀) (n : Nat) (l : List Nat) (op : Nat) : Run s₀ :=
  let r := ((((r.wr (Reg.captSWr n) 0).wr (Reg.captSRd n) 0).wr (Reg.captSFirst n) 0).wr (Reg.captSCount n) 0).wf
    (Reg.captSStat n) 23 16 0
  let x := r.s.cs n
  let r := (r.setCs n { list := l, arms := x.arms, startOp := some op }).csTo n 1
  (r.csMarker n 0 0).csInit n l

/-- START acts. -/
def Run.actCaptStart (r : Run s₀) (o : Op) : Run s₀ :=
  let n := o.obj
  if r.s.csState n ≠ 0 ∧ r.s.csState n ≠ 4 then r.captRefuse o .refused 0 0
  else
    let k := r.s.rf (Reg.captSCfgAct n) 12 0
    let (r, st, d) := if k = 0 then (r, .ok, []) else
      r.memRead 4 (r.s.rget64 (Reg.captSListLoAct n) (Reg.captSListHiAct n)) (4 * k)
    let l := (List.range k).map fun j => recNat d (4 * j) 4
    if st ≠ .ok ∨ l.any (fun i => decide (0x3FFFF < i)) ∨ !noDup l then r.captRefuse o .cfgerr 0x10 0
    else match l.zipIdx.find? fun e => !(r.s.sigRec e.1).defined with
    | some e => r.captRefuse o .nosuch 0x10 e.2
    | none =>
      if !r.s.csRingOk n then r.captRefuse o .cfgerr 0 0
      else (r.opAct o).csStart n l o.id

/-- The listed nodes of ARM and DISARM. -/
def armNodes (d : List Byte) : List Nat := (List.range (recNat d 2 2)).map fun k => recNat d (16 + 2 * k) 2

/-- A bad node count (R475). -/
def State.armBad (s : State) (n : Nat) (d : List Byte) : Bool :=
  decide (64 < recNat d 2 2) || (decide (recNat d 2 2 ≠ 0) && !s.rb (Reg.captSCfgAct n) 29)

/-- ARM acts. -/
def Run.actCaptArm (r : Run s₀) (o : Op) : Run s₀ :=
  let n := o.obj
  let out (u : Nat) : Bool :=
    let c := r.s.rf (Reg.captTrCfgAct u) 23 20
    c != 0 && c != 9 && !(r.s.cs n).list.contains (r.s.rf (Reg.captTrSigAct u) 17 0)
  if r.s.csState n ≠ 1 then r.captRefuse o .refused 0 0
  else if (r.s.unitsOf n).any out then r.captRefuse o .cfgerr 0x10 0
  else if r.s.armBad n o.payload then r.captRefuse o .cfgerr 0 0
  else
    let x := r.s.cs n
    let k := (x.arms + 1) % 65536
    let r := r.setCs n { x with arms := k }
    let r := r.csArm n (r.s.nodeId <<< 16 + k) 0
    (r.opAct o).captAskAll o n 1 (armNodes o.payload)

/-- TRIGGER acts. -/
def Run.actCaptTrigger (r : Run s₀) (o : Op) : Run s₀ :=
  let n := o.obj
  if r.s.csState n ≠ 2 ∧ r.s.csState n ≠ 3 then r.captRefuse o .refused 0 0
  else (r.placeTrig n { t := r.s.now <<< 16, src := 2 }).opFin o o.okSt 0 []

/-- DISARM acts. -/
def Run.actCaptDisarm (r : Run s₀) (o : Op) : Run s₀ :=
  let n := o.obj
  if r.s.csState n ≠ 2 then r.captRefuse o .refused 0 0
  else if r.s.armBad n o.payload then r.captRefuse o .cfgerr 0 0
  else ((r.csDisarm n).opAct o).captAskAll o n 4 (armNodes o.payload)

/-- STOP acts. -/
def Run.actCaptStop (r : Run s₀) (o : Op) : Run s₀ :=
  let n := o.obj
  if !r.s.csRuns n then r.opFin o .empty 0 []
  else
    let st : Status := if !r.s.csStream n && r.s.csState n == 3 then .aborted else if (r.s.cs n).lost then .lost else .ok
    (r.csDone n st).opFin o o.okSt 0 []

/-- STATUS acts. -/
def Run.actCaptStatus (r : Run s₀) (o : Op) : Run s₀ :=
  let n := o.obj
  let w (a : Nat) : Nat := (r.s.rget a).toNat
  r.opFin o o.okSt 0 (wordsLE [w (Reg.captSStat n), w (Reg.captSWr n), w (Reg.captSFirst n), w (Reg.captSCount n),
    w (Reg.captSLost n), w (Reg.captSArmno n), w (Reg.captSTrigLo n), w (Reg.captSTrigHi n)])

def execCaptStart (id : Nat) (s : State) : Out := ((Run.start s).opRow id 4 2 Run.actCaptStart).done
def execCaptArm (id : Nat) (s : State) : Out := ((Run.start s).opRow id 4 3 Run.actCaptArm).done
def execCaptTrigger (id : Nat) (s : State) : Out := ((Run.start s).opRow id 4 4 Run.actCaptTrigger).done
def execCaptDisarm (id : Nat) (s : State) : Out := ((Run.start s).opRow id 4 5 Run.actCaptDisarm).done
def execCaptStop (id : Nat) (s : State) : Out := ((Run.start s).opRow id 4 6 Run.actCaptStop).done
def execCaptStatus (id : Nat) (s : State) : Out := ((Run.start s).opRow id 4 7 Run.actCaptStatus).done

/-! ## Groups (R477) -/

/-- The check of R15 for group Sn, and for group TRu. -/
def State.csCheck (s : State) (n : Nat) : Bool :=
  let h := s.rf (Reg.captSHerd n) 22 16
  (s.csState n == 0 || s.csState n == 4) && decide (1 ≤ h ∧ h ≤ 100 ∧ s.rf (Reg.captSCfg n) 12 0 ≤ 4096)

def State.truCheck (s : State) (u : Nat) : Bool :=
  let was := s.rf (Reg.captTrCfgAct u) 27 24
  let held (n : Nat) : Bool := s.csState n == 2 || s.csState n == 3
  !(s.rb (Reg.captTrCfgAct u) 31 && held was) && !held (s.rf (Reg.captTrCfg u) 27 24)
    && decide (s.rf (Reg.captTrCfg u) 23 20 ≤ 9 ∧ s.rf (Reg.captTrCfg u) 3 0 ≤ 8)

end Sys2Proof.Machine
end

