-- ==== Sys2Proof/Machine/MotLaw.lean ====
section
/-!
DEFINITION. The arithmetic of profiles and virtual masters (08_motion.md, R308 to R311, R326, R331 to R333) in binary64.
Velocities, accelerations, jerks and times in seconds are binary64 words; positions are raw 48.16. The order of the
binary64 operations is that of the printed formulas from left to right (DEDUCED, log 24).
-/
namespace Sys2Proof.Machine

/-! ## binary64 words -/

def dadd (a b : Nat) : Nat := f64.add a b
def dsub (a b : Nat) : Nat := f64.sub a b
def dmul (a b : Nat) : Nat := f64.mul a b
def ddiv (a b : Nat) : Nat := f64.div a b
def dsqrt (a : Nat) : Nat := f64.sqrt a
def dneg (a : Nat) : Nat := f64.neg a
def dabs (a : Nat) : Nat := f64.abs a
def dlt (a b : Nat) : Bool := f64.lt a b
def dle (a b : Nat) : Bool := f64.le a b
def dmin (a b : Nat) : Nat := f64.min a b
def dofi (i : Int) : Nat := f64.ofInt i
def dpos (a : Nat) : Bool := f64.lt 0 a

/-- The sign of a binary64 word; 0 for a zero or a NaN. -/
def dsgn (a : Nat) : Int := if f64.lt 0 a then 1 else if f64.lt a 0 then -1 else 0

/-- A word with the sign s of a direction. -/
def dsig (s : Int) (a : Nat) : Nat := if s < 0 then dneg a else a

/-- A finite binary64 or binary32 word. -/
def dfin (a : Nat) : Bool := !(f64.isNan a || f64.isInf a)
def ffin (a : Nat) : Bool := !(f32.isNan a || f32.isInf a)

/-- A binary32 word as binary64. -/
def d32 (a : Nat) : Nat := f32.conv f64 a

/-- Nanoseconds as seconds, rounded once. -/
def dsec (ns : Int) : Nat := f64.ofRat (decide (ns < 0)) ns.natAbs 1000000000 0

/-- Counts as raw 48.16, to nearest, ties to even; 0 of a datum that is not finite. -/
def rawOf (x : Nat) : Int := ((f64.dec x).scaleRne 16).getD 0

/-- Raw 48.16 as counts. -/
def dOfRaw (i : Int) : Nat := f64.ofRat (decide (i < 0)) i.natAbs 65536 0

/-- Raw 48.16 kept to 64 bits (R303). -/
def wrap64 (p : Int) : Int := sInt 64 (uNat 64 p)

/-! ## Changes of velocity (R308, R309) -/

/-- The limits of a plan. -/
structure MotLim where
  vmax : Nat
  amax : Nat
  dmax : Nat
  jmax : Nat
deriving DecidableEq, Repr

/-- A_lim of R308; with |v1| = |v0| the smaller limit (DEDUCED, log 24). -/
def MotLim.aLim (l : MotLim) (v0 v1 : Nat) : Nat :=
  if dsgn v0 * dsgn v1 < 0 then dmin l.amax l.dmax
  else if dlt (dabs v0) (dabs v1) then l.amax
  else if dlt (dabs v1) (dabs v0) then l.dmax
  else dmin l.amax l.dmax

/-- The segments (jerk, duration) of a change from (v0, a0) to (v1, 0) (R308); a zero duration removes its segment. The
change ends at v1 (log 24). -/
def change (v0 a0 v1 aLim j : Nat) : List (Nat × Nat) :=
  let two := dofi 2
  let dv := dsub v1 v0
  let s := dsgn (dsub dv (ddiv (dmul a0 (dabs a0)) (dmul two j)))
  if s = 0 then (if dsgn a0 = 0 then [] else [(dsig (-(dsgn a0)) j, ddiv (dabs a0) j)])
  else
    let sdv := dsig s dv
    let ap := dmin aLim (dsqrt (dadd (dmul j sdv) (ddiv (dmul a0 a0) two)))
    let sap := dsig s ap
    let d1 := dsub sap a0
    let t1 := ddiv (dabs d1) j
    let t3 := ddiv ap j
    let t2 := ddiv (dsub (dsub (dabs dv) (ddiv (dmul (dsig s (dadd a0 sap)) t1) two)) (ddiv (dmul ap t3) two)) ap
    [(dsig (dsgn d1) j, t1), (0, t2), (dsig (-s) j, t3)].filter fun e => dpos e.2

/-- Distance, velocity and acceleration after a time of constant jerk. -/
def jerkStep (v a j t : Nat) : Nat × Nat × Nat :=
  let t2 := dmul t t
  (dadd (dadd (dmul v t) (ddiv (dmul a t2) (dofi 2))) (ddiv (dmul j (dmul t2 t)) (dofi 6)),
   dadd (dadd v (dmul a t)) (ddiv (dmul j t2) (dofi 2)), dadd a (dmul j t))

/-- The distance covered by segments from (v, a). -/
def distOf (v a : Nat) (l : List (Nat × Nat)) : Nat :=
  (l.foldl (fun (acc : Nat × Nat × Nat) e =>
    let (d, v', a') := jerkStep acc.2.1 acc.2.2 e.1 e.2
    (dadd acc.1 d, v', a')) (0, v, a)).1

/-- The stopping distance (R309). -/
def dStop (l : MotLim) (v a : Nat) : Nat := distOf v a (change v a 0 l.dmax l.jmax)

/-! ## Plans (R310, R311) -/

/-- Segments laid end to end from (p, v, a); the end is (v1, 0) exactly. -/
def laySegs (p : Int) (v a : Nat) : List (Nat × Nat) → List MotSeg × Int
  | [] => ([], p)
  | (j, t) :: rest =>
    let (d, v', a') := jerkStep v a j t
    let (l, pe) := laySegs (wrap64 (p + rawOf d)) v' a' rest
    (⟨j, t, p, v, a⟩ :: l, pe)

/-- Two stretches in a row, the second from its own velocity at rest of acceleration. -/
def layTwo (x : List MotSeg × Int) (v : Nat) (l : List (Nat × Nat)) : List MotSeg × Int :=
  let (m, pe) := laySegs x.2 v 0 l
  (x.1 ++ m, pe)

/-- reach(vc) along the direction s: the change from (v0, a0) to vc and the stop from it (R310). -/
def reach (l : MotLim) (s : Int) (v0 a0 vc : Nat) : Nat :=
  dsig s (dadd (distOf v0 a0 (change v0 a0 vc (l.aLim v0 vc) l.jmax)) (dStop l vc 0))

/-- The direct plan of R310 from (p0, v0, a0) to `pt`. -/
def planDirect (l : MotLim) (p0 : Int) (v0 a0 : Nat) (pt : Int) : List MotSeg × Int :=
  let dist := pt - p0
  let s := dist.sign
  let d := dabs (dOfRaw dist)
  let top := dsig s l.vmax
  let vc :=
    if dle (reach l s v0 a0 top) d then top
    else dsig s ((List.range 40).foldl (fun (acc : Nat × Nat) _ =>
      let mid := ddiv (dadd acc.1 acc.2) (dofi 2)
      if dle (reach l s v0 a0 (dsig s mid)) d then (mid, acc.2) else (acc.1, mid)) (0, l.vmax)).1
  let up := laySegs p0 v0 a0 (change v0 a0 vc (l.aLim v0 vc) l.jmax)
  let cruise := if dsgn vc = 0 then [] else
    [((0 : Nat), ddiv (dsub d (reach l s v0 a0 vc)) (dabs vc))].filter fun e => dpos e.2
  layTwo (layTwo up vc cruise) vc (change vc 0 0 l.dmax l.jmax)

/-- The plan to a position (R310): direct, or a brake first when the target lies at or behind the stop point. -/
def planTo (l : MotLim) (start : Nat) (p0 : Int) (v0 a0 : Nat) (pt : Int) : MotPlan :=
  let ps := p0 + rawOf (dStop l v0 a0)
  let dir := dsgn (dadd v0 (ddiv (dmul a0 (dabs a0)) (dmul (dofi 2) l.jmax)))
  let moving := dsgn v0 != 0 || dsgn a0 != 0
  let (segs, pe) :=
    if moving && (pt - ps).sign != dir then
      let b := laySegs p0 v0 a0 (change v0 a0 0 l.dmax l.jmax)
      let (m, pe) := planDirect l b.2 0 0 pt
      (b.1 ++ m, pe)
    else planDirect l p0 v0 a0 pt
  ⟨start, segs, pe, .position pt⟩

/-- The plan to a velocity (R311). -/
def planVel (l : MotLim) (start : Nat) (p0 : Int) (v0 a0 v1 : Nat) : MotPlan :=
  let (segs, pe) := laySegs p0 v0 a0 (change v0 a0 v1 (l.aLim v0 v1) l.jmax)
  ⟨start, segs, pe, .velocity v1⟩

/-- The braking plan to rest with a given deceleration and jerk (R317, R319); `quick` says that they are `qdec` and
`qjerk`. -/
def planRest (start : Nat) (p0 : Int) (v0 a0 dec j : Nat) (quick : Bool) : MotPlan :=
  let (segs, pe) := laySegs p0 v0 a0 (change v0 a0 0 dec j)
  ⟨start, segs, pe, .rest quick⟩

/-- A reference: position, velocity, acceleration. -/
structure MotRef where
  p : Int
  v : Nat
  a : Nat
deriving DecidableEq, Repr

/-- The segment in use after a time, with the time in it; none past the end, with the time left over. -/
def segAt (tau : Nat) : List MotSeg → Option MotSeg × Nat
  | [] => (none, tau)
  | x :: t => if dlt tau x.dur then (some x, tau) else segAt (dsub tau x.dur) t

/-- A plan evaluated at an instant of the grid's base (R310); true says that it has ended. -/
def MotPlan.eval (m : MotPlan) (wide : Bool) (t : Nat) : MotRef × Bool :=
  let w := if wide then 64 else 48
  let dt : Nat := (t + 2 ^ w - m.start % 2 ^ w) % 2 ^ w
  match segAt (dsec (dt : Int)) m.segs with
  | (some x, tau) =>
    let (d, v, a) := jerkStep x.v x.a x.jerk tau
    (⟨wrap64 (x.p + rawOf d), v, a⟩, false)
  | (none, tau) => match m.goal with
    | .position p => (⟨p, 0, 0⟩, true)
    | .velocity v => (⟨wrap64 (m.pEnd + rawOf (dmul v tau)), v, 0⟩, true)
    | .rest _ => (⟨m.pEnd, 0, 0⟩, true)

/-- A plan in shifted coordinates (R321). -/
def MotPlan.shift (m : MotPlan) (d : Int) : MotPlan :=
  { m with segs := m.segs.map fun x => { x with p := wrap64 (x.p + d) }, pEnd := wrap64 (m.pEnd + d)
           goal := match m.goal with
             | .position p => .position (wrap64 (p + d))
             | g => g }

/-! ## Virtual masters (R325, R326, R331) -/

/-- A segment from its 48 bytes, little-endian. -/
def vmSegOf (d : List Byte) : VmSeg :=
  { tStart := recNat d 0 8, c0 := sInt 64 (recNat d 8 8), c1 := recNat d 16 8, c2 := recNat d 24 4, c3 := recNat d 28 4
    durUs := recNat d 32 4, roDec := recNat d 36 4, roJerk := recNat d 40 4, seq := recNat d 44 2 }

/-- The fields of a segment in order, with their sizes. -/
def VmSeg.fields (g : VmSeg) : List (Nat × Nat) :=
  [(8, g.tStart), (8, uNat 64 g.c0), (8, g.c1), (4, g.c2), (4, g.c3), (4, g.durUs), (4, g.roDec), (4, g.roJerk),
   (2, g.seq), (2, 0)]

/-- A segment on the wire, big-endian (R3, R325), and back. -/
def VmSeg.wire (g : VmSeg) : List Byte := g.fields.flatMap fun f => bytesBE f.1 f.2
def vmSegOfWire (d : List Byte) : VmSeg :=
  let be (o n : Nat) : Nat := ofBytesBE ((d.drop o).take n)
  { tStart := be 0 8, c0 := sInt 64 (be 8 8), c1 := be 16 8, c2 := be 24 4, c3 := be 28 4, durUs := be 32 4
    roDec := be 36 4, roJerk := be 40 4, seq := be 44 2 }

/-- End of a segment's validity. -/
def VmSeg.tEnd (g : VmSeg) : Nat := g.tStart + g.durUs * 1000

/-- Position, velocity and acceleration of a segment after τ nanoseconds (R326). -/
def VmSeg.poly (g : VmSeg) (ns : Nat) : MotRef :=
  let t := dsec ns
  let t2 := dmul t t
  let c2 := d32 g.c2
  let c3 := d32 g.c3
  ⟨g.c0 + rawOf (dadd (dadd (dmul g.c1 t) (dmul c2 t2)) (dmul c3 (dmul t2 t))),
   dadd (dadd g.c1 (dmul (dmul (dofi 2) c2) t)) (dmul (dmul (dofi 3) c3) t2),
   dadd (dmul (dofi 2) c2) (dmul (dmul (dofi 6) c3) t)⟩

/-- The master of a segment at time `t` ≥ `t_start`, with its runout after the end (R326, R331); true says runout. -/
def VmSeg.at (g : VmSeg) (t : Nat) : MotRef × Bool :=
  if t < g.tEnd then (g.poly (t - g.tStart), false)
  else
    let e := g.poly (g.durUs * 1000)
    ((planRest 0 e.p e.v e.a (d32 g.roDec) (d32 g.roJerk) false).eval true (t - g.tEnd) |>.1, true)

/-- The current segment of a queue at `t`: the one with the latest `t_start` ≤ t. -/
def vmCurrent (q : List VmSeg) (t : Nat) : Option VmSeg :=
  q.foldl (fun b g => if t < g.tStart then b else match b with
    | none => some g
    | some x => if x.tStart ≤ g.tStart then some g else some x) none

/-! ## Gears and cams (R332, R333) -/

/-- A quotient rounded to nearest, ties away from zero. -/
def divAway (a : Int) (d : Nat) : Int :=
  let q : Nat := divNear a.natAbs d
  if a < 0 then -(q : Int) else (q : Int)

/-- The gear of R332: position, velocity and acceleration. -/
def gearRef (f : Follow) (m : MotRef) : MotRef :=
  let k := ddiv (dofi f.num) (dofi f.den)
  ⟨f.pf0 + divAway (f.num * (m.p - f.pm0)) f.den + f.phi, dmul m.v k, dmul m.a k⟩

/-- Where a cam stands (R333): whole cycles, the place in the span, and the point at or before it. -/
def camPos (f : Follow) (m : MotRef) (n : Nat) (cyclic : Bool) (w : Nat) : Int × Int × Int :=
  let x0 := m.p - f.pm0
  let ic : Int := if cyclic then x0 / (w : Int) else 0
  let x : Int := if cyclic then x0 - ic * w else max 0 (min x0 w)
  (ic, x, min (x * (n - 1 : Nat) / (w : Int)) ((n : Int) - 2))

/-- The table point that stands for point `j`: a cyclic table repeats, another ends. -/
def camPt (n : Nat) (cyclic : Bool) (j : Int) : Int :=
  if cyclic then j % ((n : Int) - 1) else max 0 (min j ((n : Int) - 1))

/-- The cam of R333 over points `y` (raw 48.16), `n` of them, span in raw units. -/
def camRef (f : Follow) (m : MotRef) (y : Int → Int) (n : Nat) (cyclic : Bool) (w : Nat) : MotRef :=
  let x0 := m.p - f.pm0
  let rise := y ((n : Int) - 1) - y 0
  let (ic, x, i) := camPos f m n cyclic w
  let inside := cyclic || (decide (0 < x0) && decide (x0 < w))
  let q : Int := x * (n - 1 : Nat)
  let fr := f64.ofRat false (q - i * w).natAbs w 0
  let yy (j : Int) : Int :=
    y (camPt n cyclic j) + (if cyclic then j / ((n : Int) - 1) * rise else 0)
  let mm (j : Int) : Nat :=
    if !cyclic && (j == 0 || j == (n : Int) - 1) then
      (if j = 0 then dofi (yy 1 - yy 0) else dofi (yy j - yy (j - 1)))
    else ddiv (dofi (yy (j + 1) - yy (j - 1))) (dofi 2)
  let y0 := dofi (yy i)
  let y1 := dofi (yy (i + 1))
  let m0 := mm i
  let m1 := mm (i + 1)
  let f2 := dmul fr fr
  let f3 := dmul f2 fr
  let c (k : Int) : Nat := dofi k
  let sum4 (a b d e : Nat) : Nat := dadd (dadd (dadd (dmul a y0) (dmul b m0)) (dmul d y1)) (dmul e m1)
  let pos := sum4 (dadd (dsub (dmul (c 2) f3) (dmul (c 3) f2)) (c 1)) (dadd (dsub f3 (dmul (c 2) f2)) fr)
    (dadd (dneg (dmul (c 2) f3)) (dmul (c 3) f2)) (dsub f3 f2)
  let d1 := sum4 (dsub (dmul (c 6) f2) (dmul (c 6) fr)) (dadd (dsub (dmul (c 3) f2) (dmul (c 4) fr)) (c 1))
    (dadd (dneg (dmul (c 6) f2)) (dmul (c 6) fr)) (dsub (dmul (c 3) f2) (dmul (c 2) fr))
  let d2 := sum4 (dsub (dmul (c 12) fr) (c 6)) (dsub (dmul (c 6) fr) (c 4)) (dadd (dneg (dmul (c 12) fr)) (c 6))
    (dsub (dmul (c 6) fr) (c 2))
  -- master units per point, and raw per count
  let k := f64.ofRat false ((n - 1) * 65536) w 0
  let vs := dmul (ddiv d1 (c 65536)) k
  let as := dmul (dmul (ddiv d2 (c 65536)) k) k
  let v := if inside then dmul vs m.v else 0
  let a := if inside then dadd (dmul as (dmul m.v m.v)) (dmul vs m.a) else 0
  ⟨f.pf0 + ((f64.dec pos).scaleRne 0).getD 0 + ic * rise + f.phi, v, a⟩

end Sys2Proof.Machine
end

