-- ==== Sys2Proof/Machine/Motion.lean ====
section
/-!
DEFINITION. Profile generators, homing, limits, virtual masters and following (08_motion.md, R303 to R341), and the MOT
unit (unit 2).
-/
namespace Sys2Proof.Machine

variable {s₀ : State}

/-- A generator and a slot. -/
def State.mot (s : State) (n : Nat) : Mot := tget {} n s.motion.mots
def Run.setMot (r : Run s₀) (n : Nat) (x : Mot) : Run s₀ :=
  r.up (.motion { r.s.motion with mots := tset {} n x r.s.motion.mots })
def State.vm (s : State) (m : Nat) : Vm := tget {} m s.motion.vms
def Run.setVm (r : Run s₀) (m : Nat) (x : Vm) : Run s₀ :=
  r.up (.motion { r.s.motion with vms := tset {} m x r.s.motion.vms })

/-- A limit in use as binary64: VMAX, AMAX, DMAX, JMAX, QDEC, QJERK, VSEARCH, CU_VMAX, CU_AMAX, CU_JMAX. -/
def State.motLimit (s : State) (n i : Nat) : Nat := d32 (s.rget (Reg.motLimAct n i)).toNat
def State.motLims (s : State) (n : Nat) : MotLim := ⟨s.motLimit n 0, s.motLimit n 1, s.motLimit n 2, s.motLimit n 3⟩
def State.motCu (s : State) (n : Nat) : MotLim := ⟨s.motLimit n 7, s.motLimit n 8, s.motLimit n 8, s.motLimit n 9⟩

/-- The generator counts the axis as ready (R314). -/
def State.motReady (s : State) (n : Nat) : Bool :=
  match s.axMode n with
  | 1 => s.axOn n
  | 2 => s.axReady n
  | _ => false

/-- Role, action and active level of an AUX input in the configuration in use. -/
def State.auxRole (s : State) (n i : Nat) : Nat := if i = 0 then s.rf (Reg.motCfgAct n) 1 0 else s.rf (Reg.motCfgAct n) 5 4
def State.auxHard (s : State) (n i : Nat) : Bool := !s.rb (Reg.motCfgAct n) (if i = 0 then 2 else 6)
def State.auxActive (s : State) (n i : Nat) (level : Bool) : Bool := level != s.rb (Reg.motCfgAct n) (if i = 0 then 3 else 7)

/-- The input of a role is qualified active. -/
def State.roleActive (s : State) (n role : Nat) : Bool :=
  (List.range 2).any fun i => s.auxRole n i == role && s.auxActive n i ((s.ax n).aux i).qual

/-- MOTn_STAT. -/
def State.motStat (s : State) (n : Nat) : Nat :=
  let m := s.mot n
  let ro := match m.follow with
    | some f => (s.vm f.slot).runout
    | none => false
  s.rf (Reg.motStat n) 9 9 <<< 9 + b2n (s.roleActive n 1) <<< 10 + b2n (s.roleActive n 2) <<< 11 + b2n ro <<< 13 + b2n (m.state == 6) <<< 12 + b2n (s.motReady n) <<< 8 + m.state

/-- Motion in a direction is blocked by an active limit (R317). -/
def State.motBlocked (s : State) (n : Nat) (dir : Int) : Bool :=
  (decide (0 < dir) && s.roleActive n 1) || (decide (dir < 0) && s.roleActive n 2)

/-! ## Ends of operations -/

/-- An operation on an axis ends; a REFUSED or CFGERR outcome is recorded. -/
def Run.motFin (r : Run s₀) (o : Op) (st : Status) (cause k : Nat) : Run s₀ :=
  ((r.when (st == .refused || st == .cfgerr) fun r =>
    (r.flag (Reg.motEvstat o.obj) 2).wr (Reg.motLasterr o.obj) (st.code <<< 24 + cause <<< 16 + o.code)).opEnd o st cause k
      [] 0)

/-- An operation on a slot or a table ends. -/
def Run.vmFin (r : Run s₀) (o : Op) (st : Status) (cause : Nat) (res : List Byte) : Run s₀ :=
  (r.when (st == .refused || st == .cfgerr) fun r => r.flag Reg.vmEvstat 0).opFin o st cause res

/-- Running operations by number end at boundary time `k`. -/
def Run.endIds (r : Run s₀) (ids : List Nat) (st : Option Status) (cause k : Nat) : Run s₀ :=
  r.each ids fun r id => match r.s.op id with
    | none => r
    | some o => if o.out.isSome then r else r.opEnd o (st.getD o.okSt) cause k [] 0

/-- The ARRIVE operations pending on an axis end. -/
def Run.arriveEnd (r : Run s₀) (n : Nat) (st : Option Status) (cause k : Nat) : Run s₀ :=
  r.endIds ((r.s.sp.ops.filter fun o => o.unit == 2 && o.code == 6 && o.obj == n && o.acted && o.out.isNone).map (·.id))
    st cause k

/-- Running operations end because their motion ends; one that took effect on this very boundary completes OK (R312). -/
def Run.endShort (r : Run s₀) (ids : List Nat) (cause k : Nat) : Run s₀ :=
  r.each ids fun r id => match r.s.op id with
    | none => r
    | some o => if o.out.isSome then r
        else if cause = 0x04 ∧ o.actedAt = r.s.now then r.opEnd o o.okSt 0 k [] 0 else r.opEnd o .aborted cause k [] 0

/-- Homing ends ABORTED (R322, R323). -/
def Run.homeAbort (r : Run s₀) (n cause k : Nat) : Run s₀ :=
  match (r.s.mot n).home with
  | none => r
  | some h => (r.setMot n { r.s.mot n with home := none }).endShort [h.op] cause k

/-- Following ends; an operation that waited for SYNCED ends ABORTED, cause PREEMPT (DEDUCED, log 25). -/
def Run.followEnd (r : Run s₀) (n cause k : Nat) : Run s₀ :=
  match (r.s.mot n).follow with
  | none => r
  | some f => (r.setMot n { r.s.mot n with follow := none }).endShort f.ops cause k

/-- The generator enters IDLE: what waits for arrival ends OK (R339; after a STOP too, DEDUCED, log 25). -/
def Run.motIdle (r : Run s₀) (n k : Nat) : Run s₀ :=
  (r.setMot n { r.s.mot n with state := 0, v := 0, a := 0, plan := none }).arriveEnd n none 0 k

/-- The reference moved to a place at rest, with the step port's references, so that no step follows from it. -/
def Run.motPlace (r : Run s₀) (n : Nat) (p : Int) : Run s₀ :=
  let r := r.setMot n { r.s.mot n with ref := p, v := 0, a := 0, prev := p }
  r.setAx n { r.s.ax n with ref0 := p, ref1 := p, ref2 := p }

/-! ## Masters -/

/-- Segments before the current one leave the queue; a newer current segment ends a runout (R326, R330). -/
def Run.vmPrune (r : Run s₀) (m t : Nat) : Run s₀ :=
  let x := r.s.vm m
  match vmCurrent x.queue t with
  | none => r
  | some g =>
    let q := x.queue.dropWhile fun e => e.tStart != g.tStart
    if q.length < x.queue.length then r.setVm m { x with queue := q, runout := false } else r

/-- The master of a slot at a TB0 time; none when no segment is current. -/
def State.vmAt (s : State) (m t : Nat) : Option MotRef := (vmCurrent (s.vm m).queue t).map fun g => (g.at t).1

/-- Point `j` of a cam table (R333). -/
def State.camPoint (s : State) (c : Nat) (j : Int) : Int :=
  sInt 64 (s.memNat (s.rget64 (Reg.vmCamBaseLoAct c) (Reg.vmCamBaseHiAct c) + 8 * j.toNat) 8)

/-- The followed reference g of a master's place, without the correction (R332, R333). -/
def State.followOf (s : State) (f : Follow) (m : MotRef) : MotRef :=
  let g :=
    if f.cam then
      camRef f m (s.camPoint f.table) (s.rf (Reg.vmCamCfgAct f.table) 12 0) (s.rb (Reg.vmCamCfgAct f.table) 31)
        (s.rf (Reg.vmCamSpanAct f.table) 30 0 * 65536)
    else gearRef f m
  { g with p := wrap64 g.p }

/-- The followed reference g at TB0 time `t`. -/
def State.followRef (s : State) (f : Follow) (t : Nat) : Option MotRef := (s.vmAt f.slot t).map (s.followOf f)

/-- The addresses of the points that a cam needs at a master's place (R333). -/
def State.camNeeds (s : State) (f : Follow) (m : MotRef) : List Nat :=
  let n := s.rf (Reg.vmCamCfgAct f.table) 12 0
  let cyclic := s.rb (Reg.vmCamCfgAct f.table) 31
  let (_, _, i) := camPos f m n cyclic (s.rf (Reg.vmCamSpanAct f.table) 30 0 * 65536)
  let base := s.rget64 (Reg.vmCamBaseLoAct f.table) (Reg.vmCamBaseHiAct f.table)
  ([0, (n : Int) - 1] ++ [i - 1, i, i + 1, i + 2].map (camPt n cyclic)).map fun j => base + 8 * j.toNat

/-- The points are read through Mesh port 8 (R334, R28); true says that some of them cannot be read. -/
def Run.camRead (r : Run s₀) (f : Follow) (m : MotRef) : Run s₀ × Bool :=
  if !f.cam || r.s.ecc.isEmpty then (r, false)
  else (r.s.camNeeds f m).foldl (fun (acc : Run s₀ × Bool) a => let (r, bad) := acc.1.eccRead a 8; (r, acc.2 || bad)) (r, false)

/-- The correction has reached zero: SYNCED (R335). -/
def Run.motSynced (r : Run s₀) (n k : Nat) (f : Follow) : Run s₀ :=
  let r := r.setMot n { r.s.mot n with state := 6, follow := some { f with corr := none, late := none, ops := [] } }
  ((r.flag (Reg.motEvstat n) 6).endIds f.ops none 0 k).arriveEnd n none 0 k

/-- The correction starts so that g + c is the reference in use, and is driven to zero; where it is zero already, the generator
is SYNCED (R335). Without its points a cam waits for the next boundary with it (R334). -/
def Run.followSync (r : Run s₀) (n k v : Nat) : Run s₀ :=
  match (r.s.mot n).follow with
  | none => r
  | some f => match vmCurrent (r.s.vm f.slot).queue k with
    | none => r
    | some seg =>
      let pm := (seg.at k).1
      let (r, miss) := r.camRead f pm
      let m := r.s.mot n
      if miss then (r.setMot n { m with state := 5, follow := some { f with late := some seg } }).flag (Reg.motEvstat n) 8
      else
        let g := r.s.followOf f pm
        let c := planTo (r.s.motCu n) v (wrapDiff (2 ^ 64) (m.ref - g.p)) (dsub m.v g.v) (dsub m.a g.a) 0
        if c.segs.isEmpty then r.motSynced n k f
        else r.setMot n { m with state := 5, follow := some { f with corr := some c, late := none } }

/-- VM_RUNOUT: the current segment has expired with no successor (R331). -/
def execVmRunout (m : Nat) (s : State) : Out :=
  let r := (Run.start s).vmPrune m s.now
  let x := r.s.vm m
  match vmCurrent x.queue s.now with
  | none => r.done
  | some g =>
    if g.tEnd ≤ s.now ∧ !x.runout then ((r.setVm m { x with runout := true }).flag Reg.vmEvstat 2).done else r.done

/-- The fields of a segment that PUBLISH checks (R327). -/
def VmSeg.sound (g : VmSeg) : Bool :=
  decide (0 < g.durUs) && ffin g.roDec && f32.lt 0 g.roDec && ffin g.roJerk && f32.lt 0 g.roJerk
    && dfin g.c1 && ffin g.c2 && ffin g.c3

/-- The segment comes in order: later than the last queued one, not later than its end (R327). -/
def vmOrder (q : List VmSeg) (replace : Bool) (g : VmSeg) : Bool :=
  replace || match q.getLast? with
    | none => true
    | some l => decide (l.tStart < g.tStart ∧ g.tStart ≤ l.tEnd)

/-- `replace` removes the queued segments from the new `t_start` on, keeping the current one (R327). -/
def vmReplace (q : List VmSeg) (now : Nat) (g : VmSeg) : List VmSeg :=
  let cur := (vmCurrent q now).map (·.tStart)
  q.filter fun e => decide (e.tStart < g.tStart) || cur == some e.tStart

/-- PUBLISH acts (R327). -/
def Run.actPublish (r : Run s₀) (o : Op) : Run s₀ :=
  let m := o.obj - 64
  let replace := bit (recNat o.payload 0 1) 0
  let g := vmSegOf (o.payload.drop 8)
  if r.s.rf (Reg.vmVmCfgAct m) 31 30 ≠ 1 then r.vmFin o .refused 0 []
  else
    let now := r.s.now
    let r := r.vmPrune m now
    let r := if replace then r.setVm m { r.s.vm m with queue := vmReplace (r.s.vm m).queue now g } else r
    let x := r.s.vm m
    let tol : Int := ((r.s.rget (Reg.vmVmTolAct m)).toNat : Int)
    let far := match vmCurrent x.queue g.tStart with
      | none => false
      | some c => decide (tol < (((c.at g.tStart).1.p - g.c0).natAbs : Int))
    if !g.sound then r.vmFin o .cfgerr 0 []
    else if !vmOrder x.queue replace g then r.vmFin o .cfgerr 0x1A []
    else if g.tStart < now + r.s.rf (Reg.vmVmDestAct m) 31 16 * 1000 then r.vmFin o .refused 0x18 []
    else if far then r.vmFin o .refused 0x19 []
    else if 16 ≤ x.queue.length then r.vmFin o .overload 0 []
    else
      let g := { g with seq := x.nextSeq }
      let dest := r.s.rf (Reg.vmVmDestAct m) 15 0
      let payload := bytesLE 1 m ++ bytesLE 1 (b2n replace) ++ bytesLE 6 0 ++ g.wire
      let r := r.setVm m { x with queue := x.queue ++ [g], nextSeq := (x.nextSeq + 1) % 65536 }
      (r.originate 3 dest 3 payload).vmFin o o.okSt 0 []

/-- Followers of a slot take their correction anew at their next boundary (R330); `old` is the segment that they have
followed. -/
def Run.vmResync (r : Run s₀) (m : Nat) (old : Option VmSeg) : Run s₀ :=
  r.each (List.range 48) fun r n =>
    let x := r.s.mot n
    match x.follow with
    | some f =>
      if f.slot = m ∧ f.late.isNone then r.setMot n { x with follow := some { f with late := old } } else r
    | none => r

/-- A COPY slot takes a received segment (R328, R330). -/
def Run.vmTake (r : Run s₀) (m : Nat) (replace : Bool) (g : VmSeg) : Run s₀ :=
  let r := r.vmPrune m r.s.now
  let x := r.s.vm m
  if x.lastSeq = some g.seq then r
  else
    let gap := match x.lastSeq with
      | none => false
      | some l => decide (1 < (g.seq + 65536 - l) % 65536)
    let r := r.when gap fun r => r.flag Reg.vmEvstat 3
    let q := if replace then vmReplace x.queue r.s.now g else x.queue
    let r := r.setVm m { x with lastSeq := some g.seq, queue := q }
    if 16 ≤ q.length then r.flag Reg.vmEvstat 4
    else if !g.sound || !vmOrder q replace g then r
    else
      let r := r.setVm m { r.s.vm m with queue := q ++ [g] }
      if g.tStart ≤ x.evalAt then
        (((r.count (Reg.vmVmStat m) 31 16).flag Reg.vmEvstat 1).vmPrune m r.s.now).vmResync m (vmCurrent q r.s.now)
      else r

/-- VM_SEGMENT_RECEIVE: an ASYNC frame from `node` reaches the virtual-master block (R328). -/
def Run.vmReceive (r : Run s₀) (node : Nat) (payload : List Byte) : Run s₀ :=
  let src := recNat payload 0 1
  let replace := bit (recNat payload 1 1) 0
  let g := vmSegOfWire (payload.drop 8)
  let slots := (List.range 16).filter fun m => r.s.rf (Reg.vmVmCfgAct m) 31 30 == 2
    && r.s.rf (Reg.vmVmCfgAct m) 15 0 == node && r.s.rf (Reg.vmVmCfgAct m) 23 20 == src
  if slots.isEmpty then r.count Reg.vmForeign 31 0 else r.each slots fun r m => r.vmTake m replace g

def execVmSegmentReceive (node : Nat) (payload : List Byte) (s : State) : Out :=
  ((Run.start s).vmReceive node payload).done

/-- EVAL acts: EMPTY when no queued segment covers the time. -/
def Run.actEval (r : Run s₀) (o : Op) : Run s₀ :=
  let t := recNat o.payload 0 8
  match vmCurrent (r.s.vm (o.obj - 64)).queue t with
  | some g =>
    if t < g.tEnd then
      let x := g.poly (t - g.tStart)
      r.vmFin o o.okSt 0 (bytesLE 8 (uNat 64 x.p) ++ bytesLE 8 x.v ++ bytesLE 8 x.a)
    else r.vmFin o .empty 0 []
  | none => r.vmFin o .empty 0 []

/-! ## Stops at a boundary -/

/-- The generator brakes to rest from its reference (R317, R319); an axis already at rest is IDLE at once. -/
def Run.motBrake (r : Run s₀) (n k v : Nat) (quick : Bool) : Run s₀ :=
  let m := r.s.mot n
  let p := planRest v m.ref m.v m.a (r.s.motLimit n (if quick then 4 else 2)) (r.s.motLimit n (if quick then 5 else 3)) quick
  if p.segs.isEmpty then (r.setMot n { m with state := 3 }).motIdle n k
  else r.setMot n { m with state := 3, plan := some p }

/-- The stop of a limit or of following: RAMP with `qdec` and `qjerk` (R317, R322, R336). -/
def Run.motRamp (r : Run s₀) (n k v : Nat) : Run s₀ := r.motBrake n k v true

/-- A limit that has become active is handled at the boundary, before any operation (R317). -/
def Run.motLimitDue (r : Run s₀) (n k v : Nat) : Run s₀ :=
  let m := r.s.mot n
  match m.limit with
  | none => r
  | some x =>
    let r := r.setMot n { m with limit := none }
    let r := r.arriveEnd n (some .aborted) (if m.home.isSome then 0x13 else 0x12) k
    let r := ((r.homeAbort n 0x13 k).followEnd n 0x12 k).flag (Reg.motEvstat n) 3
    match x with
    | .ramp => r.motRamp n k v
    | .hard =>
      let m := r.s.mot n
      let p := if r.s.axMode n = 2 then (r.s.ax n).pos * 65536 else m.ref
      let r := r.motPlace n p
      let r := r.setAx n { r.s.ax n with stepHold := false }
      r.setMot n { r.s.mot n with state := 3, plan := some ⟨v, [], p, .rest true⟩ }

/-- The axis has stopped being ready (R314): the plan ends, the reference is held, or set to P in mode STEP. -/
def Run.motNotReady (r : Run s₀) (n k : Nat) : Run s₀ :=
  let m := r.s.mot n
  let r := ((r.homeAbort n 0x10 k).followEnd n 0x10 k).arriveEnd n (some .aborted) 0x10 k
  let r := r.motPlace n (if r.s.axMode n = 2 then (r.s.ax n).pos * 65536 else m.ref)
  r.setMot n { r.s.mot n with state := 0, plan := none, notReady := false, limit := none }

/-- The axis has stopped being ready while the generator moves: `abort` is set and a pending ARRIVE ends ABORTED, cause NOTREADY
(R314). An axis that was not ready when the motion began has not stopped being so. -/
def Run.motAbort (r : Run s₀) (n : Nat) : Run s₀ :=
  let m := r.s.mot n
  if m.state ≠ 0 ∧ m.wasReady ∧ !r.s.motReady n then
    ((r.setMot n { m with notReady := true, wasReady := false }).flag (Reg.motEvstat n) 4).arriveEnd n (some .aborted) 0x10
      r.s.now
  else r

/-- The generator looks whether its axis is ready. -/
def Run.motWatch (r : Run s₀) (n : Nat) : Run s₀ :=
  let r := r.motAbort n
  let b := r.s.motReady n
  if (r.s.mot n).wasReady == b then r else r.setMot n { r.s.mot n with wasReady := b }

/-- AXIS_NOT_READY (R314). -/
def execAxisNotReady (n : Nat) (s : State) : Out := ((Run.start s).motAbort n).done

/-- CAM_MISS: the points have not arrived 200 ns before the next boundary (R334). -/
def execCamMiss (n : Nat) (s : State) : Out :=
  let r := Run.start s
  let m := s.mot n
  (match m.follow with
  | some f => if f.cam then (r.setMot n { m with camMiss := true }).flag (Reg.motEvstat n) 8 else r
  | none => r).done

/-! ## Homing (R320 to R322) -/

/-- What a method searches: role of the input (1 LIM_POS, 2 LIM_NEG, 3 HOME, none for Z), direction, and then Z. -/
def homeSpec (method : Nat) : Option Nat × Int × Bool :=
  match method with
  | 1 => (some 2, -1, false)
  | 2 => (some 1, 1, false)
  | 3 => (some 3, 1, false)
  | 4 => (some 3, -1, false)
  | 5 => (some 3, 1, true)
  | _ => (none, 1, true)

/-- The generator moves at a velocity from its reference (R311). -/
def Run.motGo (r : Run s₀) (n v : Nat) (vel : Nat) : Run s₀ :=
  let m := r.s.mot n
  r.setMot n { m with plan := some (planVel (r.s.motLims n) v m.ref m.v m.a vel) }

/-- Homing in a phase that searches or backs off. -/
def Run.homeSearch (r : Run s₀) (n v : Nat) (h : Homing) (phase : HomePhase) : Run s₀ :=
  let (_, dir, _) := homeSpec (r.s.rf (Reg.motCfgAct n) 10 8)
  let d : Int := if phase = .backOff then -dir else dir
  let r := r.setMot n { r.s.mot n with state := 4, home := some { h with phase := phase, from_ := (r.s.mot n).ref } }
  r.motGo n v (dsig d (r.s.motLimit n 6))

/-- The offset Δ is added to the reference and to the port position; the axis is homed (R321). A plan in use goes on in
the new coordinates. -/
def Run.homeApply (r : Run s₀) (n : Nat) (delta : Int) : Run s₀ :=
  let m := r.s.mot n
  let x := r.s.ax n
  let c := divAway delta 65536
  let r := r.setMot n { m with ref := wrap64 (m.ref + delta), prev := wrap64 (m.prev + delta), plan := m.plan.map (·.shift delta) }
  let r := r.setAx n { x with ref0 := wrap64 (x.ref0 + delta), ref1 := wrap64 (x.ref1 + delta), ref2 := wrap64 (x.ref2 + delta) }
  let r := if r.s.axMode n = 2 then
      r.setAx n { r.s.ax n with pos := wrap48 (x.pos + c), leAnchor := wrap48 (x.leAnchor + c) }
    else if r.s.axFb n = 1 then r.encShift n c
    else r
  ((r.wb (Reg.motStat n) 9 true).wb (Reg.axStat n) 25 false).flag (Reg.motEvstat n) 5

/-- `home_pos`, raw 48.16. -/
def State.homePos (s : State) (n : Nat) : Int := sInt 64 (s.rget64 (Reg.motHomeposLoAct n) (Reg.motHomeposHiAct n))

/-- HOME completes OK. -/
def Run.homeDone (r : Run s₀) (n k : Nat) (h : Homing) : Run s₀ :=
  ((r.setMot n { r.s.mot n with home := none }).endIds [h.op] none 0 k).motIdle n k

/-- The first boundary at rest after the reference edge (R321). -/
def Run.homeAtRest (r : Run s₀) (n k v : Nat) (h : Homing) : Run s₀ :=
  let r := r.homeApply n (r.s.homePos n - h.xe)
  if r.s.rb (Reg.motCfgAct n) 11 then
    let m := r.s.mot n
    let p := planTo (r.s.motLims n) v m.ref 0 0 (r.s.homePos n)
    if p.segs.isEmpty then r.homeDone n k h
    else r.setMot n { m with home := some { h with phase := .go }, plan := some p, target := r.s.homePos n }
  else r.homeDone n k h

/-- The reference edge at latched position `xe`: the generator brakes (R321). The brake starts from the reference of the
last boundary's plan at the next boundary. -/
def Run.homeEdge (r : Run s₀) (n : Nat) (xe : Int) : Run s₀ :=
  match (r.s.mot n).home with
  | none => r
  | some h => r.setMot n { r.s.mot n with home := some { h with phase := .brake, xe := xe } }

/-! ## Operations at their boundary -/

/-- A new motion replaces the one in use: homing ends PREEMPT, following ends (R323, R337). -/
def Run.motPreempt (r : Run s₀) (n k : Nat) : Run s₀ := (r.homeAbort n 0x04 k).followEnd n 0x04 k

/-- MOVE at its boundary (R310, R311, R318, R324). A velocity beyond `vmax` is TRUNC unless the MOVE is late (R170). -/
def Run.motMove (r : Run s₀) (o : Op) (k v : Nat) : Run s₀ :=
  let n := o.obj
  let m := r.s.mot n
  let w := recNat o.payload 8 8
  if recNat o.payload 0 1 = 2 then
    let tooFast := dlt (r.s.motLimit n 0) (dabs w)
    let vel := if tooFast then dsig (dsgn w) (r.s.motLimit n 0) else w
    if r.s.motBlocked n (dsgn vel) then r.motFin o .refused 0x12 k
    else
      let r := r.motPreempt n k
      let r := r.setMot n { r.s.mot n with state := 2, targetVel := some vel }
      (r.motGo n v vel).motFin o (if tooFast ∧ o.okSt = .ok then .trunc else o.okSt) 0 k
  else
    let pt := if recNat o.payload 0 1 = 1 then wrap64 (m.ref + sInt 64 w) else sInt 64 w
    if r.s.axMode n = 2 ∧ r.s.rb (Reg.axStat n) 25 then r.motFin o .refused 0x11 k
    else if r.s.motBlocked n (pt - m.ref) then r.motFin o .refused 0x12 k
    else
      let r := r.motPreempt n k
      let m := r.s.mot n
      let p := planTo (r.s.motLims n) v m.ref m.v m.a pt
      let r := r.setMot n { m with state := 1, target := pt, targetVel := none, plan := some p }
      (if p.segs.isEmpty then (r.motPlace n pt).motIdle n k else r).motFin o o.okSt 0 k

/-- STOP at its boundary (R319). -/
def Run.motStop (r : Run s₀) (o : Op) (k v : Nat) : Run s₀ :=
  let n := o.obj
  if (r.s.mot n).state = 0 then r.motFin o o.okSt 0 k
  else
    let quick := bit (recNat o.payload 0 1) 0
    let r := r.motPreempt n k
    (r.motBrake n k v quick).motFin o o.okSt 0 k

/-- HOME at its boundary (R320, R321, R323). With method HERE a motion that it has ended brakes to rest. -/
def Run.motHome (r : Run s₀) (o : Op) (k v : Nat) : Run s₀ :=
  let n := o.obj
  let method := r.s.rf (Reg.motCfgAct n) 10 8
  if 2 ≤ r.s.axFb n then r.motFin o .refused 0x15 k
  else
    let led := (r.s.mot n).follow.isSome || (r.s.mot n).home.isSome
    let r := r.motPreempt n k
    if method = 0 then
      let r := r.homeApply n (r.s.homePos n - (r.s.mot n).ref)
      (r.when led fun r => r.motBrake n k v false).motFin o o.okSt 0 k
    else
      let r := r.opAct o
      let h : Homing := { op := o.id, phase := .search }
      match homeSpec method with
      | (none, _, _) => r.homeSearch n v h .searchZ
      | (some role, _, _) => r.homeSearch n v h (if r.s.roleActive n role then .backOff else .search)

/-- SETREF at its boundary (R339). -/
def Run.motSetref (r : Run s₀) (o : Op) (k : Nat) : Run s₀ :=
  let n := o.obj
  let p := sInt 64 (recNat o.payload 0 8)
  if (r.s.mot n).state ≠ 0 ∨ (r.s.axMode n = 2 ∧ !r.s.axMaySetpos n) then r.motFin o .refused 0 k
  else
    let r := if r.s.axMode n = 2 then r.setPos n (p / 65536) else r
    ((r.motPlace n p).wb (Reg.motStat n) 9 true).motFin o o.okSt 0 k

/-- FOLLOW at its engage boundary (R332 to R337). -/
def Run.motFollow (r : Run s₀) (o : Op) (k v : Nat) : Run s₀ :=
  let n := o.obj
  let d := o.payload
  let slot := recNat d 1 1
  if r.s.motBlocked n 1 ∨ r.s.motBlocked n (-1) then r.motFin o .refused 0x12 k
  else if r.s.rf (Reg.vmVmCfgAct slot) 31 30 = 0 then r.motFin o .refused 0x17 k
  else match r.s.vmAt slot k with
    | none => r.motFin o .refused 0x17 k
    | some pm =>
      let r := (r.motPreempt n k).opAct o
      let m := r.s.mot n
      let anchor := bit (recNat d 3 1) 0
      let f : Follow :=
        { cam := recNat d 0 1 == 1, slot := slot, table := recNat d 2 1, num := sInt 32 (recNat d 4 4), den := recNat d 8 4
          pm0 := if anchor then pm.p else sInt 64 (recNat d 16 8)
          pf0 := if anchor then m.ref else sInt 64 (recNat d 24 8), phi := sInt 64 (recNat d 32 8), ops := [o.id] }
      (r.setMot n { m with plan := none, follow := some f }).followSync n k v

/-- PHASE at its boundary (R337). -/
def Run.motPhase (r : Run s₀) (o : Op) (k v : Nat) : Run s₀ :=
  let n := o.obj
  let m := r.s.mot n
  match m.follow with
  | none => r.motFin o .refused 0 k
  | some f =>
    let r := r.opAct o
    (r.setMot n { m with follow := some { f with phi := sInt 64 (recNat o.payload 0 8), ops := f.ops ++ [o.id] } }).followSync
      n k v

/-- A grid-bound operation of an axis takes effect. -/
def Run.motAct (r : Run s₀) (o : Op) (k v : Nat) : Run s₀ :=
  match o.code with
  | 2 => r.motMove o k v
  | 3 => r.motStop o k v
  | 4 => r.motHome o k v
  | 5 => r.motSetref o k
  | 7 => r.motFollow o k v
  | _ => r.motPhase o k v

/-- An operation of the unit due at boundary `k` acts; one accepted less than 1,000 ns before it, or held back by R161,
acts at a later boundary and is then LATE when timed (R312). -/
def Run.motDue (r : Run s₀) (id k v : Nat) : Run s₀ :=
  match r.s.op id with
  | none => r
  | some o =>
    if r.s.opBlocked o || (o.code != 5 && decide (k < o.takenAt + 1000)) then r.opSet { o with held := true }
    else r.motAct o k v

/-- The operations of an axis due at a boundary, in the order of acceptance. -/
def Run.motOps (r : Run s₀) (n k v : Nat) : Run s₀ :=
  r.each ((byAcceptance (r.s.sp.ops.filter fun o => o.unit == 2 && o.obj == n && r.s.opDueAt o k)).map (·.id)) fun r id =>
    r.motDue id k v

/-! ## The boundary (step 4 of R40) -/

/-- The reference that the motion in use gives for boundary `k`; true says that its plan has ended. -/
def State.motRef (s : State) (n k v : Nat) : MotRef × Bool :=
  let m := s.mot n
  let wide := decide (s.gridBase (s.axGrid n) ≤ 2)
  match m.follow with
  | some f =>
    if m.camMiss then (⟨wrap64 (2 * m.ref - m.prev), m.v, m.a⟩, false)
    else match (match f.late with
        | some old => some (s.followOf f (old.at k).1)
        | none => s.followRef f k) with
      | none => (⟨m.ref, m.v, m.a⟩, false)
      | some g => match f.corr with
        | none => (g, false)
        | some c =>
          let (x, fin) := c.eval wide v
          (⟨wrap64 (g.p + x.p), dadd g.v x.v, dadd g.a x.a⟩, fin)
  | none => match m.plan with
    | none => (⟨m.ref, 0, 0⟩, false)
    | some p => p.eval wide v

/-- A following generator reads the cam points of boundary `k`; where they cannot be read it does without (R334). -/
def Run.camMeet (r : Run s₀) (n k : Nat) : Run s₀ :=
  match (r.s.mot n).follow with
  | none => r
  | some f => match (match f.late with | some old => some (old.at k).1 | none => r.s.vmAt f.slot k) with
    | none => r
    | some pm => match r.camRead f pm with
      | (r, false) => r
      | (r, true) => (r.setMot n { r.s.mot n with camMiss := true }).flag (Reg.motEvstat n) 8

/-- The reference of boundary `k` is taken, and what ends with it ends (R310, R321, R335). -/
def Run.motTake (r : Run s₀) (n k v : Nat) : Run s₀ :=
  let r := r.camMeet n k
  let m := r.s.mot n
  let (x, fin) := r.s.motRef n k v
  let r := r.setMot n { m with prev := m.ref, ref := x.p, v := x.v, a := x.a, camMiss := false }
  match m.follow with
  | some f =>
    let r := match r.s.vmAt f.slot k with
      | some _ => r.setVm f.slot { r.s.vm f.slot with evalAt := max (r.s.vm f.slot).evalAt k }
      | none => r
    if f.late.isSome then r.followSync n k v
    else if fin && f.corr.isSome then r.motSynced n k f
    else r
  | none =>
    if !fin then r
    else match m.state, m.home with
    | 4, some h => match h.phase with
      | .brake => if (m.plan.map (·.goal)) == some (.rest false) then r.homeAtRest n k v h else r
      | .go => r.homeDone n k h
      | _ => r
    | 2, _ => r.arriveEnd n none 0 k
    | _, _ => r.motIdle n k

/-- Homing between boundaries: a found edge brakes with `dmax`, a released input turns the back-off into the search, and
a search beyond `home_range` ends (R321, R322). -/
def Run.homeBoundary (r : Run s₀) (n k v : Nat) : Run s₀ :=
  let m := r.s.mot n
  match m.home with
  | none => r
  | some h =>
    let p := planRest v m.ref m.v m.a (r.s.motLimit n 2) (r.s.motLimit n 3) false
    match h.phase with
    | .brake => if (m.plan.map (·.goal)) == some (.rest false) then r
        else if p.segs.isEmpty then r.homeAtRest n k v h
        else r.setMot n { m with plan := some p }
    | .backOff => match homeSpec (r.s.rf (Reg.motCfgAct n) 10 8) with
      | (some role, _, _) => if r.s.roleActive n role then r else r.homeSearch n v h .search
      | _ => r
    | .go => r
    | _ =>
      if (r.s.rf (Reg.motHomerangeAct n) 30 0 : Int) * 65536 ≤ ((m.ref - h.from_).natAbs : Int) then
        ((r.arriveEnd n (some .aborted) 0x14 k).homeAbort n 0x14 k).motRamp n k v
      else r

/-- Following beyond `vmax` or `amax` (R336). -/
def Run.followLimit (r : Run s₀) (n k v : Nat) : Run s₀ :=
  let m := r.s.mot n
  if m.follow.isSome && (dlt (r.s.motLimit n 0) (dabs m.v) || dlt (r.s.motLimit n 1) (dabs m.a)) then
    let r := r.flag (Reg.motEvstat n) 7
    if r.s.rb (Reg.motCfgAct n) 12 then
      ((r.arriveEnd n (some .aborted) 0x16 k).followEnd n 0x04 k).motRamp n k v
    else r
  else r

/-- A reference signal written over the sample path (R25, R304, R305): `int` is the word of an integer type, `v` the value in any other. -/
def Run.motSig (r : Run s₀) (n cfg k int : Nat) (v : FVal) : Run s₀ :=
  if r.s.rb cfg 31 then
    let i := r.s.rf cfg 17 0
    let type := (r.s.sigRec i).type
    let r' := if type = 5 then r.drawn else r
    let w := if type = 5 then r.s.freeVal % 2 ^ 32 else if type = 1 ∨ type = 2 then int else outSig type v
    r'.sample { idx := i, val := w, stamp := k % 2 ^ 32, kind := 5, inst := n }
  else r

/-- The references written and handed to the port (R304, R282). -/
def Run.motWrite (r : Run s₀) (n k : Nat) : Run s₀ :=
  let m := r.s.mot n
  let p := divAway m.ref 65536
  let r := r.motSig n (Reg.motSigpAct n) k (uNat 32 p) (.fin (decide (p < 0)) p.natAbs 0)
  let vv := f64.dec m.v
  let va := f64.dec m.a
  let r := r.motSig n (Reg.motSigvAct n) k (outSig 1 vv) vv
  let r := r.motSig n (Reg.motSigaAct n) k (outSig 1 va) va
  let x := r.s.ax n
  r.setAx n { x with ref2 := x.ref0, ref0 := x.ref1, ref1 := m.ref, refAt := r.s.cyc }

/-- New limits have come into use: a plan, or a correction, is made anew towards the same target from the reference of
this boundary (R313). -/
def Run.motReplan (r : Run s₀) (n v : Nat) : Run s₀ :=
  let m := r.s.mot n
  if !m.replan then r
  else
    let l := r.s.motLims n
    let anew (p : MotPlan) : MotPlan := match p.goal with
      | .position pt => planTo l v m.ref m.v m.a pt
      | .velocity w => planVel l v m.ref m.v m.a (if dlt l.vmax (dabs w) then dsig (dsgn w) l.vmax else w)
      | .rest q => planRest v m.ref m.v m.a (if q then r.s.motLimit n 4 else l.dmax) (if q then r.s.motLimit n 5 else l.jmax) q
    let corr (c : MotPlan) : MotPlan :=
      let x := (c.eval (decide (r.s.gridBase (r.s.axGrid n) ≤ 2)) v).1
      planTo (r.s.motCu n) v x.p x.v x.a 0
    r.setMot n { m with replan := false, plan := m.plan.map anew
                        follow := m.follow.map fun f => { f with corr := f.corr.map corr } }

/-- A generator at a boundary of its axis's grid: reference, readiness, limit, operations, homing, following. -/
def Run.motBoundary (r : Run s₀) (n k v : Nat) : Run s₀ :=
  if r.s.axMode n = 0 then r
  else
    let r := (r.motTake n k v).motReplan n v
    let r := r.motWatch n
    let r := if (r.s.mot n).notReady then r.motNotReady n k else r
    let r := (r.motLimitDue n k v).motOps n k v
    ((r.homeBoundary n k v).followLimit n k v).motWrite n k

/-! ## Limit inputs (R315 to R317, R321, R322) -/

/-- The latch registers (R316). -/
def Run.motLatch (r : Run s₀) (n : Nat) (p : Int) (stamp source : Nat) (inactive : Bool) : Run s₀ :=
  ((r.wr64 (Reg.motLatchLo n) (Reg.motLatchHi n) (uNat 64 p)).wr (Reg.motLatchTs n) stamp).wr (Reg.motLatchInfo n)
    (2 ^ 31 + b2n inactive <<< 2 + source)

/-- A limit has become active (R317): the reaction waits for the next boundary; a HARD one in mode STEP holds the port's
steps at once. While homing searches, its own reference input is no limit, and any other ends it (R322). -/
def Run.limitHit (r : Run s₀) (n i : Nat) : Run s₀ :=
  let m := r.s.mot n
  let role := r.s.auxRole n i
  let dir : Int := if role = 1 then 1 else -1
  let towards := dsgn m.v == dir || (dsgn m.v == 0 && dsgn m.a == dir)
  let searches : Bool := match m.home with
    | some h => h.phase != .go
    | none => false
  if m.state = 0 then r
  else if searches then
    if (homeSpec (r.s.rf (Reg.motCfgAct n) 10 8)).1 == some role then r else r.setMot n { m with limit := some .ramp }
  else if !towards then r
  else
    let hard := r.s.auxHard n i
    let r := r.setMot n { m with limit := some (if hard then .hard else .ramp) }
    if hard ∧ r.s.axMode n = 2 then r.setAx n { r.s.ax n with stepHold := true } else r

/-- The limits of a generator are looked at: one that has become active since acts (R317). -/
def Run.limitsSeen (r : Run s₀) (n : Nat) : Run s₀ :=
  r.each [0, 1] fun r i =>
    let role := r.s.auxRole n i
    let on := (role == 1 || role == 2) && r.s.auxActive n i ((r.s.ax n).aux i).qual
    let m := r.s.mot n
    if on == bit m.lims i then r
    else
      let r := r.setMot n { m with lims := setBit m.lims i on }
      if on then r.limitHit n i else r

/-- What follows when CFG of a generator comes into use: a plan is made anew at the boundary (R313), and a limit may stand
active under the new roles and levels (R317). -/
def Run.motApplied (r : Run s₀) (n : Nat) : Run s₀ :=
  let m := r.s.mot n
  (if m.plan.isSome ∨ m.follow.isSome then r.setMot n { m with replan := true } else r).limitsSeen n

/-- The input is the one that a running search looks for (R321, R322). -/
def State.homeInput (s : State) (n i : Nat) : Bool :=
  match (s.mot n).home with
  | none => false
  | some h => h.phase == .search && (homeSpec (s.rf (Reg.motCfgAct n) 10 8)).1 == some (s.auxRole n i)

/-- An AUX input of a generator has become qualified at a level. -/
def Run.auxTaken (r : Run s₀) (n i : Nat) (active : Bool) (p : Int) : Run s₀ :=
  if !active then r.limitsSeen n
  else if r.s.homeInput n i then
    let r := r.limitsSeen n
    if (homeSpec (r.s.rf (Reg.motCfgAct n) 10 8)).2.2 then
      match (r.s.mot n).home with
      | none => r
      | some h => r.setMot n { r.s.mot n with home := some { h with phase := .searchZ, from_ := (r.s.mot n).ref } }
    else r.homeEdge n p
  else r.limitsSeen n

/-- AUX_QUALIFIED: a raw level has held for its debounce time (R315, R316). -/
def execAuxQualified (n i : Nat) (s : State) : Out :=
  let r := Run.start s
  let x := (s.ax n).aux i
  let deb := if i = 0 then s.rf (Reg.motDebAct n) 15 0 else s.rf (Reg.motDebAct n) 31 16
  match x.edge with
  | none => r.done
  | some e =>
    if x.raw == x.qual || decide (s.cyc < x.rawAt + usCyc deb) then r.done
    else
      let r := r.setAx n ((s.ax n).setAux i { x with qual := x.raw, edge := none })
      let p := e.latched (s.axMode n == 2)
      let active := s.auxActive n i x.raw
      let r := r.motLatch n p (e.stamp % 2 ^ 32) i (!active)
      (r.auxTaken n i active p).done

/-- Z_EDGE: a rising edge of Z latches count and tick (R289), and may be the reference edge of homing (R321). -/
def execZEdge (n : Nat) (s : State) : Out :=
  let r := Run.start s
  if s.axFb n ≠ 1 then r.done
  else
    let c := s.rget (Reg.axEnc n)
    let r := (r.wr (Reg.axZlat n) c.toNat).wr (Reg.axZts n) s.now32
    match (s.mot n).home with
    | some h =>
      if h.phase = .searchZ ∧ 0 ≤ dsgn (s.mot n).v then
        let p := sInt 32 c.toNat * 65536
        ((r.motLatch n p s.now32 2 false).homeEdge n p).done
      else r.done
    | none => r.done

/-! ## Groups -/

/-- The check of R15 for group CFG of a generator (R341). -/
def State.motCheck (s : State) (n : Nat) : Bool :=
  let c := (s.rget (Reg.motCfg n)).toNat
  let r0 := bits c 1 0
  let r1 := bits c 5 4
  let method := bits c 10 8
  let has (role : Nat) : Bool := r0 == role || r1 == role
  !(r0 == r1 && r0 != 0) && method != 7
    && (match method with | 1 => has 2 | 2 => has 1 | 3 => has 3 | 4 => has 3 | _ => true)
    && !((method == 5 || method == 6) && s.axFb n != 1)
    && (List.range 10).all fun i => let x := (s.rget (Reg.motLim n i)).toNat; ffin x && f32.lt 0 x

/-- The check of R15 for groups VMm and CAMc. -/
def State.vmCheck (s : State) (m : Nat) : Bool := s.rf (Reg.vmVmCfg m) 31 30 != 3
def State.camInSram (base points : Nat) : Bool := decide (base + 8 * points ≤ 0x2000000)
def State.camCheck (s : State) (c : Nat) : Bool :=
  State.camInSram (s.rget64 (Reg.vmCamBaseLo c) (Reg.vmCamBaseHi c)) (s.rf (Reg.vmCamCfg c) 12 0)
    && (List.range 48).all fun n => match (s.mot n).follow with
      | some f => !(f.cam && f.table == c)
      | none => true

/-! ## Operations of the MOT unit -/

/-- Taking a grid-bound operation: its format is checked, an axis in mode OFF has no grid (R306). -/
def Run.motTakeOp (r : Run s₀) (o : Op) : Run s₀ :=
  let n := o.obj
  let d := o.payload
  let k := r.s.now
  let bad := match o.code with
    | 2 => decide (2 < recNat d 0 1) || (recNat d 0 1 == 2 && !dfin (recNat d 8 8))
    | 7 => decide (1 < recNat d 0 1) || recNat d 8 4 == 0 || decide (15 < recNat d 1 1) || decide (63 < recNat d 2 1)
    | _ => false
  if bad then r.motFin o .cfgerr 0 k
  else if r.s.axMode n = 0 then
    (match o.code with
    | 3 => r.motFin o o.okSt 0 k
    | 5 => r.motSetref o k
    | 8 => r.motFin o .refused 0 k
    | _ => r.motFin o .refused 0x10 k)
  else if o.code = 7 ∧ recNat d 0 1 = 1 ∧ !State.camInSram
      (r.s.rget64 (Reg.vmCamBaseLoAct (recNat d 2 1)) (Reg.vmCamBaseHiAct (recNat d 2 1)))
      (r.s.rf (Reg.vmCamCfgAct (recNat d 2 1)) 12 0) then r.motFin o .refused 0x10 k
  else r.opTaken o

/-- ARRIVE is accepted: EMPTY in IDLE, OK where the arrival has come already, else it waits. -/
def Run.actArrive (r : Run s₀) (o : Op) : Run s₀ :=
  let m := r.s.mot o.obj
  match m.state with
  | 0 => r.motFin o .empty 0 r.s.now
  | 6 => r.motFin o o.okSt 0 r.s.now
  | 2 => if dsgn m.a = 0 ∧ m.targetVel == some m.v then r.motFin o o.okSt 0 r.s.now else r.opAct o
  | _ => r.opAct o

/-- The target that the registers and STATUS show: a position, or a velocity in binary32 in the low word. -/
def State.motTarget (s : State) (n : Nat) : Nat :=
  match (s.mot n).targetVel with
  | some v => f64.conv f32 v
  | none => uNat 64 (s.mot n).target

def Run.actMotStatus (r : Run s₀) (o : Op) : Run s₀ :=
  let n := o.obj
  let m := r.s.mot n
  r.opFin o o.okSt 0 (bytesLE 4 (r.s.motStat n) ++ bytesLE 8 (uNat 64 m.ref) ++ bytesLE 4 (f64.conv f32 m.v)
    ++ bytesLE 4 (f64.conv f32 m.a) ++ bytesLE 8 (r.s.motTarget n)
    ++ bytesLE 8 (r.s.rget64 (Reg.motLatchLo n) (Reg.motLatchHi n)) ++ bytesLE 4 (r.s.rget (Reg.motLatchTs n)).toNat)

def execMotMove (id : Nat) (s : State) : Out := ((Run.start s).opTakeFree id 2 2 Run.motTakeOp).done
def execMotStop (id : Nat) (s : State) : Out := ((Run.start s).opTakeFree id 2 3 Run.motTakeOp).done
def execMotHome (id : Nat) (s : State) : Out := ((Run.start s).opTakeFree id 2 4 Run.motTakeOp).done
def execMotSetref (id : Nat) (s : State) : Out := ((Run.start s).opTakeFree id 2 5 Run.motTakeOp).done
def execMotArrive (id : Nat) (s : State) : Out := ((Run.start s).opRow id 2 6 Run.actArrive).done
def execMotFollow (id : Nat) (s : State) : Out := ((Run.start s).opTakeFree id 2 7 Run.motTakeOp).done
def execMotPhase (id : Nat) (s : State) : Out := ((Run.start s).opTakeFree id 2 8 Run.motTakeOp).done
def execMotStatus (id : Nat) (s : State) : Out := ((Run.start s).opRow id 2 9 Run.actMotStatus).done
def execMotPublish (id : Nat) (s : State) : Out := ((Run.start s).opRow id 2 0x10 Run.actPublish).done
def execMotEval (id : Nat) (s : State) : Out := ((Run.start s).opRow id 2 0x11 Run.actEval).done

/-! ## What the read-only registers show -/

/-- VM_VMm_STAT with the bits that follow from the queue. -/
def State.vmStat (s : State) (m : Nat) : Nat :=
  let x := s.vm m
  s.rf (Reg.vmVmStat m) 31 16 <<< 16 + b2n x.runout <<< 9 + b2n (vmCurrent x.queue s.now).isSome <<< 8 + x.queue.length

end Sys2Proof.Machine
end

