-- ==== Sys2Proof/Machine/Eth.lean ====
section
/-!
DEFINITION. The Ethernet MACs (11_plant_ports.md, R420 to R430): rings, stamps, transmit queues and gates, and the PTP
servo.
-/
namespace Sys2Proof.Machine

variable {s₀ : State}

def State.mac (s : State) (n : Nat) : EthMac := tget {} n s.port.eth
def Run.setMac (r : Run s₀) (n : Nat) (x : EthMac) : Run s₀ :=
  r.up (.port { r.s.port with eth := tset {} n x r.s.port.eth })

/-- Partner sessions, and their running state. -/
def State.psess (s : State) (i : Nat) : PsSess := tget {} i s.port.ps
def Run.setPsess (r : Run s₀) (i : Nat) (x : PsSess) : Run s₀ :=
  r.up (.port { r.s.port with ps := tset {} i x r.s.port.ps })

/-- Longest frame with FCS (R421). -/
def State.ethMax (s : State) (n : Nat) : Nat := if s.rb (Reg.ethCfgAct n) 28 then 9022 else 1522

/-- Line rate in Mbit/s (R420). -/
def State.ethRate (s : State) (n : Nat) : Nat :=
  match s.rf (Reg.ethCfgAct n) 1 0 with
  | 0 => match s.rf (Reg.ethCfgAct n) 5 4 with
    | 0 => 10
    | 1 => 100
    | _ => 1000
  | 1 => 1000
  | _ => 2500

/-- Time of a frame of `len` bytes without FCS on the medium, with padding, FCS, preamble and gap, in ns rounded up. -/
def State.ethTime (s : State) (n len : Nat) : Nat := divUp ((max 64 (len + 4) + 20) * 8000) (s.ethRate n)

/-! ## Stamps (R424) -/

/-- The base of a MAC's stamps, and its time. -/
def State.ethBase (s : State) (n : Nat) : Nat := s.rf (Reg.ethCfgAct n) 9 8
def State.ethTimeNow (s : State) (n : Nat) : Nat := s.baseTime (s.ethBase n)

/-- A stamp in 2⁻¹⁶ ns at the balls, moved to the medium. -/
def State.ethStamp (s : State) (n t : Nat) (tx : Bool) : Nat :=
  let lat := if tx then s.rf (Reg.ethLatAct n) 31 16 else s.rf (Reg.ethLatAct n) 15 0
  uNat 80 (if tx then (t : Int) + (lat : Int) * 65536 else (t : Int) - (lat : Int) * 65536)

/-! ## Rings (R422, R423) -/

/-- Registers of a ring: transmit rings 0 to 7, receive rings from 8. -/
def ethRingReg (n q : Nat) : Nat := if q < 8 then Reg.ethTxqRing n q else Reg.ethRxRing n (q - 8)
def ethTailReg (n q : Nat) : Nat := if q < 8 then Reg.ethTxqTail n q else Reg.ethRxTail n (q - 8)
def State.ethRingBase (s : State) (n q : Nat) : Nat :=
  if q < 8 then s.rget64 (Reg.ethTxqBaseLo n q) (Reg.ethTxqBaseHi n q)
  else s.rget64 (Reg.ethRxBaseLo n (q - 8)) (Reg.ethRxBaseHi n (q - 8))

def State.ethHead (s : State) (n q : Nat) : Nat := s.rf (ethRingReg n q) 28 16
def State.ethTail (s : State) (n q : Nat) : Nat := s.rf (ethTailReg n q) 12 0
def State.ethLen (s : State) (n q : Nat) : Nat := s.rf (ethRingReg n q) 12 0

/-- Address of the descriptor at the head of a ring. -/
def State.ethDescAt (s : State) (n q : Nat) : Nat := s.ethRingBase n q + 32 * s.ethHead n q

/-- The descriptor at the head of a ring when the MAC owns one. -/
def Run.ethDesc (r : Run s₀) (n q : Nat) : Run s₀ × Option (List Byte) :=
  if !r.s.rb (ethRingReg n q) 31 || r.s.ethHead n q == r.s.ethTail n q then (r, none)
  else
    let (r, st, d) := r.memRead 6 (r.s.ethDescAt n q) 32
    if st = .ok ∧ bit (recNat d 10 1) 7 then (r, some d) else (r, none)

/-- A descriptor is returned: `len`, `status` and stamp are written, `own` is cleared and `head` advances; with `ev` the
done flag is set (R423). -/
def Run.ethReturn (r : Run s₀) (n q : Nat) (d : List Byte) (len : Nat) (st : Status) (stamp : Option Nat) : Run s₀ :=
  let a := r.s.ethDescAt n q
  let t := stamp.getD 0
  let ctl := recNat d 10 1 % 128
  let body := bytesLE 2 len ++ bytesLE 1 ctl ++ bytesLE 1 st.code
    ++ (match stamp with
        | some _ => bytesLE 4 (t >>> 16) ++ bytesLE 2 t ++ bytesLE 2 0 ++ bytesLE 4 (t >>> 48)
        | none => (d.drop 12).take 12)
  let (r, _) := r.memWrite 6 (a + 8) body
  let r := r.wf (ethRingReg n q) 28 16 (if r.s.ethHead n q + 1 = r.s.ethLen n q then 0 else r.s.ethHead n q + 1)
  if bit ctl 1 then r.flag (Reg.ethEvstat n) (if q < 8 then 0 else 1) else r

/-- A transmit descriptor returned without its frame being sent (R423). -/
def Run.ethRefuse (r : Run s₀) (n q : Nat) (d : List Byte) (st : Status) : Run s₀ :=
  ((r.ethReturn n q d (recNat d 8 2) st none).count (Reg.ethCntTxref n) 31 0).flag (Reg.ethEvstat n) 6

/-! ## Gates (R427 to R429) -/

/-- Gates are in force. -/
def State.gclOn (s : State) (n : Nat) : Bool :=
  s.rb (Reg.ethGclCtrlAct n) 31 && decide (0 < s.rf (Reg.ethGclCtrlAct n) 8 0)

/-- The segments of one cycle: gate states and duration in ns, without the entries of interval 0, cut off at or held to
the end of the cycle (R428). -/
def State.gclSegs (s : State) (n : Nat) : List (Nat × Nat) :=
  let cyc := (s.rget (Reg.ethGclCycleAct n)).toNat
  let l := ((List.range (s.rf (Reg.ethGclCtrlAct n) 8 0)).map fun i =>
    (s.rf (Reg.ethGclAct n i) 31 24, s.rf (Reg.ethGclAct n i) 23 0)).filter fun e => decide (0 < e.2)
  let cutOff (acc : List (Nat × Nat) × Nat) (e : Nat × Nat) : List (Nat × Nat) × Nat :=
    if acc.2 = 0 then acc else (acc.1 ++ [(e.1, min e.2 acc.2)], acc.2 - min e.2 acc.2)
  let (m, rest) := l.foldl cutOff ([], cyc)
  if rest = 0 then m
  else match m.getLast? with
    | some e => m.dropLast ++ [(e.1, e.2 + rest)]
    | none => [(s.rf (Reg.ethGclAct n (s.rf (Reg.ethGclCtrlAct n) 8 0 - 1)) 31 24, cyc)]

/-- How long a gate stays open along a list of segments. -/
def openRun (q : Nat) : List (Nat × Nat) → Nat
  | [] => 0
  | (g, d) :: t => if bit g q then d + openRun q t else 0

/-- The longest continuous open time of a gate in one cycle (R429). -/
def openBest (q : Nat) : List (Nat × Nat) → Nat
  | [] => 0
  | (g, d) :: t => max (openRun q ((g, d) :: t)) (openBest q t)

/-- The head frame of a queue ends before its gate closes (R427). -/
def State.gateFits (s : State) (n q len : Nat) : Bool :=
  if !s.gclOn n then true
  else
    let x := s.mac n
    let segs := s.gclSegs n
    match x.gclNext with
    | none => bit x.gates q
    | some nx =>
      let left := nx - s.ethTimeNow n
      let later := segs.drop (x.gclIdx + 1) ++ segs ++ segs
      bit x.gates q && (segs.all (fun e => bit e.1 q) || decide (s.ethTime n len ≤ left + openRun q later))

/-- The frame could never end within its gate's open time (R429). -/
def State.gateNever (s : State) (n q len : Nat) : Bool :=
  s.gclOn n && !((s.gclSegs n).all fun e => bit e.1 q) && decide (openBest q (s.gclSegs n) < s.ethTime n len)

/-! ## Transmission -/

/-- The first item of a queue whose frame can be offered: a ring item only while its descriptor is the MAC's. -/
def Run.ethHeadItem (r : Run s₀) (n q : Nat) : Run s₀ × Option (EthItem × List Byte) :=
  let l := ((r.s.mac n).items.filter fun e => e.1 == q).map (·.2)
  let (r, d) := r.ethDesc n q
  match d with
  | some d => match l with
    | i :: _ => (r, some (i, d))
    | [] => (r, none)
  | none => match l.find? fun i => i != .ring with
    | some i => (r, some (i, []))
    | none => (r, none)

/-- Queue `q` tries its head frame: it starts, waits, or is returned, after which the next is tried. -/
def Run.ethTry (r : Run s₀) (n q : Nat) : Nat → Run s₀
  | 0 => r
  | fuel + 1 =>
    if (r.s.mac n).busy.isSome then r
    else
      let (r, h) := r.ethHeadItem n q
      match h with
      | none => r
      | some (.gram i f, _) =>
        if r.s.gateNever n q f.length then
          let x := r.s.mac n
          (r.setMac n { x with items := x.items.erase (q, .gram i f) }).ethTry n q fuel
        else if r.s.gateFits n q f.length then
          let x := r.s.mac n
          r.setMac n { x with items := x.items.erase (q, .gram i f), busy := some (q, .gram i f, f) }
        else r
      | some (.ring, d) =>
        let len := recNat d 8 2
        let x := r.s.mac n
        let out := x.items.erase (q, .ring)
        if len < 14 ∨ r.s.ethMax n < len + 4 then ((r.setMac n { x with items := out }).ethRefuse n q d .cfgerr).ethTry n q fuel
        else if r.s.gateNever n q len then ((r.setMac n { x with items := out }).ethRefuse n q d .refused).ethTry n q fuel
        else if r.s.gateFits n q len then
          let (r, st, b) := r.memRead 6 (recNat d 0 5) len
          if st = .ok ∧ recNat d 5 3 = 0 then r.setMac n { r.s.mac n with items := out, busy := some (q, .ring, b) }
          else ((r.setMac n { r.s.mac n with items := out }).ethRefuse n q d .fault).ethTry n q fuel
        else r

/-- A MAC that sends nothing starts the next frame from the highest queue that may (R427). A commit of CFG whose
time has come waits for an instant without a frame, so it goes first (R430). -/
def Run.ethStart (r : Run s₀) (n : Nat) : Run s₀ :=
  if !r.s.rb (Reg.ethCfgAct n) 30 || r.s.commitDue (.ethcfg n) then r
  else r.each [7, 6, 5, 4, 3, 2, 1, 0] fun r q => r.ethTry n q ((r.s.mac n).items.length + 1)

/-- A write of a ring's tail hands the descriptors up to it to the MAC; a tail at or above `len` is refused (R423, R430). -/
def Run.ethTailWrite (r : Run s₀) (n q v : Nat) : Run s₀ :=
  let v := v % 8192
  let len := r.s.ethLen n q
  if len ≤ v then r.flag (Reg.ethEvstat n) 4
  else
    let k := (v + len - r.s.ethTail n q % len) % len
    let r := r.wf (ethTailReg n q) 12 0 v
    if 8 ≤ q then r
    else
      let x := r.s.mac n
      let r := r.setMac n { x with items := x.items ++ List.replicate k (q, .ring) }
      if r.s.rb (Reg.ethCfgAct n) 30 then r.ethStart n
      else r

/-- ETH_TAIL_WRITE (R423). -/
def execEthTailWrite (n q : Nat) (v : Word) (s : State) : Out := ((Run.start s).ethTailWrite n q v.toNat).done

/-- A write of a ring's BASE, or of RING: refused while the ring's `qen` is 1, but for `qen` itself (R430). -/
def Run.ethRingWrite (r : Run s₀) (n q v : Nat) : Run s₀ :=
  let a := ethRingReg n q
  let len := v % 8192
  let r := if len = r.s.ethLen n q then r
    else if r.s.rb a 31 ∨ len < 1 ∨ 4096 < len then r.flag (Reg.ethEvstat n) 4
    else r.wf a 12 0 len
  r.wb a 31 (bit v 31)

/-- ETH_TX_DONE: the frame in progress ends, stamped `t` in 2⁻¹⁶ ns at the balls; its descriptor is returned OK and the
next frame starts (R423, R424, R427). -/
def execEthTxDone (n t : Nat) (s : State) : Out :=
  let r := Run.start s
  let x := s.mac n
  match x.busy with
  | none => (r.ethStart n).done
  | some (q, i, _) =>
    let r := r.setMac n { x with busy := none }
    let r := match i with
      | .gram .. => r
      | .ring =>
        let (r, d) := r.ethDesc n q
        match d with
        | none => r
        | some d =>
          let st := if bit (recNat d 10 1) 0 then some (r.s.ethStamp n t true) else none
          r.ethReturn n q d (recNat d 8 2) .ok st
    (r.ethStart n).done

/-! ## Reception (R421) -/

/-- A received frame into a receive ring, or dropped for want of a descriptor (R423). -/
def Run.ethDeliver (r : Run s₀) (n q : Nat) (body : List Byte) (stamp : Nat) : Run s₀ :=
  let (r, d) := r.ethDesc n (8 + q)
  match d with
  | none => (r.count (Reg.ethCntRxdrop n) 31 0).flag (Reg.ethEvstat n) 5
  | some d =>
    let cap := recNat d 8 2
    let (r, w) := r.memWrite 6 (recNat d 0 5) (body.take cap)
    r.ethReturn n (8 + q) d body.length
      (if w ≠ .ok then .fault else if cap < body.length then .trunc else .ok) (some stamp)

/-- The MAC's own address, as the six bytes of a frame. -/
def State.macAddr (s : State) (n : Nat) : Nat := s.rf (Reg.ethMacaddrHiAct n) 15 0 <<< 32 + (s.rget (Reg.ethMacaddrLoAct n)).toNat

/-! ## Links (R420, R449) -/

/-- ETH_LINK_CHANGE: the link state and the speed in use change. -/
def execEthLinkChange (n : Nat) (up : Bool) (speed : Nat) (s : State) : Out :=
  let r := Run.start s
  let a := Reg.ethStat n
  let chg := s.rb a 31 != up
  let r := (r.wb a 31 up).wf a 1 0 (if up then speed else 0)
  (if chg then r.flag (Reg.ethEvstat n) 2 else r).done

/-! ## The gate control list (R428) -/

/-- The list looks for its next cycle start at or after the present instant. -/
def Run.gclArm (r : Run s₀) (n : Nat) : Run s₀ :=
  if r.s.gclOn n then
    let base := r.s.rget64 (Reg.ethGclBaseLoAct n) (Reg.ethGclBaseHiAct n)
    let cyc := max 1 (r.s.rget (Reg.ethGclCycleAct n)).toNat
    let now := r.s.ethTimeNow n
    let nx := if now ≤ base then base else base + divUp (now - base) cyc * cyc
    let x := r.s.mac n
    r.setMac n { x with gclIdx := (r.s.gclSegs n).length, gclStart := nx, gclNext := some nx }
  else
    let x := r.s.mac n
    r.setMac n { x with gates := 0xFF, gclNext := none, gclIdx := 0 }

/-- On a base that has been moved the cycles start at the times that the base now shows (R428). -/
def Run.gclWatch (r : Run s₀) (n : Nat) : Run s₀ :=
  match (r.s.mac n).gclNext with
  | none => r
  | some nx =>
    let base := r.s.rget64 (Reg.ethGclBaseLoAct n) (Reg.ethGclBaseHiAct n)
    let cyc := (r.s.rget (Reg.ethGclCycleAct n)).toNat
    let now := r.s.ethTimeNow n
    if (nx ≠ base ∧ now + cyc < nx) ∨ nx + cyc < now then r.gclArm n else r

/-- A cycle starts: the first entry is in force, and a waiting commit of GCL may come into use (R428). -/
def Run.gclCycle (r : Run s₀) (n start : Nat) : Run s₀ :=
  let segs := r.s.gclSegs n
  let x := r.s.mac n
  let (g, d) := (segs.head?).getD (0xFF, 1)
  let r := r.setMac n { x with gclIdx := 0, gclStart := start, gates := g, gclNext := some (start + d) }
  r.up (.commits (r.s.commits.map fun c => 
    if c.group = .ethgcl n ∧ (c.late ∨ c.time.all fun t => decide (t ≤ r.s.now)) then
      { c with due := true, boundary := if r.s.ethBase n = 0 then start else r.s.now }
    else c))

/-- GCL_ENTRY: the list moves to its next entry or to the next cycle (R428), and the queues are tried again (R427). -/
def execGclEntry (n : Nat) (s : State) : Out :=
  let r := Run.start s
  let x := s.mac n
  match x.gclNext with
  | none => r.done
  | some nx =>
    if !s.gclOn n || decide (s.ethTimeNow n < nx) then r.done
    else
      let segs := s.gclSegs n
      let r := match segs[x.gclIdx + 1]? with
        | some (g, d) => r.setMac n { x with gclIdx := x.gclIdx + 1, gates := g, gclNext := some (nx + d) }
        | none => r.gclCycle n nx
      (r.ethStart n).done

/-! ## The PTP servo (R426) -/

/-- The servo's rate in ppb as a fraction, clamped to ±10⁶: −(θ / 2^kp + I / 2^ki), with θ and I in 2⁻⁴ ns. -/
def ptpRho (th i : Int) (kp ki : Nat) : Int × Nat :=
  let den := 16 * 2 ^ (kp + ki)
  let num : Int := -(th * (2 ^ ki : Nat) + i * (2 ^ kp : Nat))
  let lim : Int := ((1000000 * den : Nat) : Int)
  (if num > lim then lim else if num < -lim then -lim else num, den)

/-- One servo step on base `n + 1`: a step of the base, or a new increment. -/
def Run.ptpStep (r : Run s₀) (n : Nat) (th : Int) : Run s₀ :=
  let b := n + 1
  let x := r.s.mac n
  let cfg := Reg.ethPtpCfg n
  let kp := r.s.rf cfg 27 24
  let ki := r.s.rf cfg 19 16
  if r.s.rf cfg 15 0 * 16 < th.natAbs ∧ !r.s.baseHasGrid b then
    let r := r.moveLater b (.add (-(th * (2 ^ 28 : Nat)))) .servo
    (r.setMac n { x with integ := 0 }).flag (Reg.ethEvstat n) 3
  else
    let lim : Int := ((2 ^ ki * 1000000 * 16 : Nat) : Int)
    let i := x.integ + th
    let i := if i > lim then lim else if i < -lim then -lim else i
    let (num, den) := ptpRho th i kp ki
    let d := roundMul (num * (x.inc0 : Int)) 1 (den * 1000000000)
    let inc := ((x.inc0 : Int) + d).toNat
    if inc < 0x4FEB851EC then
      ((r.setBase b { r.s.base b with inc := 0x4FEB851EC }).flag (Reg.ethEvstat n) 7)
    else if 0x50147AE14 < inc then
      ((r.setBase b { r.s.base b with inc := 0x50147AE14 }).flag (Reg.ethEvstat n) 7)
    else (r.setBase b { r.s.base b with inc := inc }).setMac n { x with integ := i }

/-- A write of ETHn_PTP_OFFSET: refused while the base is not under `disc` = 1; otherwise one servo step, and θ as F32 to
the chosen signal (R426). -/
def Run.ptpOffset (r : Run s₀) (n v : Nat) : Run s₀ :=
  if r.s.rf (Reg.timeTbCtrl (n + 1)) 1 0 ≠ 1 then r.flag (Reg.ethEvstat n) 4
  else
    let th := sInt 32 v
    let r := r.ptpStep n th
    if r.s.rb (Reg.ethPtpSig n) 31 then
      r.sigPush { idx := r.s.rf (Reg.ethPtpSig n) 17 0, val := f32.ofRat (decide (th < 0)) th.natAbs 16 0,
                  stamp := r.s.now32, kind := 9, inst := n }
    else r

/-- PTP_OFFSET_WRITE (R426). -/
def execPtpOffsetWrite (n : Nat) (v : Word) (s : State) : Out := ((Run.start s).ptpOffset n v.toNat).done

/-- `disc` becomes 1: the increment of that moment is INC0 (R426). -/
def Run.discOn (r : Run s₀) (n : Nat) : Run s₀ :=
  r.setMac n { r.s.mac n with inc0 := (r.s.base (n + 1)).inc, integ := 0 }

/-! ## Groups (R428, R430) and STATUS -/

/-- The check of R15 for group CFG of a MAC. -/
def State.ethcfgCheck (s : State) (n : Nat) : Bool :=
  let c := Reg.ethCfg n
  let a := Reg.ethCfgAct n
  s.rf c 1 0 != 3 && s.rf c 9 8 != 3 && (s.rf c 1 0 == 0 || s.rf c 5 4 == 2)
    && (s.rf c 1 0 == s.rf a 1 0 || (!s.rb a 31 && !s.rb a 30))

/-- What follows when CFG comes into use: frames in the rings are returned ABORTED when `tx_en` becomes 0 (R423). -/
def Run.ethcfgApplied (r : Run s₀) (n : Nat) (txWas : Bool) : Run s₀ :=
  if txWas && !r.s.rb (Reg.ethCfgAct n) 30 then
    let r := r.each ((r.s.mac n).items.filter fun e => e.2 == .ring) fun r e =>
      let (r, d) := r.ethDesc n e.1
      match d with
      | some d => r.ethRefuse n e.1 d .aborted
      | none => r
    let x := r.s.mac n
    r.setMac n { x with items := x.items.filter fun e => e.2 != .ring }
  else if !txWas then
    -- descriptors handed over while the transmitter was off now wait in their queues
    r.ethStart n
  else r.ethStart n

/-- What follows when GCL comes into use: the first cycle of the new list (R428). -/
def Run.ethgclApplied (r : Run s₀) (n : Nat) : Run s₀ := (r.gclArm n).ethStart n

/-- The check of R15 for group GCL (R428). -/
def State.ethgclCheck (s : State) (n : Nat) : Bool :=
  let c := (s.rget (Reg.ethGclCycle n)).toNat
  decide (s.rf (Reg.ethGclCtrl n) 8 0 ≤ 256 ∧ 1000 ≤ c ∧ c ≤ 1000000000)

/-- ETH STATUS acts (R448). -/
def Run.actEthStatus (r : Run s₀) (o : Op) : Run s₀ :=
  let w (a : Nat) : Nat := (r.s.rget a).toNat
  r.opFin o o.okSt 0 (wordsLE [w (Reg.ethStat o.obj), w (Reg.ethCntRxdrop o.obj), w (Reg.ethCntCrc o.obj),
    w (Reg.ethCntTxref o.obj)])

def execEthStatus (id : Nat) (s : State) : Out := ((Run.start s).opRow id 10 2 Run.actEthStatus).done

end Sys2Proof.Machine
end

