-- ==== Sys2Proof/Machine/Ps.lean ====
section
/-!
DEFINITION. Partner sessions (11_plant_ports.md, R440 to R448, and the epoch rule of R538).
-/
namespace Sys2Proof.Machine

variable {s₀ : State}

/-! ## The session table (R440) and admission (R447) -/

/-- The entry that 64 bytes spell. -/
def psEntryOf (d : List Byte) : PsEntry :=
  let m := recNat d 0 1
  { role := bits m 1 0, transport := bits m 3 2, redEn := bit m 4, mac := b2n (bit m 5), txq := recNat d 1 1 % 8
    n := recNat d 2 2, flow := recNat d 4 2 % 4096, sid := recNat d 6 2, peerNode := recNat d 8 2, peerIp := recNat d 12 4
    peerMac := ofBytesBE ((d.drop 16).take 6), grid := recNat d 22 1 % 16, every := recNat d 23 1, txOff := recNat d 24 4
    wdUs := recNat d 28 4, listAddr := recNat d 32 5 }

/-- The engine reads an entry of the table. -/
def Run.psRead (r : Run s₀) (i : Nat) : Run s₀ × Option PsEntry :=
  let (r, st, d) := r.memRead 7 (r.s.rget64 Reg.psTableBaseLo Reg.psTableBaseHi + 64 * i) 64
  if st = .ok then (r, some (psEntryOf d)) else (r, none)

/-- Sessions that run. -/
def State.psRunning (s : State) : List (Nat × PsSess) := s.port.ps.filter fun e => e.2.state != 0

/-- The load of a session, in entries per second, as a fraction (R447). -/
def State.psLoad (s : State) (e : PsEntry) : Nat × Nat :=
  if e.role = 2 then (e.n * 4000000, max 1 e.wdUs)
  else
    let p := if e.transport = 0 then s.gridP s.cycGrid else s.gridP e.grid
    (e.n * 1000000000, max 1 (e.every * p))

/-- Two running consumers would match the same frames (R442, R447). -/
def PsEntry.clash (a b : PsEntry) : Bool :=
  a.role == 2 && b.role == 2 && a.transport == b.transport && a.sid == b.sid &&
    (match a.transport with
     | 0 => a.peerNode == b.peerNode
     | 1 => a.mac == b.mac && a.peerIp == b.peerIp
     | _ => a.mac == b.mac && a.peerMac == b.peerMac)

/-- The check of START and RELOAD of session `i` (R447): CFGERR, OVERLOAD, or admitted. -/
def State.psAdmit (s : State) (i : Nat) (e : PsEntry) : Status :=
  let others := (s.psRunning.filter fun x => x.1 != i).map fun x => x.2.entry
  let eth := e.transport = 1 ∨ e.transport = 2
  let bad :=
    (e.role = 0 ∨ e.role = 3 ∨ e.transport = 3 ∨ 128 < e.n)
      ∨ (e.role = 1 ∧ e.every = 0)
      ∨ (e.role = 1 ∧ eth ∧ (e.txOff < 1000 ∨ s.gridP e.grid ≤ e.txOff))
      ∨ (e.role = 2 ∧ (e.wdUs < 1 ∨ 10000000 < e.wdUs))
      ∨ (e.transport = 0 ∧ !s.cycOn)
      ∨ (eth ∧ (!s.rb (Reg.ethCfgAct e.mac) 31 ∨ !s.rb (Reg.ethCfgAct e.mac) 30))
      ∨ others.any (fun o => o.clash e)
  let add (x : Nat × Nat) (y : Nat × Nat) : Nat × Nat := (x.1 * y.2 + y.1 * x.2, x.2 * y.2)
  let load := (others.map s.psLoad).foldl add (s.psLoad e)
  if decide bad then .cfgerr
  else if 50000000 * load.2 < load.1 then .overload
  else .ok

/-- PS_STAT and PS_TOUTn show the running sessions and those in TIMEOUT. -/
def Run.psShow (r : Run s₀) (i : Nat) : Run s₀ :=
  let l := r.s.psRunning
  let prod := (l.filter fun e => e.2.entry.role == 1).length
  let cons := (l.filter fun e => e.2.entry.role == 2).length
  (r.wr Reg.psStat (prod <<< 16 + cons)).wb (Reg.psTout (i / 32)) (i % 32) ((r.s.psess i).state == 2)

/-! ## Producers (R443, R444) -/

/-- The duty of the running redundancy group that lists a session and for which this node is ACTIVE. -/
def State.psDuty (s : State) (i : Nat) : Option Nat :=
  if s.rb Reg.redStat 31 then
    (List.range s.red.duties.length).find? fun d =>
      ((s.red.duties[d]?.getD {}).sessions.contains i) && s.redRole d == 4
  else none

/-- A producer with `red_en` takes and sends only while its node is ACTIVE for a duty that lists it (R523). -/
def State.psMaySend (s : State) (i : Nat) : Bool := !(s.psess i).entry.redEn || (s.psDuty i).isSome

/-- The authority epoch that a redundant producer sends: the node's own for the duty (R441, R523). -/
def State.psEpochOut (s : State) (i : Nat) : Nat := match s.psDuty i with
  | some d => (tget {} d s.red.runs).mine
  | none => 0

/-- The datagram of R441. -/
def psDatagram (e : PsEntry) (seq epoch take : Nat) (vals : List ReadOut) : List Byte :=
  let ok (x : ReadOut) : Bool := x.status == .ok
  let valid := vals.zipIdx.foldl (fun m x => m + b2n (ok x.1) <<< x.2) 0
  bytesBE 2 e.sid ++ bytesBE 1 1 ++ bytesBE 1 0 ++ bytesBE 2 e.n ++ bytesBE 2 seq ++ bytesBE 4 epoch ++ bytesBE 4 0
    ++ bytesBE 8 take ++ bytesBE 16 valid
    ++ vals.flatMap fun x => if ok x then bytesBE 4 x.val ++ bytesBE 4 x.stamp else bytesBE 8 0

/-- The ones'-complement sum of 16-bit words, for the IPv4 header checksum. -/
def ipSum (d : List Byte) : Nat :=
  let n := (List.range (d.length / 2)).foldl (fun a k => a + ofBytesBE ((d.drop (2 * k)).take 2)) 0
  let n := n % 65536 + n / 65536
  65535 - (n % 65536 + n / 65536)

/-- The Ethernet frame without FCS that carries a datagram (R441). -/
def State.psFrame (s : State) (e : PsEntry) (d : List Byte) : List Byte :=
  let macs := bytesBE 6 e.peerMac ++ bytesBE 6 (s.macAddr e.mac)
  if e.transport = 2 then macs ++ bytesBE 2 (s.rf Reg.psCfg 15 0) ++ d
  else
    let port := s.rf Reg.psCfg 31 16
    let udp := bytesBE 2 port ++ bytesBE 2 port ++ bytesBE 2 (d.length + 8) ++ bytesBE 2 0
    let head (sum : Nat) : List Byte :=
      bytesBE 1 0x45 ++ bytesBE 1 0 ++ bytesBE 2 (d.length + 28) ++ bytesBE 2 0 ++ bytesBE 2 0x4000 ++ bytesBE 1 64
        ++ bytesBE 1 17 ++ bytesBE 2 sum ++ bytesBE 4 (s.rget (Reg.ethIpaddrAct e.mac)).toNat ++ bytesBE 4 e.peerIp
    macs ++ bytesBE 2 0x0800 ++ head (ipSum (head 0)) ++ udp ++ d

/-- A datagram that never left is counted (R444). -/
def Run.psTxDrop (r : Run s₀) (i : Nat) : Run s₀ :=
  let x := r.s.psess i
  (r.setPsess i { x with txDrop := satAdd x.txDrop 1 65535 }).flag Reg.psEvstat 4

/-- The frames of a session, by flow and `sid`, that this node has not sent yet, taken away; it says whether there was one
(R444). -/
def Run.psUnsent (r : Run s₀) (flow sid : Nat) : Run s₀ × Bool :=
  let mine (f : HerdFrame) : Bool :=
    f.cls == 1 && !f.transit && f.payload.take 4 == bytesBE 2 flow ++ bytesBE 2 sid
  let had := (List.range 4).any fun p =>
    (r.s.hport p).q3.any mine || (r.s.hport p).isoQ.any fun e => mine e.2
  if !had then (r, false)
  else
    (r.each (List.range 4) fun r p =>
      let x := r.s.hport p
      r.setHport p { x with q3 := x.q3.filter fun f => !mine f, isoQ := x.isoQ.filter fun e => !mine e.2 }, true)

/-- An operation that waited for a take ends. -/
def Run.psOp (r : Run s₀) (op : Option Nat) : Run s₀ := match op with
  | none => r
  | some id => match r.s.op id with
    | none => r
    | some o => if o.out.isSome then r else r.opFin o o.okSt 0 []

/-- What waits for a take instant: RELOAD, START and STOP (R448). It says whether the session still runs. -/
def Run.psAtTake (r : Run s₀) (i : Nat) : Run s₀ × Bool :=
  let x := r.s.psess i
  if x.stopping then
    let r := (r.psOp x.stopOp).psOp x.startOp
    ((r.setPsess i { x with state := 0, stopping := false, stopOp := none, startOp := none, takeAt := none }).psShow i, false)
  else
    let r := (r.psOp x.startOp).psOp x.reloadOp
    (r.setPsess i { x with entry := x.reload.getD x.entry, reload := none, startOp := none, reloadOp := none, takeAt := none }, true)

/-- PS_TAKE: at its take instant a producer reads its signals and builds the datagram; over the Herd it is handed to the
port (R443, R444). -/
def execPsTake (i : Nat) (s : State) : Out :=
  let r := Run.start s
  let x := s.psess i
  let e := x.entry
  let now := if e.transport = 0 then s.now else s.baseTime (s.gridBase e.grid)
  match x.takeAt with
  | none => r.done
  | some t =>
    if x.state = 0 ∨ now < t then r.done
    else
      let (r, go) := r.psAtTake i
      if !go ∨ !r.s.psMaySend i then r.done
      else
        let e := (r.s.psess i).entry
        let (r, st, d) := if e.n = 0 then (r, .ok, []) else r.memRead 7 e.listAddr (4 * e.n)
        if st ≠ .ok then (r.flag Reg.psEvstat 7).done
        else
          let idx := (List.range e.n).map fun k => recNat d (4 * k) 4
          let r := r.each idx fun r j => if j < 0x40000 then r.sigMeet j else r
          let vals := idx.map fun j => r.s.sigHist j 0
          let x := r.s.psess i
          let seq := (x.seq + 1) % 65536
          let epoch := if e.redEn then r.s.psEpochOut i else 0
          let g := psDatagram e seq epoch (if e.transport = 0 ∨ s.gridBase e.grid = 0 then t else r.s.now) vals
          if e.transport = 0 then
            let (r, had) := r.psUnsent e.flow e.sid
            let r := if had then r.psTxDrop i else r
            let r := r.setPsess i { r.s.psess i with seq := seq }
            (r.originate 1 e.peerNode 3 (bytesBE 2 e.flow ++ g)).done
          else
            let waiting := (r.s.mac e.mac).items.any fun it => match it.2 with
              | .gram j _ => j == i
              | .ring => false
            let m := r.s.mac e.mac
            let r := r.setMac e.mac { m with items := m.items.filter fun it => match it.2 with
              | .gram j _ => j != i
              | .ring => true }
            let r := if waiting ∨ x.gram.isSome then r.psTxDrop i else r
            (r.setPsess i { r.s.psess i with seq := seq, gram := some (r.s.psFrame e g) }).done

/-- PS_SEND: at the send instant the datagram is handed to its queue, or dropped when the MAC's 256 places are full
(R443, R444). -/
def execPsSend (i : Nat) (s : State) : Out :=
  let r := Run.start s
  let x := s.psess i
  let e := x.entry
  match x.gram with
  | none => r.done
  | some f =>
    if s.baseTime (s.gridBase e.grid) < x.sendAt then r.done
    else
      let r := r.setPsess i { x with gram := none }
      let m := r.s.mac e.mac
      let held := (m.items.filter fun it => it.2 != .ring).length
      if 256 ≤ held then (r.psTxDrop i).done
      else ((r.setMac e.mac { m with items := m.items ++ [(e.txq, .gram i f)] }).ethStart e.mac).done

/-- The earliest slot of a flow over the ports on which its frame leaves, in ns from the cycle boundary (R443). -/
def State.psSlot (s : State) (e : PsEntry) : Option Nat :=
  let ports := if e.peerNode = 0xFFFF then (List.range 4).filter fun p => s.hrole p == 1 || s.hrole p == 2
    else (s.routePort e.peerNode).toList
  let offs := ports.flatMap fun p => ((s.slots p).filter fun x => x.1 == e.flow).map fun x => x.2 * 5
  offs.foldl (fun m o => match m with
    | none => some o
    | some k => some (min k o)) none

/-- A boundary of a grid sets the take and send instants of the producers on it (R443). -/
def Run.psBoundary (r : Run s₀) (g : Nat) : Run s₀ :=
  let b := (r.s.grid g).last
  r.each (r.s.psRunning.filter fun e => e.2.entry.role == 1 &&
      ((e.2.entry.transport == 0 && r.s.cycOn && r.s.cycGrid == g) || (e.2.entry.transport != 0 && e.2.entry.grid == g)))
    fun r p =>
      let x := r.s.psess p.1
      let e := x.entry
      let mine := x.count % max 1 e.every == 0
      let x := { x with count := x.count + 1 }
      if !mine then r.setPsess p.1 x
      else if e.transport = 0 then
        let take := match r.s.psSlot e with
          | some o => b + (o - 1000)
          | none => b
        r.setPsess p.1 { x with takeAt := some take }
      else r.setPsess p.1 { x with takeAt := some (b + e.txOff - 1000), sendAt := b + e.txOff }

/-! ## Consumers (R442, R445, R446, R538) -/

/-- Epoch e2 is newer than e1 (R535). -/
def epochNewer (e2 e1 : Nat) : Bool := decide (0 < (e2 + 2 ^ 32 - e1) % 2 ^ 32 ∧ (e2 + 2 ^ 32 - e1) % 2 ^ 32 < 2 ^ 31)

/-- The epoch rule of R538: `none` drops the datagram with `rx_err` or as superseded; otherwise the session's epoch and
whether the `seq` check restarts. -/
def psEpoch (x : PsSess) (e : Nat) : Option (Nat × Bool) :=
  if e = 0 then none
  else if x.epoch = 0 ∨ epochNewer e x.epoch then some (e, true)
  else if e = x.epoch then some (e, false)
  else none

/-- The datagram is accepted: its entries become updates, the watchdog restarts, TIMEOUT ends (R445, R446). -/
def Run.psAccept (r : Run s₀) (i : Nat) (d : List Byte) (epoch seq : Nat) : Run s₀ :=
  let be (o n : Nat) : Nat := ofBytesBE ((d.drop o).take n)
  let x := r.s.psess i
  let e := x.entry
  let valid := be 24 16
  let back := x.state = 2
  let r := r.setPsess i { x with state := 1, epoch := epoch, lastSeq := some seq, accepted := satAdd x.accepted 1 65535,
                                 heardAt := r.s.cyc }
  let r := if back then (r.psShow i).flag Reg.psEvstat 1 else r
  let (r, st, l) := if e.n = 0 then (r, .ok, []) else r.memRead 7 e.listAddr (4 * e.n)
  if st ≠ .ok then r.flag Reg.psEvstat 7
  else r.each ((List.range e.n).filter fun k => bit valid k) fun r k =>
    let j := recNat l (4 * k) 4
    if 0x40000 ≤ j then (r.count Reg.sigUndef 31 0).flag Reg.sigEvstat 2
    else r.sigPush { idx := j, val := be (40 + 8 * k) 4, stamp := be (44 + 8 * k) 4, kind := 7, inst := i }

/-- The `seq` check of R445. -/
def Run.psSeq (r : Run s₀) (i : Nat) (d : List Byte) (epoch : Nat) (restart : Bool) : Run s₀ :=
  let x := r.s.psess i
  let seq := ofBytesBE ((d.drop 6).take 2)
  let k := match x.lastSeq with
    | none => 1
    | some l => if restart then 1 else (seq + 65536 - l) % 65536
  if k = 0 ∨ 0x8000 ≤ k then r.setPsess i { x with dup := satAdd x.dup 1 65535 }
  else
    let r := if 1 < k then (r.setPsess i { x with gap := satAdd x.gap 1 65535 }).flag Reg.psEvstat 2 else r
    r.psAccept i d epoch seq

/-- A matched datagram: the first case of R445 that holds. -/
def Run.psReceive (r : Run s₀) (i : Nat) (d : List Byte) : Run s₀ :=
  let be (o n : Nat) : Nat := ofBytesBE ((d.drop o).take n)
  let x := r.s.psess i
  if x.state = 0 ∨ x.entry.role ≠ 2 then r
  else if be 2 1 ≠ 1 ∨ be 4 2 ≠ x.entry.n then r.flag Reg.psEvstat 3
  else if x.entry.redEn then
    match psEpoch x (be 8 4) with
    | none => if be 8 4 = 0 then r.flag Reg.psEvstat 3 else (r.count Reg.redCnt 31 16).flag Reg.redEvstat 5
    | some (e, restart) => r.psSeq i d e restart
  else r.psSeq i d x.epoch false

/-- PS_DATAGRAM_RECEIVE (R445). -/
def execPsDatagramReceive (i : Nat) (d : List Byte) (s : State) : Out := ((Run.start s).psReceive i d).done

/-- The running consumer that a datagram matches (R442). -/
def State.psMatch (s : State) (transport mac sid : Nat) (peer : PsEntry → Bool) : Option Nat :=
  (s.psRunning.find? fun e => e.2.entry.role == 2 && e.2.entry.transport == transport && e.2.entry.sid == sid
    && (transport == 0 || e.2.entry.mac == mac) && peer e.2.entry).map (·.1)

/-- A partner-session frame goes to its consumer, or is dropped as unmatched (R442). -/
def Run.psFrameIn (r : Run s₀) (transport mac : Nat) (peer : PsEntry → Bool) (d : List Byte) : Run s₀ :=
  match r.s.psMatch transport mac (ofBytesBE (d.take 2)) peer with
  | some i => r.psReceive i d
  | none => (r.count Reg.psCntNomatch 31 0).flag Reg.psEvstat 5

/-- An ISO frame is a partner-session frame when a running consumer names its flow (R442). -/
def State.psFlow (s : State) (flow : Nat) : Bool :=
  s.psRunning.any fun e => e.2.entry.role == 2 && e.2.entry.transport == 0 && e.2.entry.flow == flow

/-- ETH_RX_FRAME: a frame with its FCS has been received, its first bit after the SFD stamped `t` in 2⁻¹⁶ ns at the balls;
the first case of R421 that holds. -/
def execEthRxFrame (n : Nat) (d : List Byte) (t : Nat) (s : State) : Out :=
  let r := Run.start s
  let be (o k : Nat) : Nat := ofBytesBE ((d.drop o).take k)
  let body := d.dropLast.dropLast.dropLast.dropLast
  let fcs := ofBytesLE (d.drop (d.length - 4))
  let type := be 12 2
  let dst := be 0 6
  let mine := dst = s.macAddr n ∨ dst = 0xFFFFFFFFFFFF ∨ (bit (dst >>> 40) 0 ∧ s.rb (Reg.ethCfgAct n) 29)
  let ihl := be 14 1 % 16 * 4
  let udp := type = 0x0800 ∧ be 14 1 / 16 = 4 ∧ be 23 1 = 17 ∧ be 30 4 = (s.rget (Reg.ethIpaddrAct n)).toNat
    ∧ be (16 + ihl) 2 = s.rf Reg.psCfg 31 16
  if !s.rb (Reg.ethCfgAct n) 31 then r.done
  else if crc32 body ≠ fcs then (r.count (Reg.ethCntCrc n) 31 0).done
  else if d.length < 64 ∨ s.ethMax n < d.length ∨ type = 0x8808 then
    ((r.count (Reg.ethCntRxdrop n) 31 0).flag (Reg.ethEvstat n) 5).done
  else if !decide mine then r.done
  else if type = s.rf Reg.psCfg 15 0 then
    (r.psFrameIn 2 n (fun e => e.peerMac == be 6 6) (body.drop 14)).done
  else if decide udp then
    (r.psFrameIn 1 n (fun e => e.peerIp == be 26 4) (body.drop (22 + ihl))).done
  else
    let q := if type = 0x8100 then
        let pcp := bits (be 14 2) 15 13
        s.rf (Reg.ethRxsteerAct n) (2 * pcp + 1) (2 * pcp)
      else 0
    (r.ethDeliver n q body (s.ethStamp n t false)).done

/-- PS_WATCHDOG_TIMEOUT: no datagram accepted for `wd_us` (R446). -/
def execPsWatchdogTimeout (i : Nat) (s : State) : Out :=
  let r := Run.start s
  let x := s.psess i
  (if x.state = 1 ∧ x.entry.role = 2 ∧ x.heardAt + usCyc x.entry.wdUs ≤ s.cyc then
    ((r.setPsess i { x with state := 2 }).psShow i).flag Reg.psEvstat 0
   else r).done

/-! ## Operations (R448), unit 6 -/

/-- START acts: the entry is read and admitted; a producer takes effect at its first take, a consumer at once. -/
def Run.actPsStart (r : Run s₀) (o : Op) : Run s₀ :=
  let i := o.obj
  if (r.s.psess i).state ≠ 0 then r.opFin o .refused 0 []
  else
    let (r, e) := r.psRead i
    match e with
    | none => r.opFin o .fault 0 []
    | some e => match r.s.psAdmit i e with
      | .ok =>
        let x : PsSess := { state := 1, entry := e, heardAt := r.s.cyc, startOp := if e.role = 1 then some o.id else none }
        let r := (r.setPsess i x).psShow i
        if e.role = 1 then r.opAct o else r.opFin o o.okSt 0 []
      | st => r.opFin o st 0 []

/-- STOP acts (R448). -/
def Run.actPsStop (r : Run s₀) (o : Op) : Run s₀ :=
  let i := o.obj
  let x := r.s.psess i
  if x.state = 0 then r.opFin o .empty 0 []
  else if x.entry.role = 1 then (r.setPsess i { x with stopping := true, stopOp := some o.id }).opAct o
  else ((r.setPsess i { x with state := 0 }).psShow i).opFin o o.okSt 0 []

/-- RELOAD acts (R448). -/
def Run.actPsReload (r : Run s₀) (o : Op) : Run s₀ :=
  let i := o.obj
  let x := r.s.psess i
  if x.state = 0 then r.opFin o .empty 0 []
  else if x.reload.isSome then r.opFin o .busy 0 []
  else
    let (r, e) := r.psRead i
    match e with
    | none => r.opFin o .fault 0 []
    | some e => match r.s.psAdmit i e with
      | .ok =>
        let x := r.s.psess i
        if x.entry.role = 1 then (r.setPsess i { x with reload := some e, reloadOp := some o.id }).opAct o
        else ((r.setPsess i { x with entry := e }).psShow i).opFin o o.okSt 0 []
      | st => r.opFin o st 0 []

/-- STATUS acts; the spec names the items of its 16 bytes and the model lays them out in their order (log 30). -/
def Run.actPsStatus (r : Run s₀) (o : Op) : Run s₀ :=
  let x := r.s.psess o.obj
  let seq := if x.entry.role = 1 then x.seq else x.lastSeq.getD 0
  r.opFin o o.okSt 0 (bytesLE 2 x.state ++ bytesLE 2 seq ++ bytesLE 4 x.epoch ++ bytesLE 2 x.accepted ++ bytesLE 2 x.gap
    ++ bytesLE 2 x.dup ++ bytesLE 2 x.txDrop)

def execPsStart (id : Nat) (s : State) : Out := ((Run.start s).opRow id 6 1 Run.actPsStart).done
def execPsStop (id : Nat) (s : State) : Out := ((Run.start s).opRow id 6 2 Run.actPsStop).done
def execPsReload (id : Nat) (s : State) : Out := ((Run.start s).opRow id 6 3 Run.actPsReload).done
def execPsStatus (id : Nat) (s : State) : Out := ((Run.start s).opRow id 6 4 Run.actPsStatus).done

end Sys2Proof.Machine
end

