-- ==== Sys2Proof/Machine/Red.lean ====
section
/-!
DEFINITION. Redundancy (14_redundancy.md): the group's configuration, state and health frames, the correction of shadow
contexts, yielding and takeover, role swaps, and the operations of unit 14.
-/
namespace Sys2Proof.Machine

variable {s₀ : State}

def State.redRun (s : State) (d : Nat) : RedRun := tget {} d s.red.runs
def Run.mapRed (r : Run s₀) (f : RedSt → RedSt) : Run s₀ := r.up (.red (f r.s.red))
def Run.setRedRun (r : Run s₀) (d : Nat) (x : RedRun) : Run s₀ := r.mapRed fun t => { t with runs := tset {} d x t.runs }
def State.redDuty (s : State) (d : Nat) : RedDuty := s.red.duties[d]?.getD {}

/-- The group runs; its kind is GROUP; members, own index, duties (R518). -/
def State.redOn (s : State) : Bool := s.rb Reg.redStat 31
def State.redGroup (s : State) : Bool := s.rb Reg.redCfgAct 30
def State.redMem (s : State) : Nat := s.rf Reg.redCfgAct 29 27 + 1
def State.redSelf (s : State) : Nat := s.rf Reg.redStat 26 24
def State.missMax (s : State) : Nat := s.rf Reg.redCfgAct 23 20
def State.redDuties (s : State) : List Nat := List.range s.red.duties.length

/-- The contexts of a duty, ascending. -/
def RedDuty.ctxs (d : RedDuty) : List Nat := (List.range 256).filter fun c => bit d.ctxMask c

/-- A member takes a role for a duty (R519). -/
def Run.redTo (r : Run s₀) (d role : Nat) : Run s₀ := r.wf Reg.redStat (3 * d + 2) (3 * d) role

/-- Epoch e2 is newer than e1 (R535). -/
def newerEpoch (e2 e1 : Nat) : Bool :=
  decide (1 ≤ (e2 + 2 ^ 32 - e1) % 2 ^ 32 ∧ (e2 + 2 ^ 32 - e1) % 2 ^ 32 ≤ 2 ^ 31 - 1)

/-- The highest epoch known for a duty rises. -/
def Run.epochKnown (r : Run s₀) (d e : Nat) : Run s₀ :=
  let k := (r.s.rget (Reg.redDEpoch d)).toNat
  if e != 0 && (k == 0 || newerEpoch e k) then r.wr (Reg.redDEpoch d) e else r

/-- The epoch of a member that takes over (R535). -/
def takeoverEpoch (eHi i : Nat) : Nat := ((eHi >>> 3 + 1) <<< 3 ||| i) % 2 ^ 32

/-- The RDSEL ball (R542). -/
def State.rdsel (s : State) : Bool :=
  !s.pwr.por && s.node != .boot && s.node != .load && s.node != .safeHold && s.redOn
    && s.redRole (s.rf Reg.redCfg2Act 23 20) == 4

/-! ## Health (R530 to R532) -/

/-- Diagnostic source i fails (R532). -/
def State.redDiagBit (s : State) (i : Nat) : Bool :=
  let mine := s.redDuties.filter fun d => s.redRole d == 3 || s.redRole d == 4
  match i with
  | 0 => s.node != .normal
  | 1 => mine.any fun d => (s.redDuty d).ctxs.any fun c => s.leState c == 3
  | 2 => s.red.memErr
  | 3 => s.rb Reg.timeEvstat 1
  | 4 => s.rb Reg.herdEvstat 14
  | 5 => s.red.duties.any fun d => d.sessions.any fun i =>
      (s.psess i).entry.transport != 0 && !s.rb (Reg.ethStat (s.psess i).entry.mac) 31
  | _ => false

/-- The sources in `diag_mask` that fail. -/
def State.redDiag (s : State) : Nat :=
  bitsOf ((List.range 6).map s.redDiagBit) &&& s.rf Reg.redDiagAct 5 0

/-- The own health word (R531). -/
def State.redHealth (s : State) : Nat :=
  let joined := bitsOf ((List.range 7).map fun d => s.redRole d == 3 || s.redRole d == 4)
  let div := bitsOf ((List.range 7).map fun d => (s.redRun d).divAt.isSome)
  2 ^ 31 + joined <<< 24 + div <<< 16 + s.redDiag

/-- A health word says healthy (R531). -/
def healthyWord (w : Nat) : Bool := bit w 31 && bits w 22 16 == 0 && bits w 5 0 == 0

/-- A member's health word; the own one is what it would send. -/
def State.healthOf (s : State) (m : Nat) : Nat :=
  if m = s.redSelf then s.redHealth else (s.rget (Reg.redHealth m)).toNat

/-- A health word is kept; a change sets `health_chg` (R530). -/
def Run.keepHealth (r : Run s₀) (m w : Nat) : Run s₀ :=
  if (r.s.rget (Reg.redHealth m)).toNat = w then r else (r.wr (Reg.redHealth m) w).flag Reg.redEvstat 7

/-- The member that was last ACTIVE for a duty: the index in the epoch followed. -/
def RedRun.lastActive (x : RedRun) : Option Nat := if x.ever then some (x.follow % 8) else none

/-- A member is eligible for duty d (R534). -/
def State.redEligible (s : State) (d m : Nat) : Bool :=
  let w := s.healthOf m
  let x := s.redRun d
  let stands := if m = s.redSelf then s.redRole d == 3 || (!x.ever && s.redRole d == 2)
    else (bit w (24 + d) && x.lastActive != some m) || !x.ever
  stands && healthyWord w

/-- The rank order of R534. -/
def State.redRank (s : State) (d m : Nat) : Nat := (m + s.redMem - (s.redDuty d).home % s.redMem) % s.redMem

/-- The position of this member among the eligible ones. -/
def State.redPos (s : State) (d : Nat) : Nat :=
  ((List.range s.redMem).filter fun m => s.redEligible d m && decide (s.redRank d m < s.redRank d s.redSelf)).length

/-- Another member could take the duty over. -/
def State.redCandidate (s : State) (d : Nat) : Bool :=
  (List.range s.redMem).any fun m => m != s.redSelf && bit (s.healthOf m) (24 + d) && healthyWord (s.healthOf m)

/-! ## State and health frames (R524 to R526, R530) -/

/-- A state entry (R525). -/
def redEntry (c : Nat) (x : RedSnap) : List Byte :=
  bytesBE 1 c ++ bytesBE 1 (x.st <<< 6 + x.bank <<< 5) ++ bytesBE 1 (uNat 8 x.ex) ++ bytesBE 1 x.hcount
    ++ bytesBE 4 x.lastRef ++ bytesBE 4 x.stamp ++ bytesBE 4 0
    ++ (x.x ++ x.z ++ x.u ++ x.h).flatMap fun v => bytesBE 4 (uNat 32 v)

/-- The frame of R524 before its entries. -/
def State.redHead (s : State) (flow kind d n epoch word cycle : Nat) : List Byte :=
  bytesBE 2 flow ++ bytesBE 2 (s.rf Reg.redCfgAct 15 0) ++ bytesBE 1 (kind <<< 4 + s.redSelf) ++ bytesBE 1 d
    ++ bytesBE 2 n ++ bytesBE 4 epoch ++ bytesBE 4 word ++ bytesBE 8 cycle

/-- The TS32 of the present cycle's boundary. -/
def State.cycStamp (s : State) : Nat := s.boundaryTb0 s.cycGrid % 2 ^ 32

/-- Entries are packed in order until the frame is full; a context whose sample has not finished is left for the next
frame (R526). Answers the bytes, how many, the last context sent and those left over. -/
def State.redPack (s : State) (per : Nat) : List Nat → List Byte × Nat × Option Nat × List Nat
    → List Byte × Nat × Option Nat × List Nat
  | [], acc => acc
  | c :: t, (b, n, last, left) =>
    match tget none c s.red.snaps with
    | none => s.redPack per t (b, n, last, left ++ [c])
    | some x =>
      if x.stamp ≠ s.cycStamp then s.redPack per t (b, n, last, left ++ [c])
      else
        let e := redEntry c x
        if per ≤ n ∨ 2048 < 24 + b.length + e.length then (b, n, last, left)
        else s.redPack per t (b ++ e, n + 1, some c, left)

/-- The order in which contexts are sent: those left over, then from the one after the last sent, wrapping. -/
def State.redOrder (s : State) (d : Nat) : List Nat :=
  let cs := (s.redDuty d).ctxs
  let x := s.redRun d
  let rest := (cs.filter fun c => decide (x.lastCtx < c)) ++ cs.filter fun c => decide (c ≤ x.lastCtx)
  x.first ++ rest.filter fun c => !x.first.contains c

/-- The first slot of a flow on any port has come within 1 µs, or the flow has no slot (R526). -/
def State.redTakeTime (s : State) (flow : Nat) : Bool :=
  let offs := (List.range 4).flatMap fun p => ((s.slots p).filter fun e => e.1 == flow).map fun e => e.2 * 50
  match offs with
  | [] => true
  | o :: l => decide (l.foldl min o ≤ s.cycPos + 10000)

/-- The kind of the next state frame: YIELD, SWAP, TAKEOVER or DELTA (R533, R536, R541). -/
def State.redKind (s : State) (d : Nat) : Nat :=
  let x := s.redRun d
  if x.yielding.isSome then 2 else if d = 0 ∧ s.red.swapAt.isSome then 3 else if x.takeover then 1 else 0

/-- The state frame of duty d is taken (R526). -/
def Run.redState (r : Run s₀) (d : Nat) : Run s₀ :=
  let x := r.s.redRun d
  let n := r.s.cycNo
  let flow := (r.s.redDuty d).flow
  if r.s.redRole d = 4 ∧ x.taken ≠ some n ∧ r.s.redTakeTime flow then
    let kind := r.s.redKind d
    let (b, k, last, left) := r.s.redPack (r.s.redDuty d).perFrame (r.s.redOrder d) ([], 0, none, [])
    let cycle := if kind = 3 then r.s.red.swapAt.getD 0 else n
    let r := r.setRedRun d { x with taken := some n, first := left, lastCtx := last.getD x.lastCtx, takeover := false }
    r.originate 1 0xFFFF 3 (r.s.redHead flow kind d k x.mine 0 cycle ++ b)
  else r

/-- The HEALTH frame is taken (R530). -/
def Run.redHealthFrame (r : Run s₀) : Run s₀ :=
  let n := r.s.cycNo
  let flow := r.s.rf Reg.redCfg2Act 11 0 + r.s.redSelf
  if r.s.redOn ∧ r.s.red.healthTaken ≠ some n ∧ r.s.redTakeTime flow then
    let r := r.mapRed fun t => { t with healthTaken := some n }
    let words := (List.range 7).flatMap fun d => bytesBE 4 (r.s.rget (Reg.redDEpoch d)).toNat
    r.originate 1 0xFFFF 3 (r.s.redHead flow 4 0 0 0 r.s.redHealth (r.s.red.swapAck.getD 0) ++ words)
  else r

/-- RED_STATE_TAKE: the state frame of a duty, or the HEALTH frame (`none`). -/
def execRedStateTake (d : Option Nat) (s : State) : Out :=
  let r := Run.start s
  match d with
  | some d => (if s.redOn && s.cycOn then r.redState d else r).done
  | none => (if s.cycOn then r.redHealthFrame else r).done

/-! ## Corrections (R527 to R529) -/

/-- A mantissa moved from exponent `e` to a larger or equal one (R230). -/
def toExp (e big v : Int) : Int := rneInt v (big - e).toNat

/-- x̂ corrected by (entry − snapshot): the new mantissas, their exponent, and the corrections. -/
def correctX (cur : List Int) (curE : Int) (ent : List Int) (entE : Int) (snap : List Int) (snapE : Int) :
    List Int × Int × List Int :=
  let e := max entE snapE
  let d := List.zipWith (fun a b => toExp entE e a - toExp snapE e b) ent snap
  let big := max e curE
  (List.zipWith (fun c k => sat32 (toExp curE big c + toExp e big k)) cur d, big, d)

/-- z, u or h corrected; their exponents are fixed. -/
def correctV (cur ent snap : List Int) : List Int × List Int :=
  let d := List.zipWith (· - ·) ent snap
  (List.zipWith (fun c k => sat32 (c + k)) cur d, d)

/-- One entry of an accepted frame, at the start of `b`; `hd` gives the sizes (R527). -/
def Run.redApply (r : Run s₀) (d c : Nat) (b : List Byte) : Run s₀ :=
  let be (o n : Nat) : Nat := ofBytesBE ((b.drop o).take n)
  let hd := r.s.leHd c
  let vec (o n : Nat) : List Int := (List.range n).map fun i => sInt 32 (be (16 + 4 * (o + i)) 4)
  match tget none c r.s.red.snaps with
  | none => r
  | some x =>
    if x.stamp ≠ be 8 4 then r
    else
      let ex := r.s.leHS c 98
      let (xv, e, dx) := correctX (r.s.leVec c 0x200 hd.n) ex (vec 0 hd.n) (sInt 8 (be 2 1)) x.x x.ex
      let (zv, dz) := correctV (r.s.leVec c 0x240 hd.q) (vec hd.n hd.q) x.z
      let (uv, du) := correctV (r.s.leVec c 0x260 hd.m) (vec (hd.n + hd.q) hd.m) x.u
      let (hv, dh) := correctV (r.s.leVec c 0x2A0 hd.m) (vec (hd.n + hd.q + hd.m) hd.m) x.h
      let r := (((r.leSetVec c 0x200 xv).leSetVec c 0x240 zv).leSetVec c 0x260 uv).leSetVec c 0x2A0 hv
      let r := (((r.leSet c 98 1 (uNat 8 e)).leSet c 96 1 (be 1 1 >>> 6)).leSet c 97 1 (bits (be 1 1) 5 5)).leSet c 99 1 (be 3 1)
      let last := r.s.now - (r.s.now + 2 ^ 32 - be 4 4) % 2 ^ 32
      let r := r.leRef c last
      let run := r.s.redRun d
      let r := r.setRedRun d { run with joined := putBits run.joined c c 1 }
      let lim : Nat := 2 ^ (r.s.rf Reg.redCfgAct 19 16 + 8)
      if (dx ++ dz ++ du ++ dh).any fun v => decide (lim < v.natAbs) then
        let r := (r.count Reg.redCnt 7 0).flag Reg.redEvstat 6
        r.setRedRun d { r.s.redRun d with divAt := some r.s.cyc }
      else r

/-- The entries of a frame in order; one of a context outside the duty ends the list. -/
def Run.redEntries (r : Run s₀) (d : Nat) : Nat → List Byte → Run s₀
  | 0, _ => r
  | n + 1, b =>
    let c := recNat b 0 1
    if !bit (r.s.redDuty d).ctxMask c then r
    else
      let hd := r.s.leHd c
      let len := 16 + 4 * (hd.n + hd.q + 2 * hd.m)
      if b.length < len then r else (r.redApply d c b).redEntries d n (b.drop len)

/-- A JOINING member becomes STANDBY once every context of the duty has been corrected (R528). -/
def Run.redJoin (r : Run s₀) (d : Nat) : Run s₀ :=
  if r.s.redRole d = 2 ∧ (r.s.redDuty d).ctxs.all (fun c => bit (r.s.redRun d).joined c) then r.redTo d 3 else r

/-! ## Frames received (R524, R527, R530, R534, R537, R540, R541) -/

/-- A YIELD operation ends once the takeover by another member has been accepted (R543). -/
def Run.yieldDone (r : Run s₀) (d : Nat) : Run s₀ :=
  let x := r.s.redRun d
  let r := r.each x.yieldOps fun r id => r.opFinId id .ok 0 []
  r.setRedRun d { r.s.redRun d with yieldOps := [] }

/-- A HEALTH frame of member m. -/
def Run.redHealthIn (r : Run s₀) (m : Nat) (p : List Byte) : Run s₀ :=
  let be (o n : Nat) : Nat := ofBytesBE ((p.drop o).take n)
  let r := r.mapRed fun t => { t with healthAt := tset none m (some r.s.cycNo) t.healthAt }
  let r := r.keepHealth m (be 12 4 ||| 2 ^ 31)
  let r := r.each r.s.redDuties fun r d =>
    let e := be (24 + 4 * d) 4
    let r := r.epochKnown d e
    let x := r.s.redRun d
    if r.s.redRole d = 4 ∧ e ≠ 0 ∧ newerEpoch e x.mine then r.setRedRun d { x with superseded := true } else r
  if r.s.red.swapAt.isSome ∧ r.s.red.swapAt = some (be 16 8) then r.mapRed fun t => { t with acked := true } else r

/-- A state frame of duty d with epoch e is accepted when e is not older than the epoch followed. -/
def Run.redStateIn (r : Run s₀) (d kind e : Nat) (p : List Byte) : Run s₀ :=
  let be (o n : Nat) : Nat := ofBytesBE ((p.drop o).take n)
  let x := r.s.redRun d
  let role := r.s.redRole d
  if role = 4 then
    if newerEpoch e x.mine then
      let r := (r.setRedRun d { x with superseded := true, follow := e, heard := true }).epochKnown d e
      r.yieldDone d
    else r
  else
    let newer := !x.ever || newerEpoch e x.follow
    if !(newer || e == x.follow) then r
    else
      let r := r.epochKnown d e
      let r := r.setRedRun d { x with
        follow := e, ever := true, heard := true, misses := if newer then 0 else x.misses
        yieldAt := if kind = 2 then some (be 16 8) else if newer then none else x.yieldAt }
      let r := if role = 1 then r.redTo d 2 else r
      let r := r.yieldDone d
      let r := (r.redEntries d (be 6 2) (p.drop 24)).redJoin d
      if kind = 3 ∧ d = 0 ∧ !r.s.redGroup ∧ r.s.redRole d = 3 ∧ healthyWord r.s.redHealth then
        r.mapRed fun t => { t with swapAck := some (be 16 8) }
      else r

/-- A frame on the flow of a duty or of a member's health; the payload begins with the flow. -/
def Run.redFrame (r : Run s₀) (src : Nat) (p : List Byte) : Run s₀ :=
  let be (o n : Nat) : Nat := ofBytesBE ((p.drop o).take n)
  let flow := bits (be 0 2) 11 0
  let kind := be 4 1 >>> 4
  let m := be 4 1 % 8
  let d := be 5 1
  if !r.s.redOn || be 2 2 != r.s.rf Reg.redCfgAct 15 0 || decide (r.s.redMem ≤ m) || m == r.s.redSelf
      || r.s.rf (Reg.redMemberAct m) 15 0 != src || decide (p.length < 24) then r
  else if kind = 4 then
    if flow = r.s.rf Reg.redCfg2Act 11 0 + m ∧ 52 ≤ p.length then r.redHealthIn m p else r
  else if kind < 4 ∧ d < r.s.red.duties.length ∧ flow = (r.s.redDuty d).flow then r.redStateIn d kind (be 8 4) p
  else r

/-- RED_FRAME_RECEIVE: a state or health frame from node `src`. -/
def execRedFrameReceive (src : Nat) (p : List Byte) (s : State) : Out := ((Run.start s).redFrame src p).done

/-- An ISO frame belongs to the group's flows. -/
def State.redFlow (s : State) (flow : Nat) : Bool :=
  s.redOn && (s.red.duties.any (fun d => d.flow == flow) ||
    decide (s.rf Reg.redCfg2Act 11 0 ≤ flow ∧ flow < s.rf Reg.redCfg2Act 11 0 + s.redMem))

/-! ## Cycle boundaries (R533 to R537, R540, R541) -/

/-- A member becomes ACTIVE with an epoch (R536). -/
def Run.redActive (r : Run s₀) (d e : Nat) : Run s₀ :=
  let r := (r.redTo d 4).epochKnown d e
  let r := r.setRedRun d { r.s.redRun d with
    mine := e, follow := e, ever := true, misses := 0, yieldAt := none, yieldReq := false, yielding := none
    superseded := false, takeover := true }
  (r.mapRed fun t => { t with roleAt := r.s.cyc, retryAt := none }).flag Reg.redEvstat 0

/-- An ACTIVE member becomes STANDBY (R533, R537, R541). -/
def Run.redStandby (r : Run s₀) (d : Nat) : Run s₀ :=
  let r := r.redTo d 3
  let r := r.setRedRun d { r.s.redRun d with
    misses := 0, yieldAt := none, yieldReq := false, yielding := none, superseded := false, takeover := false }
  r.mapRed fun t => { t with roleAt := r.s.cyc, retryAt := none }

/-- The operations that wait for a swap end. -/
def Run.swapEnd (r : Run s₀) (st : Status) (cause : Nat) : Run s₀ :=
  let l := r.s.red.swapOps
  (r.mapRed fun t => { t with swapAt := none, acked := false, swapOps := [] }).each l fun r id => r.opFinId id st cause []

/-- The end of LISTEN (R540). -/
def Run.redListen (r : Run s₀) : Run s₀ :=
  if r.s.red.listen = 0 then r
  else
    let r := r.mapRed fun t => { t with listen := t.listen - 1 }
    if r.s.red.listen ≠ 0 then r
    else r.each (r.s.redDuties.filter fun d => r.s.redRole d == 1) fun r d =>
      if (r.s.redDuty d).home = r.s.redSelf then r.redActive d (8 + r.s.redSelf) else r.redTo d 2

/-- A JOINING or STANDBY member at boundary n: counting, and taking over (R534). -/
def Run.redCount (r : Run s₀) (d n : Nat) : Run s₀ :=
  let x := r.s.redRun d
  if !r.s.redEligible d r.s.redSelf then r.setRedRun d { x with heard := false, misses := 0 }
  else
    let misses := if x.heard then 0 else x.misses + 1
    let r := r.setRedRun d { x with heard := false, misses := misses }
    let r := if misses = 1 then (r.flag Reg.redEvstat 3).count Reg.redCnt 15 8 else r
    let p := r.s.redPos d
    let yielded : Bool := match x.yieldAt with | some b => decide (b + 1 + p ≤ n) | none => false
    if r.s.missMax + p ≤ misses ∨ yielded then
      r.redActive d (takeoverEpoch (r.s.rget (Reg.redDEpoch d)).toNat r.s.redSelf)
    else r

/-- An ACTIVE member at boundary n: superseded, the end of a yield, or the start of one (R533, R537). -/
def Run.redHolds (r : Run s₀) (d n : Nat) : Run s₀ :=
  let x := r.s.redRun d
  if x.superseded then
    let r := r.redStandby d
    (r.setRedRun d { r.s.redRun d with follow := (r.s.rget (Reg.redDEpoch d)).toNat }).flag Reg.redEvstat 2
  else match x.yielding with
    | some b => if b < n then (r.redStandby d).flag Reg.redEvstat 1 else r
    | none =>
      if r.s.redDiag ≠ 0 ∨ x.yieldReq then
        if r.s.redCandidate d then r.setRedRun d { x with yielding := some n }
        else if r.s.redDiag ≠ 0 then r.flag Reg.redEvstat 4 else r
      else r

/-- A swap at boundary n: its boundary, or its cancellation (R541). -/
def Run.redSwapAt (r : Run s₀) (n : Nat) : Run s₀ :=
  match r.s.red.swapAt with
  | none => r
  | some c =>
    if c ≤ n then (if r.s.redRole 0 = 4 then (r.redStandby 0).swapEnd .ok 0 else r.swapEnd .aborted 0x04)
    else if c = n + 1 ∧ !r.s.red.acked then
      let r := (r.flag Reg.redEvstat 8).swapEnd .aborted 0x04
      r.mapRed fun t => { t with retryAt := some (r.s.cyc + 3600 * 800000000) }
    else r

/-- A STANDBY that has acknowledged a swap takes over at its boundary (R541). -/
def Run.redSwapTake (r : Run s₀) (n : Nat) : Run s₀ :=
  match r.s.red.swapAck with
  | none => r
  | some c =>
    if n < c then r
    else
      let r := r.mapRed fun t => { t with swapAck := none }
      if c = n ∧ r.s.redRole 0 = 3 then
        r.redActive 0 (takeoverEpoch (r.s.rget (Reg.redDEpoch 0)).toNat r.s.redSelf)
      else r

/-- The group at a cycle boundary. A member counts the cycles in which it was JOINING or STANDBY. -/
def Run.redCycle (r : Run s₀) : Run s₀ :=
  if !r.s.redOn then r.mapRed fun t => { t with memErr := false }
  else
    let n := r.s.cycNo
    let r := r.each ((List.range r.s.redMem).filter (· != r.s.redSelf)) fun r m =>
      let fresh : Bool := match tget none m r.s.red.healthAt with | some k => decide (n ≤ k + r.s.missMax) | none => false
      if fresh then r else r.keepHealth m ((r.s.rget (Reg.redHealth m)).toNat % 2 ^ 31)
    let was := r.s
    let r := (r.redListen.redSwapAt n).redSwapTake n
    let r := r.each r.s.redDuties fun r d =>
      let role := r.s.redRole d
      if role = 4 then r.redHolds d n
      else if was.redRole d = 2 ∨ was.redRole d = 3 then r.redCount d n
      else r.setRedRun d { r.s.redRun d with heard := false }
    r.mapRed fun t => { t with memErr := false }

/-- DIVERGE_MASK_EXPIRY: 1 s after the newest divergence of a duty (R529). -/
def execDivergeMaskExpiry (d : Nat) (s : State) : Out :=
  let r := Run.start s
  match (s.redRun d).divAt with
  | some t => (if t + 800000000 ≤ s.cyc then r.setRedRun d { s.redRun d with divAt := none } else r).done
  | none => r.done

/-- A swap starts at once: c = the present cycle + 8 (R541). -/
def Run.redSwapStart (r : Run s₀) : Run s₀ :=
  if r.s.red.swapAt.isSome then r
  else r.mapRed fun t => { t with swapAt := some (r.s.cycNo + 8), acked := false }

/-- RED_SWAP_TIMER: `swap_h` hours after its last change of role the active member of a pair starts a swap. -/
def execRedSwapTimer (s : State) : Out :=
  let r := Run.start s
  let h := s.rf Reg.redCfg2Act 31 24
  (if s.redOn && !s.redGroup && s.redRole 0 == 4 && h != 0 && s.red.retryAt.isNone
      && decide (s.red.roleAt + h * 3600 * 800000000 ≤ s.cyc) then
    r.redSwapStart else r).done

/-! ## Configuration (R520, R521) -/

/-- The duty table entry at offset 64·d of the table. -/
def dutyOf (t : List Byte) (d : Nat) (sessions : List Nat) : RedDuty :=
  let g (off n : Nat) : Nat := recNat t (64 * d + off) n
  { home := g 0 1, axShadow := bit (g 1 1) 0, flow := g 2 2, perFrame := g 4 1, sessions := sessions, ctxMask := g 32 32 }

/-- The duty table as the shadow registers name it: none when a part of it cannot be read. -/
def State.readDuties (s : State) (n : Nat) : Option (List Byte × List RedDuty) :=
  let base := s.rget64 Reg.redDutyBaseLo Reg.redDutyBaseHi
  let good (a k : Nat) : Bool := k == 0 || (s.memStatus 15 a k false == .ok &&
    !((s.eccIn a k).any fun e => e.2 == .double))
  if !good base (64 * n) then none
  else
    let t := s.bytes base (64 * n)
    let list (d : Nat) : Nat × Nat := (recNat t (64 * d + 8) 5, recNat t (64 * d + 6) 2)
    if (List.range n).all fun d => good (list d).1 (2 * (list d).2) then
      some (t, (List.range n).map fun d =>
        let b := s.bytes (list d).1 (2 * (list d).2)
        dutyOf t d ((List.range (list d).2).map fun k => recNat b (2 * k) 2))
    else none

/-- The reads of the duty table and its session lists meet the errors that their words hold (R28). -/
def Run.redReads (r : Run s₀) : Run s₀ :=
  if !r.s.rb Reg.redCfg 31 then r
  else
    let n := r.s.rf Reg.redCfg 26 24
    let base := r.s.rget64 Reg.redDutyBaseLo Reg.redDutyBaseHi
    let read (r : Run s₀) (a k : Nat) : Run s₀ :=
      if k == 0 || r.s.memStatus 15 a k false != .ok then r else (r.eccRead a k).1
    let r := read r base (64 * n)
    r.each (List.range n) fun r d =>
      let t := r.s.bytes (base + 64 * d) 64
      read r (recNat t 8 5) (2 * recNat t 6 2)

/-- A duty entry has its reserved bytes 0 and its counts in range (R521). -/
def dutyBytesOk (t : List Byte) (d : Nat) : Bool :=
  let g (off n : Nat) : Nat := recNat t (64 * d + off) n
  g 1 1 < 2 && g 2 2 < 4096 && decide (1 ≤ g 4 1 ∧ g 4 1 ≤ 64) && g 5 1 == 0 && decide (g 6 2 ≤ 128)
    && g 13 3 == 0 && g 16 16 == 0

/-- No element twice. -/
def noTwiceNat : List Nat → Bool
  | [] => true
  | a :: t => !t.contains a && noTwiceNat t

/-- Every boundary of the isochronous cycle is a boundary of grid g, which runs on TB0 (R520). -/
def State.gridUnderCycle (s : State) (g : Nat) : Bool :=
  let c := s.cycGrid
  s.gridBase g == 0 && s.gridEn g && s.gridP c % max 1 (s.gridP g) == 0
    && s.gridPhi c % max 1 (s.gridP g) == s.gridPhi g % max 1 (s.gridP g)

/-- The consistency check of group GRP (R520). The checks of members and duties apply to a group that is to run. -/
def State.redCheck (s : State) : Bool :=
  let en := s.rb Reg.redCfg 31
  let nm := s.rf Reg.redCfg 29 27 + 1
  let nd := s.rf Reg.redCfg 26 24
  let members := (List.range nm).map fun m => s.rf (Reg.redMember m) 15 0
  let sizes := if s.rb Reg.redCfg 30 then decide (3 ≤ nm ∧ 1 ≤ nd ∧ nd ≤ nm - 1) else nm == 2 && nd == 1
  if !en then true
  else if s.redOn || !s.cycOn || !sizes || !members.contains s.nodeId || !noTwiceNat members then false
  else match s.readDuties nd with
    | none => false
    | some (t, ds) =>
      let ctxs := ds.flatMap RedDuty.ctxs
      let hflow := s.rf Reg.redCfg2 11 0
      (List.range nd).all (dutyBytesOk t) && noTwiceNat ctxs
        && ctxs.all (fun c => (s.leState c == 1 || s.leState c == 2) && s.gridUnderCycle (s.leHd c).grid)
        && ds.all (fun d => decide (d.home < nm) && d.sessions.all fun i =>
            (s.psess i).state != 0 && (s.psess i).entry.role == 1 && (s.psess i).entry.redEn)
        && noTwiceNat (ds.map (·.flow) ++ (List.range nm).map fun m => (hflow + m) % 4096)

/-- The group has come into use (R520, R540): LISTEN for every duty, or everything OFF. -/
def Run.redApplied (r : Run s₀) : Run s₀ :=
  let r := r.swapEnd .aborted 0x04
  let r := r.each (r.s.redDuties) fun r d => r.each (r.s.redRun d).yieldOps fun r id => r.opFinId id .aborted 0x04 []
  let r := (r.wr Reg.redStat 0).mapRed fun t => { memErr := t.memErr }
  if !r.s.rb Reg.redCfgAct 31 then r
  else
    let nd := r.s.rf Reg.redCfgAct 26 24
    let nm := r.s.rf Reg.redCfgAct 29 27 + 1
    let self := ((List.range nm).find? fun m => r.s.rf (Reg.redMemberAct m) 15 0 == r.s.nodeId).getD 0
    let ds := (r.s.readDuties nd).map (·.2) |>.getD []
    let r := ((r.wb Reg.redStat 31 true).wf Reg.redStat 26 24 self).mapRed fun t => { t with
      duties := ds, listen := r.s.missMax + nm, roleAt := r.s.cyc, retryAt := none }
    let r := r.each (List.range 7) fun r d => r.wr (Reg.redDEpoch d) 0
    let r := r.each (List.range 8) fun r m => r.wr (Reg.redHealth m) 0
    r.each (List.range nd) fun r d => r.redTo d 1

/-! ## Operations of unit 14 (R543) -/

/-- A refusal of class 0x10 sets `cfgerr`. -/
def Run.redRefuse (r : Run s₀) (o : Op) (cause : Nat) : Run s₀ := (r.flag Reg.redEvstat 9).opFin o .refused cause []

/-- YIELD. -/
def Run.actRedYield (r : Run s₀) (o : Op) : Run s₀ :=
  let d := o.obj
  let x := r.s.redRun d
  if !r.s.redOn || r.s.redRole d != 4 || decide (r.s.red.duties.length ≤ d) then r.redRefuse o 0
  else if !r.s.redCandidate d then r.redRefuse o 0x10
  else (r.setRedRun d { x with yieldReq := true, yieldOps := x.yieldOps ++ [o.id] }).opAct o

/-- SWAP. -/
def Run.actRedSwap (r : Run s₀) (o : Op) : Run s₀ :=
  if !r.s.redOn || r.s.redGroup || r.s.redRole 0 != 4 then r.redRefuse o 0
  else (r.redSwapStart.mapRed fun t => { t with swapOps := t.swapOps ++ [o.id] }).opAct o

/-- STATUS: 17 words. -/
def Run.actRedStatus (r : Run s₀) (o : Op) : Run s₀ :=
  let a := [Reg.redStat] ++ (List.range 7).map Reg.redDEpoch ++ (List.range 8).map Reg.redHealth ++ [Reg.redCnt]
  r.opFin o o.okSt 0 (wordsLE (a.map fun x => (r.s.rget x).toNat))

def execRedYield (id : Nat) (s : State) : Out := ((Run.start s).opRow id 14 2 Run.actRedYield).done
def execRedSwap (id : Nat) (s : State) : Out := ((Run.start s).opRow id 14 3 Run.actRedSwap).done
def execRedStatus (id : Nat) (s : State) : Out := ((Run.start s).opRow id 14 4 Run.actRedStatus).done

/-- `hcan` takes back a YIELD whose frame has not been due; a SWAP that has started runs on (R159). -/
def Run.redCancel (r : Run s₀) (o : Op) : Run s₀ :=
  let x := r.s.redRun o.obj
  if x.yielding.isSome then r
  else (r.setRedRun o.obj { x with yieldReq := false, yieldOps := x.yieldOps.filter (· != o.id) }).opFin o .aborted 0x01 []

end Sys2Proof.Machine
end

