-- ==== Sys2Proof/Machine/OpLife.lean ====
section
/-!
DEFINITION. The life of an operation outside its unit's action (04_operations.md, R151 to R163): acceptance with the
checks of R152, completion with results and record (R153, R157, R158), and cancel requests (R159).
-/
namespace Sys2Proof.Machine

variable {s₀ : State}

/-- The unit defines the code (R152 step 4). -/
def codeOk (unit code : Nat) : Bool :=
  decide (1 ≤ code) && match unit with
    | 0 => decide (code ≤ 8) | 1 => decide (code ≤ 5) | 2 => decide (code ≤ 9) || code == 0x10 || code == 0x11
    | 3 => decide (code ≤ 7) | 4 => decide (code ≤ 7) | 5 => decide (code ≤ 4) | 6 => decide (code ≤ 4)
    | 7 => decide (code ≤ 3) | 8 => decide (code ≤ 6) | 9 => decide (code ≤ 5) | 10 => decide (code ≤ 2)
    | 11 => decide (code ≤ 4) | 12 => decide (code ≤ 15) | 13 => decide (code ≤ 4) | 14 => decide (code ≤ 4)
    | _ => false

/-- The object lies in the range that the unit defines for the code (R152 step 5). -/
def objOk (unit code obj : Nat) : Bool :=
  match unit with
  | 0 => decide (obj < if code = 7 ∨ code = 8 then 64 else 256)
  | 1 => decide (obj < 48)
  | 2 => decide (obj < 48 ∨ (64 ≤ obj ∧ obj < 80) ∨ (128 ≤ obj ∧ obj < 192))
  | 3 => code == 3 || code == 4 || decide (obj ≤ 0x3FFFF)
  | 4 => decide (obj < 16) || (code == 1 && decide (64 ≤ obj ∧ obj < 128))
  | 5 => if code = 1 then decide (obj < 5) else if code = 3 then decide (obj < 4) else if code = 4 then obj == 0 else true
  | 6 => decide (obj < 2048)
  | 7 => decide (obj < 8)
  | 8 => decide (obj < 12)
  | 9 => if code = 1 ∨ code = 5 then decide (obj < 4) else decide (obj / 128 < 4 ∧ obj % 128 < 100)
  | 10 => decide (obj < 2)
  | 11 => if code = 1 ∨ code = 4 then obj == 0 else decide (obj < 16)
  | 12 => obj == 0
  | 13 => if code = 2 then decide (obj < 8) else if code = 3 then decide (obj < 25) else if code = 4 then decide (obj < 16) else true
  | 14 => if code = 2 then decide (obj < 7) else obj == 0
  | _ => false

/-- The code is defined for the kind of object: axes and slots of the MOT unit take different codes (08_motion.md). -/
def kindOk (unit code obj : Nat) : Bool :=
  unit != 2 || code == 1 || if code ≤ 9 then decide (obj < 48) else decide (64 ≤ obj ∧ obj < 80)

/-- Payload bytes that a code uses whatever they hold. -/
def payBase (unit code : Nat) : Nat :=
  match unit, code with
  | 0, 3 => 1 | 0, 7 => 1
  | 1, 1 => 1 | 1, 2 => 1 | 1, 4 => 8
  | 2, 2 => 16 | 2, 3 => 1 | 2, 5 => 8 | 2, 7 => 40 | 2, 8 => 8 | 2, 0x10 => 56 | 2, 0x11 => 8
  | 3, 1 => 28 | 3, 3 => 12 | 3, 4 => 4 | 3, 5 => 6 | 3, 6 => 8
  | 4, 3 => 4 | 4, 5 => 4
  | 5, 1 => 16 | 5, 2 => 16
  | 7, 1 => 21 | 7, 2 => 21 | 7, 3 => 11
  | 8, 3 => 8 | 8, 5 => 6
  | 9, 2 => 1
  | 10, 1 => 1
  | 11, 1 => 4 | 11, 2 => 24
  | 12, 3 => 6 | 12, 4 => 40 | 12, 6 => 836 | 12, 8 => 2056 | 12, 9 => 17 | 12, 10 => 1 | 12, 11 => 20 | 12, 12 => 4
  | 12, 13 => 1 | 12, 14 => 40 | 12, 15 => 1
  | 13, 2 => 16
  | _, _ => 0

/-- Payload bytes used, given those (R152 step 7): counts and flags carried in the payload name the rest. -/
def payLen (unit code : Nat) (d : List Byte) : Nat :=
  let base := payBase unit code
  let n := recNat d 2 2
  match unit, code with
  | 3, 3 => if recNat d 10 2 = 0 ∨ 256 < recNat d 10 2 then base else 16 + 4 * recNat d 10 2
  | 3, 4 => if n = 0 ∨ 256 < n then base else 16 + 12 * n
  | 4, 3 => if n = 0 ∨ 64 < n then base else 16 + 2 * n
  | 4, 5 => if n = 0 ∨ 64 < n then base else 16 + 2 * n
  | 5, 2 => match recNat d 0 1 with
    | 2 => if n ≤ 2032 then 16 + n else base
    | 3 => if n ≤ 64 then 16 + 4 * n else base
    | 4 => if n ≤ 64 then 16 + 12 * n else base
    | _ => base
  | 9, 2 => if bit (recNat d 0 1) 0 then 96 else base
  | _, _ => base

/-- The Mesh port of the processor that issued an operation; a channel of the DMA engine reads through its own (R567). -/
def Op.port (o : Op) : Nat := if o.tid < 64 then o.tid / 32 else 13

/-- A read by a unit on behalf of an operation, one request for each aligned 256-byte block (R656). -/
def Run.blockRead (r : Run s₀) (port a n : Nat) : Run s₀ × Bool × List Byte :=
  (List.range (if n = 0 then 0 else (a + n - 1) / 256 - a / 256 + 1)).foldl
    (fun (acc : Run s₀ × Bool × List Byte) i =>
      let (r, ok, d) := acc
      if !ok then acc
      else
        let lo := if i = 0 then a else (a / 256 + i) * 256
        let hi := min (a + n) ((a / 256 + i + 1) * 256)
        match r.memRead port lo (hi - lo) with
        | (r, .ok, x) => (r, true, d ++ x)
        | (r, _, _) => (r, false, d)) (r, true, [])

/-- A write likewise. -/
def Run.blockWrite (r : Run s₀) (port a : Nat) (d : List Byte) : Run s₀ × Bool :=
  let n := d.length
  (List.range (if n = 0 then 0 else (a + n - 1) / 256 - a / 256 + 1)).foldl
    (fun (acc : Run s₀ × Bool) i =>
      let (r, ok) := acc
      let lo := if i = 0 then a else (a / 256 + i) * 256
      let hi := min (a + n) ((a / 256 + i + 1) * 256)
      match r.memWrite port lo ((d.drop (lo - a)).take (hi - lo)) with
      | (r, .ok) => (r, ok)
      | (r, _) => (r, false)) (r, true)

/-- A refusal in the checks of R152, with what the unit's chapter adds to a refusal. -/
def Run.opRefuse (r : Run s₀) (o : Op) (st : Status) (cause : Nat) : Run s₀ :=
  let r := r.opSet o
  if !st.isRefusal || st == .nosuch then r.opFin o st cause []
  else match o.unit with
    | 0 => r.leFin o st cause
    | 2 => if o.obj < 48 then r.motFin o st cause r.s.now else r.vmFin o st cause []
    | 4 => r.captRefuse o st cause 0
    | 8 => r.adcFin o st cause r.s.now []
    | 11 => r.chmRefuse o st
    | 12 => r.bhrFin (.op o.id) st cause []
    | 14 => (r.flag Reg.redEvstat 9).opFin o st cause []
    | _ => r.opFin o st cause []

/-- The checks of R152 on a header (steps 3 to 6): the first that fails. -/
def headCheck (o : Op) (h : List Byte) : Option Status :=
  let res := recNat h 8 8
  let rec' := recNat h 24 8
  if 4 ≤ recNat h 1 1 ∨ recNat h 2 2 ≠ 0 ∨ recNat h 20 4 ≠ 0 then some .cfgerr
  else if !codeOk o.unit o.code then some .cfgerr
  else if !objOk o.unit o.code o.obj then some .nosuch
  else if !kindOk o.unit o.code o.obj then some .cfgerr
  else if rec' % 16 ≠ 0 ∨ res % 8 ≠ 0 ∨ (res ≠ 0 ∧ recNat h 16 4 = 0) ∨ 2 ^ 40 ≤ res ∨ 2 ^ 40 ≤ rec' then some .cfgerr
  else none

/-- The thread that has issued an operation goes on two cycles after its descriptor has been read (R124, R139). -/
def Run.opIssued (r : Run s₀) (o : Op) : Run s₀ :=
  if o.tid < 64 ∧ !o.orphan then
    let x := r.s.thread o.tid
    r.setThread o.tid { x with readyAt := max x.readyAt (r.s.cyc + 2) }
  else r

/-- The checks of a unit's chapter that the descriptor alone decides (R152 step 8), which a timed operation already fails
when it is accepted; checks on the state of the object come with the action. A BOUNDARY on a grid that issues none is
refused at once (R85). -/
def State.opForm (s : State) (o : Op) : Option (Status × Nat) :=
  let d := o.payload
  let fail (c : Bool) (st : Status) (cause : Nat) : Option (Status × Nat) := if c then some (st, cause) else none
  let cfg (c : Bool) := fail c .cfgerr 0
  let count (n top : Nat) := (cfg (decide (top < n))).or (fail (n == 0) .empty 0)
  match o.unit, o.code with
  | 0, 7 => cfg (decide (1 < recNat d 0 1))
  | 3, 3 => (cfg (decide (3 < recNat d 8 1))).or (count (recNat d 10 2) 256)
  | 3, 4 => count (recNat d 2 2) 256
  | 3, 5 => cfg (!s.routeFits (bit (recNat d 0 1) 0) (recNat d 2 2) (recNat d 4 2))
  | 3, 6 => cfg (decide (3 < recNat d 0 1))
  | 4, 3 => cfg (decide (64 < recNat d 2 2))
  | 4, 5 => cfg (decide (64 < recNat d 2 2))
  | 5, 2 =>
    let kind := recNat d 0 1 % 16
    (fail (decide (o.obj = 0 ∨ 0xFFFF ≤ o.obj)) .nosuch 0).or ((cfg (bit (recNat d 0 1) 7 || decide (kind < 1 ∨ 4 < kind)
      || decide (kind ≤ 2 ∧ 2032 < recNat d 2 2) || decide (3 ≤ kind ∧ 64 < recNat d 2 2))).or
        (fail (recNat d 2 2 == 0) .empty 0))
  | 7, 3 => (cfg (recNat d 10 1 % 4 == 3)).or (count (recNat d 8 2) 256)
  | 7, c => (cfg (recNat d 20 1 % 4 == 3)).or ((s.dmaChecks [(if c = 2 then 2 else 1, dmaMove (c == 2) d)]).map fun st => (st, 0))
  | 8, 3 => (cfg (decide (7 < recNat d 0 1))).or (fail (bit (recNat d 2 1) 0 && decide (0x3FFFF < recNat d 4 4)) .nosuch 0)
  | 12, 3 => (fail (decide (64 < recNat d 4 2)) .cfgerr 0x10).or (fail (recNat d 4 2 == 0) .empty 0)
  | 12, 4 => cfg (decide (recNat d 0 2 < 0x100 ∨ 0x1FF < recNat d 0 2))
  | 12, 10 => cfg (decide (1 < recNat d 0 1))
  | 12, 13 => cfg (decide (64 < recNat d 0 1))
  | 12, 14 => cfg (decide (recNat d 0 1 < 4 ∨ 7 < recNat d 0 1))
  | 13, 2 =>
    let m := recNat d 0 1
    cfg (decide (3 ≤ m ∨ (m = 1 ∧ (recNat d 2 2 < 1 ∨ 500 < recNat d 2 2))
      ∨ (m = 2 ∧ o.obj ≤ 2 ∧ 999999999 < recNat d 4 4 % 2 ^ 30)))
  | 13, 4 => fail (!(s.grid o.obj).running) .refused 0
  | _, _ => none

/-- A unit accepts an operation: it reads header and payload and checks them (R152, R170). DMA in a warm restart is in reset
(R160, R182). -/
def Run.opAccept (r : Run s₀) (o : Op) : Run s₀ :=
  let o := { o with
    accepted := true, late := match o.time with | some t => decide (t ≤ r.s.now) | none => false
    acc := r.s.sp.nextAcc, accAt := r.s.now }
  let r := (r.mapSp fun p => { p with nextAcc := p.nextAcc + 1 }).opIssued o
  if o.unit = 7 ∧ r.s.sp.restart.isSome then r.opRefuse o .aborted 3
  else if o.rdesc % 8 ≠ 0 then r.opRefuse o .cfgerr 0
  else if 2 ^ 40 ≤ o.rdesc then r.opRefuse o .fault 5
  else match r.blockRead o.port o.rdesc 32 with
    | (r, false, _) => r.opRefuse o .fault 5
    | (r, true, h) =>
      let rec' := recNat h 24 8
      let o := { o with code := recNat h 0 1, flags := recNat h 1 1 % 4, tag := recNat h 4 4, resAddr := recNat h 8 8,
                        resLen := recNat h 16 4, recAddr := if rec' % 16 = 0 ∧ rec' < 2 ^ 40 then rec' else 0 }
      match headCheck o h with
      | some st => r.opRefuse o st 0
      | none =>
        match r.blockRead o.port (o.rdesc + 32) (payBase o.unit o.code) with
        | (r, false, _) => r.opRefuse o .fault 5
        | (r, true, d) =>
          match r.blockRead o.port (o.rdesc + 32 + d.length) (payLen o.unit o.code d - d.length) with
          | (r, false, _) => r.opRefuse o .fault 5
          | (r, true, e) =>
            let o := { o with payload := d ++ e }
            match (if o.time.isSome then r.s.opForm o else none) with
            | some (st, cause) => r.opRefuse o st cause
            | none => r.opSet o

/-- OP_ACCEPT: a unit accepts the operation of number `id`; those of one processor in issue order (R163, R656). -/
def execOpAccept (id : Nat) (s : State) : Out :=
  let r := Run.start s
  match s.op id with
  | none => r.done
  | some o =>
    if o.accepted || o.out.isSome || s.sp.ops.any (fun x => decide (x.id < id) && x.unit == o.unit && x.tid / 8 == o.tid / 8
        && !x.accepted && x.out.isNone) then r.done
    else (r.opAccept o).done

/-! ## Completion (R153, R157, R158) -/

/-- The results go to the result area; too long, they are cut, and a refused write loses them (R153). -/
def Run.opResults (r : Run s₀) (o : Op) (c : OpRec) : Run s₀ × OpRec :=
  if o.results.isEmpty then (r, c)
  else
    let d := if o.resAddr = 0 then o.results else o.results.take o.resLen
    match r.blockWrite o.port (if o.resAddr = 0 then o.rdesc + 32 else o.resAddr) d with
    | (r, false) => (r, { c with status := .lost, cause := 6 })
    | (r, true) => (r, if d.length < o.results.length ∧ c.status = .ok then { c with status := .trunc } else c)

/-- The record is copied to `rec_addr`; a refused write sets `recfault` (R157, R158). -/
def Run.opRecord (r : Run s₀) (o : Op) (c : OpRec) : Run s₀ :=
  if o.recAddr = 0 then r
  else match r.memWrite o.port o.recAddr c.bytes with
    | (r, .ok) => r
    | (r, _) => (r.wr64 Reg.spRecfaultLo Reg.spRecfaultHi o.recAddr).flag Reg.spEvstat 5

/-- The handle becomes DONE and, with `ev`, the completion is reported (R157). -/
def Run.opHandle (r : Run s₀) (o : Op) (c : OpRec) : Run s₀ :=
  let x := r.s.thread o.tid
  let r := match x.handle o.k with
    | .pending id => if id = o.id then r.setThread o.tid (x.setHandle o.k (.done c)) else r
    | _ => r
  let r := if bit o.flags 0 then (r.threadBit Reg.spCmplLo o.tid true).flag Reg.spEvstat (6 + o.tid / 32) else r
  r.spWake o.tid

/-- An ended operation is delivered. An orphan writes its results only (R143); an operation of a DMA channel has no thread
and also shows its status in the channel (R567). -/
def Run.opDeliver (r : Run s₀) (o : Op) (c : OpRec) : Run s₀ :=
  let (r, c) := r.opResults o c
  let r := r.when (!o.orphan) fun r => r.opRecord o c
  let r := r.mapSp fun p => { p with ops := p.ops.filter fun x => x.id != o.id }
  let r := r.when (!o.orphan && decide (o.tid < 64)) fun r => r.opHandle o c
  r.when (o.unit == 7) fun r => r.dmaDone o.obj c.status

/-- OP_COMPLETE: the completion of the operation of number `id` is delivered; two of R161 that have both ended complete in
issue order. -/
def execOpComplete (id : Nat) (s : State) : Out :=
  let r := Run.start s
  match s.op id with
  | none => r.done
  | some o =>
    match o.out with
    | none => r.done
    | some c =>
      if s.sp.ops.any fun x => decide (x.id < id) && x.tid == o.tid && x.unit == o.unit && x.obj == o.obj && x.out.isSome
        && !ignoresObj x.unit x.code then r.done
      else (r.opDeliver o c).done

/-! ## Cancel requests (R159) -/

/-- Operations leave the commits that they wait for; one that an operation asked for, and for which none is left, is
withdrawn. -/
def Run.commitDrop (r : Run s₀) (ids : List Nat) : Run s₀ :=
  r.up (.commits ((r.s.commits.map fun c => { c with ops := c.ops.filter fun i => !ids.contains i }).filter
    fun c => !(c.byOp && c.ops.isEmpty)))

/-- The operation ends with ABORTED, CANCEL, and has no effect. -/
def Run.opAbort (r : Run s₀) (o : Op) : Run s₀ := (r.commitDrop [o.id]).opFin o .aborted 0x01 []

/-- What a unit does with a cancel request for an operation it has started. -/
def Run.unitCancel (r : Run s₀) (o : Op) : Run s₀ :=
  match o.unit, o.code with
  | 2, 4 => r.opFin o .aborted 0x01 []
  | 2, 6 => (r.opFin o .aborted 0x01 [])
  | 3, 6 => (r.up (.sig { r.s.sig with watches := r.s.sig.watches.filter fun w => w.op != o.id })).opFin o .aborted 0x01 []
  | 5, 2 => r.herdCancel o
  | 7, _ => r.dmaCancel o
  | 8, _ => match r.adcCancel o with
    | (r, true) => r.opFin o .aborted 0x01 []
    | (r, false) => r
  | 9, 2 => r.canCancel (o.obj / 128) (o.obj % 128)
  | 11, 2 => r.chmCancel o
  | 12, 9 => r.bhrCancel o
  | 14, 2 => r.redCancel o
  | _, _ => r

/-- A cancel request: an operation that is not yet due, or not started, ends with ABORTED; else its unit decides. -/
def Run.opCancel (r : Run s₀) (o : Op) : Run s₀ :=
  if o.out.isSome then r
  else if o.acted then r.unitCancel o
  else match o.time with
    | some t => if !o.late && !o.due && decide (r.s.now < t) then r.opAbort o else r
    | none => r.opAbort o

end Sys2Proof.Machine
end

