-- ==== Sys2Proof/Machine/Pwr.lean ====
section
/-!
DEFINITION. Power, reset, the backup domain and the pins (17_power_reset.md, R610 to R630; 18_package.md, R653).
-/
namespace Sys2Proof.Machine

variable {s₀ : State}

def Run.mapPwr (r : Run s₀) (f : PwrSt → PwrSt) : Run s₀ := r.up (.pwr (f r.s.pwr))

/-! ## Power failure and the backup domain (R613 to R616, R626 to R629) -/

/-- Holdover seconds (R614). -/
def State.holdSecs (s : State) : Nat := s.pwr.hold >>> 15 % 2 ^ 48

/-- Bharal writes a POWER_FAIL record of a new stamp and clears `pf_new` (R629). -/
def Run.pfRecord (r : Run s₀) : Run s₀ :=
  if r.s.rb Reg.pwrStat 30 then
    let g (a : Nat) : Nat := (r.s.rget a).toNat
    (r.log 0x000E 2 [g Reg.pwrPfTsLo, g Reg.pwrPfTsHi, g Reg.pwrPfSecLo, g Reg.pwrPfSecHi, g Reg.pwrPfInfo]).wb Reg.pwrStat 30 false
  else r

/-- POWER_FAIL: the stamp, the axis positions, `pfail` (R627). Source 1 PWR_FAIL_N, 2 SM0, 3 SM1. -/
def execPowerFail (src : Nat) (s : State) : Out :=
  let r := Run.start s
  if s.pwr.por ∨ src = 0 ∨ 3 < src then r.done
  else
    let r := r.wr64 Reg.pwrPfTsLo Reg.pwrPfTsHi s.now
    let r := r.wr64 Reg.pwrPfSecLo Reg.pwrPfSecHi s.holdSecs
    let r := (r.wr Reg.pwrPfInfo (s.node.code <<< 16 + src)).wb Reg.pwrStat 30 true
    let r := r.when (src == 1) fun r => r.wb Reg.pwrStat 29 false
    (r.saveAxes.flag Reg.pwrEvstat 0).done

/-- POWER_FAIL_CLEAR: PWR_FAIL_N is high again with every supply good; the node has survived (R628, R629). -/
def execPowerFailClear (s : State) : Out :=
  let r := Run.start s
  if s.inReset then r.done else (((r.wb Reg.pwrStat 29 true).flag Reg.pwrEvstat 1).pfRecord).done

/-- The registers of the backup domain, which it loses with its supply. -/
def backupRegs : List Nat :=
  [Reg.pwrStat, Reg.pwrHoldLo, Reg.pwrHoldHi, Reg.pwrPfTsLo, Reg.pwrPfTsHi, Reg.pwrPfSecLo, Reg.pwrPfSecHi, Reg.pwrPfInfo]
    ++ (List.range 64).map Reg.pwrBkp ++ (List.range 48).map Reg.pwrAxposLo ++ (List.range 48).map Reg.pwrAxposHi

/-- BACKUP_SUPPLY_LOSS: below 1.4 V the domain loses its contents (R613, R616). While VDDA powers the device it runs
from VDDA, so that this happens with POR asserted only. -/
def execBackupSupplyLoss (s : State) : Out :=
  let r := Run.start s
  if s.pwr.por then
    ((r.each backupRegs fun r a => r.up (.regReset a)).mapPwr fun p => { p with hold := 0, bkpLost := true }).done
  else r.done

/-- Bharal sees that the backup oscillator has stopped (R30): no cycle of it for longer than Bharal's monitor waits, a time
that the spec does not give (log 2). -/
def Run.xbatWatch (r : Run s₀) : Run s₀ :=
  if r.s.rb Reg.clkStat 8 && decide (r.s.pwr.xbatAt + Config.xbatAbsence < r.s.cyc) then r.wb Reg.clkStat 8 false else r

/-- HOLDOVER_COUNT_TICK: one cycle of the backup oscillator, which Bharal sees running (R30); while TB0 is LOCKED its seconds are loaded when they have
advanced (R615). -/
def execHoldoverCountTick (s : State) : Out :=
  let r := Run.start s
  let secs := (s.base 0).sec
  let r := r.mapPwr fun p => { p with hold := (p.hold + 1) % 2 ^ 63, holdSec := secs, xbatAt := s.cyc }
  let r := r.when (!s.inReset) fun r => r.wb Reg.clkStat 8 true
  if s.tb0State = 2 ∧ secs = s.pwr.holdSec + 1 ∧ !s.inReset then
    ((r.mapPwr fun p => { p with hold := (secs % 2 ^ 48) <<< 15 }).wb Reg.pwrStat 31 true).done
  else r.done

/-! ## Power-on and cold reset (R612, R616, R619) -/

/-- BOOT starts: the PLLs are locked, the salt is drawn, the calibration set is checked, the change is recorded, and so is
a stamp of the last power failure (R188, R580, R612, R629). -/
def Run.bootStart (r : Run s₀) (c : NodeCause) : Run s₀ :=
  let r := r.up (.sig { r.s.sig with salt := Config.salt r.s.pwr.salts })
  let r := (r.mapPwr fun p => { p with salts := p.salts + 1 }).mapSp fun p => { p with cyc0 := r.s.cyc }
  let r := (r.wf Reg.clkStat 5 0 0x3F).wb Reg.timeStat 31 true
  (r.nodeTo .boot c).calJudge.pfRecord

/-- POR_ASSERT: a supply stops being good (R612). -/
def execPorAssert (s : State) : Out := (Run.start s).porAssert.done

/-- POR_RELEASE: every supply has been good and COLD_RSTN high for 2 ms (R612). `low`: the banks found at 1.8 V; `xbat`:
the backup oscillator runs; `pfailN`: the level of PWR_FAIL_N. -/
def execPorRelease (low : Nat) (xbat pfailN : Bool) (s : State) : Out :=
  let r := Run.start s
  if !s.pwr.por then r.done
  else
    let lost := s.pwr.bkpLost
    let r := r.mapPwr fun p => { p with por := false, bkpLost := false, xbatAt := s.cyc }
    let r := (r.wr Reg.pinBank low).wr Reg.clkStat (b2n xbat <<< 8)
    let r := (r.wr Reg.rstCause (1 <<< 8)).wb Reg.pwrStat 29 pfailN
    let r := r.mapBhr fun b => { b with pcyc := b.pcyc + 1, opAt := s.cyc }
    let r := r.bootStart .powerOn
    (if lost then (r.flag Reg.pwrEvstat 4).log 0x000E 1 [] else r).done

/-- COLD_RESET: a request by COLD_RSTN (2), by RST_CTRL (3), or by Bharal after Fawn has written a bundle (4) (R619). -/
def execColdReset (src : Nat) (s : State) : Out :=
  let r := Run.start s
  if s.pwr.por ∨ src < 2 ∨ 4 < src ∨ (src = 4 ∧ !s.bhr.resetReq) then r.done else (r.coldReset src).done

/-- COLD_RESET_END: the parts leave reset after 100 µs and BOOT starts (R619). -/
def execColdResetEnd (s : State) : Out :=
  let r := Run.start s
  match s.pwr.coldUntil with
  | some t =>
    if t ≤ s.cyc ∧ !s.pwr.por then ((r.mapPwr fun p => { p with coldUntil := none }).bootStart (.coldReset s.pwr.coldSrc s.pwr.coldNode)).done
    else r.done
  | none => r.done

/-! ## Warm restart requests and RST_CTRL (R620, R621) -/

/-- A warm request: counted; refused in BOOT, in LOAD and under Fawn; without further effect while one is in progress. -/
def Run.warmRequest (r : Run s₀) (src : Nat) : Run s₀ :=
  let s := r.s
  if s.inReset then r
  else
    let r := r.count Reg.rstCount 15 0
    if s.node = .boot ∨ s.node = .load ∨ s.fawn then r.flag Reg.pwrEvstat 3
    else if s.sp.restart.isSome ∨ s.sp.warmAsk.isSome then r
    else (r.mapSp fun p => { p with warmAsk := some s.cyc }).wf Reg.rstCause 7 0 src

/-- WARM_REQUEST: by WARM_REQN (1) or RST_CTRL (2). -/
def execWarmRequest (src : Nat) (s : State) : Out :=
  let r := Run.start s
  if src = 1 ∨ src = 2 then (r.warmRequest src).done else r.done

/-- A write of RST_CTRL (R621). -/
def Run.writeRstCtrl (r : Run s₀) (v : Nat) : Run s₀ :=
  if v % 4 = 0 then r
  else if v >>> 16 ≠ 0x4B59 then r.flag Reg.pwrEvstat 6
  else if bit v 1 then r.coldReset 3
  else r.warmRequest 2

/-- WARM_RESTART_END: the SP cluster leaves the warm restart, and the autostart threads start (R144, R183, R620). -/
def execWarmRestartEnd (s : State) : Out :=
  let r := Run.start s
  match s.sp.restart with
  | some t =>
    if t ≤ s.cyc then
      ((r.mapSp fun p => { p with restart := none, cyc0 := s.cyc }).autostart.flag Reg.pwrEvstat 2).done
    else r.done
  | none => r.done

/-! ## PLLs and pins (R630, R653) -/

/-- PLL_UNLOCK: the SYS (0), Ethernet (2), DDR (3) or Bharal (4) PLL loses lock (R630). -/
def execPllUnlock (i : Nat) (s : State) : Out :=
  let r := Run.start s
  if s.inReset ∨ !(i = 0 ∨ i = 2 ∨ i = 3 ∨ i = 4) then r.done
  else ((r.wb Reg.clkStat i false).flag Reg.pwrEvstat 5).done

/-- GPIO_INPUT_CHANGE: the board drives the balls GPIO0 to GPIO15 to these levels (R653). -/
def execGpioInputChange (levels : Nat) (s : State) : Out :=
  ((Run.start s).mapPwr fun p => { p with gpio := levels % 65536 }).done

/-- The levels at the GPIO balls, outputs included (R653). -/
def State.gpioIn (s : State) : Nat :=
  ((List.range 16).map fun i =>
    (if s.rb Reg.pinGpioDir i then b2n (s.rb Reg.pinGpioOut i) else b2n (bit s.pwr.gpio i)) <<< i).sum

end Sys2Proof.Machine
end

