-- ==== Sys2Proof/Machine/Views.lean ====
section
/-!
DEFINITION. What the registers show: a register that only shows a piece of state is computed from it, and every other
register holds its value (R4, R5).
-/
namespace Sys2Proof.Machine

variable {s₀ : State}

/-! ## Commit bits (R10, R12) -/

/-- The COMMIT register and the bit of a group. -/
def Group.bitAt : Group → Nat × Nat
  | .tb0lock => (Reg.timeCommit, 24)
  | .sg n => (Reg.timeCommit, n)
  | .lg n => (Reg.timeCommit, 16 + n)
  | .route => (Reg.sigCommit, 0)
  | .tr b => (if b < 32 then Reg.leCommitLo else Reg.leCommitHi, b % 32)
  | .axcfg n => (Reg.axCommit n, 0)
  | .axtpl n => (Reg.axCommit n, 1)
  | .sd n => (if n < 32 then Reg.sdfCommitLo else Reg.sdfCommitHi, n % 32)
  | .sdclk => (Reg.sdfCommitHi, 16)
  | .mot n => (Reg.motCommit n, 0)
  | .vm m => (Reg.vmCommit, m)
  | .cam c => (if c < 32 then Reg.vmCamcommitLo else Reg.vmCamcommitHi, c % 32)
  | .adc n => (Reg.adcCommit n, 0)
  | .herdcyc => (Reg.herdCommit, 0)
  | .slot p => (Reg.herdCommit, 1 + p)
  | .ethcfg n => (Reg.ethCommit n, 0)
  | .ethgcl n => (Reg.ethCommit n, 1)
  | .can n => (Reg.canCommit n, 0)
  | .capts n => (Reg.captCommit, n)
  | .capttr u => (if u < 32 then Reg.captCommitTrLo else Reg.captCommitTrHi, u % 32)
  | .red => (Reg.redCommit, 0)

/-- The bits of pending groups in a COMMIT register (R12). -/
def State.commitBits (s : State) (a : Nat) : Nat :=
  s.commits.foldl (fun m c => if c.group.bitAt.1 = a then m ||| 1 <<< c.group.bitAt.2 else m) 0

/-! ## Sequence processors -/

/-- `wait_kind` of SP_Tt_STAT. -/
def State.waitKind (s : State) (t : Nat) : Nat :=
  let x := s.thread t
  if x.state ≠ .running then 0
  else match x.wait with
    | .wait _ _ _ _ _ => 2
    | .fence _ => 3
    | .lock _ _ => 4
    | .yield _ => 6
    | .none => if s.cyc < x.readyAt || s.descWait t then 1 else s.held t

/-- The code of a thread state (R140). -/
def ThreadState.code : ThreadState → Nat
  | .stopped => 0 | .running => 1 | .halted => 2 | .faulted => 3

/-- SP_Tt_STAT, SP_Tt_HANDLES, a word of a completion record, SP_LOCKn and SP_Pn_STAT. -/
def State.spTStatReg (s : State) (t : Nat) : Nat :=
  ((s.thread t).restarts % 16) <<< 20 + s.waitKind t <<< 4 + (s.thread t).state.code
def State.handlesReg (s : State) (t : Nat) : Nat := (s.thread t).pendMask <<< 16 + (s.thread t).doneMask
def State.hrecWord (s : State) (t k w : Nat) : Nat :=
  match (s.thread t).handle k with
  | .done c => recNat c.bytes (4 * w) 4
  | _ => 0
def State.lockReg (s : State) (n : Nat) : Nat :=
  let l := s.hwlock n
  b2n l.owner.isSome <<< 31 + b2n l.broken <<< 30 + (l.waiters.length % 64) <<< 8 + l.owner.getD 0
def State.spPStatReg (s : State) (p : Nat) : Nat :=
  let m (f : Nat → Bool) : Nat := ((procThreads p).map fun t => b2n (f t) <<< (t % 8)).sum
  s.procInflight p <<< 16 + m (fun t => (s.thread t).state == .running) <<< 8 + m s.threadReady

/-! ## Other blocks -/

/-- Operations queued or running on a DMA channel. -/
def State.dmaQueued (s : State) (c : Nat) : Nat :=
  min 16 (s.sp.ops.filter fun o => o.unit == 7 && o.obj == c && o.out.isNone).length
def State.dmaStatReg (s : State) (c : Nat) : Nat :=
  s.rf (Reg.meshDmaStat c) 31 24 <<< 24 + b2n (decide (0 < s.dmaQueued c)) <<< 16 + s.dmaQueued c

/-- The counter and the written key slots of the one-time memory (R590, R592); slots 0 to 3 are written in production. -/
def State.otpReg (s : State) : Nat :=
  ((List.range 8).map fun k => b2n (!keyEmpty (s.keySlot k)) <<< (8 + k)).sum + s.bhr.otpSv % 128

/-- A 64-bit value seen through a pair of registers. -/
def half (v : Nat) (hi : Bool) : Nat := if hi then bits v 63 32 else bits v 31 0

/-- A register of the time block that is computed. -/
def State.timeView (s : State) (a i : Nat) : Option Nat :=
  let g := s.grid i
  if a = Reg.timeTbNowLo i then some (half (s.seenTime i) false)
  else if a = Reg.timeTbNowHi i then some (half (s.seenTime i) true)
  else if a = Reg.timeSgStat i then some (b2n g.running <<< 31 + min (s.bindCount i) 511 <<< 16 + g.fine)
  else if a = Reg.timeSgIdxLo i then some (half g.idx false)
  else if a = Reg.timeSgIdxHi i then some (half g.idx true)
  else if a = Reg.timeSgNextLo i then some (half g.next false)
  else if a = Reg.timeSgNextHi i then some (half g.next true)
  else none

def State.spView (s : State) (a i j : Nat) : Option Nat :=
  if a = Reg.spInflight then some (s.sp.ops.filter fun o => decide (o.tid < 64)).length
  else if a = Reg.spPStat i then some (s.spPStatReg i)
  else if a = Reg.spTStat i then some (s.spTStatReg i)
  else if a = Reg.spTPc i then some ((s.thread i).pc % 2 ^ 18)
  else if a = Reg.spTHandles i then some (s.handlesReg i)
  else if a = Reg.spLock i then some (s.lockReg i)
  else if a = Reg.spTHrecW i j then some (s.hrecWord i (j / 4) (j % 4))
  else none

def State.leView (s : State) (a i : Nat) : Option Nat :=
  if a = Reg.leStat then some s.leStat
  else if a = Reg.leUtil then some (min s.leUtil 0xFFFF)
  else if a = Reg.leTin then some s.leTinReg
  else if a = Reg.leFb i then some (s.leStateBits 2 i)
  else if a = Reg.leFlt i then some (s.leStateBits 3 i)
  else if a = Reg.leCtxStat i then some (s.leCtxStat i)
  else none

/-- A register of AXn, MOTn. -/
def State.axView (s : State) (a n : Nat) : Option Nat :=
  if a = Reg.axStat n then some (s.axStatReg n)
  else if a = Reg.axPosLo n then some (half (uNat 64 (s.ax n).pos) false)
  else if a = Reg.axPosHi n then some (half (uNat 64 (s.ax n).pos) true)
  else none
def State.motView (s : State) (a n : Nat) : Option Nat :=
  let m := s.mot n
  if a = Reg.motStat n then some (s.motStat n)
  else if a = Reg.motRefLo n then some (half (uNat 64 m.ref) false)
  else if a = Reg.motRefHi n then some (half (uNat 64 m.ref) true)
  else if a = Reg.motVref n then some (f64.conv f32 m.v)
  else if a = Reg.motAref n then some (f64.conv f32 m.a)
  else if a = Reg.motTargetLo n then some (half (s.motTarget n) false)
  else if a = Reg.motTargetHi n then some (half (s.motTarget n) true)
  else none

/-- A register that is computed; none when the register file holds it. -/
def State.view (s : State) (a : Nat) (x : RegAt) : Option Nat :=
  match x.blk / 0x10000 with
  | 0x400 => if a = Reg.meshDmaStat x.i then some (s.dmaStatReg x.i) else none
  | 0x401 =>
    if a = Reg.pwrHoldLo then some (bits s.holdSecs 31 0)
    else if a = Reg.pwrHoldHi then some ((s.pwr.hold % 2 ^ 15) <<< 16 + bits s.holdSecs 47 32)
    else none
  | 0x402 => if a = Reg.timeCommit then some (s.commitBits a) else s.timeView a x.i
  | 0x403 => s.spView a x.i x.j
  | 0x404 => if a = Reg.leCommitLo ∨ a = Reg.leCommitHi then some (s.commitBits a) else s.leView a x.i
  | 0x405 =>
    if a = Reg.sigCommit then some (s.commitBits a)
    else if a = Reg.sigDefined then some (s.sig.recs.filter fun e => e.2.defined).length
    else none
  | 0x406 => if a = Reg.captCommit ∨ a = Reg.captCommitTrLo ∨ a = Reg.captCommitTrHi then some (s.commitBits a) else none
  | 0x407 => if a = Reg.herdCommit then some (s.commitBits a) else none
  | 0x408 => if a = Reg.ethCommit x.inst then some (s.commitBits a) else none
  | 0x40A => if a = Reg.canCommit x.inst then some (s.commitBits a) else none
  | 0x40B =>
    if a = Reg.adcCommit x.inst then some (s.commitBits a)
    else if a = Reg.adcStat x.inst then some (s.adcStatReg x.inst)
    else none
  | 0x40C => if a = Reg.sdfCommitLo ∨ a = Reg.sdfCommitHi then some (s.commitBits a) else none
  | 0x410 => if a = Reg.axCommit x.inst then some (s.commitBits a) else s.axView a x.inst
  | 0x414 => if a = Reg.motCommit x.inst then some (s.commitBits a) else s.motView a x.inst
  | 0x415 =>
    if a = Reg.vmCommit ∨ a = Reg.vmCamcommitLo ∨ a = Reg.vmCamcommitHi then some (s.commitBits a)
    else if a = Reg.vmVmStat x.i then some (s.vmStat x.i)
    else none
  | 0x419 =>
    if a = Reg.bhrOtp then some s.otpReg
    else if a = Reg.bhrLogSeq then some (if s.bhr.nextSeq = 0 then 0 else s.bhr.nextSeq - 1)
    else none
  | 0x41A => if a = Reg.redCommit then some (s.commitBits a) else none
  | 0x41B =>
    if a = Reg.evcLevel x.i then some (s.evcLevelWord x.i)
    else if a = Reg.evcVlevel x.i then some (s.evcVlevelWord x.i)
    else none
  | 0x41C => if a = Reg.pinGpioIn then some s.gpioIn else none
  | _ => none

/-- The value that a register reads, before the effects of the read. -/
def State.regVal (s : State) (a : Nat) : Word :=
  match regAt a with
  | none => 0
  | some x => match s.view a x with
    | some v => BitVec.ofNat 32 v
    | none => s.rget a

end Sys2Proof.Machine
end

