-- ==== Sys2Proof/Machine/Commit.lean ====
section
/-!
DEFINITION. Configuration groups and their commits (R9 to R17): which registers a group holds, where its boundary lies,
its check, what follows when it comes into use, and the rows COMMIT_REQUEST, COMMIT_APPLY and the COMMIT operations of the
units.
-/
namespace Sys2Proof.Machine

variable {s₀ : State}

/-! ## The groups -/

/-- The group of a shadow register. -/
def RegAt.group (x : RegAt) : Option Group :=
  match x.fam.grp with
  | .none => none
  | .tb0lock => some .tb0lock
  | .sg => some (.sg x.i)
  | .lg => some (.lg x.i)
  | .route => some .route
  | .tr => some (.tr x.i)
  | .axcfg => some (.axcfg x.inst)
  | .axtpl => some (.axtpl x.inst)
  | .sd => some (.sd (x.i / 3))
  | .sdfclk => some .sdclk
  | .mot => some (.mot x.inst)
  | .vm => some (.vm x.i)
  | .cam => some (.cam x.i)
  | .adc => some (.adc x.inst)
  | .herdcyc => some .herdcyc
  | .herdslot => some (.slot x.i)
  | .ethcfg => some (.ethcfg x.inst)
  | .ethgcl => some (.ethgcl x.inst)
  | .can => some (.can x.inst)
  | .capts => some (.capts x.i)
  | .capttr => some (.capttr x.i)
  | .red => some .red

/-- The registers of a group: runs of words, each with its shadow base, the base of its active copy, and its length. -/
def Group.spans : Group → List (Nat × Nat × Nat)
  | .tb0lock => [(Reg.timeTb0Lock, Reg.timeTb0LockAct, 2)]
  | .sg n => [(Reg.timeSgCfg n, Reg.timeSgCfgAct n, 3)]
  | .lg n => [(Reg.timeLgCfg n, Reg.timeLgCfgAct n, 3)]
  | .route => [(Reg.sigRouteBaseLo, Reg.sigRouteBaseLoAct, 3)]
  | .tr b => [(Reg.leTrCfg b, Reg.leTrCfgAct b, 4)]
  | .axcfg n => [(Reg.axCfg n, Reg.axCfgAct n, 13)]
  | .axtpl n => [(Reg.axTpl n 0, Reg.axTplAct n 0, 32)]
  | .sd n => (List.range 3).map fun k => (Reg.sdfChCfg (3 * n + k), Reg.sdfChCfgAct (3 * n + k), 3)
  | .sdclk => [(Reg.sdfClk 0, Reg.sdfClkAct 0, 6)]
  | .mot n => [(Reg.motCfg n, Reg.motCfgAct n, 18)]
  | .vm m => [(Reg.vmVmCfg m, Reg.vmVmCfgAct m, 3)]
  | .cam c => [(Reg.vmCamBaseLo c, Reg.vmCamBaseLoAct c, 4)]
  | .adc n => [(Reg.adcCfg n, Reg.adcCfgAct n, 2), (Reg.adcSeq n 0, Reg.adcSeqAct n 0, 16)]
  | .herdcyc => [(Reg.herdCyc, Reg.herdCycAct, 1)]
  | .slot p => [(Reg.herdHpSlotlen p, Reg.herdHpSlotlenAct p, 1), (Reg.herdHpSlot p 0, Reg.herdHpSlotAct p 0, 1024)]
  | .ethcfg n => [(Reg.ethCfg n, Reg.ethCfgAct n, 6)]
  | .ethgcl n => [(Reg.ethGclCtrl n, Reg.ethGclCtrlAct n, 4), (Reg.ethGcl n 0, Reg.ethGclAct n 0, 256)]
  | .can n => [(Reg.canCfg n, Reg.canCfgAct n, 5), (Reg.canAbd n 0, Reg.canAbdAct n 0, 8),
               (Reg.canFltMatch n 0, Reg.canFltMatchAct n 0, 128)]
  | .capts n => [(Reg.captSCfg n, Reg.captSCfgAct n, 9)]
  | .capttr u => [(Reg.captTrCfg u, Reg.captTrCfgAct u, 5)]
  | .red => [(Reg.redCfg, Reg.redCfgAct, 3), (Reg.redMember 0, Reg.redMemberAct 0, 8),
             (Reg.redDutyBaseLo, Reg.redDutyBaseLoAct, 2)]

/-- The `cfgerr` flag of a group's block: its EVSTAT register and bit (R15). -/
def Group.err : Group → Nat × Nat
  | .tb0lock => (Reg.timeEvstat, 5)
  | .sg _ => (Reg.timeEvstat, 5)
  | .lg _ => (Reg.timeEvstat, 5)
  | .route => (Reg.sigEvstat, 8)
  | .tr _ => (Reg.leEvstat, 0)
  | .axcfg n => (Reg.axEvstat n, 8)
  | .axtpl n => (Reg.axEvstat n, 8)
  | .sd _ => (Reg.sdfEvstat, 2)
  | .sdclk => (Reg.sdfEvstat, 2)
  | .mot n => (Reg.motEvstat n, 0)
  | .vm _ => (Reg.vmEvstat, 0)
  | .cam _ => (Reg.vmEvstat, 0)
  | .adc n => (Reg.adcEvstat n, 0)
  | .herdcyc => (Reg.herdEvstat, 21)
  | .slot _ => (Reg.herdEvstat, 21)
  | .ethcfg n => (Reg.ethEvstat n, 4)
  | .ethgcl n => (Reg.ethEvstat n, 4)
  | .can n => (Reg.canEvstat n, 11)
  | .capts _ => (Reg.captEvstat, 8)
  | .capttr _ => (Reg.captEvstat, 8)
  | .red => (Reg.redEvstat, 9)

/-- The group whose bit `i` the COMMIT register at `a` holds. -/
def commitGroup (a i : Nat) : Option Group :=
  match regAt a with
  | none => none
  | some x =>
    let n := x.inst
    let iff (b : Bool) (g : Group) : Option Group := if b then some g else none
    if a = Reg.timeCommit then
      (if i < 16 then some (.sg i) else if i < 24 then some (.lg (i - 16)) else iff (i == 24) .tb0lock)
    else if a = Reg.leCommitLo then iff (decide (i < 32)) (.tr i)
    else if a = Reg.leCommitHi then iff (decide (i < 32)) (.tr (32 + i))
    else if a = Reg.sigCommit then iff (i == 0) .route
    else if a = Reg.captCommit then iff (decide (i < 16)) (.capts i)
    else if a = Reg.captCommitTrLo then iff (decide (i < 32)) (.capttr i)
    else if a = Reg.captCommitTrHi then iff (decide (i < 32)) (.capttr (32 + i))
    else if a = Reg.herdCommit then (if i = 0 then some .herdcyc else iff (decide (i ≤ 4)) (.slot (i - 1)))
    else if a = Reg.sdfCommitLo then iff (decide (i < 32)) (.sd i)
    else if a = Reg.sdfCommitHi then (if i < 16 then some (.sd (32 + i)) else iff (i == 16) .sdclk)
    else if a = Reg.vmCommit then iff (decide (i < 16)) (.vm i)
    else if a = Reg.vmCamcommitLo then iff (decide (i < 32)) (.cam i)
    else if a = Reg.vmCamcommitHi then iff (decide (i < 32)) (.cam (32 + i))
    else if a = Reg.redCommit then iff (i == 0) .red
    else if a = Reg.ethCommit n then (if i = 0 then some (.ethcfg n) else iff (i == 1) (.ethgcl n))
    else if a = Reg.canCommit n then iff (i == 0) (.can n)
    else if a = Reg.adcCommit n then iff (i == 0) (.adc n)
    else if a = Reg.axCommit n then (if i = 0 then some (.axcfg n) else iff (i == 1) (.axtpl n))
    else if a = Reg.motCommit n then iff (i == 0) (.mot n)
    else none

/-- A commit of the group is pending (R12). -/
def State.committing (s : State) (g : Group) : Bool := s.commits.any fun c => c.group == g

/-! ## Boundaries (R10, R16) -/

/-- The grid at whose boundaries a group comes into use; none when the group has no running boundary, or one of another
kind. -/
def State.groupGrid (s : State) (g : Group) : Option Nat :=
  let while_ (n : Nat) : Option Nat := if (s.grid n).running then some n else none
  match g with
  | .sg n => while_ n
  | .lg n =>
    if s.rb (Reg.timeLgCfg n) 31 then
      (if s.gridEn (s.rf (Reg.timeLgCfg n) 3 0) then some (s.rf (Reg.timeLgCfg n) 3 0) else none)
    else if s.rb (Reg.timeLgCfgAct n) 31 then some (s.rf (Reg.timeLgCfgAct n) 3 0)
    else none
  | .tr b =>
    let c := s.rf (Reg.leTrCfg b) 15 8
    if s.leState c = 0 then none else while_ (s.leH c 5 1 % 16)
  | .axcfg n => while_ (s.axGrid n)
  | .axtpl n => while_ (s.axGrid n)
  | .sd n => while_ (s.axGrid n)
  | .mot n => while_ (s.axGrid n)
  | .herdcyc => if s.cycOn then while_ s.cycGrid else none
  | .slot _ => if s.cycOn then while_ s.cycGrid else none
  | .red => if s.cycOn then while_ s.cycGrid else none
  | _ => none

/-- The group's boundary is an instant of its own block: a gate cycle, a conversion boundary, a pause of a MAC, a frame
boundary of a CAN controller. -/
def State.ownBoundary (s : State) (g : Group) : Bool :=
  match g with
  | .ethgcl n => s.gclOn n
  | .ethcfg n => s.rb (Reg.ethCfgAct n) 31 || s.rb (Reg.ethCfgAct n) 30
  | .adc n => s.adcEn n
  | .can n => s.canMode n != 0
  | _ => false

/-- That boundary lies at this instant (R359, R430, R432). -/
def State.atOwnBoundary (s : State) (g : Group) : Bool :=
  match g with
  | .ethcfg n => (s.mac n).busy.isNone
  | .adc n => s.adcAtBoundary n
  | .can n => (s.canc n).active.isNone
  | _ => false

/-- The group has no running boundary (R16). -/
def State.noBoundary (s : State) (g : Group) : Bool := (s.groupGrid g).isNone && !s.ownBoundary g

/-! ## Coming into use (R11, R15) -/

/-- The consistency check of a group (R15). -/
def State.groupCheck (s : State) (g : Group) : Bool :=
  match g with
  | .tb0lock => s.tb0lockCheck
  | .sg n => s.sgCheck n
  | .lg n => s.lgCheck n
  | .route => s.routeCheck
  | .tr b => s.trCheck b
  | .axcfg n => s.axcfgCheck n
  | .axtpl n => s.axtplCheck n
  | .sd n => s.sdCheck n
  | .sdclk => s.sdclkCheck
  | .mot n => s.motCheck n
  | .vm m => s.vmCheck m
  | .cam c => s.camCheck c
  | .adc n => s.adcCheck n
  | .herdcyc => s.cycCheck
  | .slot p => s.slotCheck p
  | .ethcfg n => s.ethcfgCheck n
  | .ethgcl n => s.ethgclCheck n
  | .can n => s.canCheck n
  | .capts n => s.csCheck n
  | .capttr u => s.truCheck u
  | .red => s.redCheck

/-- The words of a group are copied into use; registers that hold nothing at all are skipped by the table itself. -/
def Run.groupCopy (r : Run s₀) (g : Group) : Run s₀ :=
  r.each g.spans fun r (sh, ac, n) =>
    let s := r.s
    r.each ((List.range n).filter fun i => s.rget (ac + 4 * i) != s.rget (sh + 4 * i)) fun r i =>
      r.up (.reg (ac + 4 * i) (s.rget (sh + 4 * i)))

/-- What follows in the block; `s` is the state before the copy. -/
def Run.groupApplied (r : Run s₀) (g : Group) (s : State) : Run s₀ :=
  match g with
  | .tb0lock => r.tb0lockApplied
  | .sg n => r.sgApplied n (s.gridEn n) (s.gridP n != r.s.gridP n || s.gridPhi n != r.s.gridPhi n || s.gridBase n != r.s.gridBase n)
  | .tr b => r.trApplied b
  | .axcfg n => r.axcfgApplied n (s.axMode n)
  | .mot n => r.motApplied n
  | .adc n => r.adcApplied n (s.rget (Reg.adcCfgAct n)).toNat
  | .ethcfg n => r.ethcfgApplied n (s.rb (Reg.ethCfgAct n) 30)
  | .ethgcl n => r.ethgclApplied n
  | .can n => r.canApplied n (s.canMode n)
  | .red => r.redApplied
  | _ => r

/-- A COMMIT operation that a failed check ends (R15), with what its unit adds to a CFGERR. -/
def Run.commitFails (r : Run s₀) (o : Op) (k : Nat) : Run s₀ :=
  match o.unit with
  | 0 => r.leFin o .cfgerr 0
  | 2 => if o.obj < 48 then r.motFin o .cfgerr 0 k else r.vmFin o .cfgerr 0 []
  | 4 => r.captRefuse o .cfgerr 0 0
  | _ => r.opEnd o .cfgerr 0 k [] 0

/-- The group comes into use, or is refused; `k` is the boundary, the completion stamp of the operations (R15, R17). -/
def Run.commitDo (r : Run s₀) (g : Group) (ops : List Nat) (k : Nat) : Run s₀ :=
  let r := r.when (g == .red) Run.redReads
  let s := r.s
  let live (r : Run s₀) : List Op := ops.filterMap fun i => (r.s.op i).filter fun o => o.out.isNone
  let r := r.up (.commits (s.commits.filter fun c => c.group != g))
  if s.groupCheck g then
    let r := (r.groupCopy g).groupApplied g s
    r.each (live r) fun r o => r.opEnd o o.okSt 0 k [] 0
  else
    let r := r.flag g.err.1 g.err.2
    r.each (live r) fun r o => r.commitFails o k

/-! ## Requests (R10, R14, R16, R17) -/

/-- The boundary of cycle `c` has passed (R409). -/
def State.cyclePassed (s : State) (cycle : Option Nat) : Bool :=
  match cycle with
  | some c => decide (c ≤ s.cycNo)
  | none => false

/-- A commit of a group is requested, by register or by an operation. A pending commit takes the operation with it and
disregards its time (R14); without a running boundary an untimed or late request acts at once (R16, R17). -/
def Run.commitRequest (r : Run s₀) (g : Group) (op : Option Op) (cycle : Option Nat) : Run s₀ :=
  match r.s.commits.find? fun c => c.group == g with
  | some _ =>
    match op with
    | none => r
    | some o =>
      let r := r.opSet { o with time := none, late := false }
      r.up (.commits (r.s.commits.map fun c => if c.group == g then { c with ops := c.ops ++ [o.id] } else c))
  | none =>
    let idle := r.s.noBoundary g
    let passed := !idle && r.s.cyclePassed cycle
    -- a commit dated to a cycle that has passed is late (R409)
    let op := op.map fun o => if passed then { o with late := true, time := some (o.time.getD 0) } else o
    let r := match op with
      | some o => r.opSet o
      | none => r
    let time := op.bind (·.time)
    let late := match op with | some o => o.late | none => false
    let ids := (op.map (·.id)).toList
    if idle && (time.isNone || late) then r.commitDo g ids r.s.now
    else r.up (.commits (r.s.commits ++ [{
      group := g, time := time, byOp := op.isSome, cycle := if passed || idle then none else cycle, ops := ids, late := late }]))

/-- The groups whose bits a write to a COMMIT register sets (R10). HERD_COMMIT with `use_cyc` names a cycle (R409). -/
def Run.writeCommit (r : Run s₀) (a v : Nat) : Run s₀ :=
  let cycle := if a = Reg.herdCommit ∧ bit v 8 then some (r.s.rget64 Reg.herdCommitCycLo Reg.herdCommitCycHi) else none
  r.each ((List.range 32).filter fun i => bit v i) fun r i =>
    match commitGroup a i with
    | some g => r.commitRequest g none cycle
    | none => r

/-- COMMIT_REQUEST: 1 is written to a group's bit (R10). -/
def execCommitRequest (g : Group) (s : State) : Out :=
  let r := Run.start s
  (if commitGroup g.bitAt.1 g.bitAt.2 = some g then r.writeCommit g.bitAt.1 (2 ^ g.bitAt.2) else r).done

/-! ## Acting at a boundary -/

/-- The stated time of a commit has come. -/
def Commit.reached (c : Commit) (now : Nat) : Bool :=
  c.late || (match c.time with | none => true | some t => decide (t ≤ now))

/-- The cycle that a commit names has been reached (R409). -/
def Commit.cycleHere (c : Commit) (no : Nat) : Bool := match c.cycle with
  | some n => decide (n ≤ no)
  | none => true

/-- The pending commits that act at the boundary just issued of grid `g`, whose TB0 time is `k` (R10, R17, R409). -/
def State.commitsHere (s : State) (g k : Nat) : List Commit :=
  s.commits.filter fun c => s.groupGrid c.group == some g && c.reached k && c.cycleHere s.cycNo

/-- They come into use, in the order of their requests. -/
def Run.commitsAt (r : Run s₀) (g k : Nat) : Run s₀ :=
  r.each (r.s.commitsHere g k) fun r c => r.commitDo c.group c.ops k

/-- A group's grid has reached its next boundary, which is not issued yet, and a commit acts there: its TB0 time. The
grids themselves change only after their boundary. -/
def State.commitComing (s : State) (c : Commit) : Option Nat :=
  match c.group, s.groupGrid c.group with
  | .sg _, _ => none
  | .lg _, _ => none
  | _, none => none
  | _, some g =>
    let k := if s.gridBase g = 0 then (s.grid g).next else s.now
    let no := if g = s.cycGrid then (s.grid g).nextIdx else s.cycNo
    if s.gridReached g && c.reached k && c.cycleHere no then some k else none

/-- A pending commit acts: its boundary has come, or its block has no running boundary and its time has come, or the
block's own boundary lies at this instant. -/
def Run.commitApply (r : Run s₀) (g : Group) : Run s₀ :=
  match r.s.commits.find? fun c => c.group == g with
  | none => r
  | some c =>
    if c.due then r.commitDo g c.ops c.boundary
    else if c.reached r.s.now && (r.s.noBoundary g || r.s.atOwnBoundary g) then r.commitDo g c.ops r.s.now
    else match r.s.commitComing c with
      | some k => r.commitDo g c.ops k
      | none => r

/-- COMMIT_APPLY (R10, R11, R15, R17). -/
def execCommitApply (g : Group) (s : State) : Out := ((Run.start s).commitApply g).done

/-! ## COMMIT operations of the units (R10, R17) -/

/-- A COMMIT operation of a unit names a group by its object and payload; the unit refuses an undefined name. -/
def Run.commitOp (r : Run s₀) (o : Op) (g : Option Group) (cycle : Option Nat) : Run s₀ :=
  if r.s.commits.any fun c => c.ops.contains o.id then r
  else match g with
  | some g => r.commitRequest g (some o) cycle
  | none => r.commitFails o r.s.now

def Run.takeTimeCommit (r : Run s₀) (o : Op) : Run s₀ :=
  r.commitOp o (if o.obj < 16 then some (.sg o.obj) else if o.obj < 24 then some (.lg (o.obj - 16))
    else if o.obj = 24 then some .tb0lock else none) none
def Run.takeLeCommit (r : Run s₀) (o : Op) : Run s₀ := r.commitOp o (some (.tr o.obj)) none
def Run.takeAxisCommit (r : Run s₀) (o : Op) : Run s₀ :=
  r.commitOp o (match recNat o.payload 0 1 with
    | 0 => some (.axcfg o.obj) | 1 => some (.axtpl o.obj) | 2 => some (.sd o.obj) | _ => none) none
def Run.takeMotCommit (r : Run s₀) (o : Op) : Run s₀ :=
  r.commitOp o (some (if o.obj < 48 then .mot o.obj else if o.obj < 128 then .vm (o.obj - 64) else .cam (o.obj - 128))) none
def Run.takeAdcCommit (r : Run s₀) (o : Op) : Run s₀ := r.commitOp o (some (.adc o.obj)) none
def Run.takeHerdCommit (r : Run s₀) (o : Op) : Run s₀ :=
  r.commitOp o (some (if o.obj = 0 then .herdcyc else .slot (o.obj - 1)))
    (if bit (recNat o.payload 0 1) 0 then some (recNat o.payload 8 8) else none)
def Run.takeEthCommit (r : Run s₀) (o : Op) : Run s₀ :=
  r.commitOp o (match recNat o.payload 0 1 with
    | 0 => some (.ethcfg o.obj) | 1 => some (.ethgcl o.obj) | _ => none) none
def Run.takeCanCommit (r : Run s₀) (o : Op) : Run s₀ := r.commitOp o (some (.can o.obj)) none
def Run.takeCaptCommit (r : Run s₀) (o : Op) : Run s₀ :=
  r.commitOp o (some (if o.obj < 16 then .capts o.obj else .capttr (o.obj - 64))) none
def Run.takeRedCommit (r : Run s₀) (o : Op) : Run s₀ := r.commitOp o (some .red) none

/-- TIME_COMMIT, LE_COMMIT, AXIS_COMMIT, MOT_COMMIT, ADC_COMMIT, HERD_COMMIT, ETH_COMMIT, CAN_COMMIT, CAPT_COMMIT and
RED_COMMIT: the operation of number `id` is taken by its unit. -/
def execTimeCommit (id : Nat) (s : State) : Out := ((Run.start s).opTake id 13 3 Run.takeTimeCommit).done
def execLeCommit (id : Nat) (s : State) : Out := ((Run.start s).opTake id 0 8 Run.takeLeCommit).done
def execAxisCommit (id : Nat) (s : State) : Out := ((Run.start s).opTake id 1 1 Run.takeAxisCommit).done
def execMotCommit (id : Nat) (s : State) : Out := ((Run.start s).opTake id 2 1 Run.takeMotCommit).done
def execAdcCommit (id : Nat) (s : State) : Out := ((Run.start s).opTake id 8 1 Run.takeAdcCommit).done
def execHerdCommit (id : Nat) (s : State) : Out := ((Run.start s).opTake id 5 1 Run.takeHerdCommit).done
def execEthCommit (id : Nat) (s : State) : Out := ((Run.start s).opTake id 10 1 Run.takeEthCommit).done
def execCanCommit (id : Nat) (s : State) : Out := ((Run.start s).opTake id 9 1 Run.takeCanCommit).done
def execCaptCommit (id : Nat) (s : State) : Out := ((Run.start s).opTake id 4 1 Run.takeCaptCommit).done
def execRedCommit (id : Nat) (s : State) : Out := ((Run.start s).opTake id 14 1 Run.takeRedCommit).done

end Sys2Proof.Machine
end

