-- ==== Sys2Proof/Machine/Bus.lean ====
section
/-!
DEFINITION. Accesses to registers and memory by a requester: writes judged field by field (R4 to R9, R13, R19, R654), the
writes that act at once in their block, reads with their effects (R4 RC, R8, R71), and the rows REGISTER_WRITE, RC_READ and
LOW_WORD_READ.
-/
namespace Sys2Proof.Machine

variable {s₀ : State}

/-! ## Fields (R4, R13, R19, R654) -/

/-- A value that a field takes. -/
def Chk.ok (c : Chk) (v : Nat) : Bool :=
  match c with
  | .any => true
  | .nonzero => v != 0
  | .nonzeroFloat => v % 2 ^ 31 != 0
  | .range lo hi => decide (lo ≤ v ∧ v ≤ hi)
  | .even lo hi => decide (lo ≤ v ∧ v ≤ hi ∧ v % 2 = 0)

/-- The `cfgerr` flag of a block: its EVSTAT register and bit. -/
def RegAt.err (x : RegAt) : Option (Nat × Nat) :=
  match x.blk / 0x10000 with
  | 0x400 => some (Reg.meshEvstat, 7)
  | 0x401 => some (Reg.pwrEvstat, 6)
  | 0x402 => some (Reg.timeEvstat, 5)
  | 0x403 => some (Reg.spEvstat, 4)
  | 0x404 => some (Reg.leEvstat, 0)
  | 0x405 => some (Reg.sigEvstat, 8)
  | 0x406 => some (Reg.captEvstat, 8)
  | 0x407 => some (Reg.herdEvstat, 21)
  | 0x408 => some (Reg.ethEvstat x.inst, 4)
  | 0x40A => some (Reg.canEvstat x.inst, 11)
  | 0x40B => some (Reg.adcEvstat x.inst, 0)
  | 0x40C => some (Reg.sdfEvstat, 2)
  | 0x40D => some (Reg.psEvstat, 6)
  | 0x410 => some (Reg.axEvstat x.inst, 8)
  | 0x414 => some (Reg.motEvstat x.inst, 0)
  | 0x415 => some (Reg.vmEvstat, 0)
  | 0x418 => some (Reg.chmEvstat, 10)
  | 0x419 => some (Reg.bhrEvstat, 12)
  | 0x41A => some (Reg.redEvstat, 9)
  | _ => none

/-- The block of a register refuses a write: `cfgerr`. -/
def Run.cfgerr (r : Run s₀) (x : RegAt) : Run s₀ :=
  match x.err with
  | some (a, i) => r.flag a i
  | none => r

/-- The fields of a register under a write: the new value, and whether a field refused its value. `held` says that the
register's group has a commit pending. -/
def writeFields (old v : Nat) (held : Bool) : List Fld → Nat × Bool
  | [] => (old, false)
  | f :: t =>
    let x := bits v f.hi f.lo
    let (new, bad) := match f.acc with
      | .rw => if f.chk.ok x then (putBits old f.hi f.lo x, false) else (old, true)
      | .rws => if !held && f.chk.ok x then (putBits old f.hi f.lo x, false) else (old, true)
      | .w1c => (putBits old f.hi f.lo (bits old f.hi f.lo &&& (2 ^ (f.hi + 1 - f.lo) - 1 - x)), false)
      | _ => (old, false)
    let (w, b) := writeFields new v held t
    (w, bad || b)

/-- A write that only moves values into fields. -/
def Run.writePlain (r : Run s₀) (x : RegAt) (a v : Nat) : Run s₀ :=
  let held := match x.group with | some g => r.s.committing g | none => false
  let (new, bad) := writeFields (r.s.rget a).toNat v held x.fam.flds
  (r.wr a new).when bad fun r => r.cfgerr x

/-! ## Writes that act in their block -/

/-- The register is a COMMIT register. -/
def isCommit (a : Nat) : Bool := (commitGroup a 0).isSome

/-- The arbiters' counts start again (R553). -/
def Run.nthReset (r : Run s₀) : Run s₀ :=
  r.mapMesh fun m => { m with tgts := m.tgts.map fun e => (e.1, { e.2 with count := 0 }) }

/-- A write of MESH_CFG; a `nth` that is taken restarts the counts (R553). -/
def Run.writeMeshCfg (r : Run s₀) (x : RegAt) (v : Nat) : Run s₀ :=
  (r.writePlain x Reg.meshCfg v).when (Chk.ok (.range 4 64) (bits v 6 0)) Run.nthReset

/-- A write of TIME_TBn_CTRL, whose `disc` is fixed at 0 on every base but TB1 and TB2; a base that comes under PTP servoing keeps its increment of that moment (R426). -/
def Run.writeTbCtrl (r : Run s₀) (x : RegAt) (n v : Nat) : Run s₀ :=
  let was := r.s.rf (Reg.timeTbCtrl n) 1 0
  if ¬(n = 1 ∨ n = 2) then r
  else
  let r := r.writePlain x (Reg.timeTbCtrl n) v
  if was ≠ 1 ∧ r.s.rf (Reg.timeTbCtrl n) 1 0 = 1 then r.discOn (n - 1) else r

/-- A write of SIG_HOT_CFG: the banks are judged by the new level (R214). -/
def Run.writeHotCfg (r : Run s₀) (x : RegAt) (v : Nat) : Run s₀ :=
  (r.writePlain x Reg.sigHotCfg v).each (List.range 16) Run.bankSeen

/-- A write of AXn_CTRL: `out_en`, and `clear`, which acts while every comparator lies within its thresholds (R275, R296). -/
def Run.writeAxCtrl (r : Run s₀) (n v : Nat) : Run s₀ :=
  let r := r.setOutEn n (bit v 0)
  r.when (bit v 1 && r.s.axWithin n) fun r => r.tripEnd n

/-- A write of PS_CFG: `etype` is refused while a UDP or RAW session runs. -/
def Run.writePsCfg (r : Run s₀) (v : Nat) : Run s₀ :=
  let r := r.wf Reg.psCfg 31 16 (bits v 31 16)
  if r.s.psRunning.any fun e => e.2.entry.transport != 0 then r.flag Reg.psEvstat 6 else r.wf Reg.psCfg 15 0 (bits v 15 0)

/-- A write to a register of MESH, PWR or TIME that acts; none for one that only moves values. -/
def Run.writeCore (r : Run s₀) (x : RegAt) (a v : Nat) : Option (Run s₀) :=
  let i := x.i
  if a = Reg.meshCfg then some (r.writeMeshCfg x v)
  else if a = Reg.meshDmaCtrl i then some (if bit v 0 then r.dmaGo i else r)
  else if a = Reg.rstCtrl then some (r.writeRstCtrl v)
  else if a = Reg.timeCtrl then some (r.writeRefinEn v)
  else if a = Reg.timeSnap then some (if bit v 0 then r.snapshot else r)
  else if a = Reg.timeTbCtrl i then some (r.writeTbCtrl x i v)
  else if a = Reg.timeTbIncHi i then some (r.writeIncHi i v)
  else if a = Reg.timeTbAdjctl i then some (r.writeAdjctl i v)
  else if a = Reg.spTCtrl i then some (r.writeSpCtrl i v)
  else if a = Reg.spLock i then some (r.writeSpLock i v)
  else if a = Reg.sigLocateIdx then some (r.writeLocate v)
  else if a = Reg.sigHotCfg then some (r.writeHotCfg x v)
  else if a = Reg.sigDportCmd then some (r.dport (v % 16))
  else if a = Reg.captSRd i then some (r.captRd i v)
  else if a = Reg.evcEoi then some (r.writeEoi v)
  else none

/-- A write to a register of the Herd block, a plant port, a converter, an axis, Chamois or Bharal that acts. -/
def Run.writePort (r : Run s₀) (x : RegAt) (a v : Nat) : Option (Run s₀) :=
  let i := x.i
  let n := x.inst
  if a = Reg.herdHpCtrl i then some (r.herdEnable i v)
  else if a = Reg.ethTxqBaseLo n i ∨ a = Reg.ethTxqBaseHi n i then
    some (if r.s.rb (Reg.ethTxqRing n i) 31 then r.cfgerr x else r.writePlain x a v)
  else if a = Reg.ethRxBaseLo n i ∨ a = Reg.ethRxBaseHi n i then
    some (if r.s.rb (Reg.ethRxRing n i) 31 then r.cfgerr x else r.writePlain x a v)
  else if a = Reg.ethTxqRing n i then some (r.ethRingWrite n i v)
  else if a = Reg.ethRxRing n i then some (r.ethRingWrite n (8 + i) v)
  else if a = Reg.ethTxqTail n i then some (r.ethTailWrite n i v)
  else if a = Reg.ethRxTail n i then some (r.ethTailWrite n (8 + i) v)
  else if a = Reg.ethPtpOffset n then some (r.ptpOffset n v)
  else if a = Reg.canCtrl n then some (if bit v 0 then r.canRecover n else r)
  else if a = Reg.canAck n then some (r.canAck n (v % 128)).1
  else if a = Reg.canObjW0 n i then some (r.canObjWrite n i 0 v)
  else if a = Reg.canObjId n i then some (r.canObjWrite n i 1 v)
  else if a = Reg.canObjDlc n i then some (r.canObjWrite n i 2 v)
  else if a = Reg.canObjSig n i then some (r.canObjWrite n i 4 v)
  else if a = Reg.canObjData n i x.j then some (r.canObjWrite n i (8 + x.j) v)
  else if a = Reg.adcCtrl n then some ((r.writeTrigger n v).writeCalib n v)
  else if a = Reg.adcInj n then some (r.writeInj n v)
  else if a = Reg.adcOwsrc n then some (r.writeOwsrc n v)
  else if a = Reg.axCtrl n then some (r.writeAxCtrl n v)
  else if a = Reg.axDuty n i then some (r.writeDuty n i v)
  else if a = Reg.psCfg then some (r.writePsCfg v)
  else if a = Reg.psTableBaseLo ∨ a = Reg.psTableBaseHi then
    some (if r.s.psRunning.isEmpty then r.writePlain x a v else r.cfgerr x)
  else if a = Reg.chmSps i then some (if r.s.chm.load.isSome then r.cfgerr x else r.writePlain x a v)
  else if a = Reg.chmSpsCmd then some (if bit v 0 then r.spsLoad none else r)
  else if a = Reg.bhrCmd then some (r.writeBhrCmd v)
  else if a = Reg.bhrMbx i then some (if r.s.rb Reg.bhrCmd 15 then r.cfgerr x else r.writePlain x a v)
  else none

/-- A write of a register (R4, R5, R654). -/
def Run.regWrite (r : Run s₀) (a v : Nat) : Run s₀ :=
  match regAt a with
  | none => r
  | some x =>
    let r :=
      if isCommit a then r.writeCommit a v
      else if a < 0x4070000 ∨ a = Reg.evcEoi then (r.writeCore x a v).getD (r.writePlain x a v)
      else (r.writePort x a v).getD (r.writePlain x a v)
    r.evcSync

/-! ## Reads (R4, R8, R71) -/

/-- The register is the low word of a 64-bit register (R8). -/
def pairLow (a : Nat) (x : RegAt) : Bool :=
  let i := x.i
  let n := x.inst
  match x.blk / 0x10000 with
  | 0x401 => a == Reg.pwrHoldLo || a == Reg.pwrPfTsLo
  | 0x402 => a == Reg.timeTbNowLo i || a == Reg.timeSgIdxLo i || a == Reg.timeSgNextLo i
  | 0x406 => a == Reg.captSTrigLo i
  | 0x408 => a == Reg.ethGclBaseLo n || a == Reg.ethGclBaseLoAct n
  | 0x40B => a == Reg.adcDrLo n
  | 0x410 => a == Reg.axPosLo n
  | 0x414 => a == Reg.motHomeposLo n || a == Reg.motHomeposLoAct n || a == Reg.motRefLo n
  | _ => false

/-- A register read: its value, with what the read does. -/
def Run.regRead (r : Run s₀) (a : Nat) : Run s₀ × Word :=
  match regAt a with
  | none => (r, 0)
  | some x =>
    if x.blk = 0x4020000 ∧ a = Reg.timeTrigOut0 x.i then
      let (r, v) := r.readTrigOut x.i
      (r, BitVec.ofNat 32 v)
    else
      let high := decide (4 ≤ a) && (match regAt (a - 4) with | some y => pairLow (a - 4) y | none => false)
      let v := if high then tget (resetOf a) (a - 4) r.s.latch else r.s.regVal a
      let r := if pairLow a x then r.up (.latch a (r.s.regVal (a + 4))) else r
      let rc := x.fam.flds.filter fun f => f.acc == .rc
      (if rc.isEmpty then r else r.wr a (rc.foldl (fun w f => putBits w f.hi f.lo 0) (r.s.rget a).toNat), v)

/-! ## Accesses by a requester -/

/-- A read of `n` bytes by a port: registers are 32 bits wide and aligned (R6); memory otherwise. -/
def Run.busRead (r : Run s₀) (port a n : Nat) : Run s₀ × Status × List Byte :=
  match regionOf a with
  | .regs =>
    if n = 4 ∧ a % 4 = 0 then
      let (r, v) := r.regRead a
      (r, .ok, bytesLE 4 v.toNat)
    else (r.accErr port a false .fault, .fault, [])
  | _ => r.memRead port a n

/-- A write of bytes by a port. -/
def Run.busWrite (r : Run s₀) (port a : Nat) (d : List Byte) : Run s₀ × Status :=
  match regionOf a with
  | .regs =>
    if d.length = 4 ∧ a % 4 = 0 then (r.regWrite a (ofBytesLE d), .ok)
    else (r.accErr port a true .fault, .fault)
  | _ => r.memWrite port a d

/-- Bytes as 32-bit words. -/
def wordsOf (d : List Byte) : List Nat := (List.range (divUp d.length 4)).map fun i => recNat d (4 * i) 4

/-- REGISTER_WRITE: a 32-bit register write by a port (R4 to R9, R13, R19, R654). -/
def execRegisterWrite (port a : Nat) (v : Word) (s : State) : Out :=
  match (Run.start s).busWrite port a (bytesLE 4 v.toNat) with
  | (r, st) => (r.answer st []).done

/-- A register read by a port with its answer. -/
def Run.readAnswer (r : Run s₀) (port a : Nat) : Run s₀ :=
  match r.busRead port a 4 with
  | (r, st, d) => r.answer st (wordsOf d)

/-- RC_READ: a read returns the register and clears its RC fields (R4). -/
def execRcRead (port a : Nat) (s : State) : Out := ((Run.start s).readAnswer port a).done

/-- LOW_WORD_READ: a read of a low word latches the high word (R8). -/
def execLowWordRead (port a : Nat) (s : State) : Out := ((Run.start s).readAnswer port a).done

end Sys2Proof.Machine
end

