-- ==== Sys2Proof/Machine/Mesh.lean ====
section
/-!
DEFINITION. The Mesh and the host (15_mesh_host.md): requests and grants of the arbiters (R545 to R553), the scrubber
(R556), host reads and writes through the BARs (R563, R564), outbound reads without a completion (R565), the link and
PCI configuration space (R566, R574, R622).
-/
namespace Sys2Proof.Machine

variable {s₀ : State}

/-! ## The DDR4 interleave (R559) -/

/-- A place in the DDR4 devices. -/
structure DdrLoc where
  rank : Nat
  row : Nat
  group : Nat
  bank : Nat
  column : Nat
  byte : Nat
deriving DecidableEq, Repr

/-- Row bits of the devices: 15, 16 or 17 for 4, 8 or 16 Gb. -/
def State.ddrRowBits (s : State) : Nat := 15 + s.rf Reg.meshDdrCfg 9 8

/-- The place of offset `o` from 0x01_0000_0000 in devices with `n` row bits; `two`: two ranks are fitted (R559). The
table gives column bits 3 to 9; the burst of 64 bytes is a whole burst of columns 0 to 7. -/
def ddrLocOf (n : Nat) (two : Bool) (o : Nat) : DdrLoc :=
  let row := bits o (16 + n) 17
  { rank := if two then bits o (17 + n) (17 + n) else 0
    row := row
    group := bits o 8 7 ^^^ bits row 1 0
    bank := bits o 10 9 ^^^ bits row 3 2
    column := bits o 6 6 <<< 3 + bits o 16 11 <<< 4
    byte := bits o 5 0 }

/-- The place of a DDR4 address in the devices as MESH_DDR_CFG shows them. -/
def State.ddrLoc (s : State) (a : Nat) : DdrLoc :=
  ddrLocOf s.ddrRowBits (s.rb Reg.meshDdrCfg 5) (a - 0x100000000)

/-! ## Arbitration (R545 to R551) -/

/-- The arbiter of a target port. -/
def State.tgt (s : State) (t : Nat) : MeshTgt := tget {} t s.mesh.tgts
def Run.setTgt (r : Run s₀) (t : Nat) (x : MeshTgt) : Run s₀ := r.mapMesh fun m => { m with tgts := tset {} t x m.tgts }

/-- A burst is 1 to 8 beats of 32 bytes within an aligned 256-byte block (R545). -/
def burstOk (a n : Nat) : Bool := decide (1 ≤ n ∧ a % 256 + n ≤ 256)

/-- Beats of a burst. -/
def MeshReq.beats (q : MeshReq) : Nat := (q.addr + q.len - 1) / 32 - q.addr / 32 + 1

/-- The effective class: the request's class as raised, at most HIGH (R551). -/
def MeshReq.eff (q : MeshReq) : Nat := if q.cls < 2 then min 2 (q.cls + q.raised) else q.cls

/-- A port's blocks are in reset (R552): the SP cluster and the PCIe endpoint with the DMA engine in a warm restart. -/
def State.portMasked (s : State) (p : Nat) : Bool := s.inReset || (s.sp.restart.isSome && (p == 0 || p == 1 || p == 13))

/-- A target's blocks are all in reset: the outbound windows hang on the endpoint (R552, R622). -/
def State.targetMasked (s : State) (t : Nat) : Bool := s.inReset || (s.sp.restart.isSome && t == 13)

/-- A preempted request stays presented with its age; after four in a row its class is raised, from LOW to NORM and, after
four more, from NORM to HIGH (R550, R551, log 61). -/
def Run.preempt (r : Run s₀) (t : Nat) (c : MeshCur) : Run s₀ :=
  let q := c.req
  let up := q.pre + 1 == 4 && decide (q.eff < 2)
  let r := r.count (Reg.meshPStat q.port) 31 16
  let r := r.when up fun r => r.count (Reg.meshPStat q.port) 15 0
  let x := r.s.tgt t
  r.setTgt t { x with
    cur := none, freeAt := r.s.cyc + 3,
    waiting := x.waiting ++ [{ q with pre := if up then 0 else q.pre + 1, raised := if up then q.raised + 1 else q.raised }] }

/-- A request joins those presented to an arbiter; one of class CRIT ends a burst of effective class LOW or NORM that was not
granted under step 1 (R550). -/
def Run.presented (r : Run s₀) (t : Nat) (q : MeshReq) : Run s₀ :=
  let x := r.s.tgt t
  let r := r.setTgt t { x with waiting := x.waiting ++ [{ q with since := r.s.cyc }] }
  match x.cur with
  | some c =>
    if q.cls = 3 ∧ c.req.eff ≤ 1 ∧ !c.first ∧ r.s.cyc < c.start + c.req.beats then r.preempt t c else r
  | none => r

/-- A request is presented to the arbiter of its target, or waits in its port while the port has one presented there (R547,
R552). -/
def Run.present (r : Run s₀) (t : Nat) (q : MeshReq) : Run s₀ :=
  let x := r.s.tgt t
  if x.waiting.any fun w => w.port == q.port then r.setTgt t { x with behind := x.behind ++ [q] } else r.presented t q

/-- The request that a port presents next to a target: the first of its highest class (R547). -/
def MeshTgt.nextBehind (x : MeshTgt) (p : Nat) : Option MeshReq :=
  match argMax (fun i => (x.behind[i]?.map (·.cls)).getD 0)
      ((List.range x.behind.length).filter fun i => (x.behind[i]?.map (·.port)) == some p) with
  | none => none
  | some i => x.behind[i]?

/-- The port of a request that has been granted presents its next one (R547). -/
def Run.presentNext (r : Run s₀) (t p : Nat) : Run s₀ :=
  let x := r.s.tgt t
  if x.waiting.any fun w => w.port == p then r
  else match x.nextBehind p with
    | none => r
    | some q => (r.setTgt t { x with behind := x.behind.erase q }).presented t q

/-- The access of a request. -/
def Run.meshAccess (r : Run s₀) (q : MeshReq) : Run s₀ :=
  if q.wr then
    match r.busWrite q.port q.addr q.data with
    | (r, st) => r.answer st []
  else match r.busRead q.port q.addr q.len with
    | (r, st, d) => r.answer st (wordsOf d)

/-- MESH_REQUEST: a port presents a burst of class `cls` to the target of its address. An address that no port serves is
refused at once (R7); the Mesh's own registers lie behind no arbiter (R571). -/
def execMeshRequest (port cls a n : Nat) (wr : Bool) (d : List Byte) (s : State) : Out :=
  let r := Run.start s
  let q : MeshReq := { port := port, cls := cls, addr := a, len := n, wr := wr, data := d }
  if !(decide (port < 16 ∧ cls ≤ 3) && burstOk a n && (!wr || d.length == n)) then r.done
  else if s.portMasked port then (r.answer .aborted []).done
  else match targetPort a with
    | none => (r.meshAccess q).done
    | some t => if s.targetMasked t then ((r.accErr port a wr .fault).answer .fault []).done else (r.present t q).done

/-- The burst that holds a path has run to its last beat: it takes effect, and the path turns round (R548, R549). -/
def Run.burstEnd (r : Run s₀) (t : Nat) : Run s₀ :=
  let x := r.s.tgt t
  match x.cur with
  | some c =>
    if r.s.cyc < c.start + c.req.beats then r
    else
      let r := r.setTgt t { x with
        cur := none, freeAt := c.start + c.req.beats + 2, count := if c.first then 0 else x.count + 1,
        waiting := x.waiting.map fun w => if w.port = c.req.port then { w with pre := 0 } else w }
      if r.s.portMasked c.req.port then r.answer .aborted [] else r.meshAccess c.req
  | none => r

/-- The oldest request, of equal ones that of the lower port (R549 step 1). -/
def oldest : List MeshReq → Option MeshReq
  | [] => none
  | q :: t => match oldest t with
    | none => some q
    | some b => if b.since < q.since ∨ (b.since = q.since ∧ b.port < q.port) then some b else some q

/-- The highest effective class, round-robin within it (R549 step 2). -/
def MeshTgt.next (x : MeshTgt) : Option MeshReq :=
  match argMax (fun i => (x.waiting[i]?.map (·.eff)).getD 0) (List.range x.waiting.length) with
  | none => none
  | some i =>
    let k := (x.waiting[i]?.map (·.eff)).getD 0
    let last := tget 15 k x.last
    match argMax (fun j => 15 - ((x.waiting[j]?.map (·.port)).getD 0 + 15 - last) % 16)
        ((List.range x.waiting.length).filter fun j => (x.waiting[j]?.map (·.eff)).getD 0 == k) with
    | none => none
    | some j => x.waiting[j]?

/-- The path is free: the next request is granted (R549). -/
def Run.grant (r : Run s₀) (t : Nat) : Run s₀ :=
  let x := r.s.tgt t
  if x.cur.isSome ∨ r.s.cyc < x.freeAt then r
  else
    let first := decide (r.s.rf Reg.meshCfg 6 0 ≤ x.count + 1)
    match (if first then oldest x.waiting else x.next) with
    | none => r
    | some q =>
      let ns := min ((r.s.cyc - q.since) * 5 / 4) 0xFFFF
      let r := r.when first fun r => r.count (Reg.meshPWait q.port) 31 16
      let r := r.wf (Reg.meshPWait q.port) 15 0 (max ns (r.s.rf (Reg.meshPWait q.port) 15 0))
      (r.setTgt t { x with
        waiting := x.waiting.erase q
        cur := some { req := q, start := r.s.cyc, first := first }
        last := if first then x.last else tset 15 q.eff q.port x.last }).presentNext t q.port

/-- MESH_GRANT: the burst in progress at target port `t` ends when its beats have passed, and the arbiter grants the next
request once the path is free. -/
def execMeshGrant (t : Nat) (s : State) : Out := (((Run.start s).burstEnd t).grant t).done

/-- NTH_WRITE: MESH_CFG is written (R553). -/
def execNthWrite (v : Word) (s : State) : Out := ((Run.start s).regWrite Reg.meshCfg v.toNat).done

/-! ## General SRAM (R555) -/

/-- The bank of general SRAM that holds an address; port 10 serves banks 0 to 7 and port 11 banks 8 to 15. -/
def sramBank (a : Nat) : Nat := 8 * bits a 24 24 + bits a 10 8

/-! ## The scrubber (R556) -/

/-- SCRUB_READ: the word at address 8·`w` of general SRAM, an SP memory or DDR4 is read. -/
def execScrubRead (w : Nat) (s : State) : Out :=
  let r := Run.start s
  let here := match regionOf (w * 8) with
    | .sram => true
    | .spI _ => true
    | .spD _ => true
    | .ddr => s.memStatus 12 (w * 8) 8 false == .ok
    | _ => false
  if !here then r.done
  else match s.ecc.find? fun e => e.1 == w with
    | some (_, .single) => (r.eccCorrect w).done
    | some (_, .double) => (r.eccFatal w).done
    | none => r.done

/-! ## The host (R563 to R566, R574, R622) -/

/-- The Mesh address of an offset in a BAR (R563). -/
def State.barAddr (s : State) (bar off : Nat) : Option Nat :=
  match bar with
  | 0 => if off < 2 ^ 24 then some (0x4000000 + off) else none
  | 2 => if off < 2 ^ 26 then some off else none
  | 4 => if off < 2 ^ 28 then some (0x100000000 + s.rf Reg.meshPcieBar4 5 0 * 2 ^ 28 + off) else none
  | _ => none

/-- The link is up. -/
def State.linkUp (s : State) : Bool := s.rb Reg.meshPcieStat 31

/-- The requests of a transfer: one for each aligned 256-byte block (R545). -/
def splits (a n : Nat) : List (Nat × Nat) :=
  (List.range (if n = 0 then 0 else (a + n - 1) / 256 - a / 256 + 1)).map fun i =>
    let lo := if i = 0 then a else (a / 256 + i) * 256
    (lo, min (a + n) ((a / 256 + i + 1) * 256) - lo)

/-- A refused host access (R564). -/
def Run.hostErr (r : Run s₀) (wr : Bool) : Run s₀ :=
  (if wr then r.count Reg.meshPcieErr 31 16 else r.count Reg.meshPcieErr 15 0).flag Reg.meshEvstat 4

/-- HOST_READ: `n` bytes, 1 to 512, at an offset of a BAR. -/
def execHostRead (bar off n : Nat) (s : State) : Out :=
  let r := Run.start s
  match s.barAddr bar off with
  | none => r.done
  | some a =>
    if !s.linkUp ∨ n = 0 ∨ 512 < n then r.done
    else
      let (r, ok, d) := (splits a n).foldl (fun (acc : Run s × Bool × List Byte) e =>
        let (r, ok, d) := acc
        match r.busRead 13 e.1 e.2 with
        | (r, .ok, x) => (r, ok, d ++ x)
        | (r, _, _) => (r, false, d)) (r, true, [])
      if ok then (r.answer .ok (wordsOf d)).done else ((r.hostErr false).answer .fault []).done

/-- HOST_WRITE: bytes, 1 to 256, written at an offset of a BAR; a posted write has no completion. -/
def execHostWrite (bar off : Nat) (d : List Byte) (s : State) : Out :=
  let r := Run.start s
  match s.barAddr bar off with
  | none => r.done
  | some a =>
    if !s.linkUp ∨ d = [] ∨ 256 < d.length then r.done
    else
      let (r, ok) := (splits a d.length).foldl (fun (acc : Run s × Bool) e =>
        let (r, ok) := acc
        match r.busWrite 13 e.1 ((d.drop (e.1 - a)).take e.2) with
        | (r, .ok) => (r, ok)
        | (r, _) => (r, false)) (r, true)
      if ok then r.done else (r.hostErr true).done

/-- OUTBOUND_READ_TIMEOUT: a read of an outbound window by a port receives no completion, or one that refuses it (R565). -/
def execOutboundReadTimeout (port a : Nat) (s : State) : Out :=
  let r := Run.start s
  match regionOf a with
  | .host _ => if s.memStatus port a 1 false == .ok then ((r.accErr port a false .fault).answer .fault []).done else r.done
  | _ => r.done

/-- The link goes up with lanes and generation, or down (R566). -/
def Run.linkSet (r : Run s₀) (up : Bool) (lanes gen : Nat) : Run s₀ :=
  if r.s.linkUp == up then r
  else
    let a := Reg.meshPcieStat
    let r := ((r.wb a 31 up).wf a 18 16 (if up then lanes else 0)).wf a 9 8 (if up then gen else 0)
    r.flag Reg.meshEvstat 3

/-- The endpoint is reset: its link is down, and configuration space holds nothing of what the host wrote; the device's
registers keep their values (R566, R617, R622). -/
def Run.endpointReset (r : Run s₀) : Run s₀ :=
  let r := r.linkSet false 0 0
  (r.wf Reg.meshPcieStat 1 0 0).mapMesh fun m => { m with fnMask := false }

/-- The endpoint is held in reset. -/
def State.endpointHeld (s : State) : Bool := s.inReset || !s.mesh.perstn || s.sp.restart.isSome

/-- PCIE_LINK_CHANGE: the link trains to 1, 2 or 4 lanes at generation 1 to 3, or goes down. -/
def execPcieLinkChange (up : Bool) (lanes gen : Nat) (s : State) : Out :=
  let r := Run.start s
  if !up then (r.linkSet false 0 0).done
  else if s.endpointHeld ∨ !(lanes = 1 ∨ lanes = 2 ∨ lanes = 4) ∨ gen < 1 ∨ 3 < gen then r.done
  else (r.linkSet true lanes gen).done

/-- PCIE_PERST: PCIE_PERSTN takes a level; low resets the endpoint (R622). -/
def execPciePerst (level : Bool) (s : State) : Out :=
  let r := (Run.start s).mapMesh fun m => { m with perstn := level }
  (if level then r else r.endpointReset).done

/-- PCIE_CONFIG_WRITE: the host sets MSI-X enable, the function mask and Bus Master Enable; pending vectors may then send
(R574), which MSIX_SEND shows. -/
def execPcieConfigWrite (msixEn fnMask bme : Bool) (s : State) : Out :=
  let r := Run.start s
  if !s.linkUp then r.done
  else (((r.wb Reg.meshPcieStat 1 msixEn).wb Reg.meshPcieStat 0 bme).mapMesh fun m => { m with fnMask := fnMask }).done

end Sys2Proof.Machine
end

