-- ==== Sys2Proof/Machine/Fabric.lean ====
section
/-!
DEFINITION. What a Herd port does with a received frame (R375 to R379, R384, R385, R395, R396), and the target's side of
transactions (R411 to R413). These reach into every other block, so they stand after all of them.
-/
namespace Sys2Proof.Machine

variable {s₀ : State}

/-! ## The target of a transaction (R411, R412) -/

/-- A read by the Herd as a Mesh requester on port 5, one request for each aligned 256-byte block (R545). -/
def Run.herdRead (r : Run s₀) (a n : Nat) : Run s₀ × Bool × List Byte :=
  (splits a n).foldl (fun (acc : Run s₀ × Bool × List Byte) e =>
    let (r, ok, d) := acc
    if !ok then acc
    else match r.busRead 5 e.1 e.2 with
      | (r, .ok, x) => (r, true, d ++ x)
      | (r, _, _) => (r, false, d)) (r, true, [])

/-- A write likewise. -/
def Run.herdWrite (r : Run s₀) (a : Nat) (d : List Byte) : Run s₀ × Bool :=
  (splits a d.length).foldl (fun (acc : Run s₀ × Bool) e =>
    let (r, ok) := acc
    if !ok then acc
    else match r.busWrite 5 e.1 ((d.drop (e.1 - a)).take e.2) with
      | (r, .ok) => (r, true)
      | (r, _) => (r, false)) (r, true)

/-- A range lies wholly in an enabled window that allows the direction (R412). -/
def State.herdWindow (s : State) (a n : Nat) (wr : Bool) : Bool :=
  (List.range 4).any fun w =>
    let base := (s.rget (Reg.herdWinBase w)).toNat
    let size := s.rf (Reg.herdWinSize w) 29 0
    size != 0 && s.rb (Reg.herdWinSize w) (if wr then 30 else 31) && decide (base ≤ a ∧ a + n ≤ base + size)

/-- A remote SIGRD: values and stamps, then one status byte for each entry (R216, R411). The number of a HIST entry has
no place in the request and is a free value (log 2). -/
def Run.txnSigrd (r : Run s₀) (n mode t : Nat) (d : List Byte) : Run s₀ × List Byte :=
  let idx := (List.range n).map fun k => ofBytesBE ((d.drop (4 * k)).take 4)
  let r := r.each idx fun r i => if i < 0x40000 then r.sigMeet i else r
  let e := r.s.freeVal % 4
  let outs := idx.map fun i => r.s.sigReadMode mode e t i
  let r := if mode = 1 then r.drawn else r
  (r, outs.flatMap (fun x => bytesBE 4 x.val ++ bytesBE 4 x.stamp) ++ outs.map fun x => BitVec.ofNat 8 x.status.code)

/-- A remote SIGWR: writer kind HERD with the source node as instance; one status byte for each entry (R411, R412). -/
def Run.txnSigwr (r : Run s₀) (n src : Nat) (d : List Byte) : Run s₀ × List Byte :=
  (List.range n).foldl (fun (acc : Run s₀ × List Byte) k =>
    let be (o : Nat) : Nat := ofBytesBE ((d.drop (12 * k + o)).take 4)
    if 0x40000 ≤ be 0 then (acc.1, acc.2 ++ [BitVec.ofNat 8 Status.nosuch.code])
    else
      let (r, st) := acc.1.sigWrite { idx := be 0, val := be 4, stamp := be 8, kind := 6, inst := src }
      (r, acc.2 ++ [BitVec.ofNat 8 st.code])) (r, [])

/-- A request is checked and carried out: the first case of R412 that holds. A kind, mode or count out of range is
answered as the requester's own checks and SIG READ answer it (R216, R417). -/
def Run.txnServe (r : Run s₀) (q : TgtReq) : Run s₀ :=
  let d := q.payload
  let be (o n : Nat) : Nat := ofBytesBE ((d.drop o).take n)
  let kind := be 0 1 % 16
  let n := be 2 2
  let a := be 8 8
  let data := d.drop 16
  if 1024 ≤ r.s.herd.replay.length then r.txnAnswered q .busy []
  else if kind < 1 ∨ 4 < kind ∨ (kind ≤ 2 ∧ 2032 < n) ∨ (3 ≤ kind ∧ 64 < n) then r.txnAnswered q .cfgerr []
  else if kind ≤ 2 ∧ !r.s.herdWindow a n (kind == 2) then r.txnAnswered q .denied []
  else if (kind = 3 ∧ !r.s.rb Reg.herdTxnCfg 28) ∨ (kind = 4 ∧ !r.s.rb Reg.herdTxnCfg 29) then r.txnAnswered q .denied []
  else match kind with
    | 1 => match r.herdRead a n with
      | (r, true, x) => r.txnAnswered q .ok x
      | (r, false, _) => r.txnAnswered q .fault []
    | 2 => match r.herdWrite a (data.take n) with
      | (r, true) => r.txnAnswered q .ok []
      | (r, false) => r.txnAnswered q .fault []
    | 3 =>
      if 3 < be 1 1 then r.txnAnswered q .cfgerr []
      else
        let (r, x) := r.txnSigrd n (be 1 1) a data
        r.txnAnswered q .ok x
    | _ =>
      let (r, x) := r.txnSigwr n q.src data
      r.txnAnswered q .ok x

/-- The signals that a SIGRD or SIGWR request names. -/
def TgtReq.signals (q : TgtReq) : List Nat :=
  let be (o n : Nat) : Nat := ofBytesBE ((q.payload.drop o).take n)
  let w := match be 0 1 % 16 with | 3 => 4 | 4 => 12 | _ => 0
  if w = 0 then [] else ((List.range (min 64 (be 2 2))).map fun k => be (16 + w * k) 4).filter fun i => decide (i < 0x40000)

/-- TXN_REQUEST: the target takes the oldest request of its queue (R412), once the banks of the signals that it names can
serve it (R213); one that it has answered before receives the
stored response (R413). -/
def execTxnRequest (s : State) : Out :=
  let r := Run.start s
  match s.herd.tgtQ with
  | [] => r.done
  | q :: rest =>
    if !s.banksOpen q.signals then r.done
    else
    let r := (r.mapHerd fun h => { h with tgtQ := rest }).showTxn
    match r.s.txnStored q.src (txnTag q.payload) with
    | some a => (r.txnReply q.src q.prio a).done
    | none => (r.txnServe q).done

/-! ## Delivery (R377, R384, R385) -/

/-- The entries of an UPDATE frame reach their banks (R384). -/
def Run.herdUpdates (r : Run s₀) (src : Nat) (d : List Byte) : Run s₀ :=
  r.each (List.range (min 64 (d.length / 12))) fun r k =>
    let be (o : Nat) : Nat := ofBytesBE ((d.drop (12 * k + o)).take 4)
    if 0x40000 ≤ be 0 then (r.count Reg.sigUndef 31 0).flag Reg.sigEvstat 2
    else r.sigPush { idx := be 0, val := be 4, stamp := be 8, kind := 6, inst := src }

/-- A routed MGMT frame: the campaign kinds; the rebuild that a CUT asks for is command CUT (R386, R397, R598). -/
def Run.herdMgmt (r : Run s₀) (d : List Byte) : Run s₀ :=
  match (d.head?.map (·.toNat)).getD 0 with
  | 0x10 => r.announce d
  | 0x16 => r.report d
  | 0x17 => r.closeIn d
  | _ => r

/-- A frame is delivered to the block of its class (R377). -/
def Run.herdDeliver (r : Run s₀) (f : HerdFrame) : Run s₀ :=
  let d := f.payload
  match f.cls with
  | 1 =>
    let flow := bits (ofBytesBE (d.take 2)) 11 0
    let r := if r.s.redFlow flow then r.redFrame f.src d else r
    if r.s.psFlow flow then r.psFrameIn 0 0 (fun e => e.peerNode == f.src) (d.drop 2) else r
  | 2 => r.chmSafeFrame f.src d
  | 3 => r.vmReceive f.src d
  | 4 => if bit ((d.head?.map (·.toNat)).getD 0) 7 then r.txnResponse f.src d else r.txnArrive ⟨f.src, f.prio, d⟩
  | 5 => r.herdMgmt d
  | 6 => r.herdUpdates f.src d
  | 7 => r.captFrame f.src d
  | _ => r

/-- A frame with `dup` = 1 that equals the last accepted one in source, class and `seq` (R379). -/
def State.herdDup (s : State) (f : HerdFrame) : Bool :=
  f.dup && tget none (f.src * 16 + f.cls) s.herd.lastSeq == some f.seq

/-- A frame for this node is accepted unless it is a second copy (R379). -/
def Run.herdAccept (r : Run s₀) (f : HerdFrame) : Run s₀ :=
  if r.s.herdDup f then r
  else (r.mapHerd fun h => { h with lastSeq := tset none (f.src * 16 + f.cls) (some f.seq) h.lastSeq }).herdDeliver f

/-! ## Reception (R378, R395, R396) -/

/-- A link-local MGMT kind or a SYNC frame is taken by the port (R378, R386, R398, R598). -/
def Run.herdTake (r : Run s₀) (p : Nat) (f : HerdFrame) (echo : Bool) (t : Nat) : Run s₀ :=
  let d := f.payload
  let kind : Nat := (d.head?.map (·.toNat)).getD 0
  if f.cls = 0 then (if kind = 0 then r.syncReq p d t else if kind = 1 then r.syncResult p d t else r)
  else match kind with
    | 1 => r.hello p d echo
    | 2 => r.claim p d
    | 3 => r.size p d
    | 4 => r.assign p d
    | 0x11 => r.offer p d
    | 0x12 => r.answerIn p d
    | 0x13 => r.dataIn p d
    | 0x14 => r.ackIn p d
    | 0x15 => r.doneIn p d
    | _ => r

/-- `crc_err` rises by 1 (R378). -/
def Run.crcErr (r : Run s₀) (p : Nat) : Run s₀ := (r.count (Reg.herdHpErrcnt p) 31 16).flag Reg.herdEvstat (4 + p)

/-- A wrapped frame for another node: unwrapped where an interval of a port off the ring holds its destination, else on
along the ring, where the node at the far end of the break drops it (R396). -/
def Run.herdWrapped (r : Run s₀) (p : Nat) (ring : Option Nat) (f : HerdFrame) : Run s₀ :=
  match r.s.ivlPort f.dst, ring with
  | some q, some o =>
    if q ≠ o ∧ q ≠ p then r.enqueue q { f with wrap := false } else r.sendOn o f
  | some q, none => if q ≠ p then r.enqueue q { f with wrap := false } else r.herdDrop Reg.herdDropUnr
  | none, some o => r.sendOn o f
  | none, none => r.herdDrop Reg.herdDropUnr

/-- A wrapped broadcast goes on along the ring, and unwrapped copies leave the ring. -/
def Run.herdWrapCast (r : Run s₀) (p : Nat) (ring : Option Nat) (f : HerdFrame) : Run s₀ :=
  let off := (List.range 4).filter fun q => q != p && some q != ring && (r.s.hrole q == 1 || r.s.hrole q == 2)
  let r := r.each off fun r q => r.enqueue q { f with wrap := false }
  match ring with
  | some o => r.sendOn o f
  | none => r

/-- A frame for other nodes is forwarded, with one hop less; one whose frame check fails ends with an error control block
(R378, R395). -/
def Run.herdForward (r : Run s₀) (p : Nat) (ring : Option Nat) (good : Bool) (f : HerdFrame) : Run s₀ :=
  let r := if good then r else r.crcErr p
  if f.hops = 0 then (if f.dst = 0xFFFF then r else r.herdDrop Reg.herdDropHop)
  else
    let f := { f with hops := f.hops - 1, transit := true, bad := !good }
    if f.wrap then (if f.dst = 0xFFFF then r.herdWrapCast p ring f else r.herdWrapped p ring f)
    else if f.dst = 0xFFFF then r.spread (some p) f
    else r.routeFrame f

/-- A received frame: the first case of R378 that holds. -/
def Run.herdReceive (r : Run s₀) (p : Nat) (d : List Byte) (errEnd echo : Bool) (t : Nat) (ring : Option Nat) : Run s₀ :=
  let f := frameOf d
  let len := lenOf d
  if r.s.hlink p < 2 then r
  else if !headOk d then (r.count (Reg.herdHpErrcnt p) 15 8).flag Reg.herdEvstat (4 + p)
  else if 2048 < len ∨ 8 ≤ f.cls ∨ (f.cls = 3 ∧ len ≠ 56) then r.herdDrop Reg.herdDropClass
  else if errEnd ∨ !r.s.mayGo p f then r
  else
    let good := bodyOk d
    if f.cls = 0 ∨ (f.cls = 5 ∧ linkLocalKind ((f.payload.head?.map (·.toNat)).getD 0)) then
      (if good then r.herdTake p f echo t else r.crcErr p)
    else if !r.s.hasId then r
    else if f.dst = r.s.nodeId then (if good then r.herdAccept f else r.crcErr p)
    else if f.dst = 0xFFFF then
      (let r := r.herdForward p ring good f
       if good then r.herdAccept f else r)
    else r.herdForward p ring good f

/-- HERD_FRAME_RECEIVE: port `p` receives the bytes `d` of a frame, whose first block crossed the PCS at `t` (2⁻¹⁶ ns of
TB0). `errEnd`: it ended with an error control block; `echo`: a HELLO that echoes the port's own UID (R373); `ring`: the
node's other port on the ring of `p`, which is a fact of the whole fabric. -/
def execHerdFrameReceive (p : Nat) (d : List Byte) (errEnd echo : Bool) (t : Nat) (ring : Option Nat) (s : State) : Out :=
  ((Run.start s).herdReceive p d errEnd echo t ring).done

end Sys2Proof.Machine
end

