-- ==== Sys2Proof/Machine/Grid.lean ====
section
/-!
DEFINITION. What TB0 and the grids bring about by themselves: a boundary of a grid (R40, R75 to R81, R168), a timed
operation that falls due (R169 to R171), an edge at a stamp channel (R68), and the retry of a role swap (R541).
-/
namespace Sys2Proof.Machine

variable {s₀ : State}

/-- A channel's edge is qualified: its stamp goes to the channel's FIFO and to the trigger units (R68, R465), and it
triggers converters (R347). -/
def Run.trigTake (r : Run s₀) (ch : Nat) (w : TrigWait) : Run s₀ :=
  let (r, st) := r.trigEdge ch w.stamp w.edge
  let r := match st with
    | some x => r.captPin ch x
    | none => r
  r.adcPin ch w.stamp.rising

/-- The glitch filter of a channel lets an edge through once the input has stayed at its new level (R69). -/
def Run.trigDue (r : Run s₀) (ch : Nat) : Run s₀ :=
  match (r.s.trig ch).wait with
  | none => r
  | some w =>
    if w.due ≤ r.s.cyc / 4 then (r.setTrig ch { r.s.trig ch with wait := none }).trigTake ch w else r

/-- TRIG_EDGE: an edge at channel `ch`, at fine code `f` of the present tick. It is stamped now; with a filter it is taken
only if the input stays, and an edge back before that takes both away (R68, R69; log 52). -/
def execTrigEdge (ch : Nat) (rising : Bool) (f : Nat) (s : State) : Out :=
  let r := Run.start s
  if ¬ ch < 9 ∨ ¬ f < 64 then r.done
  else
    let c := s.trig ch
    match c.wait with
    | some w => if w.stamp.rising == rising then r.done else (r.setTrig ch { c with wait := none }).done
    | none =>
      let n := s.rf (Reg.timeTrigCfg ch) 6 4
      let filter := s.rf (Reg.timeTrigCfg ch) 23 16
      let w : TrigWait := ⟨s.mkStamp rising n (s.stampOf ch n f), s.edgeAt f, s.cyc / 4 + filter⟩
      (if filter = 0 then r.trigTake ch w else r.setTrig ch { c with wait := some w }).done

/-- The ports on a TB tick: modulator streams are read (R293), encoder inputs qualified (R289), readiness is looked at (R314),
the segments before a master's current one leave its queue (R326), a latched trigger that no commit holds back any more starts
(R348), and a gate list follows a base that has been moved (R428). -/
def Run.portTick (r : Run s₀) : Run s₀ :=
  let r := (r.sdTick).each (r.s.motion.axes.map (·.1)) Run.encQualify
  let r := r.each (r.s.port.eth.map (·.1)) Run.gclWatch
  let r := r.each (r.s.motion.mots.map (·.1)) Run.motWatch
  let r := r.each (r.s.motion.vms.map (·.1)) fun r m => r.vmPrune m r.s.now
  r.each (r.s.adc.convs.map (·.1)) Run.adcUnlatch

/-- A TB tick (R47, R55): the bases advance and are moved; then what compares or samples them on this tick. -/
def Run.tbTick (r : Run s₀) : Run s₀ :=
  let r := r.tickAll
  let r := r.each (List.range 16) Run.gridPass
  (r.each (List.range 9) Run.trigDue).when r.s.blocksRun Run.portTick

/-- The axes on a grid. -/
def State.axesOn (s : State) (g : Nat) : List Nat := (List.range 48).filter fun n => s.axGrid n == g

/-- The boundary `k` of grid `g` at every block bound to it, in the order of R40: groups come into use (R10); carriers
reload, counts latch and decimation windows close with the axis operations due; conversions and references; the loop
engine; the isochronous cycle with the redundancy group; partner sessions. Where only time and the Herd's forwarding run,
the other blocks do not (R35). -/
def Run.boundaryAt (r : Run s₀) (g k : Nat) : Run s₀ :=
  let v := (r.s.grid g).last
  let r := (r.commitsAt g k).boundaryOps g
  let r := r.when r.s.blocksRun fun r =>
    let r := r.each (r.s.lockAxesOn g) fun r n => r.axLock g n
    let r := r.each (r.s.axesOn g) fun r n => (r.axOps n k).axBoundary n k
    let r := r.adcBoundary g
    let r := r.each (r.s.axesOn g) fun r n => r.motBoundary n k v
    r.leBoundary g
  let r := r.when (r.s.cycOn && r.s.cycGrid == g) fun r => r.herdCycle.redCycle
  r.when r.s.blocksRun fun r => r.psBoundary g

/-- GRID_BOUNDARY: the base of grid `g` has reached its next boundary, which is issued. -/
def execGridBoundary (g : Nat) (_ : Unit) (s : State) : Out :=
  let r := Run.start s
  if ¬ g < 16 ∨ !s.gridReached g then r.done
  else
    let r := r.gridAdvance g
    (r.boundaryAt g (r.s.boundaryTb0 g)).done

/-- TIMED_OP_DUE: TB0 has reached the stated time of operation `id`, which may act from now on (R169). A step that carried
TB0 past the time makes it act with status LATE (R171), and so does an operation that it has to wait for now (R162). -/
def execTimedOpDue (id : Nat) (s : State) : Out :=
  let r := Run.start s
  match s.op id with
  | none => r.done
  | some o => match o.time with
    | none => r.done
    | some t =>
      if o.accepted && !o.acted && !o.late && o.out.isNone && decide (t ≤ s.now) then (r.opSet { o with due := true, held := o.held || (s.opBlocked o && !gridBound o.unit o.code) }).done
      else r.done

/-- SWAP_RETRY: one hour after a cancelled swap the active member of a pair tries again (R541). -/
def execSwapRetry (s : State) : Out :=
  let r := Run.start s
  match s.red.retryAt with
  | none => r.done
  | some t =>
    if s.redOn && !s.redGroup && s.redRole 0 == 4 && decide (t ≤ s.cyc) then
      (r.redSwapStart.mapRed fun x => { x with retryAt := none }).done
    else r.done

end Sys2Proof.Machine
end

