-- ==== Sys2Proof/Machine/Warm.lean ====
section
/-!
DEFINITION. The warm restart (R182, R552, R617) and the debug port (R607, R648).
-/
namespace Sys2Proof.Machine

variable {s₀ : State}

/-! ## Warm restart -/

/-- The Mesh ports whose blocks a warm restart resets: the processors and the endpoint with the DMA engine. -/
def warmPort (p : Nat) : Bool := p == 0 || p == 1 || p == 13

/-- An arbiter loses the requests of blocks in reset, and their burst in progress ends without effect (R550, R552). -/
def MeshTgt.masked (x : MeshTgt) (cyc : Nat) : MeshTgt :=
  let x := { x with
    waiting := x.waiting.filter fun q => !warmPort q.port, behind := x.behind.filter fun q => !warmPort q.port }
  match x.cur with
  | some c => if warmPort c.req.port then { x with cur := none, freeAt := cyc + 3 } else x
  | none => x

/-- What other ports have asked of the endpoint, whose blocks are all in reset, ends with FAULT (R552). -/
def Run.endpointFault (r : Run s₀) : Run s₀ :=
  let x := r.s.tgt 13
  let l := (x.waiting ++ x.behind ++ (x.cur.map (·.req)).toList).filter fun q => !warmPort q.port
  let r := r.each l fun r q => (r.accErr q.port q.addr q.wr .fault).answer .fault []
  if x = {} then r
  else r.setTgt 13 { x with
    waiting := [], behind := [], cur := none, freeAt := if x.cur.isSome then r.s.cyc + 3 else x.freeAt }

/-- WARM_RESTART: a request that is in progress resets the SP cluster, the PCIe endpoint and DMA; the rest runs on. -/
def execWarmRestart (s : State) : Out :=
  let r := Run.start s
  if s.sp.warmAsk.isNone ∨ s.sp.restart.isSome ∨ s.inReset then r.done
  else
    let r := r.spRestart
    let r := r.commitDrop ((r.s.sp.ops.filter fun o => o.out.isSome).map (·.id))
    let r := r.endpointReset.mapMesh fun m => { m with dma := [] }
    let r := r.endpointFault
    (r.each (List.range 16) fun r t => if r.s.tgt t = {} then r else r.setTgt t ((r.s.tgt t).masked s.cyc)).done

/-! ## The debug port -/

/-- The level that a debug token has unlocked: 0 none. -/
def State.debugLvl (s : State) : Nat := s.rf Reg.bhrStat 26 25

/-- The level from which the debug port carries out a function (R607, R648). -/
def tapLevel : TapFn → Nat
  | .idcode => 0
  | .bypass => 0
  | .sample => 2
  | .extest => 2
  | .halt _ => 1
  | .step _ => 1
  | .run _ => 1
  | .inspect _ => 1
  | .meshRead _ => 2
  | .meshWrite _ _ => 2

/-- A thread is held from issuing, goes on, or issues one instruction. -/
def Run.dbgThread (r : Run s₀) (t : Nat) (hold step : Bool) : Run s₀ :=
  if t < 64 then r.setThread t { r.s.thread t with dbgHold := hold, dbgStep := step } else r

/-- What a thread shows to the debug port: state, pc and predicates as one word each, then the registers, low word first. -/
def State.dbgWords (s : State) (t : Nat) : List Nat :=
  let x := s.thread t
  [x.state.code, x.pc, x.p.toNat] ++ (List.range 32).flatMap fun i => [x.gr i % 2 ^ 32, x.gr i >>> 32]

/-- DEBUG_TAP_ACCESS: an instruction of the test access port. BYPASS and an instruction whose level is not unlocked pass
TDI to TDO and change nothing; SAMPLE shows pin levels, which the spec does not fix (log 2); EXTEST drives balls, and holds
no state of the device. Mesh access is carried out as a request of port 13, whose rights are the host's (log 47). -/
def execDebugTapAccess (f : TapFn) (s : State) : Out :=
  let r := Run.start s
  if s.debugLvl < tapLevel f then r.done
  else match f with
    | .idcode => (r.answer .ok [0x14896B3F]).done
    | .bypass => r.done
    | .sample => ((r.answer .ok [r.s.freeVal]).drawn).done
    | .extest => r.done
    | .halt t => (r.dbgThread t true false).done
    | .step t => (r.dbgThread t true true).done
    | .run t => (r.dbgThread t false false).done
    | .inspect t => (r.answer .ok (s.dbgWords t)).done
    | .meshRead a => match r.busRead 13 a 4 with
      | (r, st, d) => (r.answer st (wordsOf d)).done
    | .meshWrite a v => match r.busWrite 13 a (bytesLE 4 v) with
      | (r, st) => (r.answer st []).done

end Sys2Proof.Machine
end

