-- ==== Sys2Proof/Machine/Idle.lean ====
section
/-!
DEFINITION. What passes by itself when no command waits: one SYS cycle of the device's clock, 1.25 ns (R30); every
fourth is a TB tick of 5 ns on which all time bases advance (R47).
-/
namespace Sys2Proof.Machine

variable {s₀ : State}

/-- What a cycle finds waiting: a command at the descriptor port whose bank has a place (R189), and errors that Mesh reads
have met in context blocks (R265). -/
def Run.cycleWork (r : Run s₀) : Run s₀ := (r.dportDue.leEccActs).xbatWatch

/-- One SYS cycle: the one that ends counts for the threads (R146), then the next begins. While the device is held in reset,
only the model's count of cycles goes on. -/
def Run.clock (r : Run s₀) : Run s₀ :=
  let r := if r.s.inReset then r else r.spCycle
  let c := r.s.cyc + 1
  let r := r.up (.cyc c)
  if r.s.inReset then r else (if c % 4 = 0 then r.tbTick else r).cycleWork

/-- The state after one SYS cycle without a command. -/
def State.idle (s : State) : Out := ((Run.start s).clock).done

end Sys2Proof.Machine
end

