-- ==== Sys2Proof/Machine/Isa.lean ====
section
/-!
DEFINITION. The Quiser instructions (03_quiser_isa.md, R87 to R139): one row for each group of instructions. A row issues
the instruction at the pc of thread `t` when the processor issues from `t` in this cycle and that instruction belongs to
the row; an illegal word raises its fault under any row.
-/
namespace Sys2Proof.Machine

variable {s₀ : State}

/-! ## Issue (R96 to R99, R116, R136, R139, R147) -/

/-- The instruction retires: the thread takes its results, pc passes the words, and the interval of R139 begins. -/
def Run.retire (r : Run s₀) (t : Nat) (x : Thread) (len cycles : Nat) : Run s₀ :=
  r.setThread t { x with pc := x.pc + len, readyAt := r.s.cyc + cycles }

/-- A precise fault of the instruction at the thread's pc (R136, R137). -/
def Run.isaFault (r : Run s₀) (t : Nat) (c : FaultCode) (addr : Nat) : Run s₀ :=
  r.threadFault t c (r.s.thread t).pc addr 0 false

/-- A fetch of the word at `pc` meets an uncorrectable error (R28, R137). -/
def Run.fetchBad (r : Run s₀) (t pc : Nat) : Run s₀ × Bool := r.eccRead (imemAddr t pc) 4

/-- A thread issues its next instruction if that belongs to row `q`: `act` gets the thread's number, the word and the
extension word (0 without one). An illegal first word is judged before its extension word is fetched (DESIGN CHOICE,
log 55). -/
def Run.issue (r : Run s₀) (t : Nat) (q : QRow) (act : Run s₀ → Nat → Nat → Nat → Run s₀) : Run s₀ :=
  if !(decide (t < 64) && r.s.mayIssue t) then r
  else
    let x := r.s.thread t
    let pc := x.pc
    match x.refused with
    | some a => (r.useSlot t).threadFault t .buserr pc a 0 true
    | none =>
      if 0x40000 ≤ pc then r
      else
        let w := r.s.imem t pc
        match qRow w with
        | none =>
          match (r.useSlot t).fetchBad t pc with
          | (r, true) => r.isaFault t .memecc (imemAddr t pc)
          | (r, false) => r.isaFault t .illegal 0
        | some y =>
          if y ≠ q then r
          else
            match (r.useSlot t).fetchBad t pc with
            | (r, true) => r.isaFault t .memecc (imemAddr t pc)
            | (r, false) =>
              let len := qLen w
              if len = 4 then (if x.guardOk w then act r t w 0 else r.retire t (r.s.thread t) 4 1)
              else if 0x40000 ≤ pc + 4 then r.isaFault t .ifetch (pc + 4)
              else match r.fetchBad t (pc + 4) with
                | (r, true) =>
                  if x.guardOk w then r.isaFault t .memecc (imemAddr t (pc + 4)) else r.retire t (r.s.thread t) 8 2
                | (r, false) =>
                  let ext := r.s.imem t (pc + 4)
                  if !qExtOk w ext then r.isaFault t .illegal 0
                  else if x.guardOk w then act r t w ext
                  else r.retire t (r.s.thread t) 8 2

/-- SEQUENTIAL_FETCH_END: pc has advanced past 0x3_FFFC (R121). -/
def execSequentialFetchEnd (t : Nat) (s : State) : Out :=
  let r := Run.start s
  let x := s.thread t
  if !(decide (t < 64) && s.mayIssue t && decide (0x40000 ≤ x.pc)) then r.done
  else match x.refused with
    | some a => ((r.useSlot t).threadFault t .buserr x.pc a 0 true).done
    | none => ((r.useSlot t).threadFault t .ifetch 0x40000 0x40000 0 false).done

/-! ## Integers, predicates, floating point (R100 to R110, R133 to R135) -/

/-- The instruction writes rd. -/
def Run.toG (r : Run s₀) (t w v len cycles : Nat) : Run s₀ :=
  r.retire t ((r.s.thread t).setG (qRd w) (v % 2 ^ 64)) len cycles

/-- The instruction writes the predicate in its rd field. -/
def Run.toP (r : Run s₀) (t w : Nat) (b : Bool) (cycles : Nat) : Run s₀ :=
  r.retire t ((r.s.thread t).setP (bits w 19 17) b) 4 cycles

/-- rs1 and rs2. -/
def State.a1 (s : State) (t w : Nat) : Nat := (s.thread t).gr (qRs1 w)
def State.a2 (s : State) (t w : Nat) : Nat := (s.thread t).gr (qRs2 w)

def Run.isaIntAlu (r : Run s₀) (t w _ : Nat) : Run s₀ :=
  r.toG t w (intAlu (qF7 w) (r.s.a1 t w) (r.s.a2 t w)) 4 (intCycles (qF7 w))
def Run.isaIntImm (r : Run s₀) (t w _ : Nat) : Run s₀ := r.toG t w (intImm (qMajor w) (r.s.a1 t w) w) 4 1
def Run.isaCmp (r : Run s₀) (t w _ : Nat) : Run s₀ := r.toP t w (qCond (qF7 w) (r.s.a1 t w) (r.s.a2 t w)) 1
def Run.isaCmpi (r : Run s₀) (t w _ : Nat) : Run s₀ :=
  r.toP t w (qCond (qMajor w - 6) (r.s.a1 t w) (u64 (qImm12 w))) 1
def Run.isaPredLogic (r : Run s₀) (t w _ : Nat) : Run s₀ :=
  let x := r.s.thread t
  r.toP t w (qPred (qF7 w) (x.pr (bits w 14 12)) (x.pr (bits w 9 7))) 1

/-- The result of a floating-point instruction in format `f`, the other format being `g` (R106 to R109). `d` is rd. -/
def floatResult (f g : FFmt) (op a b d : Nat) : Nat :=
  match op with
  | 0x00 => f.add a b
  | 0x01 => f.sub a b
  | 0x02 => f.mul a b
  | 0x03 => f.div a b
  | 0x04 => f.sqrt a
  | 0x05 => f.fma d a b
  | 0x06 => f.min a b
  | 0x07 => f.max a b
  | 0x08 => f.abs a
  | 0x09 => f.neg a
  | 0x0A => u64 (f.toInt64 a)
  | 0x0B => f.ofInt (sInt 64 a)
  | 0x0C => g.conv f a
  | _ => f.classify a

/-- Cycles of a floating-point instruction (R139). -/
def floatCycles (op : Nat) (wide : Bool) : Nat :=
  match op with
  | 0x02 => 5
  | 0x05 => 5
  | 0x03 => if wide then 24 else 14
  | 0x04 => if wide then 28 else 16
  | _ => 4

/-- An operand in a format: binary32 lies in bits [31:0] (R92). -/
def narrow (wide : Bool) (v : Nat) : Nat := if wide then v else v % 2 ^ 32

def Run.isaFloatOp (r : Run s₀) (t w _ : Nat) : Run s₀ :=
  let wide := bit w 6
  let op := bits w 5 0
  let f := if wide then f64 else f32
  let g := if wide then f32 else f64
  let a := r.s.a1 t w
  let a := if op = 0x0B then a else narrow (if op = 0x0C then !wide else wide) a
  let v := floatResult f g op a (narrow wide (r.s.a2 t w)) (narrow wide ((r.s.thread t).gr (qRd w)))
  r.toG t w v 4 (floatCycles op wide)

def Run.isaFcmp (r : Run s₀) (t w _ : Nat) : Run s₀ :=
  let wide := bit w 6
  let f := if wide then f64 else f32
  let a := narrow wide (r.s.a1 t w)
  let b := narrow wide (r.s.a2 t w)
  r.toP t w (match bits w 5 0 with
    | 0 => f.eq a b
    | 1 => f.lt a b
    | 2 => f.le a b
    | _ => f.isNan a || f.isNan b) 4

def Run.isaLi (r : Run s₀) (t w ext : Nat) : Run s₀ := r.toG t w (u64 (sInt 32 ext)) 8 2
def Run.isaLih (r : Run s₀) (t w ext : Nat) : Run s₀ :=
  r.toG t w (ext <<< 32 + (r.s.thread t).gr (qRd w) % 2 ^ 32) 8 2

/-- `cyc`: SYS cycles since the cluster last left reset (R88). -/
def State.spCyc (s : State) : Nat := s.cyc - s.sp.cyc0

def Run.isaMfs (r : Run s₀) (t w _ : Nat) : Run s₀ :=
  r.toG t w (match qRs1 w with
    | 0 => r.s.seenTime 0
    | 1 => t
    | _ => r.s.spCyc) 4 1
def Run.isaMfp (r : Run s₀) (t w _ : Nat) : Run s₀ := r.toG t w ((r.s.thread t).p.toNat ||| 1) 4 1
def Run.isaMtp (r : Run s₀) (t w _ : Nat) : Run s₀ :=
  r.retire t { r.s.thread t with p := BitVec.ofNat 8 (r.s.a1 t w ||| 1) } 4 1
def Run.isaNop (r : Run s₀) (t _ _ : Nat) : Run s₀ := r.retire t (r.s.thread t) 4 1
def Run.isaTrap (r : Run s₀) (t w _ : Nat) : Run s₀ :=
  r.threadFault t .trap (r.s.thread t).pc 0 (bits w 11 0) false

/-- `halt` (R145); the pc stays at it (DESIGN CHOICE, log 55). -/
def Run.isaHalt (r : Run s₀) (t _ _ : Nat) : Run s₀ := (r.flag Reg.spEvstat 1).threadEnd t .halted

/-- `yield` waits for the threads of the processor that were ready in its cycle (R149). -/
def Run.isaYield (others : List Nat) (r : Run s₀) (t _ _ : Nat) : Run s₀ :=
  r.retire t { r.s.thread t with wait := if others.isEmpty then .none else .yield others } 4 1

/-! ## Branches (R120, R121) -/

/-- A branch to a target given as an integer; `link` writes pc + 4 to rd. -/
def Run.branch (r : Run s₀) (t w : Nat) (target : Int) (link : Bool) : Run s₀ :=
  let x := r.s.thread t
  if target < 0 ∨ 0x3FFFC < target then r.isaFault t .ifetch (u64 target)
  else if target % 4 ≠ 0 then r.isaFault t .misalign target.toNat
  else
    let x := if link then x.setG (qRd w) (x.pc + 4) else x
    r.setThread t { x with pc := target.toNat, readyAt := r.s.cyc + 1 }

def Run.isaBr (r : Run s₀) (t w _ : Nat) : Run s₀ := r.branch t w ((r.s.thread t).pc + 4 * qOff22 w) false
def Run.isaCall (r : Run s₀) (t w _ : Nat) : Run s₀ := r.branch t w ((r.s.thread t).pc + 4 * qOff17 w) true
def Run.isaJr (r : Run s₀) (t w _ : Nat) : Run s₀ :=
  r.branch t w (((r.s.a1 t w + u64 (qImm12 w)) % 2 ^ 64 : Nat) : Int) true

/-! ## Loads and stores (R111 to R116) -/

/-- Bytes of an access. -/
def accSize (major : Nat) : Nat :=
  match major with
  | 0x14 => 1 | 0x15 => 1 | 0x1B => 1
  | 0x16 => 2 | 0x17 => 2 | 0x1C => 2
  | 0x18 => 4 | 0x19 => 4 | 0x1D => 4
  | _ => 8

/-- The value that a load writes to rd. -/
def loadVal (major v : Nat) : Nat :=
  match major with
  | 0x14 => u64 (sInt 8 v)
  | 0x16 => u64 (sInt 16 v)
  | 0x18 => u64 (sInt 32 v)
  | _ => v

/-- The checks of R112 before the access. -/
def eaFault (a n : Nat) : Option FaultCode :=
  if 2 ^ 40 ≤ a then some .buserr else if a % n ≠ 0 then some .misalign else none

/-- Cycles of a load through the Mesh (R655): fixed, or a free value within the bound of its target (log 2). -/
def State.loadCycles (s : State) (a : Nat) : Nat :=
  match regionOf a with
  | .regs => 1 + s.freeVal % 64
  | .ddr =>
    let ns := 64 * s.rf Reg.meshDdrTim 31 16 / 1000 + s.rf Reg.meshDdrTim 15 0 + 25
    24 + s.freeVal % (ns * 4 / 5 + 1)
  | .host _ => 1 + s.freeVal % 40000000
  | .sigRaw => 24 + s.bankWait (s.recIndex (a / 8))
  | _ => 24

def Run.isaLoad (r : Run s₀) (t w _ : Nat) : Run s₀ :=
  let x := r.s.thread t
  let n := accSize (qMajor w)
  let a := x.ea w
  match eaFault a n with
  | some c => r.isaFault t c (a % 2 ^ 40)
  | none =>
    if ownDmem t a then
      match r.eccRead a n with
      | (r, true) => r.isaFault t .memecc a
      | (r, false) => r.toG t w (loadVal (qMajor w) (r.s.memNat a n)) 4 3
    else
      let c := r.s.loadCycles a
      match r.drawn.busRead (t / 32) a n with
      | (r, .ok, d) => r.toG t w (loadVal (qMajor w) (ofBytesLE d)) 4 c
      | (r, _, _) => r.isaFault t .buserr a

def Run.isaStore (r : Run s₀) (t w _ : Nat) : Run s₀ :=
  let x := r.s.thread t
  let n := accSize (qMajor w)
  let a := x.ea w
  let d := bytesLE n (x.gr (qRd w))
  match eaFault a n with
  | some c => r.isaFault t c (a % 2 ^ 40)
  | none =>
    if ownDmem t a then
      match r.memWrite (t / 32) a d with
      | (r, .ok) => r.retire t (r.s.thread t) 4 1
      | (r, _) => r.isaFault t .memecc a
    else r.retire t { x with posted := x.posted ++ [{ addr := a, data := d }] } 4 1

/-- The window of a posted store: its memory, or its block's registers (R114). -/
def windowOf (a : Nat) : Region × Nat :=
  match regionOf a with
  | .regs => (.regs, a / 0x10000)
  | x => (x, 0)

/-- The posted store `i` of thread `t` reaches its target, unless an earlier one to the same window is still on its way
(R114); the second component is the answer of the Mesh. -/
def Run.postedGo (r : Run s₀) (t i : Nat) : Option (Run s₀ × Status × Posted) :=
  let x := r.s.thread t
  match x.posted[i]? with
  | none => none
  | some q =>
    if (x.posted.take i).any fun p => windowOf p.addr == windowOf q.addr then none
    else
      let (r, st) := r.busWrite (t / 32) q.addr q.data
      let x := r.s.thread t
      some (r.setThread t { x with posted := x.posted.eraseIdx i }, st, q)

/-- STORE_ACK: the write has taken effect, and the thread is told (R114). -/
def execStoreAck (t i : Nat) (s : State) : Out :=
  match (Run.start s).postedGo t i with
  | some (r, .ok, _) => (r.spWake t).done
  | _ => (Run.start s).done

/-- STORE_REFUSED: the Mesh refuses a posted store; the thread raises BUSERR at its next issue (R116). -/
def execStoreRefused (t i : Nat) (s : State) : Out :=
  match (Run.start s).postedGo t i with
  | some (r, st, q) =>
    if st = .ok then (Run.start s).done
    else
      let x := r.s.thread t
      if q.orphan ∨ x.refused.isSome then (r.spWake t).done
      else ((r.setThread t { x with refused := some q.addr }).spWake t).done
  | none => (Run.start s).done

/-! ## Signal instructions (R117 to R119) -/

/-- The signal index: from rs1, or from the extension word. -/
def State.sigIndex (s : State) (t w ext : Nat) : Nat := if qMajor w = 0x33 then ext % 2 ^ 18 else s.a1 t w

/-- The result of a signal instruction (R118), after 12 cycles and what its request waits in the bank (R139, R211). -/
def Run.sigDone (r : Run s₀) (t w : Nat) (st : Status) (v : Nat) (wait : Nat) : Run s₀ :=
  let x := (r.s.thread t).setP (bits w 6 4) (st == .ok)
  let x := x.setG (qRd w) (if st = .ok then v else st.code)
  r.retire t x (qLen w) (12 + wait)

/-- A signal read: mode 0 newest, 1 history, 2 holding, 3 interpolating. -/
def Run.isaSigRead (mode : Nat) (r : Run s₀) (t w ext : Nat) : Run s₀ :=
  let i := r.s.sigIndex t w ext
  if 2 ^ 18 ≤ i then r.sigDone t w .nosuch 0 0
  else
    let k := r.s.bankWait i
    let r := r.sigMeet i
    let b := r.s.a2 t w
    let o := r.s.sigReadMode mode (b % 4) b i
    r.sigDone t w o.status (o.stamp <<< 32 + o.val) k

/-- A signal write with a stamp. -/
def Run.isaSigWrite (given : Bool) (r : Run s₀) (t w ext : Nat) : Run s₀ :=
  let i := r.s.sigIndex t w ext
  let b := r.s.a2 t w
  let stamp := if given then b >>> 32 else r.s.now32
  if 2 ^ 18 ≤ i then r.sigDone t w .nosuch 0 0
  else match r.sigWrite { idx := i, val := b % 2 ^ 32, stamp := stamp, kind := 1, inst := t } with
    | (r', st) => r'.sigDone t w st stamp (r.s.bankWait i)

/-! ## Operations and handles (R122 to R129) -/

/-- An operation issues (R123): `len` bytes of words from pc, the word `w` of the `op`, its extension word. -/
def Run.opIssue (r : Run s₀) (t w ext len : Nat) (time : Option Nat) : Run s₀ :=
  let x := r.s.thread t
  let k := qKd w
  if (x.handle k).isPending then r.isaFault t .handle 0
  else
    let obj := if qMajor w = 0x32 then ext else x.gr (qRo w) % 2 ^ 32
    if 15 ≤ qUnit w then
      r.retire t (x.setHandle k (.done { status := .nosuch, unit := qUnit w, stamp := r.s.now32, obj := obj })) len 2
    else
      let id := r.s.sp.nextOp
      let r := r.mapSp fun p => { p with
        nextOp := id + 1
        ops := p.ops ++ [{ id := id, tid := t, k := k, unit := qUnit w, obj := obj, rdesc := x.gr (qRdesc w), time := time }] }
      r.retire t (x.setHandle k (.pending id)) len 2

def Run.isaOp (r : Run s₀) (t w _ : Nat) : Run s₀ := r.opIssue t w 0 4 none
def Run.isaOpx (r : Run s₀) (t w ext : Nat) : Run s₀ := r.opIssue t w ext 8 none

/-- `at` with the operation that follows it (R125). At 0x3_FFFC the fetch of what follows fails, with the pc of `at`
(DESIGN CHOICE, log 55). -/
def Run.isaAt (r : Run s₀) (t w _ : Nat) : Run s₀ :=
  let x := r.s.thread t
  let pc := x.pc + 4
  if 0x40000 ≤ pc then r.isaFault t .ifetch pc
  else match r.fetchBad t pc with
    | (r, true) => r.isaFault t .memecc (imemAddr t pc)
    | (r, false) =>
      let w2 := r.s.imem t pc
      let len := qLen w2
      if !qIsOp w2 then r.isaFault t .illegal 0
      else if len = 8 ∧ 0x40000 ≤ pc + 4 then r.isaFault t .ifetch (pc + 4)
      else
        match (if len = 8 then r.fetchBad t (pc + 4) else (r, false)) with
        | (r, true) =>
          if x.guardOk w2 then r.isaFault t .memecc (imemAddr t (pc + 4))
          else r.retire t (r.s.thread t) (4 + len) (1 + len / 4)
        | (r, false) =>
          if !x.guardOk w2 then r.retire t (r.s.thread t) (4 + len) (1 + len / 4)
          else r.opIssue t w2 (if len = 8 then r.s.imem t (pc + 4) else 0) (4 + len) (some (r.s.a1 t w))

/-- The handle number in the rs1 field (R94). -/
def qK (w : Nat) : Nat := bits w 15 12

def Run.isaHstat (r : Run s₀) (t w _ : Nat) : Run s₀ :=
  r.toG t w (match (r.s.thread t).handle (qK w) with
    | .free => 0
    | .pending _ => 1 <<< 8
    | .done c => c.stamp <<< 32 + 2 <<< 8 + c.status.code) 4 1

def Run.isaHrel (r : Run s₀) (t w _ : Nat) : Run s₀ :=
  let x := r.s.thread t
  if (x.handle (qK w)).isPending then r.isaFault t .handle 0
  else r.retire t (x.setHandle (qK w) .free) 4 1

def Run.isaHcan (r : Run s₀) (t w _ : Nat) : Run s₀ :=
  let x := r.s.thread t
  let r := match x.handle (qK w) with
    | .pending id => match r.s.op id with
      | some o => r.opCancel o
      | none => r
    | _ => r
  r.retire t (r.s.thread t) 4 1

def Run.isaHmask (r : Run s₀) (t w _ : Nat) : Run s₀ :=
  let x := r.s.thread t
  r.toG t w (x.pendMask <<< 16 + x.doneMask) 4 1

/-- `wait.any` and `wait.all` (R127, R128). A deadline of 2⁶⁴ is never reached. -/
def Run.isaWait (all : Bool) (r : Run s₀) (t w _ : Nat) : Run s₀ :=
  let x := r.s.thread t
  let m := r.s.a1 t w % 2 ^ 16
  let timeout := r.s.a2 t w
  let pd := bits w 6 4
  let met := x.waitMet all m
  if met ∨ timeout = 0 then
    r.retire t ((x.setP pd met).setG (qRd w) (x.doneMask &&& m)) 4 2
  else
    let deadline := if timeout = 2 ^ 64 - 1 then 2 ^ 64 else min (r.s.now + timeout) (2 ^ 64 - 1)
    r.setThread t { x with wait := .wait all m deadline pd (qRd w), readyAt := r.s.cyc + 2 }

/-- WAIT_TIMEOUT: the tick of a wait's deadline has passed; a completion on that tick still meets the wait (R128). -/
def execWaitTimeout (t : Nat) (s : State) : Out :=
  let r := Run.start s
  let x := s.thread t
  match x.wait with
  | .wait all m deadline pd rd =>
    if deadline < s.now then (r.setThread t (x.waitReturn s.cyc m pd rd (x.waitMet all m))).done else r.done
  | _ => r.done

/-- `fence` and `fence.m` (R129). -/
def Run.isaFence (stores : Bool) (r : Run s₀) (t _ _ : Nat) : Run s₀ :=
  let x := r.s.thread t
  if r.s.fenceMet t stores then r.retire t x 4 2
  else r.setThread t { x with wait := .fence stores, readyAt := r.s.cyc + 2 }

/-! ## Locks (R130 to R132) -/

/-- The lock number. -/
def State.lockNo (s : State) (t w : Nat) : Nat := (s.a1 t w + u64 (qImm12 w)) % 2 ^ 64

/-- `lock` (wait true) and `trylock`. -/
def Run.isaLock (wait : Bool) (r : Run s₀) (t w _ : Nat) : Run s₀ :=
  let n := r.s.lockNo t w
  if 256 ≤ n then r.toG t w Status.nosuch.code 4 2
  else
    let l := r.s.hwlock n
    match l.owner with
    | none =>
      (r.setLock n { owner := some t, waiters := l.waiters }).toG t w (if l.broken then Status.broken.code else Status.ok.code)
        4 2
    | some o =>
      if o = t then r.toG t w Status.refused.code 4 2
      else if !wait then r.toG t w Status.busy.code 4 2
      else
        (r.setLock n { l with waiters := l.waiters ++ [t] }).setThread t
          { r.s.thread t with wait := .lock n (qRd w), readyAt := r.s.cyc + 2 }

def Run.isaUnlock (r : Run s₀) (t w _ : Nat) : Run s₀ :=
  let n := r.s.lockNo t w
  if 256 ≤ n then r.toG t w Status.nosuch.code 4 2
  else if (r.s.hwlock n).owner = some t then (r.toG t w Status.ok.code 4 2).lockRelease n false
  else r.toG t w Status.denied.code 4 2

/-! ## The rows -/

def execIntAlu (t : Nat) (s : State) : Out := ((Run.start s).issue t .intAlu Run.isaIntAlu).done
def execIntImm (t : Nat) (s : State) : Out := ((Run.start s).issue t .intImm Run.isaIntImm).done
def execCmp (t : Nat) (s : State) : Out := ((Run.start s).issue t .cmp Run.isaCmp).done
def execCmpi (t : Nat) (s : State) : Out := ((Run.start s).issue t .cmpi Run.isaCmpi).done
def execPredLogic (t : Nat) (s : State) : Out := ((Run.start s).issue t .predLogic Run.isaPredLogic).done
def execFloatOp (t : Nat) (s : State) : Out := ((Run.start s).issue t .floatOp Run.isaFloatOp).done
def execFcmp (t : Nat) (s : State) : Out := ((Run.start s).issue t .fcmp Run.isaFcmp).done
def execMemLoad (t : Nat) (s : State) : Out := ((Run.start s).issue t .load Run.isaLoad).done
def execMemStore (t : Nat) (s : State) : Out := ((Run.start s).issue t .store Run.isaStore).done
def execSigrd (t : Nat) (s : State) : Out := ((Run.start s).issue t .sigrd (Run.isaSigRead 0)).done
def execSigwr (t : Nat) (s : State) : Out := ((Run.start s).issue t .sigwr (Run.isaSigWrite false)).done
def execSigwrt (t : Nat) (s : State) : Out := ((Run.start s).issue t .sigwrt (Run.isaSigWrite true)).done
def execSigasH (t : Nat) (s : State) : Out := ((Run.start s).issue t .sigasH (Run.isaSigRead 2)).done
def execSigasI (t : Nat) (s : State) : Out := ((Run.start s).issue t .sigasI (Run.isaSigRead 3)).done
def execSighist (t : Nat) (s : State) : Out := ((Run.start s).issue t .sighist (Run.isaSigRead 1)).done
def execBr (t : Nat) (s : State) : Out := ((Run.start s).issue t .br Run.isaBr).done
def execCall (t : Nat) (s : State) : Out := ((Run.start s).issue t .call Run.isaCall).done
def execJr (t : Nat) (s : State) : Out := ((Run.start s).issue t .jr Run.isaJr).done
def execOp (t : Nat) (s : State) : Out := ((Run.start s).issue t .op Run.isaOp).done
def execOpx (t : Nat) (s : State) : Out := ((Run.start s).issue t .opx Run.isaOpx).done
def execAt (t : Nat) (s : State) : Out := ((Run.start s).issue t .atT Run.isaAt).done
def execHstat (t : Nat) (s : State) : Out := ((Run.start s).issue t .hstat Run.isaHstat).done
def execHrel (t : Nat) (s : State) : Out := ((Run.start s).issue t .hrel Run.isaHrel).done
def execHcan (t : Nat) (s : State) : Out := ((Run.start s).issue t .hcan Run.isaHcan).done
def execHmask (t : Nat) (s : State) : Out := ((Run.start s).issue t .hmask Run.isaHmask).done
def execWaitAny (t : Nat) (s : State) : Out := ((Run.start s).issue t .waitAny (Run.isaWait false)).done
def execWaitAll (t : Nat) (s : State) : Out := ((Run.start s).issue t .waitAll (Run.isaWait true)).done
def execFence (t : Nat) (s : State) : Out := ((Run.start s).issue t .fence (Run.isaFence false)).done
def execFenceM (t : Nat) (s : State) : Out := ((Run.start s).issue t .fenceM (Run.isaFence true)).done
def execLock (t : Nat) (s : State) : Out := ((Run.start s).issue t .lock (Run.isaLock true)).done
def execTrylock (t : Nat) (s : State) : Out := ((Run.start s).issue t .trylock (Run.isaLock false)).done
def execUnlock (t : Nat) (s : State) : Out := ((Run.start s).issue t .unlock Run.isaUnlock).done
def execNop (t : Nat) (s : State) : Out := ((Run.start s).issue t .nop Run.isaNop).done
def execYield (t : Nat) (s : State) : Out :=
  ((Run.start s).issue t .yield (Run.isaYield ((s.readyOf (t / 8)).filter (· != t)))).done
def execHalt (t : Nat) (s : State) : Out := ((Run.start s).issue t .halt Run.isaHalt).done
def execMfs (t : Nat) (s : State) : Out := ((Run.start s).issue t .mfs Run.isaMfs).done
def execMfp (t : Nat) (s : State) : Out := ((Run.start s).issue t .mfp Run.isaMfp).done
def execMtp (t : Nat) (s : State) : Out := ((Run.start s).issue t .mtp Run.isaMtp).done
def execTrap (t : Nat) (s : State) : Out := ((Run.start s).issue t .trap Run.isaTrap).done
def execLi (t : Nat) (s : State) : Out := ((Run.start s).issue t .li Run.isaLi).done
def execLih (t : Nat) (s : State) : Out := ((Run.start s).issue t .lih Run.isaLih).done

end Sys2Proof.Machine
end

