-- ==== Sys2Proof/Machine/Dispatch.lean ====
section
/-!
DEFINITION. The dispatch: one arm for each command, each one direct call of the command's meaning.
-/
namespace Sys2Proof.Machine

def exec (i : Instr) (s : State) : Host.Outcome State Fault Refusal :=
  match i with
  | .registerWrite port a v => Sys2Proof.Machine.execRegisterWrite port a v s
  | .rcRead port a => Sys2Proof.Machine.execRcRead port a s
  | .lowWordRead port a => Sys2Proof.Machine.execLowWordRead port a s
  | .commitRequest g => Sys2Proof.Machine.execCommitRequest g s
  | .commitApply g => Sys2Proof.Machine.execCommitApply g s
  | .meshRequest port cls a n wr d => Sys2Proof.Machine.execMeshRequest port cls a n wr d s
  | .meshGrant t => Sys2Proof.Machine.execMeshGrant t s
  | .nthWrite v => Sys2Proof.Machine.execNthWrite v s
  | .scrubRead w => Sys2Proof.Machine.execScrubRead w s
  | .refinLoss => Sys2Proof.Machine.execRefinLoss s
  | .refinReturn => Sys2Proof.Machine.execRefinReturn s
  | .refinEnWrite v => Sys2Proof.Machine.execRefinEnWrite v s
  | .tbPllUnlock => Sys2Proof.Machine.execTbPllUnlock s
  | .incHiWrite n v => Sys2Proof.Machine.execIncHiWrite n v s
  | .timeAdjGo n v => Sys2Proof.Machine.execTimeAdjGo n v s
  | .slewEnd n => Sys2Proof.Machine.execSlewEnd n s
  | .timeSnapWrite v => Sys2Proof.Machine.execTimeSnapWrite v s
  | .trigEdge ch rising f => Sys2Proof.Machine.execTrigEdge ch rising f s
  | .trigOut0Read ch => Sys2Proof.Machine.execTrigOut0Read ch s
  | .ppsOutPulse => Sys2Proof.Machine.execPpsOutPulse s
  | .ppsPulseEnd => Sys2Proof.Machine.execPpsPulseEnd s
  | .gridBoundary g sd => Sys2Proof.Machine.execGridBoundary g sd s
  | .timedOpDue id => Sys2Proof.Machine.execTimedOpDue id s
  | .holdoverLimit => Sys2Proof.Machine.execHoldoverLimit s
  | .syncIntervalsMissed => Sys2Proof.Machine.execSyncIntervalsMissed s
  | .timeSnap id => Sys2Proof.Machine.execTimeSnap id s
  | .timeAdjust id => Sys2Proof.Machine.execTimeAdjust id s
  | .timeCommit id => Sys2Proof.Machine.execTimeCommit id s
  | .timeBoundary id => Sys2Proof.Machine.execTimeBoundary id s
  | .intAlu t => Sys2Proof.Machine.execIntAlu t s
  | .intImm t => Sys2Proof.Machine.execIntImm t s
  | .cmp t => Sys2Proof.Machine.execCmp t s
  | .cmpi t => Sys2Proof.Machine.execCmpi t s
  | .predLogic t => Sys2Proof.Machine.execPredLogic t s
  | .floatOp t => Sys2Proof.Machine.execFloatOp t s
  | .fcmp t => Sys2Proof.Machine.execFcmp t s
  | .memLoad t => Sys2Proof.Machine.execMemLoad t s
  | .memStore t => Sys2Proof.Machine.execMemStore t s
  | .storeAck t ix => Sys2Proof.Machine.execStoreAck t ix s
  | .storeRefused t ix => Sys2Proof.Machine.execStoreRefused t ix s
  | .sigrd t => Sys2Proof.Machine.execSigrd t s
  | .sigwr t => Sys2Proof.Machine.execSigwr t s
  | .sigwrt t => Sys2Proof.Machine.execSigwrt t s
  | .sigasH t => Sys2Proof.Machine.execSigasH t s
  | .sigasI t => Sys2Proof.Machine.execSigasI t s
  | .sighist t => Sys2Proof.Machine.execSighist t s
  | .br t => Sys2Proof.Machine.execBr t s
  | .call t => Sys2Proof.Machine.execCall t s
  | .jr t => Sys2Proof.Machine.execJr t s
  | .sequentialFetchEnd t => Sys2Proof.Machine.execSequentialFetchEnd t s
  | .op t => Sys2Proof.Machine.execOp t s
  | .opx t => Sys2Proof.Machine.execOpx t s
  | .atT t => Sys2Proof.Machine.execAt t s
  | .opAccept id => Sys2Proof.Machine.execOpAccept id s
  | .opComplete id => Sys2Proof.Machine.execOpComplete id s
  | .hstat t => Sys2Proof.Machine.execHstat t s
  | .hrel t => Sys2Proof.Machine.execHrel t s
  | .hcan t => Sys2Proof.Machine.execHcan t s
  | .hmask t => Sys2Proof.Machine.execHmask t s
  | .waitAny t => Sys2Proof.Machine.execWaitAny t s
  | .waitAll t => Sys2Proof.Machine.execWaitAll t s
  | .waitTimeout t => Sys2Proof.Machine.execWaitTimeout t s
  | .fence t => Sys2Proof.Machine.execFence t s
  | .fenceM t => Sys2Proof.Machine.execFenceM t s
  | .lock t => Sys2Proof.Machine.execLock t s
  | .trylock t => Sys2Proof.Machine.execTrylock t s
  | .unlock t => Sys2Proof.Machine.execUnlock t s
  | .nop t => Sys2Proof.Machine.execNop t s
  | .yield t => Sys2Proof.Machine.execYield t s
  | .halt t => Sys2Proof.Machine.execHalt t s
  | .mfs t => Sys2Proof.Machine.execMfs t s
  | .mfp t => Sys2Proof.Machine.execMfp t s
  | .mtp t => Sys2Proof.Machine.execMtp t s
  | .trap t => Sys2Proof.Machine.execTrap t s
  | .li t => Sys2Proof.Machine.execLi t s
  | .lih t => Sys2Proof.Machine.execLih t s
  | .threadStart t => Sys2Proof.Machine.execThreadStart t s
  | .threadStop t => Sys2Proof.Machine.execThreadStop t s
  | .faultRestart t => Sys2Proof.Machine.execFaultRestart t s
  | .lockForceBreak n => Sys2Proof.Machine.execLockForceBreak n s
  | .warmRestart => Sys2Proof.Machine.execWarmRestart s
  | .warmRestartEnd => Sys2Proof.Machine.execWarmRestartEnd s
  | .sigUpdateApply b => Sys2Proof.Machine.execSigUpdateApply b s
  | .sampleStage => Sys2Proof.Machine.execSampleStage s
  | .ageingVisit ix => Sys2Proof.Machine.execAgeingVisit ix s
  | .bankHot b => Sys2Proof.Machine.execBankHot b s
  | .sigLocateWrite v => Sys2Proof.Machine.execSigLocateWrite v s
  | .dportDefine => Sys2Proof.Machine.execDportDefine s
  | .dportUndefine => Sys2Proof.Machine.execDportUndefine s
  | .dportInfo => Sys2Proof.Machine.execDportInfo s
  | .dportWrite => Sys2Proof.Machine.execDportWrite s
  | .dportWriteNow => Sys2Proof.Machine.execDportWriteNow s
  | .sigDefine id => Sys2Proof.Machine.execSigDefine id s
  | .sigUndefine id => Sys2Proof.Machine.execSigUndefine id s
  | .sigRead id => Sys2Proof.Machine.execSigRead id s
  | .sigWrite id => Sys2Proof.Machine.execSigWrite id s
  | .sigSetroute id => Sys2Proof.Machine.execSigSetroute id s
  | .sigWatch id => Sys2Proof.Machine.execSigWatch id s
  | .sigInfo id => Sys2Proof.Machine.execSigInfo id s
  | .leRelease g => Sys2Proof.Machine.execLeRelease g s
  | .leSample c => Sys2Proof.Machine.execLeSample c s
  | .leStart id => Sys2Proof.Machine.execLeStart id s
  | .leStop id => Sys2Proof.Machine.execLeStop id s
  | .leSwap id => Sys2Proof.Machine.execLeSwap id s
  | .leKick id => Sys2Proof.Machine.execLeKick id s
  | .leResume id => Sys2Proof.Machine.execLeResume id s
  | .leStatus id => Sys2Proof.Machine.execLeStatus id s
  | .leTraceStop id => Sys2Proof.Machine.execLeTraceStop id s
  | .leTraceRearm id => Sys2Proof.Machine.execLeTraceRearm id s
  | .leCommit id => Sys2Proof.Machine.execLeCommit id s
  | .carrierReload n => Sys2Proof.Machine.execCarrierReload n s
  | .pwmCompare n x => Sys2Proof.Machine.execPwmCompare n x s
  | .deadTimeEnd n ix => Sys2Proof.Machine.execDeadTimeEnd n ix s
  | .dutyWrite n ix v => Sys2Proof.Machine.execDutyWrite n ix v s
  | .outEnWrite n v => Sys2Proof.Machine.execOutEnWrite n v s
  | .axClearWrite n v within => Sys2Proof.Machine.execAxClearWrite n v within s
  | .stepIssue n => Sys2Proof.Machine.execStepIssue n s
  | .stepPulseEnd n => Sys2Proof.Machine.execStepPulseEnd n s
  | .standstillReached n => Sys2Proof.Machine.execStandstillReached n s
  | .drvokFall n => Sys2Proof.Machine.execDrvokFall n s
  | .drvokRise n => Sys2Proof.Machine.execDrvokRise n s
  | .reseatStart n => Sys2Proof.Machine.execReseatStart n s
  | .reseatStep n => Sys2Proof.Machine.execReseatStep n s
  | .reseatDone n => Sys2Proof.Machine.execReseatDone n s
  | .encoderEdge n a b => Sys2Proof.Machine.execEncoderEdge n a b s
  | .zEdge n => Sys2Proof.Machine.execZEdge n s
  | .ssiFrameStart n => Sys2Proof.Machine.execSsiFrameStart n s
  | .frameEngineStart n => Sys2Proof.Machine.execFrameEngineStart n s
  | .feedbackFrameEnd n rx => Sys2Proof.Machine.execFeedbackFrameEnd n rx s
  | .feedbackFrameTimeout n => Sys2Proof.Machine.execFeedbackFrameTimeout n s
  | .ocTrip c => Sys2Proof.Machine.execOcTrip c s
  | .sdStuck c => Sys2Proof.Machine.execSdStuck c s
  | .auxEdge n ix level => Sys2Proof.Machine.execAuxEdge n ix level s
  | .auxQualified n ix => Sys2Proof.Machine.execAuxQualified n ix s
  | .axisCommit id => Sys2Proof.Machine.execAxisCommit id s
  | .axisEnable id => Sys2Proof.Machine.execAxisEnable id s
  | .axisClear id within => Sys2Proof.Machine.execAxisClear id within s
  | .axisSetpos id => Sys2Proof.Machine.execAxisSetpos id s
  | .axisStatus id => Sys2Proof.Machine.execAxisStatus id s
  | .axisNotReady n => Sys2Proof.Machine.execAxisNotReady n s
  | .camMiss n => Sys2Proof.Machine.execCamMiss n s
  | .vmSegmentReceive node payload => Sys2Proof.Machine.execVmSegmentReceive node payload s
  | .vmRunout m => Sys2Proof.Machine.execVmRunout m s
  | .motCommit id => Sys2Proof.Machine.execMotCommit id s
  | .motMove id => Sys2Proof.Machine.execMotMove id s
  | .motStop id => Sys2Proof.Machine.execMotStop id s
  | .motHome id => Sys2Proof.Machine.execMotHome id s
  | .motSetref id => Sys2Proof.Machine.execMotSetref id s
  | .motArrive id => Sys2Proof.Machine.execMotArrive id s
  | .motFollow id => Sys2Proof.Machine.execMotFollow id s
  | .motPhase id => Sys2Proof.Machine.execMotPhase id s
  | .motStatus id => Sys2Proof.Machine.execMotStatus id s
  | .motPublish id => Sys2Proof.Machine.execMotPublish id s
  | .motEval id => Sys2Proof.Machine.execMotEval id s
  | .adcSequenceTrigger n => Sys2Proof.Machine.execAdcSequenceTrigger n s
  | .adcTriggerWrite n v => Sys2Proof.Machine.execAdcTriggerWrite n v s
  | .adcCalibWrite n v => Sys2Proof.Machine.execAdcCalibWrite n v s
  | .adcInjWrite n v => Sys2Proof.Machine.execAdcInjWrite n v s
  | .adcOwsrcWrite n v => Sys2Proof.Machine.execAdcOwsrcWrite n v s
  | .adcHold n => Sys2Proof.Machine.execAdcHold n s
  | .adcResult n raw => Sys2Proof.Machine.execAdcResult n raw s
  | .adcMeshResult n => Sys2Proof.Machine.execAdcMeshResult n s
  | .adcCalStart n => Sys2Proof.Machine.execAdcCalStart n s
  | .adcCalEnd n trims => Sys2Proof.Machine.execAdcCalEnd n trims s
  | .owSettleEnd n => Sys2Proof.Machine.execOwSettleEnd n s
  | .adcCommit id => Sys2Proof.Machine.execAdcCommit id s
  | .adcTrigger id => Sys2Proof.Machine.execAdcTrigger id s
  | .adcInject id => Sys2Proof.Machine.execAdcInject id s
  | .adcCalib id => Sys2Proof.Machine.execAdcCalib id s
  | .adcOwdiag id => Sys2Proof.Machine.execAdcOwdiag id s
  | .adcStatus id => Sys2Proof.Machine.execAdcStatus id s
  | .blockLock p alignTx alignRx => Sys2Proof.Machine.execBlockLock p alignTx alignRx s
  | .linkDown p lockLost ring => Sys2Proof.Machine.execLinkDown p lockLost ring s
  | .helloTimeout p ring => Sys2Proof.Machine.execHelloTimeout p ring s
  | .helloSend p => Sys2Proof.Machine.execHelloSend p s
  | .hello p d echo => Sys2Proof.Machine.execHello p d echo s
  | .linkUp p first => Sys2Proof.Machine.execLinkUp p first s
  | .herdFrameReceive p d errEnd echo t ring => Sys2Proof.Machine.execHerdFrameReceive p d errEnd echo t ring s
  | .portTxStart p t => Sys2Proof.Machine.execPortTxStart p t s
  | .isoSlot p ix t => Sys2Proof.Machine.execIsoSlot p ix t s
  | .electionStart => Sys2Proof.Machine.execElectionStart s
  | .claim p d => Sys2Proof.Machine.execClaim p d s
  | .electionEnd resting blocked => Sys2Proof.Machine.execElectionEnd resting blocked s
  | .size p d => Sys2Proof.Machine.execSize p d s
  | .assign p d => Sys2Proof.Machine.execAssign p d s
  | .idFailRetry => Sys2Proof.Machine.execIdFailRetry s
  | .cut ring parent ivls => Sys2Proof.Machine.execCut ring parent ivls s
  | .syncReqSend p => Sys2Proof.Machine.execSyncReqSend p s
  | .syncReq p d t => Sys2Proof.Machine.execSyncReq p d t s
  | .syncResult p d t => Sys2Proof.Machine.execSyncResult p d t s
  | .pathLoss => Sys2Proof.Machine.execPathLoss s
  | .txnRequest => Sys2Proof.Machine.execTxnRequest s
  | .txnResponse src d => Sys2Proof.Machine.execTxnResponse src d s
  | .txnRetryTimeout tag dest => Sys2Proof.Machine.execTxnRetryTimeout tag dest s
  | .replayExpiry src tag => Sys2Proof.Machine.execReplayExpiry src tag s
  | .herdCommit id => Sys2Proof.Machine.execHerdCommit id s
  | .herdTxn id => Sys2Proof.Machine.execHerdTxn id s
  | .herdLinkstat id => Sys2Proof.Machine.execHerdLinkstat id s
  | .herdStatus id => Sys2Proof.Machine.execHerdStatus id s
  | .ethTailWrite n q v => Sys2Proof.Machine.execEthTailWrite n q v s
  | .ethTxDone n t => Sys2Proof.Machine.execEthTxDone n t s
  | .ethRxFrame n d t => Sys2Proof.Machine.execEthRxFrame n d t s
  | .ethLinkChange n up speed => Sys2Proof.Machine.execEthLinkChange n up speed s
  | .gclEntry n => Sys2Proof.Machine.execGclEntry n s
  | .ptpOffsetWrite n v => Sys2Proof.Machine.execPtpOffsetWrite n v s
  | .ethCommit id => Sys2Proof.Machine.execEthCommit id s
  | .ethStatus id => Sys2Proof.Machine.execEthStatus id s
  | .canReqWrite n j => Sys2Proof.Machine.execCanReqWrite n j s
  | .canCancelWrite n j => Sys2Proof.Machine.execCanCancelWrite n j s
  | .canTxEnd n result tecAdd ts => Sys2Proof.Machine.execCanTxEnd n result tecAdd ts s
  | .canRecovered n => Sys2Proof.Machine.execCanRecovered n s
  | .canRecoverWrite n => Sys2Proof.Machine.execCanRecoverWrite n s
  | .canRxFrame n id esi remote dlc data ts recAdd => Sys2Proof.Machine.execCanRxFrame n id esi remote dlc data ts recAdd s
  | .canAckWrite n v => Sys2Proof.Machine.execCanAckWrite n v s
  | .abdCandidateEnd n => Sys2Proof.Machine.execAbdCandidateEnd n s
  | .canCommit id => Sys2Proof.Machine.execCanCommit id s
  | .canSend id => Sys2Proof.Machine.execCanSend id s
  | .canRead id => Sys2Proof.Machine.execCanRead id s
  | .canAck id => Sys2Proof.Machine.execCanAck id s
  | .canRecover id => Sys2Proof.Machine.execCanRecover id s
  | .psTake ix => Sys2Proof.Machine.execPsTake ix s
  | .psSend ix => Sys2Proof.Machine.execPsSend ix s
  | .psDatagramReceive ix d => Sys2Proof.Machine.execPsDatagramReceive ix d s
  | .psWatchdogTimeout ix => Sys2Proof.Machine.execPsWatchdogTimeout ix s
  | .psStart id => Sys2Proof.Machine.execPsStart id s
  | .psStop id => Sys2Proof.Machine.execPsStop id s
  | .psReload id => Sys2Proof.Machine.execPsReload id s
  | .psStatus id => Sys2Proof.Machine.execPsStatus id s
  | .captNotice => Sys2Proof.Machine.execCaptNotice s
  | .coincidenceWindowEnd n => Sys2Proof.Machine.execCoincidenceWindowEnd n s
  | .captRecordWrite n => Sys2Proof.Machine.execCaptRecordWrite n s
  | .epochWrap => Sys2Proof.Machine.execEpochWrap s
  | .captRdWrite n v => Sys2Proof.Machine.execCaptRdWrite n v s
  | .arm src d => Sys2Proof.Machine.execArm src d s
  | .armack src d => Sys2Proof.Machine.execArmack src d s
  | .fire src d => Sys2Proof.Machine.execFire src d s
  | .disarm src d => Sys2Proof.Machine.execDisarm src d s
  | .disack src d => Sys2Proof.Machine.execDisack src d s
  | .captCommit id => Sys2Proof.Machine.execCaptCommit id s
  | .captStart id => Sys2Proof.Machine.execCaptStart id s
  | .captArm id => Sys2Proof.Machine.execCaptArm id s
  | .captTrigger id => Sys2Proof.Machine.execCaptTrigger id s
  | .captDisarm id => Sys2Proof.Machine.execCaptDisarm id s
  | .captStop id => Sys2Proof.Machine.execCaptStop id s
  | .captStatus id => Sys2Proof.Machine.execCaptStatus id s
  | .safetyCycle ix => Sys2Proof.Machine.execSafetyCycle ix s
  | .connectionWatchdog c => Sys2Proof.Machine.execConnectionWatchdog c s
  | .chamoisWatchdogExpiry b => Sys2Proof.Machine.execChamoisWatchdogExpiry b s
  | .offPulse out k b low => Sys2Proof.Machine.execOffPulse out k b low s
  | .safeIslandUndervolt b => Sys2Proof.Machine.execSafeIslandUndervolt b s
  | .chamoisFreqWindow hz lenA lenB absent => Sys2Proof.Machine.execChamoisFreqWindow hz lenA lenB absent s
  | .imageCrcCheck good => Sys2Proof.Machine.execImageCrcCheck good s
  | .heartbeatLoss => Sys2Proof.Machine.execHeartbeatLoss s
  | .chmSwWrite v => Sys2Proof.Machine.execChmSwWrite v s
  | .chmSoReqWrite v => Sys2Proof.Machine.execChmSoReqWrite v s
  | .chmSpsload id => Sys2Proof.Machine.execChmSpsload id s
  | .chmDeliver id => Sys2Proof.Machine.execChmDeliver id s
  | .chmFetch id => Sys2Proof.Machine.execChmFetch id s
  | .chmStatus id => Sys2Proof.Machine.execChmStatus id s
  | .safeHoldEntry => Sys2Proof.Machine.execSafeHoldEntry s
  | .redStateTake d => Sys2Proof.Machine.execRedStateTake d s
  | .redFrameReceive src p => Sys2Proof.Machine.execRedFrameReceive src p s
  | .divergeMaskExpiry d => Sys2Proof.Machine.execDivergeMaskExpiry d s
  | .redSwapTimer => Sys2Proof.Machine.execRedSwapTimer s
  | .redCommit id => Sys2Proof.Machine.execRedCommit id s
  | .redYield id => Sys2Proof.Machine.execRedYield id s
  | .redSwap id => Sys2Proof.Machine.execRedSwap id s
  | .redStatus id => Sys2Proof.Machine.execRedStatus id s
  | .hostRead bar off n => Sys2Proof.Machine.execHostRead bar off n s
  | .hostWrite bar off d => Sys2Proof.Machine.execHostWrite bar off d s
  | .outboundReadTimeout port a => Sys2Proof.Machine.execOutboundReadTimeout port a s
  | .pcieLinkChange up lanes gen => Sys2Proof.Machine.execPcieLinkChange up lanes gen s
  | .pciePerst level => Sys2Proof.Machine.execPciePerst level s
  | .dmaGo c => Sys2Proof.Machine.execDmaGo c s
  | .dmaBurst c => Sys2Proof.Machine.execDmaBurst c s
  | .dmaCopy id => Sys2Proof.Machine.execDmaCopy id s
  | .dmaFill id => Sys2Proof.Machine.execDmaFill id s
  | .dmaChain id => Sys2Proof.Machine.execDmaChain id s
  | .eventLevelRise v => Sys2Proof.Machine.execEventLevelRise v s
  | .evcEoiWrite v => Sys2Proof.Machine.execEvcEoiWrite v s
  | .msixSend v => Sys2Proof.Machine.execMsixSend v s
  | .sensorSample ix x => Sys2Proof.Machine.execSensorSample ix x s
  | .heartbeatSend => Sys2Proof.Machine.execHeartbeatSend s
  | .logRecordWrite => Sys2Proof.Machine.execLogRecordWrite s
  | .bootDone => Sys2Proof.Machine.execBootDone s
  | .loadDone mismatch ddr => Sys2Proof.Machine.execLoadDone mismatch ddr s
  | .startTimeout => Sys2Proof.Machine.execStartTimeout s
  | .announce d => Sys2Proof.Machine.execAnnounce d s
  | .offer p d => Sys2Proof.Machine.execOffer p d s
  | .answer p d => Sys2Proof.Machine.execAnswer p d s
  | .data p d => Sys2Proof.Machine.execData p d s
  | .ack p d => Sys2Proof.Machine.execAck p d s
  | .ackTimeout => Sys2Proof.Machine.execAckTimeout s
  | .dataTimeout => Sys2Proof.Machine.execDataTimeout s
  | .bundleReceived failed => Sys2Proof.Machine.execBundleReceived failed s
  | .done p d => Sys2Proof.Machine.execDone p d s
  | .offerRetry => Sys2Proof.Machine.execOfferRetry s
  | .report d => Sys2Proof.Machine.execReport d s
  | .close d => Sys2Proof.Machine.execClose d s
  | .campaignTimeout => Sys2Proof.Machine.execCampaignTimeout s
  | .nonceExpiry => Sys2Proof.Machine.execNonceExpiry s
  | .bhrStatus id => Sys2Proof.Machine.execBhrStatus id s
  | .bhrSensors id => Sys2Proof.Machine.execBhrSensors id s
  | .bhrLogread id => Sys2Proof.Machine.execBhrLogread id s
  | .bhrLogwrite id => Sys2Proof.Machine.execBhrLogwrite id s
  | .bhrChallenge id => Sys2Proof.Machine.execBhrChallenge id s
  | .bhrAuth id => Sys2Proof.Machine.execBhrAuth id s
  | .bhrCalread id => Sys2Proof.Machine.execBhrCalread id s
  | .bhrCalwrite id => Sys2Proof.Machine.execBhrCalwrite id s
  | .bhrInstall id => Sys2Proof.Machine.execBhrInstall id s
  | .bhrActivate id => Sys2Proof.Machine.execBhrActivate id s
  | .bhrCampaign id => Sys2Proof.Machine.execBhrCampaign id s
  | .bhrClose id => Sys2Proof.Machine.execBhrClose id s
  | .bhrSvbump id => Sys2Proof.Machine.execBhrSvbump id s
  | .bhrKeyprog id => Sys2Proof.Machine.execBhrKeyprog id s
  | .bhrState id => Sys2Proof.Machine.execBhrState id s
  | .porAssert => Sys2Proof.Machine.execPorAssert s
  | .porRelease low xbat pfailN => Sys2Proof.Machine.execPorRelease low xbat pfailN s
  | .holdoverCountTick => Sys2Proof.Machine.execHoldoverCountTick s
  | .coldReset src => Sys2Proof.Machine.execColdReset src s
  | .coldResetEnd => Sys2Proof.Machine.execColdResetEnd s
  | .warmRequest src => Sys2Proof.Machine.execWarmRequest src s
  | .powerFail src => Sys2Proof.Machine.execPowerFail src s
  | .powerFailClear => Sys2Proof.Machine.execPowerFailClear s
  | .backupSupplyLoss => Sys2Proof.Machine.execBackupSupplyLoss s
  | .pllUnlock ix => Sys2Proof.Machine.execPllUnlock ix s
  | .pcieConfigWrite msixEn fnMask bme => Sys2Proof.Machine.execPcieConfigWrite msixEn fnMask bme s
  | .gpioInputChange levels => Sys2Proof.Machine.execGpioInputChange levels s
  | .installWriteEnd failed => Sys2Proof.Machine.execInstallWriteEnd failed s
  | .swapRetry => Sys2Proof.Machine.execSwapRetry s
  | .busIntegration n => Sys2Proof.Machine.execBusIntegration n s
  | .debugTapAccess f => Sys2Proof.Machine.execDebugTapAccess f s

end Sys2Proof.Machine
end

