-- ==== Sys2Proof/WellFormed.lean ====
section
/-!
DEFINITION. Well-formed commands: every operand lies in the range that the spec gives it. The meanings are the spec's for
well-formed commands; an ill-formed one names something that the device does not have, and no statement speaks of it
except those that hold of every command (log 5).
-/
namespace Sys2Proof

open Sys2Proof.Machine

/-- A word-aligned address of the block registers (R570). -/
def regOk (a : Nat) : Bool := decide (0x4000000 ≤ a ∧ a < 0x5000000 ∧ a % 4 = 0)

/-- A group that exists (R9). -/
def groupOk : Group → Bool
  | .tb0lock => true
  | .sg n => decide (n < 16)
  | .lg n => decide (n < 8)
  | .route => true
  | .tr b => decide (b < 64)
  | .axcfg n => decide (n < 48)
  | .axtpl n => decide (n < 48)
  | .sd n => decide (n < 48)
  | .sdclk => true
  | .mot n => decide (n < 48)
  | .vm m => decide (m < 16)
  | .cam c => decide (c < 64)
  | .adc n => decide (n < 12)
  | .herdcyc => true
  | .slot p => decide (p < 4)
  | .ethcfg n => decide (n < 2)
  | .ethgcl n => decide (n < 2)
  | .can n => decide (n < 4)
  | .capts n => decide (n < 16)
  | .capttr u => decide (u < 64)
  | .red => true

/-- A function of the debug port that names a thread or an address that exists. -/
def tapOk : TapFn → Bool
  | .idcode => true
  | .bypass => true
  | .sample => true
  | .extest => true
  | .halt t => decide (t < 64)
  | .step t => decide (t < 64)
  | .run t => decide (t < 64)
  | .inspect t => decide (t < 64)
  | .meshRead a => decide (a % 4 = 0 ∧ a < 2 ^ 40)
  | .meshWrite a v => decide (a % 4 = 0 ∧ a < 2 ^ 40 ∧ v < 2 ^ 32)

/-- A command names only what the device has: a port, a thread, an axis, a channel, an address of the spec's ranges. -/
def Instr.wf (c : Instr) : Bool :=
  match c with
  | .registerWrite port a _ => decide (port < 16 ∧ regOk a)
  | .rcRead port a => decide (port < 16 ∧ regOk a)
  | .lowWordRead port a => decide (port < 16 ∧ regOk a)
  | .commitRequest g => groupOk g
  | .commitApply g => groupOk g
  | .meshRequest port cls a n wr d => decide (port < 16 ∧ cls < 4 ∧ 1 ≤ n ∧ a % 256 + n ≤ 256 ∧ a + n ≤ 2 ^ 40 ∧ (wr = true → d.length = n))
  | .meshGrant t => decide (t < 16)
  | .nthWrite _ => true
  | .scrubRead w => decide (w < 2 ^ 37)
  | .refinLoss => true
  | .refinReturn => true
  | .refinEnWrite _ => true
  | .tbPllUnlock => true
  | .incHiWrite n _ => decide (n < 8)
  | .timeAdjGo n _ => decide (n < 8)
  | .slewEnd n => decide (n < 8)
  | .timeSnapWrite _ => true
  | .trigEdge ch _ f => decide (ch < 9 ∧ f < 64)
  | .trigOut0Read ch => decide (ch < 9)
  | .ppsOutPulse => true
  | .ppsPulseEnd => true
  | .gridBoundary g _ => decide (g < 16)
  | .timedOpDue _ => true
  | .holdoverLimit => true
  | .syncIntervalsMissed => true
  | .timeSnap _ => true
  | .timeAdjust _ => true
  | .timeCommit _ => true
  | .timeBoundary _ => true
  | .intAlu t => decide (t < 64)
  | .intImm t => decide (t < 64)
  | .cmp t => decide (t < 64)
  | .cmpi t => decide (t < 64)
  | .predLogic t => decide (t < 64)
  | .floatOp t => decide (t < 64)
  | .fcmp t => decide (t < 64)
  | .memLoad t => decide (t < 64)
  | .memStore t => decide (t < 64)
  | .storeAck t _ => decide (t < 64)
  | .storeRefused t _ => decide (t < 64)
  | .sigrd t => decide (t < 64)
  | .sigwr t => decide (t < 64)
  | .sigwrt t => decide (t < 64)
  | .sigasH t => decide (t < 64)
  | .sigasI t => decide (t < 64)
  | .sighist t => decide (t < 64)
  | .br t => decide (t < 64)
  | .call t => decide (t < 64)
  | .jr t => decide (t < 64)
  | .sequentialFetchEnd t => decide (t < 64)
  | .op t => decide (t < 64)
  | .opx t => decide (t < 64)
  | .atT t => decide (t < 64)
  | .opAccept _ => true
  | .opComplete _ => true
  | .hstat t => decide (t < 64)
  | .hrel t => decide (t < 64)
  | .hcan t => decide (t < 64)
  | .hmask t => decide (t < 64)
  | .waitAny t => decide (t < 64)
  | .waitAll t => decide (t < 64)
  | .waitTimeout t => decide (t < 64)
  | .fence t => decide (t < 64)
  | .fenceM t => decide (t < 64)
  | .lock t => decide (t < 64)
  | .trylock t => decide (t < 64)
  | .unlock t => decide (t < 64)
  | .nop t => decide (t < 64)
  | .yield t => decide (t < 64)
  | .halt t => decide (t < 64)
  | .mfs t => decide (t < 64)
  | .mfp t => decide (t < 64)
  | .mtp t => decide (t < 64)
  | .trap t => decide (t < 64)
  | .li t => decide (t < 64)
  | .lih t => decide (t < 64)
  | .threadStart t => decide (t < 64)
  | .threadStop t => decide (t < 64)
  | .faultRestart t => decide (t < 64)
  | .lockForceBreak n => decide (n < 256)
  | .warmRestart => true
  | .warmRestartEnd => true
  | .sigUpdateApply b => decide (b < 16)
  | .sampleStage => true
  | .ageingVisit i => decide (i < 2 ^ 18)
  | .bankHot b => decide (b < 16)
  | .sigLocateWrite _ => true
  | .dportDefine => true
  | .dportUndefine => true
  | .dportInfo => true
  | .dportWrite => true
  | .dportWriteNow => true
  | .sigDefine _ => true
  | .sigUndefine _ => true
  | .sigRead _ => true
  | .sigWrite _ => true
  | .sigSetroute _ => true
  | .sigWatch _ => true
  | .sigInfo _ => true
  | .leRelease g => decide (g < 16)
  | .leSample c => decide (c < 256)
  | .leStart _ => true
  | .leStop _ => true
  | .leSwap _ => true
  | .leKick _ => true
  | .leResume _ => true
  | .leStatus _ => true
  | .leTraceStop _ => true
  | .leTraceRearm _ => true
  | .leCommit _ => true
  | .carrierReload n => decide (n < 48)
  | .pwmCompare n x => decide (n < 48 ∧ x < 3)
  | .deadTimeEnd n i => decide (n < 48 ∧ i < 6)
  | .dutyWrite n i _ => decide (n < 48 ∧ i < 6)
  | .outEnWrite n _ => decide (n < 48)
  | .axClearWrite n _ _ => decide (n < 48)
  | .stepIssue n => decide (n < 48)
  | .stepPulseEnd n => decide (n < 48)
  | .standstillReached n => decide (n < 48)
  | .drvokFall n => decide (n < 48)
  | .drvokRise n => decide (n < 48)
  | .reseatStart n => decide (n < 48)
  | .reseatStep n => decide (n < 48)
  | .reseatDone n => decide (n < 48)
  | .encoderEdge n _ _ => decide (n < 48)
  | .zEdge n => decide (n < 48)
  | .ssiFrameStart n => decide (n < 48)
  | .frameEngineStart n => decide (n < 48)
  | .feedbackFrameEnd n _ => decide (n < 48)
  | .feedbackFrameTimeout n => decide (n < 48)
  | .ocTrip c => decide (c < 144)
  | .sdStuck c => decide (c < 144)
  | .auxEdge n i _ => decide (n < 48 ∧ i < 2)
  | .auxQualified n i => decide (n < 48 ∧ i < 2)
  | .axisCommit _ => true
  | .axisEnable _ => true
  | .axisClear _ _ => true
  | .axisSetpos _ => true
  | .axisStatus _ => true
  | .axisNotReady n => decide (n < 48)
  | .camMiss n => decide (n < 48)
  | .vmSegmentReceive _ payload => decide (payload.length = 56)
  | .vmRunout m => decide (m < 16)
  | .motCommit _ => true
  | .motMove _ => true
  | .motStop _ => true
  | .motHome _ => true
  | .motSetref _ => true
  | .motArrive _ => true
  | .motFollow _ => true
  | .motPhase _ => true
  | .motStatus _ => true
  | .motPublish _ => true
  | .motEval _ => true
  | .adcSequenceTrigger n => decide (n < 12)
  | .adcTriggerWrite n _ => decide (n < 12)
  | .adcCalibWrite n _ => decide (n < 12)
  | .adcInjWrite n _ => decide (n < 12)
  | .adcOwsrcWrite n _ => decide (n < 12)
  | .adcHold n => decide (n < 12)
  | .adcResult n _ => decide (n < 12)
  | .adcMeshResult n => decide (n < 12)
  | .adcCalStart n => decide (n < 12)
  | .adcCalEnd n _ => decide (n < 12)
  | .owSettleEnd n => decide (n < 12)
  | .adcCommit _ => true
  | .adcTrigger _ => true
  | .adcInject _ => true
  | .adcCalib _ => true
  | .adcOwdiag _ => true
  | .adcStatus _ => true
  | .blockLock p _ _ => decide (p < 4)
  | .linkDown p _ ring => decide (p < 4 ∧ ring < 16)
  | .helloTimeout p ring => decide (p < 4 ∧ ring < 16)
  | .helloSend p => decide (p < 4)
  | .hello p _ _ => decide (p < 4)
  | .linkUp p _ => decide (p < 4)
  | .herdFrameReceive p _ _ _ _ _ => decide (p < 4)
  | .portTxStart p _ => decide (p < 4)
  | .isoSlot p i _ => decide (p < 4 ∧ i < 1024)
  | .electionStart => true
  | .claim p _ => decide (p < 4)
  | .electionEnd resting blocked => decide (resting < 16 ∧ blocked < 16)
  | .size p _ => decide (p < 4)
  | .assign p _ => decide (p < 4)
  | .idFailRetry => true
  | .cut ring _ _ => decide (ring < 16)
  | .syncReqSend p => decide (p < 4)
  | .syncReq p _ _ => decide (p < 4)
  | .syncResult p _ _ => decide (p < 4)
  | .pathLoss => true
  | .txnRequest => true
  | .txnResponse _ _ => true
  | .txnRetryTimeout _ dest => decide (dest < 2 ^ 16)
  | .replayExpiry src _ => decide (src < 2 ^ 16)
  | .herdCommit _ => true
  | .herdTxn _ => true
  | .herdLinkstat _ => true
  | .herdStatus _ => true
  | .ethTailWrite n q _ => decide (n < 2 ∧ q < 8)
  | .ethTxDone n _ => decide (n < 2)
  | .ethRxFrame n _ _ => decide (n < 2)
  | .ethLinkChange n _ speed => decide (n < 2 ∧ speed < 4)
  | .gclEntry n => decide (n < 2)
  | .ptpOffsetWrite n _ => decide (n < 2)
  | .ethCommit _ => true
  | .ethStatus _ => true
  | .canReqWrite n j => decide (n < 4 ∧ j < 100)
  | .canCancelWrite n j => decide (n < 4 ∧ j < 100)
  | .canTxEnd n _ _ _ => decide (n < 4)
  | .canRecovered n => decide (n < 4)
  | .canRecoverWrite n => decide (n < 4)
  | .canRxFrame n _ _ _ _ _ _ _ => decide (n < 4)
  | .canAckWrite n _ => decide (n < 4)
  | .abdCandidateEnd n => decide (n < 4)
  | .canCommit _ => true
  | .canSend _ => true
  | .canRead _ => true
  | .canAck _ => true
  | .canRecover _ => true
  | .psTake i => decide (i < 2048)
  | .psSend i => decide (i < 2048)
  | .psDatagramReceive i _ => decide (i < 2048)
  | .psWatchdogTimeout i => decide (i < 2048)
  | .psStart _ => true
  | .psStop _ => true
  | .psReload _ => true
  | .psStatus _ => true
  | .captNotice => true
  | .coincidenceWindowEnd n => decide (n < 16)
  | .captRecordWrite n => decide (n < 16)
  | .epochWrap => true
  | .captRdWrite n _ => decide (n < 16)
  | .arm _ _ => true
  | .armack _ _ => true
  | .fire _ _ => true
  | .disarm _ _ => true
  | .disack _ _ => true
  | .captCommit _ => true
  | .captStart _ => true
  | .captArm _ => true
  | .captTrigger _ => true
  | .captDisarm _ => true
  | .captStop _ => true
  | .captStatus _ => true
  | .safetyCycle i => decide (i.subs.all (fun e => decide (e.1 < 65536 ∧ e.2 < 65536)) = true)
  | .connectionWatchdog c => decide (c < 16)
  | .chamoisWatchdogExpiry _ => true
  | .offPulse out k _ _ => decide (if out then k < 8 else k < 48)
  | .safeIslandUndervolt _ => true
  | .chamoisFreqWindow _ _ _ _ => true
  | .imageCrcCheck _ => true
  | .heartbeatLoss => true
  | .chmSwWrite _ => true
  | .chmSoReqWrite _ => true
  | .chmSpsload _ => true
  | .chmDeliver _ => true
  | .chmFetch _ => true
  | .chmStatus _ => true
  | .safeHoldEntry => true
  | .redStateTake d => decide (d.getD 0 < 7)
  | .redFrameReceive _ _ => true
  | .divergeMaskExpiry d => decide (d < 7)
  | .redSwapTimer => true
  | .redCommit _ => true
  | .redYield _ => true
  | .redSwap _ => true
  | .redStatus _ => true
  | .hostRead bar _ n => decide ((bar = 0 ∨ bar = 2 ∨ bar = 4) ∧ 1 ≤ n ∧ n ≤ 512)
  | .hostWrite bar _ d => decide ((bar = 0 ∨ bar = 2 ∨ bar = 4) ∧ 1 ≤ d.length ∧ d.length ≤ 256)
  | .outboundReadTimeout port a => decide (port < 16 ∧ 0x1000000000 ≤ a ∧ a < 0x2000000000)
  | .pcieLinkChange up lanes gen => decide (up = true → (lanes = 1 ∨ lanes = 2 ∨ lanes = 4) ∧ 1 ≤ gen ∧ gen ≤ 3)
  | .pciePerst _ => true
  | .dmaGo c => decide (c < 8)
  | .dmaBurst c => decide (c < 8)
  | .dmaCopy _ => true
  | .dmaFill _ => true
  | .dmaChain _ => true
  | .eventLevelRise v => decide (v < 128)
  | .evcEoiWrite _ => true
  | .msixSend v => decide (v < 128)
  | .sensorSample i _ => decide (i < 26)
  | .heartbeatSend => true
  | .logRecordWrite => true
  | .bootDone => true
  | .loadDone _ _ => true
  | .startTimeout => true
  | .announce _ => true
  | .offer p _ => decide (p < 4)
  | .answer p _ => decide (p < 4)
  | .data p _ => decide (p < 4)
  | .ack p _ => decide (p < 4)
  | .ackTimeout => true
  | .dataTimeout => true
  | .bundleReceived _ => true
  | .done p _ => decide (p < 4)
  | .offerRetry => true
  | .report _ => true
  | .close _ => true
  | .campaignTimeout => true
  | .nonceExpiry => true
  | .bhrStatus _ => true
  | .bhrSensors _ => true
  | .bhrLogread _ => true
  | .bhrLogwrite _ => true
  | .bhrChallenge _ => true
  | .bhrAuth _ => true
  | .bhrCalread _ => true
  | .bhrCalwrite _ => true
  | .bhrInstall _ => true
  | .bhrActivate _ => true
  | .bhrCampaign _ => true
  | .bhrClose _ => true
  | .bhrSvbump _ => true
  | .bhrKeyprog _ => true
  | .bhrState _ => true
  | .porAssert => true
  | .porRelease low _ _ => decide (low < 16384)
  | .holdoverCountTick => true
  | .coldReset src => decide (2 ≤ src ∧ src ≤ 4)
  | .coldResetEnd => true
  | .warmRequest src => decide (src = 1 ∨ src = 2)
  | .powerFail src => decide (1 ≤ src ∧ src ≤ 3)
  | .powerFailClear => true
  | .backupSupplyLoss => true
  | .pllUnlock i => decide (i = 0 ∨ i = 2 ∨ i = 3 ∨ i = 4)
  | .pcieConfigWrite _ _ _ => true
  | .gpioInputChange levels => decide (levels < 65536)
  | .installWriteEnd _ => true
  | .swapRetry => true
  | .busIntegration n => decide (n < 4)
  | .debugTapAccess f => tapOk f

end Sys2Proof
end

