-- ==== Sys2Proof/Safety.lean ====
section
/-!
DEFINITION. The terms that statements use: a command answers a next state of which something holds; the invariant of the
device's stores; what a command leaves unchanged.
-/
namespace Sys2Proof.Machine

/-- The command answers a next state, and `P` holds of it. -/
def Answers (c : Instr) (s : State) (P : State → Prop) : Prop := ∃ t, exec c s = .next t ∧ P t

/-- The stores are in order: memory and registers in canonical form, no register with a reserved bit set (R5). -/
abbrev State.Inv (s : State) : Prop :=
  Memory.wf s.mem = true ∧ twf resetOf s.regs = true ∧ ∀ e ∈ s.regs, e.2 &&& ~~~implMask e.1 = 0

/-! ## Instructions of a thread -/

/-- Thread `t` issues in this cycle the instruction of row `q` at its pc: it has the slot of its processor (R147), no store of
it was refused (R116), the word `w` at pc is one of the row (R98), its words lie in the instruction memory (R99) and hold no
error, and its guard holds (R96). -/
structure Issues (s : State) (t w : Nat) (q : QRow) : Prop where
  thread : t < 64
  slot : s.mayIssue t = true
  noRefusal : (s.thread t).refused = none
  inside : (s.thread t).pc + qLen w ≤ 0x40000
  word : s.imem t (s.thread t).pc = w
  row : qRow w = some q
  guard : (s.thread t).guardOk w = true
  clean : s.eccIn (imemAddr t (s.thread t).pc) (qLen w) = []

/-- Thread `x` when an instruction of `n` bytes and `c` cycles has retired in it: pc has passed the words, the interval of
R139 begins, and its starvation count is 0 (R146). -/
def retired (s : State) (x : Thread) (n c : Nat) : Thread :=
  { x with pc := x.pc + n, readyAt := s.cyc + c, starve := 0, dbgStep := false }

/-- A thread's registers, predicates, handles, pc and stores are those of another. -/
def SameRegs (x y : Thread) : Prop :=
  y.state = x.state ∧ y.g = x.g ∧ y.p = x.p ∧ y.k = x.k ∧ y.pc = x.pc ∧ y.posted = x.posted ∧ y.refused = x.refused

/-- What an instruction of thread `t` leaves in every case: memory, the registers of the map but SP_FORCED and SP_EVSTAT
(R148), and the other threads' registers (R87). -/
def CoreFrame (s u : State) (t : Nat) : Prop :=
  (∀ a, u.byte a = s.byte a) ∧ (∀ a, a ≠ Reg.spForced → a ≠ Reg.spEvstat → u.rget a = s.rget a) ∧
  (∀ j, j ≠ t → SameRegs (s.thread j) (u.thread j))

/-- What an instruction that only computes leaves: also operations, locks and signals. -/
def IsaFrame (s u : State) (t : Nat) : Prop :=
  CoreFrame s u t ∧ u.sp.ops = s.sp.ops ∧ u.sp.locks = s.sp.locks ∧ u.sig = s.sig

/-- A fault of thread `t` (R178): code and trap code, pc and address are recorded, the thread is FAULTED with its registers as
they were, SP_FAULTED and the flag of EV0 are set, and memory and every other register stay. -/
def Faults (s u : State) (t code trapCode pc addr : Nat) (imprecise : Bool) : Prop :=
  (u.rget (Reg.spTFcode t)).toNat = b2n imprecise * 2 ^ 31 + trapCode * 2 ^ 16 + code ∧
  (u.rget (Reg.spTFpc t)).toNat = pc ∧
  (u.rget (Reg.spTFaddrLo t)).toNat + (u.rget (Reg.spTFaddrHi t)).toNat * 2 ^ 32 = addr ∧
  (u.thread t).state = .faulted ∧ (u.thread t).g = (s.thread t).g ∧ (u.thread t).p = (s.thread t).p ∧
  (u.thread t).k = (s.thread t).k ∧ u.rb (Reg.spFaultedLo + 4 * (t / 32)) (t % 32) = true ∧ u.rb Reg.spEvstat 0 = true ∧
  (∀ a, u.byte a = s.byte a) ∧
  (∀ a, a ∉ [Reg.spForced, Reg.spEvstat, Reg.spTFcode t, Reg.spTFpc t, Reg.spTFaddrLo t, Reg.spTFaddrHi t,
    Reg.spFaultedLo + 4 * (t / 32)] → u.rget a = s.rget a)

/-! ## Signals -/

/-- No word of a signal's record holds an error (R219 to R221). -/
abbrev RecClean (s : State) (i : Nat) : Prop := ∀ e ∈ s.ecc, e.1 < s.recWord i ∨ s.recWord i + 6 ≤ e.1

/-- No update waits before a request that reaches a bank now, and the notice stage has a place (R210, R211). -/
abbrev SigQuiet (s : State) : Prop :=
  s.sig.stage = [] ∧ s.sig.queue = [] ∧ s.sig.held = [] ∧ s.noticeLevel < 256

/-- Every signal's record but that of `i` stands as before. -/
def SigsKept (s u : State) (i : Nat) : Prop := ∀ j, j ≠ i → u.sigRec j = s.sigRec j

/-- An update of the signal would be accepted and serves nobody: the signal is defined, its writer fits (R193), its stamp is
not too far ahead (R194), and no session, route or WATCH is on it. -/
abbrev Accepts (s : State) (u : SigUpd) : Prop :=
  s.updRefusal u = none ∧ (s.sigRec u.idx).captMask = 0 ∧ (s.sigRec u.idx).routeEn = false ∧
  ∀ w ∈ s.sig.watches, w.idx ≠ u.idx

/-! ## Frames -/

/-- Every register but those of a list reads as before. -/
def RegsKept (s t : State) (l : List Nat) : Prop := ∀ a, a ∉ l → t.rget a = s.rget a

/-- Every memory byte reads as before. -/
def MemKept (s t : State) : Prop := ∀ a, t.byte a = s.byte a

/-- Every memory byte outside `n` bytes from `a` reads as before. -/
def MemKeptBut (s t : State) (a n : Nat) : Prop := ∀ b, ¬(a ≤ b ∧ b < a + n) → t.byte b = s.byte b

/-- Every operation but that of number `id` stands as before. -/
def OpsKept (s t : State) (id : Nat) : Prop := ∀ j, j ≠ id → t.op j = s.op j

/-- The operation of a number has ended with a status and its results wait for OP_COMPLETE. -/
def OpEnded (t : State) (id : Nat) (st : Status) (res : List Byte) : Prop :=
  ∃ o, t.op id = some o ∧ o.out.map (·.status) = some st ∧ o.results = res

/-- The operation of number `id` is one of a unit and code that may act now, and it is in the list once. -/
abbrev OpMay (s : State) (o : Op) (unit code : Nat) : Prop :=
  s.op o.id = some o ∧ o.unit = unit ∧ o.code = code ∧ s.opReady o = true

/-- The grid-bound operation of number `id` is one of a unit and code that its unit may check and take now. -/
abbrev OpTakes (s : State) (o : Op) (unit code : Nat) : Prop :=
  s.op o.id = some o ∧ o.unit = unit ∧ o.code = code ∧ o.accepted = true ∧ o.taken = false ∧ o.acted = false ∧
  o.out = none ∧ s.opBehind o = false

/-- Its unit has taken the operation: it acts at a boundary. -/
def OpTaken (s t : State) (o : Op) : Prop := t.op o.id = some { o with taken := true, takenAt := s.now }

/-- Everything but the operation of number `id` stands as before: memory, registers, the other operations. -/
def OnlyOp (s t : State) (id : Nat) : Prop := MemKept s t ∧ RegsKept s t [] ∧ OpsKept s t id

end Sys2Proof.Machine
end

