-- ==== Sys2Proof/Certificates/Slice0/Obligations.lean ====
section
/-!
DEFINITION. What the provers are asked: statements about the commands, their frames and the invariants of the device.
-/
section
open Sys2Proof Sys2Proof.Machine

/-- A step carries out the command at the front of the queue with the rest of the queue. For every command and state:
with the command at the front of the queue, a step is exec of the command on the state with the queue's rest. On an
empty queue a SYS cycle passes (the model's choice, log 1), and no word of the table spells a command.
(01_architecture.md, R31, R47) -/
def Obligations.StepCarriesOutTheFront : Prop :=
  ∀ (s : State) (c : Instr) (rest : List Instr) (nbits w : Nat),
    step { s with pending := c :: rest } = exec c { s with pending := rest } ∧
    (s.pending = [] → ∃ u, step s = .next u ∧ u.cyc = s.cyc + 1 ∧ u.pending = []) ∧ s.withFetchWord nbits w = s

/-- The state right after reset. At reset the stores are in order, no command waits, no register differs from its
reset value and nothing is listed in memory, so that every byte reads as the model chose (log 4); power-on reset is
asserted, and its release starts BOOT with RST_CAUSE 0x100. (R5, R15, 17_power_reset.md, R612, 01_architecture.md) -/
def Obligations.ResetState : Prop :=
  State.reset.Inv ∧ State.reset.pending = [] ∧ (∀ a, State.reset.rget a = resetOf a) ∧ State.reset.mem = [] ∧
  State.reset.pwr.por = true ∧ State.reset.inReset = true ∧ (State.reset.rget Reg.redCfg).toNat = 0x09280000 ∧
  (State.reset.rget Reg.pwrCfg).toNat = 60 ∧ (State.reset.rget Reg.bhrType).toNat = 0x489600A1 ∧
  (State.reset.rget Reg.meshPcieId).toNat = 0x48961CA7 ∧ (∀ v, v < 128 → (State.reset.rget (Reg.evcMsixCtrl v)).toNat = 1) ∧
  ∀ low xbat pf, Answers (.porRelease low xbat pf) State.reset fun u => u.node = .boot ∧ u.inReset = false ∧
    (u.rget Reg.rstCause).toNat = 0x100

/-- Every command answers a next state and leaves the rest of the queue. Whatever the state, no command of the device
ends in a fault or a refusal: it answers a next state, with the queue of waiting commands as it was. What the device
turns away it turns away in its own state (a status, a flag, a record). (R7, R151, 01_architecture.md) -/
def Obligations.EveryCommandCompletes : Prop :=
  ∀ (c : Instr) (s : State), Answers c s fun u => u.pending = s.pending

/-- Every step keeps memory and registers in canonical form, and no reserved bit is ever set. From every state whose
memory and registers are in canonical form and whose registers have no reserved bit set, every step, whether it
carries out a command or lets a SYS cycle pass, answers a state of which the same holds. (R5, R4, R26,
01_architecture.md) -/
def Obligations.EveryStepKeepsTheStores : Prop :=
  ∀ (s u : State), s.Inv → step s = .next u → u.Inv

/-- Every integer result of major 0x00 is the one the tables give, with the special cases of division. The function
that INT_ALU writes to rd agrees, for all 64-bit operands and every listed funct7, with 64-bit vector arithmetic:
sums, logic, shifts by rs2[5:0], signed and unsigned minimum and maximum, both high products, quotients and remainders
with the results of R101 for rs2 = 0, counts of zeros and ones, and the extensions. (R100, R101) -/
def Obligations.IntegerValues : Prop :=
  ∀ a b : DWord,
    intAlu 0x00 a.toNat b.toNat = (a + b).toNat ∧ intAlu 0x01 a.toNat b.toNat = (a - b).toNat ∧
    intAlu 0x02 a.toNat b.toNat = (a &&& b).toNat ∧ intAlu 0x03 a.toNat b.toNat = (a ||| b).toNat ∧
    intAlu 0x04 a.toNat b.toNat = (a ^^^ b).toNat ∧ intAlu 0x05 a.toNat b.toNat = (a &&& ~~~b).toNat ∧
    intAlu 0x06 a.toNat b.toNat = (a <<< (b.toNat % 64)).toNat ∧
    intAlu 0x07 a.toNat b.toNat = (a >>> (b.toNat % 64)).toNat ∧
    intAlu 0x08 a.toNat b.toNat = (a.sshiftRight (b.toNat % 64)).toNat ∧
    intAlu 0x09 a.toNat b.toNat = (if a.sle b then a else b).toNat ∧
    intAlu 0x0A a.toNat b.toNat = (if a.sle b then b else a).toNat ∧
    intAlu 0x0B a.toNat b.toNat = (if a.ule b then a else b).toNat ∧
    intAlu 0x0C a.toNat b.toNat = (if a.ule b then b else a).toNat ∧
    intAlu 0x10 a.toNat b.toNat = (a * b).toNat ∧
    (intAlu 0x11 a.toNat b.toNat : Int) = (a.toInt * b.toInt / 2 ^ 64) % 2 ^ 64 ∧
    intAlu 0x12 a.toNat b.toNat = a.toNat * b.toNat / 2 ^ 64 ∧
    intAlu 0x13 a.toNat b.toNat = (if b = 0 then BitVec.allOnes 64 else a.sdiv b).toNat ∧
    intAlu 0x14 a.toNat b.toNat = (if b = 0 then BitVec.allOnes 64 else a / b).toNat ∧
    intAlu 0x15 a.toNat b.toNat = (if b = 0 then a else a.srem b).toNat ∧
    intAlu 0x16 a.toNat b.toNat = (if b = 0 then a else a % b).toNat ∧
    (∀ n, n < 64 → (intAlu 0x18 a.toNat 0 = n ↔ a.toNat / 2 ^ (63 - n) = 1)) ∧ (intAlu 0x18 a.toNat 0 = 64 ↔ a = 0) ∧
    (∀ n, n < 64 → (intAlu 0x19 a.toNat 0 = n ↔ a.toNat % 2 ^ (n + 1) = 2 ^ n)) ∧ (intAlu 0x19 a.toNat 0 = 64 ↔ a = 0) ∧
    intAlu 0x1A a.toNat 0 = ((List.range 64).filter fun i => a.getLsbD i).length ∧
    intAlu 0x1B a.toNat 0 = ((a.truncate 8).signExtend 64).toNat ∧
    intAlu 0x1C a.toNat 0 = ((a.truncate 16).signExtend 64).toNat ∧
    intAlu 0x1D a.toNat 0 = ((a.truncate 32).signExtend 64).toNat ∧
    intAlu 0x1E a.toNat 0 = ((a.truncate 32).zeroExtend 64).toNat

/-- The conditions of the integer comparisons and the results of the predicate logic. For all 64-bit operands the
conditions of funct7 0 to 6 are equality, inequality, signed and unsigned order, and a common one bit; an immediate of
the I format enters each as its 12 bits sign-extended, and a comparison with it is the one of the register forms on
that value; the seven predicate operations give the results of R105. (R103, R104, R105) -/
def Obligations.ComparisonValues : Prop :=
  (∀ a b : DWord,
    (qCond 0 a.toNat b.toNat = true ↔ a = b) ∧ (qCond 1 a.toNat b.toNat = true ↔ a ≠ b) ∧
    qCond 2 a.toNat b.toNat = a.slt b ∧ qCond 3 a.toNat b.toNat = b.sle a ∧
    qCond 4 a.toNat b.toNat = a.ult b ∧ qCond 5 a.toNat b.toNat = b.ule a ∧
    (qCond 6 a.toNat b.toNat = true ↔ a &&& b ≠ 0)) ∧
  (∀ w : Word, u64 (qImm12 w.toNat) = ((w.truncate 12).signExtend 64).toNat) ∧
  (∀ a b : Bool, qPred 0 a b = (a && b) ∧ qPred 1 a b = (a || b) ∧ qPred 2 a b = (a != b) ∧ qPred 3 a b = (a && !b) ∧
    qPred 4 a b = !a ∧ qPred 5 a b = true ∧ qPred 6 a b = false)

/-- Sign operations, NaN results, conversions to int64 and classes of the floating-point instructions. In both
formats: a datum that is no NaN is encoded back to its own bits; every NaN result of add, subtract, multiply, divide
and fused multiply-add is the quiet NaN; fabs and fneg change the sign bit only; fmin and fmax return the other
operand of a NaN; fcvt.l gives 0 of a NaN and stays in the int64 range; fclass sets exactly one of ten bits. (R107,
R108, R109, 03_quiser_isa.md) -/
def Obligations.FloatValues : Prop :=
  ∀ f : FFmt, (f = f32 ∨ f = f64) → ∀ a b c : Nat, a < 2 ^ (f.eb + f.fb + 1) → b < 2 ^ (f.eb + f.fb + 1) →
    c < 2 ^ (f.eb + f.fb + 1) →
    (f.isNan a = false → f.enc (f.dec a) = a) ∧
    (f.isNan a = true ∨ f.isNan b = true → f.add a b = f.qnan ∧ f.sub a b = f.qnan ∧ f.mul a b = f.qnan ∧
      f.div a b = f.qnan ∧ f.fma a b c = f.qnan) ∧
    (f.isNan a = true → f.sqrt a = f.qnan) ∧
    f.neg (f.neg a) = a ∧ f.abs (f.neg a) = f.abs a ∧ (f.abs a = a ∨ f.abs a = f.neg a) ∧
    (f.isNan a = true → f.isNan b = false → f.min a b = b ∧ f.max a b = b ∧ f.min b a = b ∧ f.max b a = b) ∧
    (f.isNan a = true → f.toInt64 a = 0) ∧ -(2 ^ 63) ≤ f.toInt64 a ∧ f.toInt64 a ≤ 2 ^ 63 - 1 ∧
    (∃ k, k < 10 ∧ f.classify a = 2 ^ k)

/-- Instructions that write a general register: result, pc, interval and frame. When thread t issues the instruction,
INT_ALU, INT_IMM, FLOAT_OP, LI, LIH, MFS and MFP write their result to rd and nothing else of the thread; pc passes
the words, the thread is not ready for the cycles of R139, and everything that IsaFrame names stays: memory, registers
of the map, other threads, operations, locks and signals. NOP and MTP likewise, MTP writing p1 to p7 from rs1[7:1]. A
false guard only advances pc. (R96, R97, R100, R102, R106, R107, R133, R135, R139) -/
def Obligations.RegisterInstructions : Prop :=
  ∀ (s : State) (t w : Nat),
    (Issues s t w .intAlu → Answers (.intAlu t) s fun u => IsaFrame s u t ∧ u.thread t =
      retired s ((s.thread t).setG (qRd w) (intAlu (qF7 w) ((s.thread t).gr (qRs1 w)) ((s.thread t).gr (qRs2 w)))) 4
        (intCycles (qF7 w))) ∧
    (Issues s t w .intImm → Answers (.intImm t) s fun u => IsaFrame s u t ∧ u.thread t =
      retired s ((s.thread t).setG (qRd w) (intImm (qMajor w) ((s.thread t).gr (qRs1 w)) w)) 4 1) ∧
    (Issues s t w .floatOp → bit w 6 = false → Answers (.floatOp t) s fun u => IsaFrame s u t ∧ u.thread t =
      retired s ((s.thread t).setG (qRd w) (floatResult f32 f64 (bits w 5 0)
        (if bits w 5 0 = 0x0B ∨ bits w 5 0 = 0x0C then (s.thread t).gr (qRs1 w) else (s.thread t).gr (qRs1 w) % 2 ^ 32)
        ((s.thread t).gr (qRs2 w) % 2 ^ 32) ((s.thread t).gr (qRd w) % 2 ^ 32))) 4 (floatCycles (bits w 5 0) false)) ∧
    (Issues s t w .floatOp → bit w 6 = true → Answers (.floatOp t) s fun u => IsaFrame s u t ∧ u.thread t =
      retired s ((s.thread t).setG (qRd w) (floatResult f64 f32 (bits w 5 0)
        (if bits w 5 0 = 0x0C then (s.thread t).gr (qRs1 w) % 2 ^ 32 else (s.thread t).gr (qRs1 w))
        ((s.thread t).gr (qRs2 w)) ((s.thread t).gr (qRd w)))) 4 (floatCycles (bits w 5 0) true)) ∧
    (Issues s t w .li → Answers (.li t) s fun u => IsaFrame s u t ∧ u.thread t = retired s ((s.thread t).setG (qRd w)
      ((BitVec.ofNat 32 (s.imem t ((s.thread t).pc + 4))).signExtend 64).toNat) 8 2) ∧
    (Issues s t w .lih → Answers (.lih t) s fun u => IsaFrame s u t ∧
      u.thread t = retired s ((s.thread t).setG (qRd w) (s.imem t ((s.thread t).pc + 4) * 2 ^ 32
        + (s.thread t).gr (qRd w) % 2 ^ 32)) 8 2) ∧
    (Issues s t w .mfs → Answers (.mfs t) s fun u => IsaFrame s u t ∧ u.thread t = retired s ((s.thread t).setG (qRd w)
      (if qRs1 w = 0 then s.seenTime 0 else if qRs1 w = 1 then t else s.cyc - s.sp.cyc0)) 4 1) ∧
    (Issues s t w .mfp → Answers (.mfp t) s fun u => IsaFrame s u t ∧ u.thread t =
      retired s ((s.thread t).setG (qRd w) ((s.thread t).p.toNat ||| 1)) 4 1) ∧
    (Issues s t w .mtp → Answers (.mtp t) s fun u => IsaFrame s u t ∧ ∃ p : BitVec 8, u.thread t =
      retired s { s.thread t with p := p } 4 1 ∧
      ∀ i, 1 ≤ i → i < 8 → p.getLsbD i = bit ((s.thread t).gr (qRs1 w)) i) ∧
    (Issues s t w .nop → Answers (.nop t) s fun u => IsaFrame s u t ∧ u.thread t = retired s (s.thread t) 4 1)

/-- Instructions that write a predicate: result, pc, interval and frame. When thread t issues the instruction, CMP,
CMPI, PRED_LOGIC and FCMP write the condition to the predicate named in the rd field and nothing else of the thread
(p0 discards the write); pc passes the word and everything that IsaFrame names stays. (R94, R103, R104, R105, R110,
R139) -/
def Obligations.PredicateInstructions : Prop :=
  ∀ (s : State) (t w : Nat),
    (Issues s t w .cmp → Answers (.cmp t) s fun u => IsaFrame s u t ∧ u.thread t =
      retired s ((s.thread t).setP (bits w 19 17) (qCond (qF7 w) ((s.thread t).gr (qRs1 w)) ((s.thread t).gr (qRs2 w)))) 4 1) ∧
    (Issues s t w .cmpi → Answers (.cmpi t) s fun u => IsaFrame s u t ∧ u.thread t =
      retired s ((s.thread t).setP (bits w 19 17) (qCond (qMajor w - 6) ((s.thread t).gr (qRs1 w)) (u64 (qImm12 w)))) 4 1) ∧
    (Issues s t w .predLogic → Answers (.predLogic t) s fun u => IsaFrame s u t ∧ u.thread t =
      retired s ((s.thread t).setP (bits w 19 17)
        (qPred (qF7 w) ((s.thread t).pr (bits w 14 12)) ((s.thread t).pr (bits w 9 7)))) 4 1) ∧
    (Issues s t w .fcmp → bit w 6 = true → Answers (.fcmp t) s fun u => IsaFrame s u t ∧ u.thread t =
      retired s ((s.thread t).setP (bits w 19 17)
        (let a := (s.thread t).gr (qRs1 w); let b := (s.thread t).gr (qRs2 w)
         if bits w 5 0 = 0 then f64.eq a b else if bits w 5 0 = 1 then f64.lt a b else if bits w 5 0 = 2 then f64.le a b
         else f64.isNan a || f64.isNan b)) 4 4) ∧
    (Issues s t w .fcmp → bit w 6 = false → Answers (.fcmp t) s fun u => IsaFrame s u t ∧ u.thread t =
      retired s ((s.thread t).setP (bits w 19 17)
        (let a := (s.thread t).gr (qRs1 w) % 2 ^ 32; let b := (s.thread t).gr (qRs2 w) % 2 ^ 32
         if bits w 5 0 = 0 then f32.eq a b else if bits w 5 0 = 1 then f32.lt a b else if bits w 5 0 = 2 then f32.le a b
         else f32.isNan a || f32.isNan b)) 4 4)

/-- An instruction whose guard is false only advances pc by its own length. For an integer instruction, a store and an
8-byte load of an immediate whose guard is false: the thread has only passed the words (one cycle a word), and
everything that IsaFrame names stays, the posted stores of the thread included. (R97) -/
def Obligations.FalseGuardAdvancesPc : Prop :=
  ∀ (s : State) (t w : Nat) (q : QRow), t < 64 → s.mayIssue t = true → (s.thread t).refused = none →
    (s.thread t).pc + qLen w ≤ 0x40000 → s.imem t (s.thread t).pc = w → qRow w = some q → (s.thread t).guardOk w = false →
    s.eccIn (imemAddr t (s.thread t).pc) (qLen w) = [] →
    let done (u : State) : Prop := IsaFrame s u t ∧ u.thread t = retired s (s.thread t) (qLen w) (qLen w / 4)
    (q = .intAlu → Answers (.intAlu t) s done) ∧ (q = .store → Answers (.memStore t) s done) ∧
    (q = .trap → Answers (.trap t) s done) ∧ (q = .op → Answers (.op t) s done) ∧ (q = .lock → Answers (.lock t) s done) ∧
    (q = .li → Answers (.li t) s done)

/-- Branches: target, link register, and the faults of a target outside the instruction memory. With pc a multiple of
4: a branch whose target lies in the instruction memory, and for JR on a multiple of 4, moves pc there; CALL and JR
write pc + 4 to rd, JR reading rs1 first. A target outside 0 to 0x3_FFFC faults with IFETCH, before a JR target off a
multiple of 4 faults with MISALIGN; neither writes rd. A pc that has passed 0x3_FFFC faults with IFETCH at fault pc
0x4_0000. (R120, R121) -/
def Obligations.BranchInstructions : Prop :=
  ∀ (s : State) (t w : Nat), (s.thread t).pc % 4 = 0 →
    let x := s.thread t
    let moved (y : Thread) (n : Nat) : Thread := { retired s y 0 1 with pc := n }
    let out (i : Int) : Prop := i < 0 ∨ 0x3FFFC < i
    let rel : Nat := (x.gr (qRs1 w) + u64 (qImm12 w)) % 2 ^ 64
    (∀ n : Nat, Issues s t w .br → (x.pc : Int) + 4 * qOff22 w = n → n ≤ 0x3FFFC →
      Answers (.br t) s fun u => IsaFrame s u t ∧ u.thread t = moved x n) ∧
    (∀ n : Nat, Issues s t w .call → (x.pc : Int) + 4 * qOff17 w = n → n ≤ 0x3FFFC →
      Answers (.call t) s fun u => IsaFrame s u t ∧ u.thread t = moved (x.setG (qRd w) (x.pc + 4)) n) ∧
    (Issues s t w .jr → rel ≤ 0x3FFFC → rel % 4 = 0 →
      Answers (.jr t) s fun u => IsaFrame s u t ∧ u.thread t = moved (x.setG (qRd w) (x.pc + 4)) rel) ∧
    ((∀ l ∈ s.sp.locks, l.2.owner ≠ some t) →
      (Issues s t w .br → out (x.pc + 4 * qOff22 w) → Answers (.br t) s fun u => ∃ a, Faults s u t 2 0 x.pc a false) ∧
      (Issues s t w .call → out (x.pc + 4 * qOff17 w) → Answers (.call t) s fun u => ∃ a, Faults s u t 2 0 x.pc a false) ∧
      (Issues s t w .jr → 0x3FFFC < rel → Answers (.jr t) s fun u => Faults s u t 2 0 x.pc (rel % 2 ^ 40) false) ∧
      (Issues s t w .jr → rel ≤ 0x3FFFC → rel % 4 ≠ 0 → Answers (.jr t) s fun u => Faults s u t 3 0 x.pc rel false) ∧
      (t < 64 → s.mayIssue t = true → x.refused = none → 0x40000 ≤ x.pc →
        Answers (.sequentialFetchEnd t) s fun u => Faults s u t 2 0 0x40000 0x40000 false))

/-- Loads and stores: the value loaded, the bytes stored, posted stores, and the checks of the address. A load from
the own data memory or from general SRAM writes the little-endian bytes at the effective address to rd, extended as
R111 says. A store to the own data memory writes the low bytes of rd there and no other byte; any other store is
posted, last in the thread's list. An address with bits [63:40] not 0 faults with BUSERR, one that is no multiple of
the access size with MISALIGN, without any effect. (R111, R112, R113, R114, R139, R655, 03_quiser_isa.md) -/
def Obligations.LoadsAndStores : Prop :=
  (∀ v : Word, loadVal 0x14 (v.toNat % 2 ^ 8) = ((v.truncate 8).signExtend 64).toNat ∧
    loadVal 0x16 (v.toNat % 2 ^ 16) = ((v.truncate 16).signExtend 64).toNat ∧
    loadVal 0x18 v.toNat = (v.signExtend 64).toNat ∧ loadVal 0x15 v.toNat = v.toNat ∧ loadVal 0x17 v.toNat = v.toNat ∧
    loadVal 0x19 v.toNat = v.toNat ∧ loadVal 0x1A v.toNat = v.toNat) ∧
  ∀ (s : State) (t w : Nat),
    let x := s.thread t
    let n := accSize (qMajor w)
    let a := (x.gr (qRs1 w) + u64 (qImm12 w)) % 2 ^ 64
    let loaded (c : Nat) : Thread := retired s (x.setG (qRd w)
      (loadVal (qMajor w) (ofBytesLE ((List.range n).map fun i => s.byte (a + i))))) 4 c
    (Issues s t w .load → a % n = 0 → s.eccIn a n = [] → ownDmem t a = true →
      Answers (.memLoad t) s fun u => IsaFrame s u t ∧ u.thread t = loaded 3) ∧
    (Issues s t w .load → a % n = 0 → s.eccIn a n = [] → a < 0x2000000 →
      Answers (.memLoad t) s fun u => IsaFrame s u t ∧ u.thread t = loaded 24) ∧
    (Issues s t w .store → a % n = 0 → s.eccIn a n = [] → ownDmem t a = true →
      Answers (.memStore t) s fun u => (∀ i, i < n → u.byte (a + i) = BitVec.ofNat 8 (x.gr (qRd w) / 2 ^ (8 * i))) ∧
        MemKeptBut s u a n ∧ RegsKept s u [Reg.spForced, Reg.spEvstat] ∧
        (∀ j, j ≠ t → SameRegs (s.thread j) (u.thread j)) ∧ u.thread t = retired s x 4 1) ∧
    (Issues s t w .store → a % n = 0 → a < 2 ^ 40 → ownDmem t a = false →
      Answers (.memStore t) s fun u => IsaFrame s u t ∧
        u.thread t = retired s { x with posted := x.posted ++ [{ addr := a, data := bytesLE n (x.gr (qRd w)) }] } 4 1) ∧
    ((2 ^ 40 ≤ a ∨ a % n ≠ 0) → (∀ l ∈ s.sp.locks, l.2.owner ≠ some t) →
      let code := if 2 ^ 40 ≤ a then 4 else 3
      (Issues s t w .load → Answers (.memLoad t) s fun u => Faults s u t code 0 x.pc (a % 2 ^ 40) false) ∧
      (Issues s t w .store → Answers (.memStore t) s fun u => Faults s u t code 0 x.pc (a % 2 ^ 40) false))

/-- A posted store takes effect, or is refused and faults its thread at the next issue. STORE_ACK of a posted store to
general SRAM, with no earlier one of its window on the way, writes its bytes and no other byte and takes the store off
the thread's list. STORE_REFUSED of one to an unmapped address writes nothing, records the access and marks the
thread; the next instruction that the thread would issue then faults with BUSERR, imprecise, at the store's address,
and takes no effect. (R114, R116, R7, R27) -/
def Obligations.PostedStores : Prop :=
  ∀ (s : State) (t i : Nat) (q : Posted),
    let x := s.thread t
    x.posted[i]? = some q → (∀ p ∈ x.posted.take i, windowOf p.addr ≠ windowOf q.addr) → q.data ≠ [] → x.wait = .none →
    (regionOf q.addr = .sram → regionOf (q.addr + q.data.length - 1) = .sram → s.eccIn q.addr q.data.length = [] →
      Answers (.storeAck t i) s fun u => u.thread t = { x with posted := x.posted.eraseIdx i } ∧
        (∀ j, j < q.data.length → some (u.byte (q.addr + j)) = q.data[j]?) ∧ MemKeptBut s u q.addr q.data.length ∧
        RegsKept s u [] ∧ (∀ j, j ≠ t → u.thread j = s.thread j)) ∧
    (regionOf q.addr = .unmapped → q.orphan = false → x.refused = none →
      Answers (.storeRefused t i) s fun u =>
        u.thread t = { x with posted := x.posted.eraseIdx i, refused := some q.addr } ∧ MemKept s u ∧
        (u.rget Reg.meshAccLo).toNat = q.addr % 2 ^ 32 ∧ RegsKept s u [Reg.meshAccLo, Reg.meshAccHi, Reg.meshEvstat] ∧
        u.rb Reg.meshEvstat 0 = true) ∧
    (∀ a, x.refused = some a → a < 2 ^ 40 → x.pc < 2 ^ 19 → t < 64 → s.mayIssue t = true →
      (∀ l ∈ s.sp.locks, l.2.owner ≠ some t) → Answers (.nop t) s fun u => Faults s u t 4 0 x.pc a true)

/-- OP, OPX and AT issue an operation: the handle PENDING, the operation last in the list, or the fault HANDLE. When
kd is not PENDING and the unit is 0 to 14, the handle becomes PENDING with the operation's number, and the operation
stands last in the list with its thread, unit, object (ro[31:0], or ext for OPX), descriptor address and, under AT,
its time. A unit of 15 to 31 makes the handle DONE with NOSUCH. A PENDING kd faults with HANDLE and issues nothing.
(R122, R123, R125) -/
def Obligations.OperationIssue : Prop :=
  ∀ (s : State) (t w : Nat),
    let x := s.thread t
    let e := s.imem t (x.pc + 4)
    let issued (wo obj len : Nat) (time : Option Nat) (u : State) : Prop := CoreFrame s u t ∧ u.sp.locks = s.sp.locks ∧
      u.thread t = retired s (x.setHandle (qKd wo) (.pending s.sp.nextOp)) len 2 ∧ u.sp.nextOp = s.sp.nextOp + 1 ∧
      u.sp.ops = s.sp.ops ++ [{ id := s.sp.nextOp, tid := t, k := qKd wo, unit := qUnit wo, obj := obj,
                                rdesc := x.gr (qRdesc wo), time := time }]
    ((x.handle (qKd w)).isPending = false → qUnit w < 15 →
      (Issues s t w .op → Answers (.op t) s (issued w (x.gr (qRo w) % 2 ^ 32) 4 none)) ∧
      (Issues s t w .opx → Answers (.opx t) s (issued w e 8 none))) ∧
    (Issues s t w .atT → qRow e = some .op → x.guardOk e = true → x.pc + 8 ≤ 0x40000 →
      s.eccIn (imemAddr t (x.pc + 4)) 4 = [] → (x.handle (qKd e)).isPending = false → qUnit e < 15 →
      Answers (.atT t) s (issued e (x.gr (qRo e) % 2 ^ 32) 8 (some (x.gr (qRs1 w))))) ∧
    (Issues s t w .op → (x.handle (qKd w)).isPending = false → 15 ≤ qUnit w → Answers (.op t) s fun u => IsaFrame s u t ∧
      ∃ c : OpRec, c.status = .nosuch ∧ u.thread t = retired s (x.setHandle (qKd w) (.done c)) 4 2) ∧
    ((x.handle (qKd w)).isPending = true → (∀ l ∈ s.sp.locks, l.2.owner ≠ some t) →
      (Issues s t w .op → Answers (.op t) s fun u => Faults s u t 6 0 x.pc 0 false ∧ u.sp.nextOp = s.sp.nextOp) ∧
      (Issues s t w .opx → Answers (.opx t) s fun u => Faults s u t 6 0 x.pc 0 false ∧ u.sp.nextOp = s.sp.nextOp))

/-- A unit accepts an operation: what it takes from the header, and the first checks that refuse one. An operation of
TIME with a descriptor in general SRAM whose header passes the checks of R152 and whose code is 1 or 4 (neither has a
payload) is accepted, a timed BOUNDARY only on a grid that issues boundaries: code, flags, tag, result area and record
address are those of the header, it is late exactly when its time has been reached, it is the latest accepted, its
thread is not ready for two cycles more, and no other operation, register or byte changes. A timed BOUNDARY on another
grid ends with REFUSED at once (R85). A descriptor address that is no multiple of 8 ends it with CFGERR, one of 2^40
or more with FAULT, cause DESCFAULT; an unlisted code ends it with CFGERR. (R85, R151, R152, R163, R656,
04_operations.md) -/
def Obligations.OperationAcceptance : Prop :=
  ∀ (s : State) (o : Op), s.op o.id = some o → o.accepted = false → o.out = none → o.unit = 13 → o.tid < 64 →
    (∀ p ∈ s.sp.ops, p.id < o.id → p.unit = 13 → p.tid / 8 = o.tid / 8 → p.accepted = false → p.out ≠ none) →
    let h := (List.range 32).map fun i => s.byte (o.rdesc + i)
    let late := match o.time with | some t => decide (t ≤ s.now) | none => false
    (o.rdesc % 8 = 0 → o.rdesc + 32 ≤ 0x2000000 → s.eccIn o.rdesc 32 = [] → recNat h 1 1 < 4 → recNat h 2 2 = 0 →
      recNat h 20 4 = 0 → recNat h 24 8 % 16 = 0 → recNat h 24 8 < 2 ^ 40 → recNat h 8 8 % 8 = 0 → recNat h 8 8 < 2 ^ 40 →
      (recNat h 8 8 ≠ 0 → recNat h 16 4 ≠ 0) →
      ((recNat h 0 1 = 1 ∨ (recNat h 0 1 = 4 ∧ o.obj < 16 ∧ (o.time = none ∨ (s.grid o.obj).running = true))) →
        Answers (.opAccept o.id) s fun u => MemKept s u ∧ RegsKept s u [] ∧ OpsKept s u o.id ∧
          u.op o.id = some { o with accepted := true, late := late, code := recNat h 0 1, flags := recNat h 1 1,
                                    tag := recNat h 4 4, resAddr := recNat h 8 8, resLen := recNat h 16 4,
                                    recAddr := recNat h 24 8, payload := [], acc := s.sp.nextAcc, accAt := s.now } ∧
          u.sp.nextAcc = s.sp.nextAcc + 1 ∧ (o.orphan = false → s.cyc + 2 ≤ (u.thread o.tid).readyAt)) ∧
      (recNat h 0 1 = 4 → o.obj < 16 → o.time ≠ none → (s.grid o.obj).running = false →
        Answers (.opAccept o.id) s fun u => MemKept s u ∧ OpsKept s u o.id ∧ OpEnded u o.id .refused []) ∧
      (4 < recNat h 0 1 → Answers (.opAccept o.id) s fun u => MemKept s u ∧ OpsKept s u o.id ∧ OpEnded u o.id .cfgerr [])) ∧
    (o.rdesc % 8 ≠ 0 →
      Answers (.opAccept o.id) s fun u => MemKept s u ∧ OpsKept s u o.id ∧ OpEnded u o.id .cfgerr []) ∧
    (o.rdesc % 8 = 0 → 2 ^ 40 ≤ o.rdesc → Answers (.opAccept o.id) s fun u => MemKept s u ∧
      OpsKept s u o.id ∧ OpEnded u o.id .fault [] ∧ ∃ p c, u.op o.id = some p ∧ p.out = some c ∧ c.cause = 5)

/-- A completion is delivered: record copied, handle DONE, event flag, operation gone. An ended operation of a thread
without results, whose handle is PENDING on it, is delivered: the record of R154 is written to rec_addr in general
SRAM when that is not 0, and no other byte changes; the handle becomes DONE with the record; with `ev` the thread's
bit of SP_CMPL and the flag cmpl_lo or cmpl_hi are set; the operation leaves the list. (R154, R157) -/
def Obligations.OperationCompletion : Prop :=
  (∀ c : OpRec, c.cause < 256 → c.uflags + c.unit < 256 → c.code < 256 → c.tag < 2 ^ 32 → c.stamp < 2 ^ 32 → c.obj < 2 ^ 32 →
    c.bytes.length = 16 ∧ recNat c.bytes 0 1 = c.status.code ∧ recNat c.bytes 1 1 = c.cause ∧
    recNat c.bytes 2 1 = c.uflags + c.unit ∧ recNat c.bytes 3 1 = c.code ∧ recNat c.bytes 4 4 = c.tag ∧
    recNat c.bytes 8 4 = c.stamp ∧ recNat c.bytes 12 4 = c.obj) ∧
  ∀ (s : State) (o : Op) (c : OpRec), s.op o.id = some o → o.out = some c → o.results = [] → o.orphan = false → o.tid < 64 →
    o.unit ≠ 7 → (s.thread o.tid).handle o.k = .pending o.id → (s.thread o.tid).wait = .none →
    (∀ p ∈ s.sp.ops, p.id < o.id → p.tid = o.tid → p.unit = o.unit → p.obj = o.obj → p.out = none) →
    (o.recAddr ≠ 0 → o.recAddr % 16 = 0 ∧ o.recAddr + 16 ≤ 0x2000000 ∧ s.eccIn o.recAddr 16 = []) →
    Answers (.opComplete o.id) s fun u =>
      (o.recAddr ≠ 0 → ∀ i, i < 16 → some (u.byte (o.recAddr + i)) = c.bytes[i]?) ∧
      (∀ b, (o.recAddr = 0 ∨ b < o.recAddr ∨ o.recAddr + 16 ≤ b) → u.byte b = s.byte b) ∧
      (u.thread o.tid) = (s.thread o.tid).setHandle o.k (.done c) ∧ (∀ j, j ≠ o.tid → u.thread j = s.thread j) ∧
      RegsKept s u [Reg.spCmplLo + 4 * (o.tid / 32), Reg.spEvstat] ∧
      (bit o.flags 0 = true → u.rb (Reg.spCmplLo + 4 * (o.tid / 32)) (o.tid % 32) = true ∧
        u.rb Reg.spEvstat (6 + o.tid / 32) = true) ∧
      (bit o.flags 0 = false → RegsKept s u []) ∧
      u.sp.ops = s.sp.ops.filter fun p => p.id != o.id

/-- Handle summaries, release and cancel, waits and their timeout, and fences. HSTAT gives state, status and stamp of
a handle; HREL makes a DONE or FREE handle FREE and faults on a PENDING one; HCAN of a handle that is not PENDING only
passes, and of an untimed operation that has not started ends it with ABORTED, cause CANCEL; HMASK gives the masks. A
wait whose condition is met, or that polls, returns with pd and the DONE handles of its mask; else the thread waits.
WAIT_TIMEOUT returns a wait whose deadline has passed, with pd 1 if its condition is met by then. FENCE and FENCE_M
pass once nothing of theirs is outstanding, and wait otherwise. (R126, R127, R128, R129, R159) -/
def Obligations.HandleInstructions : Prop :=
  ∀ (s : State) (t w : Nat),
    let x := s.thread t
    let h := x.handle (qK w)
    let m := x.gr (qRs1 w)
    let pend (k : Nat) : Bool := (x.handle k).isPending
    let dn (k : Nat) : Bool := (x.handle k).isDone
    let met (all : Bool) : Prop := (∀ k, k < 16 → bit m k = true → pend k = false) ∨
      (all = false ∧ ∃ k, k < 16 ∧ bit m k = true ∧ dn k = true)
    let returned (y : Thread) (pd rd : Nat) (ok : Bool) (z : Thread) : Prop := ∃ v, v < 2 ^ 16 ∧
      (∀ k, k < 16 → bit v k = (bit m k && dn k)) ∧ z = (y.setP pd ok).setG rd v
    (Issues s t w .hstat → Answers (.hstat t) s fun u => IsaFrame s u t ∧ u.thread t = retired s (x.setG (qRd w)
      (match h with | .free => 0 | .pending _ => 0x100 | .done c => c.stamp * 2 ^ 32 + 0x200 + c.status.code)) 4 1) ∧
    (Issues s t w .hrel → h.isPending = false → Answers (.hrel t) s fun u => IsaFrame s u t ∧
      u.thread t = retired s (x.setHandle (qK w) .free) 4 1) ∧
    (Issues s t w .hrel → h.isPending = true → (∀ l ∈ s.sp.locks, l.2.owner ≠ some t) →
      Answers (.hrel t) s fun u => Faults s u t 6 0 x.pc 0 false) ∧
    (Issues s t w .hcan → h.isPending = false → Answers (.hcan t) s fun u => IsaFrame s u t ∧ u.thread t = retired s x 4 1) ∧
    (∀ o : Op, Issues s t w .hcan → h = .pending o.id → s.op o.id = some o → o.out = none → o.acted = false → o.time = none →
      Answers (.hcan t) s fun u => CoreFrame s u t ∧ u.thread t = retired s x 4 1 ∧ OpsKept s u o.id ∧
        ∃ p c, u.op o.id = some p ∧ p.out = some c ∧ c.status = .aborted ∧ c.cause = 1 ∧ p.results = []) ∧
    (Issues s t w .hmask → Answers (.hmask t) s fun u => IsaFrame s u t ∧ ∃ v, v < 2 ^ 32 ∧
      (∀ k, k < 16 → bit v k = dn k ∧ bit v (16 + k) = pend k) ∧ u.thread t = retired s (x.setG (qRd w) v) 4 1) ∧
    (∀ (all : Bool) (c : Instr), c = (if all then .waitAll t else .waitAny t) →
      Issues s t w (if all then .waitAll else .waitAny) →
      ((met all ∨ x.gr (qRs2 w) = 0) → Answers c s fun u => IsaFrame s u t ∧ ∃ (ok : Bool) (z : Thread), (ok = true ↔ met all) ∧
        returned x (bits w 6 4) (qRd w) ok z ∧ u.thread t = retired s z 4 2) ∧
      (¬ met all → x.gr (qRs2 w) ≠ 0 → Answers c s fun u => IsaFrame s u t ∧ (u.thread t).pc = x.pc ∧ (u.thread t).g = x.g ∧
        (u.thread t).wait = .wait all (m % 2 ^ 16) (if x.gr (qRs2 w) = 2 ^ 64 - 1 then 2 ^ 64
          else min (s.now + x.gr (qRs2 w)) (2 ^ 64 - 1)) (bits w 6 4) (qRd w))) ∧
    (∀ (all : Bool) (mk d pd rd : Nat), x.wait = .wait all mk d pd rd → d < s.now →
      Answers (.waitTimeout t) s fun u => (u.thread t).wait = .none ∧ (u.thread t).pc = x.pc + 4 ∧ IsaFrame s u t ∧
        (pd ≠ 0 → pd < 8 → (u.thread t).pr pd = x.waitMet all mk)) ∧
    (Issues s t w .fence → (if x.outstanding = [] ∧ s.opsOf t = [] then
      Answers (.fence t) s fun u => IsaFrame s u t ∧ u.thread t = retired s x 4 2
      else Answers (.fence t) s fun u => IsaFrame s u t ∧ (u.thread t).wait = .fence false ∧ (u.thread t).pc = x.pc)) ∧
    (Issues s t w .fenceM → (if x.outstanding = [] then
      Answers (.fenceM t) s fun u => IsaFrame s u t ∧ u.thread t = retired s x 4 2
      else Answers (.fenceM t) s fun u => IsaFrame s u t ∧ (u.thread t).wait = .fence true ∧ (u.thread t).pc = x.pc))

/-- LOCK, TRYLOCK and UNLOCK in every state of a lock. A number outside 0 to 255 gives NOSUCH. A free lock is taken
with OK, or BROKEN and is then no longer broken. Held by the thread: REFUSED, still held. Held by another: LOCK joins
the end of the queue and waits, TRYLOCK gives BUSY. UNLOCK frees a lock of its thread, or hands it to the first
waiter, which goes on with OK; any other UNLOCK gives DENIED and changes no lock. (R130, R131, R132) -/
def Obligations.LockInstructions : Prop :=
  ∀ (s : State) (t w : Nat),
    let x := s.thread t
    let n := (x.gr (qRs1 w) + u64 (qImm12 w)) % 2 ^ 64
    let l := s.hwlock n
    let gave (st : Status) (u : State) : Prop := CoreFrame s u t ∧ u.sp.ops = s.sp.ops ∧
      u.thread t = retired s (x.setG (qRd w) st.code) 4 2
    let kept (u : State) : Prop := ∀ k, u.hwlock k = s.hwlock k
    let only (y : HwLock) (u : State) : Prop := u.hwlock n = y ∧ ∀ k, k ≠ n → u.hwlock k = s.hwlock k
    let row (c : Instr) (q : QRow) (P : State → Prop) : Prop := Issues s t w q → Answers c s P
    (256 ≤ n → (row (.lock t) .lock fun u => gave .nosuch u ∧ kept u) ∧ (row (.trylock t) .trylock fun u => gave .nosuch u ∧ kept u)
      ∧ (row (.unlock t) .unlock fun u => gave .nosuch u ∧ kept u)) ∧
    (n < 256 → l.owner = none →
      (row (.lock t) .lock fun u => gave (if l.broken then .broken else .ok) u ∧ only { owner := some t, waiters := l.waiters } u) ∧
      (row (.trylock t) .trylock fun u =>
        gave (if l.broken then .broken else .ok) u ∧ only { owner := some t, waiters := l.waiters } u) ∧
      (row (.unlock t) .unlock fun u => gave .denied u ∧ kept u)) ∧
    (n < 256 → l.owner = some t →
      (row (.lock t) .lock fun u => gave .refused u ∧ kept u) ∧ (row (.trylock t) .trylock fun u => gave .refused u ∧ kept u) ∧
      (l.waiters = [] → row (.unlock t) .unlock fun u => gave .ok u ∧ only {} u) ∧
      (∀ j rest rd, l.waiters = j :: rest → j ≠ t → (s.thread j).wait = .lock n rd → row (.unlock t) .unlock fun u =>
        u.thread t = retired s (x.setG (qRd w) Status.ok.code) 4 2 ∧ only { owner := some j, waiters := rest } u ∧
        (u.thread j).wait = .none ∧ (u.thread j).g = ((s.thread j).setG rd Status.ok.code).g ∧
        (u.thread j).pc = (s.thread j).pc + 4 ∧ MemKept s u)) ∧
    (∀ o, n < 256 → l.owner = some o → o ≠ t →
      (row (.lock t) .lock fun u => CoreFrame s u t ∧ only { l with waiters := l.waiters ++ [t] } u ∧
        (u.thread t).wait = .lock n (qRd w) ∧ (u.thread t).pc = x.pc ∧ (u.thread t).g = x.g) ∧
      (row (.trylock t) .trylock fun u => gave .busy u ∧ kept u) ∧ (row (.unlock t) .unlock fun u => gave .denied u ∧ kept u))

/-- Starting, stopping, halting, yielding, trapping and restarting a thread, and breaking a lock. THREAD_START of a
thread that is not RUNNING gives it the registers of R90, the pc of SP_Tt_ENTRY, state RUNNING and `restarts` 0; of a
RUNNING one it only sets cfgerr. THREAD_STOP ends a RUNNING thread, whose operations become orphans; HALT likewise
with the flag halt; both when the thread holds no lock. YIELD passes at once when no other thread was ready, and else
waits for those that were. TRAP faults with its code. FAULT_RESTART restarts a faulted thread with one more restart.
LOCK_FORCE_BREAK frees a held lock nobody waits for as broken and sets lock_broken. (R90, R141, R142, R143, R145,
R149, R174, R179, R180, R134) -/
def Obligations.ThreadControl : Prop :=
  ∀ (s : State) (t w : Nat), t < 64 →
    let x := s.thread t
    let others := (s.readyOf (t / 8)).filter (· != t)
    let fresh (restarts : Nat) (y : Thread) : Prop := y.state = .running ∧ y.pc = (s.rget (Reg.spTEntry t)).toNat % 2 ^ 18 ∧
      y.g = [] ∧ y.p = 0 ∧ y.k = [] ∧ y.wait = .none ∧ y.restarts = restarts ∧ y.readyAt = s.cyc + 1 ∧ y.refused = none
    let orphaned (u : State) : Prop := u.sp.ops = s.sp.ops.map fun o => if o.tid = t then { o with orphan := true } else o
    (s.sp.restart = none → x.state ≠ .running → Answers (.threadStart t) s fun u => fresh 0 (u.thread t) ∧ MemKept s u ∧
      RegsKept s u [Reg.spFaultedLo + 4 * (t / 32)] ∧ (∀ j, j ≠ t → u.thread j = s.thread j)) ∧
    (s.sp.restart = none → x.state = .running → Answers (.threadStart t) s fun u => (∀ j, u.thread j = s.thread j) ∧
      u.rb Reg.spEvstat 4 = true ∧ RegsKept s u [Reg.spEvstat] ∧ MemKept s u) ∧
    (s.sp.restart = none → x.state = .running → (∀ l ∈ s.sp.locks, l.2.owner ≠ some t) → Answers (.threadStop t) s fun u =>
      (u.thread t).state = .stopped ∧ (u.thread t).wait = .none ∧ (u.thread t).g = x.g ∧ orphaned u ∧ MemKept s u ∧
      RegsKept s u [] ∧ (∀ j, j ≠ t → u.thread j = s.thread j)) ∧
    (Issues s t w .halt → (∀ l ∈ s.sp.locks, l.2.owner ≠ some t) → Answers (.halt t) s fun u =>
      (u.thread t).state = .halted ∧ (u.thread t).g = x.g ∧ orphaned u ∧ CoreFrame s u t ∧ u.rb Reg.spEvstat 1 = true) ∧
    (Issues s t w .yield → Answers (.yield t) s fun u => IsaFrame s u t ∧
      ((others = [] ∧ u.thread t = retired s x 4 1) ∨
       (others ≠ [] ∧ (u.thread t).pc = x.pc + 4 ∧ (u.thread t).wait = .yield others))) ∧
    (Issues s t w .trap → (∀ l ∈ s.sp.locks, l.2.owner ≠ some t) → Answers (.trap t) s fun u =>
      Faults s u t 7 (w % 2 ^ 12) x.pc 0 false) ∧
    (x.state = .faulted → x.restartFrom ≠ none → Answers (.faultRestart t) s fun u => fresh (x.restarts + 1) (u.thread t) ∧
      MemKept s u ∧ RegsKept s u [Reg.spFaultedLo + 4 * (t / 32)] ∧ (∀ j, j ≠ t → u.thread j = s.thread j) ∧
      u.rb (Reg.spFaultedLo + 4 * (t / 32)) (t % 32) = false) ∧
    (∀ n o, n < 256 → (s.hwlock n).owner = some o → (s.hwlock n).waiters = [] → Answers (.lockForceBreak n) s fun u =>
      u.hwlock n = { broken := true } ∧ (∀ k, k ≠ n → u.hwlock k = s.hwlock k) ∧ u.rb Reg.spEvstat 2 = true ∧
      (∀ j, u.thread j = s.thread j) ∧ MemKept s u ∧ RegsKept s u [Reg.spEvstat])

/-- Every signal index has its own bank and slot, and an update keeps a history in the order of its stamps. Under any
salt: bank and slot of an index lie in their ranges, the slot is the upper 14 bits of the index with the salt, the
index is found back from bank and slot, and two different indices that agree in bits [17:4] lie in different banks.
SIG_LOCATE_WRITE shows bank and slot of the index and changes no other register, memory byte, signal or operation. Let
a history have at most four entries, aged entries last, and the others in strictly rising age, none older than 2^30 +
2^28 ns (the bound of an ageing visit). After an update whose stamp lies within 2^30 ns of `now`, all of this still
holds, and unless the update was dropped the history holds an entry with its stamp and value that is not aged. (R187,
R189, R196, R197, R200, 05_signal_store.md) -/
def Obligations.SignalRecordsAndHistory : Prop :=
  (∀ s : State,
      (∀ i, i < 2 ^ 18 → (s.locate i).1 < 16 ∧ (s.locate i).2 < 16384 ∧
        (s.locate i).2 = (i ^^^ s.sig.salt.toNat % 2 ^ 18) / 16 ∧ s.indexOf (s.locate i).1 (s.locate i).2 = i) ∧
      (∀ i j, i < 2 ^ 18 → j < 2 ^ 18 → s.locate i = s.locate j → i = j) ∧
      (∀ i j, i < 2 ^ 18 → j < 2 ^ 18 → i ≠ j → i / 16 = j / 16 → (s.locate i).1 ≠ (s.locate j).1) ∧
      (∀ v : Word, let i := v.toNat % 2 ^ 18
        Answers (.sigLocateWrite v) s fun u => (u.rget Reg.sigLocateIdx).toNat = i ∧
          (u.rget Reg.sigLocateRes).toNat = (s.locate i).1 * 2 ^ 28 + (s.locate i).2 ∧
          RegsKept s u [Reg.sigLocateIdx, Reg.sigLocateRes] ∧ MemKept s u ∧ u.sig = s.sig ∧ u.sp = s.sp)) ∧
  (∀ (now u v : Nat) (h : List Entry),
      let age (p : Nat) : Int := diff32 now p
      let ok (l : List Entry) : Prop := l.length ≤ 4 ∧
        (∀ e ∈ l, e.stamp < 2 ^ 32 ∧ (e.aged = false → -(2 ^ 30) ≤ age e.stamp ∧ age e.stamp ≤ 2 ^ 30 + 2 ^ 28)) ∧
        l.Pairwise (fun a b => (a.aged = true → b.aged = true) ∧ (a.aged = false → b.aged = false → age a.stamp < age b.stamp))
      now < 2 ^ 32 → u < 2 ^ 32 → -(2 ^ 30) ≤ age u → age u ≤ 2 ^ 30 → ok h →
      ok (placeIn h u v (placeOf now h u)) ∧
      (placeOf now h u ≠ .late → (⟨v, u, false⟩ : Entry) ∈ placeIn h u v (placeOf now h u)) ∧
      (placeOf now h u = .late → placeIn h u v (placeOf now h u) = h))

/-- An as-of read gives the outcome of the first case of the table that holds. For a signal whose entries are not
aged, with its history as reads see it: undefined gives NOSUCH; an empty history, or an instant more than 2^30 ns
before `now`, gives EMPTY; an instant more than 2^30 ns ahead, or not older than entry 0, gives entry 0; an instant
equal to the stamp of an entry gives that entry; an instant older than every entry gives EMPTY; else a hold read, or
one of a signal without `interp` or of type BITS, gives the newest entry older than the instant with its stamp, and an
interpolating read the value of R203 with the instant as stamp. With aged entries the older bracketing entry, when
aged, is held (R200). (R202) -/
def Obligations.AsOfReads : Prop :=
  ∀ (s : State) (i t : Nat) (interp : Bool), i < 2 ^ 18 →
    let g := s.sigView i
    let d := diff64 s.now t
    let tau := t % 2 ^ 32
    let r := s.sigAsOf i t interp
    (g.defined = false → r.status = .nosuch) ∧
    (g.defined = true → g.hist = [] → r.status = .empty) ∧
    (∀ e0 tl, g.defined = true → g.hist = e0 :: tl →
      (2 ^ 30 < d → r.status = .empty) ∧
      (d ≤ 2 ^ 30 → (d < -(2 ^ 30) ∨ older tau e0.stamp = false) → r.status = .ok ∧ r.val = e0.val ∧ r.stamp = e0.stamp) ∧
      (d ≤ 2 ^ 30 → -(2 ^ 30) ≤ d → older tau e0.stamp = true → e0.aged = false →
        (∀ pre e post, g.hist = pre ++ e :: post → e.aged = false → e.stamp = tau → (∀ x ∈ pre, x.stamp ≠ tau) →
          r.status = .ok ∧ r.val = e.val ∧ r.stamp = tau) ∧
        ((∀ x ∈ g.hist, x.aged = false ∧ older x.stamp tau = false ∧ x.stamp ≠ tau) → r.status = .empty) ∧
        (∀ pre b a post, g.hist = pre ++ b :: a :: post → (∀ x ∈ pre ++ [b], x.aged = false ∧ older x.stamp tau = false) →
          (∀ x ∈ g.hist, x.aged = true ∨ x.stamp ≠ tau) → (a.aged = true ∨ older a.stamp tau = true) →
          (interp = false ∨ g.interp = false ∨ g.type = 5 ∨ a.aged = true →
            r.status = .ok ∧ r.val = a.val ∧ r.stamp = a.stamp) ∧
          (interp = true → g.interp = true → g.type ≠ 5 → a.aged = false →
            r.status = .ok ∧ r.stamp = tau ∧ r.val = interpVal g.type g.modular a.stamp a.val b.stamp b.val tau))))

/-- An interpolated integer value lies nearest to the line between its bracketing entries, and between them. For types
I32, Q16 and U32 with stamps sa, then τ, then sb: the result minus va is the product of the difference and the
fraction, rounded to the nearest integer, and the result lies between va and vb. With `modular` the same holds of the
difference taken modulo 2^32 as a signed number, and the result is taken modulo 2^32. (R203, 05_signal_store.md) -/
def Obligations.InterpolatedValues : Prop :=
  ∀ (type sa va sb vb tau : Nat), (type = 1 ∨ type = 2 ∨ type = 4) → va < 2 ^ 32 → vb < 2 ^ 32 → sa < 2 ^ 32 → sb < 2 ^ 32 →
    tau < 2 ^ 32 →
    let num : Nat := (tau + 2 ^ 32 - sa) % 2 ^ 32
    let den : Nat := (sb + 2 ^ 32 - sa) % 2 ^ 32
    let val (v : Nat) : Int := if type = 2 then (v : Int) else sInt 32 v
    let near (q d : Int) : Prop := |2 * (q * den - d * num)| ≤ den
    0 < num → num < den →
    (let r := val (interpVal type false sa va sb vb tau)
     near (r - val va) (val vb - val va) ∧ min (val va) (val vb) ≤ r ∧ r ≤ max (val va) (val vb)) ∧
    (∃ q : Int, near q (sInt 32 (uNat 32 ((vb : Int) - va))) ∧
      (interpVal type true sa va sb vb tau : Int) = ((va : Int) + q) % 2 ^ 32)

/-- The signal instructions: status and result in pd and rd, and the write of a signal. Where no update waits in the
store, for major 0x20, and major 0x33 with a legal extension word: a read that succeeds sets pd to 1 and rd to stamp
and value; any other outcome sets pd to 0 and rd to the status code; nothing else changes. A write of a signal that
accepts it and serves nobody changes that signal's history alone and sets pd to 1 and rd to the stamp written: `now`
for SIGWR, rs2[63:32] for SIGWRT. An index of 2^18 or more gives NOSUCH to reads and writes. (R118) -/
def Obligations.SignalInstructions : Prop :=
  ∀ (s : State) (t w : Nat),
    let x := s.thread t
    let e := s.imem t (x.pc + 4)
    let i := if qMajor w = 0x33 then e % 2 ^ 18 else x.gr (qRs1 w)
    let b := x.gr (qRs2 w)
    let result (st : Status) (v : Nat) : Thread :=
      retired s ((x.setP (bits w 6 4) (st == .ok)).setG (qRd w) (if st = .ok then v else st.code)) (qLen w) 12
    qExtOk w e = true → SigQuiet s → (i < 2 ^ 18 → RecClean s i) →
    (∀ (q : QRow) (c : Instr) (o : ReadOut),
      ((q = .sigrd ∧ c = .sigrd t ∧ o = s.sigHist i 0) ∨ (q = .sighist ∧ c = .sighist t ∧ o = s.sigHist i (b % 4)) ∨
        (q = .sigasH ∧ c = .sigasH t ∧ o = s.sigAsOf i b false) ∨ (q = .sigasI ∧ c = .sigasI t ∧ o = s.sigAsOf i b true)) →
      Issues s t w q → Answers c s fun u => IsaFrame s u t ∧ u.thread t = result o.status (o.stamp * 2 ^ 32 + o.val)) ∧
    (∀ (q : QRow) (c : Instr) (stamp : Nat),
      ((q = .sigwr ∧ c = .sigwr t ∧ stamp = s.now32) ∨ (q = .sigwrt ∧ c = .sigwrt t ∧ stamp = b / 2 ^ 32)) →
      Issues s t w q →
      (2 ^ 18 ≤ i → Answers c s fun u => IsaFrame s u t ∧ u.thread t = result .nosuch 0) ∧
      (i < 2 ^ 18 → (s.sigRec i).defined = false → Answers c s fun u => u.thread t = result .nosuch 0 ∧ MemKept s u ∧
        u.sig = s.sig ∧ u.rb Reg.sigEvstat 2 = true) ∧
      (i < 2 ^ 18 → Accepts s { idx := i, val := b % 2 ^ 32, stamp := stamp, kind := 1, inst := t } →
        placeOf s.now32 (s.sigRec i).hist stamp ≠ .late →
        Answers c s fun u => CoreFrame s u t ∧ u.sp.ops = s.sp.ops ∧ SigsKept s u i ∧ u.thread t = result .ok stamp ∧
          u.sigRec i = { s.sigRec i with
            hist := placeIn (s.sigRec i).hist stamp (b % 2 ^ 32) (placeOf s.now32 (s.sigRec i).hist stamp) }))

/-- The rows of the signal store that move updates: staging, applying with every refusal, ageing and a hot bank.
SAMPLE_STAGE moves the oldest result of the sample path into the staging buffer. SIG_UPDATE_APPLY does nothing while
the notice stage is full. Of a bank whose next update is a staged one that is accepted and serves nobody, it takes
that off the buffer into the history of its signal. Of a bank whose next update waits in its queue: the oldest that
its writers hold back takes the place that becomes free; an undefined signal, a writer that does not match, and a
stamp too far ahead count and flag as R194 says and change no signal; a stamp too old, or older than four entries,
counts in `late` and SIG_LATE; an accepted update that serves nobody goes into the history of its signal alone.
AGEING_VISIT marks exactly the entries more than 2^30 ns before `now`. BANK_HOT marks a bank whose level has stood for
hot_us. (R194, R197, R198, R200, R211, R212, R214, R189) -/
def Obligations.SignalUpdates : Prop :=
  ∀ s : State,
    (∀ p l, s.sig.path = p :: l → s.sig.stage.length < 512 → Answers .sampleStage s fun u =>
      u.sig = { s.sig with path := l, stage := s.sig.stage ++ [p] } ∧ (u.rget Reg.sigStat).toNat % 1024 = s.sig.stage.length + 1 ∧
      RegsKept s u [Reg.sigStat] ∧ MemKept s u) ∧
    (∀ (b : Nat) (x : SigUpd) (staged : Bool), s.bankNext b = some (x, staged) →
      256 ≤ s.noticeLevel + (if staged then 0 else s.sig.stage.length) → Answers (.sigUpdateApply b) s (· = s)) ∧
    (∀ (b : Nat) (x : SigUpd), s.noticeLevel < 256 → s.bankNext b = some (x, true) → RecClean s x.idx →
      x.kind = 3 → s.sig.stage.length ≤ 512 → Accepts s x → placeOf s.now32 (s.sigRec x.idx).hist x.stamp ≠ .late →
      Answers (.sigUpdateApply b) s fun u =>
        u.sigRec x.idx = { s.sigRec x.idx with
          hist := placeIn (s.sigRec x.idx).hist x.stamp x.val (placeOf s.now32 (s.sigRec x.idx).hist x.stamp) } ∧
        SigsKept s u x.idx ∧ MemKept s u ∧ u.sig.stage = s.sig.stage.erase x ∧ u.sig.queue = s.sig.queue ∧
        (u.rget Reg.sigStat).toNat % 1024 = s.sig.stage.length - 1 ∧ RegsKept s u [Reg.sigStat]) ∧
    (∀ (b : Nat) (x h : SigUpd), s.noticeLevel + s.sig.stage.length < 256 → s.bankNext b = some (x, false) → RecClean s x.idx →
      x.kind ≠ 4 → x.kind ≠ 5 → (s.sigRec x.idx).defined = false → s.bankLevel b ≤ 64 →
      (s.sig.held.find? fun y => s.bankOf y.idx == b) = some h → Answers (.sigUpdateApply b) s fun u =>
        u.sig.queue = s.sig.queue.erase x ++ [{ h with at_ := s.cyc }] ∧ u.sig.held = s.sig.held.erase h) ∧
    (∀ (b : Nat) (x : SigUpd), s.noticeLevel + s.sig.stage.length < 256 → s.bankNext b = some (x, false) → RecClean s x.idx →
      let g := s.sigRec x.idx
      let p := placeOf s.now32 g.hist x.stamp
      let counted (reg flag : Nat) (u : State) : Prop := (∀ j, u.sigRec j = s.sigRec j) ∧ MemKept s u ∧
        (u.rget reg).toNat = min ((s.rget reg).toNat + 1) (2 ^ 32 - 1) ∧ u.rb Reg.sigEvstat flag = true
      x.kind ≠ 4 → x.kind ≠ 5 →
      (g.defined = false → Answers (.sigUpdateApply b) s (counted Reg.sigUndef 2)) ∧
      (g.defined = true → g.takes x.kind x.inst = false → Answers (.sigUpdateApply b) s (counted Reg.sigDenied 1)) ∧
      (g.defined = true → g.takes x.kind x.inst = true → 2 ^ 30 < diff32 x.stamp s.now32 →
        Answers (.sigUpdateApply b) s (counted Reg.sigStamperr 4)) ∧
      (s.updRefusal x = none → p = .late → Answers (.sigUpdateApply b) s fun u =>
        u.sigRec x.idx = { g with late := min (g.late + 1) 65535 } ∧ SigsKept s u x.idx ∧ MemKept s u ∧
        (u.rget Reg.sigLate).toNat = min ((s.rget Reg.sigLate).toNat + 1) (2 ^ 32 - 1) ∧ u.rb Reg.sigEvstat 0 = true) ∧
      (Accepts s x → p ≠ .late → Answers (.sigUpdateApply b) s fun u =>
        u.sigRec x.idx = { g with hist := placeIn g.hist x.stamp x.val p } ∧ SigsKept s u x.idx ∧ MemKept s u ∧
        ((∀ h ∈ s.sig.held, s.bankOf h.idx ≠ b) → u.sig.queue = s.sig.queue.erase x) ∧ u.sig.notices = s.sig.notices)) ∧
    (∀ i, RecClean s i → (s.sigRec i).defined = true → Answers (.ageingVisit i) s fun u => SigsKept s u i ∧
      u.sigRec i = { s.sigRec i with hist := (s.sigRec i).hist.map fun e =>
        { e with aged := e.aged || decide (2 ^ 30 < diff32 s.now32 e.stamp) } } ∧ RegsKept s u [] ∧ MemKept s u) ∧
    (∀ b c, b < 16 → tget none b s.sig.hotSince = some c → c + 800 * ((s.rget Reg.sigHotCfg).toNat % 2 ^ 16) ≤ s.cyc →
      s.rb (Reg.sigBankStat b) 31 = false → Answers (.bankHot b) s fun u =>
        u.rb (Reg.sigBankStat b) 31 = true ∧ u.rb Reg.sigStat (16 + b) = true ∧ u.rb Reg.sigEvstat 3 = true ∧
        (u.rget (Reg.sigBankHot b)).toNat = min ((s.rget (Reg.sigBankHot b)).toNat + 1) 65535 ∧ u.sig = s.sig ∧ MemKept s u ∧
        RegsKept s u [Reg.sigBankStat b, Reg.sigStat, Reg.sigEvstat, Reg.sigBankHot b])

/-- The commands of the descriptor port: define, undefine, inform and write a signal, with their status. A command
while one is in progress is refused with cfgerr; one whose bank cannot serve it yet is in progress. Where no update
waits in the store: DPORT_DEFINE of an undefined signal with a legal descriptor makes the signal defined as the four
words say, with an empty history; of a defined one it is REFUSED; with `defined` 0 or a reserved type it is CFGERR;
both change no signal. DPORT_UNDEFINE clears a defined signal that no WATCH is on. DPORT_INFO shows the 48 bytes of
the record. The two writes apply an update of writer kind HOST with the given stamp or that of `now`. The status
stands in SIG_DPORT_CMD, and no memory byte changes. (R191, R194, R216, 05_signal_store.md) -/
def Obligations.DescriptorPort : Prop :=
  ∀ s : State,
    let i := (s.rget Reg.sigDportIdx).toNat % 2 ^ 18
    let word (n : Nat) : Nat := (s.rget (Reg.sigDportW n)).toNat
    let d := wordsLE [word 0, word 1, word 2, word 3]
    let g := s.sigRec i
    let st (x : Status) (u : State) : Prop := (u.rget Reg.sigDportCmd).toNat / 2 ^ 24 = x.code ∧ MemKept s u
    let only (u : State) : Prop := SigsKept s u i ∧ RegsKept s u [Reg.sigDportCmd]
    (∀ c ∈ [Instr.dportDefine, .dportUndefine, .dportInfo, .dportWrite, .dportWriteNow],
      (s.sig.dport.isSome = true → Answers c s fun u => u.rb Reg.sigEvstat 8 = true ∧ RegsKept s u [Reg.sigEvstat] ∧ u.sig = s.sig ∧
        MemKept s u) ∧
      (s.sig.dport = none → s.banksOpen [i] = false → Answers c s fun u => u.rb Reg.sigDportCmd 16 = true ∧
        RegsKept s u [Reg.sigDportCmd] ∧ (∃ k, 1 ≤ k ∧ k ≤ 5 ∧ u.sig = { s.sig with dport := some k }) ∧ MemKept s u)) ∧
    (SigQuiet s → s.sig.dport = none → RecClean s i →
    (g.defined = true → Answers .dportDefine s fun u => st .refused u ∧ only u ∧ u.sigRec i = g) ∧
    (g.defined = false → bit (recNat d 1 1) 0 = false → Answers .dportDefine s fun u => st .cfgerr u ∧ only u ∧ u.sigRec i = g) ∧
    (g.defined = false → bit (recNat d 1 1) 0 = true → 1 ≤ recNat d 0 1 % 16 → recNat d 0 1 % 16 ≤ 5 → recNat d 2 1 % 16 ≤ 10 →
      bit (recNat d 1 1) 4 = false → (recNat d 3 1) &&& 0xF7 = 0 → recNat d 6 2 = 0 → recNat d 8 2 = 0 → recNat d 10 2 ≤ 64 →
      (bit (recNat d 1 1) 3 = true → recNat d 12 2 + recNat d 10 2 ≤ (s.rget Reg.sigRouteLenAct).toNat % 2 ^ 17) →
      Answers .dportDefine s fun u => st .ok u ∧ only u ∧ u.sigRec i =
        { type := recNat d 0 1 % 16, defined := true, interp := bit (recNat d 1 1) 1, modular := bit (recNat d 1 1) 2,
          routeEn := bit (recNat d 1 1) 3, srcKind := recNat d 2 1 % 16, srcInst := recNat d 4 2, captMask := 0, late := 0,
          routeCnt := recNat d 10 2, routeHead := recNat d 12 2, hist := [] }) ∧
    (g.defined = false → Answers .dportUndefine s fun u => st .empty u ∧ only u ∧ u.sigRec i = g) ∧
    (g.defined = true → (∀ w ∈ s.sig.watches, w.idx ≠ i) → Answers .dportUndefine s fun u => st .ok u ∧ only u ∧
      u.sigRec i = {}) ∧
    (g.defined = false → Answers .dportInfo s fun u => st .nosuch u ∧ only u ∧ u.sigRec i = g) ∧
    (g.defined = true → Answers .dportInfo s fun u => st .ok u ∧ u.sig = s.sig ∧
      (∀ n, n < 4 → (u.rget (Reg.sigDportW n)).toNat = recNat (s.sigBytes i) (4 * n) 4) ∧
      (∀ n, n < 8 → (u.rget (Reg.sigDportHist n)).toNat = recNat (s.sigBytes i) (16 + 4 * n) 4)) ∧
    (∀ (c : Instr) (stamp : Nat), ((c = .dportWrite ∧ stamp = word 1) ∨ (c = .dportWriteNow ∧ stamp = s.now32)) →
      (g.defined = false → Answers c s fun u => st .nosuch u ∧ (∀ j, u.sigRec j = s.sigRec j) ∧ u.rb Reg.sigEvstat 2 = true) ∧
      (Accepts s { idx := i, val := word 0, stamp := stamp, kind := 2 } → placeOf s.now32 g.hist stamp ≠ .late →
        Answers c s fun u => st .ok u ∧ only u ∧
          u.sigRec i = { g with hist := placeIn g.hist stamp (word 0) (placeOf s.now32 g.hist stamp) })))

/-- The operations of the SIG unit on an accepted operation that may act. On a store in which no update waits and
whose record of the object holds no error: SIG_DEFINE makes an undefined signal defined as its payload says, with one
entry when `init` is 1 and its stamp lies within 2^30 ns of `now`; SIG_UNDEFINE clears a defined signal, and ends the
WATCH on it ABORTED; SIG_READ of 1 to 256 indices gives value, stamp and status of each, as its mode reads them;
SIG_WRITE of 1 to 256 entries for signals without routes and WATCHes ends with a status for each, and a single
accepted entry goes into the history of its signal; SIG_SETROUTE changes the route fields; SIG_WATCH waits; SIG_INFO
gives the record. n = 0 gives EMPTY, n above 256, a reserved mode or condition, and a route outside the table CFGERR,
an undefined signal NOSUCH, a DEFINE of a defined one REFUSED. Memory, other signals and other operations stay. An
operation whose bank cannot serve it yet stays as it is. (R216, R217, R199, R211, 05_signal_store.md) -/
def Obligations.SignalOperations : Prop :=
  ∀ (s : State) (o : Op),
    let d := o.payload
    let g := s.sigRec o.obj
    let kept (u : State) : Prop := MemKept s u ∧ OpsKept s u o.id
    let quiet (u : State) : Prop := kept u ∧ RegsKept s u [] ∧ u.sig = s.sig
    let ended (st : Status) (res : List Byte) (u : State) : Prop := OpEnded u o.id st res
    (∀ c, (c = .sigDefine o.id ∧ OpMay s o 3 1) ∨ (c = .sigUndefine o.id ∧ OpMay s o 3 2) ∨ (c = .sigSetroute o.id ∧ OpMay s o 3 5) ∨
      (c = .sigWatch o.id ∧ OpMay s o 3 6 ∧ recNat d 0 1 ≤ 3) ∨ (c = .sigInfo o.id ∧ OpMay s o 3 7) →
      s.banksOpen [o.obj] = false → Answers c s (· = s)) ∧
    (OpMay s o 3 3 → (256 < recNat d 10 2 ∨ 3 < recNat d 8 1) → Answers (.sigRead o.id) s fun u => quiet u ∧ ended .cfgerr [] u) ∧
    (OpMay s o 3 3 → recNat d 10 2 = 0 → recNat d 8 1 ≤ 3 → Answers (.sigRead o.id) s fun u => quiet u ∧ ended .empty [] u) ∧
    (OpMay s o 3 4 → 256 < recNat d 2 2 → Answers (.sigWrite o.id) s fun u => quiet u ∧ ended .cfgerr [] u) ∧
    (OpMay s o 3 4 → recNat d 2 2 = 0 → Answers (.sigWrite o.id) s fun u => quiet u ∧ ended .empty [] u) ∧
    (OpMay s o 3 6 → 3 < recNat d 0 1 → Answers (.sigWatch o.id) s fun u => quiet u ∧ ended .cfgerr [] u) ∧
    (∀ n, SigQuiet s → s.ecc = [] → OpMay s o 3 3 → recNat d 10 2 = n → 1 ≤ n → n ≤ 256 → s.noticeLevel + n ≤ 256 → recNat d 8 1 ≤ 3 →
      let r := (List.range n).map fun k => s.sigReadMode (recNat d 8 1) (recNat d 9 1) (recNat d 0 8) (recNat d (16 + 4 * k) 4)
      Answers (.sigRead o.id) s fun u => quiet u ∧ ended o.okSt
        (r.flatMap (fun x => bytesLE 4 x.val ++ bytesLE 4 x.stamp) ++ r.map fun x => BitVec.ofNat 8 x.status.code) u) ∧
    (∀ n, SigQuiet s → s.ecc = [] → OpMay s o 3 4 → recNat d 2 2 = n → 1 ≤ n → n ≤ 256 → s.noticeLevel + n ≤ 256 →
      (∀ k, k < n → (s.sigRec (recNat d (16 + 12 * k) 4)).routeEn = false ∧
        ∀ w ∈ s.sig.watches, w.idx ≠ recNat d (16 + 12 * k) 4) →
      Answers (.sigWrite o.id) s fun u => kept u ∧ ∃ sts : List Status, sts.length = n ∧
        ended o.okSt (sts.map fun x => BitVec.ofNat 8 x.code) u ∧
        (∀ k, k < n → 2 ^ 18 ≤ recNat d (16 + 12 * k) 4 → sts[k]? = some .nosuch) ∧
        (∀ j, (∀ k, k < n → recNat d (16 + 12 * k) 4 ≠ j) → u.sigRec j = s.sigRec j)) ∧
    (SigQuiet s → RecClean s o.obj →
    (OpMay s o 3 1 → g.defined = true → Answers (.sigDefine o.id) s fun u => quiet u ∧ ended .refused [] u) ∧
    (OpMay s o 3 1 → g.defined = false → ((sigOfBytes (d.take 16)).defined = false ∨ (sigOfBytes (d.take 16)).type = 0 ∨
        5 < (sigOfBytes (d.take 16)).type ∨ 10 < (sigOfBytes (d.take 16)).srcKind ∨ maintainedZero (d.take 16) = false) →
      Answers (.sigDefine o.id) s fun u => quiet u ∧ ended .cfgerr [] u) ∧
    (OpMay s o 3 1 → g.defined = false → 1 ≤ (sigOfBytes (d.take 16)).type → (sigOfBytes (d.take 16)).type ≤ 5 →
      (sigOfBytes (d.take 16)).defined = true → (sigOfBytes (d.take 16)).srcKind ≤ 10 → maintainedZero (d.take 16) = true →
      s.routeFits (sigOfBytes (d.take 16)).routeEn (sigOfBytes (d.take 16)).routeCnt (sigOfBytes (d.take 16)).routeHead = true →
      (bit (recNat d 16 1) 0 = true → |diff32 (recNat d 24 4) s.now32| ≤ 2 ^ 30) →
      Answers (.sigDefine o.id) s fun u => kept u ∧ RegsKept s u [] ∧ SigsKept s u o.obj ∧ ended o.okSt [] u ∧
        u.sigRec o.obj = { sigOfBytes (d.take 16) with
          hist := if bit (recNat d 16 1) 0 then [⟨recNat d 20 4, recNat d 24 4, false⟩] else [] }) ∧
    (OpMay s o 3 2 → g.defined = false → Answers (.sigUndefine o.id) s fun u => quiet u ∧ ended .empty [] u) ∧
    (OpMay s o 3 2 → g.defined = true → (∀ w ∈ s.sig.watches, w.idx ≠ o.obj) → Answers (.sigUndefine o.id) s fun u =>
      kept u ∧ RegsKept s u [] ∧ SigsKept s u o.obj ∧ u.sigRec o.obj = {} ∧ ended o.okSt [] u) ∧
    (∀ (w : Watch) (x : Op), OpMay s o 3 2 → g.defined = true → s.sig.watches = [w] → w.idx = o.obj → s.op w.op = some x →
      x.id = w.op → w.op ≠ o.id → x.out = none → Answers (.sigUndefine o.id) s fun u =>
      MemKept s u ∧ SigsKept s u o.obj ∧ u.sigRec o.obj = {} ∧ u.sig.watches = [] ∧ ended o.okSt [] u ∧ OpEnded u w.op .aborted []) ∧
    (∀ x : SigUpd, x = { idx := recNat d 16 4, val := recNat d 20 4, kind := 1, inst := o.tid,
                         stamp := if bit (recNat d 0 1) 0 then s.now32 else recNat d 24 4 } →
      OpMay s o 3 4 → recNat d 2 2 = 1 → x.idx < 2 ^ 18 → RecClean s x.idx → Accepts s x →
      placeOf s.now32 (s.sigRec x.idx).hist x.stamp ≠ .late →
      Answers (.sigWrite o.id) s fun u => kept u ∧ RegsKept s u [] ∧ SigsKept s u x.idx ∧ ended o.okSt [0] u ∧
        u.sigRec x.idx = { s.sigRec x.idx with
          hist := placeIn (s.sigRec x.idx).hist x.stamp x.val (placeOf s.now32 (s.sigRec x.idx).hist x.stamp) }) ∧
    (OpMay s o 3 5 → g.defined = false → Answers (.sigSetroute o.id) s fun u => quiet u ∧ ended .nosuch [] u) ∧
    (OpMay s o 3 5 → g.defined = true → s.routeFits (bit (recNat d 0 1) 0) (recNat d 2 2) (recNat d 4 2) = false →
      Answers (.sigSetroute o.id) s fun u => quiet u ∧ ended .cfgerr [] u) ∧
    (OpMay s o 3 5 → g.defined = true → recNat d 2 2 ≤ 64 →
      (bit (recNat d 0 1) 0 = true → recNat d 4 2 + recNat d 2 2 ≤ (s.rget Reg.sigRouteLenAct).toNat % 2 ^ 17) →
      Answers (.sigSetroute o.id) s fun u => kept u ∧ RegsKept s u [] ∧ SigsKept s u o.obj ∧ ended o.okSt [] u ∧
        u.sigRec o.obj = { g with routeEn := bit (recNat d 0 1) 0, routeCnt := recNat d 2 2, routeHead := recNat d 4 2 }) ∧
    (OpMay s o 3 6 → recNat d 0 1 ≤ 3 → g.defined = false → Answers (.sigWatch o.id) s fun u => quiet u ∧ ended .nosuch [] u) ∧
    (OpMay s o 3 6 → recNat d 0 1 ≤ 3 → g.defined = true → 256 ≤ s.sig.watches.length →
      Answers (.sigWatch o.id) s fun u => quiet u ∧ ended .overload [] u) ∧
    (OpMay s o 3 6 → recNat d 0 1 ≤ 3 → g.defined = true → s.sig.watches.length < 256 → Answers (.sigWatch o.id) s fun u =>
      kept u ∧ RegsKept s u [] ∧ u.op o.id = some { o with acted := true, actedAt := s.now } ∧ (∀ j, u.sigRec j = s.sigRec j) ∧
      u.sig.watches = s.sig.watches ++ [⟨o.id, o.obj, recNat d 0 1, recNat d 4 4⟩]) ∧
    (OpMay s o 3 7 → g.defined = false → Answers (.sigInfo o.id) s fun u => quiet u ∧ ended .nosuch [] u) ∧
    (OpMay s o 3 7 → g.defined = true → Answers (.sigInfo o.id) s fun u => quiet u ∧
      ended o.okSt (s.sigBytes o.obj) u))

/-- Rounding, saturation, renormalisation with hysteresis, and the decay of the absorber. A conversion shifts left
exactly, and to the right to the nearest integer, with ties to even, or toward zero; saturation keeps 32 bits and
changes nothing inside them. The exponent needed is the smallest from the floor on that holds every element, and the
exponent in use follows R231: up at once, down by one after `hyst` samples. Each nonzero element of the absorber moves
toward 0 by at least one LSB and never crosses it. (R229, R230, R231, R258, 06_loop_engine.md) -/
def Obligations.BlockFloatingPoint : Prop :=
  (∀ (e ev v : Int), let k := 23 + ev - e
    (k ≤ 0 → ∀ tr, cvtOne tr e ev v = v * 2 ^ (-k).toNat) ∧
    (0 < k → let c := cvtOne false e ev v
      |2 * (c * 2 ^ k.toNat - v)| ≤ 2 ^ k.toNat ∧ (|2 * (c * 2 ^ k.toNat - v)| = 2 ^ k.toNat → c % 2 = 0)) ∧
    (0 < k → cvtOne true e ev v = Int.tdiv v (2 ^ k.toNat))) ∧
  (∀ v : Int, -(2 ^ 31) ≤ sat32 v ∧ sat32 v ≤ 2 ^ 31 - 1 ∧ (-(2 ^ 31) ≤ v → v ≤ 2 ^ 31 - 1 → sat32 v = v)) ∧
  (∀ (t : LAcc) (exMin e : Int), t.need exMin ≤ e ↔ exMin ≤ e ∧
    ∀ v ∈ t.v, v ≠ 0 → 0 ≤ e + 54 - t.e ∧ |v| < 2 ^ (e + 54 - t.e).toNat) ∧
  (∀ (need ex : Int) (hcount hyst : Nat), hcount < hyst →
    (ex < need → renorm need ex hcount hyst = (need, 0)) ∧ (need = ex ∨ need = ex - 1 → renorm need ex hcount hyst = (ex, 0)) ∧
    (need ≤ ex - 2 → hcount + 1 < hyst → renorm need ex hcount hyst = (ex, hcount + 1)) ∧
    (need ≤ ex - 2 → hcount + 1 = hyst → renorm need ex hcount hyst = (ex - 1, 0))) ∧
  (∀ (alpha : Nat) (h : Int), alpha < 65536 → decayOne alpha 0 = 0 ∧
    (0 < h → decayOne alpha h = max 0 (h - max 1 (h * alpha / 65536)) ∧ 0 ≤ decayOne alpha h ∧ decayOne alpha h < h) ∧
    (decayOne alpha (-h) = -decayOne alpha h))

/-- The operations of the loop engine: what each does when accepted, and when it is turned away. A START whose checks
all pass, a STOP of a context that is not IDLE, a SWAP to the other bank that passes its check and a RESUME by the
owner are taken and act at a boundary. STOP of an IDLE context and SWAP to the bank in use are EMPTY; SWAP, RESUME and
KICK of an IDLE context are REFUSED; KICK and RESUME from another thread than the owner are DENIED; SWAP behind an
accepted one of another thread is BUSY; SWAP to a bank that fails its check is CFGERR with cause BANK and sets cfgerr.
KICK and RESUME set last_ref to the instant of their acceptance. STATUS gives header bytes, counter word and outputs.
TRACE STOP and REARM act on recording and finished buffers. (R257, R259, R260, R263, R264, R266, R268, R270) -/
def Obligations.LoopEngineOperations : Prop :=
  ∀ (s : State) (o : Op),
    let c := o.obj
    let st := s.leState c
    let b := recNat o.payload 0 1 % 2
    let kept (u : State) : Prop := MemKept s u ∧ OpsKept s u o.id
    let ends (x : Status) (u : State) : Prop := kept u ∧ OpEnded u o.id x []
    s.leShadow c = false → c < 256 →
    (OpTakes s o 0 1 → s.startOutcome c = (.ok, 0) → Answers (.leStart o.id) s fun u => OnlyOp s u o.id ∧ OpTaken s u o) ∧
    (OpTakes s o 0 1 → st ≠ 0 → (∀ x ∈ s.sp.ops, x.unit = 0 → x.code = 1 → x.obj = c → x.taken = false) →
      Answers (.leStart o.id) s (ends .refused)) ∧
    (OpTakes s o 0 2 → st ≠ 0 → Answers (.leStop o.id) s fun u => OnlyOp s u o.id ∧ OpTaken s u o) ∧
    (OpTakes s o 0 2 → st = 0 → Answers (.leStop o.id) s (ends .empty)) ∧
    (OpTakes s o 0 3 → (st = 0 ∨ st = 3) → Answers (.leSwap o.id) s (ends .refused)) ∧
    (OpTakes s o 0 3 → (st = 1 ∨ st = 2) → (∀ x ∈ s.sp.ops, x.unit = 0 → x.code = 3 → x.obj = c → x.tid = o.tid) →
      (b = s.leH c 97 1 → Answers (.leSwap o.id) s (ends .empty)) ∧
      (b ≠ s.leH c 97 1 → s.bankOk c b (s.leHd c).m (s.leHd c).q = true →
        Answers (.leSwap o.id) s fun u => OnlyOp s u o.id ∧ OpTaken s u o) ∧
      (b ≠ s.leH c 97 1 → s.bankOk c b (s.leHd c).m (s.leHd c).q = false →
        Answers (.leSwap o.id) s fun u => ends .cfgerr u ∧ u.rb Reg.leEvstat 0 = true ∧
          (∃ p x, u.op o.id = some p ∧ p.out = some x ∧ x.cause = 0x15) ∧ RegsKept s u [Reg.leEvstat, Reg.leLasterr])) ∧
    (∀ x ∈ s.sp.ops, OpTakes s o 0 3 → (st = 1 ∨ st = 2) → x.unit = 0 → x.code = 3 → x.obj = c → x.tid ≠ o.tid → x.accepted = true →
      x.acc < o.acc → x.acted = false → x.out = none → Answers (.leSwap o.id) s (ends .busy)) ∧
    (OpMay s o 0 4 → st = 0 → Answers (.leKick o.id) s (ends .refused)) ∧
    (OpMay s o 0 4 → st ≠ 0 → o.tid ≠ (s.leHd c).owner → Answers (.leKick o.id) s (ends .denied)) ∧
    (OpMay s o 0 4 → st ≠ 0 → o.tid = (s.leHd c).owner → Answers (.leKick o.id) s fun u => OpEnded u o.id o.okSt [] ∧
      MemKeptBut s u (leBase c + 104) 4 ∧ u.leH c 104 4 = o.accAt % 2 ^ 32 ∧ (u.lec c).lastRef = o.accAt ∧ RegsKept s u []) ∧
    (OpTakes s o 0 5 → (st = 0 ∨ st = 3) → Answers (.leResume o.id) s (ends .refused)) ∧
    (OpTakes s o 0 5 → (st = 1 ∨ st = 2) → o.tid ≠ (s.leHd c).owner → Answers (.leResume o.id) s (ends .denied)) ∧
    (OpTakes s o 0 5 → (st = 1 ∨ st = 2) → o.tid = (s.leHd c).owner → Answers (.leResume o.id) s fun u => OpTaken s u o ∧
      u.leH c 104 4 = o.accAt % 2 ^ 32 ∧ (u.lec c).lastRef = o.accAt ∧ MemKeptBut s u (leBase c + 104) 4 ∧ RegsKept s u []) ∧
    (OpMay s o 0 6 → s.ecc = [] → Answers (.leStatus o.id) s fun u => OnlyOp s u o.id ∧ OpEnded u o.id o.okSt
      (((List.range 32).map fun i => s.byte (leBase c + 96 + i)) ++ bytesLE 4 (s.rget (Reg.leCtxCnt c)).toNat ++
        (List.range 32).map fun i => s.byte (leBase c + 0x260 + i))) ∧
    (OpMay s o 0 7 → c < 64 → recNat o.payload 0 1 = 0 →
      (s.trState c ≠ 1 → s.trState c ≠ 2 → Answers (.leTraceStop o.id) s (ends .refused)) ∧
      (s.trState c = 2 → Answers (.leTraceStop o.id) s fun u => OnlyOp s u o.id ∧ OpEnded u o.id o.okSt [])) ∧
    (OpMay s o 0 7 → c < 64 → recNat o.payload 0 1 = 1 →
      (s.trState c ≠ 3 → Answers (.leTraceRearm o.id) s (ends .refused)) ∧
      (s.trState c = 3 → Answers (.leTraceRearm o.id) s fun u => ends o.okSt u ∧ u.trState c = 1 ∧
        (u.rget (Reg.leTrStat c)).toNat % 4096 = 0 ∧ RegsKept s u [Reg.leTrStat c]))

/-- A context at its boundary, the release of a grid's contexts, and one sample of a context in RUN. For any context
that has no sample left to compute: a due STOP of one that is not IDLE completes OK stamped with the boundary,
whatever else was due for the context completes ABORTED, cause PREEMPT, and the context is IDLE; of an IDLE one it is
EMPTY, and a due SWAP or RESUME is REFUSED. A due START alone makes an IDLE context RUN in its start bank with hcount
0, w = u, h = 0, last_ref the boundary, and completes OK stamped with it. LE_RELEASE of a grid on which one context
waits at its boundary, its offset reached and no result on the way, fetches that context's inputs at their instants.
LE_SAMPLE of a released context in RUN with good inputs, no owned input, nothing pending, and a recent owner: state,
integrators, outputs, w, h and exponent become those of the law of R223 in the bank in use, every output lies in its
limits, and memory outside the context's block stays. (R223, R251, R253, R241, R242, R238, R260, R266, R270) -/
def Obligations.LoopSamples : Prop :=
  (∀ (s : State) (c k rd v : Nat) (o : Op), c < 256 → s.op o.id = some o → o.unit = 0 → o.obj = c → s.opDueAt o k = true →
      (∀ x ∈ s.sp.ops, ∀ y ∈ s.sp.ops, x.id = y.id → x = y) →
      (s.lec c).bound = none → (s.lec c).rel = none →
      let u := ((Run.start s).leAtBoundary c k rd v).s
      let done (id : Nat) (st : Status) (cause : Nat) : Prop := ∃ p x, u.op id = some p ∧ p.out = some x ∧ x.status = st ∧
        x.cause = cause ∧ x.stamp = k % 2 ^ 32
      (s.leState c ≠ 0 → o.code = 2 → (∀ x ∈ s.sp.ops, x.unit = 0 → x.obj = c → x.code = 2 → x.id = o.id) →
        done o.id o.okSt 0 ∧ u.leState c = 0 ∧
        ∀ x ∈ s.sp.ops, x.id ≠ o.id → x.unit = 0 → x.obj = c → s.opDueAt x k = true → (x.code = 1 ∨ x.code = 3 ∨ x.code = 5) →
          done x.id .aborted 4) ∧
      (s.leState c = 0 → (o.code = 2 ∨ o.code = 3 ∨ o.code = 5) →
        (∀ x ∈ s.sp.ops, x.unit = 0 → x.obj = c → s.opDueAt x k = true → x.code ≠ 1) →
        done o.id (if o.code = 2 then .empty else .refused) 0 ∧ u.leState c = 0 ∧ MemKept s u ∧ RegsKept s u [Reg.leLasterr]) ∧
      (s.leState c = 0 → o.code = 1 → (∀ x ∈ s.sp.ops, x.unit = 0 → x.obj = c → s.opDueAt x k = true → x.id = o.id) →
        done o.id o.okSt 0 ∧ u.leState c = 1 ∧ u.leH c 97 1 = (s.leHd c).startBank ∧ u.leH c 99 1 = 0 ∧
        u.leVec c 0x280 8 = s.leVec c 0x260 8 ∧ u.leVec c 0x2A0 8 = List.replicate 8 0 ∧ u.leH c 104 4 = k % 2 ^ 32 ∧
        MemKeptBut s u (leBase c) 0x2000 ∧ RegsKept s u [])) ∧
  (∀ (s : State) (c : Nat), c < 256 →
      let d := s.leHd c
      let bank := s.leH c 97 1 % 2
      (∀ (g : Nat) (b : LeDue), (s.lec c).bound = some b → (∀ x, x ≠ c → (s.lec x).bound = none) → s.leH c 5 1 % 16 = g →
        s.sig.path = [] → (∀ x ∈ s.sig.queue, x.at_ ≠ s.cyc) →
        s.baseReached (s.gridBase g) b.relAt = true → s.ecc = [] → (∀ e ∈ s.leIns c, (s.sigRec e.idx).type ≠ 5) →
        Answers (.leRelease g) s fun u => (u.lec c).bound = none ∧ (u.lec c).rel = some ⟨b.k, (s.leIns c).map (s.leRead b.read)⟩ ∧
          (∀ x, x ≠ c → u.lec x = s.lec x) ∧ MemKept s u ∧ RegsKept s u [] ∧ u.sp = s.sp ∧ u.sig = s.sig) ∧
      (∀ rel : LeRelease, (s.lec c).rel = some rel → (∀ x, x < 256 → s.leBefore x c = false) → s.ecc = [] → s.leState c = 1 →
        (s.lec c).swapOp = none → (s.lec c).resumeOp = none → s.leShadow c = false → s.redDutyOf c = none →
        d.n ≤ 16 → d.p ≤ 8 → d.m ≤ 8 → d.q ≤ 8 → d.r ≤ 8 → 0 < d.staleMax →
        (∀ x ∈ (s.leIns c).zip rel.ins, x.2.good = true ∧ x.1.own = false) →
        diff64 rel.k (s.lec c).lastRef ≤ (d.tOwn * 1000 : Nat) →
        (∀ e ∈ s.leOuts c d.m, e.okind = 0 ∧ e.sigEn = false) → (∀ b, b < 64 → s.rb (Reg.leTrCfgAct b) 31 = false) →
        let es := (s.leIns c).zip rel.ins
        let y := (inVec 0 d.ey false (s.leVec c 0x2E0 8) d.p es).1
        let r := (inVec 0 d.er true (s.leVec c 0x2C0 8) d.r es).1
        let o := s.leCompute c d { y := y, r := r, bank := bank, swapped := false, resumedOutput := false, fbOutput := false }
        o.need ≤ 127 → s.bankOk c bank d.m d.q = true →
        Answers (.leSample c) s fun u => MemKeptBut s u (leBase c) 0x2000 ∧ RegsKept s u [Reg.leCtxCnt c, Reg.leEvstat] ∧
          u.leVec c 0x200 d.n = o.x ∧ u.leVec c 0x240 d.q = o.z ∧ u.leVec c 0x260 d.m = o.u ∧ u.leVec c 0x280 d.m = o.w ∧
          u.leVec c 0x2A0 d.m = o.h ∧ u.leHS c 98 = sInt 8 (uNat 8 o.ex) ∧ u.leState c = 1 ∧ u.leH c 108 4 = rel.k % 2 ^ 32 ∧
          (∀ i, i < d.m →
            nthI (s.leVec c (bankOff bank + 0x10) d.m) i ≤ nthI o.u i ∧ nthI o.u i ≤ nthI (s.leVec c (bankOff bank + 0x30) d.m) i)))

/-- What an access does to a register, by the access code of its fields. Every aligned write and read of the register
range answers OK, whatever the port, the address and the value: a write with no data, a read with one word, and a read
of the low word of a 64-bit register with that word, its high word held for the next read of the high word. While no
vector's level is held as seen: a write of a RW word stores it; a W1C register loses the bits written 1; a RO register
and a reserved offset keep their value and answer OK; an access off a multiple of 4 does nothing, answers FAULT and is
recorded; a zero that R19 refuses, and a write of a shadow register whose group has a commit pending, change nothing
and set cfgerr; a read of RC fields returns the register and clears it; a read of the low word of TIME_TBn_NOW latches
the high word, which the next read of the high word returns whenever it comes. No other register and no memory byte
changes. (R4, R5, R6, R8, R13, R19, 01_architecture.md) -/
def Obligations.RegisterAccess : Prop :=
  (∀ (s : State) (port a : Nat) (v : Word), regionOf a = .regs → a % 4 = 0 →
    (Answers (.registerWrite port a v) s fun u => u.resp = ⟨.ok, []⟩) ∧
    (∀ x, regAt a = some x → a ≠ Reg.timeTrigOut0 x.i → (∀ y, regAt (a - 4) = some y → pairLow (a - 4) y = false) →
      Answers (.rcRead port a) s fun u => u.resp = ⟨.ok, [(s.regVal a).toNat]⟩ ∧ MemKept s u ∧ RegsKept s u [a]) ∧
    (∀ x, regAt a = some x → pairLow a x = true →
      Answers (.lowWordRead port a) s fun u => u.resp = ⟨.ok, [(s.regVal a).toNat]⟩ ∧ MemKept s u ∧ RegsKept s u [a] ∧
        ∀ t : State, t.latch = u.latch → Answers (.rcRead port (a + 4)) t fun w => w.resp = ⟨.ok, [(s.regVal (a + 4)).toNat]⟩)) ∧
  ∀ (s : State) (port : Nat) (v : Word), s.Inv → s.mesh.seen = 0 →
    let okw (l : List Nat) (u : State) : Prop := RegsKept s u l ∧ MemKept s u ∧ u.resp = ⟨.ok, []⟩ ∧ u.time = s.time ∧ u.sp = s.sp
    (∀ w, w < 64 → Answers (.registerWrite port (Reg.pwrBkp w) v) s fun u => okw [Reg.pwrBkp w] u ∧ u.rget (Reg.pwrBkp w) = v) ∧
    Answers (.registerWrite port Reg.pwrEvstat v) s (fun u => okw [Reg.pwrEvstat] u ∧
      u.rget Reg.pwrEvstat = s.rget Reg.pwrEvstat &&& ~~~v) ∧
    Answers (.registerWrite port Reg.meshPcieId v) s (okw []) ∧
    (∀ a, regionOf a = .regs → a % 4 = 0 → regAt a = none → Answers (.registerWrite port a v) s (okw []) ∧
      Answers (.rcRead port a) s fun u => u.resp = ⟨.ok, [0]⟩ ∧ RegsKept s u [] ∧ MemKept s u) ∧
    (∀ a, regionOf a = .regs → a % 4 ≠ 0 → Answers (.registerWrite port a v) s fun u => u.resp = ⟨.fault, []⟩ ∧ MemKept s u ∧
      RegsKept s u [Reg.meshAccLo, Reg.meshAccHi, Reg.meshEvstat] ∧ (u.rget Reg.meshAccLo).toNat = a ∧
      u.rb Reg.meshAccHi 31 = true ∧ u.rb Reg.meshEvstat 0 = true) ∧
    (v.toNat % 256 = 0 → Answers (.registerWrite port Reg.pwrCfg v) s fun u => okw [Reg.pwrEvstat] u ∧ u.rb Reg.pwrEvstat 6 = true) ∧
    (v.toNat % 256 ≠ 0 → Answers (.registerWrite port Reg.pwrCfg v) s fun u => okw [Reg.pwrCfg] u ∧
      (u.rget Reg.pwrCfg).toNat = v.toNat % 256) ∧
    (∀ g, g < 16 → s.committing (.sg g) = true → Answers (.registerWrite port (Reg.timeSgPhase g) v) s fun u =>
      okw [Reg.timeEvstat] u ∧ u.rb Reg.timeEvstat 5 = true) ∧
    (∀ g, g < 16 → s.committing (.sg g) = false → Answers (.registerWrite port (Reg.timeSgPhase g) v) s fun u =>
      okw [Reg.timeSgPhase g] u ∧ (u.rget (Reg.timeSgPhase g)).toNat = v.toNat % 2 ^ 25) ∧
    (∀ p, p < 16 → Answers (.rcRead port (Reg.meshPWait p)) s fun u => u.resp = ⟨.ok, [(s.rget (Reg.meshPWait p)).toNat]⟩ ∧
      RegsKept s u [Reg.meshPWait p] ∧ u.rget (Reg.meshPWait p) = 0 ∧ MemKept s u) ∧
    (∀ n, n < 8 → s.seenTime n < 2 ^ 64 → Answers (.lowWordRead port (Reg.timeTbNowLo n)) s fun u =>
      u.resp = ⟨.ok, [s.seenTime n % 2 ^ 32]⟩ ∧ RegsKept s u [] ∧ MemKept s u ∧ ∀ t : State, t.latch = u.latch →
        Answers (.rcRead port (Reg.timeTbNowHi n)) t fun w => w.resp = ⟨.ok, [s.seenTime n / 2 ^ 32]⟩)

/-- Requests of commits, and what a commit does when it acts. COMMIT_REQUEST of a group that is pending changes
nothing; of one with a running boundary it leaves the group pending and nothing else changed. Without a running
boundary the request acts at once: when the check passes, the shadow words of ROUTE or HERD CYC come into use; when it
fails, cfgerr is set and nothing comes into use. COMMIT_APPLY without a pending commit changes nothing; for a pending
untimed one without running boundary it acts in the same way, takes the commit off the list, and ends the operation
that asked for it with OK or CFGERR. (R10, R11, R12, R14, R15, R16, 01_architecture.md) -/
def Obligations.CommitsOfGroups : Prop :=
  ∀ (s : State) (g : Group), commitGroup g.bitAt.1 g.bitAt.2 = some g →
    (s.committing g = true → Answers (.commitRequest g) s (· = s)) ∧
    (s.committing g = false → s.noBoundary g = false → Answers (.commitRequest g) s (· = { s with commits := s.commits ++ [{ group := g }] })) ∧
    (s.committing g = false → Answers (.commitApply g) s (· = s)) ∧
    (g ∈ [.tb0lock, .route, .herdcyc, .red, .sdclk] → s.committing g = false → s.noBoundary g = true → s.groupCheck g = false →
      (g = .red → s.ecc = []) → Answers (.commitRequest g) s fun u => u.rb g.err.1 g.err.2 = true ∧ RegsKept s u [g.err.1] ∧ MemKept s u ∧
        u.commits = s.commits ∧ u.sp = s.sp) ∧
    (s.Inv → s.committing g = false → s.noBoundary g = true → s.groupCheck g = true →
      (g = .route → Answers (.commitRequest g) s fun u => RegsKept s u [Reg.sigRouteBaseLoAct, Reg.sigRouteBaseHiAct, Reg.sigRouteLenAct] ∧
        u.rget Reg.sigRouteBaseLoAct = s.rget Reg.sigRouteBaseLo ∧ u.rget Reg.sigRouteBaseHiAct = s.rget Reg.sigRouteBaseHi ∧
        u.rget Reg.sigRouteLenAct = s.rget Reg.sigRouteLen ∧ MemKept s u ∧ u.commits = s.commits) ∧
      (g = .herdcyc → Answers (.commitRequest g) s fun u => RegsKept s u [Reg.herdCycAct] ∧
        u.rget Reg.herdCycAct = s.rget Reg.herdCyc ∧ MemKept s u ∧ u.commits = s.commits)) ∧
    (∀ (c : Commit) (o : Op), s.commits = [c] → c.group = g → c.due = false → c.time = none → c.late = false → c.ops = [o.id] →
      s.op o.id = some o → o.out = none → s.noBoundary g = true →
      (s.groupCheck g = false → g ∈ [.sg 0, .lg 7, .tb0lock, .herdcyc, .red] → s.ecc = [] → o.unit ≠ 0 → o.unit ≠ 2 → o.unit ≠ 4 →
        Answers (.commitApply g) s fun u => u.commits = [] ∧ OpEnded u o.id .cfgerr [] ∧ OpsKept s u o.id ∧
          u.rb g.err.1 g.err.2 = true ∧ RegsKept s u [g.err.1] ∧ MemKept s u) ∧
      (s.groupCheck g = true → g = .herdcyc → s.Inv → Answers (.commitApply g) s fun u => u.commits = [] ∧
        OpEnded u o.id o.okSt [] ∧ OpsKept s u o.id ∧ u.rget Reg.herdCycAct = s.rget Reg.herdCyc ∧
        RegsKept s u [Reg.herdCycAct] ∧ MemKept s u))

/-- The COMMIT operations of all ten units. For the COMMIT operation of each unit that names group g and whose unit
may take it: with a commit of g pending it joins that commit and loses its time; with a running boundary and nothing
pending, untimed, it leaves a pending commit of g that waits for it; nothing else changes but the operation itself.
Without a running boundary a failed check ends it with CFGERR and sets cfgerr of the block (TIME, HERD); a group of
capture, and TB0LOCK of the time block, come into use at once: the active copy equals the shadow words and the
operation ends OK. (R10, R14, R15, R16, R17, 04_operations.md) -/
def Obligations.CommitOperations : Prop :=
  ∀ (s : State) (o : Op) (g : Group) (c : Instr), (∀ x ∈ s.commits, o.id ∉ x.ops) →
    ((c = .timeCommit o.id ∧ OpTakes s o 13 3 ∧ o.obj < 25 ∧
        g = (if o.obj < 16 then .sg o.obj else if o.obj < 24 then .lg (o.obj - 16) else .tb0lock)) ∨
      (c = .leCommit o.id ∧ OpTakes s o 0 8 ∧ g = .tr o.obj) ∨
      (c = .axisCommit o.id ∧ OpTakes s o 1 1 ∧ ((recNat o.payload 0 1 = 0 ∧ g = .axcfg o.obj) ∨
        (recNat o.payload 0 1 = 1 ∧ g = .axtpl o.obj) ∨ (recNat o.payload 0 1 = 2 ∧ g = .sd o.obj))) ∨
      (c = .motCommit o.id ∧ OpTakes s o 2 1 ∧ g = (if o.obj < 48 then .mot o.obj else if o.obj < 128 then .vm (o.obj - 64)
        else .cam (o.obj - 128))) ∨
      (c = .adcCommit o.id ∧ OpTakes s o 8 1 ∧ g = .adc o.obj) ∨
      (c = .herdCommit o.id ∧ OpTakes s o 5 1 ∧ recNat o.payload 0 1 % 2 = 0 ∧
        g = (if o.obj = 0 then .herdcyc else .slot (o.obj - 1))) ∨
      (c = .ethCommit o.id ∧ OpTakes s o 10 1 ∧ ((recNat o.payload 0 1 = 0 ∧ g = .ethcfg o.obj) ∨
        (recNat o.payload 0 1 = 1 ∧ g = .ethgcl o.obj))) ∨
      (c = .canCommit o.id ∧ OpTakes s o 9 1 ∧ g = .can o.obj) ∨
      (c = .captCommit o.id ∧ OpTakes s o 4 1 ∧ g = (if o.obj < 16 then .capts o.obj else .capttr (o.obj - 64))) ∨
      (c = .redCommit o.id ∧ OpTakes s o 14 1 ∧ g = .red)) →
    (∀ x, s.commits = [x] → x.group = g → Answers c s fun u => u.commits = [{ x with ops := x.ops ++ [o.id] }] ∧
      u.op o.id = some { o with time := none, late := false } ∧ OpsKept s u o.id ∧ RegsKept s u [] ∧ MemKept s u) ∧
    (s.committing g = false → s.noBoundary g = false → o.time = none → o.late = false → Answers c s fun u =>
      u.commits = s.commits ++ [{ group := g, byOp := true, ops := [o.id] }] ∧
      u.op o.id = some o ∧ OpsKept s u o.id ∧ RegsKept s u [] ∧ MemKept s u) ∧
    (s.committing g = false → s.noBoundary g = true → o.time = none → s.groupCheck g = false →
      (g = .tb0lock ∨ g = .herdcyc) → Answers c s fun u => u.commits = s.commits ∧ OpEnded u o.id .cfgerr [] ∧
        OpsKept s u o.id ∧ u.rb g.err.1 g.err.2 = true ∧ RegsKept s u [g.err.1] ∧ MemKept s u) ∧
    (s.Inv → s.committing g = false → o.time = none → s.groupCheck g = true →
      (∀ n, n < 16 → g = .capts n → Answers c s fun u => OpEnded u o.id .ok [] ∧ u.commits = s.commits ∧ OpsKept s u o.id ∧
        (∀ i, i < 9 → u.rget (Reg.captSCfgAct n + 4 * i) = s.rget (Reg.captSCfg n + 4 * i)) ∧
        RegsKept s u ((List.range 9).map fun i => Reg.captSCfgAct n + 4 * i) ∧ MemKept s u) ∧
      (g = .tb0lock → s.tb0State ≠ 3 → Answers c s fun u => OpEnded u o.id .ok [] ∧ u.commits = s.commits ∧ OpsKept s u o.id ∧
        u.rget Reg.timeTb0LockAct = s.rget Reg.timeTb0Lock ∧ u.rget Reg.timeTb0HoldAct = s.rget Reg.timeTb0Hold ∧
        u.time = { s.time with lockCount := 0 } ∧ RegsKept s u [Reg.timeTb0LockAct, Reg.timeTb0HoldAct] ∧ MemKept s u))

/-- Requests, grants, preemption and completion at a target port of the Mesh. A legal burst of an unmasked port joins
the requests of its target and has no other effect, or waits in its port while the port has one presented there, and
is presented when that is granted; a CRIT one presented against a running burst of class LOW or NORM that was not
granted under step 1 ends that burst, which keeps its age, counts a preemption, after the fourth in a row has its
class raised and counts in `promote`, and leaves the path free after the turnaround. A free path is granted to a
request of the highest effective class, or, when the N-th grant is due, to the one that has waited longest, of the
lowest port among equals. A write burst takes effect when its beats have passed. A legal nth restarts every arbiter's
count; an illegal one is refused with cfgerr. (R545, R547, R548, R549, R550, R551, R553, 15_mesh_host.md) -/
def Obligations.MeshArbitration : Prop :=
  ∀ (s : State) (port t : Nat),
    (∀ (cls a n : Nat), port < 16 → cls ≤ 3 → burstOk a n = true → s.portMasked port = false → s.targetMasked t = false →
      targetPort a = some t → (∀ w ∈ (s.tgt t).waiting, w.port ≠ port) →
      let q : MeshReq := { port := port, cls := cls, addr := a, len := n, wr := false, since := s.cyc }
      ((s.tgt t).cur = none → Answers (.meshRequest port cls a n false []) s fun u =>
        u.tgt t = { s.tgt t with waiting := (s.tgt t).waiting ++ [q] } ∧ (∀ x, x ≠ t → u.tgt x = s.tgt x) ∧
        RegsKept s u [] ∧ MemKept s u ∧ u.sp = s.sp) ∧
      (∀ c, (s.tgt t).cur = some c → cls = 3 → c.req.eff ≤ 1 → c.req.port < 16 → c.first = false → s.cyc < c.start + c.req.beats →
        Answers (.meshRequest port cls a n false []) s fun u => (u.tgt t).cur = none ∧ (u.tgt t).freeAt = s.cyc + 3 ∧
          (c.req.pre < 3 → (u.tgt t).waiting = (s.tgt t).waiting ++ [q, { c.req with pre := c.req.pre + 1 }]) ∧
          (c.req.pre = 3 → (u.tgt t).waiting = (s.tgt t).waiting ++ [q, { c.req with pre := 0, raised := c.req.raised + 1 }] ∧
            u.rf (Reg.meshPStat c.req.port) 15 0 = min (s.rf (Reg.meshPStat c.req.port) 15 0 + 1) 0xFFFF) ∧
          u.rf (Reg.meshPStat c.req.port) 31 16 = min (s.rf (Reg.meshPStat c.req.port) 31 16 + 1) 0xFFFF ∧
          RegsKept s u [Reg.meshPStat c.req.port] ∧ MemKept s u)) ∧
    (∀ (cls a n : Nat), port < 16 → cls ≤ 3 → burstOk a n = true → s.portMasked port = false → s.targetMasked t = false →
      targetPort a = some t → (∃ w ∈ (s.tgt t).waiting, w.port = port) → Answers (.meshRequest port cls a n false []) s fun u =>
        u.tgt t = { s.tgt t with behind := (s.tgt t).behind ++ [{ port := port, cls := cls, addr := a, len := n, wr := false }] } ∧
        RegsKept s u [] ∧ MemKept s u) ∧
    (∀ q x : MeshReq, (s.tgt t).cur = none → (s.tgt t).freeAt ≤ s.cyc → (s.tgt t).waiting = [q] → (s.tgt t).behind = [x] →
      q.port < 16 → x.port = q.port → x.cls ≤ 2 → Answers (.meshGrant t) s fun u => (u.tgt t).behind = [] ∧
        (u.tgt t).waiting = [{ x with since := s.cyc }] ∧ ((u.tgt t).cur.map fun c => c.req) = some q ∧ MemKept s u) ∧
    ((s.tgt t).cur = none → (s.tgt t).freeAt ≤ s.cyc → (s.tgt t).behind = [] → (s.tgt t).waiting ≠ [] → (∀ w ∈ (s.tgt t).waiting, w.port < 16) →
      ((s.tgt t).count + 1 < s.rf Reg.meshCfg 6 0 → Answers (.meshGrant t) s fun u => MemKept s u ∧ ∃ q ∈ (s.tgt t).waiting,
        (u.tgt t).cur = some { req := q, start := s.cyc, first := false } ∧ ∀ w ∈ (s.tgt t).waiting, w.eff ≤ q.eff) ∧
      (s.rf Reg.meshCfg 6 0 ≤ (s.tgt t).count + 1 → Answers (.meshGrant t) s fun u => MemKept s u ∧ ∃ q ∈ (s.tgt t).waiting,
        (u.tgt t).cur = some { req := q, start := s.cyc, first := true } ∧
        ∀ w ∈ (s.tgt t).waiting, q.since < w.since ∨ (q.since = w.since ∧ q.port ≤ w.port))) ∧
    (∀ c, (s.tgt t).cur = some c → (s.tgt t).waiting = [] → c.start + c.req.beats ≤ s.cyc → c.req.wr = true →
      s.portMasked c.req.port = false → regionOf c.req.addr = .sram → c.req.data ≠ [] →
      regionOf (c.req.addr + c.req.data.length - 1) = .sram → s.eccIn c.req.addr c.req.data.length = [] →
      Answers (.meshGrant t) s fun u => (u.tgt t).cur = none ∧ (u.tgt t).freeAt = c.start + c.req.beats + 2 ∧
        (∀ i, i < c.req.data.length → some (u.byte (c.req.addr + i)) = c.req.data[i]?) ∧
        MemKeptBut s u c.req.addr c.req.data.length ∧ RegsKept s u [] ∧ u.resp = ⟨.ok, []⟩) ∧
    (∀ v : Word, s.mesh.seen = 0 → s.Inv → 1 ≤ bits v.toNat 15 8 → bits v.toNat 15 8 ≤ 168 →
      (4 ≤ bits v.toNat 6 0 → bits v.toNat 6 0 ≤ 64 → Answers (.nthWrite v) s fun u => u.rf Reg.meshCfg 6 0 = bits v.toNat 6 0 ∧
        u.rf Reg.meshCfg 15 8 = bits v.toNat 15 8 ∧ (u.tgt t).count = 0 ∧ (u.tgt t).waiting = (s.tgt t).waiting ∧
        (u.tgt t).cur = (s.tgt t).cur ∧ RegsKept s u [Reg.meshCfg] ∧ MemKept s u) ∧
      ((bits v.toNat 6 0 < 4 ∨ 64 < bits v.toNat 6 0) → Answers (.nthWrite v) s fun u => u.rf Reg.meshCfg 6 0 = s.rf Reg.meshCfg 6 0 ∧
        u.rb Reg.meshEvstat 7 = true ∧ (u.tgt t) = s.tgt t ∧ RegsKept s u [Reg.meshCfg, Reg.meshEvstat] ∧ MemKept s u))

/-- One tick of a time base adds its increment and the slew term, exactly. Let a base hold an integer part and a
32-bit fraction in their widths. A tick without a slew adds the increment to the fixed-point value modulo the base's
width, and a wrapping base counts the wraps of its integer part modulo 2^16, while a privileged one carries its
seconds and nanoseconds on by the same nanoseconds, modulo 2^48 s. A SYS-domain read of a base returns its time of the
last tick or of the one before. While slewing, each tick adds or takes away the step or what is left of it, and what
is left falls by the same; a slew whose amount is left is used up after at most ceil(left / step) ticks, never
overshooting. (R33, R47, R50, R51, R53, 01_architecture.md, 02_time.md) -/
def Obligations.TimeBasesTick : Prop :=
  (∀ (s : State) (n : Nat), (s.seenTime n = s.baseTime n ∨ s.seenTime n = (s.base n).was) ∧
    (s.cyc % 4 < 2 → s.seenTime n = (s.base n).was)) ∧
  ∀ (b : Base) (n : Nat), n < 8 → b.frac < 2 ^ 32 → b.int < 2 ^ (if n ≤ 2 then 64 else 32) →
    let m : Nat := 2 ^ (if n ≤ 2 then 64 else 32)
    let v := b.int * 2 ^ 32 + b.frac
    let t := b.tick n
    let term := min b.slewStep b.slewLeft
    (t.frac < 2 ^ 32 ∧ t.int < m ∧ t.inc = b.inc ∧ t.was = (if n ≤ 2 then b.int else b.int + b.wraps * 2 ^ 32)) ∧
    (b.slewing = false → n ≤ 2 →
      t.sec * 10 ^ 9 + t.ns = (b.sec * 10 ^ 9 + b.ns + (v + b.inc) / 2 ^ 32 - b.int) % (2 ^ 48 * 10 ^ 9) ∧ t.ns < 10 ^ 9) ∧
    (b.slewing = false → t.int * 2 ^ 32 + t.frac = (v + b.inc) % (m * 2 ^ 32) ∧ t.slewLeft = b.slewLeft ∧
      (2 < n → t.wraps = (b.wraps + (v + b.inc) / 2 ^ 64) % 2 ^ 16)) ∧
    (b.slewing = true → t.slewLeft + term = b.slewLeft ∧
      (b.slewNeg = false → t.int * 2 ^ 32 + t.frac = (v + b.inc + term) % (m * 2 ^ 32)) ∧
      (b.slewNeg = true → term ≤ b.inc → t.int * 2 ^ 32 + t.frac = (v + (b.inc - term)) % (m * 2 ^ 32))) ∧
    (b.slewing = true → 0 < b.slewStep → ∀ k, divUp b.slewLeft b.slewStep ≤ k →
      (((fun x : Base => x.tick n)^[k]) b).slewLeft = 0)

/-- Reference, increments, adjustments, snapshots, lock and holdover of the time block. REFIN_LOSS, REFIN_RETURN and
REFIN_EN_WRITE set presence and, after 1 ms of it, use of TB_REFIN, with refin_chg on a change of use. TB_PLL_UNLOCK
clears the lock bits, sets the flag, and takes a node in START or NORMAL to RECOVERY; the bases stay. INC_HI_WRITE
applies an increment inside 5 ns ± 1,000 ppm and refuses others. TIME_ADJ_GO has a wrapping base without grid stepped
on the next tick, which then shows OK; it starts a slew, or shows DENIED for TB0 away from the Stag; SLEW_END ends a
used-up slew. TIME_SNAP_WRITE captures all bases. HOLDOVER_LIMIT and SYNC_INTERVALS_MISSED act exactly when their
conditions hold. Every other register and all memory stay. (R45, R46, R48, R53, R54, R60, R62, R67, 02_time.md) -/
def Obligations.TimeBlockCommands : Prop :=
  ∀ (s : State) (n : Nat) (v : Word), n < 8 →
    let q := (s.base n)
    let amt : Int := sInt 64 ((s.rget (Reg.timeTbAdjA n)).toNat + (s.rget (Reg.timeTbAdjB n)).toNat * 2 ^ 32)
    let kept (u : State) : Prop := MemKept s u ∧ u.sp = s.sp ∧ u.commits = s.commits
    let bases (u : State) : Prop := ∀ j, j ≠ n → u.base j = s.base j
    Answers .refinLoss s (fun u => kept u ∧ u.time = { s.time with refinAt := none } ∧ RegsKept s u [Reg.timeStat, Reg.timeEvstat] ∧
      u.rb Reg.timeStat 30 = false ∧ u.rb Reg.timeStat 29 = false ∧
      u.rb Reg.timeEvstat 2 = (s.rb Reg.timeEvstat 2 || s.rb Reg.timeStat 29)) ∧
    (s.time.refinAt = none → Answers .refinReturn s fun u => kept u ∧ u.time = { s.time with refinAt := some s.cyc } ∧
      u.rb Reg.timeStat 30 = true ∧ RegsKept s u [Reg.timeStat]) ∧
    (∀ c, s.time.refinAt = some c → let ok := s.rb Reg.timeCtrl 0 && decide (c + 800000 ≤ s.cyc)
      Answers .refinReturn s (fun u => kept u ∧ u.time = s.time ∧ RegsKept s u [Reg.timeStat, Reg.timeEvstat] ∧
        u.rb Reg.timeStat 29 = (ok || s.rb Reg.timeStat 29) ∧
        u.rb Reg.timeEvstat 2 = (s.rb Reg.timeEvstat 2 || (ok && !s.rb Reg.timeStat 29)))) ∧
    Answers (.refinEnWrite v) s (fun u => kept u ∧ u.time = s.time ∧ RegsKept s u [Reg.timeCtrl, Reg.timeStat, Reg.timeEvstat] ∧
      u.rb Reg.timeCtrl 0 = bit v.toNat 0 ∧
      u.rb Reg.timeStat 29 = (bit v.toNat 0 && (s.refinLong || s.rb Reg.timeStat 29)) ∧
      u.rb Reg.timeEvstat 2 = (s.rb Reg.timeEvstat 2 || (u.rb Reg.timeStat 29 != s.rb Reg.timeStat 29))) ∧
    Answers .tbPllUnlock s (fun u => kept u ∧ u.time = s.time ∧ u.rb Reg.timeStat 31 = false ∧ u.rb Reg.clkStat 1 = false ∧
      u.rb Reg.timeEvstat 3 = true ∧ (s.node = .start ∨ s.node = .normal → u.node = .recovery) ∧
      (s.node ≠ .start → s.node ≠ .normal → u.node = s.node)) ∧
    (let inc := v.toNat % 16 * 2 ^ 32 + (s.rget (Reg.timeTbIncLo n)).toNat
     (0x4FEB851EC ≤ inc → inc ≤ 0x50147AE14 → Answers (.incHiWrite n v) s fun u => kept u ∧ bases u ∧
       u.base n = { q with inc := inc, applied := inc } ∧ RegsKept s u [Reg.timeTbIncHi n] ∧ (u.rget (Reg.timeTbIncHi n)).toNat = v.toNat % 16) ∧
     ((inc < 0x4FEB851EC ∨ 0x50147AE14 < inc) → Answers (.incHiWrite n v) s fun u => kept u ∧ u.time = s.time ∧
       u.rb Reg.timeEvstat 5 = true ∧ RegsKept s u [Reg.timeEvstat])) ∧
    (bit v.toNat 2 = false → Answers (.timeAdjGo n v) s fun u => kept u ∧ u.time = s.time ∧ RegsKept s u [Reg.timeTbAdjctl n]) ∧
    (bit v.toNat 2 = true → bits v.toNat 1 0 = 0 → 3 ≤ n → s.baseHasGrid n = false → q.slewing = false → amt ≠ 0 →
      Answers (.timeAdjGo n v) s fun u => kept u ∧ bases u ∧ u.base n = { q with moves := q.moves ++ [(.add (amt * 2 ^ 32), .reg)] } ∧
        u.time.grids = s.time.grids ∧ RegsKept s u [Reg.timeTbAdjctl n]) ∧
    (∀ d : Int, 3 ≤ n → q.frac < 2 ^ 32 → q.moves = [(.add (d * 2 ^ 32), .reg)] → let u := ((Run.start s).movesDue n).s
      kept u ∧ bases u ∧ u.base n = { q with moves := [], int := ((q.int + d) % 2 ^ 32).toNat } ∧
        u.time.grids = s.time.grids ∧ u.rf (Reg.timeTbAdjctl n) 31 24 = Status.ok.code ∧ RegsKept s u [Reg.timeTbAdjctl n]) ∧
    (bit v.toNat 2 = true → bits v.toNat 1 0 = 1 → 1 ≤ bits v.toNat 12 4 → bits v.toNat 12 4 ≤ 500 →
      (n = 0 → s.rb Reg.timeStat 2 = true) → (n = 1 ∨ n = 2 → s.rf (Reg.timeTbCtrl n) 1 0 ≠ 1) → q.slewing = false → amt ≠ 0 →
      Answers (.timeAdjGo n v) s fun u => kept u ∧ bases u ∧ u.base n = { q with
          slewing := true, slewNeg := decide (amt < 0), slewStep := slewUnits (bits v.toNat 12 4),
          slewLeft := amt.natAbs * 2 ^ 32, slewOp := none } ∧
        u.rb (Reg.timeTbAdjctl n) 16 = true ∧ RegsKept s u [Reg.timeTbAdjctl n]) ∧
    (bit v.toNat 2 = true → bits v.toNat 1 0 = 0 → n = 0 → s.rb Reg.timeStat 2 = false → Answers (.timeAdjGo n v) s fun u =>
      kept u ∧ u.time = s.time ∧ u.rf (Reg.timeTbAdjctl 0) 31 24 = Status.denied.code ∧ u.rb Reg.timeEvstat 6 = true ∧
        RegsKept s u [Reg.timeTbAdjctl 0, Reg.timeEvstat]) ∧
    (q.slewing = true → q.slewLeft = 0 → q.slewOp = none → Answers (.slewEnd n) s fun u => kept u ∧ bases u ∧
      u.base n = { q with slewing := false } ∧ u.rb (Reg.timeTbAdjctl n) 16 = false ∧
      u.rf (Reg.timeTbAdjctl n) 31 24 = Status.ok.code ∧ RegsKept s u [Reg.timeTbAdjctl n]) ∧
    (∀ o : Op, q.slewing = true → q.slewLeft = 0 → q.slewOp = some o.id → s.op o.id = some o → Answers (.slewEnd n) s fun u =>
      OpEnded u o.id o.okSt [] ∧ OpsKept s u o.id ∧ bases u ∧ u.base n = { q with slewing := false, slewOp := none } ∧
      u.rb (Reg.timeTbAdjctl n) 16 = false ∧ RegsKept s u [Reg.timeTbAdjctl n] ∧ MemKept s u) ∧
    (q.slewLeft ≠ 0 → Answers (.slewEnd n) s (· = s)) ∧
    (bit v.toNat 0 = true → q.int < 2 ^ 64 → q.frac < 2 ^ 32 → q.wraps < 2 ^ 16 → q.sec < 2 ^ 48 → q.ns < 2 ^ 32 → Answers (.timeSnapWrite v) s fun u =>
      kept u ∧ u.time = s.time ∧ (u.rget (Reg.timeTbSnapSub n)).toNat = q.frac / 2 ^ 16 ∧
      (n ≤ 2 → (u.rget (Reg.timeTbSnapNs n)).toNat = q.ns ∧
        (u.rget (Reg.timeTbSnapSecLo n)).toNat + (u.rget (Reg.timeTbSnapSecHi n)).toNat * 2 ^ 32 = q.sec) ∧
      (2 < n → (u.rget (Reg.timeTbSnapNs n)).toNat = q.int % 2 ^ 32 ∧ (u.rget (Reg.timeTbSnapSecLo n)).toNat = q.wraps ∧
        u.rget (Reg.timeTbSnapSecHi n) = 0) ∧
      RegsKept s u ((List.range 8).flatMap fun k =>
        [Reg.timeTbSnapSub k, Reg.timeTbSnapNs k, Reg.timeTbSnapSecLo k, Reg.timeTbSnapSecHi k])) ∧
    (bit v.toNat 0 = false → Answers (.timeSnapWrite v) s (· = s)) ∧
    (s.tb0State = 3 → s.time.holdSince + s.rf Reg.timeTb0HoldAct 11 0 * 800000000 < s.cyc → s.time.holdHit = false →
      Answers .holdoverLimit s fun u => kept u ∧ u.time = { s.time with holdHit := true } ∧ u.rb Reg.timeEvstat 1 = true ∧
        u.node = (if s.node = .normal then .recovery else s.node)) ∧
    ((s.tb0State ≠ 3 ∨ s.cyc ≤ s.time.holdSince + s.rf Reg.timeTb0HoldAct 11 0 * 800000000 ∨ s.time.holdHit = true) → Answers .holdoverLimit s (· = s)) ∧
    (s.tb0State = 2 → s.rb Reg.timeStat 2 = false → 4 ≤ s.time.missed → Answers .syncIntervalsMissed s fun u => kept u ∧
      u.tb0State = 3 ∧ u.rb Reg.timeEvstat 0 = true ∧ u.time = { s.time with holdSince := s.cyc, holdHit := false } ∧
      RegsKept s u [Reg.timeStat, Reg.timeEvstat]) ∧
    ((s.tb0State ≠ 2 ∨ s.time.missed < 4) → Answers .syncIntervalsMissed s (· = s))

/-- Stamps of edges, the stamp FIFO, and the pulse per second. With no trigger unit and no converter enabled, on a
channel without filter: an edge that its channel takes, 20 ns or more after the last and with room in the FIFO, joins
the FIFO with the interpolated time of its base less the input delay, rounded to 2^-16 ns; one too close or without
room is counted as lost and tdc_lost set; one that the channel does not take changes nothing. On a channel with a
filter an edge waits with its stamp; an edge back takes it away; a tick on which it has waited for the filter takes
its stamp. TRIG_OUT0_READ answers the oldest stamp, moves it to OUT1 and OUT2 and takes it off the FIFO. A tick on
which the base counts through a second dates a rise of PPS_OUT; it rises then and falls when its width has passed, and
at no other time. (R68, R69, R70, R71, R72, R73, 02_time.md) -/
def Obligations.StampsAndPulses : Prop :=
  ∀ (s : State) (ch f : Nat) (rising : Bool), ch < 9 →
    let c := s.trig ch
    let n := s.rf (Reg.timeTrigCfg ch) 6 4
    let b := s.base n
    let others (u : State) : Prop := (∀ j, j ≠ ch → u.trig j = s.trig j) ∧ MemKept s u ∧ u.sp = s.sp ∧ u.time.bases = s.time.bases
    ((∀ k, k < 64 → s.rb (Reg.captTrCfgAct k) 31 = false) → (∀ k, k < 12 → s.adcEn k = false) → f < 64 →
      (s.rf (Reg.timeTrigCfg ch) 23 16 = 0 → c.wait = none → s.trigTakes ch rising = false → Answers (.trigEdge ch rising f) s (· = s)) ∧
      (s.rf (Reg.timeTrigCfg ch) 23 16 = 0 → c.wait = none → s.trigTakes ch rising = true → (∀ l, c.lastEdge = some l → l + 256 ≤ s.edgeAt f) → c.fifo.length < 16 → n ≤ 2 →
        Answers (.trigEdge ch rising f) s fun u => others u ∧ RegsKept s u [Reg.timeEvstat] ∧
          (c.fifo = [] → u.rb Reg.timeEvstat 4 = true) ∧ ∃ st : Stamp, u.trig ch = { fifo := c.fifo ++ [st], lastEdge := some (s.edgeAt f) } ∧
            st.rising = rising ∧ st.base = n ∧ st.sub < 2 ^ 16 ∧ st.lo < 2 ^ 32 ∧
            (((st.hi * 2 ^ 32 + st.lo) * 2 ^ 16 + st.sub : Nat) : Int) =
              ((((b.int * 2 ^ 32 + b.frac) * 64 + f * b.added + 2 ^ 21) / 2 ^ 22 : Nat) - s.calInt (0x060 + 4 * ch)) % 2 ^ 80) ∧
      (s.rf (Reg.timeTrigCfg ch) 23 16 = 0 → c.wait = none → s.trigTakes ch rising = true → ((∃ l, c.lastEdge = some l ∧ s.edgeAt f < l + 256) ∨ 16 ≤ c.fifo.length) →
        Answers (.trigEdge ch rising f) s fun u => others u ∧ u.trig ch = c ∧ u.rb Reg.timeEvstat 7 = true ∧
          u.rf (Reg.timeTrigStat ch) 31 16 = min (s.rf (Reg.timeTrigStat ch) 31 16 + 1) 0xFFFF ∧
          RegsKept s u [Reg.timeEvstat, Reg.timeTrigStat ch]) ∧
      (∀ w, c.wait = some w → (s.cyc / 4 < w.due → ((Run.start s).trigDue ch).s = s) ∧
        (w.due ≤ s.cyc / 4 → s.trigTakes ch w.stamp.rising = true → (∀ l, c.lastEdge = some l → l + 256 ≤ w.edge) → c.fifo.length < 16 →
          let u := ((Run.start s).trigDue ch).s
          others u ∧ RegsKept s u [Reg.timeEvstat] ∧ u.trig ch = { fifo := c.fifo ++ [w.stamp], lastEdge := some w.edge }))) ∧
    (f < 64 → 0 < s.rf (Reg.timeTrigCfg ch) 23 16 → c.wait = none → Answers (.trigEdge ch rising f) s fun u => others u ∧ RegsKept s u [] ∧
      ∃ w : TrigWait, u.trig ch = { c with wait := some w } ∧ w.edge = s.edgeAt f ∧ w.stamp.rising = rising ∧
        w.due = s.cyc / 4 + s.rf (Reg.timeTrigCfg ch) 23 16) ∧
    (∀ w, f < 64 → c.wait = some w → (w.stamp.rising = rising → Answers (.trigEdge ch rising f) s (· = s)) ∧
      (w.stamp.rising = !rising → Answers (.trigEdge ch rising f) s fun u => others u ∧ RegsKept s u [] ∧
        u.trig ch = { c with wait := none })) ∧
    (∀ (x : Stamp) (t : List Stamp), c.fifo = x :: t → x.lo < 2 ^ 32 → x.hi < 2 ^ 32 → Answers (.trigOut0Read ch) s fun u =>
      others u ∧ u.trig ch = { c with fifo := t } ∧ (u.rget (Reg.timeTrigOut1 ch)).toNat = x.lo ∧
      (u.rget (Reg.timeTrigOut2 ch)).toNat = x.hi ∧ u.rget (Reg.timeTrigOut0 ch) = 0 ∧
      u.resp = ⟨.ok, [2 ^ 31 + (if x.rising then 1 else 2) * 2 ^ 29 + x.base * 2 ^ 26 + x.sub]⟩ ∧
      RegsKept s u [Reg.timeTrigOut0 ch, Reg.timeTrigOut1 ch, Reg.timeTrigOut2 ch]) ∧
    (c.fifo = [] → Answers (.trigOut0Read ch) s fun u => u.time = s.time ∧ u.rget (Reg.timeTrigOut0 ch) = 0 ∧
      u.resp = ⟨.ok, [(s.rget (Reg.timeTrigOut0 ch)).toNat % 2 ^ 31]⟩ ∧ RegsKept s u [Reg.timeTrigOut0 ch] ∧ MemKept s u) ∧
    (let m := s.rf Reg.timePpsCfg 30 29
     (s.rb Reg.timePpsCfg 31 = true → 0 ≤ s.ppsSteps → ((s.base m).tick m).sec ≠ (s.base m).sec →
       ((Run.start s).ppsTick).s = { s with time := { s.time with ppsDue := some (2 * s.cyc + s.ppsSteps.toNat) } }) ∧
     (s.rb Reg.timePpsCfg 31 = false ∨ (0 ≤ s.ppsSteps ∧ ((s.base m).tick m).sec = (s.base m).sec) → ((Run.start s).ppsTick).s = s)) ∧
    (s.time.ppsDue = none → Answers .ppsOutPulse s (· = s)) ∧
    (∀ d, s.time.ppsDue = some d → (2 * s.cyc < d → Answers .ppsOutPulse s (· = s)) ∧
      (d ≤ 2 * s.cyc → s.rb Reg.timePpsCfg 31 = true → 0 < s.rf Reg.timePpsCfg 18 0 → Answers .ppsOutPulse s
        (· = { s with time := { s.time with ppsDue := none, ppsRise := some d } })) ∧
      (d ≤ 2 * s.cyc → (s.rb Reg.timePpsCfg 31 = false ∨ s.rf Reg.timePpsCfg 18 0 = 0) → Answers .ppsOutPulse s
        (· = { s with time := { s.time with ppsDue := none } }))) ∧
    (∀ r, s.time.ppsRise = some r → (r + s.rf Reg.timePpsCfg 18 0 * 1600 ≤ 2 * s.cyc →
        Answers .ppsPulseEnd s (· = { s with time := { s.time with ppsRise := none } })) ∧
      (2 * s.cyc < r + s.rf Reg.timePpsCfg 18 0 * 1600 → Answers .ppsPulseEnd s (· = s)))

/-- The boundary of a grid on its own, timed operations, and the operations of the time unit. GRID_BOUNDARY of a grid
whose base has not reached its next boundary changes nothing. When it has, and nothing is bound to the grid, the
boundary's time and index are taken, the next lies one period on, and nothing else changes but that a waiting BOUNDARY
operation ends OK stamped with the boundary. TIMED_OP_DUE makes an accepted operation due at its time and not before;
one that has to wait for another then acts late. TIME_SNAP answers the words of all bases; TIME_ADJUST has a base
stepped on the next tick, which ends it OK, starts a slew that runs on, or is REFUSED with adj_refused on a base that
has a grid; TIME_BOUNDARY waits on a running grid and is REFUSED on another. (R55, R75, R77, R81, R85, R162, R169,
02_time.md) -/
def Obligations.GridsAndTimedOperations : Prop :=
  ∀ (s : State) (g : Nat), g < 16 →
    let x := s.grid g
    (s.gridReached g = false → Answers (.gridBoundary g ()) s (· = s)) ∧
    (s.gridReached g = true → s.commits = [] → (∀ n, n < 48 → s.axGrid n ≠ g) → s.lockAxesOn g = [] → (∀ n, n < 12 → s.adcEn n = false) →
      (∀ c, c < 256 → s.leH c 5 1 % 16 ≠ g) → s.cycOn = false → s.psRunning = [] →
      let here := if s.gridBase g = 0 then x.next else s.now
      let pred := x.tb0 + s.gridP g
      let next : Grid := { x with
        last := x.next, idx := x.nextIdx, fine := s.gridFine g, nextIdx := (x.nextIdx + 1) % 2 ^ 64
        next := (x.next + s.rf (Reg.timeSgPeriodAct g) 24 0 * 5) % (if s.gridBase g ≤ 2 then 2 ^ 64 else 2 ^ 48)
        tb0 := here, readAt := if here < pred ∧ pred ≤ here + s.gridP g / 2 then pred else here }
      let moved (u : State) : Prop := u.grid g = next ∧ (∀ j, j ≠ g → u.grid j = s.grid j)
      ((∀ o ∈ s.sp.ops, ¬(o.unit = 13 ∧ o.code = 4 ∧ o.obj = g)) → Answers (.gridBoundary g ()) s fun u => moved u ∧
        ∃ gr, u = { s with time := { s.time with grids := gr } }) ∧
      (∀ o : Op, s.sp.ops = [o] → o.unit = 13 → o.code = 4 → o.obj = g → o.acted = true → o.out = none →
        Answers (.gridBoundary g ()) s fun u => moved u ∧ MemKept s u ∧ RegsKept s u [] ∧
          ∃ p r, u.op o.id = some p ∧ p.out = some r ∧ r.status = o.okSt ∧ r.stamp = x.next % 2 ^ 32)) ∧
    (∀ (o : Op) (t : Nat), s.op o.id = some o → o.time = some t →
      (o.accepted = true → o.acted = false → o.late = false → o.out = none → t ≤ s.now → Answers (.timedOpDue o.id) s fun u =>
        OnlyOp s u o.id ∧ u.op o.id = some { o with due := true, held := o.held || (s.opBlocked o && !gridBound o.unit o.code) }) ∧
      (s.now < t → Answers (.timedOpDue o.id) s (· = s))) ∧
    (∀ o : Op,
      let b := s.base o.obj
      let amt : Int := sInt 64 (recNat o.payload 4 4 + recNat o.payload 8 4 * 2 ^ 32)
      (OpMay s o 13 1 → Answers (.timeSnap o.id) s fun u => OnlyOp s u o.id ∧ u.time = s.time ∧
        OpEnded u o.id o.okSt (wordsLE ((List.range 8).flatMap s.snapWords))) ∧
      (OpMay s o 13 2 → recNat o.payload 0 1 = 0 → 3 ≤ o.obj → o.obj < 8 → b.slewing = false → amt ≠ 0 →
        (s.baseHasGrid o.obj = false → Answers (.timeAdjust o.id) s fun u => OnlyOp s u o.id ∧
          u.op o.id = some { o with acted := true, actedAt := s.now } ∧
          u.base o.obj = { b with moves := b.moves ++ [(.add (amt * 2 ^ 32), .op o.id)] } ∧ ∀ j, j ≠ o.obj → u.base j = s.base j) ∧
        (s.baseHasGrid o.obj = true → Answers (.timeAdjust o.id) s fun u => u.time = s.time ∧ OpEnded u o.id .refused [] ∧
          OpsKept s u o.id ∧ MemKept s u ∧ RegsKept s u [Reg.timeEvstat] ∧ u.rb Reg.timeEvstat 6 = true)) ∧
      (∀ d : Int, s.op o.id = some o → o.out = none → 3 ≤ o.obj → o.obj < 8 → b.frac < 2 ^ 32 →
        b.moves = [(.add (d * 2 ^ 32), .op o.id)] → let u := ((Run.start s).movesDue o.obj).s
        OnlyOp s u o.id ∧ OpEnded u o.id o.okSt [] ∧ u.base o.obj = { b with moves := [], int := ((b.int + d) % 2 ^ 32).toNat }) ∧
      (OpMay s o 13 2 → recNat o.payload 0 1 = 1 → 1 ≤ recNat o.payload 2 2 → recNat o.payload 2 2 ≤ 500 → 3 ≤ o.obj → o.obj < 8 →
        b.slewing = false → amt ≠ 0 → Answers (.timeAdjust o.id) s fun u => u.op o.id = some { o with acted := true, actedAt := s.now } ∧
          u.base o.obj = { b with
            slewing := true, slewNeg := decide (amt < 0), slewStep := slewUnits (recNat o.payload 2 2)
            slewLeft := amt.natAbs * 2 ^ 32, slewOp := some o.id } ∧
          u.rb (Reg.timeTbAdjctl o.obj) 16 = true ∧ RegsKept s u [Reg.timeTbAdjctl o.obj] ∧ OpsKept s u o.id ∧ MemKept s u) ∧
      (OpMay s o 13 4 → (s.grid o.obj).running = true → Answers (.timeBoundary o.id) s fun u => OnlyOp s u o.id ∧
        u.op o.id = some { o with acted := true, actedAt := s.now } ∧ u.time = s.time) ∧
      (OpMay s o 13 4 → (s.grid o.obj).running = false → Answers (.timeBoundary o.id) s fun u => OnlyOp s u o.id ∧
        OpEnded u o.id .refused [] ∧ u.time = s.time))

/-- Compare values, carrier reloads, gates with dead time, and writes of duties and the output enable. A compare value
lies within H and nearest to its duty's share of H. CARRIER_RELOAD at a due valley of an axis in no lock group starts
the next period and takes all three duties together; PWM_COMPARE at a change of a phase's command turns the gate of
the old command off and queues the other for its dead time; DEAD_TIME_END turns a queued gate on whose time has come,
unless its on-interval would be shorter than `min_on`. Neither leaves both gates of a phase on, or queues a gate whose
partner is on. A member that joins a lock group starts its carrier at the interpolated instant of the group's
boundary. DUTY_WRITE and OUT_EN_WRITE write their register only, and in TEST OUT_EN_WRITE says whether the test
enables the axis; a duty that a loop context drives is refused with cfgerr. (R77, R275, R276, R277, R278, R279, R280,
07_axis_ports.md) -/
def Obligations.CarriersAndGates : Prop :=
  (∀ h d : Nat, d < 2 ^ 32 → compareVal h d ≤ h ∧ |2 ^ 32 * (compareVal h d : Int) - (2 ^ 31 + sInt 32 d) * h| ≤ 2 ^ 31) ∧
  ∀ (s : State) (n i g : Nat) (v : Word), s.Inv → n < 48 → i < 3 → g < 6 →
    let x := s.ax n
    let h := s.axH n
    let c := s.axCmd n i
    let off : Nat := if c then 2 * i + 1 else 2 * i
    let on : Nat := if c then 2 * i else 2 * i + 1
    let partner (k : Nat) : Nat := 4 * (k / 2) + 1 - k
    let safe (a : Axis) : Prop := (∀ p, p < 3 → ¬(bit a.gate (2 * p) = true ∧ bit a.gate (2 * p + 1) = true)) ∧
      (∀ e ∈ a.gateAt, bit a.gate (partner e.1) = false) ∧ (∀ e ∈ a.gateAt, ∀ f ∈ a.gateAt, e.1 / 2 = f.1 / 2 → e.1 = f.1)
    let only (u : State) : Prop := u = { s with motion := u.motion } ∧ ∀ j, j ≠ n → u.ax j = s.ax j
    (s.axMode n = 1 → s.axGroup n = none → x.carAt + 2 * h ≤ s.units → Answers (.carrierReload n) s fun u => only u ∧
      u.ax n = { x with
        joined := none, carAt := x.carAt + 2 * h
        duty := [(s.rget (Reg.axDuty n 0)).toNat, (s.rget (Reg.axDuty n 1)).toNat, (s.rget (Reg.axDuty n 2)).toNat] }) ∧
    ((s.axMode n ≠ 1 ∨ s.axGroup n ≠ none ∨ s.units < x.carAt + 2 * h) → Answers (.carrierReload n) s (· = s)) ∧
    (∀ q b, x.joined ≠ some (q, b) → ((Run.start s).axLockReload n q b).s.ax n = { x with
        joined := some (q, b), peak := false, carAt := (s.units : Int) - (s.grid b).fine
        duty := [(s.rget (Reg.axDuty n 0)).toNat, (s.rget (Reg.axDuty n 1)).toNat, (s.rget (Reg.axDuty n 2)).toNat] }) ∧
    (s.axMode n = 1 → c ≠ bit x.cmd i → Answers (.pwmCompare n i) s fun u => only u ∧ (safe x → safe (u.ax n)) ∧
      bit (u.ax n).cmd i = c ∧ (∀ k, k ≠ i → bit (u.ax n).cmd k = bit x.cmd k) ∧
      bit (u.ax n).gate off = false ∧ (∀ k, k ≠ off → bit (u.ax n).gate k = bit x.gate k) ∧
      (∀ e, e ∈ (u.ax n).gateAt ↔ e = (on, s.units + s.rf (Reg.axDeadAct n) 13 0) ∨ (e ∈ x.gateAt ∧ e.1 / 2 ≠ i))) ∧
    ((s.axMode n ≠ 1 ∨ c = bit x.cmd i) → Answers (.pwmCompare n i) s (· = s)) ∧
    (∀ t, (g, t) ∈ x.gateAt → (∀ e ∈ x.gateAt, e.1 = g → e.2 = t) →
      (s.units < t → Answers (.deadTimeEnd n g) s (· = s)) ∧
      (t ≤ s.units → Answers (.deadTimeEnd n g) s fun u => only u ∧ (safe x → safe (u.ax n)) ∧
        (u.ax n).gateAt = x.gateAt.filter (fun e => e.1 != g) ∧ (u.ax n).cmd = x.cmd ∧
        (∀ k, k ≠ g → bit (u.ax n).gate k = bit x.gate k) ∧
        ((∀ left, s.cmdLeft n (g / 2) t = some left → s.rf (Reg.axDeadAct n) 29 16 ≤ left) → bit (u.ax n).gate g = true) ∧
        ((∃ left, s.cmdLeft n (g / 2) t = some left ∧ left < s.rf (Reg.axDeadAct n) 29 16) → (u.ax n).gate = x.gate))) ∧
    ((∀ e ∈ x.gateAt, e.1 ≠ g) → Answers (.deadTimeEnd n g) s (· = s)) ∧
    (s.axDriven n i = false → Answers (.dutyWrite n i v) s fun u => u = { s with regs := u.regs } ∧
      RegsKept s u [Reg.axDuty n i] ∧ u.rget (Reg.axDuty n i) = v) ∧
    (s.axDriven n i = true → Answers (.dutyWrite n i v) s fun u => u = { s with regs := u.regs } ∧
      RegsKept s u [Reg.axEvstat n] ∧ u.rb (Reg.axEvstat n) 8 = true ∧ ∀ k, k ≠ 8 → u.rb (Reg.axEvstat n) k = s.rb (Reg.axEvstat n) k) ∧
    Answers (.outEnWrite n v) s (fun u => u = { s with regs := u.regs, motion := { s.motion with testEn := u.motion.testEn } } ∧
      (s.node ≠ .test → u.motion = s.motion) ∧
      (s.node = .test → ∀ k, bit u.motion.testEn k = if k = n then bit v.toNat 0 else bit s.motion.testEn k) ∧ RegsKept s u [Reg.axCtrl n] ∧
      u.rb (Reg.axCtrl n) 0 = bit v.toNat 0 ∧ ∀ k, k ≠ 0 → u.rb (Reg.axCtrl n) k = s.rb (Reg.axCtrl n) k)

/-- Step pulses and their limits, standstill, the loss of the driver, and the reseat. STEP_ISSUE moves P by the step
that is due, wrapped to 48 bits, ends standstill and starts a pulse, when DIR fits, `step_per` from the last step and
`dir_setup` from the last change of DIR have passed; otherwise it moves DIR, keeps P, and marks the start of an
episode of lag once, with its flag and its count; nothing happens while the port issues no steps. STEP_PULSE_END and
STANDSTILL_REACHED act when their time has passed. DRVOK_FALL ends a reseat, sets drvok_fall, and `retained` at
standstill with retain_en, else `poslost`, keeping P; DRVOK_RISE of a retained axis starts the wait. The reseat sets
DIR high and makes N corrective steps, home_idx + N being P modulo the cycle, without moving P, and ends `retained`,
`reseating` and sets reseat_done. (R282, R283, R284, R285, R287, 07_axis_ports.md) -/
def Obligations.StepsAndReseat : Prop :=
  ∀ (s : State) (n : Nat), s.Inv → n < 48 →
    let a := s.ax n
    let d := s.stepDue n
    let st := Reg.axStat n
    let ev := Reg.axEvstat n
    let setup : Nat := 4 * s.rf (Reg.axStepAct n) 20 10
    let cycle : Nat := s.rf (Reg.axRetAct n) 23 12
    let only (l : List Nat) (u : State) : Prop :=
      u = { s with motion := u.motion, regs := u.regs } ∧ (∀ j, j ≠ n → u.ax j = s.ax j) ∧ RegsKept s u l
    let same (r : Nat) (l : List Nat) (u : State) : Prop := ∀ k, k ∉ l → u.rb r k = s.rb r k
    let may : Prop := s.axMode n = 2 ∧ s.axOn n = true ∧ s.rb st 28 = true ∧ s.rb st 26 = false ∧ a.rsWait = none ∧
      a.stepHold = false ∧ d ≠ 0
    let clear : Prop := s.cyc < (if a.dir = decide (0 < d) then a.dirAt else s.cyc) + setup ∨
      (0 < a.lastStep ∧ s.cyc < a.lastStep + 4 * s.rf (Reg.axStepperAct n) 15 0)
    (may → ¬clear → Answers (.stepIssue n) s fun u => only [st] u ∧ same st [24] u ∧ u.rb st 24 = false ∧
      (u.ax n).pos = wrap48 (a.pos + d) ∧ (u.ax n).dir = decide (0 < d) ∧ (u.ax n).lastStep = s.cyc ∧
      (u.ax n).pulseAt = some s.cyc ∧ ((u.ax n).lag = true → a.lag = true)) ∧
    (may → clear → Answers (.stepIssue n) s fun u => only [ev, Reg.axErrcnt n] u ∧ (u.ax n).pos = a.pos ∧
      (u.ax n).pulseAt = a.pulseAt ∧ (u.ax n).lastStep = a.lastStep ∧ (u.ax n).dir = decide (0 < d) ∧ (u.ax n).lag = true ∧
      (u.ax n).dirAt = (if a.dir = decide (0 < d) then a.dirAt else s.cyc) ∧
      (a.lag = true → u.regs = s.regs) ∧ (a.lag = false → u.rb ev 7 = true ∧ same ev [7] u ∧
        u.rf (Reg.axErrcnt n) 7 0 = min (s.rf (Reg.axErrcnt n) 7 0 + 1) 255 ∧
        u.rf (Reg.axErrcnt n) 31 8 = s.rf (Reg.axErrcnt n) 31 8)) ∧
    (¬may → Answers (.stepIssue n) s (· = s)) ∧
    (a.pulseAt = none → Answers (.stepPulseEnd n) s (· = s)) ∧
    (∀ c, a.pulseAt = some c →
      (s.cyc < c + 4 * s.rf (Reg.axStepAct n) 31 24 → Answers (.stepPulseEnd n) s (· = s)) ∧
      (c + 4 * s.rf (Reg.axStepAct n) 31 24 ≤ s.cyc → Answers (.stepPulseEnd n) s fun u => only [] u ∧
        u.ax n = { a with pulseAt := none })) ∧
    (let due : Nat := a.lastStep + usCyc (1000 * s.rf (Reg.axRetAct n) 30 24)
     (s.cyc < due → Answers (.standstillReached n) s (· = s)) ∧
     (due ≤ s.cyc → Answers (.standstillReached n) s fun u => only [st] u ∧ u.motion = s.motion ∧ u.rb st 24 = true ∧ same st [24] u)) ∧
    ((s.axMode n ≠ 2 ∨ s.rb st 28 = false) → Answers (.drvokFall n) s (· = s)) ∧
    (s.axMode n = 2 → s.rb st 28 = true → Answers (.drvokFall n) s fun u => only [st, ev] u ∧
      u.ax n = { a with rsWait := none, rsLeft := 0, leNum := a.leTarget (s.cyc / 4), leAt := s.cyc / 4 } ∧ same st [25, 26, 27, 28] u ∧ same ev [4, 5] u ∧
      u.rb st 28 = false ∧ u.rb st 26 = false ∧ u.rb ev 4 = true ∧
      (let keep : Bool := s.rb st 27 || (s.rb st 24 && s.rb (Reg.axRetAct n) 31)
       u.rb st 27 = keep ∧ u.rb st 25 = (s.rb st 25 || !keep) ∧ u.rb ev 5 = (s.rb ev 5 || !keep))) ∧
    ((s.axMode n ≠ 2 ∨ s.rb st 28 = true) → Answers (.drvokRise n) s (· = s)) ∧
    (s.axMode n = 2 → s.rb st 28 = false → Answers (.drvokRise n) s fun u => only [st] u ∧ u.rb st 28 = true ∧ same st [28] u ∧
      u.ax n = { a with leAt := s.cyc / 4, rsWait := if s.rb st 27 then some (s.cyc + usCyc (1000 * s.rf (Reg.axReseatAct n) 7 0))
                                                     else a.rsWait }) ∧
    (a.rsWait = none → Answers (.reseatStart n) s (· = s)) ∧
    (∀ t, a.rsWait = some t → (s.cyc < t → Answers (.reseatStart n) s (· = s)) ∧
      (t ≤ s.cyc → 0 < cycle → Answers (.reseatStart n) s fun u => only [st] u ∧ u.rb st 26 = true ∧ same st [26] u ∧
        (u.ax n).pos = a.pos ∧ (u.ax n).rsWait = none ∧ (u.ax n).dir = true ∧ (u.ax n).dirAt = s.cyc ∧
        (u.ax n).rsAt = s.cyc + setup ∧ (u.ax n).rsLeft < cycle ∧
        ∃ k : Int, (s.rf (Reg.axRetAct n) 11 0 : Int) + (u.ax n).rsLeft = a.pos + k * cycle)) ∧
    (s.rb st 26 = true → 0 < a.rsLeft → a.rsAt ≤ s.cyc → Answers (.reseatStep n) s fun u => only [st] u ∧ u.rb st 24 = false ∧
      same st [24] u ∧ u.ax n = { a with
        rsLeft := a.rsLeft - 1, rsAt := a.rsAt + 4 * s.rf (Reg.axReseatAct n) 31 16, pulseAt := some s.cyc, lastStep := s.cyc }) ∧
    ((s.rb st 26 = false ∨ a.rsLeft = 0 ∨ s.cyc < a.rsAt) → Answers (.reseatStep n) s (· = s)) ∧
    (s.rb st 26 = true → a.rsLeft = 0 → a.rsAt + setup ≤ s.cyc → Answers (.reseatDone n) s fun u => only [st, ev] u ∧
      u.motion = s.motion ∧ u.rb st 26 = false ∧ u.rb st 27 = false ∧ u.rb ev 6 = true ∧ same st [26, 27] u ∧ same ev [6] u) ∧
    ((s.rb st 26 = false ∨ a.rsLeft ≠ 0 ∨ s.cyc < a.rsAt + setup) → Answers (.reseatDone n) s (· = s))

/-- Encoder edges, feedback frames, AUX edges, over-current trips and their release. With INC feedback and no filter a
change of one of A and B counts one up or down (down with the direction bit), modulo 2^32, and is kept with its TB0
time; a change of both counts an error and sets enc_err; a rising Z latches count and time; with a filter a new level
waits for it. A due SSI or template frame starts when none runs; over a running one, that one ends in error. A good
SSI frame gives its first `ssi_bits` bits to F0, Gray decoded where set, and sends F0 to the signal path; a short one,
and a timeout, update nothing but the error count and flags. A frame does not end before its bits have taken their
time. A channel keeps the bits of its modulator and counts how long its comparator lies beyond its thresholds; its
window gives the sinc3 result. OC_TRIP latches the trip, and for a channel that trips, the axis, after enough clocks
beyond; SD_STUCK its bit after 256 at one level. A clear, by register or operation, ends the trip exactly when every
comparator lies within its thresholds. AUX_EDGE keeps the first edge away from the qualified level with time and
position. (R274, R289, R290, R291, R292, R293, R294, R295, R296, R297, 07_axis_ports.md) -/
def Obligations.EncodersFramesAndTrips : Prop :=
  ∀ (s : State) (n : Nat) (v : Word), s.Inv → n < 48 →
    let x := s.ax n
    let within := s.axWithin n
    let tk := s.cyc / 4
    let settled : Prop := s.rf (Reg.axCfgAct n) 7 4 = 0 ∧ x.dueA ≤ tk ∧ x.dueB ≤ tk
    let bt := s.rf (Reg.axFbAct n) 15 0
    let ev := Reg.axEvstat n
    let ec := Reg.axErrcnt n
    let enc : Nat := (s.rget (Reg.axEnc n)).toNat
    let only (l : List Nat) (u : State) : Prop :=
      u = { s with motion := u.motion, regs := u.regs } ∧ (∀ j, j ≠ n → u.ax j = s.ax j) ∧ RegsKept s u l
    let failed (tout : Bool) (u : State) : Prop := u.rb ev 1 = true ∧ u.rb ev 2 = (s.rb ev 2 || tout) ∧
      u.rf ec 31 16 = min (s.rf ec 31 16 + 1) 65535 ∧ u.rf ec 15 0 = s.rf ec 15 0 ∧ only [ev, ec] u
    (∀ a b, s.axFb n = 1 → settled → (a = x.encA ↔ b ≠ x.encB) →
      let d : Int := if s.rb (Reg.axCfgAct n) 3 then -quadStep x.encA x.encB a b else quadStep x.encA x.encB a b
      (d = 1 ∨ d = -1) ∧ Answers (.encoderEdge n a b) s fun u => only [Reg.axEnc n] u ∧
        ((u.rget (Reg.axEnc n)).toNat : Int) = (enc + d) % 2 ^ 32 ∧ (u.ax n).encA = a ∧ (u.ax n).encB = b ∧
        (u.ax n).chg = (((u.rget (Reg.axEnc n)).toNat, s.now) :: x.chg).take 64) ∧
    (∀ a b, s.axFb n = 1 → settled → a ≠ x.encA → b ≠ x.encB → Answers (.encoderEdge n a b) s fun u => only [ev, ec] u ∧
      (u.ax n).encA = a ∧ (u.ax n).encB = b ∧ (u.ax n).chg = x.chg ∧ u.rb ev 3 = true ∧ u.rf ec 15 8 = min (s.rf ec 15 8 + 1) 255 ∧
      u.rf ec 7 0 = s.rf ec 7 0 ∧ u.rf ec 31 16 = s.rf ec 31 16) ∧
    (∀ a b, s.axFb n = 1 → settled → a = x.encA → b = x.encB → Answers (.encoderEdge n a b) s fun u => only [] u ∧
      (u.ax n).encA = a ∧ (u.ax n).encB = b ∧ (u.ax n).chg = x.chg) ∧
    (∀ a b, s.axFb n = 1 → 0 < s.rf (Reg.axCfgAct n) 7 4 → a ≠ x.rawA → b = x.rawB → x.rawB = x.encB →
      Answers (.encoderEdge n a b) s fun u => only [] u ∧ (u.ax n).encA = x.encA ∧ (u.ax n).encB = x.encB ∧
        (u.ax n).rawA = a ∧ (u.ax n).dueA = tk + s.rf (Reg.axCfgAct n) 7 4) ∧
    (∀ a b, s.axFb n ≠ 1 → Answers (.encoderEdge n a b) s (· = s)) ∧
    (s.axFb n = 1 → (s.mot n).home = none → Answers (.zEdge n) s fun u => only [Reg.axZlat n, Reg.axZts n] u ∧
      u.motion = s.motion ∧ u.rget (Reg.axZlat n) = s.rget (Reg.axEnc n) ∧ (u.rget (Reg.axZts n)).toNat = s.now32) ∧
    (s.axFb n ≠ 1 → Answers (.zEdge n) s (· = s)) ∧
    (∀ c : Instr, ∀ fb, ((c = .ssiFrameStart n ∧ fb = 2) ∨ (c = .frameEngineStart n ∧ fb = 3)) →
      (s.axFb n = fb → ∀ t l, x.frameAt = t :: l → t ≤ s.cyc →
        (x.frame = none → Answers c s fun u => only [] u ∧ u.ax n = { x with frameAt := l, frame := some (s.cyc, s.now) }) ∧
        (x.frame ≠ none → Answers c s fun u => failed true u ∧ u.ax n = { x with frameAt := l, frame := none })) ∧
      ((s.axFb n ≠ fb ∨ x.frameAt = [] ∨ ∃ t l, x.frameAt = t :: l ∧ s.cyc < t) → Answers c s (· = s))) ∧
    (∀ t st rx turns, x.frame = some (t, st) → s.axFb n = 2 →
      let nb : Nat := s.rf (Reg.axFbAct n) 30 24
      (4 * (s.cyc - t) < (2 * nb - 1) * bt → Answers (.feedbackFrameEnd n ⟨rx, turns⟩) s (· = s)) ∧
      ((2 * nb - 1) * bt ≤ 4 * (s.cyc - t) →
      (rx.length < nb → Answers (.feedbackFrameEnd n ⟨rx, turns⟩) s fun u => failed false u ∧ u.ax n = { x with frame := none }) ∧
      (nb ≤ rx.length → s.rb (Reg.axSig1Act n) 31 = false → Answers (.feedbackFrameEnd n ⟨rx, turns⟩) s fun u =>
        let f : Nat := (if s.rb (Reg.axFbAct n) 31 then ofGray (rx.take nb) else ofBits (rx.take nb)) % 2 ^ 32
        (u.rget (Reg.axF n 0)).toNat = f ∧ RegsKept s u [Reg.axF n 0] ∧ MemKept s u ∧ u.sp = s.sp ∧
        (u.ax n).frame = none ∧ (u.ax n).lastFrame = some (sInt 32 f, st) ∧ (∀ j, j ≠ n → u.ax j = s.ax j) ∧
        u.sig = { s.sig with path := s.sig.path ++ [
          { idx := s.rf (Reg.axSig0Act n) 17 0, val := f, stamp := st % 2 ^ 32, kind := 3 }] }))) ∧
    (∀ t st rx turns, x.frame = some (t, st) → s.axFb n = 3 →
      (2 * (s.cyc - t) < (s.axFrame n rx turns).line.length * bt → Answers (.feedbackFrameEnd n ⟨rx, turns⟩) s (· = s)) ∧
      ((s.axFrame n rx turns).line.length * bt ≤ 2 * (s.cyc - t) → (s.axFrame n rx turns).bad = true →
        Answers (.feedbackFrameEnd n ⟨rx, turns⟩) s fun u => failed false u ∧ u.ax n = { x with frame := none })) ∧
    (∀ t st, x.frame = some (t, st) → let due : Nat := t + 80 * s.rf (Reg.axFbtimeAct n) 15 0
      (s.cyc < due → Answers (.feedbackFrameTimeout n) s (· = s)) ∧
      (due ≤ s.cyc → Answers (.feedbackFrameTimeout n) s fun u => failed true u ∧ u.ax n = { x with frame := none })) ∧
    (∀ rx turns, x.frame = none → Answers (.feedbackFrameEnd n ⟨rx, turns⟩) s (· = s) ∧ Answers (.feedbackFrameTimeout n) s (· = s)) ∧
    (∀ c, c < 144 →
      (∀ b, let u := ((Run.start s).sdTake c b).s
        (u.sd c).bits = (2 * (s.sd c).bits + b2n b) % 2 ^ 766 ∧ (∀ j, j ≠ c → u.sd j = s.sd j) ∧
        (u.sd c).beyond = (if u.sdWithin c then 0 else min 8 ((s.sd c).beyond + 1)) ∧
        (u.sd c).same = (if (s.sd c).same ≠ 0 ∧ bit (s.sd c).bits 0 = b then min 256 ((s.sd c).same + 1) else 1)) ∧
      (∀ k, s.rb (Reg.sdfChCfgAct c) 31 = true → let d := s.rf (Reg.sdfChCfgAct c) 8 0
        let u := ((Run.start s).sdResult k c).s
        (u.rget (Reg.sdfChRes c)).toNat = uNat 32 (((s.sd c).sinc 3 d : Int) - (d * d * d / 2 : Nat)) ∧
        RegsKept s u [Reg.sdfChRes c] ∧ MemKept s u ∧ u.motion = s.motion ∧ u.sig = { s.sig with path := s.sig.path ++ [
          { idx := s.rf (Reg.sdfChSigAct c) 17 0, val := (u.rget (Reg.sdfChRes c)).toNat, stamp := k % 2 ^ 32, kind := 3 }] }) ∧
      (s.rb (Reg.sdfChCfgAct c) 31 = false ∨ (s.sd c).beyond < s.rf (Reg.sdfChCfgAct c) 29 27 + 1 → Answers (.ocTrip c) s (· = s)) ∧
      (s.rb (Reg.sdfChCfgAct c) 31 = false ∨ (s.sd c).same < 256 → Answers (.sdStuck c) s (· = s)) ∧
      (s.rb (Reg.sdfChCfgAct c) 31 = true →
        (let p := Reg.axStat (c / 3)
         s.rf (Reg.sdfChCfgAct c) 29 27 + 1 ≤ (s.sd c).beyond → Answers (.ocTrip c) s fun u => u = { s with regs := u.regs } ∧ u.rb (Reg.sdfTrip (c / 32)) (c % 32) = true ∧
          u.rb Reg.sdfEvstat 0 = true ∧ u.rb p 29 = (s.rb p 29 || s.rb (Reg.sdfChCfgAct c) 30) ∧
          u.rb (Reg.axEvstat (c / 3)) 0 = (s.rb (Reg.axEvstat (c / 3)) 0 || s.rb (Reg.sdfChCfgAct c) 30) ∧
          RegsKept s u [Reg.sdfTrip (c / 32), Reg.sdfEvstat, p, Reg.axEvstat (c / 3)]) ∧
        (256 ≤ (s.sd c).same → Answers (.sdStuck c) s fun u => u = { s with regs := u.regs } ∧ u.rb (Reg.sdfStuck (c / 32)) (c % 32) = true ∧
          u.rb Reg.sdfEvstat 1 = true ∧ RegsKept s u [Reg.sdfStuck (c / 32), Reg.sdfEvstat]))) ∧
    (let cleared (u : State) : Prop := u.rb (Reg.axStat n) 29 = false ∧
        (∀ c, c < 144 → u.rb (Reg.sdfTrip (c / 32)) (c % 32) = (s.rb (Reg.sdfTrip (c / 32)) (c % 32) && c / 3 != n)) ∧
        (∀ k, k ≠ 29 → u.rb (Reg.axStat n) k = s.rb (Reg.axStat n) k) ∧ MemKept s u ∧
        RegsKept s u ([Reg.axStat n] ++ (List.range 5).map Reg.sdfTrip)
     (bit v.toNat 1 = true → within = true → Answers (.axClearWrite n v ()) s fun u => cleared u ∧ u.sp = s.sp) ∧
     ((bit v.toNat 1 = false ∨ within = false) → Answers (.axClearWrite n v ()) s (· = s)) ∧
     (∀ o : Op, OpMay s o 1 3 → o.obj = n →
       (within = true → Answers (.axisClear o.id ()) s fun u => cleared u ∧ OpEnded u o.id o.okSt [] ∧ OpsKept s u o.id) ∧
       (within = false → Answers (.axisClear o.id ()) s fun u => OnlyOp s u o.id ∧ OpEnded u o.id .refused []))) ∧
    (∀ i level, i < 2 → let y := x.aux i
      (level = y.raw → Answers (.auxEdge n i level) s (· = s)) ∧
      (level ≠ y.raw → Answers (.auxEdge n i level) s fun u => only [] u ∧ ((u.ax n).aux i).raw = level ∧
        ((u.ax n).aux i).qual = y.qual ∧ ((u.ax n).aux i).rawAt = s.cyc ∧ (u.ax n).aux (1 - i) = x.aux (1 - i) ∧
        ((y.edge ≠ none ∨ level = y.qual) → ((u.ax n).aux i).edge = y.edge) ∧
        (y.edge = none → level ≠ y.qual → ((u.ax n).aux i).edge =
          some { stamp := s.now, pos0 := (s.axPosNow n).1, t0 := (s.axPosNow n).2 })))

/-- ENABLE, SETPOS and STATUS of the AXIS unit. ENABLE is REFUSED in mode OFF, outside NORMAL and TEST, or with a trip
latched; SETPOS unless the axis is at standstill with `retained` and `reseating` 0. While the axis's grid runs an
admissible one is taken and waits for its boundary; while it does not run an untimed one acts at once (the model's
reading, log 23): ENABLE writes `out_en` from bit 0 of its payload, SETPOS in mode STEP sets P, sign extended from bit
47, and clears `poslost`. STATUS answers AXn_STAT, P, the count, F0 to F3 and AXn_ERRCNT, 36 bytes, and changes
nothing else. (R16, R168, R284, R301, 04_operations.md) -/
def Obligations.AxisOperations : Prop :=
  ∀ (s : State) (o : Op), o.obj < 48 → s.Inv →
    let n := o.obj
    let run := (s.grid (s.axGrid n)).running
    let p : Int := sInt 48 (recNat o.payload 0 8)
    (OpTakes s o 1 2 →
      ((s.axMode n = 0 ∨ (s.node ≠ .normal ∧ s.node ≠ .test) ∨ s.rb (Reg.axStat n) 29 = true) →
        Answers (.axisEnable o.id) s fun u => OnlyOp s u o.id ∧ OpEnded u o.id .refused []) ∧
      (s.axMode n ≠ 0 → (s.node = .normal ∨ s.node = .test) → s.rb (Reg.axStat n) 29 = false →
        (run = true → Answers (.axisEnable o.id) s fun u => OnlyOp s u o.id ∧ OpTaken s u o) ∧
        (run = false → o.time = none → Answers (.axisEnable o.id) s fun u => OpEnded u o.id .ok [] ∧ OpsKept s u o.id ∧
          MemKept s u ∧ RegsKept s u [Reg.axCtrl n] ∧ u.rb (Reg.axCtrl n) 0 = bit (recNat o.payload 0 1) 0 ∧
          (s.node = .normal → u.motion = s.motion)))) ∧
    (OpTakes s o 1 4 →
      ((s.rb (Reg.axStat n) 24 = false ∨ s.rb (Reg.axStat n) 27 = true ∨ s.rb (Reg.axStat n) 26 = true) →
        Answers (.axisSetpos o.id) s fun u => OnlyOp s u o.id ∧ OpEnded u o.id .refused [] ∧ u.motion = s.motion) ∧
      (s.rb (Reg.axStat n) 24 = true → s.rb (Reg.axStat n) 27 = false → s.rb (Reg.axStat n) 26 = false →
        (run = true → Answers (.axisSetpos o.id) s fun u => OnlyOp s u o.id ∧ OpTaken s u o) ∧
        (run = false → o.time = none → s.axMode n = 2 → Answers (.axisSetpos o.id) s fun u => OpEnded u o.id .ok [] ∧
          OpsKept s u o.id ∧ MemKept s u ∧ RegsKept s u [Reg.axStat n] ∧ u.rb (Reg.axStat n) 25 = false ∧
          (∀ k, k ≠ 25 → u.rb (Reg.axStat n) k = s.rb (Reg.axStat n) k) ∧ (u.ax n).pos = p ∧
          ∀ j, j ≠ n → u.ax j = s.ax j))) ∧
    (OpMay s o 1 5 → Answers (.axisStatus o.id) s fun u => OnlyOp s u o.id ∧ u.motion = s.motion ∧
      ∃ d : List Byte, d.length = 36 ∧ OpEnded u o.id o.okSt d ∧ recNat d 0 4 = s.axStatReg n ∧
        sInt 64 (recNat d 4 8) = sInt 64 (uNat 64 (s.ax n).pos) ∧ recNat d 12 4 = (s.rget (Reg.axEnc n)).toNat ∧
        (∀ i, i < 4 → recNat d (16 + 4 * i) 4 = (s.rget (Reg.axF n i)).toNat) ∧ recNat d 32 4 = (s.rget (Reg.axErrcnt n)).toNat)

/-- What the MOT unit does with an operation when it takes it; ARRIVE and STATUS. A badly formed MOVE or FOLLOW ends
CFGERR; with the axis OFF a MOVE, HOME or FOLLOW ends REFUSED, cause NOTREADY, a PHASE REFUSED, a STOP OK, and SETREF
is REFUSED unless IDLE, else sets the reference, at rest, and `homed`; every REFUSED or CFGERR sets op_refused and
MOTn_LASTERR. Every other one is taken for its boundary, with nothing else changed; a CAM whose committed table is not
in general SRAM is REFUSED, cause NOTREADY. ARRIVE ends EMPTY in IDLE, OK in SYNCED and at the target velocity, and
waits otherwise. STATUS answers 40 bytes and changes nothing else. (R161, R306, R312, R338, R339, 08_motion.md) -/
def Obligations.MotionOperations : Prop :=
  ∀ (s : State) (o : Op), s.Inv → o.obj < 48 →
    let n := o.obj
    let d := o.payload
    let m := s.mot n
    let p : Int := sInt 64 (recNat d 0 8)
    let turned (st : Status) (cause : Nat) (u : State) : Prop := OpEnded u o.id st [] ∧ OpsKept s u o.id ∧ MemKept s u ∧
      u.motion = s.motion ∧ RegsKept s u [Reg.motEvstat n, Reg.motLasterr n] ∧ u.rb (Reg.motEvstat n) 2 = true ∧
      (u.rget (Reg.motLasterr n)).toNat = st.code * 2 ^ 24 + cause * 2 ^ 16 + o.code
    let bad (code : Nat) : Prop := (code = 2 ∧ (2 < recNat d 0 1 ∨ (recNat d 0 1 = 2 ∧ dfin (recNat d 8 8) = false))) ∨
      (code = 7 ∧ (1 < recNat d 0 1 ∨ recNat d 8 4 = 0 ∨ 15 < recNat d 1 1 ∨ 63 < recNat d 2 1))
    let outside : Prop := o.code = 7 ∧ recNat d 0 1 = 1 ∧ 0x2000000 < s.rget64 (Reg.vmCamBaseLoAct (recNat d 2 1))
      (Reg.vmCamBaseHiAct (recNat d 2 1)) + 8 * s.rf (Reg.vmCamCfgAct (recNat d 2 1)) 12 0
    (∀ (c : Instr) (code : Nat), ((c = .motMove o.id ∧ code = 2) ∨ (c = .motStop o.id ∧ code = 3) ∨ (c = .motHome o.id ∧ code = 4) ∨
        (c = .motSetref o.id ∧ code = 5) ∨ (c = .motFollow o.id ∧ code = 7) ∨ (c = .motPhase o.id ∧ code = 8)) →
      OpTakes s o 2 code →
      (bad code → Answers c s (turned .cfgerr 0)) ∧
      (¬bad code → s.axMode n = 0 →
        (code = 2 ∨ code = 4 ∨ code = 7 → Answers c s (turned .refused 0x10)) ∧
        (code = 8 → Answers c s (turned .refused 0)) ∧
        (code = 3 → Answers c s fun u => OnlyOp s u o.id ∧ OpEnded u o.id o.okSt [] ∧ u.motion = s.motion) ∧
        (code = 5 → m.state ≠ 0 → Answers c s (turned .refused 0)) ∧
        (code = 5 → m.state = 0 → Answers c s fun u => OpEnded u o.id o.okSt [] ∧ OpsKept s u o.id ∧ MemKept s u ∧
          u.mot n = { m with ref := p, v := 0, a := 0, prev := p } ∧ (∀ j, j ≠ n → u.mot j = s.mot j) ∧
          RegsKept s u [Reg.motStat n] ∧ u.rb (Reg.motStat n) 9 = true ∧
          ∀ k, k ≠ 9 → u.rb (Reg.motStat n) k = s.rb (Reg.motStat n) k)) ∧
      (¬bad code → s.axMode n ≠ 0 → outside → Answers c s (turned .refused 0x10)) ∧
      (¬bad code → s.axMode n ≠ 0 → ¬outside → Answers c s fun u => OnlyOp s u o.id ∧ OpTaken s u o ∧ u.motion = s.motion)) ∧
    (OpMay s o 2 6 →
      let there : Prop := m.state = 2 ∧ dsgn m.a = 0 ∧ m.targetVel = some m.v
      (m.state = 0 → Answers (.motArrive o.id) s fun u => OnlyOp s u o.id ∧ OpEnded u o.id .empty [] ∧ u.motion = s.motion) ∧
      ((m.state = 6 ∨ there) → Answers (.motArrive o.id) s fun u => OnlyOp s u o.id ∧ OpEnded u o.id o.okSt [] ∧ u.motion = s.motion) ∧
      (m.state ≠ 0 → m.state ≠ 6 → ¬there → Answers (.motArrive o.id) s fun u => OnlyOp s u o.id ∧
        u.op o.id = some { o with acted := true, actedAt := s.now } ∧ u.motion = s.motion)) ∧
    (OpMay s o 2 9 → Answers (.motStatus o.id) s fun u => OnlyOp s u o.id ∧ u.motion = s.motion ∧
      ∃ x : List Byte, x.length = 40 ∧ OpEnded u o.id o.okSt x ∧ recNat x 0 4 = s.motStat n % 2 ^ 32 ∧
        recNat x 4 8 = uNat 64 m.ref ∧ recNat x 12 4 = f64.conv f32 m.v % 2 ^ 32 ∧ recNat x 16 4 = f64.conv f32 m.a % 2 ^ 32 ∧
        (m.targetVel = none → recNat x 20 8 = uNat 64 m.target) ∧
        (∀ w, m.targetVel = some w → recNat x 20 8 = f64.conv f32 w % 2 ^ 64) ∧
        recNat x 28 8 = s.rget64 (Reg.motLatchLo n) (Reg.motLatchHi n) ∧ recNat x 36 4 = (s.rget (Reg.motLatchTs n)).toNat)

/-- Plans, stops and refusals when operations act at a boundary; readiness, cam misses and limit inputs. Acting at
boundary time k on an axis that neither homes nor follows: a MOVE plans from the reference in use to its target or, at
most at vmax (then TRUNC, unless it is late), to its velocity; a MOVE to a position in a blocked direction or with
poslost, or to a velocity of a blocked sign, is REFUSED without any effect on motion; STOP plans to rest with dmax and
jmax, or qdec and qjerk. A position plan that has ended gives its target at rest. AXIS_NOT_READY sets `abort` once,
when the state is not IDLE and the axis has stopped being ready; CAM_MISS marks a cam follower. AUX_QUALIFIED of a
level that has held for its debounce time makes it the qualified one and latches position and stamp of the first raw
edge, and a limit that becomes active so stops a motion towards it; before that it changes nothing. (R310, R311, R314,
R315, R316, R317, R318, R319, R324, R334, 08_motion.md) -/
def Obligations.MotionAtBoundary : Prop :=
  (∀ (l : MotLim) (st v a t : Nat) (p pt : Int) (wide : Bool), let r := (planTo l st p v a pt).eval wide t
    r.2 = true → r.1 = ⟨pt, 0, 0⟩) ∧
  ∀ (s : State) (o : Op) (k v : Nat), s.Inv → o.obj < 48 → s.op o.id = some o →
    let n := o.obj
    let m := s.mot n
    let w := recNat o.payload 8 8
    let others (u : State) : Prop := (∀ j, j ≠ n → u.mot j = s.mot j) ∧ OpsKept s u o.id ∧ MemKept s u ∧ RegsKept s u []
    let refused (cause : Nat) (u : State) : Prop := u.motion = s.motion ∧ OpEnded u o.id .refused [] ∧ OpsKept s u o.id ∧
      RegsKept s u [Reg.motEvstat n, Reg.motLasterr n] ∧ u.rf (Reg.motLasterr n) 23 16 = cause
    (m.home = none → m.follow = none →
      (recNat o.payload 0 1 = 2 → let u := ((Run.start s).motMove o k v).s
        let fast := dlt (s.motLimit n 0) (dabs w)
        let vel := if fast then dsig (dsgn w) (s.motLimit n 0) else w
        (s.motBlocked n (dsgn vel) = true → refused 0x12 u) ∧
        (s.motBlocked n (dsgn vel) = false → others u ∧ OpEnded u o.id (if fast = true ∧ o.okSt = .ok then .trunc else o.okSt) [] ∧
          u.mot n = { m with state := 2, targetVel := some vel, plan := some (planVel (s.motLims n) v m.ref m.v m.a vel) })) ∧
      (recNat o.payload 0 1 ≤ 1 → let u := ((Run.start s).motMove o k v).s
        let pt := if recNat o.payload 0 1 = 1 then wrap64 (m.ref + sInt 64 w) else sInt 64 w
        let p := planTo (s.motLims n) v m.ref m.v m.a pt
        let lost : Prop := s.axMode n = 2 ∧ s.rb (Reg.axStat n) 25 = true
        (lost → refused 0x11 u) ∧ (¬lost → s.motBlocked n (pt - m.ref) = true → refused 0x12 u) ∧
        (¬lost → s.motBlocked n (pt - m.ref) = false → p.segs ≠ [] → others u ∧ OpEnded u o.id o.okSt [] ∧
          u.mot n = { m with state := 1, target := pt, targetVel := none, plan := some p })) ∧
      (let u := ((Run.start s).motStop o k v).s
       let q := bit (recNat o.payload 0 1) 0
       let p := planRest v m.ref m.v m.a (s.motLimit n (if q then 4 else 2)) (s.motLimit n (if q then 5 else 3)) q
       m.state ≠ 0 → p.segs ≠ [] → others u ∧ OpEnded u o.id o.okSt [] ∧ u.mot n = { m with state := 3, plan := some p })) ∧
    ((m.state = 0 ∨ s.motReady n = true ∨ m.wasReady = false) → Answers (.axisNotReady n) s (· = s)) ∧
    (m.state ≠ 0 → s.motReady n = false → m.wasReady = true → Answers (.axisNotReady n) s fun u =>
      u.mot n = { m with notReady := true, wasReady := false } ∧ (∀ j, j ≠ n → u.mot j = s.mot j) ∧ u.rb (Reg.motEvstat n) 4 = true ∧
      RegsKept s u [Reg.motEvstat n] ∧ MemKept s u ∧ (o.unit = 2 → o.code = 6 → o.acted = true → o.out = none → s.sp.ops = [o] →
        OpEnded u o.id .aborted [])) ∧
    (∀ f, m.follow = some f → f.cam = true → Answers (.camMiss n) s fun u => u.mot n = { m with camMiss := true } ∧
      (∀ j, j ≠ n → u.mot j = s.mot j) ∧ u.rb (Reg.motEvstat n) 8 = true ∧ RegsKept s u [Reg.motEvstat n] ∧ MemKept s u) ∧
    ((∀ f, m.follow = some f → f.cam = false) → Answers (.camMiss n) s (· = s)) ∧
    (∀ i, i < 2 →
      let x := (s.ax n).aux i
      let deb : Nat := if i = 0 then s.rf (Reg.motDebAct n) 15 0 else s.rf (Reg.motDebAct n) 31 16
      ((x.edge = none ∨ x.raw = x.qual ∨ s.cyc < x.rawAt + usCyc deb) → Answers (.auxQualified n i) s (· = s)) ∧
      (∀ e, x.edge = some e → x.raw ≠ x.qual → x.rawAt + usCyc deb ≤ s.cyc → Answers (.auxQualified n i) s fun u =>
        let act := s.auxActive n i x.raw
        ((u.ax n).aux i).qual = x.raw ∧ ((u.ax n).aux i).edge = none ∧ (u.ax n).aux (1 - i) = (s.ax n).aux (1 - i) ∧
        u.rget64 (Reg.motLatchLo n) (Reg.motLatchHi n) = uNat 64 (e.latched (s.axMode n == 2)) ∧
        (u.rget (Reg.motLatchTs n)).toNat = e.stamp % 2 ^ 32 ∧
        (u.rget (Reg.motLatchInfo n)).toNat = 2 ^ 31 + (if act then 0 else 4) + i ∧
        (∀ role, role = 1 ∨ role = 2 → s.auxRole n i = role → s.auxRole n (1 - i) ≠ role → u.roleActive n role = act) ∧
        (s.auxRole n i = 1 ∨ s.auxRole n i = 2 → act = true → m.home = none → m.state ≠ 0 → bit m.lims i = false →
          s.auxRole n (1 - i) ≠ 1 → s.auxRole n (1 - i) ≠ 2 → bit m.lims (1 - i) = false →
          dsgn m.v = (if s.auxRole n i = 1 then 1 else -1) →
          (u.mot n).limit = some (if s.auxHard n i then .hard else .ramp) ∧ bit (u.mot n).lims i = true ∧
          (u.ax n).stepHold = ((s.ax n).stepHold || (s.auxHard n i && s.axMode n == 2))) ∧
        RegsKept s u [Reg.motLatchLo n, Reg.motLatchHi n, Reg.motLatchTs n, Reg.motLatchInfo n] ∧ MemKept s u ∧
        u.sp = s.sp))

/-- Segments of virtual masters: their layouts, PUBLISH and its checks, EVAL, runout, and segments from the Herd. The
48 bytes of a segment on the wire give the segment back. PUBLISH without `replace` to a slot whose queue starts with
its current segment: the first failing check of R327 decides the outcome and leaves the queue, and with a REFUSED or
CFGERR outcome sets cfgerr of the block; otherwise the segment joins the queue under the next sequence number, and it
ends OK. EVAL answers the segment's polynomial at its time, EMPTY when none covers it. VM_RUNOUT marks a slot whose
current segment has expired. A segment that no COPY slot matches is counted; one that a slot takes is queued, one with
the last sequence number, unsound or out of order is dropped silently, a gap and a full queue set their flags. (R325,
R327, R328, R331, R338, 08_motion.md) -/
def Obligations.VirtualMasters : Prop :=
  (∀ g : VmSeg, g.tStart < 2 ^ 64 → -(2 ^ 63) ≤ g.c0 → g.c0 < 2 ^ 63 → g.c1 < 2 ^ 64 → g.c2 < 2 ^ 32 → g.c3 < 2 ^ 32 →
    g.durUs < 2 ^ 32 → g.roDec < 2 ^ 32 → g.roJerk < 2 ^ 32 → g.seq < 2 ^ 16 → g.wire.length = 48 ∧ vmSegOfWire g.wire = g) ∧
  ∀ (s : State) (m : Nat), m < 16 →
    let x := s.vm m
    let others (u : State) : Prop := (∀ j, j ≠ m → u.vm j = s.vm j) ∧ u.motion.axes = s.motion.axes ∧
      u.motion.mots = s.motion.mots ∧ MemKept s u
    (∀ g, vmCurrent x.queue s.now = some g → x.queue.head? = some g) →
    (∀ o : Op, OpMay s o 2 0x10 → o.obj = 64 + m → bit (recNat o.payload 0 1) 0 = false →
      let g := vmSegOf (o.payload.drop 8)
      let source : Prop := s.rf (Reg.vmVmCfgAct m) 31 30 = 1
      let order : Prop := ∀ l, x.queue.getLast? = some l → l.tStart < g.tStart ∧ g.tStart ≤ l.tEnd
      let late : Prop := g.tStart < s.now + s.rf (Reg.vmVmDestAct m) 31 16 * 1000
      let near : Prop := ∀ c, vmCurrent x.queue g.tStart = some c →
        |(c.at g.tStart).1.p - g.c0| ≤ ((s.rget (Reg.vmVmTolAct m)).toNat : Int)
      let ended (st : Status) (u : State) : Prop := OpEnded u o.id st [] ∧ OpsKept s u o.id ∧ MemKept s u ∧ u.motion = s.motion
      let turned (st : Status) (u : State) : Prop := ended st u ∧ u.rb Reg.vmEvstat 0 = true ∧ RegsKept s u [Reg.vmEvstat]
      (¬source → Answers (.motPublish o.id) s (turned .refused)) ∧
      (source → g.sound = false → Answers (.motPublish o.id) s (turned .cfgerr)) ∧
      (source → g.sound = true → ¬order → Answers (.motPublish o.id) s (turned .cfgerr)) ∧
      (source → g.sound = true → order → late → Answers (.motPublish o.id) s (turned .refused)) ∧
      (source → g.sound = true → order → ¬late → ¬near → Answers (.motPublish o.id) s (turned .refused)) ∧
      (source → g.sound = true → order → ¬late → near → 16 ≤ x.queue.length →
        Answers (.motPublish o.id) s fun u => ended .overload u ∧ RegsKept s u []) ∧
      (source → g.sound = true → order → ¬late → near → x.queue.length < 16 →
        Answers (.motPublish o.id) s fun u => OpEnded u o.id o.okSt [] ∧ OpsKept s u o.id ∧ others u ∧
          u.vm m = { x with queue := x.queue ++ [{ g with seq := x.nextSeq }], nextSeq := (x.nextSeq + 1) % 2 ^ 16 })) ∧
    (∀ o : Op, OpMay s o 2 0x11 → o.obj = 64 + m → let t := recNat o.payload 0 8
      (∀ g, vmCurrent x.queue t = some g → t < g.tEnd → Answers (.motEval o.id) s fun u => OnlyOp s u o.id ∧
        u.motion = s.motion ∧ ∃ d : List Byte, d.length = 24 ∧ OpEnded u o.id o.okSt d ∧
          recNat d 0 8 = uNat 64 (g.poly (t - g.tStart)).p ∧ recNat d 8 8 = (g.poly (t - g.tStart)).v % 2 ^ 64 ∧
          recNat d 16 8 = (g.poly (t - g.tStart)).a % 2 ^ 64) ∧
      ((∀ g, vmCurrent x.queue t = some g → g.tEnd ≤ t) → Answers (.motEval o.id) s fun u => OnlyOp s u o.id ∧
        u.motion = s.motion ∧ OpEnded u o.id .empty [])) ∧
    (let out : Prop := ∃ g, vmCurrent x.queue s.now = some g ∧ g.tEnd ≤ s.now
     (out → x.runout = false → Answers (.vmRunout m) s fun u => others u ∧ u.vm m = { x with runout := true } ∧
       u.rb Reg.vmEvstat 2 = true ∧ RegsKept s u [Reg.vmEvstat] ∧ u.sp = s.sp) ∧
     ((¬out ∨ x.runout = true) → Answers (.vmRunout m) s (· = s))) ∧
    (∀ (node : Nat) (d : List Byte),
      let g := vmSegOfWire (d.drop 8)
      let mine (j : Nat) : Prop := s.rf (Reg.vmVmCfgAct j) 31 30 = 2 ∧ s.rf (Reg.vmVmCfgAct j) 15 0 = node ∧
        s.rf (Reg.vmVmCfgAct j) 23 20 = recNat d 0 1
      let gap : Prop := ∃ l, x.lastSeq = some l ∧ 1 < (g.seq + 65536 - l) % 65536
      let order : Prop := ∀ l, x.queue.getLast? = some l → l.tStart < g.tStart ∧ g.tStart ≤ l.tEnd
      ((∀ j, j < 16 → ¬mine j) → Answers (.vmSegmentReceive node d) s fun u => u.motion = s.motion ∧ MemKept s u ∧
        RegsKept s u [Reg.vmForeign] ∧ (u.rget Reg.vmForeign).toNat = min ((s.rget Reg.vmForeign).toNat + 1) (2 ^ 32 - 1)) ∧
      ((∀ j, j < 16 → (mine j ↔ j = m)) → bit (recNat d 1 1) 0 = false →
        (x.lastSeq = some g.seq → Answers (.vmSegmentReceive node d) s (· = s)) ∧
        (x.lastSeq ≠ some g.seq → x.queue.length < 16 → (g.sound = false ∨ ¬order) → Answers (.vmSegmentReceive node d) s fun u =>
          others u ∧ u.vm m = { x with lastSeq := some g.seq } ∧ RegsKept s u [Reg.vmEvstat]) ∧
        (x.lastSeq ≠ some g.seq →
          (16 ≤ x.queue.length → Answers (.vmSegmentReceive node d) s fun u => others u ∧
            u.vm m = { x with lastSeq := some g.seq } ∧ u.rb Reg.vmEvstat 4 = true ∧ (gap → u.rb Reg.vmEvstat 3 = true) ∧
            RegsKept s u [Reg.vmEvstat]) ∧
          (g.sound = true → order → x.queue.length < 16 → x.evalAt < g.tStart → Answers (.vmSegmentReceive node d) s fun u => others u ∧
            u.vm m = { x with lastSeq := some g.seq, queue := x.queue ++ [g] } ∧ (gap → u.rb Reg.vmEvstat 3 = true) ∧
            (¬gap → RegsKept s u []) ∧ RegsKept s u [Reg.vmEvstat]))))

/-- Triggers, calibration, injected requests, holds, results and the open-wire test. With no input under test. A
trigger, at a conversion boundary behind a waiting commit, starts the sequence, which runs from its first hold, is
latched while the converter is busy, or is lost when one is latched. A calibration is requested, starts with no
conversion and no earlier request, and ends 9,600 ticks later with the trims or without. An injected request joins a
queue of four or is refused. A hold takes the head of that queue before the next regular entry, not before its tick,
and stalls with 16 results waiting. A result takes the corrected code to its data register, its signal through the
sample path within the budget or else the Mesh queue, from where it joins its bank's queue or is held back while that
is full, and frees the converter. A change of OWSRC, the settling of an open-wire test, and its end, act as their
rules say. Other converters, memory and operations stay. (R344, R213, R345, R347, R348, R351, R352, R354, R356, R357,
R359, 09_analog.md) -/
def Obligations.ConvertersAtWork : Prop :=
  ∀ (s : State) (n : Nat) (v : Word), s.Inv → n < 12 → s.underTest n = 0 →
    let x := s.adcC n
    let ev := Reg.adcEvstat n
    let cnt := Reg.adcCnt n
    let en := s.adcEn n
    let len := s.adcLen n
    let others (l : List Nat) (u : State) : Prop := (∀ j, j ≠ n → u.adcC j = s.adcC j) ∧ RegsKept s u l ∧ MemKept s u ∧ u.sp = s.sp
    let flags (i : Nat) (u : State) : Prop := u.adcC n = x ∧ others [ev] u ∧ u.rb ev i = true ∧ ∀ k, k ≠ i → u.rb ev k = s.rb ev k
    let busy := x.armed || x.running || x.calPending || x.calEnd.isSome
    let arrives (y : Adc) (u : State) : Prop :=
      (len = 0 → u.adcC n = y ∧ others [] u) ∧
      (0 < len → busy = false → u.adcC n = { y with armed := true, next := 0, trigAt := s.tick, seqOp := none } ∧ others [] u) ∧
      (0 < len → busy = true → y.latched = false → u.adcC n = { y with latched := true, latchOp := none } ∧ others [] u) ∧
      (0 < len → busy = true → y.latched = true → u.adcC n = y ∧ others [ev, cnt] u ∧ u.rb ev 2 = true ∧
        u.rf cnt 31 16 = min (s.rf cnt 31 16 + 1) 65535)
    let apply := s.adcCommitting n && s.adcAtBoundary n
    ((∀ t, x.trigDue = some t → en = false ∨ s.tick < t ∨ apply = true) → Answers (.adcSequenceTrigger n) s (· = s)) ∧
    (∀ t, x.trigDue = some t → en = true → t ≤ s.tick → apply = false → Answers (.adcSequenceTrigger n) s (arrives { x with trigDue := none })) ∧
    (bit v.toNat 0 = false → Answers (.adcTriggerWrite n v) s (· = s)) ∧
    (bit v.toNat 0 = true → en = false → Answers (.adcTriggerWrite n v) s (flags 0)) ∧
    (bit v.toNat 0 = true → en = true → Answers (.adcTriggerWrite n v) s (arrives x)) ∧
    ((bit v.toNat 1 = false ∨ (en = true ∧ (x.calPending || x.calEnd.isSome) = true)) → Answers (.adcCalibWrite n v) s (· = s)) ∧
    (bit v.toNat 1 = true → en = false → Answers (.adcCalibWrite n v) s (flags 0)) ∧
    (bit v.toNat 1 = true → en = true → (x.calPending || x.calEnd.isSome) = false → Answers (.adcCalibWrite n v) s fun u =>
      others [] u ∧ u.adcC n = { x with calPending := true, inj := x.inj.map fun i => { i with early := true } }) ∧
    (let may : Prop := x.calPending = true ∧ x.conv = none ∧ ∀ i ∈ x.inj, i.early = false
     (may → Answers (.adcCalStart n) s fun u => others [] u ∧ u.adcC n = { x with calPending := false, calEnd := some (s.tick + 9600) }) ∧
     (¬may → Answers (.adcCalStart n) s (· = s))) ∧
    (∀ trims, (x.calEnd = none ∨ ∃ t, x.calEnd = some t ∧ s.tick < t) → Answers (.adcCalEnd n trims) s (· = s)) ∧
    (∀ t trims, x.calEnd = some t → t ≤ s.tick → x.calOps = [] → x.latched = false → Answers (.adcCalEnd n trims) s fun u =>
      u.adcC n = { x with
        calEnd := none, lastHold := some s.tick, inj := x.inj.map fun i => { i with tick := max i.tick s.tick } } ∧
      others [ev, Reg.adcCal n, Reg.adcStat n] u ∧ u.rb ev 3 = true ∧
      (∀ w, trims = some w → u.rget (Reg.adcCal n) = w ∧ u.rb (Reg.adcStat n) 28 = true) ∧
      (trims = none → u.rget (Reg.adcCal n) = s.rget (Reg.adcCal n) ∧ u.rget (Reg.adcStat n) = s.rget (Reg.adcStat n))) ∧
    ((en = false ∨ 4 ≤ x.inj.length) → Answers (.adcInjWrite n v) s (flags 7)) ∧
    (en = true → x.inj.length < 4 → Answers (.adcInjWrite n v) s fun u => others [] u ∧ u.adcC n = { x with
      inj := x.inj ++ [{ input := fld v 29 27, ext := fld v 26 19, sig := bit v.toNat 31, dr := bit v.toNat 30, idx := fld v 17 0,
                         tick := s.tick }] }) ∧
    (let w := Reg.adcOwsrc n
     let bad : Prop := ∃ i, i < 8 ∧ fld v (2 * i + 1) (2 * i) = 3
     (bad → Answers (.adcOwsrcWrite n v) s fun u => u.adcC n = x ∧ others [w, ev] u ∧ u.rb ev 0 = true ∧
       u.rb w 16 = bit v.toNat 16 ∧ u.rf w 15 0 = s.rf w 15 0) ∧
     (¬bad → Answers (.adcOwsrcWrite n v) s fun u => u.adcC n = x ∧ others [w] u ∧ (u.rget w).toNat = v.toNat % 2 ^ 17)) ∧
    (x.conv ≠ none → Answers (.adcHold n) s (· = s)) ∧
    (∀ q tl, x.conv = none → x.calEnd = none → x.inj = q :: tl → (q.early = true ∨ x.calPending = false) →
      let free : Nat := match x.lastHold with
        | none => 0
        | some h => h + 40 + q.ext
      let t := max (q.tick + 40 + q.ext) free
      (s.tick < t → Answers (.adcHold n) s (· = s)) ∧
      (t ≤ s.tick → 16 ≤ x.mesh.length → Answers (.adcHold n) s (flags 6)) ∧
      (t ≤ s.tick → x.mesh.length < 16 → Answers (.adcHold n) s fun u => others [] u ∧
        (u.adcC n).conv = some { kind := .injected q.op, input := q.input, sig := q.sig, dr := q.dr, idx := q.idx, stamp := s.now,
                                 endAt := s.tick + 40 } ∧
        (u.adcC n).lastHold = some s.tick ∧ (u.adcC n).running = x.running ∧ (u.adcC n).next = x.next ∧
        (u.adcC n).inj.length = tl.length ∧ (u.adcC n).inj.tail = tl.tail ∧
        ∀ i, tl.head? = some i → (u.adcC n).inj.head? = some { i with tick := max i.tick s.tick })) ∧
    (x.conv = none → x.calEnd = none → x.inj = [] → x.calPending = false → x.ow = none → (x.armed = true ∨ x.running = true) → x.next < len →
      let e := s.rget (Reg.adcSeqAct n x.next)
      let free : Nat := match x.lastHold with
        | none => 0
        | some h => h + 40 + fld e 26 19
      let t := if x.next = 0 then max x.trigAt free else free
      (s.tick < t → Answers (.adcHold n) s (· = s)) ∧
      (t ≤ s.tick → 16 ≤ x.mesh.length → Answers (.adcHold n) s (flags 6)) ∧
      (t ≤ s.tick → x.mesh.length < 16 → Answers (.adcHold n) s fun u => others [] u ∧ u.adcC n = { x with
        conv := some { kind := .regular x.next, input := fld e 29 27, sig := bit e.toNat 31, dr := bit e.toNat 30, idx := fld e 17 0,
                       stamp := s.now, endAt := s.tick + 40 }
        lastHold := some s.tick, next := x.next + 1, armed := false, running := true })) ∧
    (∀ c : AdcConv, x.conv = some c →
      let code := s.adcCorrect n c.input v.toNat
      let recent := x.sent.filter fun t => decide (s.tick < t + 1250)
      let upd : SigUpd := { idx := c.idx, val := code, stamp := c.stamp % 2 ^ 32, kind := 3 }
      code < 2 ^ 16 ∧ (s.tick < c.endAt → Answers (.adcResult n v) s (· = s)) ∧
      (∀ e, c.endAt ≤ s.tick → c.kind = .regular e → e < 16 → c.input < 8 → x.next < len →
        (c.sig = true → c.dr = false → recent.length < 8 → Answers (.adcResult n v) s fun u => others [] u ∧
          u.adcC n = { x with conv := none, sent := recent ++ [s.tick] } ∧ u.sig = { s.sig with path := s.sig.path ++ [upd] }) ∧
        (c.sig = true → c.dr = false → 8 ≤ recent.length → Answers (.adcResult n v) s fun u => others [] u ∧
          u.adcC n = { x with conv := none, sent := recent, mesh := x.mesh ++ [upd] } ∧ u.sig = s.sig) ∧
        (c.sig = false → c.dr = true → Answers (.adcResult n v) s fun u => u.adcC n = { x with conv := none } ∧
          others [Reg.adcDrLo n, Reg.adcDrHi n, ev, cnt] u ∧ (u.rget (Reg.adcDrHi n)).toNat = c.stamp % 2 ^ 32 ∧
          u.rf (Reg.adcDrLo n) 15 0 = code ∧ u.rf (Reg.adcDrLo n) 25 22 = e ∧ u.rf (Reg.adcDrLo n) 28 26 = c.input ∧
          u.rb (Reg.adcDrLo n) 31 = true ∧ u.rb (Reg.adcDrLo n) 30 = s.rb (Reg.adcDrLo n) 31 ∧ u.rb (Reg.adcDrLo n) 29 = false ∧
          u.rb ev 1 = (s.rb ev 1 || s.rb (Reg.adcDrLo n) 31)))) ∧
    (x.conv = none → Answers (.adcResult n v) s (· = s)) ∧
    (let front : Prop := ((List.range 12).map fun i => (s.adc.turn + i) % 12).find? (fun i => !(s.adcC i).mesh.isEmpty) = some n
     (¬front → Answers (.adcMeshResult n) s (· = s)) ∧
     (∀ q tl, front → x.mesh = q :: tl → Answers (.adcMeshResult n) s fun u => u.adcC n = { x with mesh := tl } ∧
       (∀ j, j ≠ n → u.adcC j = s.adcC j) ∧ u.adc.turn = (n + 1) % 12 ∧ MemKept s u ∧
       let b := s.bankOf q.idx
       (s.bankLevel b < 64 → (∀ h ∈ s.sig.held, s.bankOf h.idx ≠ b) → u.sig.queue = s.sig.queue ++ [{ q with at_ := s.cyc }] ∧
         u.sig.held = s.sig.held) ∧
       (64 ≤ s.bankLevel b → u.sig = { s.sig with held := s.sig.held ++ [{ q with at_ := s.cyc }] }))) ∧
    (x.ow = none → Answers (.owSettleEnd n) s (· = s))

/-- The open-wire test step by step, and TRIGGER, INJECT, CALIB, OWDIAG and STATUS of the ADC unit. OW_SETTLE_END
makes a conversion due when the settling time of a measuring phase has passed; after recovery it enters the comparison
of the two readings and the done bit, and goes on to the next input of the mask or ends the operation OK with its
results, ow_done, and ow_open when any wire is open. An operation that needs the converter on is REFUSED when it is
off. TRIGGER of an empty sequence ends EMPTY, starts one, is latched, or is BUSY; INJECT is queued, or turned away
with the status of its first failing check; CALIB waits for the calibration that it has asked for or that runs; OWDIAG
of an empty mask ends EMPTY, is BUSY while one runs, REFUSED for an input under test, and otherwise starts on the
lowest input; STATUS answers 24 bytes. (R350, R356, R362, R363, R364, R365, R367, 09_analog.md) -/
def Obligations.OpenWireAndAdcOperations : Prop :=
  ∀ (s : State) (n : Nat), s.Inv → n < 12 →
    let x := s.adcC n
    let ev := Reg.adcEvstat n
    let en := s.adcEn n
    let alone (u : State) : Prop := (∀ j, j ≠ n → u.adcC j = s.adcC j) ∧ MemKept s u
    (∀ w, x.ow = some w →
      ((w.ready = true ∨ s.tick < w.waitTo) → Answers (.owSettleEnd n) s (· = s)) ∧
      (w.ready = false → w.waitTo ≤ s.tick → w.phase ≠ .recover → Answers (.owSettleEnd n) s fun u => alone u ∧
        u.adcC n = { x with ow := some { w with ready := true } } ∧ RegsKept s u [] ∧ u.sp = s.sp) ∧
      (w.ready = false → w.waitTo ≤ s.tick → w.phase = .recover → w.input < 8 →
        let c := tget (0, 0) w.input w.readings
        let done (u : State) : Prop := u.rb (Reg.adcOwres n) w.input = decide (c.2 + w.delta ≤ c.1) ∧
          u.rb (Reg.adcOwres n) (8 + w.input) = true ∧
          ∀ k, k ≠ w.input → k ≠ 8 + w.input → u.rb (Reg.adcOwres n) k = s.rb (Reg.adcOwres n) k
        (∀ i, nextInput w.mask (w.input + 1) = some i → Answers (.owSettleEnd n) s fun u => alone u ∧ done u ∧
          RegsKept s u [Reg.adcOwres n] ∧ u.sp = s.sp ∧
          u.adcC n = { x with ow := some { w with input := i, phase := .up, waitTo := s.tick + w.settle } }) ∧
        (∀ o, nextInput w.mask (w.input + 1) = none → s.op w.op = some o → o.id = w.op → o.out = none →
          Answers (.owSettleEnd n) s fun u => alone u ∧ done u ∧ RegsKept s u [Reg.adcOwres n, ev] ∧ u.adcC n = { x with ow := none } ∧
            u.rb ev 4 = true ∧ u.rb ev 5 = (s.rb ev 5 || u.rf (Reg.adcOwres n) 7 0 != 0) ∧ OpsKept s u w.op ∧
            ∃ d : List Byte, d.length = 40 ∧ OpEnded u w.op o.okSt d ∧ recNat d 32 1 = u.rf (Reg.adcOwres n) 7 0 ∧
              recNat d 33 1 = u.rf (Reg.adcOwres n) 15 8))) ∧
    (∀ o : Op, o.obj = n →
      let d := o.payload
      let turned (st : Status) (u : State) : Prop := OpEnded u o.id st [] ∧ OpsKept s u o.id ∧ MemKept s u ∧ u.adc = s.adc ∧
        RegsKept s u [ev] ∧ u.rb ev (if o.code = 3 then 7 else 0) = true
      let runs (u : State) : Prop := OnlyOp s u o.id ∧ alone u ∧ u.op o.id = some { o with acted := true, actedAt := s.now }
      (∀ (c : Instr) (code : Nat), ((c = .adcTrigger o.id ∧ code = 2) ∨ (c = .adcInject o.id ∧ code = 3) ∨
          (c = .adcCalib o.id ∧ code = 4) ∨ (c = .adcOwdiag o.id ∧ code = 5)) → OpMay s o 8 code → en = false →
        Answers c s (turned .refused)) ∧
      (OpMay s o 8 2 → en = true → let busy := x.armed || x.running || x.calPending || x.calEnd.isSome
        (s.adcLen n = 0 → Answers (.adcTrigger o.id) s fun u => OnlyOp s u o.id ∧ OpEnded u o.id .empty [] ∧ u.adc = s.adc) ∧
        (0 < s.adcLen n → busy = false → Answers (.adcTrigger o.id) s fun u => runs u ∧
          u.adcC n = { x with armed := true, next := 0, trigAt := s.tick, seqOp := some o.id }) ∧
        (0 < s.adcLen n → busy = true → x.latched = false → Answers (.adcTrigger o.id) s fun u => runs u ∧
          u.adcC n = { x with latched := true, latchOp := some o.id }) ∧
        (0 < s.adcLen n → busy = true → x.latched = true → Answers (.adcTrigger o.id) s fun u => OpEnded u o.id .busy [] ∧
          OpsKept s u o.id ∧ MemKept s u ∧ u.adc = s.adc ∧ RegsKept s u [ev, Reg.adcCnt n] ∧ u.rb ev 2 = true)) ∧
      (OpMay s o 8 3 → en = true →
        let input := recNat d 0 1
        let sig := bit (recNat d 2 1) 0
        let test := bit (s.underTest n) input
        (7 < input → Answers (.adcInject o.id) s (turned .cfgerr)) ∧
        (input ≤ 7 → sig = true → 0x3FFFF < recNat d 4 4 → Answers (.adcInject o.id) s (turned .nosuch)) ∧
        (input ≤ 7 → (sig = true → recNat d 4 4 ≤ 0x3FFFF) → test = true → Answers (.adcInject o.id) s (turned .refused)) ∧
        (input ≤ 7 → (sig = true → recNat d 4 4 ≤ 0x3FFFF) → test = false → 4 ≤ x.inj.length →
          Answers (.adcInject o.id) s (turned .overload)) ∧
        (input ≤ 7 → (sig = true → recNat d 4 4 ≤ 0x3FFFF) → test = false → x.inj.length < 4 →
          Answers (.adcInject o.id) s fun u => runs u ∧ u.adcC n = { x with
            inj := x.inj ++ [{ input := input, ext := recNat d 1 1, sig := sig, dr := bit (recNat d 2 1) 1, idx := recNat d 4 4,
                               tick := s.tick, op := some o.id }] })) ∧
      (OpMay s o 8 4 → en = true → Answers (.adcCalib o.id) s fun u => runs u ∧
        (u.adcC n).calOps = x.calOps ++ [o.id] ∧ ((x.calPending || x.calEnd.isSome) = true → u.adcC n = { x with calOps := x.calOps ++ [o.id] }) ∧
        ((x.calPending || x.calEnd.isSome) = false → (u.adcC n).calPending = true ∧ ∀ i ∈ (u.adcC n).inj, i.early = true)) ∧
      (OpMay s o 8 5 → en = true → let m := recNat d 0 1
        (m = 0 → Answers (.adcOwdiag o.id) s fun u => OnlyOp s u o.id ∧ OpEnded u o.id .empty [] ∧ u.adc = s.adc) ∧
        (m ≠ 0 → x.ow ≠ none → Answers (.adcOwdiag o.id) s (turned .busy)) ∧
        (m ≠ 0 → x.ow = none → s.underTest n &&& m ≠ 0 → Answers (.adcOwdiag o.id) s (turned .refused)) ∧
        (∀ i, x.ow = none → s.underTest n &&& m = 0 → bit m i = true → i < 8 → (∀ j, j < i → bit m j = false) →
          Answers (.adcOwdiag o.id) s fun u => u.op o.id = some { o with acted := true, actedAt := s.now } ∧ OpsKept s u o.id ∧ alone u ∧
            RegsKept s u [Reg.adcOwres n] ∧ u.rget (Reg.adcOwres n) = 0 ∧ u.adcC n = { x with ow := some {
              op := o.id, mask := m, big := bit (recNat d 1 1) 0, settle := recNat d 2 2 * 2000, delta := recNat d 4 2, input := i, phase := .up,
              waitTo := s.tick + recNat d 2 2 * 2000 } })) ∧
      (OpMay s o 8 6 → Answers (.adcStatus o.id) s fun u => OnlyOp s u o.id ∧ u.adc = s.adc ∧ ∃ r : List Byte, r.length = 24 ∧
        OpEnded u o.id o.okSt r ∧ recNat r 4 4 = (s.rget (Reg.adcCnt n)).toNat ∧ recNat r 8 4 = (s.rget (Reg.adcDrLo n)).toNat ∧
        recNat r 12 4 = (s.rget (Reg.adcDrHi n)).toNat ∧ recNat r 16 4 = (s.rget (Reg.adcOwres n)).toNat ∧
        recNat r 20 4 = (s.rget (Reg.adcCal n)).toNat))

/-- A Herd frame is read back from its bytes, and passes its checks. For a frame whose fields lie in their widths and
whose payload is shorter than 2^16 bytes: the bytes on the medium are 20 more than the payload, they give the frame
back with all its header fields and its payload, and header check, length and frame check hold. The class stands in
bits [7:4] of byte 4, and the CRC-16 in bytes 14 and 15 covers bytes 0 to 13. (R375, R376, R378, 10_herd.md) -/
def Obligations.HerdFramesOnTheWire : Prop :=
  ∀ f : HerdFrame, f.dst < 2 ^ 16 → f.src < 2 ^ 16 → f.cls < 16 → f.prio < 4 → f.hops < 256 → f.seq < 2 ^ 16 → f.ts < 2 ^ 32 →
    f.payload.length < 2 ^ 16 →
    f.wire.length = 20 + f.payload.length ∧ frameOf f.wire = { f with transit := false, bad := false } ∧
    headOk f.wire = true ∧ lenOf f.wire = f.payload.length ∧ bodyOk f.wire = true ∧
    bits (ofBytesBE ((f.wire.drop 4).take 1)) 7 4 = f.cls ∧ ofBytesBE ((f.wire.drop 14).take 2) = crc16 (f.wire.take 14)

/-- Links come up and go down; HELLOs, reception and transmission of frames. BLOCK_LOCK moves a DOWN port to LOCK.
LINK_DOWN of a port off any ring makes it DOWN without role, neighbour and frame on the medium; HELLO_TIMEOUT does the
same after 3 ms without HELLO. HELLO_SEND queues a HELLO every 1 ms, which a receiver reads as the node's own port,
UID, Stag and Herd. A received HELLO is noted, its echo moves LOCK to CAL. LINK_UP after 16 exchanges makes the port
UP, BLOCKED towards another Herd. A received frame with a bad header, of bad length or class, or without hops left is
dropped and counted; one for another node leaves on the port of its route with one hop less. A free port sends SYNC
first, then what its queues hold. Else nothing changes. (R372, R373, R374, R378, R381, R386, R391, R392, R393, R395,
R408, 10_herd.md) -/
def Obligations.HerdLinks : Prop :=
  ∀ (s : State) (p : Nat), s.Inv → p < 4 →
    let x := s.hport p
    let st := Reg.herdHpStat p
    let ev := Reg.herdEvstat
    let others (l : List Nat) (u : State) : Prop := (∀ q, q ≠ p → u.hport q = s.hport q) ∧ RegsKept s u l ∧ MemKept s u ∧ u.sp = s.sp
    (s.hlink p ≠ 1 → ∀ a b, Answers (.blockLock p a b) s (· = s)) ∧
    (s.hlink p = 1 → ∀ a b, Answers (.blockLock p a b) s fun u => others [st, ev] u ∧ u.hlink p = 2 ∧ u.rb ev p = true ∧
      u.hport p = { x with
        hearAt := s.cyc, helloAt := none, calCount := 0, nbr := none, t1 := none, alignTx := a, alignRx := b }) ∧
    (∀ lost ring, s.hlink p < 2 → Answers (.linkDown p lost ring) s (· = s)) ∧
    (∀ lost : Bool, 2 ≤ s.hlink p → s.bhr.rx = none → Answers (.linkDown p lost 0) s fun u =>
      others [st, ev, Reg.herdParent, Reg.herdHpErrcnt p] u ∧ u.hlink p = 1 ∧ u.hrole p = 0 ∧ u.rb ev p = true ∧
      u.rf (Reg.herdHpErrcnt p) 7 0 = min (s.rf (Reg.herdHpErrcnt p) 7 0 + (if lost then 1 else 0)) 255 ∧
      u.hport p = { x with sending := none, nbr := none, t1 := none, calCount := 0, syncQ := [] }) ∧
    (∀ (q ring : Nat), s.hlink p = 4 → (s.hrole p = 1 ∨ s.hrole p = 2) → bit ring p = true → q < 4 → q ≠ p → bit ring q = true →
      (∀ j, j < q → j ≠ p → bit ring j = false) → Answers (.linkDown p false ring) s fun u => u.hlink p = 1 ∧
        u.herd.wrap = some (p, q) ∧ u.rb Reg.herdStat 29 = true ∧ u.rb ev 9 = true) ∧
    (∀ ring, let out : Prop := 2 ≤ s.hlink p ∧ x.hearAt + usCyc 3000 ≤ s.cyc
      (out → Answers (.helloTimeout p ring) s fun u => exec (.linkDown p false ring) s = .next u ∧ u.hlink p = 1) ∧
      (¬out → Answers (.helloTimeout p ring) s (· = s))) ∧
    (let due : Prop := 2 ≤ s.hlink p ∧ ∀ c, x.helloAt = some c → c + usCyc 1000 ≤ s.cyc
     (¬due → Answers (.helloSend p) s (· = s)) ∧
     (due → Answers (.helloSend p) s fun u => others [] u ∧ (u.hport p).helloAt = some s.cyc ∧
       ∃ f : HerdFrame, u.hport p = { x with q3 := x.q3 ++ [f], helloAt := some s.cyc } ∧ f.cls = 5 ∧ f.dst = 0 ∧
         f.src = s.nodeId ∧ f.payload = s.helloPayload p ∧ f.payload.length = 56)) ∧
    (let h := nbrOf (s.helloPayload p)
     h.port = p ∧ h.uid = s.uid ∧ h.stagUid = s.stagUid ∧ h.herdId = s.herdId ∧ h.running = s.rb Reg.herdStat 28 ∧
       h.state = s.node.code ∧ h.id = s.nodeId ∧ h.hops = s.herd.hops % 2 ^ 16) ∧
    (∀ d echo, (s.hlink p < 2 → Answers (.hello p d echo) s (· = s)) ∧
      (s.hlink p = 2 → s.hrole p ≠ 1 → Answers (.hello p d echo) s fun u => others [st, ev] u ∧
        u.hport p = { x with nbr := some (nbrOf d), hearAt := s.cyc } ∧ u.rf st 15 0 = (nbrOf d).id ∧
        u.hlink p = (if echo && !s.rb Reg.bhrStat 27 then 3 else 2))) ∧
    (∀ d echo, let n := nbrOf d
      s.hlink p = 4 → (s.hrole p = 1 ∨ s.hrole p = 2) → s.rb Reg.herdStat 28 = true → n.running = true → n.herdId = s.herdId →
      n.stagUid ≠ s.stagUid → s.herd.elect = none → better n.prio n.stagUid (s.rf Reg.herdStag 23 16) s.stagUid = true →
      Answers (.hello p d echo) s fun u => u.stagUid = n.stagUid ∧ u.hrole p = 1 ∧ u.rb ev 8 = true ∧
        u.rb Reg.herdStat 30 = decide (n.stagUid = s.uid) ∧ (s.tb0State = 2 → n.stagUid ≠ s.uid → u.tb0State = 3)) ∧
    (∀ first, ((s.hlink p ≠ 3 ∨ x.calCount < 16) → Answers (.linkUp p first) s (· = s)) ∧
      (s.hlink p = 3 → 16 ≤ x.calCount → (∀ n, x.nbr = some n → s.rb Reg.herdStat 28 = false ∨ n.running = false) →
        Answers (.linkUp p first) s fun u => others [st, ev] u ∧ u.hport p = x ∧ u.hlink p = 4 ∧ u.rb ev p = true ∧ u.hrole p = s.hrole p) ∧
      (∀ n, s.hlink p = 3 → 16 ≤ x.calCount → x.nbr = some n → s.rb Reg.herdStat 28 = true → n.running = true →
        (n.herdId ≠ s.herdId → Answers (.linkUp p first) s fun u => others [st, ev, Reg.herdParent] u ∧ u.hlink p = 4 ∧
          u.hrole p = 4 ∧ u.rb ev 12 = true) ∧
        (n.herdId = s.herdId → n.stagUid = s.stagUid → s.rb Reg.herdStat 30 = true → x.given = none →
          Answers (.linkUp p first) s fun u => others [st, ev, Reg.herdParent] u ∧ u.hlink p = 4 ∧
            u.hrole p = (if first then 3 else 4) ∧ u.rb ev 22 = (s.rb ev 22 || !first)))) ∧
    (∀ (d : List Byte) (errEnd echo : Bool) (t : Nat) (ring : Option Nat),
      let f := frameOf d
      let row : Instr := .herdFrameReceive p d errEnd echo t ring
      let dropped (c : Nat) (u : State) : Prop := u.herd = s.herd ∧ RegsKept s u [c, ev] ∧ MemKept s u ∧ u.sp = s.sp ∧
        u.rb ev 20 = true ∧ u.rf c 31 0 = min (s.rf c 31 0 + 1) (2 ^ 32 - 1)
      (s.hlink p < 2 → Answers row s (· = s)) ∧
      (2 ≤ s.hlink p → headOk d = false → Answers row s fun u => u.herd = s.herd ∧ RegsKept s u [Reg.herdHpErrcnt p, ev] ∧
        MemKept s u ∧ u.rb ev (4 + p) = true ∧
        u.rf (Reg.herdHpErrcnt p) 15 8 = min (s.rf (Reg.herdHpErrcnt p) 15 8 + 1) 255) ∧
      (2 ≤ s.hlink p → headOk d = true → (2048 < lenOf d ∨ 8 ≤ f.cls ∨ (f.cls = 3 ∧ lenOf d ≠ 56)) →
        Answers row s (dropped Reg.herdDropClass)) ∧
      (2 ≤ s.hlink p → headOk d = true → bodyOk d = true → lenOf d ≤ 2048 → f.cls ∈ [2, 4, 6, 7] → errEnd = false →
        s.mayGo p f = true → s.hasId = true → f.dst ≠ s.nodeId → f.dst ≠ 0xFFFF →
        (f.hops = 0 → Answers row s (dropped Reg.herdDropHop)) ∧
        (0 < f.hops → f.wrap = false → s.routePort f.dst = none → Answers row s (dropped Reg.herdDropUnr)) ∧
        (∀ q, 0 < f.hops → f.wrap = false → s.herd.wrap = none → s.routePort f.dst = some q → (f.cls = 2 ∨ f.cls = 7) → Answers row s fun u =>
          (u.hport q).q3 = (s.hport q).q3 ++ [{ f with hops := f.hops - 1, transit := true }] ∧
          (∀ j, j ≠ q → u.hport j = s.hport j) ∧ RegsKept s u [] ∧ MemKept s u ∧ u.sp = s.sp))) ∧
    (∀ t, (s.portFree p = false → Answers (.portTxStart p t) s (· = s)) ∧
      (x.syncQ = [] → x.isoQ = [] → x.q3 = [] → x.q2 = [] → x.q1 = [] → x.q0 = [] → Answers (.portTxStart p t) s (· = s)) ∧
      (∀ f tl, s.portFree p = true → x.syncQ = f :: tl → s.mayGo p f = true → f.cls = 0 → f.transit = false →
        Answers (.portTxStart p t) s fun u => (u.hport p).syncQ = tl ∧ (u.hport p).q3 = x.q3 ∧ (u.hport p).isoQ = x.isoQ ∧
          (∀ q, q ≠ p → u.hport q = s.hport q) ∧ RegsKept s u [] ∧ MemKept s u ∧
          (f.payload.head? = some 0 → (u.hport p).t1 = some (uNat 80 (t + s.laneSub p true)) ∧
            (u.hport p).sending = some ({ f with ts := s.now32 }, s.cyc + divUp ((f.payload.length + 40) * 16) 25))) ∧
      (∀ f tl, s.portFree p = true → x.syncQ = [] → x.isoQ = [] → x.q3 = f :: tl → s.mayGo p f = true → f.cls ≠ 0 → f.cls ≠ 6 →
        (s.cycOn = true → s.slots p = []) → Answers (.portTxStart p t) s fun u => RegsKept s u [] ∧ MemKept s u ∧
          (∀ q, q ≠ p → u.hport q = s.hport q) ∧ u.hport p = { x with
            q3 := tl
            sending := some ({ f with ts := if f.transit then f.ts else s.now32 },
              s.cyc + divUp ((f.payload.length + 40) * 16) 25) })) ∧
    (∀ i t, ((∀ e ∈ x.isoQ, e.1 ≠ i) → Answers (.isoSlot p i t) s (· = s)) ∧
      (∀ f, x.isoQ = [(i, f)] → let off := (((s.slots p)[i]?).map (·.2)).getD 0
        let go : Prop := s.portFree p = true ∧ s.mayGo p f = true ∧ off * 50 ≤ s.cycPos
        (¬go → Answers (.isoSlot p i t) s (· = s)) ∧
        (go → f.cls = 1 → Answers (.isoSlot p i t) s fun u => u.hport p = { x with
          isoQ := []
          sending := some ({ f with ts := if f.transit then f.ts else s.now32 },
            s.cyc + divUp ((f.payload.length + 40) * 16) 25) } ∧ RegsKept s u [] ∧ MemKept s u)))

/-- Elections, numbering, grafts, repair of a ring, and succession. ELECTION_START before its time changes nothing;
with no running neighbour the node then stands as its own candidate and claims on its ports. A better CLAIM is adopted
with one hop more and passed on, a worse one changes nothing; a node that waits for its ID takes one as the election
repeated after an ID failure (log 59). ELECTION_END before 1 ms without change does nothing; else a candidate with the
node's own UID becomes Stag, names the Herd, and TB0 is LOCKED, and another is followed. A SIZE makes its port a
child's; a node with an ID grafts it from its spares or sets id_fail. ASSIGN from the parent gives the node without ID
its own ID and range. ID_FAIL_RETRY stands again after 100 ms. CUT ends wrapping and rebuilds roles and intervals of
the node's ring ports. PATH_LOSS starts a succession once its time has passed. (R387, R388, R389, R390, R392, R396,
R397, R403, 10_herd.md) -/
def Obligations.HerdElections : Prop :=
  ∀ (s : State) (p : Nat) (d : List Byte), s.Inv → p < 4 →
    let be (o n : Nat) : Nat := ofBytesBE ((d.drop o).take n)
    let ev := Reg.herdEvstat
    ((s.node ≠ .start ∨ s.herd.joined = true ∨ s.herd.elect ≠ none ∨ s.cyc < s.bhr.startAt + usCyc 3000) →
      Answers .electionStart s (· = s)) ∧
    (s.node = .start → s.herd.joined = false → s.herd.elect = none → s.bhr.startAt + usCyc 3000 ≤ s.cyc → s.rb Reg.herdStat 28 = false →
      (∀ q n, q < 4 → (s.hport q).nbr = some n → n.running = false) → Answers .electionStart s fun u =>
        u.herd.elect = some { prio := s.herd.prio, uid := s.uid, hops := 0, since := s.cyc, succession := false } ∧
        RegsKept s u [] ∧ MemKept s u ∧ u.sp = s.sp ∧ ∀ q, q < 4 → (u.hport q).candHops = none ∧
          (s.hlink q < 3 → (u.hport q).q3 = (s.hport q).q3) ∧ (3 ≤ s.hlink q → (u.hport q).q3.length = (s.hport q).q3.length + 1)) ∧
    (s.herd.elect = none → (s.rb Reg.herdStat 28 = false ∨ s.hasId = true ∨ s.herd.sizeSent = false) → Answers (.claim p d) s (· = s)) ∧
    (s.herd.elect = none → s.rb Reg.herdStat 28 = true → s.hasId = false → s.herd.sizeSent = true →
      better (be 1 1) (be 8 16) s.herd.prio s.uid = true → Answers (.claim p d) s fun u => u.rb ev 13 = true ∧ RegsKept s u [ev] ∧
        MemKept s u ∧ u.herd.elect = some { prio := be 1 1, uid := be 8 16, hops := be 2 2 + 1, since := s.cyc, succession := false }) ∧
    (∀ e, s.herd.elect = some e →
      (better (be 1 1) (be 8 16) e.prio e.uid = true → Answers (.claim p d) s fun u =>
        u.herd.elect = some { e with prio := be 1 1, uid := be 8 16, hops := be 2 2 + 1, since := s.cyc } ∧
        (∀ q, q < 4 → (u.hport q).candHops = if q = p then some (be 2 2) else none) ∧ RegsKept s u [] ∧ MemKept s u) ∧
      (better (be 1 1) (be 8 16) e.prio e.uid = false → ¬(be 1 1 = e.prio ∧ be 8 16 = e.uid) → Answers (.claim p d) s (· = s)) ∧
      (∀ resting blocked, s.cyc < e.since + usCyc 1000 → Answers (.electionEnd resting blocked) s (· = s)) ∧
      (e.since + usCyc 1000 ≤ s.cyc → e.uid = s.uid → Answers (.electionEnd 0 0) s fun u =>
        u.herd.elect = none ∧ u.rb Reg.herdStat 30 = true ∧ u.rb Reg.herdStat 28 = true ∧ u.stagUid = s.uid ∧ u.tb0State = 2 ∧
        u.herdId = (if e.succession then s.herdId else s.uid) ∧ u.herd.hops = 0 ∧ (e.succession = true → u.rb ev 15 = true)) ∧
      (e.since + usCyc 1000 ≤ s.cyc → e.uid ≠ s.uid → e.uid < 2 ^ 128 → Answers (.electionEnd 0 0) s fun u =>
        u.herd.elect = none ∧ u.rb Reg.herdStat 30 = false ∧ u.rb Reg.herdStat 28 = true ∧ u.stagUid = e.uid ∧ u.herd.hops = e.hops ∧
        u.herdId = (if e.succession then s.herdId else e.uid))) ∧
    (∀ resting blocked, s.herd.elect = none → Answers (.electionEnd resting blocked) s (· = s)) ∧
    (let n := be 4 4
     (s.hasId = true → (s.hport p).given = none → (∀ a b, s.herd.spares = some (a, b) → b + 1 < a + n ∨ n = 0) →
       Answers (.size p d) s fun u => u.hrole p = 2 ∧ (u.hport p).childSize = some n ∧ u.rb ev 13 = true ∧
         u.herd.spares = s.herd.spares) ∧
     (∀ a b, s.hasId = true → (s.hport p).given = none → s.herd.spares = some (a, b) → a + n ≤ b + 1 → 0 < n → b < 2 ^ 16 →
       s.ivlsUsed p < 64 → Answers (.size p d) s fun u => u.hrole p = 2 ∧ u.rb ev 11 = true ∧
         u.rget (Reg.herdHpIvl p (s.ivlsUsed p)) = BitVec.ofNat 32 ((a + n - 1) * 2 ^ 16 + a) ∧
         u.herd.spares = (if a + n = b + 1 then none else some (a + n, b)) ∧ (u.hport p).q3.length = (s.hport p).q3.length + 1)) ∧
    ((s.hrole p ≠ 1 ∨ s.hasId = true) → Answers (.assign p d) s (· = s)) ∧
    (s.hrole p = 1 → s.hasId = false → Answers (.assign p d) s fun u => u.hasId = true ∧ u.nodeId = be 4 2 ∧
      u.herd.range = some (be 4 2, be 6 2) ∧ MemKept s u ∧ u.sp = s.sp) ∧
    ((∀ c, s.herd.idFailAt = some c → s.cyc < c + usCyc 100000) → Answers .idFailRetry s (· = s)) ∧
    (∀ c, s.herd.idFailAt = some c → c + usCyc 100000 ≤ s.cyc → Answers .idFailRetry s fun u =>
      u.herd.elect = some { prio := s.herd.prio, uid := s.uid, hops := 0, since := s.cyc, succession := false } ∧
      u.herd.idFailAt = none ∧ RegsKept s u [] ∧ MemKept s u) ∧
    (∀ (ring : Nat) (parent : Option Nat) (ivls : List (Nat × List (Nat × Nat))),
      (ring % 16 = 0 → Answers (.cut ring parent ivls) s (· = s)) ∧
      (ring % 16 ≠ 0 → Answers (.cut ring parent ivls) s fun u => u.herd.wrap = none ∧ u.rb Reg.herdStat 29 = false ∧
        u.rb ev 9 = true ∧ u.rb ev 10 = true ∧ u.nodeId = s.nodeId ∧ u.hasId = s.hasId ∧ MemKept s u ∧ u.sp = s.sp ∧
        (∀ q, q < 4 → bit ring q = false → u.hrole q = s.hrole q) ∧
        (∀ q, q < 4 → bit ring q = true → u.hrole q = if s.hlink q ≠ 4 then 0 else if parent = some q then 1 else 2) ∧
        (∀ q l, ivls = [(q, l)] → q < 4 → ∀ i, i < 64 →
          u.rget (Reg.herdHpIvl q i) = match l[i]? with
            | some e => BitVec.ofNat 32 (e.2 % 2 ^ 16 * 2 ^ 16 + e.1 % 2 ^ 16)
            | none => 0))) ∧
    (let lim := max (16 * usCyc (s.rf Reg.herdSync 13 0)) (usCyc 10000)
     let out : Prop := s.rb Reg.herdStat 28 = true ∧ s.rb Reg.herdStat 30 = false ∧ s.herd.elect = none ∧ s.herd.pathAt + lim ≤ s.cyc
     (¬out → Answers .pathLoss s (· = s)) ∧
     (out → Answers .pathLoss s fun u => u.rb ev 14 = true ∧ RegsKept s u [ev] ∧ MemKept s u ∧
       u.herd.elect = some { prio := s.herd.prio, uid := s.uid, hops := 0, since := s.cyc, succession := true }))

/-- Time transfer, transactions of requester and target, and the operations of the HERD unit. A REQ is answered on its
port with its exchange number and the stamp less the lane delay. A RESP of the exchange in progress on a port in CAL
counts towards UP, with delay half the sum of both directions; another RESP changes nothing. TXN is turned away by the
first failing check of R417, or opens a transaction, which is sent. A response ends the transaction it fits with the
target's status; one that fits none changes nothing. A request out of time is sent again while tries are left, else it
ends TIMEOUT. The target answers BUSY with a full store, DENIED outside its windows, and carries out the rest. A
stored response expires after its time. LINKSTAT and STATUS answer 32 bytes. (R60, R373, R398, R400, R401, R410, R412,
R413, R417, 10_herd.md) -/
def Obligations.HerdTimeAndTransactions : Prop :=
  ∀ (s : State) (p : Nat) (d : List Byte) (t : Nat), s.Inv → p < 4 →
    let be (o n : Nat) : Nat := ofBytesBE ((d.drop o).take n)
    let x := s.hport p
    let ev := Reg.herdEvstat
    let others (l : List Nat) (u : State) : Prop := (∀ q, q ≠ p → u.hport q = s.hport q) ∧ RegsKept s u l ∧ MemKept s u ∧ u.sp = s.sp
    ((s.hlink p < 3 ∨ s.hrole p = 4) → Answers (.syncReq p d t) s (· = s)) ∧
    (3 ≤ s.hlink p → s.hrole p ≠ 4 → Answers (.syncReq p d t) s fun u => others [Reg.herdHpLane p] u ∧
      ∃ f : HerdFrame, u.hport p = { x with syncQ := x.syncQ ++ [f] } ∧ f.cls = 0 ∧ f.payload.length = 32 ∧
        ofBytesBE (f.payload.take 1) = 1 ∧ ofBytesBE ((f.payload.drop 2).take 2) = be 2 2 ∧
        ofBytesBE ((f.payload.drop 8).take 8) * 2 ^ 16 + ofBytesBE ((f.payload.drop 16).take 2) = uNat 80 (t - s.laneSub p false)) ∧
    ((s.hlink p = 3 → ∃ c, x.reqAt = some c ∧ s.cyc < c + usCyc 10) → (s.hlink p ≠ 3 → s.rb Reg.herdStat 28 = false ∨
      s.rb Reg.herdStat 30 = true ∨ s.cyc < s.herd.syncAt + usCyc (s.rf Reg.herdSync 13 0)) → Answers (.syncReqSend p) s (· = s)) ∧
    (s.hlink p = 3 → (∀ c, x.reqAt = some c → c + usCyc 10 ≤ s.cyc) → Answers (.syncReqSend p) s fun u => others [] u ∧
      u.time = s.time ∧ (u.hport p).reqAt = some s.cyc ∧ (u.hport p).exch = (x.exch + 1) % 2 ^ 16 ∧
      (u.hport p).syncQ.length = x.syncQ.length + 1) ∧
    (s.hlink p ≠ 3 → s.rb Reg.herdStat 28 = true → s.rb Reg.herdStat 30 = false →
      s.herd.syncAt + usCyc (s.rf Reg.herdSync 13 0) ≤ s.cyc → Answers (.syncReqSend p) s fun u => others [] u ∧
        u.time = { s.time with missed := if s.time.heard then 0 else s.time.missed + 1, heard := false } ∧ u.herd.syncAt = s.cyc ∧
        (u.hport p).syncQ.length = x.syncQ.length + (if s.hlink p = 4 ∧ s.hrole p = 1 then 1 else 0)) ∧
    ((x.t1 = none ∨ be 2 2 ≠ x.exch ∨ s.hlink p < 3) → Answers (.syncResult p d t) s (· = s)) ∧
    (∀ t1, x.t1 = some t1 → be 2 2 = x.exch → s.hlink p = 3 → Answers (.syncResult p d t) s fun u =>
      others [Reg.herdHpLane p, Reg.herdHpDelay p, Reg.herdHpOffset p] u ∧ u.hport p = { x with t1 := none, calCount := x.calCount + 1 } ∧
      u.time = s.time ∧ (u.rget (Reg.herdHpDelay p)).toNat = uNat 32
        ((((be 8 8 * 2 ^ 16 + be 16 2 : Nat) - (t1 : Int)) + (((t : Int) - s.laneSub p false) - (be 20 8 * 2 ^ 16 + be 18 2 : Nat))) / 2)) ∧
    (∀ (src tag : Nat), Answers (.replayExpiry src tag) s fun u => u = { s with herd := { s.herd with
      replay := s.herd.replay.filter fun r => !(r.src == src && r.tag == tag &&
        decide (r.stored + 8 * usCyc (s.rf Reg.herdTxnCfg 15 0) ≤ s.cyc)) } }) ∧
    (∀ src, ((∀ e ∈ s.herd.txns, ¬(e.cls = 4 ∧ e.dest = src ∧ e.tag = be 4 4)) → Answers (.txnResponse src d) s (· = s)) ∧
      (∀ (e : TxnEntry) (o : Op), s.herd.txns = [e] → e.cls = 4 → e.dest = src → e.tag = be 4 4 → e.op = some o.id → s.op o.id = some o →
        o.out = none → be 1 1 = Status.denied.code → Answers (.txnResponse src d) s fun u => u.herd.txns = [] ∧
          OpEnded u o.id .denied [] ∧ OpsKept s u o.id ∧ RegsKept s u [Reg.herdTxnStat] ∧ MemKept s u) ∧
      (∀ (e : TxnEntry) (o : Op), s.herd.txns = [e] → e.cls = 4 → e.dest = src → e.tag = be 4 4 → e.op = some o.id → s.op o.id = some o →
        o.out = none → be 1 1 = 0 → be 0 1 % 16 = 1 → Answers (.txnResponse src d) s fun u => u.herd.txns = [] ∧
          OpEnded u o.id o.okSt (d.drop 16) ∧ OpsKept s u o.id ∧ RegsKept s u [Reg.herdTxnStat] ∧ MemKept s u)) ∧
    (∀ tag dest, ((∀ e ∈ s.herd.txns, ¬(e.tag = tag ∧ e.dest = dest)) → Answers (.txnRetryTimeout tag dest) s (· = s)) ∧
      (∀ (e : TxnEntry), s.herd.txns = [e] → e.tag = tag → e.dest = dest →
        let due : Nat := e.sentAt + usCyc (s.rf Reg.herdTxnCfg 15 0)
        ((e.sent = false ∨ s.cyc < due) → Answers (.txnRetryTimeout tag dest) s (· = s)) ∧
        (e.sent = true → due ≤ s.cyc → e.tries ≤ s.rf Reg.herdTxnCfg 26 24 → (dest ≠ s.nodeId ∨ e.cls ≠ 4) → e.cls ≠ 1 →
          Answers (.txnRetryTimeout tag dest) s fun u => u.herd.txns = [{ e with tries := e.tries + 1, sent := false, sentAt := s.cyc }] ∧
            MemKept s u ∧ u.sp = s.sp) ∧
        (∀ o : Op, e.sent = true → due ≤ s.cyc → s.rf Reg.herdTxnCfg 26 24 < e.tries → e.cls = 4 → e.op = some o.id →
          s.op o.id = some o → o.out = none → Answers (.txnRetryTimeout tag dest) s fun u => u.herd.txns = [] ∧
            OpEnded u o.id .timeout [] ∧ OpsKept s u o.id ∧ u.rb ev 18 = true ∧ RegsKept s u [Reg.herdTxnStat, ev] ∧ MemKept s u))) ∧
    (s.herd.tgtQ = [] → Answers .txnRequest s (· = s)) ∧
    (∀ q tl, s.herd.tgtQ = q :: tl → s.banksOpen q.signals = false → Answers .txnRequest s (· = s)) ∧
    (∀ q tl, s.herd.tgtQ = q :: tl → s.banksOpen q.signals = true → q.src ≠ s.nodeId → s.txnStored q.src (txnTag q.payload) = none →
      let r := q.payload
      let kind := ofBytesBE (r.take 1) % 16
      let n := ofBytesBE ((r.drop 2).take 2)
      let a := ofBytesBE ((r.drop 8).take 8)
      let answered (st : Status) (x : List Byte) (u : State) : Prop := u.herd.tgtQ = tl ∧
        u.herd.replay = s.herd.replay ++ [⟨q.src, txnTag r, txnAnswer r st x, s.cyc⟩]
      (1024 ≤ s.herd.replay.length → Answers .txnRequest s fun u => u.herd.tgtQ = tl ∧ u.herd.replay = s.herd.replay ∧
        MemKept s u ∧ u.sp = s.sp ∧ u.rb ev 19 = true) ∧
      (s.herd.replay.length < 1024 → 1 ≤ kind → kind ≤ 2 → n ≤ 2032 → s.herdWindow a n (kind == 2) = false →
        Answers .txnRequest s fun u => answered .denied [] u ∧ MemKept s u ∧ u.sp = s.sp ∧ u.rb ev 19 = true) ∧
      (s.herd.replay.length < 1024 → kind = 4 → n ≤ 64 → s.rb Reg.herdTxnCfg 29 = false → Answers .txnRequest s fun u =>
        answered .denied [] u ∧ MemKept s u ∧ u.sp = s.sp ∧ u.sig = s.sig) ∧
      (s.herd.replay.length < 1024 → kind = 3 → n = 0 → s.rb Reg.herdTxnCfg 28 = true → ofBytesBE ((r.drop 1).take 1) = 0 →
        Answers .txnRequest s fun u => answered .ok [] u ∧ MemKept s u ∧ u.sp = s.sp)) ∧
    (∀ o : Op,
      let kind := recNat o.payload 0 1 % 16
      let len := recNat o.payload 2 2
      let form : Prop := bit (recNat o.payload 0 1) 7 = false ∧ 1 ≤ kind ∧ kind ≤ 4 ∧ (kind ≤ 2 → len ≤ 2032) ∧ (3 ≤ kind → len ≤ 64)
      let away (st : Status) (u : State) : Prop := OnlyOp s u o.id ∧ OpEnded u o.id st [] ∧ u.herd = s.herd
      (OpMay s o 5 2 →
        ((o.obj = 0 ∨ 0xFFFF ≤ o.obj) → Answers (.herdTxn o.id) s (away .nosuch)) ∧
        (0 < o.obj → o.obj < 0xFFFF → ¬form → Answers (.herdTxn o.id) s (away .cfgerr)) ∧
        (0 < o.obj → o.obj < 0xFFFF → form → len = 0 → Answers (.herdTxn o.id) s (away .empty)) ∧
        (0 < o.obj → o.obj < 0xFFFF → form → len ≠ 0 → s.hasId = false → Answers (.herdTxn o.id) s (away .refused)) ∧
        (0 < o.obj → o.obj < 0xFFFF → form → len ≠ 0 → s.hasId = true → o.obj ≠ s.nodeId → s.routePort o.obj = none →
          Answers (.herdTxn o.id) s fun u => OpEnded u o.id .refused [] ∧ OpsKept s u o.id ∧ u.herd = s.herd ∧ u.rb ev 20 = true ∧
            RegsKept s u [ev, Reg.herdDropUnr] ∧ MemKept s u) ∧
        (∀ q, 0 < o.obj → o.obj < 0xFFFF → form → len ≠ 0 → s.hasId = true → o.obj ≠ s.nodeId → s.routePort o.obj = some q →
          (1024 ≤ s.herd.txns.length → Answers (.herdTxn o.id) s (away .overload)) ∧
          (s.herd.txns.length < 1024 → Answers (.herdTxn o.id) s fun u => u.op o.id = some { o with acted := true, actedAt := s.now } ∧
            OpsKept s u o.id ∧ MemKept s u ∧ ∃ e : TxnEntry, u.herd.txns = s.herd.txns ++ [e] ∧ e.dest = o.obj ∧
              e.tag = recNat o.payload 4 4 ∧ e.op = some o.id ∧ e.tries = 1 ∧ ofBytesBE (e.payload.take 1) = kind))) ∧
      (OpMay s o 5 3 → o.obj < 4 → Answers (.herdLinkstat o.id) s fun u => OnlyOp s u o.id ∧ u.herd = s.herd ∧ ∃ r : List Byte,
        r.length = 32 ∧ OpEnded u o.id o.okSt r ∧ recNat r 0 4 = (s.rget (Reg.herdHpStat o.obj)).toNat ∧
        recNat r 4 4 = (s.rget (Reg.herdHpDelay o.obj)).toNat ∧ recNat r 8 4 = (s.rget (Reg.herdHpOffset o.obj)).toNat) ∧
      (OpMay s o 5 4 → Answers (.herdStatus o.id) s fun u => OnlyOp s u o.id ∧ u.herd = s.herd ∧ ∃ r : List Byte,
        r.length = 32 ∧ OpEnded u o.id o.okSt r ∧ recNat r 0 4 = (s.rget Reg.herdStat).toNat ∧
        recNat r 16 4 = (s.rget (Reg.herdStagUid 0)).toNat))

/-- Rings, frames, gates and servo of a MAC; takes, sends, datagrams and operations of partner sessions. With the
transmitter off for what would start a frame. A tail at or above the ring's length is refused; else it hands over the
descriptors up to it. The end of a datagram's frame frees the MAC. A received frame with a wrong FCS, of bad length,
not for the MAC, or without a descriptor ends as R421 says. The gate list moves at its time only. A servo write has
the base stepped on its next tick, or sets the increment within its range, and is refused without `disc`. A producer's
take builds the datagram of R441, 40 bytes and 8 per entry; its send queues it or counts it dropped. A consumer's
datagram is refused, a duplicate or accepted; the watchdog times out. START, STOP and RELOAD check and act; STATUS
answers 16 bytes. (R421, R423, R426, R427, R428, R441, R442, R443, R444, R445, R446, R447) -/
def Obligations.EthernetAndPartnerSessions : Prop :=
  (∀ (e : PsEntry) (seq epoch take : Nat) (vals : List ReadOut), e.sid < 2 ^ 16 → e.n < 2 ^ 16 → seq < 2 ^ 16 →
    let d := psDatagram e seq epoch take vals
    d.length = 40 + 8 * vals.length ∧ ofBytesBE (d.take 2) = e.sid ∧ ofBytesBE ((d.drop 2).take 1) = 1 ∧
    ofBytesBE ((d.drop 4).take 2) = e.n ∧ ofBytesBE ((d.drop 6).take 2) = seq) ∧
  ∀ (s : State) (n : Nat) (v : Word), s.Inv → n < 2 →
    let x := s.mac n
    let ev := Reg.ethEvstat n
    let others (l : List Nat) (u : State) : Prop := (∀ j, j ≠ n → u.mac j = s.mac j) ∧ u.port.can = s.port.can ∧
      u.port.ps = s.port.ps ∧ RegsKept s u l ∧ MemKept s u ∧ u.sp = s.sp
    let only (a : Nat) (u : State) : Prop := u = { s with regs := u.regs } ∧ RegsKept s u [a]
    let quiet : Prop := s.rb (Reg.ethCfgAct n) 30 = false
    (∀ q, q < 12 → let w := v.toNat % 8192
      let len := s.ethLen n q
      (len ≤ w → Answers (.ethTailWrite n q v) s fun u => only ev u ∧ u.rb ev 4 = true) ∧
      (w < len → 8 ≤ q → Answers (.ethTailWrite n q v) s fun u => only (ethTailReg n q) u ∧ u.ethTail n q = w) ∧
      (w < len → q < 8 → quiet → Answers (.ethTailWrite n q v) s fun u => others [ethTailReg n q] u ∧ u.ethTail n q = w ∧
        u.mac n = { x with items := x.items ++ List.replicate ((w + len - s.ethTail n q % len) % len) (q, .ring) })) ∧
    (∀ t, (x.busy = none → quiet → Answers (.ethTxDone n t) s (· = s)) ∧
      (∀ q i f b, x.busy = some (q, .gram i f, b) → quiet → Answers (.ethTxDone n t) s fun u => others [] u ∧
        u.mac n = { x with busy := none })) ∧
    (∀ (d : List Byte) (t : Nat),
      let be (o k : Nat) : Nat := ofBytesBE ((d.drop o).take k)
      let good : Prop := crc32 d.dropLast.dropLast.dropLast.dropLast = ofBytesLE (d.drop (d.length - 4))
      let size : Prop := 64 ≤ d.length ∧ d.length ≤ s.ethMax n ∧ be 12 2 ≠ 0x8808
      let mine : Prop := be 0 6 = s.macAddr n ∨ be 0 6 = 0xFFFFFFFFFFFF ∨
        (bit (be 0 6) 40 = true ∧ s.rb (Reg.ethCfgAct n) 29 = true)
      let lost (u : State) : Prop := u = { s with regs := u.regs } ∧ RegsKept s u [Reg.ethCntRxdrop n, ev] ∧ u.rb ev 5 = true ∧
        (u.rget (Reg.ethCntRxdrop n)).toNat = min ((s.rget (Reg.ethCntRxdrop n)).toNat + 1) (2 ^ 32 - 1)
      let on : Prop := s.rb (Reg.ethCfgAct n) 31 = true
      (¬on → Answers (.ethRxFrame n d t) s (· = s)) ∧
      (on → ¬good → Answers (.ethRxFrame n d t) s fun u => only (Reg.ethCntCrc n) u ∧
        (u.rget (Reg.ethCntCrc n)).toNat = min ((s.rget (Reg.ethCntCrc n)).toNat + 1) (2 ^ 32 - 1)) ∧
      (on → good → ¬size → Answers (.ethRxFrame n d t) s lost) ∧
      (on → good → size → ¬mine → Answers (.ethRxFrame n d t) s (· = s)) ∧
      (on → good → size → mine → be 12 2 ≠ s.rf Reg.psCfg 15 0 → be 12 2 ≠ 0x0800 → be 12 2 ≠ 0x8100 →
        (s.rb (ethRingReg n 8) 31 = false ∨ s.ethHead n 8 = s.ethTail n 8) → Answers (.ethRxFrame n d t) s lost)) ∧
    (∀ up speed, speed < 4 → let st := Reg.ethStat n
      Answers (.ethLinkChange n up speed) s fun u => u = { s with regs := u.regs } ∧ RegsKept s u [st, ev] ∧ u.rb st 31 = up ∧
        u.rf st 1 0 = (if up then speed else 0) ∧ u.rb ev 2 = (s.rb ev 2 || s.rb st 31 != up)) ∧
    ((∀ t, x.gclNext = some t → s.gclOn n = false ∨ s.ethTimeNow n < t) → Answers (.gclEntry n) s (· = s)) ∧
    (∀ t, x.gclNext = some t → s.gclOn n = true → t ≤ s.ethTimeNow n → quiet →
      (∀ g d, (s.gclSegs n)[x.gclIdx + 1]? = some (g, d) → Answers (.gclEntry n) s fun u => others [] u ∧
        u.mac n = { x with gclIdx := x.gclIdx + 1, gates := g, gclNext := some (t + d) }) ∧
      (∀ g d tl, (s.gclSegs n)[x.gclIdx + 1]? = none → s.gclSegs n = (g, d) :: tl → s.commits = [] →
        Answers (.gclEntry n) s fun u => others [] u ∧
          u.mac n = { x with gclIdx := 0, gclStart := t, gates := g, gclNext := some (t + d) })) ∧
    (let cfg := Reg.ethPtpCfg n
     let b := n + 1
     let th := sInt 32 v.toNat
     let rate := ptpRho th (max (-(2 ^ s.rf cfg 19 16 * 16000000 : Nat) : Int) (min (2 ^ s.rf cfg 19 16 * 16000000 : Nat) (x.integ + th)))
       (s.rf cfg 27 24) (s.rf cfg 19 16)
     let inc := ((x.inc0 : Int) + roundMul (rate.1 * (x.inc0 : Int)) 1 (rate.2 * 1000000000)).toNat
     let on : Prop := s.rf (Reg.timeTbCtrl b) 1 0 = 1
     let stepped : Prop := s.rf cfg 15 0 * 16 < th.natAbs ∧ s.baseHasGrid b = false
     (¬on → Answers (.ptpOffsetWrite n v) s fun u => only ev u ∧ u.rb ev 4 = true) ∧
     (on → s.rb (Reg.ethPtpSig n) 31 = false →
       (stepped → Answers (.ptpOffsetWrite n v) s fun u => others [ev] u ∧ u.rb ev 3 = true ∧ u.mac n = { x with integ := 0 } ∧
         u.base b = { s.base b with moves := (s.base b).moves ++ [(.add (-(th * (2 ^ 28 : Nat))), .servo)] } ∧
         ∀ j, j ≠ b → u.base j = s.base j) ∧
       (¬stepped → 0x4FEB851EC ≤ inc → inc ≤ 0x50147AE14 → Answers (.ptpOffsetWrite n v) s fun u => others [] u ∧
         u.base b = { s.base b with inc := inc } ∧ ∀ j, j ≠ b → u.base j = s.base j) ∧
       (¬stepped → (inc < 0x4FEB851EC ∨ 0x50147AE14 < inc) → Answers (.ptpOffsetWrite n v) s fun u => others [ev] u ∧
         u.rb ev 7 = true ∧ u.mac n = x ∧
         u.base b = { s.base b with inc := if inc < 0x4FEB851EC then 0x4FEB851EC else 0x50147AE14 }))) ∧
    (∀ o : Op, OpMay s o 10 2 → o.obj = n → Answers (.ethStatus o.id) s fun u => OnlyOp s u o.id ∧ u.port = s.port ∧
      ∃ r : List Byte, r.length = 16 ∧ OpEnded u o.id o.okSt r ∧ recNat r 0 4 = (s.rget (Reg.ethStat n)).toNat ∧
        recNat r 4 4 = (s.rget (Reg.ethCntRxdrop n)).toNat ∧ recNat r 8 4 = (s.rget (Reg.ethCntCrc n)).toNat ∧
        recNat r 12 4 = (s.rget (Reg.ethCntTxref n)).toNat) ∧
    (∀ i, i < 2048 →
      let y := s.psess i
      let e := y.entry
      let kept (l : List Nat) (u : State) : Prop := (∀ j, j ≠ i → u.psess j = s.psess j) ∧ RegsKept s u l ∧ MemKept s u
      let show' : List Nat := [Reg.psStat, Reg.psTout (i / 32)]
      let time := if e.transport = 0 then s.now else s.baseTime (s.gridBase e.grid)
      ((y.state = 0 ∨ ∀ t, y.takeAt = some t → time < t) → Answers (.psTake i) s (· = s)) ∧
      (∀ t, y.state ≠ 0 → y.takeAt = some t → t ≤ time → y.stopping = true → y.stopOp = none → y.startOp = none →
        Answers (.psTake i) s fun u => kept show' u ∧ u.sp = s.sp ∧
          u.psess i = { y with state := 0, stopping := false, takeAt := none }) ∧
      (∀ t, y.state ≠ 0 → y.takeAt = some t → t ≤ time → y.stopping = false → y.reload = none → y.startOp = none → y.reloadOp = none →
        e.redEn = false → e.n = 0 → e.transport = 2 → e.mac = n → x.items = [] → y.gram = none → Answers (.psTake i) s fun u =>
          kept [] u ∧ u.sp = s.sp ∧ u.psess i = { y with
            takeAt := none, seq := (y.seq + 1) % 2 ^ 16
            gram := some (s.psFrame e (psDatagram e ((y.seq + 1) % 2 ^ 16) 0 (if s.gridBase e.grid = 0 then t else s.now) [])) }) ∧
      ((∀ f, y.gram = some f → s.baseTime (s.gridBase e.grid) < y.sendAt) → Answers (.psSend i) s (· = s)) ∧
      (∀ f, y.gram = some f → y.sendAt ≤ s.baseTime (s.gridBase e.grid) → e.mac = n → quiet →
        let held := (x.items.filter fun it => it.2 != .ring).length
        (held < 256 → Answers (.psSend i) s fun u => kept [] u ∧ u.psess i = { y with gram := none } ∧ u.sp = s.sp ∧
          u.mac n = { x with items := x.items ++ [(e.txq, .gram i f)] }) ∧
        (256 ≤ held → Answers (.psSend i) s fun u => kept [Reg.psEvstat] u ∧ u.mac n = x ∧ u.rb Reg.psEvstat 4 = true ∧
          u.psess i = { y with gram := none, txDrop := min (y.txDrop + 1) 65535 })) ∧
      (∀ d : List Byte, let be (o k : Nat) : Nat := ofBytesBE ((d.drop o).take k)
        let on : Prop := y.state ≠ 0 ∧ e.role = 2
        let k := match y.lastSeq with
          | none => 1
          | some l => (be 6 2 + 65536 - l) % 65536
        (¬on → Answers (.psDatagramReceive i d) s (· = s)) ∧
        (on → (be 2 1 ≠ 1 ∨ be 4 2 ≠ e.n) → Answers (.psDatagramReceive i d) s fun u => only Reg.psEvstat u ∧
          u.rb Reg.psEvstat 3 = true) ∧
        (on → be 2 1 = 1 → be 4 2 = e.n → e.redEn = false →
          ((k = 0 ∨ 0x8000 ≤ k) → Answers (.psDatagramReceive i d) s fun u => kept [] u ∧ u.sig = s.sig ∧
            u.psess i = { y with dup := min (y.dup + 1) 65535 }) ∧
          (0 < k → k < 0x8000 → e.n = 0 → y.state = 1 → Answers (.psDatagramReceive i d) s fun u => kept [Reg.psEvstat] u ∧
            u.psess i = { y with
              lastSeq := some (be 6 2), accepted := min (y.accepted + 1) 65535, heardAt := s.cyc
              gap := if 1 < k then min (y.gap + 1) 65535 else y.gap } ∧ (1 < k → u.rb Reg.psEvstat 2 = true)))) ∧
      (let out : Prop := y.state = 1 ∧ e.role = 2 ∧ y.heardAt + usCyc e.wdUs ≤ s.cyc
       (¬out → Answers (.psWatchdogTimeout i) s (· = s)) ∧
       (out → Answers (.psWatchdogTimeout i) s fun u => kept (Reg.psEvstat :: show') u ∧ u.psess i = { y with state := 2 } ∧
         u.rb (Reg.psTout (i / 32)) (i % 32) = true ∧ u.rb Reg.psEvstat 0 = true)) ∧
      (∀ o : Op, o.obj = i →
        let quick (st : Status) (u : State) : Prop := OnlyOp s u o.id ∧ u.port = s.port ∧ OpEnded u o.id st []
        let a := s.rget64 Reg.psTableBaseLo Reg.psTableBaseHi + 64 * i
        let reads (d : List Byte) : Prop := (Run.start s).memRead 7 a 64 = (Run.start s, .ok, d)
        (OpMay s o 6 1 →
          (y.state ≠ 0 → Answers (.psStart o.id) s (quick .refused)) ∧
          (∀ d, y.state = 0 → reads d → s.psAdmit i (psEntryOf d) ≠ .ok →
            Answers (.psStart o.id) s (quick (s.psAdmit i (psEntryOf d)))) ∧
          (∀ d, y.state = 0 → reads d → s.psAdmit i (psEntryOf d) = .ok → Answers (.psStart o.id) s fun u =>
            kept show' u ∧ OpsKept s u o.id ∧ (u.psess i).state = 1 ∧ (u.psess i).entry = psEntryOf d ∧
            (u.psess i).heardAt = s.cyc ∧ ((psEntryOf d).role = 1 → u.op o.id = some { o with acted := true, actedAt := s.now }) ∧
            ((psEntryOf d).role ≠ 1 → OpEnded u o.id o.okSt []))) ∧
        (OpMay s o 6 2 →
          (y.state = 0 → Answers (.psStop o.id) s (quick .empty)) ∧
          (y.state ≠ 0 → e.role = 1 → Answers (.psStop o.id) s fun u => OnlyOp s u o.id ∧ u.op o.id = some { o with acted := true, actedAt := s.now } ∧
            u.psess i = { y with stopping := true, stopOp := some o.id }) ∧
          (y.state ≠ 0 → e.role ≠ 1 → Answers (.psStop o.id) s fun u => kept show' u ∧ OpsKept s u o.id ∧
            OpEnded u o.id o.okSt [] ∧ u.psess i = { y with state := 0 })) ∧
        (OpMay s o 6 3 →
          (y.state = 0 → Answers (.psReload o.id) s (quick .empty)) ∧
          (y.state ≠ 0 → y.reload ≠ none → Answers (.psReload o.id) s (quick .busy)) ∧
          (∀ d, y.state ≠ 0 → y.reload = none → reads d → s.psAdmit i (psEntryOf d) = .ok → e.role = 1 →
            Answers (.psReload o.id) s fun u => OnlyOp s u o.id ∧ u.op o.id = some { o with acted := true, actedAt := s.now } ∧
              u.psess i = { y with reload := some (psEntryOf d), reloadOp := some o.id })) ∧
        (OpMay s o 6 4 → Answers (.psStatus o.id) s fun u => OnlyOp s u o.id ∧ u.port = s.port ∧ ∃ r : List Byte,
          r.length = 16 ∧ OpEnded u o.id o.okSt r ∧ recNat r 0 2 = y.state % 2 ^ 16 ∧ recNat r 4 4 = y.epoch % 2 ^ 32 ∧
          recNat r 8 2 = y.accepted % 2 ^ 16)))

/-- CAN objects, sending, error states, receiving, bit-rate detection and operations. A request makes an idle sending
object PENDING, a cancel of a PENDING one CANCELLED, of an ACTIVE one asked for; others change nothing. The end of a
transmission makes the object TXDONE with the stamp and one less in the transmit counter, or PENDING, FAILED or
CANCELLED. Bus-off is left by recovery alone. With no object pending: a controller off the bus or in bus-off ignores
frames; an error adds to the receive counter of a running one; a good frame for an EMPTY object is stored with its
filter; one for a FULL object is lost and counted. An acknowledgement empties a FULL object; else cfgerr. SEND, READ,
ACK and RECOVER end or run as their rules say. (R432, R433, R435, R436, R437, R438, R439, R448, 11_plant_ports.md) -/
def Obligations.CanControllers : Prop :=
  ∀ (s : State) (n j : Nat), s.Inv → n < 4 → j < 100 →
    let c := s.canc n
    let w := Reg.canObjW0 n j
    let ev := Reg.canEvstat n
    let st := Reg.canStat n
    let kind := s.coKind n j
    let state := s.coState n j
    let mode := s.canMode n
    let err := s.canErr n
    let others (l : List Nat) (u : State) : Prop := (∀ k, k ≠ n → u.canc k = s.canc k) ∧ u.port.eth = s.port.eth ∧
      u.port.ps = s.port.ps ∧ RegsKept s u l ∧ MemKept s u
    let still : Prop := ∀ k, k < 100 → k ≠ j → s.coKind n k = 1 → s.coState n k ≠ 1
    let waits : Prop := c.active ≠ none ∨ c.onBus = false ∨ mode ≠ 1 ∨ err = 2
    let goes : Prop := c.active = none ∧ c.onBus = true ∧ mode = 1 ∧ err ≠ 2 ∧ s.commits = [] ∧ s.rb (Reg.canCfgAct n) 4 = true
    let idle : Prop := kind = 1 ∧ (state = 0 ∨ 3 ≤ state)
    (¬idle → Answers (.canReqWrite n j) s (· = s)) ∧
    (idle → waits → Answers (.canReqWrite n j) s fun u => others [w] u ∧ u.canc n = c ∧ u.coState n j = 1 ∧ u.coKind n j = 1 ∧
      u.rb w 16 = false ∧ u.sp = s.sp) ∧
    (idle → goes → still → Answers (.canReqWrite n j) s fun u => others [w] u ∧ u.coState n j = 2 ∧
      u.canc n = { c with active := some j, cancelReq := false } ∧ u.sp = s.sp) ∧
    ((kind ≠ 1 ∨ (state ≠ 1 ∧ state ≠ 2)) → Answers (.canCancelWrite n j) s (· = s)) ∧
    (kind = 1 → state = 2 → Answers (.canCancelWrite n j) s fun u => others [] u ∧ u.canc n = { c with cancelReq := true }) ∧
    (kind = 1 → state = 1 → s.canOp n j = none → Answers (.canCancelWrite n j) s fun u => others [w, ev] u ∧ u.canc n = c ∧
      u.coState n j = 4 ∧ u.rb ev 2 = true ∧ u.sp = s.sp) ∧
    (∀ r a t, c.active = none → Answers (.canTxEnd n r a t) s (· = s)) ∧
    (∀ a t, c.active = some j → kind = 1 → s.canOp n j = none → err = 0 → still → s.canTec n ≤ 127 → s.canRec n ≤ 127 → t < 2 ^ 32 →
      c.cancelReq = false →
      (Answers (.canTxEnd n 0 a t) s fun u => others [w, Reg.canObjTs n j, ev, st] u ∧ u.canc n = { c with active := none } ∧
        u.coState n j = 3 ∧ (u.rget (Reg.canObjTs n j)).toNat = t ∧ u.canTec n = s.canTec n - 1 ∧ u.canErr n = 0 ∧
        u.rb ev 1 = (s.rb ev 1 || s.rb w 27)) ∧
      (s.rb w 26 = false → mode ≠ 1 → Answers (.canTxEnd n 1 a t) s fun u => others [w] u ∧ u.canc n = { c with active := none } ∧
        u.coState n j = 1) ∧
      (s.rb w 26 = true → Answers (.canTxEnd n 1 a t) s fun u => others [w, ev] u ∧ u.canc n = { c with active := none } ∧
        u.coState n j = 5 ∧ u.rb ev 8 = (s.rb ev 8 || s.rb w 27)) ∧
      (255 < s.canTec n + a → s.canTec n + a < 512 → Answers (.canTxEnd n 2 a t) s fun u => u.canErr n = 2 ∧ u.rb ev 4 = true ∧
        u.canTec n = s.canTec n + a ∧ (u.canc n).counting = s.rb (Reg.canCfgAct n) 7 ∧ u.coState n j = 1)) ∧
    ((err ≠ 2 ∨ c.counting = false) → Answers (.canRecovered n) s (· = s)) ∧
    (err = 2 → c.counting = true → c.onBus = false → (∀ o ∈ s.sp.ops, o.unit ≠ 9) → Answers (.canRecovered n) s fun u =>
      others [st, ev] u ∧ u.canc n = { c with counting := false } ∧ u.canErr n = 0 ∧ u.canTec n = 0 ∧ u.canRec n = 0 ∧
      u.rb ev 5 = true ∧ u.sp = s.sp) ∧
    (err ≠ 2 → Answers (.canRecoverWrite n) s (· = s)) ∧
    (err = 2 → Answers (.canRecoverWrite n) s fun u => others [] u ∧ u.canc n = { c with counting := true } ∧ u.sp = s.sp) ∧
    ((mode = 0 ∨ c.onBus = true) → Answers (.busIntegration n) s (· = s)) ∧
    (mode ≠ 0 → mode ≠ 1 → c.onBus = false → Answers (.busIntegration n) s fun u => others [] u ∧ u.canc n = { c with onBus := true }) ∧
    (∀ (id : Nat) (esi remote : Bool) (dlc : Nat) (data : List Byte) (ts add : Nat),
      let row : Instr := .canRxFrame n id esi remote dlc data ts add
      ((mode = 0 ∨ c.onBus = false ∨ err = 2) → Answers row s (· = s)) ∧
      (mode = 3 → c.onBus = true → err = 0 → 0 < add → s.canTec n ≤ 127 → Answers row s fun u => others [st, ev] u ∧ u.canc n = c ∧
        u.canRec n = min (s.canRec n + add) 255 ∧ u.canTec n = s.canTec n ∧
        u.canErr n = (if 127 < s.canRec n + add then 1 else 0)) ∧
      (∀ i, mode = 2 → c.onBus = true → err ≠ 2 → add = 0 → remote = false → s.rb (Reg.canCfgAct n) 4 = true → i < 32 → data.length ≤ 64 →
        let m (k : Nat) := Reg.canFltMatchAct n k
        let hit (k : Nat) : Prop := s.rb (m k) 31 = true ∧
          (bits id 29 0 ^^^ s.rf (m k) 29 0) &&& s.rf (Reg.canFltMaskAct n k) 29 0 = 0
        hit i → (∀ k, k < i → ¬hit k) → s.rf (Reg.canFltTgtAct n i) 8 7 = 0 → s.rf (Reg.canFltTgtAct n i) 6 0 = j → kind = 2 →
        s.rb w 28 = false →
        (state = 1 → Answers row s fun u => others [w, Reg.canCnt n, ev] u ∧ u.rb w 17 = true ∧ u.rb ev 6 = true ∧ u.coState n j = 1 ∧
          u.rf (Reg.canCnt n) 15 0 = min (s.rf (Reg.canCnt n) 15 0 + 1) 65535) ∧
        (state ≠ 1 → Answers row s fun u => u.coState n j = 1 ∧ (u.rget (Reg.canObjId n j)).toNat = id % 2 ^ 32 ∧
          (u.rget (Reg.canObjTs n j)).toNat = ts % 2 ^ 32 ∧ u.rf (Reg.canObjDlc n j) 3 0 = dlc % 16 ∧
          u.rf (Reg.canObjDlc n j) 31 16 = i ∧ (∀ k, k < 16 → (u.rget (Reg.canObjData n j k)).toNat = recNat data (4 * k) 4) ∧
          u.rb ev 0 = true ∧ MemKept s u ∧
          RegsKept s u ([w, Reg.canObjId n j, Reg.canObjTs n j, Reg.canObjDlc n j, ev] ++ (List.range 16).map (Reg.canObjData n j))))) ∧
    (∀ v : Word, let k := v.toNat % 128
      ((100 ≤ k ∨ s.coKind n k < 2 ∨ s.coState n k ≠ 1) → Answers (.canAckWrite n v) s fun u => others [ev] u ∧ u.canc n = c ∧
        u.rb ev 11 = true) ∧
      (k = j → kind = 2 → state = 1 → Answers (.canAckWrite n v) s fun u => others [w] u ∧ u.canc n = c ∧ u.coState n j = 0 ∧
        u.rf w 23 16 = 0 ∧ u.coKind n j = 2)) ∧
    (let out : Prop := mode = 4 ∧ c.abdOn = true ∧ c.abdFrom + usCyc (s.rf (Reg.canAbdcfgAct n) 7 0 * 1000) ≤ s.cyc
     let more : Prop := c.abdIdx + 1 < 8 ∧ s.rf (Reg.canAbdAct n (c.abdIdx + 1)) 4 0 ≠ 0
     (¬out → Answers (.abdCandidateEnd n) s (· = s)) ∧
     (out → more → Answers (.abdCandidateEnd n) s fun u => others [] u ∧ u.canc n = { c with abdIdx := c.abdIdx + 1, abdFrom := s.cyc }) ∧
     (out → ¬more → s.rf (Reg.canAbdcfgAct n) 15 8 ≤ c.abdRound + 1 → Answers (.abdCandidateEnd n) s fun u => others [ev] u ∧
       u.canc n = { c with abdOn := false, onBus := false } ∧ u.rb ev 10 = true) ∧
     (out → ¬more → c.abdRound + 1 < s.rf (Reg.canAbdcfgAct n) 15 8 → Answers (.abdCandidateEnd n) s fun u => others [] u ∧
       u.canc n = { c with abdIdx := 0, abdRound := c.abdRound + 1, abdFrom := s.cyc })) ∧
    (∀ o : Op,
      let quick (st : Status) (u : State) : Prop := OnlyOp s u o.id ∧ u.port = s.port ∧ OpEnded u o.id st []
      (OpMay s o 9 2 → o.obj = n * 128 + j →
        (kind = 1 → (state = 1 ∨ state = 2) → Answers (.canSend o.id) s (quick .busy)) ∧
        (¬(kind = 1 ∧ (state = 1 ∨ state = 2)) → (kind ≠ 1 ∨ mode = 0 ∨ mode = 2 ∨ mode = 4) → Answers (.canSend o.id) s (quick .refused)) ∧
        (idle → (mode = 1 ∨ mode = 3) → waits → bit (recNat o.payload 0 1) 0 = false → Answers (.canSend o.id) s fun u =>
          u.op o.id = some { o with acted := true, actedAt := s.now } ∧ OpsKept s u o.id ∧ others [w] u ∧ u.coState n j = 1)) ∧
      (OpMay s o 9 3 → o.obj = n * 128 + j → Answers (.canRead o.id) s fun u => OnlyOp s u o.id ∧ u.port = s.port ∧ ∃ r : List Byte,
        r.length = 96 ∧ OpEnded u o.id o.okSt r ∧ recNat r 0 4 = (s.rget w).toNat ∧ recNat r 4 4 = (s.rget (Reg.canObjId n j)).toNat ∧
        recNat r 12 4 = (s.rget (Reg.canObjTs n j)).toNat ∧
        ∀ k, k < 16 → recNat r (32 + 4 * k) 4 = (s.rget (Reg.canObjData n j k)).toNat) ∧
      (OpMay s o 9 4 → o.obj = n * 128 + j → kind = 2 → state = 1 → Answers (.canAck o.id) s fun u => OpEnded u o.id o.okSt [] ∧
        OpsKept s u o.id ∧ others [w] u ∧ u.coState n j = 0) ∧
      (OpMay s o 9 4 → o.obj = n * 128 + j → (kind < 2 ∨ state ≠ 1) → Answers (.canAck o.id) s fun u => OpEnded u o.id .empty [] ∧
        OpsKept s u o.id ∧ others [ev] u ∧ u.rb ev 11 = true) ∧
      (OpMay s o 9 5 → o.obj = n →
        (err ≠ 2 → Answers (.canRecover o.id) s (quick .empty)) ∧
        (err = 2 → s.rb (Reg.canCfgAct n) 7 = true → Answers (.canRecover o.id) s (quick .refused)) ∧
        (err = 2 → s.rb (Reg.canCfgAct n) 7 = false → Answers (.canRecover o.id) s fun u => OnlyOp s u o.id ∧
          u.op o.id = some { o with acted := true, actedAt := s.now } ∧ u.canc n = { c with counting := true })))

/-- Notices, records, markers, triggers and operations of a capture session. A notice for a session that runs becomes
a CHANGE record, or is lost and counted; for another it is dropped. The queue's oldest record goes to the ring at wr,
12 bytes and no others; the last after the trigger completes the session with the retained region of R462; a refused
write ends it FAULT. A wrap of TB0 queues a marker. A read pointer at or above the size is refused. The first trigger
of an arming in RING queues its marker and its pair, becomes primary and moves the session to POST. START, ARM,
TRIGGER, DISARM and STOP are refused in the wrong state and act in the right one; STATUS answers 32 bytes. (R451,
R453, R454, R456, R458, R459, R460, R462, R463, R469, R475, 12_capture.md) -/
def Obligations.CaptureSessions : Prop :=
  ∀ (s : State) (n : Nat), s.Inv → n < 16 →
    let x := s.cs n
    let st := Reg.captSStat n
    let ev := Reg.captEvstat
    let state := s.csState n
    let runs : Prop := 1 ≤ state ∧ state ≤ 3
    let ring : Prop := s.csStream n = false
    let size := max 1 (s.csSize n)
    let kept (l : List Nat) (u : State) : Prop := (∀ k, k ≠ n → u.cs k = s.cs k) ∧ RegsKept s u l ∧ MemKept s u
    let change (i stamp val late init : Nat) : CaptSlot :=
      ⟨b2n (bit (s.ts64 stamp) 32) * 2 ^ 27 + late * 2 ^ 26 + init * 2 ^ 25 + i, stamp, val, 0⟩
    let fresh : Prop := state = 2 ∧ x.placed = false ∧ x.primary = none ∧ x.held = false ∧ s.csRoom n 4 = true ∧ ring ∧
      ¬(s.rb (Reg.captSCfgAct n) 29 = true ∧ s.rb (Reg.captSCfgAct n) 30 = true)
    let trigRegs := [Reg.captSTrigLo n, Reg.captSTrigHi n, Reg.captSTrigInfo n, Reg.captSMaskLo n, Reg.captSMaskHi n, ev, st,
      Reg.captStat]
    let first (t : CaptTrig) (u : State) : Prop :=
      u.cs n = { x with
        wins := [], placed := true, primary := some t
        queue := x.queue ++ [(s.epochPair 3 1).1, (s.epochPair 3 1).2,
          ⟨3 * 2 ^ 28 + 2 ^ 27 + t.src * 2 ^ 25 + b2n t.skew * 2 ^ 24 + t.unit * 2 ^ 18, t.t / 2 ^ 16 % 2 ^ 32, t.t / 2 ^ 48, 0⟩,
          ⟨4 * 2 ^ 28 + t.t % 2 ^ 16, t.mask % 2 ^ 32, t.mask / 2 ^ 32, 2⟩] } ∧
      kept trigRegs u ∧ u.csState n = 3 ∧ u.rb Reg.captStat n = true ∧ u.rb ev 1 = true ∧
      u.rget64 (Reg.captSTrigLo n) (Reg.captSTrigHi n) = t.t / 2 ^ 16 ∧
      u.rget64 (Reg.captSMaskLo n) (Reg.captSMaskHi n) = t.mask ∧
      (u.rget (Reg.captSTrigInfo n)).toNat = 2 ^ 31 + t.src * 2 ^ 29 + b2n t.skew * 2 ^ 28 + t.unit * 2 ^ 16 + t.t % 2 ^ 16
    let ends (c : Status) (u : State) : Prop := u.csState n = 4 ∧ u.rf st 23 16 = c.code ∧ u.rb ev 0 = true ∧
      u.rb Reg.captStat n = false ∧ (u.cs n).queue = [] ∧ (∀ k, k ≠ n → u.cs k = s.cs k) ∧
      ∀ i ∈ x.list, bit (u.sigRec i).captMask n = false
    (s.sig.notices = [] → Answers .captNotice s (· = s)) ∧
    (∀ y rest, s.sig.notices = y :: rest →
      let popped (u : State) : Prop := u.sig = { s.sig with notices := rest } ∧ u.sp = s.sp
      (s.csRuns y.sess = false → Answers .captNotice s (· = { s with sig := { s.sig with notices := rest } })) ∧
      (y.sess = n → state = 1 → s.csRoom n 1 = true → x.held = false → Answers .captNotice s fun u => popped u ∧ kept [] u ∧
        u.cs n = { x with queue := x.queue ++ [change y.idx y.stamp y.val (b2n y.lateIns) 0] }) ∧
      (y.sess = n → state = 1 → s.csRoom n 1 = false → Answers .captNotice s fun u => popped u ∧
        kept [Reg.captSLost n, ev] u ∧ u.rb ev 2 = true ∧
        (u.rget (Reg.captSLost n)).toNat = min ((s.rget (Reg.captSLost n)).toNat + 1) (2 ^ 32 - 1) ∧
        u.cs n = { x with
          gapFirst := if x.gapCount = 0 then y.stamp else x.gapFirst
          gapCount := min (x.gapCount + 1) (2 ^ 32 - 1), lost := true })) ∧
    ((x.queue = [] ∨ ¬runs ∨ s.csFull n = true) → Answers (.captRecordWrite n) s (· = s)) ∧
    (∀ q rest, x.queue = q :: rest → runs → s.csFull n = false →
      let wr := s.rf (Reg.captSWr n) 27 0
      let a := s.rget64 (Reg.captSBaseLoAct n) (Reg.captSBaseHiAct n) + 12 * wr
      let goes : Prop := s.memStatus 4 a 12 true = .ok ∧ regionOf a = .ddr ∧ s.eccIn a 12 = [] ∧ ring ∧ x.held = false ∧ x.startOp = none ∧ q.mark = 0
      let stored (u : State) : Prop := u.bytes a 12 = wordsLE [q.w0, q.w1, q.w2] ∧ MemKeptBut s u a 12 ∧
        (u.rget (Reg.captSWr n)).toNat = (wr + 1) % size
      (s.memStatus 4 a 12 true ≠ .ok → Answers (.captRecordWrite n) s fun u => ends .fault u ∧ u.rb ev 7 = true ∧ MemKept s u) ∧
      (goes → x.postLeft = none → Answers (.captRecordWrite n) s fun u => stored u ∧ RegsKept s u [Reg.captSWr n] ∧
        (∀ k, k ≠ n → u.cs k = s.cs k) ∧ u.cs n = { x with queue := rest, written := x.written + 1, high := false }) ∧
      (∀ slot w, goes → x.postLeft = some 1 → x.trigAt = some (slot, w) → x.lost = false →
        let post := s.rf (Reg.captSPostAct n) 27 0
        let pre := s.rf (Reg.captSPreAct n) 27 0
        let p := min post (s.csSize n - 4)
        let k := min (min pre w) (s.csSize n - 4 - p)
        Answers (.captRecordWrite n) s fun u => stored u ∧ ends (if p < post ∨ k < min pre w then .trunc else .ok) u ∧
          (u.rget (Reg.captSFirst n)).toNat = (slot + size - k % size) % size ∧
          (u.rget (Reg.captSCount n)).toNat = k + 4 + p)) ∧
    (s.now / 2 ^ 32 = s.capt.epoch → Answers .epochWrap s (· = s)) ∧
    (s.now / 2 ^ 32 ≠ s.capt.epoch → runs → (∀ k, k < 16 → k ≠ n → s.csRuns k = false) → x.held = false → s.csRoom n 2 = true →
      Answers .epochWrap s fun u => kept [] u ∧ u.capt.epoch = s.now / 2 ^ 32 ∧
        u.cs n = { x with queue := x.queue ++ [(s.epochPair 1 0).1, (s.epochPair 1 0).2] }) ∧
    (∀ v : Word, let p := v.toNat % 2 ^ 28
      let fill := (s.rf (Reg.captSWr n) 27 0 + size - p) % size
      let high := s.csStream n && decide (s.rf (Reg.captSHerdAct n) 22 16 * size < fill * 100)
      (s.csSize n ≤ p → Answers (.captRdWrite n v) s fun u => u = { s with regs := u.regs } ∧ RegsKept s u [ev] ∧ u.rb ev 8 = true) ∧
      (p < s.csSize n → x.held = false → x.startOp = none → Answers (.captRdWrite n v) s fun u => kept [Reg.captSRd n, ev] u ∧
        (u.rget (Reg.captSRd n)).toNat = p ∧ u.cs n = { x with high := high } ∧ u.rb ev 6 = (s.rb ev 6 || (high && !x.high)))) ∧
    ((x.wins = [] ∨ ∃ w, x.wins.head? = some w ∧ s.cyc < w.since + usCyc 1) → Answers (.coincidenceWindowEnd n) s (· = s)) ∧
    (∀ w, x.wins = [w] → w.since + usCyc 1 ≤ s.cyc → state ≠ 2 → state ≠ 3 → Answers (.coincidenceWindowEnd n) s fun u =>
      kept [] u ∧ u.cs n = { x with wins := [] }) ∧
    (∀ w k t skew, x.wins = [w] → w.since + usCyc 1 ≤ s.cyc → w.units = [(k, t, skew)] → k < 64 → t < 2 ^ 80 → fresh →
      Answers (.coincidenceWindowEnd n) s (first { t := t, src := 0, skew := skew, unit := k, mask := 2 ^ k })) ∧
    (∀ o : Op, o.obj = n →
      let cfg := Reg.captSCfgAct n
      let refused (c : Status) (cause pos : Nat) (u : State) : Prop := OpEnded u o.id c [] ∧ OpsKept s u o.id ∧ MemKept s u ∧
        u.capt = s.capt ∧ RegsKept s u [ev, Reg.captLasterr] ∧ u.rb ev 8 = true ∧
        (u.rget Reg.captLasterr).toNat = c.code * 2 ^ 24 + cause * 2 ^ 16 + pos * 2 ^ 4 + n
      let alone : Prop := recNat o.payload 2 2 = 0
      (OpMay s o 4 2 →
        let l := s.rget64 (Reg.captSListLoAct n) (Reg.captSListHiAct n)
        let begun (u : State) : Prop := u.csState n = 1 ∧ OpEnded u o.id o.okSt [] ∧ OpsKept s u o.id ∧ MemKept s u ∧
          (∀ k, k ≠ n → u.cs k = s.cs k) ∧ (∀ r ∈ [Reg.captSWr n, Reg.captSRd n, Reg.captSFirst n, Reg.captSCount n], u.rget r = 0) ∧
          u.rb Reg.captStat n = true ∧ u.rf st 23 16 = 0
        let marker := [(s.epochPair 0 0).1, (s.epochPair 0 0).2]
        (state ≠ 0 → state ≠ 4 → Answers (.captStart o.id) s (refused .refused 0 0)) ∧
        ((state = 0 ∨ state = 4) → s.rf cfg 12 0 = 0 →
          (s.csRingOk n = false → Answers (.captStart o.id) s (refused .cfgerr 0 0)) ∧
          (s.csRingOk n = true → 2 ≤ s.csSize n → Answers (.captStart o.id) s fun u => begun u ∧ (u.cs n).queue = marker)) ∧
        (∀ d, (state = 0 ∨ state = 4) → s.rf cfg 12 0 = 1 → (Run.start s).memRead 4 l 4 = (Run.start s, .ok, d) →
          let i := recNat d 0 4
          (0x3FFFF < i → Answers (.captStart o.id) s (refused .cfgerr 0x10 0)) ∧
          (i ≤ 0x3FFFF → (s.sigRec i).defined = false → Answers (.captStart o.id) s (refused .nosuch 0x10 0)) ∧
          (i ≤ 0x3FFFF → (s.sigRec i).defined = true → s.csRingOk n = true → 2 ≤ s.csSize n → RecClean s i →
            Answers (.captStart o.id) s fun u => begun u ∧ SigsKept s u i ∧ (u.cs n).list = [i] ∧
              u.sigRec i = { s.sigRec i with captMask := (s.sigRec i).captMask ||| 2 ^ n } ∧
              (u.cs n).queue = marker ++ match (s.sigRec i).hist with
                | [] => []
                | e :: _ => [change i e.stamp e.val 0 1]))) ∧
      (OpMay s o 4 3 →
        let outside (u : Nat) : Prop := u ∈ s.unitsOf n ∧ s.rf (Reg.captTrCfgAct u) 23 20 ≠ 0 ∧ s.rf (Reg.captTrCfgAct u) 23 20 ≠ 9 ∧
          s.rf (Reg.captTrSigAct u) 17 0 ∉ x.list
        (state ≠ 1 → Answers (.captArm o.id) s (refused .refused 0 0)) ∧
        (∀ u, state = 1 → outside u → Answers (.captArm o.id) s (refused .cfgerr 0x10 0)) ∧
        (state = 1 → (∀ u, ¬outside u) → (64 < recNat o.payload 2 2 ∨ (¬alone ∧ s.rb cfg 29 = false)) →
          Answers (.captArm o.id) s (refused .cfgerr 0 0)) ∧
        (state = 1 → (∀ u, ¬outside u) → alone → Answers (.captArm o.id) s fun u => OpEnded u o.id o.okSt [] ∧ OpsKept s u o.id ∧
          MemKept s u ∧ u.csState n = 2 ∧ u.rf st 15 0 = 0 ∧
          (u.rget (Reg.captSArmno n)).toNat = s.nodeId * 2 ^ 16 + (x.arms + 1) % 2 ^ 16 ∧ u.rb (Reg.captSTrigInfo n) 31 = false ∧
          (∀ k ∈ s.unitsOf n, u.rb (Reg.captTrStat k) 31 = false ∧
            u.rb (Reg.captTrStat k) 30 = ((s.sigHist (s.rf (Reg.captTrSigAct k) 17 0) 0).status == .ok)) ∧
          u.cs n = { x with
            arms := (x.arms + 1) % 2 ^ 16, wins := [], placed := false, fired := false, primary := none, trigAt := none
            postLeft := none })) ∧
      (OpMay s o 4 4 →
        (state ≠ 2 → state ≠ 3 → Answers (.captTrigger o.id) s (refused .refused 0 0)) ∧
        (fresh → s.now < 2 ^ 64 → x.wins = [] → Answers (.captTrigger o.id) s fun u =>
          first { t := s.now * 2 ^ 16, src := 2 } u ∧ OpEnded u o.id o.okSt [] ∧ OpsKept s u o.id)) ∧
      (OpMay s o 4 5 →
        (state ≠ 2 → Answers (.captDisarm o.id) s (refused .refused 0 0)) ∧
        (state = 2 → alone → Answers (.captDisarm o.id) s fun u => kept [st, Reg.captStat] u ∧ u.csState n = 1 ∧
          u.cs n = { x with wins := [] } ∧ OpEnded u o.id o.okSt [] ∧ OpsKept s u o.id)) ∧
      (OpMay s o 4 6 →
        (¬runs → Answers (.captStop o.id) s fun u => OnlyOp s u o.id ∧ u.capt = s.capt ∧ OpEnded u o.id .empty []) ∧
        (∀ p, runs → x.startOp = some p.id → s.op p.id = some p → p.out = none → p.id ≠ o.id → Answers (.captStop o.id) s fun u =>
          u.csState n = 4 ∧ OpEnded u p.id p.okSt [] ∧ OpEnded u o.id o.okSt [] ∧ MemKept s u) ∧
        (runs → x.startOp = none → Answers (.captStop o.id) s fun u =>
          ends (if s.csStream n = false ∧ state = 3 then .aborted else if x.lost then .lost else .ok) u ∧
          OpEnded u o.id o.okSt [] ∧ OpsKept s u o.id ∧ MemKept s u)) ∧
      (OpMay s o 4 7 → Answers (.captStatus o.id) s fun u => OnlyOp s u o.id ∧ u.capt = s.capt ∧ OpEnded u o.id o.okSt
        (wordsLE ([st, Reg.captSWr n, Reg.captSFirst n, Reg.captSCount n, Reg.captSLost n, Reg.captSArmno n, Reg.captSTrigLo n,
          Reg.captSTrigHi n].map fun r => (s.rget r).toNat))))

/-- What a node answers to ARM and DISARM, and what it does with answers and FIRE. A repeated ARM or DISARM changes
nothing in the sessions. The first session with herd_en and the tag decides: ARM makes a RUN session ARMED under the
master's number; under the same number it answers OK, under another BUSY, else REFUSED; without a session NOSUCH; the
answer is stored for repeats. DISARM of a session ARMED under the number makes it RUN. An answer for no open
transaction changes nothing; the last answer ends the operation with one status byte a node, OK or LOST. A FIRE for no
armed session is counted; one in POST queues a secondary pair. (R471, R472, R474, R469, 12_capture.md) -/
def Obligations.ArmingAcrossTheHerd : Prop :=
  ∀ (s : State) (src : Nat) (d : List Byte), s.Inv → src < 0xFFFF →
    let be (o k : Nat) : Nat := ofBytesBE ((d.drop o).take k)
    let ev := Reg.captEvstat
    let ofUs (n : Nat) : Prop := n < 16 ∧ s.rb (Reg.captSCfgAct n) 29 = true ∧ s.rf (Reg.captSHerdAct n) 15 0 = be 2 2
    let seen : Prop := ∃ x ∈ s.herd.replay, x.src = src ∧ x.tag = be 28 4
    let reply (kind : Nat) (st : Status) (u : State) : Prop := MemKept s u ∧ u.sp = s.sp ∧ u.sig = s.sig ∧
      u.herd.replay = s.herd.replay ++ [⟨src, be 28 4,
        bytesBE 1 kind ++ bytesBE 1 st.code ++ (d.drop 2).take 6 ++ bytesBE 20 0 ++ bytesBE 4 (be 28 4), s.cyc⟩]
    let none' : Prop := ∀ n, ¬ofUs n
    let room : Prop := s.herd.replay.length < 1024
    (seen → Answers (.arm src d) s fun u => u.capt = s.capt ∧ u.herd.replay = s.herd.replay ∧ MemKept s u ∧ u.sp = s.sp) ∧
    (seen → Answers (.disarm src d) s fun u => u.capt = s.capt ∧ u.herd.replay = s.herd.replay ∧ MemKept s u ∧ u.sp = s.sp) ∧
    (¬seen → room → none' → Answers (.arm src d) s fun u => u.capt = s.capt ∧ reply 2 .nosuch u) ∧
    (¬seen → room → none' → Answers (.disarm src d) s fun u => u.capt = s.capt ∧ reply 5 .nosuch u) ∧
    (∀ n, ¬seen → room → ofUs n → (∀ k, k < n → ¬ofUs k) →
      let state := s.csState n
      let same : Prop := (s.rget (Reg.captSArmno n)).toNat = be 4 4
      let held : Prop := state = 2 ∨ state = 3
      let as (kind : Nat) (st : Status) (u : State) : Prop := u.capt = s.capt ∧ u.csState n = state ∧ reply kind st u
      (held → same → Answers (.arm src d) s (as 2 .ok)) ∧ (held → ¬same → Answers (.arm src d) s (as 2 .busy)) ∧
      (¬held → state ≠ 1 → Answers (.arm src d) s (as 2 .refused)) ∧
      (state = 1 → Answers (.arm src d) s fun u => reply 2 .ok u ∧ u.csState n = 2 ∧ u.rf (Reg.captSStat n) 15 0 = src ∧
        (u.rget (Reg.captSArmno n)).toNat = be 4 4 ∧ (∀ k, k ≠ n → u.cs k = s.cs k) ∧ (u.cs n).primary = none ∧
        (u.cs n).placed = false ∧ (u.cs n).queue = (s.cs n).queue) ∧
      (state = 2 → same → Answers (.disarm src d) s fun u => reply 5 .ok u ∧ u.csState n = 1 ∧ (∀ k, k ≠ n → u.cs k = s.cs k) ∧
        u.cs n = { s.cs n with wins := [] }) ∧
      ((state ≠ 2 ∨ ¬same) → Answers (.disarm src d) s (as 5 .refused))) ∧
    (∀ c : Instr, (c = .armack src d ∨ c = .disack src d) →
      ((∀ e ∈ s.herd.txns, ¬(e.cls = 7 ∧ e.dest = src ∧ e.tag = be 28 4)) → Answers c s (· = s)) ∧
      (∀ e o, s.herd.txns = [e] → e.cls = 7 → e.dest = src → e.tag = be 28 4 → e.pos = 0 → (s.cs e.sess).answers = [none] →
        (s.cs e.sess).waitOp = some o.id → s.op o.id = some o → o.out = none → Answers c s fun u =>
          OpEnded u o.id (if be 1 1 = 0 then o.okSt else .lost) [BitVec.ofNat 8 (be 1 1)] ∧ OpsKept s u o.id ∧ MemKept s u ∧
          u.herd = { s.herd with txns := [] } ∧ RegsKept s u [Reg.herdTxnStat, ev] ∧
          u.rb ev 5 = (s.rb ev 5 || decide (be 1 1 ≠ 0)) ∧ u.cs e.sess = { s.cs e.sess with waitOp := none, answers := [] } ∧
          ∀ k, k ≠ e.sess → u.cs k = s.cs k)) ∧
    (let aims (n : Nat) : Prop := n < 16 ∧ s.rf (Reg.captSHerdAct n) 15 0 = be 2 2 ∧ (s.rget (Reg.captSArmno n)).toNat = be 4 4 ∧
       (s.csState n = 2 ∨ s.csState n = 3)
     ((∀ n, ¬aims n) → Answers (.fire src d) s fun u => u = { s with regs := u.regs } ∧ RegsKept s u [Reg.captHerderr, ev] ∧
       (u.rget Reg.captHerderr).toNat = min ((s.rget Reg.captHerderr).toNat + 1) (2 ^ 32 - 1) ∧ u.rb ev 4 = true) ∧
     (∀ n p, aims n → (∀ k, k < n → ¬aims k) → s.csState n = 3 → s.csStream n = false → (s.cs n).placed = true →
       (s.cs n).primary = some p → p.t < be 8 8 * 2 ^ 16 + be 16 2 → (s.cs n).held = false → s.csRoom n 2 = true →
       Answers (.fire src d) s fun u => MemKept s u ∧ u.sp = s.sp ∧ RegsKept s u [ev, Reg.captStat] ∧ u.rb ev 1 = true ∧
         u.rb ev 3 = true ∧ (∀ k, k ≠ n → u.cs k = s.cs k) ∧ u.cs n = { s.cs n with
           queue := (s.cs n).queue ++ [
             ⟨3 * 2 ^ 28 + 2 ^ 25 + be 18 1 % 64 * 2 ^ 18 + src, be 8 8 % 2 ^ 32, be 8 8 / 2 ^ 32, 0⟩,
             ⟨4 * 2 ^ 28 + be 16 2, be 20 8 % 2 ^ 32, be 20 8 / 2 ^ 32, 0⟩] }))

/-- The safety cycle, what takes torque away, connections, the parameter set and the mailbox. After a SAFETY_CYCLE
with Chamois on and no load pending: the timer and count advance; the pads drive what the last cycle computed, nothing
when a channel is off; an internal fault puts everything off; demand of each group is what its sources say; torque is
permitted next exactly where a valid set, a function and no lock or removal permit it, and never for an STO function
in demand. Watchdog, supply, clock and image events, off-pulses, heartbeat loss, the connection watchdog, loads of the
set, SPDU delivery, fetch and STATUS, and the entry of SAFE_HOLD act as their rules say. An SPDU is 24 bytes and is
accepted by its consumer unless its sequence is not newer. (R482, R483, R484, R493, R495, R500, R503, R504, R509,
R511, R512, 13_chamois.md) -/
def Obligations.ChamoisSafety : Prop :=
  ∀ (s : State), s.Inv →
    let t := s.chm
    let ev := Reg.chmEvstat
    let sto := [Reg.chmSoStat, Reg.chmAxStoLo, Reg.chmAxStoHi]
    let rep := [ev, Reg.chmFault, Reg.chmFaultCyc, Reg.bhrLogLost]
    let locks := [Reg.chmAxLockLo, Reg.chmAxLockHi, Reg.chmSoStat]
    let kept (l : List Nat) (u : State) : Prop := RegsKept s u l ∧ MemKept s u ∧ u.sp = s.sp
    let only (l : List Nat) (u : State) : Prop := u = { s with regs := u.regs } ∧ RegsKept s u l
    let dark (u : State) : Prop := u.chm.torque = 0 ∧ u.rget64 Reg.chmAxStoLo Reg.chmAxStoHi = 2 ^ 48 - 1 ∧ u.rf Reg.chmSoStat 7 0 = 0
    let reported (typ obj flag : Nat) (u : State) : Prop := (u.rget Reg.chmFault).toNat = typ * 2 ^ 24 + obj * 2 ^ 16 ∧
      u.rget Reg.chmFaultCyc = s.rget Reg.chmCycle ∧ u.rb ev flag = true
    let internal (typ : Nat) (u : State) : Prop := dark u ∧ u.chm.offA = true ∧ u.chm.offB = true ∧ u.chmInternal = true ∧
      reported typ 0 3 u ∧ kept (sto ++ rep ++ [Reg.chmStat]) u
    let off (b : Bool) (u : State) : Prop := dark u ∧ u.chm.offA = (t.offA || !b) ∧ u.chm.offB = (t.offB || b)
    (∀ i : SafeSample, (t.on = false → Answers (.safetyCycle i) s (· = s)) ∧
      (t.on = true → t.load = none → Answers (.safetyCycle i) s fun u => MemKept s u ∧
        (u.rget Reg.chmCycle).toNat = ((s.rget Reg.chmCycle).toNat + 1) % 2 ^ 32 ∧ u.chm.clk = t.clk + s.tCyc ∧
        (i.internal < 0x20 ∨ 0x27 < i.internal → u.chm.offA = t.offA ∧ u.chm.offB = t.offB ∧
          u.chm.torque = (if t.offA || t.offB then 0 else t.nextT) ∧
          u.rf Reg.chmSoStat 7 0 = (if t.offA || t.offB then 0 else t.nextS % 256) ∧
          u.rget64 Reg.chmAxStoLo Reg.chmAxStoHi = 2 ^ 48 - 1 - u.chm.torque % 2 ^ 48) ∧
        (0x20 ≤ i.internal → i.internal ≤ 0x27 → s.chmInternal = false → dark u ∧ u.chm.offA = true ∧ u.chm.offB = true ∧
          u.chmInternal = true) ∧
        (∀ j, j < 32 → u.inDemand j = u.groupDemand j) ∧
        (∀ n, n < 48 → bit u.chm.nextT n = (u.spsValid && u.spsAx n 0 1 != 0 && !(u.chmAx n).removed && !(u.chmAx n).lock.locked)) ∧
        (∀ n, n < 48 → u.spsAx n 0 1 = 1 → u.inDemand (u.spsAx n 1 1) = true → bit u.chm.nextT n = false) ∧
        (∀ k, k < 8 → bit u.chm.nextS k = (u.spsValid && u.spsOut k 0 1 == 1 && !u.inDemand (u.spsOut k 1 1) &&
          !(u.chmOut k).lock.locked && u.rb Reg.chmSoReq k)))) ∧
    (∀ b, (t.on = false → Answers (.chamoisWatchdogExpiry b) s (· = s)) ∧
      (t.on = true → Answers (.chamoisWatchdogExpiry b) s fun u => off b u ∧ kept sto u) ∧
      (t.on = false → Answers (.safeIslandUndervolt b) s fun u => off b u ∧ kept sto u) ∧
      (t.on = true → s.chmInternal = true → Answers (.safeIslandUndervolt b) s fun u => off b u ∧ kept sto u) ∧
      (t.on = true → s.chmInternal = false → Answers (.safeIslandUndervolt b) s (internal 0x25))) ∧
    (∀ hz lenA lenB absent,
      let bad : Prop := absent = true ∨ hz < 47500000 ∨ 52500000 < hz ∨ max lenA lenB < (max lenA lenB - min lenA lenB) * 200
      let may : Prop := t.on = true ∧ s.chmInternal = false ∧ bad
      (¬may → Answers (.chamoisFreqWindow hz lenA lenB absent) s (· = s)) ∧
      (may → Answers (.chamoisFreqWindow hz lenA lenB absent) s (internal 0x24))) ∧
    (∀ good, ((good = true ∨ t.on = false ∨ s.chmInternal = true) → Answers (.imageCrcCheck good) s (· = s)) ∧
      (good = false → t.on = true → s.chmInternal = false → Answers (.imageCrcCheck good) s (internal 0x27))) ∧
    (let out : Prop := t.on = true ∧ s.rb Reg.chmStat 29 = false ∧ usCyc 100000 ≤ s.cyc - t.hbAt
     (¬out → Answers .heartbeatLoss s (· = s)) ∧
     (out → Answers .heartbeatLoss s fun u => only [Reg.chmStat, ev] u ∧ u.rb Reg.chmStat 29 = true ∧ u.rb ev 12 = true ∧
       ∀ k, k ≠ 29 → u.rb Reg.chmStat k = s.rb Reg.chmStat k)) ∧
    (∀ k (b low : Bool),
      let now := s.chmNow
      let test := s.sps 14 2 * 1000000
      let due (mine other : Option Nat) : Prop := (∀ p, mine = some p → p + test ≤ now) ∧ (∀ p, other = some p → p + test / 2 ≤ now)
      let x := s.chmOut k
      let y := s.chmAx k
      let mayO : Prop := t.on = true ∧ s.spsValid = true ∧ k < 8 ∧ bit (s.spsOut k 2 1) 1 = true ∧ s.sps 12 2 ≠ 0 ∧
        s.rb Reg.chmSoStat k = true ∧ (if b then due x.pulseB x.pulseA else due x.pulseA x.pulseB)
      let mayA : Prop := t.on = true ∧ s.spsValid = true ∧ k < 48 ∧ bit (s.spsAx k 2 1) 2 = true ∧ s.sps 10 2 ≠ 0 ∧
        bit t.torque k = true ∧ (if b then due y.pulseB y.pulseA else due y.pulseA y.pulseB)
      let x' : ChmOut := if b then { x with pulseB := some now } else { x with pulseA := some now }
      let y' : ChmAx := if b then { y with pulseEnd := some (now + s.sps 10 2), pulseB := some now }
        else { y with pulseEnd := some (now + s.sps 10 2), pulseA := some now }
      (¬mayO → Answers (.offPulse true k b low) s (· = s)) ∧ (¬mayA → Answers (.offPulse false k b low) s (· = s)) ∧
      (mayO → low = true → Answers (.offPulse true k b low) s fun u => kept locks u ∧ u.chmOut k = x') ∧
      (mayA → low = true → Answers (.offPulse false k b low) s fun u => kept locks u ∧ u.chmAx k = y') ∧
      (mayO → low = false → bit x.lock.faults 3 = false → Answers (.offPulse true k b low) s fun u => kept (locks ++ rep) u ∧
        reported 3 k 2 u ∧ (u.chmOut k).lock.fault = true ∧ bit u.chm.nextS k = false) ∧
      (mayA → low = false → bit y.lock.faults 5 = false → Answers (.offPulse false k b low) s fun u => kept (locks ++ rep) u ∧
        reported 5 k 2 u ∧ (u.chmAx k).lock.fault = true ∧ bit u.chm.nextT k = false)) ∧
    (∀ c, let x := s.chmConn c
      let out : Prop := t.on = true ∧ c < 16 ∧ x.valid = true ∧ s.spsConn c 16 4 < s.chmNow - x.lastAt
      (¬out → Answers (.connectionWatchdog c) s (· = s)) ∧
      (out → Answers (.connectionWatchdog c) s fun u => kept [Reg.chmConn, ev] u ∧ u.chmConn c = { x with valid := false } ∧
        u.rb Reg.chmConn (16 + c) = false ∧ u.rb ev 7 = true)) ∧
    (∀ v : Word, Answers (.chmSwWrite v) s (fun u => only [Reg.chmSw] u ∧ (u.rget Reg.chmSw).toNat = v.toNat % 256) ∧
      Answers (.chmSoReqWrite v) s fun u => only [Reg.chmSoReq] u ∧ (u.rget Reg.chmSoReq).toNat = v.toNat % 256) ∧
    (let l := s.staged
     let fits (crc : Nat) : Prop := spsCrc l = recNat l 0xD40 4 ∧ spsCrc l = crc
     let crc := (s.rget Reg.chmSpsCrc).toNat
     let turned (st : Status) (u : State) : Prop := only [ev, Reg.chmSpsCmd] u ∧ u.rb ev 10 = true ∧ u.rf Reg.chmSpsCmd 31 24 = st.code
     (s.node ≠ .test → Answers (.chmSpsload none) s (turned .refused)) ∧
     (s.node = .test → t.load ≠ none → Answers (.chmSpsload none) s (turned .busy)) ∧
     (s.node = .test → t.load = none → ¬fits crc → Answers (.chmSpsload none) s (turned .cfgerr)) ∧
     (s.node = .test → t.load = none → fits crc → spsRange l = none → Answers (.chmSpsload none) s fun u =>
       kept [Reg.chmSpsCmd] u ∧ u.rb Reg.chmSpsCmd 16 = true ∧ u.chm = { t with load := some none }) ∧
     ∀ o : Op, OpMay s o 11 1 →
       (s.node ≠ .test → Answers (.chmSpsload (some o.id)) s fun u => OpEnded u o.id .refused [] ∧ OpsKept s u o.id ∧
         RegsKept s u [ev] ∧ u.rb ev 10 = true ∧ u.chm = t) ∧
       (∀ off, s.node = .test → t.load = none → fits (recNat o.payload 0 4) → spsRange l = some off → off < 2 ^ 12 →
         Answers (.chmSpsload (some o.id)) s fun u => OpEnded u o.id .cfgerr [] ∧ OpsKept s u o.id ∧ u.chm = t ∧
           RegsKept s u [ev, Reg.chmSpsPos] ∧ u.rb ev 10 = true ∧ (u.rget Reg.chmSpsPos).toNat = off) ∧
       (s.node = .test → t.load = none → fits (recNat o.payload 0 4) → spsRange l = none →
         Answers (.chmSpsload (some o.id)) s fun u => u.op o.id = some { o with acted := true, actedAt := s.now } ∧ OpsKept s u o.id ∧
           RegsKept s u [Reg.chmSpsCmd] ∧ u.chm = { t with load := some (some o.id) })) ∧
    (∀ o : Op, let c := o.obj
      let x := s.chmConn c
      let refused (st : Status) (u : State) : Prop := OpEnded u o.id st [] ∧ OpsKept s u o.id ∧ RegsKept s u [ev] ∧ MemKept s u ∧
        u.rb ev 10 = true ∧ u.chm = t
      let peer (role : Nat) : Prop := s.spsValid = true ∧ s.spsConn c 0 1 = role ∧ s.spsConn c 1 1 ≠ 0
      (OpMay s o 11 2 →
        (¬peer 2 → Answers (.chmDeliver o.id) s (refused .refused)) ∧
        (peer 2 → 4 ≤ x.waiting.length → Answers (.chmDeliver o.id) s (refused .overload)) ∧
        (peer 2 → x.waiting.length < 4 → Answers (.chmDeliver o.id) s fun u => OnlyOp s u o.id ∧
          u.op o.id = some { o with acted := true, actedAt := s.now } ∧
          u.chmConn c = { x with waiting := x.waiting ++ [(o.payload.take 24, some o.id)] })) ∧
      (OpMay s o 11 3 →
        (¬peer 1 → Answers (.chmFetch o.id) s (refused .refused)) ∧
        (peer 1 → x.spdu = none → Answers (.chmFetch o.id) s fun u => OnlyOp s u o.id ∧ u.chm = t ∧ OpEnded u o.id .empty []) ∧
        (∀ d, peer 1 → x.spdu = some d → Answers (.chmFetch o.id) s fun u => OnlyOp s u o.id ∧ OpEnded u o.id o.okSt d ∧
          u.chmConn c = { x with spdu := none })) ∧
      (OpMay s o 11 4 → Answers (.chmStatus o.id) s fun u => OnlyOp s u o.id ∧ u.chm = t ∧ OpEnded u o.id o.okSt
        (wordsLE ([Reg.chmStat, Reg.chmSiStat, Reg.chmGrp, Reg.chmSoStat, Reg.chmAxStoLo, Reg.chmAxStoHi, Reg.chmAxLockLo,
          Reg.chmAxLockHi, Reg.chmConn, Reg.chmFault, Reg.chmFaultCyc, Reg.chmCycle].map fun r => (s.rget r).toNat)))) ∧
    (∀ c q, q < 2 ^ 32 → let d := s.spduOf c q
      d.length = 24 ∧ ofBytesBE (d.take 2) = s.spsConn c 2 2 ∧ ofBytesBE ((d.drop 4).take 4) = q ∧
      ofBytesBE (d.drop 20) = crc32c (s.spsConn c 4 4) (d.take 20) ∧
      (s.spsConn c 12 4 = 0 → ((s.chmConn c).lastSeq = none → s.spduCause c d = none) ∧
        ∀ p, (s.chmConn c).lastSeq = some p → p < 2 ^ 32 →
          let k := (q + 2 ^ 32 - p) % 2 ^ 32
          s.spduCause c d = if 0 < k ∧ k < 2 ^ 31 then none else some 0x11)) ∧
    (let may : Prop := (s.chmInternal = true ∨ s.bhr.holdReq = true) ∧ s.node ≠ .safeHold ∧ s.inReset = false
     (¬may → Answers .safeHoldEntry s (· = s)) ∧
     (may → Answers .safeHoldEntry s fun u => u.node = .safeHold ∧ u.bhr.holdReq = false ∧
       (t.on = true → dark u ∧ u.chm.offA = true ∧ u.chm.offB = true)))

/-- Epochs and ranks, frames, the cycle boundary, timers and operations of a redundancy group. A takeover epoch is
newer than every epoch known and carries the member's index; ranks are distinct and the home member's is 0. A taken
frame marks its cycle. A frame that is not the group's or a member's changes nothing; HEALTH keeps word and epochs; a
newer epoch supersedes an ACTIVE member; a stale frame changes nothing. With one duty, no swap and fresh health, the
boundary counts a miss, takes over at miss_max plus the rank, ends a yield, or demotes a superseded member. Masks and
the swap timer expire at their times. YIELD, SWAP and STATUS are refused or act. (R524, R526, R529, R530, R534, R535,
R536, R537, R540, R541, R543, 14_redundancy.md) -/
def Obligations.RedundantGroup : Prop :=
  (∀ e i, e < 2 ^ 32 → i < 8 → takeoverEpoch e i % 8 = i ∧ newerEpoch (takeoverEpoch e i) e = true) ∧
  (∀ a b, a < 2 ^ 32 → b < 2 ^ 32 → newerEpoch a b = true → newerEpoch b a = false) ∧
  ∀ (s : State) (d : Nat), s.Inv → d < 7 →
    let x := s.redRun d
    let n := s.cycNo
    let self := s.redSelf
    let ev := Reg.redEvstat
    let role := s.redRole d
    let kept (l : List Nat) (u : State) : Prop := RegsKept s u l ∧ MemKept s u ∧ u.sp = s.sp
    let one (y : RedRun) (u : State) : Prop := u.redRun d = y ∧ ∀ k, k ≠ d → u.redRun k = s.redRun k
    (∀ a b, a < s.redMem → b < s.redMem → s.redRank d a = s.redRank d b → a = b) ∧
    (s.redRank d ((s.redDuty d).home % s.redMem) = 0) ∧
    (∀ flow kind k epoch word cycle, flow < 2 ^ 16 → kind < 16 →
      let h := s.redHead flow kind d k epoch word cycle
      let be (o m : Nat) : Nat := ofBytesBE ((h.drop o).take m)
      h.length = 24 ∧ be 0 2 = flow ∧ be 2 2 = s.rf Reg.redCfgAct 15 0 ∧ be 4 1 = 16 * kind + self ∧ be 5 1 = d ∧
      be 6 2 = k % 2 ^ 16 ∧ be 8 4 = epoch % 2 ^ 32 ∧ be 12 4 = word % 2 ^ 32 ∧ be 16 8 = cycle % 2 ^ 64) ∧
    (let goes : Prop := s.redOn = true ∧ s.cycOn = true ∧ role = 4 ∧ x.taken ≠ some n ∧ s.redTakeTime (s.redDuty d).flow = true
     (¬goes → Answers (.redStateTake (some d)) s (· = s)) ∧
     (goes → Answers (.redStateTake (some d)) s fun u => MemKept s u ∧ u.sp = s.sp ∧ (u.redRun d).taken = some n ∧
       (u.redRun d).takeover = false ∧ (u.redRun d).mine = x.mine ∧ ∀ k, k ≠ d → u.redRun k = s.redRun k)) ∧
    (let goes : Prop := s.redOn = true ∧ s.cycOn = true ∧ s.red.healthTaken ≠ some n ∧
       s.redTakeTime (s.rf Reg.redCfg2Act 11 0 + self) = true
     (¬goes → Answers (.redStateTake none) s (· = s)) ∧
     (goes → Answers (.redStateTake none) s fun u => MemKept s u ∧ u.sp = s.sp ∧ u.red = { s.red with healthTaken := some n })) ∧
    (∀ (src : Nat) (p : List Byte),
      let be (o k : Nat) : Nat := ofBytesBE ((p.drop o).take k)
      let m := be 4 1 % 8
      let kind := be 4 1 / 16
      let e := be 8 4
      let known := (s.rget (Reg.redDEpoch d)).toNat
      let best := if e ≠ 0 ∧ (known = 0 ∨ newerEpoch e known = true) then e else known
      let ours : Prop := s.redOn = true ∧ be 2 2 = s.rf Reg.redCfgAct 15 0 ∧ m < s.redMem ∧ m ≠ self ∧
        s.rf (Reg.redMemberAct m) 15 0 = src ∧ 24 ≤ p.length
      let health : Prop := kind = 4 ∧ be 0 2 % 4096 = s.rf Reg.redCfg2Act 11 0 + m ∧ 52 ≤ p.length
      let state : Prop := kind < 4 ∧ be 5 1 < s.red.duties.length ∧ be 0 2 % 4096 = (s.redDuty (be 5 1)).flow
      (¬(ours ∧ (health ∨ state)) → Answers (.redFrameReceive src p) s (· = s)) ∧
      (ours → health → s.red.duties.length ≤ 7 → s.red.swapAt = none → Answers (.redFrameReceive src p) s fun u =>
        kept (Reg.redHealth m :: ev :: (List.range 7).map Reg.redDEpoch) u ∧ tget none m u.red.healthAt = some n ∧
        (u.rget (Reg.redHealth m)).toNat = be 12 4 ||| 2 ^ 31 ∧
        u.rb ev 7 = (s.rb ev 7 || decide ((s.rget (Reg.redHealth m)).toNat ≠ be 12 4 ||| 2 ^ 31)) ∧
        (d < s.red.duties.length → let f := be (24 + 4 * d) 4
          (u.rget (Reg.redDEpoch d)).toNat = (if f ≠ 0 ∧ (known = 0 ∨ newerEpoch f known = true) then f else known) ∧
          (u.redRun d).superseded = (x.superseded || (role == 4 && newerEpoch f x.mine)))) ∧
      (ours → state → be 5 1 = d →
        (role = 4 → newerEpoch e x.mine = false → Answers (.redFrameReceive src p) s (· = s)) ∧
        (role = 4 → newerEpoch e x.mine = true → x.yieldOps = [] → Answers (.redFrameReceive src p) s fun u =>
          kept [Reg.redDEpoch d] u ∧ (u.rget (Reg.redDEpoch d)).toNat = best ∧
          one { x with superseded := true, follow := e, heard := true } u) ∧
        (role ≠ 4 → x.ever = true → newerEpoch e x.follow = false → e ≠ x.follow → Answers (.redFrameReceive src p) s (· = s)) ∧
        ((role = 1 ∨ role = 3) → x.ever = true → newerEpoch e x.follow = true → x.yieldOps = [] → kind < 3 → be 6 2 = 0 →
          (∃ c, bit (s.redDuty d).ctxMask c = true ∧ c < 256 ∧ bit x.joined c = false) → Answers (.redFrameReceive src p) s fun u =>
            kept [Reg.redDEpoch d, Reg.redStat] u ∧ (u.rget (Reg.redDEpoch d)).toNat = best ∧
            u.redRole d = (if role = 1 then 2 else 3) ∧
            one { x with
              follow := e, heard := true, misses := 0
              yieldAt := if kind = 2 then some (be 16 8) else none } u))) ∧
    (let u := ((Run.start s).redCycle).s
     let fresh : Prop := ∀ m, m < s.redMem → m ≠ self → ∃ k, tget none m s.red.healthAt = some k ∧ n ≤ k + s.missMax
     let p := s.redPos 0
     let misses := if x.heard then 0 else x.misses + 1
     let e := takeoverEpoch (s.rget (Reg.redDEpoch 0)).toNat self
     let takes : Prop := s.missMax + p ≤ misses ∨ ∃ b, x.yieldAt = some b ∧ b + 1 + p ≤ n
     (s.redOn = false → u = { s with red := { s.red with memErr := false } }) ∧
     (s.redOn = true → fresh → s.red.listen = 0 → s.red.swapAt = none → s.red.swapAck = none → s.red.duties.length = 1 → d = 0 →
       MemKept s u ∧ u.sp = s.sp ∧ u.red.memErr = false ∧
       ((role = 2 ∨ role = 3) → s.redEligible 0 self = false → RegsKept s u [] ∧ one { x with heard := false, misses := 0 } u) ∧
       ((role = 2 ∨ role = 3) → s.redEligible 0 self = true → ¬takes → RegsKept s u [ev, Reg.redCnt] ∧
         one { x with heard := false, misses := misses } u ∧ (misses = 1 → u.rb ev 3 = true)) ∧
       ((role = 2 ∨ role = 3) → s.redEligible 0 self = true → takes → u.redRole 0 = 4 ∧ (u.redRun 0).mine = e ∧
         (u.redRun 0).follow = e ∧ (u.redRun 0).takeover = true ∧ u.rb ev 0 = true ∧
         (e ≠ 0 → (u.rget (Reg.redDEpoch 0)).toNat = e)) ∧
       (role = 4 → x.superseded = true → u.redRole 0 = 3 ∧ u.rb ev 2 = true ∧ (u.redRun 0).superseded = false) ∧
       (∀ b, role = 4 → x.superseded = false → x.yielding = some b → b < n → u.redRole 0 = 3 ∧ u.rb ev 1 = true) ∧
       (role = 4 → x.superseded = false → x.yielding = none → (s.redDiag ≠ 0 ∨ x.yieldReq = true) →
         (s.redCandidate 0 = true → RegsKept s u [] ∧ one { x with yielding := some n } u) ∧
         (s.redCandidate 0 = false → one x u ∧ RegsKept s u [ev] ∧ (s.redDiag ≠ 0 → u.rb ev 4 = true))))) ∧
    ((∀ t, x.divAt = some t → s.cyc < t + 800000000) → Answers (.divergeMaskExpiry d) s (· = s)) ∧
    (∀ t, x.divAt = some t → t + 800000000 ≤ s.cyc → Answers (.divergeMaskExpiry d) s fun u => kept [] u ∧
      one { x with divAt := none } u) ∧
    (let h := s.rf Reg.redCfg2Act 31 24
     let due : Prop := s.redOn = true ∧ s.redGroup = false ∧ s.redRole 0 = 4 ∧ h ≠ 0 ∧ s.red.retryAt = none ∧
       s.red.roleAt + h * 3600 * 800000000 ≤ s.cyc ∧ s.red.swapAt = none
     (¬due → Answers .redSwapTimer s (· = s)) ∧
     (due → Answers .redSwapTimer s (· = { s with red := { s.red with swapAt := some (n + 8), acked := false } }))) ∧
    (∀ o : Op,
      let refused (u : State) : Prop := OpEnded u o.id .refused [] ∧ OpsKept s u o.id ∧ RegsKept s u [ev] ∧ MemKept s u ∧
        u.rb ev 9 = true ∧ u.red = s.red
      let runs (u : State) : Prop := u.op o.id = some { o with acted := true, actedAt := s.now } ∧ OnlyOp s u o.id
      (OpMay s o 14 2 → o.obj = d →
        let may : Prop := s.redOn = true ∧ role = 4 ∧ d < s.red.duties.length ∧ s.redCandidate d = true
        (¬may → Answers (.redYield o.id) s refused) ∧
        (may → Answers (.redYield o.id) s fun u => runs u ∧ one { x with yieldReq := true, yieldOps := x.yieldOps ++ [o.id] } u)) ∧
      (OpMay s o 14 3 →
        let may : Prop := s.redOn = true ∧ s.redGroup = false ∧ s.redRole 0 = 4
        (¬may → Answers (.redSwap o.id) s refused) ∧
        (may → s.red.swapAt = none → Answers (.redSwap o.id) s fun u => runs u ∧
          u.red = { s.red with swapAt := some (n + 8), acked := false, swapOps := s.red.swapOps ++ [o.id] })) ∧
      (OpMay s o 14 4 → Answers (.redStatus o.id) s fun u => OnlyOp s u o.id ∧ u.red = s.red ∧ OpEnded u o.id o.okSt
        (wordsLE (([Reg.redStat] ++ (List.range 7).map Reg.redDEpoch ++ (List.range 8).map Reg.redHealth ++ [Reg.redCnt]).map
          fun r => (s.rget r).toNat))))

/-- The places of memory, the scrubber, the host and its link, the DMA engine and the event controller. A byte of
general SRAM lies behind the port of its bank. No two offsets of a populated DDR4 share a place in the devices, and
the 128-byte blocks of one aligned 512 bytes lie in different bank groups. Over general SRAM a scrubbed word is left,
corrected and counted, or reported. A host read or write of SRAM answers or stores its bytes; an unmapped one is
counted; one that no BAR takes, or with the link down, does nothing. Link, PERSTN and configuration space act as R566,
R574 and R622 say. A write of go adds an operation or is refused; COPY and FILL are checked and start; a burst moves
its bytes and no others, and the last one ends the operation. A vector whose level rises is requested once; EOI
requests it again while its level is 1; a requested or pending vector sends its message when it may, else its pending
bit is set. (R28, R559, R563, R564, R565, R566, R567, R568, R569, R573, R574, R622) -/
def Obligations.HostDmaAndEvents : Prop :=
  (∀ a, a < 0x2000000 → sramBank a < 16 ∧ targetPort a = some (10 + sramBank a / 8) ∧ sramBank (a / 256 * 256) = sramBank a) ∧
  (∀ (n : Nat) (two : Bool) (o p : Nat), 15 ≤ n → n ≤ 17 → o < 2 ^ (17 + n + b2n two) → p < 2 ^ (17 + n + b2n two) →
    (ddrLocOf n two o = ddrLocOf n two p → o = p) ∧
    (o / 512 = p / 512 → o / 128 ≠ p / 128 → (ddrLocOf n two o).group ≠ (ddrLocOf n two p).group) ∧
    (ddrLocOf n two o).row < 2 ^ n ∧ (ddrLocOf n two o).group < 4 ∧ (ddrLocOf n two o).bank < 4 ∧ (ddrLocOf n two o).column < 2 ^ 10) ∧
  ∀ (s : State), s.Inv →
    let ev := Reg.meshEvstat
    let stat := Reg.meshPcieStat
    let regs (l : List Nat) (u : State) : Prop := u = { s with regs := u.regs } ∧ RegsKept s u l
    let clean (a n : Nat) : Prop := 0 < n ∧ a + n ≤ 0x2000000 ∧ s.eccIn a n = []
    (∀ w, w * 8 < 0x2000000 →
      ((∀ e ∈ s.ecc, e.1 ≠ w) → Answers (.scrubRead w) s (· = s)) ∧
      (s.ecc = [(w, .single)] → Answers (.scrubRead w) s fun u => u.ecc = [] ∧ MemKept s u ∧ u.rb ev 1 = true ∧
        (u.rget Reg.meshEccCnt).toNat = min ((s.rget Reg.meshEccCnt).toNat + 1) 0xFFFFFFFF ∧ RegsKept s u [ev, Reg.meshEccCnt]) ∧
      (s.ecc = [(w, .double)] → Answers (.scrubRead w) s fun u => u.ecc = s.ecc ∧ MemKept s u ∧ u.rb ev 2 = true ∧
        (u.rget Reg.meshEccLo).toNat = w * 8 ∧ u.rb Reg.meshEccHi 31 = true ∧
        RegsKept s u [ev, Reg.meshEccLo, Reg.meshEccHi])) ∧
    (∀ bar off n, (s.barAddr bar off = none ∨ s.linkUp = false ∨ n = 0 ∨ 512 < n) → Answers (.hostRead bar off n) s (· = s)) ∧
    (∀ off n, s.linkUp = true → n ≤ 512 → clean off n → Answers (.hostRead 2 off n) s
      (· = { s with resp := ⟨.ok, wordsOf (s.bytes off n)⟩ })) ∧
    (∀ off n, s.linkUp = true → 0 < n → n ≤ 256 - off % 256 → 0x2C00000 ≤ off → off < 0x3000000 →
      Answers (.hostRead 2 off n) s fun u => RegsKept s u [Reg.meshPcieErr, ev, Reg.meshAccLo, Reg.meshAccHi] ∧ MemKept s u ∧
        u.resp = ⟨.fault, []⟩ ∧ u.rb ev 4 = true ∧ u.rb ev 0 = true ∧ (u.rget Reg.meshAccLo).toNat = off ∧
        u.rf Reg.meshPcieErr 15 0 = min (s.rf Reg.meshPcieErr 15 0 + 1) 65535) ∧
    (∀ bar off (d : List Byte), (s.barAddr bar off = none ∨ s.linkUp = false ∨ d = [] ∨ 256 < d.length) →
      Answers (.hostWrite bar off d) s (· = s)) ∧
    (∀ off (d : List Byte), s.linkUp = true → d.length ≤ 256 → clean off d.length → Answers (.hostWrite 2 off d) s fun u =>
      u = { s with mem := u.mem } ∧ u.bytes off d.length = d ∧ MemKeptBut s u off d.length) ∧
    (∀ port a, let may : Prop := 0x1000000000 ≤ a ∧ a < 0x2000000000 ∧ s.memStatus port a 1 false = .ok
      (¬may → Answers (.outboundReadTimeout port a) s (· = s)) ∧
      (may → Answers (.outboundReadTimeout port a) s fun u => RegsKept s u [ev, Reg.meshAccLo, Reg.meshAccHi] ∧ MemKept s u ∧
        u.resp = ⟨.fault, []⟩ ∧ u.rb ev 0 = true ∧ (u.rget Reg.meshAccLo).toNat = a % 2 ^ 32 ∧ u.rf Reg.meshAccHi 7 0 = a / 2 ^ 32)) ∧
    (∀ lanes gen,
      let may : Prop := s.endpointHeld = false ∧ (lanes = 1 ∨ lanes = 2 ∨ lanes = 4) ∧ 1 ≤ gen ∧ gen ≤ 3
      ((¬may ∨ s.linkUp = true) → Answers (.pcieLinkChange true lanes gen) s (· = s)) ∧
      (may → s.linkUp = false → Answers (.pcieLinkChange true lanes gen) s fun u => regs [stat, ev] u ∧ u.linkUp = true ∧
        u.rf stat 18 16 = lanes ∧ u.rf stat 9 8 = gen ∧ u.rb ev 3 = true) ∧
      (s.linkUp = false → Answers (.pcieLinkChange false lanes gen) s (· = s)) ∧
      (s.linkUp = true → Answers (.pcieLinkChange false lanes gen) s fun u => regs [stat, ev] u ∧ u.linkUp = false ∧
        u.rf stat 18 16 = 0 ∧ u.rf stat 9 8 = 0 ∧ u.rb ev 3 = true)) ∧
    Answers (.pciePerst true) s (· = { s with mesh := { s.mesh with perstn := true } }) ∧
    Answers (.pciePerst false) s (fun u => RegsKept s u [stat, ev] ∧ MemKept s u ∧ u.linkUp = false ∧ u.rf stat 1 0 = 0 ∧
      u.mesh = { s.mesh with perstn := false, fnMask := false }) ∧
    (∀ en mask bme, (s.linkUp = false → Answers (.pcieConfigWrite en mask bme) s (· = s)) ∧
      (s.linkUp = true → Answers (.pcieConfigWrite en mask bme) s fun u => RegsKept s u [stat] ∧ MemKept s u ∧ u.rb stat 1 = en ∧
        u.rb stat 0 = bme ∧ u.linkUp = true ∧ u.mesh = { s.mesh with fnMask := mask })) ∧
    (∀ c, c < 8 →
      let idle : Prop := ∀ o ∈ s.sp.ops, ¬(o.unit = 7 ∧ o.obj = c)
      (¬idle → Answers (.dmaGo c) s fun u => regs [ev] u ∧ u.rb ev 7 = true) ∧
      (idle → Answers (.dmaGo c) s fun u => RegsKept s u [] ∧ MemKept s u ∧ u.mesh = s.mesh ∧ u.sp = { s.sp with
        nextOp := s.sp.nextOp + 1
        ops := s.sp.ops ++ [{ id := s.sp.nextOp, tid := 64, k := 0, unit := 7, obj := c,
                              rdesc := s.rget64 (Reg.meshDmaDescLo c) (Reg.meshDmaDescHi c) }] }) ∧
      (∀ (o : Op) (fill : Bool), let code := if fill then 2 else 1
        let row : Instr := if fill then .dmaFill o.id else .dmaCopy o.id
        let e := dmaMove fill o.payload
        let cls := recNat o.payload 20 1 % 4
        let checks := s.dmaChecks [(code, e)]
        let ended (st : Status) (u : State) : Prop := OnlyOp s u o.id ∧ u.mesh = s.mesh ∧ OpEnded u o.id st []
        OpMay s o 7 code → o.obj = c →
          (s.dmaFirst o = false → Answers row s (· = s)) ∧
          (s.dmaFirst o = true →
            (cls = 3 → Answers row s (ended .cfgerr)) ∧
            (∀ st, cls ≠ 3 → checks = some st → Answers row s (ended st)) ∧
            (cls ≠ 3 → checks = none → e.len = 0 → Answers row s (ended .empty)) ∧
            (cls ≠ 3 → checks = none → e.len ≠ 0 → Answers row s fun u => OnlyOp s u o.id ∧ u.op o.id = some { o with acted := true, actedAt := s.now } ∧
              u.dmaRun c = some { op := o.id, chain := false, cls := cls, entries := [e] }))) ∧
      (∀ o : Op, OpMay s o 7 3 → o.obj = c → s.dmaFirst o = true →
        let n := recNat o.payload 8 2
        let cls := recNat o.payload 10 1 % 4
        let a := recNat o.payload 0 8
        let ended (st : Status) (u : State) : Prop := OnlyOp s u o.id ∧ u.mesh = s.mesh ∧ OpEnded u o.id st []
        ((cls = 3 ∨ 256 < n) → Answers (.dmaChain o.id) s (ended .cfgerr)) ∧
        (cls ≠ 3 → n = 0 → Answers (.dmaChain o.id) s (ended .empty)) ∧
        (∀ d, cls ≠ 3 → 0 < n → n ≤ 256 → a < 2 ^ 40 → (Run.start s).memRead 13 a (24 * n) = (Run.start s, .ok, d) →
          s.dmaChecks (dmaList n d) = none → Answers (.dmaChain o.id) s fun u => OnlyOp s u o.id ∧
            u.op o.id = some { o with acted := true, actedAt := s.now } ∧
            u.dmaRun c = some { op := o.id, chain := true, cls := cls, entries := (dmaList n d).map (·.2) })) ∧
      (s.dmaRun c = none → Answers (.dmaBurst c) s (· = s)) ∧
      (∀ x o, s.dmaRun c = some x → s.op x.op = some o → o.id = x.op →
        (x.cancel = true → Answers (.dmaBurst c) s fun u => u.dmaRun c = none ∧ OpEnded u o.id .aborted x.result ∧ OnlyOp s u o.id) ∧
        (∀ e, x.cancel = false → x.entries[x.done]? = some e →
          let n := e.burst x.moved
          let dst := e.dst + x.moved
          let src := e.src + x.moved
          let data := if e.fill then fillBytes e.src dst n else s.bytes src n
          clean dst n → (e.fill = true ∨ clean src n) → Answers (.dmaBurst c) s fun u => RegsKept s u [] ∧ u.bytes dst n = data ∧
            MemKeptBut s u dst n ∧ OpsKept s u o.id ∧
            (x.moved + n < e.len → u.dmaRun c = some { x with moved := x.moved + n }) ∧
            (e.len ≤ x.moved + n → x.done + 1 < x.entries.length → u.dmaRun c = some { x with done := x.done + 1, moved := 0 }) ∧
            (e.len ≤ x.moved + n → x.entries.length ≤ x.done + 1 → u.dmaRun c = none ∧
              OpEnded u o.id o.okSt ({ x with done := x.done + 1, moved := x.moved + n }).result)))) ∧
    (∀ v, v < 128 →
      let asked := s.mesh.requested.filter (· ≠ v)
      let rises : Prop := s.vecLevel v = true ∧ bit s.mesh.seen v = false
      let may : Prop := s.rb stat 1 = true ∧ s.rb stat 0 = true ∧ s.mesh.fnMask = false ∧ s.rb (Reg.evcMsixCtrl v) 0 = false
      let word := Reg.evcPba (v / 32)
      let sent (u : State) : Prop := RegsKept s u [word] ∧ MemKept s u ∧ u.pba v = false ∧
        u.mesh = { s.mesh with
          requested := asked, sent := s.mesh.sent + 1
          lastMsg := some (s.rget64 (Reg.evcMsixLo v) (Reg.evcMsixHi v), (s.rget (Reg.evcMsixData v)).toNat) }
      (¬rises → Answers (.eventLevelRise v) s (· = s)) ∧
      (rises → Answers (.eventLevelRise v) s (· = { s with mesh := { s.mesh with
        seen := putBits s.mesh.seen v v 1, requested := asked ++ [v] } })) ∧
      (∀ w : Word, w.toNat % 128 = v → (s.vecLevel v = false → Answers (.evcEoiWrite w) s (· = s)) ∧
        (s.vecLevel v = true → Answers (.evcEoiWrite w) s (· = { s with mesh := { s.mesh with requested := asked ++ [v] } }))) ∧
      (v ∈ s.mesh.requested → may → Answers (.msixSend v) s sent) ∧
      (v ∈ s.mesh.requested → ¬may → Answers (.msixSend v) s fun u => RegsKept s u [word] ∧ u.pba v = true ∧
        u.mesh = { s.mesh with requested := asked }) ∧
      (v ∉ s.mesh.requested → s.pba v = true → may → s.vecLevel v = true → Answers (.msixSend v) s sent) ∧
      (v ∉ s.mesh.requested → (s.pba v = false ∨ ¬may ∨ s.vecLevel v = false) → Answers (.msixSend v) s (· = s)))

/-- Sensors, records, boot and load, and the commands of the BHR unit by operation or by the host. A sensor reading is
kept and its fault entered after its filter time; a queued record goes to its slot and a record is 64 bytes; BOOT
without a valid slot ends in RECOVERY under Fawn; LOAD ends in START; START times out; a nonce expires; the heartbeat
is sent every 10 ms. The commands end for an operation with its record, for the host with BHR_CMD and the mailbox:
STATUS, SENSORS, LOGREAD, LOGWRITE, CHALLENGE, AUTH, CALREAD, CALWRITE, SVBUMP, KEYPROG, STATE and ACTIVATE answer or
refuse as R608 says; CALREAD of a set that cannot be read ends FAULT (log 58), and ACTIVATE met by a flash error
FAULT, FLASH. A second command while one runs is BUSY. (R35, R577, R578, R581, R582, R584, R592, R593, R594, R605,
R608, 16_ibex.md) -/
def Obligations.BharalAtWork : Prop :=
  ∀ (s : State), s.Inv →
    let b := s.bhr
    let ev := Reg.bhrEvstat
    let stat := Reg.bhrStat
    let lostR := Reg.bhrLogLost
    let kept (l : List Nat) (u : State) : Prop := RegsKept s u l ∧ MemKept s u
    (∀ i (x : Int), (s.inReset = true ∨ 25 < i) → Answers (.sensorSample i x) s (· = s)) ∧
    (∀ i (x : Int), s.inReset = false → i ≤ 25 →
      let f := s.sensFault i x
      let q : Sensor := tget {} i b.sensors
      let since := q.faultAt.getD s.cyc
      let enters : Prop := f = true ∧ since + sensFilter i ≤ s.cyc
      let word := if i < 8 then Reg.bhrTemp i else if i < 20 then Reg.bhrVolt (i - 8) else Reg.bhrClk (i - 20)
      Answers (.sensorSample i x) s fun u => MemKept s u ∧ u.sp = s.sp ∧
        RegsKept s u [word, Reg.bhrSensstat, Reg.meshDdrStat, ev, lostR, if i = 25 then stat else ev] ∧
        (u.rget word).toNat = uNat (if i < 20 then 16 else 32) x ∧
        (let y : Sensor := tget {} i u.bhr.sensors
         y.faultAt = (if f = true then some since else none) ∧ (y.fault = true ↔ enters) ∧ (f = true → y.warnAt = none)) ∧
        (enters → q.fault = false → u.rb ev 1 = true ∧ ((i < 13 ∨ i = 20 ∨ i = 21) → u.bhr.holdReq = true) ∧
          (i = 25 → (s.node = .start ∨ s.node = .normal) → u.node = .recovery)) ∧
        (¬enters → u.bhr.holdReq = b.holdReq)) ∧
    (let may : Prop := s.node ≠ .boot ∧ s.inReset = false ∧ s.chm.on = true ∧ s.chm.hbAt + usCyc 10000 ≤ s.cyc
     (¬may → Answers .heartbeatSend s (· = s)) ∧
     (may → Answers .heartbeatSend s fun u => kept [Reg.chmStat] u ∧ u.chm = { s.chm with hbAt := s.cyc } ∧
       u.rb Reg.chmStat 29 = false)) ∧
    (let early : Prop := ∃ t, b.logAt = some t ∧ s.cyc < t + usCyc 1000
     ((b.logQ = [] ∨ s.inReset = true ∨ early) → Answers .logRecordWrite s (· = s)) ∧
     (∀ x rest, b.logQ = x :: rest → s.inReset = false → ¬early → x.who = none → b.logLost = 0 → b.nextSeq < 5120 →
       Answers .logRecordWrite s fun u => kept [ev] u ∧ u.rb ev 2 = true ∧ u.bhr = { b with
         recs := tset none b.nextSeq (some x) b.recs, logQ := rest, nextSeq := b.nextSeq + 1, logAt := some s.cyc })) ∧
    (∀ (x : LogRec) n, (x.bytes n).length = 64 ∧ recNat (x.bytes n) 0 4 = n % 2 ^ 32 ∧
      recNat (x.bytes n) 56 4 = crc32c 0xFFFFFFFF ((x.bytes n).take 56) ∧ recNat (x.bytes n) 60 4 = 0x56414C44) ∧
    ((s.node ≠ .boot ∨ s.inReset = true) → Answers .bootDone s (· = s)) ∧
    (s.node = .boot → s.inReset = false → s.recOk 0 = false → s.recOk 1 = false → Answers .bootDone s fun u =>
      u.node = .recovery ∧ u.fawn = true ∧ MemKept s u ∧ u.sp = s.sp) ∧
    (∀ bad ddr, (s.node ≠ .load ∨ s.inReset = true) → Answers (.loadDone bad ddr) s (· = s)) ∧
    (∀ ddr, s.node = .load → s.inReset = false → Answers (.loadDone false ddr) s fun u => u.node = .start ∧ u.chm.on = true ∧
      u.bhr.startAt = s.cyc) ∧
    (∀ ddr, s.node = .load → s.inReset = false → Answers (.loadDone true ddr) s fun u =>
      u.pwr.coldUntil = some (s.cyc + usCyc 100) ∧ u.bhr.badSlot = some s.bootSlot ∧ (u.rget Reg.rstCause).toNat = 2 ^ 10) ∧
    (let out : Prop := s.node = .start ∧ b.startAt + s.rf Reg.pwrCfg 7 0 * 800000000 ≤ s.cyc
     (¬out → Answers .startTimeout s (· = s)) ∧
     (out → Answers .startTimeout s fun u => kept [stat, lostR] u ∧ u.node = .recovery ∧ u.sp = s.sp)) ∧
    ((∀ n t, b.nonce = some (n, t) → s.cyc < t) → Answers .nonceExpiry s (· = s)) ∧
    (∀ n t, b.nonce = some (n, t) → t ≤ s.cyc → Answers .nonceExpiry s (· = { s with bhr := { b with nonce := none } })) ∧
    (∀ (id : Option Nat) (w : BhrWho) (d : List Byte),
      let asks (code : Nat) : Prop :=
        (∃ o : Op, OpMay s o 12 code ∧ id = some o.id ∧ w = .op o.id ∧ d = o.payload) ∨
        (id = none ∧ w = .host ∧ b.cmd = code ∧ b.running ≠ some .host ∧ d = s.mbx)
      let starts (code : Nat) : Prop := asks code ∧ b.running = none
      let box := Reg.bhrCmd :: (List.range 1024).map Reg.bhrMbx
      let ended (st : Status) (cause : Nat) (res : List Byte) (u : State) : Prop := MemKept s u ∧ match w with
        | .op i => ∃ o, s.op i = some o ∧ OpEnded u i (if st = .ok then o.okSt else st) res ∧ OpsKept s u i
        | .host => u.sp = s.sp ∧ (u.rget Reg.bhrCmd).toNat = st.code * 2 ^ 24 + cause * 2 ^ 16 ∧ u.rb ev 13 = true ∧
          u.bhr.cmd = 0 ∧ ∀ k, k < (res.length + 3) / 4 → (u.rget (Reg.bhrMbx k)).toNat = recNat res (4 * k) 4
      let refused (st : Status) (cause : Nat) (u : State) : Prop := ended st cause [] u ∧ u.rb ev 12 = true ∧
        RegsKept s u (ev :: box) ∧ u.bhr.cal = b.cal ∧ u.bhr.flash = b.flash ∧ u.bhr.otpSv = b.otpSv ∧ u.bhr.keys = b.keys
      let quiet (cause : Nat) (u : State) : Prop := ended .empty cause [] u ∧ RegsKept s u (ev :: box) ∧ u.bhr.flash = b.flash
      let good (l : List Nat) (res : List Byte) (u : State) : Prop := ended .ok 0 res u ∧ RegsKept s u (l ++ ev :: box)
      let reg (a : Nat) : Nat := (s.rget a).toNat
      (∀ p ∈ [(4, Instr.bhrLogwrite id), (5, .bhrChallenge id), (6, .bhrAuth id), (7, .bhrCalread id), (8, .bhrCalwrite id),
          (9, .bhrInstall id), (10, .bhrActivate ⟨id, false⟩), (10, .bhrActivate ⟨id, true⟩), (11, .bhrCampaign id), (12, .bhrClose id), (13, .bhrSvbump id),
          (14, .bhrKeyprog id), (15, .bhrState id)], asks p.1 → b.running ≠ none → Answers p.2 s (refused .busy 0)) ∧
      (asks 1 → Answers (.bhrStatus id) s fun u => ∃ r : List Byte, r.length = 64 ∧ good [] r u ∧ recNat r 0 4 = reg stat ∧
        recNat r 4 4 = reg Reg.bhrBoot ∧ recNat r 12 4 = s.slotSeq 0 % 2 ^ 32 ∧ recNat r 16 4 = s.slotSeq 1 % 2 ^ 32) ∧
      (asks 2 → Answers (.bhrSensors id) s (good [] (wordsLE (((List.range 8).map Reg.bhrTemp ++ (List.range 12).map Reg.bhrVolt ++
        (List.range 6).map Reg.bhrClk ++ [Reg.bhrSensstat]).map reg)))) ∧
      (asks 3 → let n := recNat d 4 2
        (64 < n → Answers (.bhrLogread id) s (refused .cfgerr 0x10)) ∧ (n = 0 → Answers (.bhrLogread id) s (quiet 0)) ∧
        (0 < n → n ≤ 64 → Answers (.bhrLogread id) s (good [] ((List.range n).flatMap fun i =>
          match (tget none (recNat d 0 4 + i) b.recs : Option LogRec) with
          | some x => x.bytes (recNat d 0 4 + i)
          | none => [])))) ∧
      (starts 4 → let kind := recNat d 0 2
        ((kind < 0x100 ∨ 0x1FF < kind) → Answers (.bhrLogwrite id) s (refused .cfgerr 0)) ∧
        (0x100 ≤ kind → kind ≤ 0x1FF → 64 ≤ b.logQ.length → Answers (.bhrLogwrite id) s (refused .overload 0)) ∧
        (0x100 ≤ kind → kind ≤ 0x1FF → b.logQ.length < 64 → Answers (.bhrLogwrite id) s fun u => kept [] u ∧
          u.bhr.running = some w ∧ ∃ x : LogRec, u.bhr.logQ = b.logQ ++ [x] ∧ x.kind = kind ∧ x.sev = 0 ∧ x.who = some w ∧
            x.data = (List.range 8).map fun i => recNat d (8 + 4 * i) 4)) ∧
      (starts 5 → Answers (.bhrChallenge id) s fun u => let n := bytesLE 16 s.freeVal
        good [] (n ++ s.uidBytes) u ∧ u.bhr.nonce = some (n, s.cyc + 600 * 800000000)) ∧
      (starts 6 → let r := s.authOutcome d
        Answers (.bhrAuth id) s fun u => ended r.1 r.2 [] u ∧ u.bhr.nonce = none ∧ (r.1 = .denied → u.rb ev 9 = true) ∧
          (r.1 ≠ .ok → u.bhr.fails = (s.cyc :: b.fails).take 5 ∧ u.rf stat 26 25 = s.rf stat 26 25) ∧
          (r.1 = .ok → recNat d 4 1 = 2 → u.rf stat 26 25 = recNat d 6 1 ∧ u.rb ev 10 = true)) ∧
      (starts 7 → ((∀ e ∈ b.calEcc, e.2 = .single) → Answers (.bhrCalread id) s fun u => good [] (padTo 2048 b.cal) u ∧
          u.bhr.calEcc = [] ∧ u.bhr.eccCount = b.eccCount + b.calEcc.length) ∧
        ((∃ e ∈ b.calEcc, e.2 = .double) → Answers (.bhrCalread id) s fun u => ended .fault 0 [] u ∧ RegsKept s u (ev :: box) ∧
          u.bhr.cal = b.cal)) ∧
      (starts 8 → let set := padTo 2048 (d.drop 8)
        let fits : Prop := s.calCheck set = 0 ∧ recNat set 0x7FC 4 = recNat d 0 4
        (s.node ≠ .test → Answers (.bhrCalwrite id) s (refused .refused 0x18)) ∧
        (s.node = .test → Answers (.bhrCalwrite id) s fun u => (¬fits → refused .cfgerr 0x10 u) ∧
          (fits → good [stat, lostR] [] u ∧ u.bhr.cal = set ∧ u.rb stat 28 = true ∧ u.rb ev 4 = true))) ∧
      (starts 13 → let v := recNat d 0 1
        let low : Prop := recNat (s.slotPkg s.bootSlot 0) 0x1C 1 < v ∨
          (recNat (s.slotRec s.bootSlot) 32 8 ≠ 0 ∧ recNat (s.slotPkg s.bootSlot 1) 0x1C 1 < v)
        (64 < v → Answers (.bhrSvbump id) s (refused .cfgerr 0)) ∧
        (v ≤ 64 → v ≤ b.otpSv → Answers (.bhrSvbump id) s (quiet 0)) ∧
        (v ≤ 64 → b.otpSv < v → low → Answers (.bhrSvbump id) s (refused .refused 0)) ∧
        (v ≤ 64 → b.otpSv < v → ¬low → Answers (.bhrSvbump id) s fun u => good [lostR] [] u ∧ u.bhr.otpSv = v)) ∧
      (starts 14 → let k := recNat d 0 1
        (s.node ≠ .test → Answers (.bhrKeyprog id) s (refused .refused 0x18)) ∧
        (s.node = .test → (k < 4 ∨ 7 < k) → Answers (.bhrKeyprog id) s (refused .cfgerr 0)) ∧
        (s.node = .test → 4 ≤ k → k ≤ 7 → keyEmpty (s.keySlot k) = false → Answers (.bhrKeyprog id) s (refused .refused 0)) ∧
        (s.node = .test → 4 ≤ k → k ≤ 7 → keyEmpty (s.keySlot k) = true → Answers (.bhrKeyprog id) s fun u => good [] [] u ∧
          u.keySlot k = (d.drop 8).take 32 ∧ ∀ j, j ≠ k → u.keySlot j = s.keySlot j)) ∧
      (starts 15 → let n := recNat d 0 1
        let toTest : Prop := n = 1 ∧ (s.node = .normal ∨ (s.node = .recovery ∧ s.fawn = false))
        let toStart : Prop := n = 2 ∧ s.rf stat 26 25 = 0 ∧
          (s.node = .test ∨ (s.node = .recovery ∧ s.fawn = false ∧ s.causeRemoved = true))
        (¬toTest → ¬toStart → Answers (.bhrState id) s (refused .refused 0x18)) ∧
        (toTest → Answers (.bhrState id) s fun u => good [stat, lostR] [] u ∧ u.node = .test) ∧
        (toStart → Answers (.bhrState id) s fun u => ended .ok 0 [] u ∧ u.node = .start ∧ u.bhr.startAt = s.cyc)) ∧
      (starts 10 → let k := recNat d 0 1
        (1 < k → Answers (.bhrActivate ⟨id, false⟩) s (refused .cfgerr 0)) ∧
        (k ≤ 1 → s.slotOk k = true → s.preferred ≠ k → Answers (.bhrActivate ⟨id, true⟩) s fun u => ended .fault 0x19 [] u ∧
          RegsKept s u (ev :: box) ∧ u.bhr.flash = b.flash ∧ u.bhr.trials = b.trials) ∧
        (k ≤ 1 → Answers (.bhrActivate ⟨id, false⟩) s fun u =>
          (s.slotOk k = false → refused .refused 0 u) ∧ (s.slotOk k = true → s.preferred = k → quiet 0 u) ∧
          (s.slotOk k = true → s.preferred ≠ k → good [] [] u ∧ tget 0 k u.bhr.trials = 0 ∧ tget false k u.bhr.confirmed = false ∧
            recNat (u.slotRec k) 4 4 = (s.slotSeq (1 - k) + 1) % 2 ^ 32 ∧ u.recOk k = true))))

/-- Update campaigns between the nodes, INSTALL and CAMPAIGN. ANNOUNCE is adopted by a node without a campaign. An
OFFER is answered; accepted, a receive session begins and the slot's record is erased. DATA in order is written and
acknowledged. ANSWER 0 opens the window, sent up to 32,000 bytes; BUSY puts the neighbour off for 10 s. ACK moves the
window; its timeout sends again. A session without DATA for 1 s ends. The whole bundle is checked, or a flash error
ends it. DONE ends a transfer. REPORT and CLOSE reach the origin. Offers, campaigns and INSTALL end as R599 to R604
and R608 say; a slot written by INSTALL has a valid record. (R591, R599, R600, R601, R602, R603, R604, R608,
16_ibex.md) -/
def Obligations.Campaigns : Prop :=
  ∀ (s : State), s.Inv →
    let b := s.bhr
    let ev := Reg.bhrEvstat
    let campR := Reg.bhrCamp
    let able : Prop := s.inReset = false ∧ s.node ≠ .boot ∧ s.node ≠ .load
    let same (u : State) : Prop := MemKept s u ∧ u.sp = s.sp
    let slot := s.spareSlot
    (∀ d, let c := campOf d
      (¬(able ∧ b.camp = none) → Answers (.announce d) s (· = s)) ∧
      (able → b.camp = none → Answers (.announce d) s fun u => same u ∧ RegsKept s u [campR, Reg.bhrCampId, ev] ∧ u.rb ev 8 = true ∧
        u.bhr = { b with camp := some { c with adoptedAt := s.cyc } } ∧ u.rb campR 31 = true ∧ u.rb campR 29 = false ∧
        u.rf campR 15 0 = c.origin ∧ (u.rget Reg.bhrCampId).toNat = c.id)) ∧
    (∀ p d, let c := campOf d
      let a := s.offerAnswer c
      (¬able → Answers (.offer p d) s (· = s)) ∧
      (able → a.1 ≠ .ok → Answers (.offer p d) s fun u => same u ∧ u.bhr = b) ∧
      (able → a.1 = .ok → Answers (.offer p d) s fun u => same u ∧ u.bhr.rx = some { port := p, dataAt := s.cyc } ∧
        u.bhr.holds = none ∧ u.rb campR 30 = true ∧ u.slotRec slot = List.replicate 48 0xFF ∧
        ∃ x, u.bhr.camp = some x ∧ x.id = c.id ∧ x.port = some p ∧ x.hash = c.hash ∧ x.len = c.len ∧ x.activate = c.activate)) ∧
    (∀ d, let mine : Prop := ∃ c, b.camp = some c ∧ c.id = beAt d 4 4
      (¬mine → (∀ p, Answers (.answer p d) s (· = s)) ∧ (∀ p, Answers (.data p d) s (· = s)) ∧ (∀ p, Answers (.ack p d) s (· = s)) ∧
        (∀ p, Answers (.done p d) s (· = s)) ∧ Answers (.report d) s (· = s) ∧ Answers (.close d) s (· = s)) ∧
      (∀ c, b.camp = some c → c.id = beAt d 4 4 →
        (∀ p x, b.rx = some x →
          let body := (d.drop 16).take 2000
          let next := x.next + body.length
          (x.port ≠ p → Answers (.data p d) s (· = s)) ∧
          (x.port = p → (beAt d 8 8 ≠ x.next ∨ c.len < next) → Answers (.data p d) s fun u => same u ∧
            u.bhr = { b with rx := some { x with dataAt := s.cyc } }) ∧
          (x.port = p → beAt d 8 8 = x.next → next ≤ c.len → Answers (.data p d) s fun u => same u ∧
            u.bhr.rx = some { x with next := next, dataAt := s.cyc } ∧ u.flashBytes (slotBase slot + 4096 + x.next) body.length = body ∧
            ∀ k, (k < slotBase slot + 4096 + x.next ∨ slotBase slot + 4096 + next ≤ k) → u.flashBytes k 1 = s.flashBytes k 1)) ∧
        (∀ p t, b.tx = some t →
          let one (y : CampTx) (u : State) : Prop := same u ∧ u.bhr = { b with tx := some y }
          ((t.port ≠ p ∨ t.running = true) → Answers (.answer p d) s (· = s)) ∧
          (t.port = p → t.running = false → beAt d 1 1 = 0 → Answers (.answer p d) s
            (one { t with running := true, acked := 0, sent := min c.len 32000, ackAt := s.cyc, rounds := 0 })) ∧
          (∀ o, t.port = p → t.running = false → beAt d 1 1 = 0x11 → b.offers = [o] → o.port = p → o.busy < 8 →
            Answers (.answer p d) s fun u => same u ∧ u.bhr = { b with
              tx := none, offers := [⟨p, o.busy + 1, s.cyc + usCyc 10000000⟩] }) ∧
          ((t.port ≠ p ∨ t.running = false) → Answers (.ack p d) s (· = s)) ∧
          (t.port = p → t.running = true → t.acked < beAt d 8 8 → beAt d 8 8 ≤ t.sent → t.sent = c.len → Answers (.ack p d) s
            (one { t with acked := beAt d 8 8, rounds := 0, ackAt := s.cyc })) ∧
          ((t.port ≠ p ∨ t.running = false) → Answers (.done p d) s (· = s)) ∧
          (∀ o, t.port = p → t.running = true → beAt d 1 1 = 0 → b.own = none → b.offers = [o] → o.port = p →
            Answers (.done p d) s fun u => same u ∧ u.bhr.tx = none ∧ u.bhr.offers = [] ∧ u.rb ev 8 = true ∧
              u.bhr.camp = b.camp)) ∧
        (b.own = none → Answers (.report d) s (· = s)) ∧
        (∀ o, b.own = some o → o.reports.length + 1 ≠ o.expect → Answers (.report d) s fun u => same u ∧ RegsKept s u [] ∧
          u.bhr = { b with own := some { o with
            reports := o.reports ++ [padTo 24 ((d.drop 1).take 2 ++ (d.drop 4).take 22)] } }) ∧
        (b.own = none → b.rx = none → b.tx = none → Answers (.close d) s fun u => same u ∧ RegsKept s u [campR, ev] ∧
          u.bhr = { b with camp := none, offers := [] } ∧ u.rb campR 31 = false ∧ u.rb campR 29 = false ∧ u.rb ev 8 = true))) ∧
    ((b.camp = none ∨ b.tx = none) → Answers .ackTimeout s (· = s)) ∧
    (∀ c t, b.camp = some c → b.tx = some t → t.dead = false →
      (s.cyc < t.ackAt + usCyc 20000 → Answers .ackTimeout s (· = s)) ∧
      (t.ackAt + usCyc 20000 ≤ s.cyc → t.rounds < 16 → t.running = false → Answers .ackTimeout s fun u => same u ∧
        u.bhr = { b with tx := some { t with rounds := t.rounds + 1, sent := t.acked, ackAt := s.cyc } }) ∧
      (∀ o, t.ackAt + usCyc 20000 ≤ s.cyc → 16 ≤ t.rounds → b.own = none → b.offers = [o] → o.port = t.port →
        Answers .ackTimeout s fun u => same u ∧ u.bhr.tx = none ∧ u.bhr.offers = [] ∧ u.bhr.camp = b.camp)) ∧
    (let out : Prop := ∃ x, b.camp ≠ none ∧ b.rx = some x ∧ x.dataAt + usCyc 1000000 ≤ s.cyc
     (¬out → Answers .dataTimeout s (· = s)) ∧
     (out → Answers .dataTimeout s fun u => same u ∧ RegsKept s u [campR, ev, Reg.bhrLogLost] ∧ u.bhr.rx = none ∧
       u.rb campR 30 = false ∧ u.rb ev 8 = true)) ∧
    (∀ failed, (¬∃ c x, b.camp = some c ∧ b.rx = some x ∧ x.next = c.len) → Answers (.bundleReceived failed) s (· = s)) ∧
    (∀ c x failed, b.camp = some c → b.rx = some x → x.next = c.len → Answers (.bundleReceived failed) s fun u => same u ∧
      u.bhr.rx = none ∧ u.rb campR 30 = false ∧ u.rb ev 8 = true ∧
      (failed = true → u.bhr.flash = b.flash ∧ u.bhr.holds = b.holds) ∧
      (failed = false → Config.sha256 (s.bundleBytes 0 c.len) ≠ c.hash → u.bhr.flash = b.flash ∧ u.bhr.holds = b.holds) ∧
      (failed = false → Config.sha256 (s.bundleBytes 0 c.len) = c.hash → ((Run.start s).bundleJudge slot (s.bundleBytes 0 c.len)).2 = none →
        u.bhr.holds = some c.id)) ∧
    (let due (o : CampOffer) : Prop := o.notBefore ≤ s.cyc
     ((b.camp = none ∨ b.tx ≠ none ∨ ∀ o ∈ b.offers, ¬due o) → Answers .offerRetry s (· = s)) ∧
     (∀ o rest, b.camp ≠ none → b.tx = none → b.offers = o :: rest → due o → Answers .offerRetry s fun u => same u ∧
       u.bhr = { b with tx := some { port := o.port, ackAt := s.cyc } })) ∧
    (b.camp = none → Answers .campaignTimeout s (· = s)) ∧
    (∀ c, b.camp = some c →
      let ended : Prop := if s.fawn = true then c.adoptedAt + 1800 * 800000000 ≤ s.cyc else c.t0 + 1800000000000 ≤ s.now
      (¬ended → Answers .campaignTimeout s (· = s)) ∧
      (ended → b.own = none → b.rx = none → b.tx = none → Answers .campaignTimeout s fun u => same u ∧
        u.bhr = { b with camp := none, offers := [] } ∧ u.rb campR 31 = false)) ∧
    (∀ failed, b.install = none → Answers (.installWriteEnd failed) s (· = s)) ∧
    (∀ x (o : Op), b.install = some x → x.who = .op o.id → s.op o.id = some o → o.out = none → b.running = some x.who →
      (Answers (.installWriteEnd true) s fun u => u.bhr.install = none ∧ u.bhr.running = none ∧ OpEnded u o.id .fault [] ∧
        OnlyOp s u o.id ∧ u.bhr.flash = b.flash) ∧
      (s.fawn = false → x.activate = false → x.slot < 2 → Answers (.installWriteEnd false) s fun u => u.bhr.install = none ∧
        u.bhr.running = none ∧ OpEnded u o.id o.okSt [] ∧ OnlyOp s u o.id ∧
        u.slotRec x.slot = (let y := s.slotPlan x.data
          slotRecBytes 0 (if y.lC = 0 then 0 else 4096 + y.oC) y.lC (if y.lB = 0 then 0 else 4096 + y.oB) y.lB) ∧
        u.recOk x.slot = true ∧ u.slotSeq x.slot = 0)) ∧
    (∀ o : Op, b.running = none →
      let refused (st : Status) (u : State) : Prop := OpEnded u o.id st [] ∧ OpsKept s u o.id ∧ RegsKept s u [ev, Reg.bhrLogLost] ∧
        MemKept s u ∧ u.rb ev 12 = true ∧ u.bhr.flash = b.flash ∧ u.bhr.camp = b.camp
      let empty (u : State) : Prop := OpEnded u o.id .empty [] ∧ OnlyOp s u o.id ∧ u.bhr = b
      (OpMay s o 12 9 → let d := o.payload
        let n := recNat d 8 8
        let a := recNat d 0 8
        (b.camp ≠ none → Answers (.bhrInstall (some o.id)) s (refused .refused)) ∧
        (b.camp = none → n = 0 → Answers (.bhrInstall (some o.id)) s empty) ∧
        (b.camp = none → slotRoom < n → Answers (.bhrInstall (some o.id)) s (refused .overload)) ∧
        (∀ x, b.camp = none → 0 < n → n ≤ slotRoom → a < 2 ^ 40 → (Run.start s).memRead 14 a n = (Run.start s, .ok, x) →
          Answers (.bhrInstall (some o.id)) s fun u => MemKept s u ∧ OpsKept s u o.id ∧
            match ((Run.start s).bundleJudge slot x).2 with
            | some (st, _) => OpEnded u o.id st [] ∧ u.bhr.flash = b.flash ∧ u.bhr.install = b.install
            | none => u.op o.id = some { o with acted := true, actedAt := s.now } ∧ u.bhr.running = some (.op o.id) ∧ u.bhr.holds = none ∧
              u.bhr.install = some ⟨.op o.id, slot, bit (recNat d 16 1) 0, x⟩ ∧ u.slotRec slot = List.replicate 48 0xFF)) ∧
      (OpMay s o 12 11 → b.own = none → let d := o.payload
        Answers (.bhrCampaign (some o.id)) s fun u =>
          (s.slotOk slot = false → refused .refused u) ∧
          (s.slotOk slot = true → (s.hasId = false ∨ b.camp ≠ none) → refused .refused u) ∧
          (s.slotOk slot = true → s.hasId = true → b.camp = none → recNat d 6 2 = 0 → empty u) ∧
          (s.slotOk slot = true → s.hasId = true → b.camp = none → recNat d 6 2 ≠ 0 → MemKept s u ∧ OpsKept s u o.id ∧
            u.op o.id = some { o with acted := true, actedAt := s.now } ∧ u.bhr.holds = some (recNat d 0 4) ∧ u.rb campR 31 = true ∧
            u.rb campR 29 = true ∧ u.bhr.own = some ⟨.op o.id, recNat d 6 2, recNat d 8 8, recNat d 16 4, []⟩ ∧
            ∃ c, u.bhr.camp = some c ∧ c.id = recNat d 0 4 ∧ c.t0 = s.now ∧ c.origin = s.nodeId ∧
              c.len = s.bundleLen slot)) ∧
      (OpMay s o 12 12 → let id := recNat o.payload 0 4
        let may : Prop := b.own ≠ none ∧ ∃ c, b.camp = some c ∧ c.id = id
        (¬may → Answers (.bhrClose (some o.id)) s (refused .refused)) ∧
        (∀ w (q : Op), may → b.own = some w → w.reports = [] → w.who = .op q.id → q.id ≠ o.id → s.op q.id = some q → q.out = none →
          b.rx = none → b.tx = none → Answers (.bhrClose (some o.id)) s fun u => MemKept s u ∧ u.bhr.camp = none ∧ u.bhr.own = none ∧
            OpEnded u o.id o.okSt [] ∧ ∃ y, u.op q.id = some y ∧ y.out.map (·.status) =
              some (if 0 < w.expect then .timeout else q.okSt))))

/-- Power failure, the backup domain, the resets, warm restart, pins, the debug port and the swap retry. POWER_FAIL
saves stamp, source and axis positions; its clearing records a new stamp. The holdover count counts or takes TB0's
seconds. POR and a cold reset leave every register they do not keep at its reset value and clear the on-die memories,
and keep DDR and the backup domain; their ends start BOOT, recorded with the state that was left. A warm request is
counted, refused, or starts a warm restart, which stops and clears the threads and the SP registers but those of R182
and no memory, and whose end starts the autostart threads. A PLL, the GPIO inputs, the test access port and a swap's
retry act as their rules say. (R541, R612, R613, R615, R616, R617, R619, R620, R627, R629, R630, R653) -/
def Obligations.PowerResetAndPins : Prop :=
  ∀ (s : State), s.Inv →
    let ev := Reg.pwrEvstat
    let stat := Reg.pwrStat
    let por : Prop := s.pwr.por = true
    let kept (l : List Nat) (u : State) : Prop := RegsKept s u l ∧ MemKept s u ∧ u.sp = s.sp
    let at0 (keep : List (Nat × Nat)) (but : List Nat) (u : State) : Prop :=
      (∀ a, inRanges keep a = false → a ∉ but → u.rget a = resetOf a) ∧ (∀ a, inRanges keep a = true → a ∉ but → u.rget a = s.rget a)
    let cleared (u : State) : Prop := (∀ a, a < 2 ^ 32 → u.byte a = unwritten a) ∧ (∀ a, 2 ^ 32 ≤ a → u.byte a = s.byte a) ∧
      u.sp = { cyc0 := s.cyc } ∧ u.sig = {} ∧ u.le = {} ∧ u.motion = {} ∧ u.adc = {} ∧ u.herd = {} ∧ u.port = {} ∧ u.capt = {} ∧
      u.chm = {} ∧ u.red = {} ∧ u.commits = [] ∧ u.mesh = { perstn := s.mesh.perstn } ∧ u.bhr.recs = s.bhr.recs ∧
      u.bhr.flash = s.bhr.flash ∧ u.bhr.cal = s.bhr.cal ∧ u.bhr.otpSv = s.bhr.otpSv ∧ u.bhr.keys = s.bhr.keys
    (∀ src, ((por ∨ src = 0 ∨ 3 < src) → Answers (.powerFail src) s (· = s)) ∧
      (¬por → 0 < src → src ≤ 3 → s.now < 2 ^ 64 → Answers (.powerFail src) s fun u =>
        kept ([stat, ev, Reg.pwrPfTsLo, Reg.pwrPfTsHi, Reg.pwrPfSecLo, Reg.pwrPfSecHi, Reg.pwrPfInfo] ++
          (List.range 48).map Reg.pwrAxposLo ++ (List.range 48).map Reg.pwrAxposHi) u ∧
        u.rget64 Reg.pwrPfTsLo Reg.pwrPfTsHi = s.now ∧ u.rget64 Reg.pwrPfSecLo Reg.pwrPfSecHi = s.pwr.hold / 2 ^ 15 % 2 ^ 48 ∧
        (u.rget Reg.pwrPfInfo).toNat = s.node.code * 2 ^ 16 + src ∧ u.rb stat 30 = true ∧ u.rb ev 0 = true ∧
        u.rb stat 29 = (s.rb stat 29 && src != 1) ∧
        ∀ n, n < 48 → (s.axMode n ≠ 2 → u.rget (Reg.pwrAxposLo n) = 0 ∧ u.rget (Reg.pwrAxposHi n) = 0) ∧
          (s.axMode n = 2 → u.rb (Reg.pwrAxposHi n) 31 = (s.rb (Reg.axStat n) 24 && !s.rb (Reg.axStat n) 25) ∧
            (u.rget (Reg.pwrAxposLo n)).toNat + u.rf (Reg.pwrAxposHi n) 15 0 * 2 ^ 32 = uNat 48 (s.ax n).pos))) ∧
    (s.inReset = true → Answers .powerFailClear s (· = s)) ∧
    (s.inReset = false → Answers .powerFailClear s fun u => kept [stat, ev, Reg.bhrLogLost] u ∧ u.rb stat 29 = true ∧
      u.rb stat 30 = false ∧ u.rb ev 1 = true ∧
      (s.rb stat 30 = true → s.bhr.logQ.length < 64 → ∃ x : LogRec, u.bhr.logQ = s.bhr.logQ ++ [x] ∧ x.kind = 0x000E ∧
        x.data = [Reg.pwrPfTsLo, Reg.pwrPfTsHi, Reg.pwrPfSecLo, Reg.pwrPfSecHi, Reg.pwrPfInfo].map fun r => (s.rget r).toNat)) ∧
    (let secs := (s.base 0).sec
     let seen (u : State) : Prop := u.rb Reg.clkStat 8 = (s.rb Reg.clkStat 8 || !s.inReset) ∧
       ∀ k, k ≠ 8 → u.rb Reg.clkStat k = s.rb Reg.clkStat k
     let loads : Prop := s.tb0State = 2 ∧ secs = s.pwr.holdSec + 1 ∧ s.inReset = false
     (¬loads → Answers .holdoverCountTick s fun u => kept [Reg.clkStat] u ∧ seen u ∧
       u.pwr = { s.pwr with hold := (s.pwr.hold + 1) % 2 ^ 63, holdSec := secs, xbatAt := s.cyc }) ∧
     (loads → Answers .holdoverCountTick s fun u => kept [stat, Reg.clkStat] u ∧ seen u ∧ u.rb stat 31 = true ∧
       u.pwr = { s.pwr with hold := secs % 2 ^ 48 * 2 ^ 15, holdSec := secs, xbatAt := s.cyc })) ∧
    (¬por → Answers .backupSupplyLoss s (· = s)) ∧
    (por → Answers .backupSupplyLoss s fun u => kept backupRegs u ∧ (∀ a ∈ backupRegs, u.rget a = resetOf a) ∧
      u.pwr = { s.pwr with hold := 0, bkpLost := true }) ∧
    Answers .porAssert s (fun u => cleared u ∧ at0 porKeep [stat] u ∧ u.rb stat 29 = false ∧
      u.pwr = { s.pwr with por := true, coldUntil := none }) ∧
    (∀ low xbat pf, (¬por → Answers (.porRelease low xbat pf) s (· = s)) ∧
      (por → Answers (.porRelease low xbat pf) s fun u => MemKept s u ∧ u.sp = s.sp ∧ u.node = .boot ∧ u.pwr.por = false ∧
        (u.rget Reg.rstCause).toNat = 2 ^ 8 ∧ (u.rget Reg.pinBank).toNat = low % 2 ^ 11 ∧ u.rf Reg.clkStat 5 0 = 63 ∧
        u.rb Reg.clkStat 8 = xbat ∧ u.rb stat 29 = pf ∧ u.bhr.pcyc = s.bhr.pcyc + 1 ∧
        u.rb ev 4 = (s.rb ev 4 || s.pwr.bkpLost) ∧ u.pwr.bkpLost = false)) ∧
    (∀ src, let may : Prop := ¬por ∧ 2 ≤ src ∧ src ≤ 4 ∧ (src = 4 → s.bhr.resetReq = true)
      (¬may → Answers (.coldReset src) s (· = s)) ∧
      (may → Answers (.coldReset src) s fun u => cleared u ∧ at0 coldKeep ([Reg.rstCause, Reg.rstCount] ++
          (List.range 48).map Reg.pwrAxposLo ++ (List.range 48).map Reg.pwrAxposHi) u ∧
        (u.rget Reg.rstCause).toNat = src * 2 ^ 8 ∧ u.rf Reg.rstCount 15 0 = 0 ∧
        u.rf Reg.rstCount 31 16 = min (s.rf Reg.rstCount 31 16 + 1) 0xFFFF ∧
        u.pwr = { s.pwr with coldUntil := some (s.cyc + usCyc 100), coldSrc := src, coldNode := s.node.code })) ∧
    ((∀ t, s.pwr.coldUntil = some t → s.cyc < t ∨ por) → Answers .coldResetEnd s (· = s)) ∧
    (∀ t, s.pwr.coldUntil = some t → t ≤ s.cyc → ¬por → Answers .coldResetEnd s fun u => MemKept s u ∧ u.sp = s.sp ∧
      u.node = .boot ∧ u.inReset = false ∧ u.rf Reg.clkStat 5 0 = 63 ∧
      (s.bhr.logQ = [] → (u.bhr.logQ.head?).map (fun x => (x.kind, x.data)) = some (1, [s.pwr.coldNode, 0, 2, s.pwr.coldSrc]))) ∧
    (∀ src, let cnt := min (s.rf Reg.rstCount 15 0 + 1) 0xFFFF
      let heard : Prop := (src = 1 ∨ src = 2) ∧ s.inReset = false
      let closed : Prop := s.node = .boot ∨ s.node = .load ∨ s.fawn = true
      let busy : Prop := s.sp.restart ≠ none ∨ s.sp.warmAsk ≠ none
      (¬heard → Answers (.warmRequest src) s (· = s)) ∧
      (heard → closed → Answers (.warmRequest src) s fun u => kept [Reg.rstCount, ev] u ∧ u.rf Reg.rstCount 15 0 = cnt ∧
        u.rb ev 3 = true) ∧
      (heard → ¬closed → busy → Answers (.warmRequest src) s fun u => kept [Reg.rstCount] u ∧ u.rf Reg.rstCount 15 0 = cnt) ∧
      (heard → ¬closed → ¬busy → Answers (.warmRequest src) s fun u => RegsKept s u [Reg.rstCount, Reg.rstCause] ∧ MemKept s u ∧
        u.rf Reg.rstCount 15 0 = cnt ∧ u.rf Reg.rstCause 7 0 = src ∧ u.sp = { s.sp with warmAsk := some s.cyc })) ∧
    ((s.sp.warmAsk = none ∨ s.sp.restart ≠ none ∨ s.inReset = true) → Answers .warmRestart s (· = s)) ∧
    (∀ t, s.sp.warmAsk = some t → s.sp.restart = none → s.inReset = false → Answers .warmRestart s fun u =>
      MemKept s u ∧ u.sp.restart = some (t + usCyc 2) ∧ u.sp.warmAsk = none ∧ u.sp.cyc0 = s.cyc ∧
      (∀ j, { u.thread j with posted := [] } = ({} : Thread)) ∧ (∀ o ∈ u.sp.ops, o.orphan = true) ∧
      at0 warmKeep [Reg.spEvstat, Reg.meshPcieStat, Reg.meshEvstat, Reg.meshAccLo, Reg.meshAccHi] u ∧
      (s.tgt 13 = {} → u.rget Reg.meshAccLo = s.rget Reg.meshAccLo ∧ u.rget Reg.meshAccHi = s.rget Reg.meshAccHi) ∧ u.linkUp = false ∧ u.mesh.dma = []) ∧
    ((∀ t, s.sp.restart = some t → s.cyc < t) → Answers .warmRestartEnd s (· = s)) ∧
    (∀ t, s.sp.restart = some t → t ≤ s.cyc → Answers .warmRestartEnd s fun u => MemKept s u ∧ u.sp.restart = none ∧
      u.sp.cyc0 = s.cyc ∧ u.rb ev 2 = true ∧
      ∀ j, j < 64 → (s.rb (Reg.spTCfg j) 31 = true → (u.thread j).state = .running) ∧
        (s.rb (Reg.spTCfg j) 31 = false → u.thread j = s.thread j)) ∧
    (∀ i, let may : Prop := s.inReset = false ∧ (i = 0 ∨ i = 2 ∨ i = 3 ∨ i = 4)
      (¬may → Answers (.pllUnlock i) s (· = s)) ∧
      (may → Answers (.pllUnlock i) s fun u => kept [Reg.clkStat, ev] u ∧ u.rb Reg.clkStat i = false ∧ u.rb ev 5 = true ∧
        ∀ k, k ≠ i → u.rb Reg.clkStat k = s.rb Reg.clkStat k)) ∧
    (∀ levels, Answers (.gpioInputChange levels) s fun u => u = { s with pwr := { s.pwr with gpio := levels % 2 ^ 16 } } ∧
      ∀ i, i < 16 → bit u.gpioIn i = (if s.rb Reg.pinGpioDir i then s.rb Reg.pinGpioOut i else bit levels i)) ∧
    (∀ f, s.debugLvl < tapLevel f → Answers (.debugTapAccess f) s (· = s)) ∧
    Answers (.debugTapAccess .idcode) s (· = { s with resp := ⟨.ok, [0x14896B3F]⟩ }) ∧
    Answers (.debugTapAccess .bypass) s (· = s) ∧
    (1 ≤ s.debugLvl → ∀ t, t < 64 →
      let as (hold step : Bool) (u : State) : Prop := RegsKept s u [] ∧ MemKept s u ∧ u.sp.ops = s.sp.ops ∧
        u.thread t = { s.thread t with dbgHold := hold, dbgStep := step } ∧ ∀ j, j ≠ t → u.thread j = s.thread j
      Answers (.debugTapAccess (.halt t)) s (as true false) ∧ Answers (.debugTapAccess (.step t)) s (as true true) ∧
      Answers (.debugTapAccess (.run t)) s (as false false) ∧
      Answers (.debugTapAccess (.inspect t)) s (· = { s with resp := ⟨.ok, s.dbgWords t⟩ })) ∧
    (2 ≤ s.debugLvl → Answers (.debugTapAccess .extest) s (· = s) ∧
      Answers (.debugTapAccess .sample) s (fun u => kept [] u ∧ ∃ v, u.resp = ⟨.ok, [v]⟩) ∧
      ∀ a, a + 4 ≤ 0x2000000 → s.eccIn a 4 = [] →
        Answers (.debugTapAccess (.meshRead a)) s (· = { s with resp := ⟨.ok, wordsOf (s.bytes a 4)⟩ }) ∧
        ∀ v, Answers (.debugTapAccess (.meshWrite a v)) s fun u => RegsKept s u [] ∧ u.bytes a 4 = bytesLE 4 v ∧
          MemKeptBut s u a 4 ∧ u.resp = ⟨.ok, []⟩) ∧
    (let may (t : Nat) : Prop := s.redOn = true ∧ s.redGroup = false ∧ s.redRole 0 = 4 ∧ t ≤ s.cyc
     ((∀ t, s.red.retryAt = some t → ¬may t) → Answers .swapRetry s (· = s)) ∧
     (∀ t, s.red.retryAt = some t → may t → s.red.swapAt = none → Answers .swapRetry s (· = { s with red := { s.red with
       swapAt := some (s.cycNo + 8), acked := false, retryAt := none } })))

end
end

