-- ==== Sys2Proof/Laws/Tbl.lean ====
section
/-!
SUPPORT. Sparse tables: reading after writing, for every list, and the canonical form that writing keeps.
-/
namespace Sys2Proof.Machine

variable {α : Type}

/-! ## Reading after writing -/

theorem tget_tput_same (d : α) (k : Nat) (v : α) (t : Tbl α) : tget d k (tput k v t) = v := by
  induction t with
  | nil => simp [tput, tget]
  | cons e t ih => obtain ⟨j, w⟩ := e; simp only [tput]; split_ifs <;> simp_all [tget]

theorem tget_tput_ne (d : α) {k k' : Nat} (h : k' ≠ k) (v : α) (t : Tbl α) :
    tget d k' (tput k v t) = tget d k' t := by
  induction t with
  | nil => simp [tput, tget, h.symm]
  | cons e t ih =>
    obtain ⟨j, w⟩ := e
    have h' := h.symm
    simp only [tput]; split_ifs <;> simp_all [tget]

theorem tget_filter (d : α) (p : Nat → Bool) (k : Nat) (t : Tbl α) :
    tget d k (t.filter fun e => p e.1) = if p k then tget d k t else d := by
  induction t with
  | nil => simp [tget]
  | cons e t ih =>
    obtain ⟨j, w⟩ := e
    by_cases hj : j = k <;> by_cases hp : p j <;> simp_all [tget]

theorem tget_tdel_same (d : α) (k : Nat) (t : Tbl α) : tget d k (tdel k t) = d := by
  simpa [tdel] using tget_filter d (fun j => !(j == k)) k t

theorem tget_tdel_ne (d : α) {k k' : Nat} (h : k' ≠ k) (t : Tbl α) : tget d k' (tdel k t) = tget d k' t := by
  simpa [h, tdel] using tget_filter d (fun j => !(j == k)) k' t

@[simp] theorem tget_tset_same [DecidableEq α] (d : α) (k : Nat) (v : α) (t : Tbl α) : tget d k (tset d k v t) = v := by
  unfold tset; split_ifs with h
  · simp [tget_tdel_same, h]
  · exact tget_tput_same d k v t

theorem tget_tset_ne [DecidableEq α] (d d' : α) {k k' : Nat} (h : k' ≠ k) (v : α) (t : Tbl α) :
    tget d k' (tset d' k v t) = tget d k' t := by
  unfold tset; split_ifs
  · exact tget_tdel_ne d h t
  · exact tget_tput_ne d h v t

/-! ## The canonical form -/

variable [DecidableEq α]

theorem twfFrom_iff (d : Nat → α) (lo : Option Nat) (t : Tbl α) :
    twfFrom d lo t = true ↔
      (∀ e ∈ t, (∀ l, lo = some l → l < e.1) ∧ e.2 ≠ d e.1) ∧ t.Pairwise fun a b => a.1 < b.1 := by
  induction t generalizing lo with
  | nil => simp [twfFrom]
  | cons e t ih =>
    obtain ⟨j, v⟩ := e
    cases lo with
    | none =>
      simp only [twfFrom, ih, Bool.true_and, Bool.and_eq_true, decide_eq_true_eq, List.forall_mem_cons, List.pairwise_cons]
      constructor
      · rintro ⟨h1, h2, h3⟩
        exact ⟨⟨⟨by simp, h1⟩, fun e he => ⟨by simp, (h2 e he).2⟩⟩, fun e he => (h2 e he).1 j rfl, h3⟩
      · rintro ⟨⟨⟨_, h1⟩, h2⟩, h3, h4⟩
        exact ⟨h1, fun e he => ⟨fun l hl => by cases hl; exact h3 e he, (h2 e he).2⟩, h4⟩
    | some l =>
      simp only [twfFrom, ih, Bool.and_eq_true, decide_eq_true_eq, List.forall_mem_cons, List.pairwise_cons]
      constructor
      · rintro ⟨⟨h0, h1⟩, h2, h3⟩
        exact ⟨⟨⟨fun m hm => by cases hm; exact h0, h1⟩,
          fun e he => ⟨fun m hm => by cases hm; exact lt_trans h0 ((h2 e he).1 j rfl), (h2 e he).2⟩⟩,
          fun e he => (h2 e he).1 j rfl, h3⟩
      · rintro ⟨⟨⟨h0, h1⟩, h2⟩, h3, h4⟩
        exact ⟨⟨h0 l rfl, h1⟩, fun e he => ⟨fun m hm => by cases hm; exact h3 e he, (h2 e he).2⟩, h4⟩

theorem twf_iff (d : Nat → α) (t : Tbl α) :
    twf d t = true ↔ (∀ e ∈ t, e.2 ≠ d e.1) ∧ t.Pairwise fun a b => a.1 < b.1 := by
  simp [twf, twfFrom_iff]

omit [DecidableEq α] in
theorem mem_tput {k : Nat} {v : α} {t : Tbl α} {e : Nat × α} (h : e ∈ tput k v t) : e = (k, v) ∨ e ∈ t := by
  induction t with
  | nil => simp_all [tput]
  | cons x t ih =>
    obtain ⟨j, w⟩ := x
    simp only [tput] at h
    split_ifs at h <;> simp only [List.mem_cons] at h ⊢ <;> tauto

omit [DecidableEq α] in
theorem pairwise_tput {k : Nat} {v : α} {t : Tbl α} (h : t.Pairwise fun a b => a.1 < b.1) :
    (tput k v t).Pairwise fun a b => a.1 < b.1 := by
  induction t with
  | nil => simp [tput]
  | cons x t ih =>
    obtain ⟨j, w⟩ := x
    rw [List.pairwise_cons] at h
    simp only [tput]
    split_ifs with h1 h2
    · subst h1; exact List.pairwise_cons.2 ⟨h.1, h.2⟩
    · refine List.pairwise_cons.2 ⟨?_, List.pairwise_cons.2 h⟩
      intro e he
      rcases List.mem_cons.1 he with rfl | he
      · exact h2
      · exact lt_trans h2 (h.1 e he)
    · refine List.pairwise_cons.2 ⟨?_, ih h.2⟩
      intro e he
      rcases mem_tput he with rfl | he
      · show j < k; omega
      · exact h.1 e he

/-- Writing a value keeps a table canonical. -/
theorem twf_tset {d : Nat → α} {k : Nat} {v : α} {t : Tbl α} (h : twf d t = true) : twf d (tset (d k) k v t) = true := by
  rw [twf_iff] at h ⊢
  unfold tset
  split_ifs with hv
  · exact ⟨fun e he => h.1 e (List.mem_filter.1 he).1, h.2.filter _⟩
  · refine ⟨fun e he => ?_, pairwise_tput h.2⟩
    rcases mem_tput he with rfl | he
    · exact hv
    · exact h.1 e he

/-- Forgetting entries keeps a table canonical. -/
theorem twf_filter {d : Nat → α} {p : Nat × α → Bool} {t : Tbl α} (h : twf d t = true) : twf d (t.filter p) = true := by
  rw [twf_iff] at h ⊢
  exact ⟨fun e he => h.1 e (List.mem_filter.1 he).1, h.2.filter _⟩

theorem twf_tdel {d : Nat → α} {k : Nat} {t : Tbl α} (h : twf d t = true) : twf d (tdel k t) = true := twf_filter h

end Sys2Proof.Machine
end

