-- ==== Sys2Proof/Laws/State.lean ====
section
/-!
SUPPORT. What each primitive update leaves of each field, and what it puts there. One lemma for a field says that every
update but its own leaves it; the side conditions close by simp on a concrete update.
-/
namespace Sys2Proof.Machine

variable (s : State) {u : Upd}

/-- No update touches the queue of waiting commands. -/
@[simp] theorem apply_pending (u : Upd) : (u.apply s).pending = s.pending := by cases u <;> rfl

/-! ## The field that an update sets -/

@[simp] theorem apply_cyc (v : Nat) : (Upd.apply s (.cyc v)).cyc = v := rfl
@[simp] theorem apply_free (v : Nat) : (Upd.apply s (.free v)).free = v := rfl
@[simp] theorem apply_resp (v : Resp) : (Upd.apply s (.resp v)).resp = v := rfl
@[simp] theorem apply_ecc (v : Tbl EccKind) : (Upd.apply s (.ecc v)).ecc = v := rfl
@[simp] theorem apply_commits (v : List Commit) : (Upd.apply s (.commits v)).commits = v := rfl
@[simp] theorem apply_time (v : TimeSt) : (Upd.apply s (.time v)).time = v := rfl
@[simp] theorem apply_sp (v : SpSt) : (Upd.apply s (.sp v)).sp = v := rfl
@[simp] theorem apply_sig (v : SigSt) : (Upd.apply s (.sig v)).sig = v := rfl
@[simp] theorem apply_le (v : LeSt) : (Upd.apply s (.le v)).le = v := rfl
@[simp] theorem apply_motion (v : MotionSt) : (Upd.apply s (.motion v)).motion = v := rfl
@[simp] theorem apply_adc (v : AdcSt) : (Upd.apply s (.adc v)).adc = v := rfl
@[simp] theorem apply_herd (v : HerdSt) : (Upd.apply s (.herd v)).herd = v := rfl
@[simp] theorem apply_port (v : PortSt) : (Upd.apply s (.port v)).port = v := rfl
@[simp] theorem apply_capt (v : CaptSt) : (Upd.apply s (.capt v)).capt = v := rfl
@[simp] theorem apply_chm (v : ChmSt) : (Upd.apply s (.chm v)).chm = v := rfl
@[simp] theorem apply_red (v : RedSt) : (Upd.apply s (.red v)).red = v := rfl
@[simp] theorem apply_mesh (v : MeshSt) : (Upd.apply s (.mesh v)).mesh = v := rfl
@[simp] theorem apply_bhr (v : BhrSt) : (Upd.apply s (.bhr v)).bhr = v := rfl
@[simp] theorem apply_pwr (v : PwrSt) : (Upd.apply s (.pwr v)).pwr = v := rfl
@[simp] theorem apply_reg (a : Nat) (v : Word) :
    (Upd.apply s (.reg a v)).regs = tset (resetOf a) a (v &&& implMask a) s.regs := rfl
@[simp] theorem apply_regReset (a : Nat) : (Upd.apply s (.regReset a)).regs = tdel a s.regs := rfl
@[simp] theorem apply_regsKeep (k : List (Nat × Nat)) :
    (Upd.apply s (.regsKeep k)).regs = s.regs.filter fun e => inRanges k e.1 := rfl
@[simp] theorem apply_byte (a : Nat) (b : Byte) : (Upd.apply s (.byte a b)).mem = tset (unwritten a) a b s.mem := rfl
@[simp] theorem apply_memClear :
    (Upd.apply s .memClear).mem = s.mem.filter fun e => decide (0x100000000 ≤ e.1) := rfl
@[simp] theorem apply_latch (a : Nat) (v : Word) : (Upd.apply s (.latch a v)).latch = tput a v s.latch := rfl

/-! ## The fields that an update leaves -/

@[simp] theorem apply_regs_other (h₁ : ∀ a v, u ≠ .reg a v) (h₂ : ∀ a, u ≠ .regReset a) (h₃ : ∀ k, u ≠ .regsKeep k) :
    (u.apply s).regs = s.regs := by cases u <;> simp_all [Upd.apply]
@[simp] theorem apply_latch_other (h₁ : ∀ a v, u ≠ .latch a v) (h₂ : ∀ k, u ≠ .regsKeep k) :
    (u.apply s).latch = s.latch := by cases u <;> simp_all [Upd.apply]
@[simp] theorem apply_mem_other (h₁ : ∀ a b, u ≠ .byte a b) (h₂ : u ≠ .memClear) :
    (u.apply s).mem = s.mem := by cases u <;> simp_all [Upd.apply]
@[simp] theorem apply_cyc_other (h : ∀ v, u ≠ .cyc v) : (u.apply s).cyc = s.cyc := by
  cases u <;> simp_all [Upd.apply]
@[simp] theorem apply_free_other (h : ∀ v, u ≠ .free v) : (u.apply s).free = s.free := by
  cases u <;> simp_all [Upd.apply]
@[simp] theorem apply_resp_other (h : ∀ v, u ≠ .resp v) : (u.apply s).resp = s.resp := by
  cases u <;> simp_all [Upd.apply]
@[simp] theorem apply_ecc_other (h : ∀ v, u ≠ .ecc v) : (u.apply s).ecc = s.ecc := by
  cases u <;> simp_all [Upd.apply]
@[simp] theorem apply_commits_other (h : ∀ v, u ≠ .commits v) : (u.apply s).commits = s.commits := by
  cases u <;> simp_all [Upd.apply]
@[simp] theorem apply_time_other (h : ∀ v, u ≠ .time v) : (u.apply s).time = s.time := by
  cases u <;> simp_all [Upd.apply]
@[simp] theorem apply_sp_other (h : ∀ v, u ≠ .sp v) : (u.apply s).sp = s.sp := by
  cases u <;> simp_all [Upd.apply]
@[simp] theorem apply_sig_other (h : ∀ v, u ≠ .sig v) : (u.apply s).sig = s.sig := by
  cases u <;> simp_all [Upd.apply]
@[simp] theorem apply_le_other (h : ∀ v, u ≠ .le v) : (u.apply s).le = s.le := by
  cases u <;> simp_all [Upd.apply]
@[simp] theorem apply_motion_other (h : ∀ v, u ≠ .motion v) : (u.apply s).motion = s.motion := by
  cases u <;> simp_all [Upd.apply]
@[simp] theorem apply_adc_other (h : ∀ v, u ≠ .adc v) : (u.apply s).adc = s.adc := by
  cases u <;> simp_all [Upd.apply]
@[simp] theorem apply_herd_other (h : ∀ v, u ≠ .herd v) : (u.apply s).herd = s.herd := by
  cases u <;> simp_all [Upd.apply]
@[simp] theorem apply_port_other (h : ∀ v, u ≠ .port v) : (u.apply s).port = s.port := by
  cases u <;> simp_all [Upd.apply]
@[simp] theorem apply_capt_other (h : ∀ v, u ≠ .capt v) : (u.apply s).capt = s.capt := by
  cases u <;> simp_all [Upd.apply]
@[simp] theorem apply_chm_other (h : ∀ v, u ≠ .chm v) : (u.apply s).chm = s.chm := by
  cases u <;> simp_all [Upd.apply]
@[simp] theorem apply_red_other (h : ∀ v, u ≠ .red v) : (u.apply s).red = s.red := by
  cases u <;> simp_all [Upd.apply]
@[simp] theorem apply_mesh_other (h : ∀ v, u ≠ .mesh v) : (u.apply s).mesh = s.mesh := by
  cases u <;> simp_all [Upd.apply]
@[simp] theorem apply_bhr_other (h : ∀ v, u ≠ .bhr v) : (u.apply s).bhr = s.bhr := by
  cases u <;> simp_all [Upd.apply]
@[simp] theorem apply_pwr_other (h : ∀ v, u ≠ .pwr v) : (u.apply s).pwr = s.pwr := by
  cases u <;> simp_all [Upd.apply]

/-! ## Registers -/

variable {s}

/-- A register reads what was written to it, reserved bits as 0 (R5). -/
@[simp] theorem rget_reg_same (a : Nat) (v : Word) : (Upd.apply s (.reg a v)).rget a = v &&& implMask a := by
  simp [State.rget]

theorem rget_reg_ne {a b : Nat} (h : b ≠ a) (v : Word) : (Upd.apply s (.reg a v)).rget b = s.rget b := by
  simp [State.rget, tget_tset_ne _ _ h]

@[simp] theorem rget_regReset_same (a : Nat) : (Upd.apply s (.regReset a)).rget a = resetOf a := by
  simp [State.rget, tget_tdel_same]

theorem rget_regReset_ne {a b : Nat} (h : b ≠ a) : (Upd.apply s (.regReset a)).rget b = s.rget b := by
  simp [State.rget, tget_tdel_ne _ h]

theorem rget_regsKeep (k : List (Nat × Nat)) (a : Nat) :
    (Upd.apply s (.regsKeep k)).rget a = if inRanges k a then s.rget a else resetOf a := by
  simp [State.rget, tget_filter _ (fun j => inRanges k j)]

/-- Updates of other fields leave every register. -/
@[simp] theorem rget_other (h₁ : ∀ a v, u ≠ .reg a v) (h₂ : ∀ a, u ≠ .regReset a) (h₃ : ∀ k, u ≠ .regsKeep k) (b : Nat) :
    (u.apply s).rget b = s.rget b := by simp [State.rget, apply_regs_other s h₁ h₂ h₃]

/-! ## The named operations of registers and flags -/

variable {s₀ : State} (r : Run s₀)

@[simp] theorem up_s (u : Upd) : (r.up u).s = u.apply r.s := rfl
@[simp] theorem start_s (s : State) : (Run.start s).s = s := rfl
theorem done_eq : r.done = .next r.s := rfl
@[simp] theorem wr_s (a v : Nat) : (r.wr a v).s = Upd.apply r.s (.reg a (BitVec.ofNat 32 v)) := rfl
@[simp] theorem wf_s (a hi lo x : Nat) : (r.wf a hi lo x).s = Upd.apply r.s (.reg a (setFld (r.s.rget a) hi lo x)) := rfl
@[simp] theorem wb_s (a i : Nat) (b : Bool) : (r.wb a i b).s = Upd.apply r.s (.reg a (setFld (r.s.rget a) i i (b2n b))) := rfl
@[simp] theorem flag_s (a i : Nat) : (r.flag a i).s = Upd.apply r.s (.reg a (setFld (r.s.rget a) i i 1)) := rfl
@[simp] theorem count_s (a hi lo : Nat) : (r.count a hi lo).s =
    Upd.apply r.s (.reg a (setFld (r.s.rget a) hi lo (satAdd (r.s.rf a hi lo) 1 (2 ^ (hi + 1 - lo) - 1)))) := rfl
@[simp] theorem countBy_s (a hi lo k : Nat) : (r.countBy a hi lo k).s =
    Upd.apply r.s (.reg a (setFld (r.s.rget a) hi lo (satAdd (r.s.rf a hi lo) k (2 ^ (hi + 1 - lo) - 1)))) := rfl
@[simp] theorem answer_s (st : Status) (d : List Nat) : (r.answer st d).s = Upd.apply r.s (.resp ⟨st, d⟩) := rfl
@[simp] theorem drawn_s : r.drawn.s = Upd.apply r.s (.free (r.s.free + 1)) := rfl
@[simp] theorem when_true (f : Run s₀ → Run s₀) : r.when true f = f r := rfl
@[simp] theorem when_false (f : Run s₀ → Run s₀) : r.when false f = r := rfl
@[simp] theorem each_nil {α : Type} (f : Run s₀ → α → Run s₀) : r.each [] f = r := rfl
@[simp] theorem each_cons {α : Type} (a : α) (l : List α) (f : Run s₀ → α → Run s₀) : r.each (a :: l) f = (f r a).each l f := rfl

end Sys2Proof.Machine
end

