-- ==== Sys2Proof/Laws/Bits.lean ====
section
/-!
SUPPORT. Bits and fields of a register word after a field of it has been set, and what a field update leaves.
-/
namespace Sys2Proof.Machine

theorem bit_testBit (v i : Nat) : bit v i = v.testBit i := by
  rw [bit, Nat.testBit, Nat.and_comm, Nat.and_one_is_mod]
  rcases Nat.mod_two_eq_zero_or_one (v >>> i) with h | h <;> simp [h]

theorem bits_testBit (v hi lo i : Nat) : (bits v hi lo).testBit i = (decide (i < hi + 1 - lo) && v.testBit (lo + i)) := by
  rw [bits, Nat.testBit_mod_two_pow, Nat.testBit_shiftRight]

/-- A field replaced, bit by bit. -/
theorem putBits_testBit {v hi lo x : Nat} (h : lo ≤ hi) (i : Nat) :
    (putBits v hi lo x).testBit i = if lo ≤ i ∧ i ≤ hi then x.testBit (i - lo) else v.testBit i := by
  have e : putBits v hi lo x = 2 ^ (hi + 1) * (v >>> (hi + 1)) + (2 ^ lo * (x % 2 ^ (hi + 1 - lo)) + v % 2 ^ lo) := by
    simp [putBits, Nat.shiftLeft_eq, Nat.mul_comm, Nat.add_assoc]
  have hl : v % 2 ^ lo < 2 ^ lo := Nat.mod_lt _ (Nat.two_pow_pos _)
  have hx : x % 2 ^ (hi + 1 - lo) < 2 ^ (hi + 1 - lo) := Nat.mod_lt _ (Nat.two_pow_pos _)
  have hp : 2 ^ lo * 2 ^ (hi + 1 - lo) = 2 ^ (hi + 1) := by rw [← Nat.pow_add]; congr 1; omega
  have hm : 2 ^ lo * (x % 2 ^ (hi + 1 - lo)) + v % 2 ^ lo < 2 ^ (hi + 1) := by
    calc _ < 2 ^ lo * (x % 2 ^ (hi + 1 - lo)) + 2 ^ lo := by omega
      _ = 2 ^ lo * (x % 2 ^ (hi + 1 - lo) + 1) := by rw [Nat.mul_add, Nat.mul_one]
      _ ≤ 2 ^ lo * 2 ^ (hi + 1 - lo) := Nat.mul_le_mul_left _ hx
      _ = _ := hp
  rw [e, Nat.testBit_two_pow_mul_add _ hm, Nat.testBit_two_pow_mul_add _ hl, Nat.testBit_mod_two_pow, Nat.testBit_shiftRight,
    Nat.testBit_mod_two_pow]
  by_cases h1 : i < hi + 1 <;> by_cases h2 : i < lo
  · simp [h1, h2, show ¬(lo ≤ i) by omega]
  · simp [h1, h2, show lo ≤ i by omega, show i ≤ hi by omega, show i - lo < hi + 1 - lo by omega]
  · omega
  · simp [h1, show ¬(i ≤ hi) by omega, show hi + 1 + (i - (hi + 1)) = i by omega]

/-- A register word with a field replaced, bit by bit. -/
theorem setFld_bit {w : Word} {hi lo x : Nat} (h : lo ≤ hi) (i : Nat) :
    bit (setFld w hi lo x).toNat i = (decide (i < 32) && if lo ≤ i ∧ i ≤ hi then bit x (i - lo) else bit w.toNat i) := by
  rw [bit_testBit, setFld, BitVec.toNat_ofNat, Nat.testBit_mod_two_pow, putBits_testBit h, bit_testBit, bit_testBit]

theorem and_bit (v w : Word) (i : Nat) : bit (v &&& w).toNat i = (bit v.toNat i && bit w.toNat i) := by
  simp [bit_testBit]

variable {s₀ : State} (r : Run s₀)

/-- A field update changes the register file only, and of it one register. -/
theorem wf_other {a b : Nat} (h : b ≠ a) (hi lo x : Nat) : (r.wf a hi lo x).s.rget b = r.s.rget b := rget_reg_ne h _

/-- A bit of a register after a field of it has been set. -/
theorem wf_rb {a hi lo : Nat} (h : lo ≤ hi) (x i : Nat) : (r.wf a hi lo x).s.rb a i =
    ((decide (i < 32) && if lo ≤ i ∧ i ≤ hi then bit x (i - lo) else r.s.rb a i) && bit (implMask a).toNat i) := by
  rw [State.rb, wf_s, rget_reg_same, and_bit, setFld_bit h]; rfl

/-- A flag of an implemented bit is 1 once set, and the other bits keep their values where no reserved bit was set. -/
theorem flag_rb {a i : Nat} (hi : i < 32) (hm : bit (implMask a).toNat i = true) : (r.flag a i).s.rb a i = true := by
  rw [Run.flag, Run.wb, wf_rb r (le_refl i)]
  rw [hm]
  simp [hi, b2n, bit]

theorem flag_other {a b : Nat} (h : b ≠ a) (i : Nat) : (r.flag a i).s.rget b = r.s.rget b := rget_reg_ne h _

end Sys2Proof.Machine
end

