-- ==== Sys2Proof/Laws/Ops.lean ====
section
/-!
SUPPORT. What the shared operations do, each said once: loops, threads, operations in flight, and bytes put into memory.
-/
namespace Sys2Proof.Machine

variable {s₀ : State}

/-- What every round of a loop keeps, the loop keeps. -/
theorem each_ind {α : Type} {P : Run s₀ → Prop} {l : List α} {f : Run s₀ → α → Run s₀}
    (hf : ∀ r a, a ∈ l → P r → P (f r a)) : ∀ {r : Run s₀}, P r → P (r.each l f) := by
  induction l with
  | nil => intro r h; exact h
  | cons a t ih =>
    intro r h
    exact ih (fun r b hb => hf r b (List.mem_cons_of_mem _ hb)) (hf r a (List.mem_cons_self ..) h)

/-! ## Threads -/

@[simp] theorem mapSp_s (r : Run s₀) (f : SpSt → SpSt) : (r.mapSp f).s = Upd.apply r.s (.sp (f r.s.sp)) := rfl

@[simp] theorem setThread_s (r : Run s₀) (t : Nat) (x : Thread) :
    (r.setThread t x).s = Upd.apply r.s (.sp { r.s.sp with threads := tset {} t x r.s.sp.threads }) := rfl

@[simp] theorem setThread_same (r : Run s₀) (t : Nat) (x : Thread) : (r.setThread t x).s.thread t = x := by
  simp [State.thread]

theorem setThread_ne (r : Run s₀) {t j : Nat} (h : j ≠ t) (x : Thread) :
    (r.setThread t x).s.thread j = r.s.thread j := by
  simp [State.thread, tget_tset_ne _ _ h]

/-- An update of another field leaves every thread. -/
@[simp] theorem thread_other {s : State} {u : Upd} (h : ∀ v, u ≠ .sp v) (t : Nat) : (u.apply s).thread t = s.thread t := by
  simp [State.thread, apply_sp_other s h]

@[simp] theorem hwlock_other {s : State} {u : Upd} (h : ∀ v, u ≠ .sp v) (n : Nat) : (u.apply s).hwlock n = s.hwlock n := by
  simp [State.hwlock, apply_sp_other s h]

/-! ## Memory -/

/-- Updates of other fields leave every byte. -/
@[simp] theorem byte_other {s : State} {u : Upd} (h₁ : ∀ a b, u ≠ .byte a b) (h₂ : u ≠ .memClear) (a : Nat) :
    (u.apply s).byte a = s.byte a := by simp [State.byte, apply_mem_other s h₁ h₂]

@[simp] theorem byte_same (s : State) (a : Nat) (b : Byte) : (Upd.apply s (.byte a b)).byte a = b := by simp [State.byte]

theorem byte_ne (s : State) {a c : Nat} (h : c ≠ a) (b : Byte) : (Upd.apply s (.byte a b)).byte c = s.byte c := by
  simp [State.byte, tget_tset_ne _ _ h]

/-- Bytes put into memory read back, and every other byte reads as before. -/
theorem putBytes_byte (r : Run s₀) (a : Nat) (d : List Byte) (c : Nat) :
    (r.putBytes a d).s.byte c = if h : a ≤ c ∧ c - a < d.length then d[c - a]'h.2 else r.s.byte c := by
  induction d generalizing r a with
  | nil => simp [Run.putBytes]
  | cons b t ih =>
    rw [Run.putBytes, ih]
    by_cases hc : c = a
    · subst hc
      have : ¬(c + 1 ≤ c ∧ c - (c + 1) < t.length) := by omega
      rw [dif_neg this, dif_pos ⟨le_refl _, by simp⟩]
      simp
    · by_cases h : a + 1 ≤ c ∧ c - (a + 1) < t.length
      · have h' : a ≤ c ∧ c - a < (b :: t).length := by simp only [List.length_cons]; omega
        rw [dif_pos h, dif_pos h']
        have : c - a = (c - (a + 1)) + 1 := by omega
        simp [this]
      · have h' : ¬(a ≤ c ∧ c - a < (b :: t).length) := by simp only [List.length_cons]; omega
        rw [dif_neg h, dif_neg h', up_s, byte_ne _ hc]

/-- Putting bytes changes memory only. -/
theorem putBytes_s (r : Run s₀) (a : Nat) (d : List Byte) :
    (r.putBytes a d).s = { r.s with mem := (r.putBytes a d).s.mem } := by
  induction d generalizing r a with
  | nil => rfl
  | cons b t ih => rw [Run.putBytes, ih]; rfl

/-! ## Operations in flight -/

theorem opSet_s (r : Run s₀) (o : Op) : (r.opSet o).s =
    { r.s with sp := { r.s.sp with ops := r.s.sp.ops.map fun x => if x.id = o.id then o else x } } := rfl

/-- An operation that is in the list reads as it was set. -/
theorem op_opSet (r : Run s₀) {o p : Op} (h : r.s.op o.id = some p) : (r.opSet o).s.op o.id = some o := by
  have go : ∀ l : List Op, l.find? (fun x => x.id == o.id) = some p →
      (l.map fun x => if x.id = o.id then o else x).find? (fun x => x.id == o.id) = some o := by
    intro l
    induction l with
    | nil => intro h; simp at h
    | cons a t ih =>
      intro h
      by_cases ha : a.id = o.id
      · simp [ha]
      · rw [List.find?_cons_of_neg (by simpa using ha)] at h
        have := ih h
        simp [ha, this]
  exact go _ h

/-- Every other operation reads as before. -/
theorem op_opSet_ne (r : Run s₀) (o : Op) {j : Nat} (h : j ≠ o.id) : (r.opSet o).s.op j = r.s.op j := by
  have go : ∀ l : List Op, (l.map fun x => if x.id = o.id then o else x).find? (fun x => x.id == j)
      = l.find? (fun x => x.id == j) := by
    intro l
    induction l with
    | nil => rfl
    | cons a t ih =>
      rw [List.map_cons, List.find?_cons, List.find?_cons, ih]
      by_cases ha : a.id = o.id
      · have hj : (o.id == j) = false := by simpa using fun e => h e.symm
        have hj' : (a.id == j) = false := by rw [ha]; exact hj
        rw [if_pos ha]; simp only [hj, hj']
      · rw [if_neg ha]
  exact go _

end Sys2Proof.Machine
end

