-- ==== Sys2Proof/Laws/Unit.lean ====
section
/-!
SUPPORT. What a unit's row does with its operation, and what an access to memory without errors does, each said once.
-/
namespace Sys2Proof.Machine

variable {s₀ : State}

/-! ## Rows of a unit -/

/-- The row acts on its operation when that may act. -/
theorem opRow_may (r : Run s₀) {o : Op} {unit code : Nat} (act : Run s₀ → Op → Run s₀) (h : OpMay r.s o unit code) :
    r.opRow o.id unit code act = act r o := by
  obtain ⟨h1, h2, h3, h4⟩ := h
  simp [Run.opRow, h1, h2, h3, h4]

/-- The row checks its grid-bound operation when its unit may take it. -/
theorem opTake_takes (r : Run s₀) {o : Op} {unit code : Nat} (check : Run s₀ → Op → Run s₀) (h : OpTakes r.s o unit code) :
    r.opTake o.id unit code check = check r o := by
  obtain ⟨h1, h2, h3, h4, h5, h6, h7, h8⟩ := h
  have h9 : r.s.opBehind o = false := by cases h : r.s.opBehind o <;> simp_all
  simp [Run.opTake, h1, h2, h3, h4, h5, h6, h7, h9]

theorem opTakeFree_takes (r : Run s₀) {o : Op} {unit code : Nat} (check : Run s₀ → Op → Run s₀) (h : OpTakes r.s o unit code) :
    r.opTakeFree o.id unit code check = check r o := by
  obtain ⟨h1, h2, h3, h4, h5, h6, h7, -⟩ := h
  simp [Run.opTakeFree, h1, h2, h3, h4, h5, h6, h7]

/-- A taken operation stands in the list as taken, and nothing else has changed. -/
theorem opTaken_taken (r : Run s₀) {o : Op} (h : r.s.op o.id = some o) : OnlyOp r.s (r.opTaken o).s o.id ∧ OpTaken r.s (r.opTaken o).s o :=
  ⟨⟨fun _ => rfl, fun _ _ => rfl, fun _ hj => op_opSet_ne _ _ hj⟩, op_opSet _ (o := { o with taken := true, takenAt := r.s.now }) h⟩

/-- An operation that ends: its status and results wait for OP_COMPLETE, and nothing else has changed. -/
theorem opEnd_ended (r : Run s₀) {o : Op} (h : r.s.op o.id = some o) (st : Status) (cause stamp : Nat) (res : List Byte) (uflags : Nat) :
    OnlyOp r.s (r.opEnd o st cause stamp res uflags).s o.id ∧ OpEnded (r.opEnd o st cause stamp res uflags).s o.id st res :=
  ⟨⟨fun _ => rfl, fun _ _ => rfl, fun _ hj => op_opSet_ne _ _ hj⟩, _, op_opSet r (o := { o with
    acted := true
    actedAt := r.s.now
    out := some { status := st, cause := cause, uflags := uflags, unit := o.unit, code := o.code, tag := o.tag,
                  stamp := stamp % 2 ^ 32, obj := o.obj }
    results := res }) h, rfl, rfl⟩

/-! ## Memory -/

/-- A read that meets no error changes nothing. -/
theorem eccRead_clean (r : Run s₀) {a n : Nat} (h : r.s.eccIn a n = []) : r.eccRead a n = (r, false) := by
  simp [Run.eccRead, h]

/-- A permitted read of the device's memory without errors answers its bytes and changes nothing. -/
theorem memRead_ok (r : Run s₀) {port a n : Nat} (h : r.s.memStatus port a n false = .ok) (he : r.s.eccIn a n = [])
    (hh : ∀ w, regionOf a ≠ .host w) : r.memRead port a n = (r, .ok, r.s.bytes a n) := by
  unfold Run.memRead
  rw [h]
  simp only [eccRead_clean r he, Bool.false_eq_true, if_false]

/-- A permitted write of the device's memory without errors puts its bytes. -/
theorem memWrite_ok (r : Run s₀) {port a : Nat} {d : List Byte} (h : r.s.memStatus port a d.length true = .ok)
    (he : r.s.eccIn a d.length = []) (hh : ∀ w, regionOf a ≠ .host w) (hd : d ≠ []) :
    r.memWrite port a d = (r.putBytes a d, .ok) := by
  unfold Run.memWrite
  have hd' : d.isEmpty = false := by cases d <;> simp_all
  rw [hd', h]
  simp only [he, List.filter_nil, List.isEmpty_nil, Bool.not_true, Bool.false_eq_true, if_false, each_nil]

/-- Every update of the memory keeps its canonical form. -/
theorem putBytes_wf (r : Run s₀) (a : Nat) (d : List Byte) (h : Memory.wf r.s.mem = true) : Memory.wf (r.putBytes a d).s.mem = true := by
  induction d generalizing r a with
  | nil => exact h
  | cons b t ih =>
    rw [Run.putBytes]
    exact ih _ _ (by rw [up_s, apply_byte]; exact twf_tset h)

end Sys2Proof.Machine
end

