-- ==== Sys2Proof/Laws/Isa.lean ====
section
/-!
SUPPORT. What the issue slot does (R147 to R149), and how an instruction that issues comes to its action.
-/
namespace Sys2Proof.Machine

variable {s₀ : State}

/-- The state after the slot differs in the SP cluster and the register file only. -/
structure SlotUsed (s u : State) (t : Nat) : Prop where
  rest : u = { s with sp := u.sp, regs := u.regs }
  regs : ∀ a, a ≠ Reg.spForced → a ≠ Reg.spEvstat → u.rget a = s.rget a
  self : (∀ l, (s.thread t).wait ≠ .yield l) → u.thread t = { s.thread t with starve := 0, dbgStep := false }
  others : ∀ j, j ≠ t → SameRegs (s.thread j) (u.thread j)
  waits : ∀ j, j ≠ t → (∀ l, (s.thread j).wait ≠ .yield l) → u.thread j = s.thread j
  ops : u.sp.ops = s.sp.ops
  locks : u.sp.locks = s.sp.locks
  nextOp : u.sp.nextOp = s.sp.nextOp
  restart : u.sp.restart = s.sp.restart
  cyc0 : u.sp.cyc0 = s.sp.cyc0

theorem SameRegs.rfl' (x : Thread) : SameRegs x x := ⟨rfl, rfl, rfl, rfl, rfl, rfl, rfl⟩

theorem SameRegs.trans {x y z : Thread} (h : SameRegs x y) (g : SameRegs y z) : SameRegs x z := by
  obtain ⟨a, b, c, d, e, f, i⟩ := h
  obtain ⟨a', b', c', d', e', f', i'⟩ := g
  exact ⟨a'.trans a, b'.trans b, c'.trans c, d'.trans d, e'.trans e, f'.trans f, i'.trans i⟩

theorem slotForced_spec (r : Run s₀) (p : Nat) : (r.slotForced p).s = { r.s with regs := (r.slotForced p).s.regs } ∧
    ∀ a, a ≠ Reg.spForced → a ≠ Reg.spEvstat → (r.slotForced p).s.rget a = r.s.rget a := by
  unfold Run.slotForced
  split
  · refine ⟨rfl, fun a h h' => ?_⟩
    simp only [flag_s, count_s]
    rw [rget_reg_ne h', rget_reg_ne h]
  · exact ⟨rfl, fun _ _ _ => rfl⟩

theorem slotTaken_spec (r : Run s₀) (t : Nat) : SlotUsed r.s (r.slotTaken t).s t := by
  refine ⟨rfl, fun a _ _ => rfl, fun _ => ?_, fun j hj => ?_, fun j hj _ => ?_, rfl, rfl, rfl, rfl, rfl⟩
  · exact setThread_same ..
  · rw [Run.slotTaken, setThread_ne _ hj]; exact SameRegs.rfl' _
  · rw [Run.slotTaken, setThread_ne _ hj]; rfl

theorem yieldSeen_spec (r : Run s₀) (t k : Nat) (h : ∀ l, (r.s.thread t).wait ≠ .yield l) :
    (r.yieldSeen t k).s = { r.s with sp := (r.yieldSeen t k).s.sp } ∧ (r.yieldSeen t k).s.thread t = r.s.thread t ∧
    (∀ j, SameRegs (r.s.thread j) ((r.yieldSeen t k).s.thread j)) ∧
    (∀ j, (∀ l, (r.s.thread j).wait ≠ .yield l) → (r.yieldSeen t k).s.thread j = r.s.thread j) ∧
    (r.yieldSeen t k).s.sp = { r.s.sp with threads := (r.yieldSeen t k).s.sp.threads } := by
  unfold Run.yieldSeen
  dsimp only
  split
  · rename_i l hl
    have hk : t ≠ k := fun e => h l (by rw [e]; exact hl)
    refine ⟨rfl, setThread_ne _ hk _, fun j => ?_, fun j hj => ?_, rfl⟩
    · by_cases e : j = k
      · subst e; rw [setThread_same]; exact ⟨rfl, rfl, rfl, rfl, rfl, rfl, rfl⟩
      · rw [setThread_ne _ e]; exact SameRegs.rfl' _
    · by_cases e : j = k
      · subst e; exact absurd hl (hj l)
      · exact setThread_ne _ e _
  · exact ⟨rfl, rfl, fun j => SameRegs.rfl' _, fun _ _ => rfl, rfl⟩

/-- The slot is used: everything it can do. -/
theorem useSlot_spec (r : Run s₀) (t : Nat) (h : ∀ l, (r.s.thread t).wait ≠ .yield l) :
    SlotUsed r.s (r.useSlot t).s t := by
  obtain ⟨f1, f2⟩ := slotForced_spec r (t / 8)
  have fth : ∀ j, (r.slotForced (t / 8)).s.thread j = r.s.thread j := by intro j; rw [f1]; rfl
  have h2 := slotTaken_spec (r.slotForced (t / 8)) t
  have base : SlotUsed r.s ((r.slotForced (t / 8)).slotTaken t).s t := by
    refine ⟨?_, ?_, ?_, ?_, ?_, ?_, ?_, ?_, ?_, ?_⟩
    · rw [h2.rest, f1]
    · intro a h1 h3; rw [h2.regs a h1 h3, f2 a h1 h3]
    · intro _; rw [h2.self (by rw [fth]; exact h), fth]
    · intro j hj; have := h2.others j hj; rwa [fth] at this
    · intro j hj hl; rw [h2.waits j hj (by rw [fth]; exact hl), fth]
    · rw [h2.ops, f1]
    · rw [h2.locks, f1]
    · rw [h2.nextOp, f1]
    · rw [h2.restart, f1]
    · rw [h2.cyc0, f1]
  refine each_ind (P := fun q => SlotUsed r.s q.s t) ?_ base
  intro q k _ hq
  have hw : ∀ l, (q.s.thread t).wait ≠ .yield l := by rw [hq.self h]; exact h
  obtain ⟨a, b, c, d, e⟩ := yieldSeen_spec q t k hw
  refine ⟨?_, ?_, ?_, ?_, ?_, ?_, ?_, ?_, ?_, ?_⟩
  · rw [a, hq.rest]
  · intro x h1 h3
    have : (q.yieldSeen t k).s.rget x = q.s.rget x := by rw [a]; rfl
    rw [this, hq.regs x h1 h3]
  · intro _; rw [b, hq.self h]
  · intro j hj; exact (hq.others j hj).trans (c j)
  · intro j hj hl
    rw [d j (by rw [hq.waits j hj hl]; exact hl), hq.waits j hj hl]
  · rw [e]; exact hq.ops
  · rw [e]; exact hq.locks
  · rw [e]; exact hq.nextOp
  · rw [e]; exact hq.restart
  · rw [e]; exact hq.cyc0

/-! ## The thread that issues -/

theorem argMax_mem {key : Nat → Nat} {l : List Nat} {t : Nat} (h : argMax key l = some t) : t ∈ l := by
  induction l with
  | nil => simp [argMax] at h
  | cons a l ih =>
    unfold argMax at h
    split at h
    · simp at h; simp [h]
    · rename_i b hb
      split at h <;> simp at h
      · subst h; exact List.mem_cons_of_mem _ (ih hb)
      · simp [h]

/-- The thread from which a processor issues is ready. -/
theorem pick_ready {s : State} {p t : Nat} {b : Bool} (h : s.pick p = some (t, b)) : s.threadReady t = true := by
  have key : t ∈ s.readyOf p := by
    unfold State.pick at h
    dsimp only at h
    split at h
    · rename_i x hx
      simp at h
      have := argMax_mem hx
      rw [h.1] at this
      exact (List.mem_filter.1 this).1
    · split at h
      · simp at h
      · rename_i c _
        rcases hv : argMax (fun t => 7 - (t % 8 + 7 - tget 7 (p * 4 + s.prioOf c) s.sp.lastAt) % 8)
            ((s.readyOf p).filter fun t => s.prioOf t == s.prioOf c) with _ | x
        · rw [hv] at h; simp at h
        · rw [hv] at h
          simp at h
          have := argMax_mem hv
          rw [h.1] at this
          exact (List.mem_filter.1 this).1
  exact (List.mem_filter.1 key).2

/-- A thread that issues is RUNNING and waits for nothing. -/
theorem mayIssue_ready {s : State} {t : Nat} (h : s.mayIssue t = true) :
    s.threadReady t = true ∧ (s.thread t).wait = .none ∧ (s.thread t).state = .running := by
  have hr : s.threadReady t = true := by
    unfold State.mayIssue at h
    simp only [Bool.and_eq_true] at h
    obtain ⟨_, h⟩ := h
    split at h
    · rename_i x b hx
      have := beq_iff_eq.1 h
      subst this
      exact pick_ready hx
    · simp at h
  refine ⟨hr, ?_, ?_⟩ <;> (unfold State.threadReady at hr; simp at hr; simp [hr])

/-! ## Fetching and acting (R96 to R99) -/

theorem eccIn_mono {s : State} {a b n m : Nat} (h : s.eccIn a n = []) (h1 : a ≤ b) (h2 : b + m ≤ a + n) (hm : 0 < m) :
    s.eccIn b m = [] := by
  unfold State.eccIn at *
  rw [List.filter_eq_nil_iff] at *
  intro e he
  have := h e he
  simp only [decide_eq_true_eq, not_and, not_le] at *
  intro h3
  have h4 : a / 8 ≤ b / 8 := Nat.div_le_div_right h1
  have h5 : (b + m - 1) / 8 ≤ (a + n - 1) / 8 := Nat.div_le_div_right (by omega)
  omega

theorem SlotUsed.mem {s u : State} {t : Nat} (h : SlotUsed s u t) (a : Nat) : u.byte a = s.byte a := by
  rw [h.rest]; rfl

theorem SlotUsed.imem {s u : State} {t : Nat} (h : SlotUsed s u t) (j pc : Nat) : u.imem j pc = s.imem j pc := by
  rw [h.rest]; rfl

theorem SlotUsed.eccIn {s u : State} {t : Nat} (h : SlotUsed s u t) (a n : Nat) : u.eccIn a n = s.eccIn a n := by
  rw [h.rest]; rfl

/-- An instruction that issues comes to its action, on a state that differs by the use of its slot. -/
theorem issue_act {s : State} {t w : Nat} {q : QRow} (h : Issues s t w q)
    (hx : qLen w = 8 → qExtOk w (s.imem t ((s.thread t).pc + 4)) = true)
    (act : Run s → Nat → Nat → Nat → Run s) :
    ∃ r : Run s, SlotUsed s r.s t ∧ r.s.thread t = { s.thread t with starve := 0, dbgStep := false } ∧
      (Run.start s).issue t q act = act r t w (if qLen w = 8 then s.imem t ((s.thread t).pc + 4) else 0) := by
  obtain ⟨h1, h2, h3, h4, h5, h6, h7, h8⟩ := h
  have hw := (mayIssue_ready h2).2.1
  have hy : ∀ l, (s.thread t).wait ≠ .yield l := by rw [hw]; intro l; simp
  have hs := useSlot_spec (Run.start s) t hy
  refine ⟨(Run.start s).useSlot t, hs, hs.self hy, ?_⟩
  have hlen : qLen w = 4 ∨ qLen w = 8 := by unfold qLen; split <;> simp
  have hpc : ¬ 0x40000 ≤ (s.thread t).pc := by rcases hlen with e | e <;> rw [e] at h4 <;> omega
  have e1 : ((Run.start s).useSlot t).s.eccIn (imemAddr t (s.thread t).pc) 4 = [] := by
    rw [hs.eccIn]
    exact eccIn_mono h8 (le_refl _) (by rcases hlen with e | e <;> rw [e] <;> omega) (by omega)
  unfold Run.issue
  simp only [start_s, h1, h2, decide_true, Bool.and_self, Bool.not_true, Bool.false_eq_true, if_false, h3, hpc, h5, h6,
    ne_eq, not_true_eq_false, Run.fetchBad, eccRead_clean _ e1]
  rcases hlen with e | e
  · simp [e, h7]
  · have e2 : ((Run.start s).useSlot t).s.eccIn (imemAddr t ((s.thread t).pc + 4)) 4 = [] := by
      rw [hs.eccIn]
      refine eccIn_mono h8 (by unfold imemAddr; omega) ?_ (by omega)
      rw [e]; unfold imemAddr; omega
    have hpc2 : ¬ 0x40000 ≤ (s.thread t).pc + 4 := by rw [e] at h4; omega
    simp [e, h7, eccRead_clean _ e2, hs.imem, hx e]
    intro hh; omega

/-- An instruction that only retires leaves everything of IsaFrame. -/
theorem retire_spec {s : State} {t : Nat} {r : Run s} (h : SlotUsed s r.s t) (y : Thread) (n c : Nat) :
    IsaFrame s (r.retire t y n c).s t ∧
      (r.retire t y n c).s.thread t = { y with pc := y.pc + n, readyAt := s.cyc + c } := by
  have hcyc : r.s.cyc = s.cyc := by rw [h.rest]
  refine ⟨⟨⟨fun a => ?_, fun a h1 h2 => ?_, fun j hj => ?_⟩, h.ops, h.locks, ?_⟩, ?_⟩
  · have : (r.retire t y n c).s.byte a = r.s.byte a := rfl
    rw [this, h.mem]
  · have : (r.retire t y n c).s.rget a = r.s.rget a := rfl
    rw [this, h.regs a h1 h2]
  · rw [Run.retire, setThread_ne _ hj]; exact h.others j hj
  · have : (r.retire t y n c).s.sig = r.s.sig := rfl
    rw [this, h.rest]
  · rw [Run.retire, setThread_same, hcyc]

end Sys2Proof.Machine
end

