-- ==== Sys2Proof/Laws/PerInstr.lean ====
section
/-!
SUPPORT. What a well-formed command names exists: for every row, each thread, axis, converter, port, session, register port and
so on that the command names is one of those that the device has.
-/
namespace Sys2Proof.Laws.Formed

open Sys2Proof Sys2Proof.Machine

/-- The parts of the device that a command names by number, each with how many there are. -/
def names : Instr → List (Nat × Nat)
  | .registerWrite port _ _ => [(port, 16)]
  | .rcRead port _ => [(port, 16)]
  | .lowWordRead port _ => [(port, 16)]
  | .meshRequest port cls _ _ _ _ => [(port, 16), (cls, 4)]
  | .meshGrant t => [(t, 16)]
  | .scrubRead w => [(w, 2 ^ 37)]
  | .incHiWrite n _ => [(n, 8)]
  | .timeAdjGo n _ => [(n, 8)]
  | .slewEnd n => [(n, 8)]
  | .trigEdge ch _ f => [(ch, 9), (f, 64)]
  | .trigOut0Read ch => [(ch, 9)]
  | .gridBoundary g _ => [(g, 16)]
  | .intAlu t => [(t, 64)]
  | .intImm t => [(t, 64)]
  | .cmp t => [(t, 64)]
  | .cmpi t => [(t, 64)]
  | .predLogic t => [(t, 64)]
  | .floatOp t => [(t, 64)]
  | .fcmp t => [(t, 64)]
  | .memLoad t => [(t, 64)]
  | .memStore t => [(t, 64)]
  | .storeAck t _ => [(t, 64)]
  | .storeRefused t _ => [(t, 64)]
  | .sigrd t => [(t, 64)]
  | .sigwr t => [(t, 64)]
  | .sigwrt t => [(t, 64)]
  | .sigasH t => [(t, 64)]
  | .sigasI t => [(t, 64)]
  | .sighist t => [(t, 64)]
  | .br t => [(t, 64)]
  | .call t => [(t, 64)]
  | .jr t => [(t, 64)]
  | .sequentialFetchEnd t => [(t, 64)]
  | .op t => [(t, 64)]
  | .opx t => [(t, 64)]
  | .atT t => [(t, 64)]
  | .hstat t => [(t, 64)]
  | .hrel t => [(t, 64)]
  | .hcan t => [(t, 64)]
  | .hmask t => [(t, 64)]
  | .waitAny t => [(t, 64)]
  | .waitAll t => [(t, 64)]
  | .waitTimeout t => [(t, 64)]
  | .fence t => [(t, 64)]
  | .fenceM t => [(t, 64)]
  | .lock t => [(t, 64)]
  | .trylock t => [(t, 64)]
  | .unlock t => [(t, 64)]
  | .nop t => [(t, 64)]
  | .yield t => [(t, 64)]
  | .halt t => [(t, 64)]
  | .mfs t => [(t, 64)]
  | .mfp t => [(t, 64)]
  | .mtp t => [(t, 64)]
  | .trap t => [(t, 64)]
  | .li t => [(t, 64)]
  | .lih t => [(t, 64)]
  | .threadStart t => [(t, 64)]
  | .threadStop t => [(t, 64)]
  | .faultRestart t => [(t, 64)]
  | .lockForceBreak n => [(n, 256)]
  | .sigUpdateApply b => [(b, 16)]
  | .ageingVisit i => [(i, 2 ^ 18)]
  | .bankHot b => [(b, 16)]
  | .leRelease g => [(g, 16)]
  | .leSample c => [(c, 256)]
  | .carrierReload n => [(n, 48)]
  | .pwmCompare n x => [(n, 48), (x, 3)]
  | .deadTimeEnd n i => [(n, 48), (i, 6)]
  | .dutyWrite n i _ => [(n, 48), (i, 6)]
  | .outEnWrite n _ => [(n, 48)]
  | .axClearWrite n _ _ => [(n, 48)]
  | .stepIssue n => [(n, 48)]
  | .stepPulseEnd n => [(n, 48)]
  | .standstillReached n => [(n, 48)]
  | .drvokFall n => [(n, 48)]
  | .drvokRise n => [(n, 48)]
  | .reseatStart n => [(n, 48)]
  | .reseatStep n => [(n, 48)]
  | .reseatDone n => [(n, 48)]
  | .encoderEdge n _ _ => [(n, 48)]
  | .zEdge n => [(n, 48)]
  | .ssiFrameStart n => [(n, 48)]
  | .frameEngineStart n => [(n, 48)]
  | .feedbackFrameEnd n _ => [(n, 48)]
  | .feedbackFrameTimeout n => [(n, 48)]
  | .ocTrip c => [(c, 144)]
  | .sdStuck c => [(c, 144)]
  | .auxEdge n i _ => [(n, 48), (i, 2)]
  | .auxQualified n i => [(n, 48), (i, 2)]
  | .axisNotReady n => [(n, 48)]
  | .camMiss n => [(n, 48)]
  | .vmRunout m => [(m, 16)]
  | .adcSequenceTrigger n => [(n, 12)]
  | .adcTriggerWrite n _ => [(n, 12)]
  | .adcCalibWrite n _ => [(n, 12)]
  | .adcInjWrite n _ => [(n, 12)]
  | .adcOwsrcWrite n _ => [(n, 12)]
  | .adcHold n => [(n, 12)]
  | .adcResult n _ => [(n, 12)]
  | .adcMeshResult n => [(n, 12)]
  | .adcCalStart n => [(n, 12)]
  | .adcCalEnd n _ => [(n, 12)]
  | .owSettleEnd n => [(n, 12)]
  | .blockLock p _ _ => [(p, 4)]
  | .linkDown p _ ring => [(p, 4), (ring, 16)]
  | .helloTimeout p ring => [(p, 4), (ring, 16)]
  | .helloSend p => [(p, 4)]
  | .hello p _ _ => [(p, 4)]
  | .linkUp p _ => [(p, 4)]
  | .herdFrameReceive p _ _ _ _ _ => [(p, 4)]
  | .portTxStart p _ => [(p, 4)]
  | .isoSlot p i _ => [(p, 4), (i, 1024)]
  | .claim p _ => [(p, 4)]
  | .electionEnd resting blocked => [(resting, 16), (blocked, 16)]
  | .size p _ => [(p, 4)]
  | .assign p _ => [(p, 4)]
  | .cut ring _ _ => [(ring, 16)]
  | .syncReqSend p => [(p, 4)]
  | .syncReq p _ _ => [(p, 4)]
  | .syncResult p _ _ => [(p, 4)]
  | .txnRetryTimeout _ dest => [(dest, 2 ^ 16)]
  | .replayExpiry src _ => [(src, 2 ^ 16)]
  | .ethTailWrite n q _ => [(n, 2), (q, 8)]
  | .ethTxDone n _ => [(n, 2)]
  | .ethRxFrame n _ _ => [(n, 2)]
  | .ethLinkChange n _ speed => [(n, 2), (speed, 4)]
  | .gclEntry n => [(n, 2)]
  | .ptpOffsetWrite n _ => [(n, 2)]
  | .canReqWrite n j => [(n, 4), (j, 100)]
  | .canCancelWrite n j => [(n, 4), (j, 100)]
  | .canTxEnd n _ _ _ => [(n, 4)]
  | .canRecovered n => [(n, 4)]
  | .canRecoverWrite n => [(n, 4)]
  | .canRxFrame n _ _ _ _ _ _ _ => [(n, 4)]
  | .canAckWrite n _ => [(n, 4)]
  | .abdCandidateEnd n => [(n, 4)]
  | .psTake i => [(i, 2048)]
  | .psSend i => [(i, 2048)]
  | .psDatagramReceive i _ => [(i, 2048)]
  | .psWatchdogTimeout i => [(i, 2048)]
  | .coincidenceWindowEnd n => [(n, 16)]
  | .captRecordWrite n => [(n, 16)]
  | .captRdWrite n _ => [(n, 16)]
  | .connectionWatchdog c => [(c, 16)]
  | .offPulse out k _ _ => [(k, if out then 8 else 48)]
  | .redStateTake d => [(d.getD 0, 7)]
  | .divergeMaskExpiry d => [(d, 7)]
  | .outboundReadTimeout port _ => [(port, 16)]
  | .dmaGo c => [(c, 8)]
  | .dmaBurst c => [(c, 8)]
  | .eventLevelRise v => [(v, 128)]
  | .msixSend v => [(v, 128)]
  | .sensorSample i _ => [(i, 26)]
  | .offer p _ => [(p, 4)]
  | .answer p _ => [(p, 4)]
  | .data p _ => [(p, 4)]
  | .ack p _ => [(p, 4)]
  | .done p _ => [(p, 4)]
  | .porRelease low _ _ => [(low, 16384)]
  | .coldReset src => [(src, 5)]
  | .warmRequest src => [(src, 3)]
  | .powerFail src => [(src, 4)]
  | .pllUnlock i => [(i, 5)]
  | .gpioInputChange levels => [(levels, 65536)]
  | .busIntegration n => [(n, 4)]
  | _ => []

/-- Every number that a well-formed command names is in its range. -/
def Statement (i : Instr) : Prop := i.wf = true → ∀ e ∈ names i, e.1 < e.2

theorem none_named {i : Instr} (h : names i = []) : Statement i := fun _ e he => by rw [h] at he; exact absurd he List.not_mem_nil

theorem one {a b : Nat} (h : a < b) : ∀ e ∈ [(a, b)], e.1 < e.2 := fun e he => by rw [List.mem_singleton.mp he]; exact h

theorem two {a b c d : Nat} (h : a < b) (k : c < d) : ∀ e ∈ [(a, b), (c, d)], e.1 < e.2 := fun e he => by
  rcases List.mem_cons.mp he with rfl | he
  · exact h
  · exact one k e he

theorem registerWrite (port : Nat) (a : Nat) (v : Word) : Statement (.registerWrite port a v) := fun h => one (of_decide_eq_true h).1
theorem rcRead (port : Nat) (a : Nat) : Statement (.rcRead port a) := fun h => one (of_decide_eq_true h).1
theorem lowWordRead (port : Nat) (a : Nat) : Statement (.lowWordRead port a) := fun h => one (of_decide_eq_true h).1
theorem commitRequest (g : Group) : Statement (.commitRequest g) := none_named rfl
theorem commitApply (g : Group) : Statement (.commitApply g) := none_named rfl
theorem meshRequest (port : Nat) (cls : Nat) (a : Nat) (n : Nat) (wr : Bool) (d : List Byte) : Statement (.meshRequest port cls a n wr d) := fun h => two (of_decide_eq_true h).1 (of_decide_eq_true h).2.1
theorem meshGrant (t : Nat) : Statement (.meshGrant t) := fun h => one (of_decide_eq_true h)
theorem nthWrite (v : Word) : Statement (.nthWrite v) := none_named rfl
theorem scrubRead (w : Nat) : Statement (.scrubRead w) := fun h => one (of_decide_eq_true h)
theorem refinLoss : Statement (.refinLoss) := none_named rfl
theorem refinReturn : Statement (.refinReturn) := none_named rfl
theorem refinEnWrite (v : Word) : Statement (.refinEnWrite v) := none_named rfl
theorem tbPllUnlock : Statement (.tbPllUnlock) := none_named rfl
theorem incHiWrite (n : Nat) (v : Word) : Statement (.incHiWrite n v) := fun h => one (of_decide_eq_true h)
theorem timeAdjGo (n : Nat) (v : Word) : Statement (.timeAdjGo n v) := fun h => one (of_decide_eq_true h)
theorem slewEnd (n : Nat) : Statement (.slewEnd n) := fun h => one (of_decide_eq_true h)
theorem timeSnapWrite (v : Word) : Statement (.timeSnapWrite v) := none_named rfl
theorem trigEdge (ch : Nat) (rising : Bool) (f : Nat) : Statement (.trigEdge ch rising f) := fun h => two (of_decide_eq_true h).1 (of_decide_eq_true h).2
theorem trigOut0Read (ch : Nat) : Statement (.trigOut0Read ch) := fun h => one (of_decide_eq_true h)
theorem ppsOutPulse : Statement (.ppsOutPulse) := none_named rfl
theorem ppsPulseEnd : Statement (.ppsPulseEnd) := none_named rfl
theorem gridBoundary (g : Nat) (sd : Unit) : Statement (.gridBoundary g sd) := fun h => one (of_decide_eq_true h)
theorem timedOpDue (id : Nat) : Statement (.timedOpDue id) := none_named rfl
theorem holdoverLimit : Statement (.holdoverLimit) := none_named rfl
theorem syncIntervalsMissed : Statement (.syncIntervalsMissed) := none_named rfl
theorem timeSnap (id : Nat) : Statement (.timeSnap id) := none_named rfl
theorem timeAdjust (id : Nat) : Statement (.timeAdjust id) := none_named rfl
theorem timeCommit (id : Nat) : Statement (.timeCommit id) := none_named rfl
theorem timeBoundary (id : Nat) : Statement (.timeBoundary id) := none_named rfl
theorem intAlu (t : Nat) : Statement (.intAlu t) := fun h => one (of_decide_eq_true h)
theorem intImm (t : Nat) : Statement (.intImm t) := fun h => one (of_decide_eq_true h)
theorem cmp (t : Nat) : Statement (.cmp t) := fun h => one (of_decide_eq_true h)
theorem cmpi (t : Nat) : Statement (.cmpi t) := fun h => one (of_decide_eq_true h)
theorem predLogic (t : Nat) : Statement (.predLogic t) := fun h => one (of_decide_eq_true h)
theorem floatOp (t : Nat) : Statement (.floatOp t) := fun h => one (of_decide_eq_true h)
theorem fcmp (t : Nat) : Statement (.fcmp t) := fun h => one (of_decide_eq_true h)
theorem memLoad (t : Nat) : Statement (.memLoad t) := fun h => one (of_decide_eq_true h)
theorem memStore (t : Nat) : Statement (.memStore t) := fun h => one (of_decide_eq_true h)
theorem storeAck (t : Nat) (i : Nat) : Statement (.storeAck t i) := fun h => one (of_decide_eq_true h)
theorem storeRefused (t : Nat) (i : Nat) : Statement (.storeRefused t i) := fun h => one (of_decide_eq_true h)
theorem sigrd (t : Nat) : Statement (.sigrd t) := fun h => one (of_decide_eq_true h)
theorem sigwr (t : Nat) : Statement (.sigwr t) := fun h => one (of_decide_eq_true h)
theorem sigwrt (t : Nat) : Statement (.sigwrt t) := fun h => one (of_decide_eq_true h)
theorem sigasH (t : Nat) : Statement (.sigasH t) := fun h => one (of_decide_eq_true h)
theorem sigasI (t : Nat) : Statement (.sigasI t) := fun h => one (of_decide_eq_true h)
theorem sighist (t : Nat) : Statement (.sighist t) := fun h => one (of_decide_eq_true h)
theorem br (t : Nat) : Statement (.br t) := fun h => one (of_decide_eq_true h)
theorem call (t : Nat) : Statement (.call t) := fun h => one (of_decide_eq_true h)
theorem jr (t : Nat) : Statement (.jr t) := fun h => one (of_decide_eq_true h)
theorem sequentialFetchEnd (t : Nat) : Statement (.sequentialFetchEnd t) := fun h => one (of_decide_eq_true h)
theorem op (t : Nat) : Statement (.op t) := fun h => one (of_decide_eq_true h)
theorem opx (t : Nat) : Statement (.opx t) := fun h => one (of_decide_eq_true h)
theorem atT (t : Nat) : Statement (.atT t) := fun h => one (of_decide_eq_true h)
theorem opAccept (id : Nat) : Statement (.opAccept id) := none_named rfl
theorem opComplete (id : Nat) : Statement (.opComplete id) := none_named rfl
theorem hstat (t : Nat) : Statement (.hstat t) := fun h => one (of_decide_eq_true h)
theorem hrel (t : Nat) : Statement (.hrel t) := fun h => one (of_decide_eq_true h)
theorem hcan (t : Nat) : Statement (.hcan t) := fun h => one (of_decide_eq_true h)
theorem hmask (t : Nat) : Statement (.hmask t) := fun h => one (of_decide_eq_true h)
theorem waitAny (t : Nat) : Statement (.waitAny t) := fun h => one (of_decide_eq_true h)
theorem waitAll (t : Nat) : Statement (.waitAll t) := fun h => one (of_decide_eq_true h)
theorem waitTimeout (t : Nat) : Statement (.waitTimeout t) := fun h => one (of_decide_eq_true h)
theorem fence (t : Nat) : Statement (.fence t) := fun h => one (of_decide_eq_true h)
theorem fenceM (t : Nat) : Statement (.fenceM t) := fun h => one (of_decide_eq_true h)
theorem lock (t : Nat) : Statement (.lock t) := fun h => one (of_decide_eq_true h)
theorem trylock (t : Nat) : Statement (.trylock t) := fun h => one (of_decide_eq_true h)
theorem unlock (t : Nat) : Statement (.unlock t) := fun h => one (of_decide_eq_true h)
theorem nop (t : Nat) : Statement (.nop t) := fun h => one (of_decide_eq_true h)
theorem yield (t : Nat) : Statement (.yield t) := fun h => one (of_decide_eq_true h)
theorem halt (t : Nat) : Statement (.halt t) := fun h => one (of_decide_eq_true h)
theorem mfs (t : Nat) : Statement (.mfs t) := fun h => one (of_decide_eq_true h)
theorem mfp (t : Nat) : Statement (.mfp t) := fun h => one (of_decide_eq_true h)
theorem mtp (t : Nat) : Statement (.mtp t) := fun h => one (of_decide_eq_true h)
theorem trap (t : Nat) : Statement (.trap t) := fun h => one (of_decide_eq_true h)
theorem li (t : Nat) : Statement (.li t) := fun h => one (of_decide_eq_true h)
theorem lih (t : Nat) : Statement (.lih t) := fun h => one (of_decide_eq_true h)
theorem threadStart (t : Nat) : Statement (.threadStart t) := fun h => one (of_decide_eq_true h)
theorem threadStop (t : Nat) : Statement (.threadStop t) := fun h => one (of_decide_eq_true h)
theorem faultRestart (t : Nat) : Statement (.faultRestart t) := fun h => one (of_decide_eq_true h)
theorem lockForceBreak (n : Nat) : Statement (.lockForceBreak n) := fun h => one (of_decide_eq_true h)
theorem warmRestart : Statement (.warmRestart) := none_named rfl
theorem warmRestartEnd : Statement (.warmRestartEnd) := none_named rfl
theorem sigUpdateApply (b : Nat) : Statement (.sigUpdateApply b) := fun h => one (of_decide_eq_true h)
theorem sampleStage : Statement (.sampleStage) := none_named rfl
theorem ageingVisit (i : Nat) : Statement (.ageingVisit i) := fun h => one (of_decide_eq_true h)
theorem bankHot (b : Nat) : Statement (.bankHot b) := fun h => one (of_decide_eq_true h)
theorem sigLocateWrite (v : Word) : Statement (.sigLocateWrite v) := none_named rfl
theorem dportDefine : Statement (.dportDefine) := none_named rfl
theorem dportUndefine : Statement (.dportUndefine) := none_named rfl
theorem dportInfo : Statement (.dportInfo) := none_named rfl
theorem dportWrite : Statement (.dportWrite) := none_named rfl
theorem dportWriteNow : Statement (.dportWriteNow) := none_named rfl
theorem sigDefine (id : Nat) : Statement (.sigDefine id) := none_named rfl
theorem sigUndefine (id : Nat) : Statement (.sigUndefine id) := none_named rfl
theorem sigRead (id : Nat) : Statement (.sigRead id) := none_named rfl
theorem sigWrite (id : Nat) : Statement (.sigWrite id) := none_named rfl
theorem sigSetroute (id : Nat) : Statement (.sigSetroute id) := none_named rfl
theorem sigWatch (id : Nat) : Statement (.sigWatch id) := none_named rfl
theorem sigInfo (id : Nat) : Statement (.sigInfo id) := none_named rfl
theorem leRelease (g : Nat) : Statement (.leRelease g) := fun h => one (of_decide_eq_true h)
theorem leSample (c : Nat) : Statement (.leSample c) := fun h => one (of_decide_eq_true h)
theorem leStart (id : Nat) : Statement (.leStart id) := none_named rfl
theorem leStop (id : Nat) : Statement (.leStop id) := none_named rfl
theorem leSwap (id : Nat) : Statement (.leSwap id) := none_named rfl
theorem leKick (id : Nat) : Statement (.leKick id) := none_named rfl
theorem leResume (id : Nat) : Statement (.leResume id) := none_named rfl
theorem leStatus (id : Nat) : Statement (.leStatus id) := none_named rfl
theorem leTraceStop (id : Nat) : Statement (.leTraceStop id) := none_named rfl
theorem leTraceRearm (id : Nat) : Statement (.leTraceRearm id) := none_named rfl
theorem leCommit (id : Nat) : Statement (.leCommit id) := none_named rfl
theorem carrierReload (n : Nat) : Statement (.carrierReload n) := fun h => one (of_decide_eq_true h)
theorem pwmCompare (n : Nat) (x : Nat) : Statement (.pwmCompare n x) := fun h => two (of_decide_eq_true h).1 (of_decide_eq_true h).2
theorem deadTimeEnd (n : Nat) (i : Nat) : Statement (.deadTimeEnd n i) := fun h => two (of_decide_eq_true h).1 (of_decide_eq_true h).2
theorem dutyWrite (n : Nat) (i : Nat) (v : Word) : Statement (.dutyWrite n i v) := fun h => two (of_decide_eq_true h).1 (of_decide_eq_true h).2
theorem outEnWrite (n : Nat) (v : Word) : Statement (.outEnWrite n v) := fun h => one (of_decide_eq_true h)
theorem axClearWrite (n : Nat) (v : Word) (within : Unit) : Statement (.axClearWrite n v within) := fun h => one (of_decide_eq_true h)
theorem stepIssue (n : Nat) : Statement (.stepIssue n) := fun h => one (of_decide_eq_true h)
theorem stepPulseEnd (n : Nat) : Statement (.stepPulseEnd n) := fun h => one (of_decide_eq_true h)
theorem standstillReached (n : Nat) : Statement (.standstillReached n) := fun h => one (of_decide_eq_true h)
theorem drvokFall (n : Nat) : Statement (.drvokFall n) := fun h => one (of_decide_eq_true h)
theorem drvokRise (n : Nat) : Statement (.drvokRise n) := fun h => one (of_decide_eq_true h)
theorem reseatStart (n : Nat) : Statement (.reseatStart n) := fun h => one (of_decide_eq_true h)
theorem reseatStep (n : Nat) : Statement (.reseatStep n) := fun h => one (of_decide_eq_true h)
theorem reseatDone (n : Nat) : Statement (.reseatDone n) := fun h => one (of_decide_eq_true h)
theorem encoderEdge (n : Nat) (a : Bool) (b : Bool) : Statement (.encoderEdge n a b) := fun h => one (of_decide_eq_true h)
theorem zEdge (n : Nat) : Statement (.zEdge n) := fun h => one (of_decide_eq_true h)
theorem ssiFrameStart (n : Nat) : Statement (.ssiFrameStart n) := fun h => one (of_decide_eq_true h)
theorem frameEngineStart (n : Nat) : Statement (.frameEngineStart n) := fun h => one (of_decide_eq_true h)
theorem feedbackFrameEnd (n : Nat) (rx : FrameRx) : Statement (.feedbackFrameEnd n rx) := fun h => one (of_decide_eq_true h)
theorem feedbackFrameTimeout (n : Nat) : Statement (.feedbackFrameTimeout n) := fun h => one (of_decide_eq_true h)
theorem ocTrip (c : Nat) : Statement (.ocTrip c) := fun h => one (of_decide_eq_true h)
theorem sdStuck (c : Nat) : Statement (.sdStuck c) := fun h => one (of_decide_eq_true h)
theorem auxEdge (n : Nat) (i : Nat) (level : Bool) : Statement (.auxEdge n i level) := fun h => two (of_decide_eq_true h).1 (of_decide_eq_true h).2
theorem auxQualified (n : Nat) (i : Nat) : Statement (.auxQualified n i) := fun h => two (of_decide_eq_true h).1 (of_decide_eq_true h).2
theorem axisCommit (id : Nat) : Statement (.axisCommit id) := none_named rfl
theorem axisEnable (id : Nat) : Statement (.axisEnable id) := none_named rfl
theorem axisClear (id : Nat) (within : Unit) : Statement (.axisClear id within) := none_named rfl
theorem axisSetpos (id : Nat) : Statement (.axisSetpos id) := none_named rfl
theorem axisStatus (id : Nat) : Statement (.axisStatus id) := none_named rfl
theorem axisNotReady (n : Nat) : Statement (.axisNotReady n) := fun h => one (of_decide_eq_true h)
theorem camMiss (n : Nat) : Statement (.camMiss n) := fun h => one (of_decide_eq_true h)
theorem vmSegmentReceive (node : Nat) (payload : List Byte) : Statement (.vmSegmentReceive node payload) := none_named rfl
theorem vmRunout (m : Nat) : Statement (.vmRunout m) := fun h => one (of_decide_eq_true h)
theorem motCommit (id : Nat) : Statement (.motCommit id) := none_named rfl
theorem motMove (id : Nat) : Statement (.motMove id) := none_named rfl
theorem motStop (id : Nat) : Statement (.motStop id) := none_named rfl
theorem motHome (id : Nat) : Statement (.motHome id) := none_named rfl
theorem motSetref (id : Nat) : Statement (.motSetref id) := none_named rfl
theorem motArrive (id : Nat) : Statement (.motArrive id) := none_named rfl
theorem motFollow (id : Nat) : Statement (.motFollow id) := none_named rfl
theorem motPhase (id : Nat) : Statement (.motPhase id) := none_named rfl
theorem motStatus (id : Nat) : Statement (.motStatus id) := none_named rfl
theorem motPublish (id : Nat) : Statement (.motPublish id) := none_named rfl
theorem motEval (id : Nat) : Statement (.motEval id) := none_named rfl
theorem adcSequenceTrigger (n : Nat) : Statement (.adcSequenceTrigger n) := fun h => one (of_decide_eq_true h)
theorem adcTriggerWrite (n : Nat) (v : Word) : Statement (.adcTriggerWrite n v) := fun h => one (of_decide_eq_true h)
theorem adcCalibWrite (n : Nat) (v : Word) : Statement (.adcCalibWrite n v) := fun h => one (of_decide_eq_true h)
theorem adcInjWrite (n : Nat) (v : Word) : Statement (.adcInjWrite n v) := fun h => one (of_decide_eq_true h)
theorem adcOwsrcWrite (n : Nat) (v : Word) : Statement (.adcOwsrcWrite n v) := fun h => one (of_decide_eq_true h)
theorem adcHold (n : Nat) : Statement (.adcHold n) := fun h => one (of_decide_eq_true h)
theorem adcResult (n : Nat) (raw : Word) : Statement (.adcResult n raw) := fun h => one (of_decide_eq_true h)
theorem adcMeshResult (n : Nat) : Statement (.adcMeshResult n) := fun h => one (of_decide_eq_true h)
theorem adcCalStart (n : Nat) : Statement (.adcCalStart n) := fun h => one (of_decide_eq_true h)
theorem adcCalEnd (n : Nat) (trims : Option Word) : Statement (.adcCalEnd n trims) := fun h => one (of_decide_eq_true h)
theorem owSettleEnd (n : Nat) : Statement (.owSettleEnd n) := fun h => one (of_decide_eq_true h)
theorem adcCommit (id : Nat) : Statement (.adcCommit id) := none_named rfl
theorem adcTrigger (id : Nat) : Statement (.adcTrigger id) := none_named rfl
theorem adcInject (id : Nat) : Statement (.adcInject id) := none_named rfl
theorem adcCalib (id : Nat) : Statement (.adcCalib id) := none_named rfl
theorem adcOwdiag (id : Nat) : Statement (.adcOwdiag id) := none_named rfl
theorem adcStatus (id : Nat) : Statement (.adcStatus id) := none_named rfl
theorem blockLock (p : Nat) (alignTx : Nat) (alignRx : Nat) : Statement (.blockLock p alignTx alignRx) := fun h => one (of_decide_eq_true h)
theorem linkDown (p : Nat) (lockLost : Bool) (ring : Nat) : Statement (.linkDown p lockLost ring) := fun h => two (of_decide_eq_true h).1 (of_decide_eq_true h).2
theorem helloTimeout (p : Nat) (ring : Nat) : Statement (.helloTimeout p ring) := fun h => two (of_decide_eq_true h).1 (of_decide_eq_true h).2
theorem helloSend (p : Nat) : Statement (.helloSend p) := fun h => one (of_decide_eq_true h)
theorem hello (p : Nat) (d : List Byte) (echo : Bool) : Statement (.hello p d echo) := fun h => one (of_decide_eq_true h)
theorem linkUp (p : Nat) (first : Bool) : Statement (.linkUp p first) := fun h => one (of_decide_eq_true h)
theorem herdFrameReceive (p : Nat) (d : List Byte) (errEnd : Bool) (echo : Bool) (t : Nat) (ring : Option Nat) : Statement (.herdFrameReceive p d errEnd echo t ring) := fun h => one (of_decide_eq_true h)
theorem portTxStart (p : Nat) (t : Nat) : Statement (.portTxStart p t) := fun h => one (of_decide_eq_true h)
theorem isoSlot (p : Nat) (i : Nat) (t : Nat) : Statement (.isoSlot p i t) := fun h => two (of_decide_eq_true h).1 (of_decide_eq_true h).2
theorem electionStart : Statement (.electionStart) := none_named rfl
theorem claim (p : Nat) (d : List Byte) : Statement (.claim p d) := fun h => one (of_decide_eq_true h)
theorem electionEnd (resting : Nat) (blocked : Nat) : Statement (.electionEnd resting blocked) := fun h => two (of_decide_eq_true h).1 (of_decide_eq_true h).2
theorem size (p : Nat) (d : List Byte) : Statement (.size p d) := fun h => one (of_decide_eq_true h)
theorem assign (p : Nat) (d : List Byte) : Statement (.assign p d) := fun h => one (of_decide_eq_true h)
theorem idFailRetry : Statement (.idFailRetry) := none_named rfl
theorem cut (ring : Nat) (parent : Option Nat) (ivls : List (Nat × List (Nat × Nat))) : Statement (.cut ring parent ivls) := fun h => one (of_decide_eq_true h)
theorem syncReqSend (p : Nat) : Statement (.syncReqSend p) := fun h => one (of_decide_eq_true h)
theorem syncReq (p : Nat) (d : List Byte) (t : Nat) : Statement (.syncReq p d t) := fun h => one (of_decide_eq_true h)
theorem syncResult (p : Nat) (d : List Byte) (t : Nat) : Statement (.syncResult p d t) := fun h => one (of_decide_eq_true h)
theorem pathLoss : Statement (.pathLoss) := none_named rfl
theorem txnRequest : Statement (.txnRequest) := none_named rfl
theorem txnResponse (src : Nat) (d : List Byte) : Statement (.txnResponse src d) := none_named rfl
theorem txnRetryTimeout (tag : Nat) (dest : Nat) : Statement (.txnRetryTimeout tag dest) := fun h => one (of_decide_eq_true h)
theorem replayExpiry (src : Nat) (tag : Nat) : Statement (.replayExpiry src tag) := fun h => one (of_decide_eq_true h)
theorem herdCommit (id : Nat) : Statement (.herdCommit id) := none_named rfl
theorem herdTxn (id : Nat) : Statement (.herdTxn id) := none_named rfl
theorem herdLinkstat (id : Nat) : Statement (.herdLinkstat id) := none_named rfl
theorem herdStatus (id : Nat) : Statement (.herdStatus id) := none_named rfl
theorem ethTailWrite (n : Nat) (q : Nat) (v : Word) : Statement (.ethTailWrite n q v) := fun h => two (of_decide_eq_true h).1 (of_decide_eq_true h).2
theorem ethTxDone (n : Nat) (t : Nat) : Statement (.ethTxDone n t) := fun h => one (of_decide_eq_true h)
theorem ethRxFrame (n : Nat) (d : List Byte) (t : Nat) : Statement (.ethRxFrame n d t) := fun h => one (of_decide_eq_true h)
theorem ethLinkChange (n : Nat) (up : Bool) (speed : Nat) : Statement (.ethLinkChange n up speed) := fun h => two (of_decide_eq_true h).1 (of_decide_eq_true h).2
theorem gclEntry (n : Nat) : Statement (.gclEntry n) := fun h => one (of_decide_eq_true h)
theorem ptpOffsetWrite (n : Nat) (v : Word) : Statement (.ptpOffsetWrite n v) := fun h => one (of_decide_eq_true h)
theorem ethCommit (id : Nat) : Statement (.ethCommit id) := none_named rfl
theorem ethStatus (id : Nat) : Statement (.ethStatus id) := none_named rfl
theorem canReqWrite (n : Nat) (j : Nat) : Statement (.canReqWrite n j) := fun h => two (of_decide_eq_true h).1 (of_decide_eq_true h).2
theorem canCancelWrite (n : Nat) (j : Nat) : Statement (.canCancelWrite n j) := fun h => two (of_decide_eq_true h).1 (of_decide_eq_true h).2
theorem canTxEnd (n : Nat) (result : Nat) (tecAdd : Nat) (ts : Nat) : Statement (.canTxEnd n result tecAdd ts) := fun h => one (of_decide_eq_true h)
theorem canRecovered (n : Nat) : Statement (.canRecovered n) := fun h => one (of_decide_eq_true h)
theorem canRecoverWrite (n : Nat) : Statement (.canRecoverWrite n) := fun h => one (of_decide_eq_true h)
theorem canRxFrame (n : Nat) (id : Nat) (esi : Bool) (remote : Bool) (dlc : Nat) (data : List Byte) (ts : Nat) (recAdd : Nat) : Statement (.canRxFrame n id esi remote dlc data ts recAdd) := fun h => one (of_decide_eq_true h)
theorem canAckWrite (n : Nat) (v : Word) : Statement (.canAckWrite n v) := fun h => one (of_decide_eq_true h)
theorem abdCandidateEnd (n : Nat) : Statement (.abdCandidateEnd n) := fun h => one (of_decide_eq_true h)
theorem canCommit (id : Nat) : Statement (.canCommit id) := none_named rfl
theorem canSend (id : Nat) : Statement (.canSend id) := none_named rfl
theorem canRead (id : Nat) : Statement (.canRead id) := none_named rfl
theorem canAck (id : Nat) : Statement (.canAck id) := none_named rfl
theorem canRecover (id : Nat) : Statement (.canRecover id) := none_named rfl
theorem psTake (i : Nat) : Statement (.psTake i) := fun h => one (of_decide_eq_true h)
theorem psSend (i : Nat) : Statement (.psSend i) := fun h => one (of_decide_eq_true h)
theorem psDatagramReceive (i : Nat) (d : List Byte) : Statement (.psDatagramReceive i d) := fun h => one (of_decide_eq_true h)
theorem psWatchdogTimeout (i : Nat) : Statement (.psWatchdogTimeout i) := fun h => one (of_decide_eq_true h)
theorem psStart (id : Nat) : Statement (.psStart id) := none_named rfl
theorem psStop (id : Nat) : Statement (.psStop id) := none_named rfl
theorem psReload (id : Nat) : Statement (.psReload id) := none_named rfl
theorem psStatus (id : Nat) : Statement (.psStatus id) := none_named rfl
theorem captNotice : Statement (.captNotice) := none_named rfl
theorem coincidenceWindowEnd (n : Nat) : Statement (.coincidenceWindowEnd n) := fun h => one (of_decide_eq_true h)
theorem captRecordWrite (n : Nat) : Statement (.captRecordWrite n) := fun h => one (of_decide_eq_true h)
theorem epochWrap : Statement (.epochWrap) := none_named rfl
theorem captRdWrite (n : Nat) (v : Word) : Statement (.captRdWrite n v) := fun h => one (of_decide_eq_true h)
theorem arm (src : Nat) (d : List Byte) : Statement (.arm src d) := none_named rfl
theorem armack (src : Nat) (d : List Byte) : Statement (.armack src d) := none_named rfl
theorem fire (src : Nat) (d : List Byte) : Statement (.fire src d) := none_named rfl
theorem disarm (src : Nat) (d : List Byte) : Statement (.disarm src d) := none_named rfl
theorem disack (src : Nat) (d : List Byte) : Statement (.disack src d) := none_named rfl
theorem captCommit (id : Nat) : Statement (.captCommit id) := none_named rfl
theorem captStart (id : Nat) : Statement (.captStart id) := none_named rfl
theorem captArm (id : Nat) : Statement (.captArm id) := none_named rfl
theorem captTrigger (id : Nat) : Statement (.captTrigger id) := none_named rfl
theorem captDisarm (id : Nat) : Statement (.captDisarm id) := none_named rfl
theorem captStop (id : Nat) : Statement (.captStop id) := none_named rfl
theorem captStatus (id : Nat) : Statement (.captStatus id) := none_named rfl
theorem safetyCycle (i : SafeSample) : Statement (.safetyCycle i) := none_named rfl
theorem connectionWatchdog (c : Nat) : Statement (.connectionWatchdog c) := fun h => one (of_decide_eq_true h)
theorem chamoisWatchdogExpiry (b : Bool) : Statement (.chamoisWatchdogExpiry b) := none_named rfl
theorem offPulse (out : Bool) (k : Nat) (b : Bool) (low : Bool) : Statement (.offPulse out k b low) := fun h => one (by cases out <;> exact of_decide_eq_true h)
theorem safeIslandUndervolt (b : Bool) : Statement (.safeIslandUndervolt b) := none_named rfl
theorem chamoisFreqWindow (hz : Nat) (lenA : Nat) (lenB : Nat) (absent : Bool) : Statement (.chamoisFreqWindow hz lenA lenB absent) := none_named rfl
theorem imageCrcCheck (good : Bool) : Statement (.imageCrcCheck good) := none_named rfl
theorem heartbeatLoss : Statement (.heartbeatLoss) := none_named rfl
theorem chmSwWrite (v : Word) : Statement (.chmSwWrite v) := none_named rfl
theorem chmSoReqWrite (v : Word) : Statement (.chmSoReqWrite v) := none_named rfl
theorem chmSpsload (id : Option Nat) : Statement (.chmSpsload id) := none_named rfl
theorem chmDeliver (id : Nat) : Statement (.chmDeliver id) := none_named rfl
theorem chmFetch (id : Nat) : Statement (.chmFetch id) := none_named rfl
theorem chmStatus (id : Nat) : Statement (.chmStatus id) := none_named rfl
theorem safeHoldEntry : Statement (.safeHoldEntry) := none_named rfl
theorem redStateTake (d : Option Nat) : Statement (.redStateTake d) := fun h => one (of_decide_eq_true h)
theorem redFrameReceive (src : Nat) (p : List Byte) : Statement (.redFrameReceive src p) := none_named rfl
theorem divergeMaskExpiry (d : Nat) : Statement (.divergeMaskExpiry d) := fun h => one (of_decide_eq_true h)
theorem redSwapTimer : Statement (.redSwapTimer) := none_named rfl
theorem redCommit (id : Nat) : Statement (.redCommit id) := none_named rfl
theorem redYield (id : Nat) : Statement (.redYield id) := none_named rfl
theorem redSwap (id : Nat) : Statement (.redSwap id) := none_named rfl
theorem redStatus (id : Nat) : Statement (.redStatus id) := none_named rfl
theorem hostRead (bar : Nat) (off : Nat) (n : Nat) : Statement (.hostRead bar off n) := none_named rfl
theorem hostWrite (bar : Nat) (off : Nat) (d : List Byte) : Statement (.hostWrite bar off d) := none_named rfl
theorem outboundReadTimeout (port : Nat) (a : Nat) : Statement (.outboundReadTimeout port a) := fun h => one (of_decide_eq_true h).1
theorem pcieLinkChange (up : Bool) (lanes : Nat) (gen : Nat) : Statement (.pcieLinkChange up lanes gen) := none_named rfl
theorem pciePerst (level : Bool) : Statement (.pciePerst level) := none_named rfl
theorem dmaGo (c : Nat) : Statement (.dmaGo c) := fun h => one (of_decide_eq_true h)
theorem dmaBurst (c : Nat) : Statement (.dmaBurst c) := fun h => one (of_decide_eq_true h)
theorem dmaCopy (id : Nat) : Statement (.dmaCopy id) := none_named rfl
theorem dmaFill (id : Nat) : Statement (.dmaFill id) := none_named rfl
theorem dmaChain (id : Nat) : Statement (.dmaChain id) := none_named rfl
theorem eventLevelRise (v : Nat) : Statement (.eventLevelRise v) := fun h => one (of_decide_eq_true h)
theorem evcEoiWrite (v : Word) : Statement (.evcEoiWrite v) := none_named rfl
theorem msixSend (v : Nat) : Statement (.msixSend v) := fun h => one (of_decide_eq_true h)
theorem sensorSample (i : Nat) (x : Int) : Statement (.sensorSample i x) := fun h => one (of_decide_eq_true h)
theorem heartbeatSend : Statement (.heartbeatSend) := none_named rfl
theorem logRecordWrite : Statement (.logRecordWrite) := none_named rfl
theorem bootDone : Statement (.bootDone) := none_named rfl
theorem loadDone (mismatch : Bool) (ddr : DdrBoard) : Statement (.loadDone mismatch ddr) := none_named rfl
theorem startTimeout : Statement (.startTimeout) := none_named rfl
theorem announce (d : List Byte) : Statement (.announce d) := none_named rfl
theorem offer (p : Nat) (d : List Byte) : Statement (.offer p d) := fun h => one (of_decide_eq_true h)
theorem answer (p : Nat) (d : List Byte) : Statement (.answer p d) := fun h => one (of_decide_eq_true h)
theorem data (p : Nat) (d : List Byte) : Statement (.data p d) := fun h => one (of_decide_eq_true h)
theorem ack (p : Nat) (d : List Byte) : Statement (.ack p d) := fun h => one (of_decide_eq_true h)
theorem ackTimeout : Statement (.ackTimeout) := none_named rfl
theorem dataTimeout : Statement (.dataTimeout) := none_named rfl
theorem bundleReceived (failed : Bool) : Statement (.bundleReceived failed) := none_named rfl
theorem done (p : Nat) (d : List Byte) : Statement (.done p d) := fun h => one (of_decide_eq_true h)
theorem offerRetry : Statement (.offerRetry) := none_named rfl
theorem report (d : List Byte) : Statement (.report d) := none_named rfl
theorem close (d : List Byte) : Statement (.close d) := none_named rfl
theorem campaignTimeout : Statement (.campaignTimeout) := none_named rfl
theorem nonceExpiry : Statement (.nonceExpiry) := none_named rfl
theorem bhrStatus (id : Option Nat) : Statement (.bhrStatus id) := none_named rfl
theorem bhrSensors (id : Option Nat) : Statement (.bhrSensors id) := none_named rfl
theorem bhrLogread (id : Option Nat) : Statement (.bhrLogread id) := none_named rfl
theorem bhrLogwrite (id : Option Nat) : Statement (.bhrLogwrite id) := none_named rfl
theorem bhrChallenge (id : Option Nat) : Statement (.bhrChallenge id) := none_named rfl
theorem bhrAuth (id : Option Nat) : Statement (.bhrAuth id) := none_named rfl
theorem bhrCalread (id : Option Nat) : Statement (.bhrCalread id) := none_named rfl
theorem bhrCalwrite (id : Option Nat) : Statement (.bhrCalwrite id) := none_named rfl
theorem bhrInstall (id : Option Nat) : Statement (.bhrInstall id) := none_named rfl
theorem bhrActivate (id : SlotAsk) : Statement (.bhrActivate id) := none_named rfl
theorem bhrCampaign (id : Option Nat) : Statement (.bhrCampaign id) := none_named rfl
theorem bhrClose (id : Option Nat) : Statement (.bhrClose id) := none_named rfl
theorem bhrSvbump (id : Option Nat) : Statement (.bhrSvbump id) := none_named rfl
theorem bhrKeyprog (id : Option Nat) : Statement (.bhrKeyprog id) := none_named rfl
theorem bhrState (id : Option Nat) : Statement (.bhrState id) := none_named rfl
theorem porAssert : Statement (.porAssert) := none_named rfl
theorem porRelease (low : Nat) (xbat : Bool) (pfailN : Bool) : Statement (.porRelease low xbat pfailN) := fun h => one (of_decide_eq_true h)
theorem holdoverCountTick : Statement (.holdoverCountTick) := none_named rfl
theorem coldReset (src : Nat) : Statement (.coldReset src) := fun h => one (Nat.lt_succ_of_le (of_decide_eq_true h).2)
theorem coldResetEnd : Statement (.coldResetEnd) := none_named rfl
theorem warmRequest (src : Nat) : Statement (.warmRequest src) := fun h => one (by have := of_decide_eq_true h; omega)
theorem powerFail (src : Nat) : Statement (.powerFail src) := fun h => one (Nat.lt_succ_of_le (of_decide_eq_true h).2)
theorem powerFailClear : Statement (.powerFailClear) := none_named rfl
theorem backupSupplyLoss : Statement (.backupSupplyLoss) := none_named rfl
theorem pllUnlock (i : Nat) : Statement (.pllUnlock i) := fun h => one (by have := of_decide_eq_true h; omega)
theorem pcieConfigWrite (msixEn : Bool) (fnMask : Bool) (bme : Bool) : Statement (.pcieConfigWrite msixEn fnMask bme) := none_named rfl
theorem gpioInputChange (levels : Nat) : Statement (.gpioInputChange levels) := fun h => one (of_decide_eq_true h)
theorem installWriteEnd (failed : Bool) : Statement (.installWriteEnd failed) := none_named rfl
theorem swapRetry : Statement (.swapRetry) := none_named rfl
theorem busIntegration (n : Nat) : Statement (.busIntegration n) := fun h => one (of_decide_eq_true h)
theorem debugTapAccess (f : TapFn) : Statement (.debugTapAccess f) := none_named rfl

end Sys2Proof.Laws.Formed
end

