-- ==== Sys2Proof/Laws/Run.lean ====
section
/-!
SUPPORT. What every chain of primitive updates keeps: the queue of commands, and the invariant of the stores; and that
every command's answer is the end of such a chain.
-/
namespace Sys2Proof.Machine

/-- No primitive update breaks the invariant of the stores. -/
theorem Upd.inv {s : State} (h : s.Inv) (u : Upd) : (u.apply s).Inv := by
  obtain ⟨hm, hr, hb⟩ := h
  cases u with
  | reg a v =>
    refine ⟨hm, twf_tset hr, fun e he => ?_⟩
    simp only [apply_reg, tset] at he
    split_ifs at he
    · exact hb e (List.mem_filter.1 he).1
    · rcases mem_tput he with rfl | he
      · ext i; simp
      · exact hb e he
  | regReset a => exact ⟨hm, twf_tdel hr, fun e he => hb e (List.mem_filter.1 he).1⟩
  | regsKeep k => exact ⟨hm, twf_filter hr, fun e he => hb e (List.mem_filter.1 he).1⟩
  | byte a b => exact ⟨twf_tset (d := unwritten) hm, hr, hb⟩
  | memClear => exact ⟨twf_filter hm, hr, hb⟩
  | _ => exact ⟨hm, hr, hb⟩

/-- A chain of primitive updates keeps the invariant. -/
theorem Reach.inv {s t : State} (h : Reach s t) (hs : s.Inv) : t.Inv := by
  induction h with
  | refl => exact hs
  | step _ u ih => exact Upd.inv ih u

/-- A chain of primitive updates leaves the queue of commands. -/
theorem Reach.pending {s t : State} (h : Reach s t) : t.pending = s.pending := by
  induction h with
  | refl => rfl
  | step _ u ih => rw [apply_pending, ih]

/-- The end of a run answers a state that the run has reached. -/
theorem done_reach {s : State} {r : Run s} {t : State} (h : r.done = .next t) : Reach s t := by
  cases h; exact r.reach

end Sys2Proof.Machine
end

