-- ==== Sys2Proof/Tests/Slice0.lean ====
section
/-!
SUPPORT. Tests: ill-formed commands that WellFormed refuses, and for every statement a concrete state and operands that meet
its hypotheses, clause by clause. A register is named with the value that it holds; everything else is as after reset.
-/
namespace Sys2Proof.Tests

set_option Elab.async false
open Sys2Proof Sys2Proof.Machine

/-! ## Small states -/

/-- Registers of a state. -/
def rs (l : List (Nat × Nat)) (s : State) : State :=
  { s with regs := l.foldl (fun r e => tset (resetOf e.1) e.1 (BitVec.ofNat 32 e.2 &&& implMask e.1) r) s.regs }

/-- The state after reset with some registers. -/
def st (l : List (Nat × Nat)) : State := rs l State.reset

/-- An accepted operation of thread 0. -/
def anOp (unit code obj : Nat) (payload : List Nat) : Op :=
  { id := 5, tid := 0, k := 1, unit := unit, obj := obj, rdesc := 64, code := code, payload := payload.map (BitVec.ofNat 8)
    accepted := true }

/-- An operation in flight. -/
def fl (o : Op) (s : State) : State := { s with sp := { s.sp with ops := [o], nextOp := 6 } }

/-- A thread of the state. -/
def th (t : Nat) (x : Thread) (s : State) : State := { s with sp := { s.sp with threads := tset {} t x s.sp.threads } }

/-- Memory bytes put at addresses. -/
def putMem (l : List (Nat × Byte)) (m : List Host.Cell) : List Host.Cell := l.foldl (fun m e => tset (unwritten e.1) e.1 e.2 m) m

/-- Little-endian words put in memory. -/
def words (a : Nat) (l : List Nat) (s : State) : State :=
  { s with mem := putMem (l.zipIdx.flatMap fun e => (bytesLE 4 e.1).zipIdx.map fun b => (a + 4 * e.2 + b.2, b.1)) s.mem }

/-- Thread 0 running, with its instructions at pc 0. -/
def prog (x : Thread) (l : List Nat) : State := words 0x3400000 l (th 0 { x with state := .running } (rs [(Reg.bhrStat, 0x60000000)] State.reset))

/-- An instruction word with guard p0, from its fields. -/
def iw (major rd rs1 rs2 f7 : Nat) : Nat := major * 2 ^ 26 + rd * 2 ^ 17 + rs1 * 2 ^ 12 + rs2 * 2 ^ 7 + f7

theorem iss {s : State} {t w : Nat} {q : QRow}
    (h : t < 64 ∧ s.mayIssue t = true ∧ (s.thread t).refused = none ∧ (s.thread t).pc + qLen w ≤ 0x40000 ∧
      s.imem t (s.thread t).pc = w ∧ qRow w = some q ∧ (s.thread t).guardOk w = true ∧
      s.eccIn (imemAddr t (s.thread t).pc) (qLen w) = []) : Issues s t w q :=
  ⟨h.1, h.2.1, h.2.2.1, h.2.2.2.1, h.2.2.2.2.1, h.2.2.2.2.2.1, h.2.2.2.2.2.2.1, h.2.2.2.2.2.2.2⟩

/-- Signal records of the state. -/
def sigs (l : List (Nat × Sig)) (s : State) : State := { s with sig := { s.sig with recs := l } }

/-- TB0 at a time, and the clock at a cycle. -/
def at0 (n : Nat) (s : State) : State := { s with time := { s.time with bases := tset {} 0 { int := n } s.time.bases } }
def cyc (n : Nat) (s : State) : State := { s with cyc := n }

/-- A running grid 0 of 1 ms on TB0. -/
def grid0 (s : State) : State :=
  let s := rs [(Reg.timeSgCfgAct 0, 0x80000000), (Reg.timeSgPeriodAct 0, 200000)] s
  { s with time := { s.time with grids := [(0, { running := true, next := 1000000 })] } }


/-! ## Steps -/

def nextOf (x : Host.Outcome State Fault Refusal) : Option State := match x with
  | .next u => some u
  | _ => none

/-- A state in order that takes a step: a SYS cycle passes, or a command stands at the front. -/
theorem witness_EveryStepKeepsTheStores : State.reset.Inv ∧ (nextOf (step State.reset)).isSome = true ∧
    (nextOf (step { State.reset with pending := [.gpioInputChange 5, .bootDone] })).map (fun u => (u.pending, u.pwr.gpio)) = some ([.bootDone], 5) := by
  refine ⟨?_, ?_, ?_⟩ <;> decide +kernel

/-! ## Ill-formed commands -/

/-- One operand out of its range: the first value beyond a bound, for the commands with one operand. -/
theorem test_wf_refuses_one : ([Instr.halt, Instr.intAlu, Instr.intImm, Instr.cmp, Instr.cmpi, Instr.predLogic, Instr.floatOp, Instr.fcmp, Instr.memLoad,
    Instr.memStore, Instr.sigrd, Instr.sigwr, Instr.sigwrt, Instr.sigasH, Instr.sigasI, Instr.sighist, Instr.br, Instr.call, Instr.jr,
    Instr.sequentialFetchEnd, Instr.op, Instr.opx, Instr.atT, Instr.hstat, Instr.hrel, Instr.hcan, Instr.hmask, Instr.waitAny,
    Instr.waitAll, Instr.waitTimeout, Instr.fence, Instr.fenceM, Instr.lock, Instr.trylock, Instr.unlock, Instr.nop, Instr.yield,
    Instr.mfs, Instr.mfp, Instr.mtp, Instr.trap, Instr.li, Instr.lih, Instr.threadStart, Instr.threadStop, Instr.faultRestart].all
    (fun c => !(c 64).wf) && [Instr.meshGrant, (Instr.gridBoundary · ()), Instr.sigUpdateApply, Instr.bankHot, Instr.leRelease,
    Instr.vmRunout, Instr.coincidenceWindowEnd, Instr.captRecordWrite, Instr.connectionWatchdog].all (fun c => !(c 16).wf) &&
    [Instr.slewEnd, Instr.dmaGo, Instr.dmaBurst].all (fun c => !(c 8).wf) && [Instr.trigOut0Read].all (fun c => !(c 9).wf) &&
    [Instr.lockForceBreak, Instr.leSample].all (fun c => !(c 256).wf) && [Instr.carrierReload, Instr.stepIssue, Instr.stepPulseEnd,
    Instr.standstillReached, Instr.drvokFall, Instr.drvokRise, Instr.reseatStart, Instr.reseatStep, Instr.reseatDone, Instr.zEdge,
    Instr.ssiFrameStart, Instr.frameEngineStart, Instr.feedbackFrameTimeout, Instr.axisNotReady, Instr.camMiss].all (fun c => !(c
    48).wf) && [Instr.ocTrip, Instr.sdStuck].all (fun c => !(c 144).wf) && [Instr.adcSequenceTrigger, Instr.adcHold,
    Instr.adcMeshResult, Instr.adcCalStart, Instr.owSettleEnd].all (fun c => !(c 12).wf) && [Instr.helloSend, Instr.syncReqSend,
    Instr.canRecovered, Instr.canRecoverWrite, Instr.abdCandidateEnd, Instr.busIntegration].all (fun c => !(c 4).wf) &&
    [Instr.gclEntry].all (fun c => !(c 2).wf) && [Instr.psTake, Instr.psSend, Instr.psWatchdogTimeout].all (fun c => !(c 2048).wf) &&
    [Instr.divergeMaskExpiry].all (fun c => !(c 7).wf) && [Instr.eventLevelRise, Instr.msixSend].all (fun c => !(c 128).wf) &&
    [Instr.gpioInputChange].all (fun c => !(c 65536).wf)) = true := by decide +kernel

/-- The same for the other commands, one term for each check. -/
theorem test_wf_refuses_2 : ([(.registerWrite 16 0x4000000 0), (.registerWrite 0 0x3FFFFFC 0), (.registerWrite 0 0x5000000 0), (.registerWrite 0 0x4000002 0),
    (.rcRead 16 0x4000000), (.rcRead 0 0x4000001), (.lowWordRead 16 0x4000000), (.lowWordRead 0 0x5000000), (.commitRequest (.sg 16)),
    (.commitRequest (.lg 8)), (.commitRequest (.tr 64)), (.commitRequest (.axcfg 48)), (.commitRequest (.axtpl 48)), (.commitRequest (.sd
    48)), (.commitRequest (.mot 48)), (.commitRequest (.vm 16)), (.commitRequest (.cam 64)), (.commitRequest (.adc 12)), (.commitRequest
    (.slot 4)), (.commitRequest (.ethcfg 2)), (.commitRequest (.ethgcl 2)), (.commitRequest (.can 4)), (.commitRequest (.capts 16)),
    (.commitRequest (.capttr 64)), (.commitApply (.sg 16)), (.commitApply (.lg 8)), (.commitApply (.tr 64)), (.commitApply (.axcfg 48)),
    (.commitApply (.axtpl 48)), (.commitApply (.sd 48)), (.commitApply (.mot 48)), (.commitApply (.vm 16)), (.commitApply (.cam 64)),
    (.commitApply (.adc 12)), (.commitApply (.slot 4)), (.commitApply (.ethcfg 2)), (.commitApply (.ethgcl 2)), (.commitApply (.can 4)),
    (.commitApply (.capts 16)), (.commitApply (.capttr 64)), (.meshRequest 16 0 0 1 false []), (.meshRequest 0 4 0 1 false []),
    (.meshRequest 0 0 0 0 false []), (.meshRequest 0 0 255 2 false []), (.meshRequest 0 0 0x10000000000 1 false []), (.meshRequest 0 0 0 1
    true []), (.scrubRead 0x2000000000), (.incHiWrite 8 0), (.timeAdjGo 8 0), (.trigEdge 9 false 0), (.trigEdge 0 false 64), (.storeAck 64
    0), (.storeRefused 64 0), (.ageingVisit 0x40000), (.pwmCompare 48 0), (.pwmCompare 0 3), (.deadTimeEnd 48 0), (.deadTimeEnd 0 6),
    (.dutyWrite 48 0 0), (.dutyWrite 0 6 0)] : List Instr).all (fun c => !c.wf) = true := by decide +kernel

theorem test_wf_refuses_3 : ([(.outEnWrite 48 0), (.axClearWrite 48 0 ()), (.encoderEdge 48 false false), (.feedbackFrameEnd 48 ⟨[], []⟩), (.auxEdge 48 0 false), (.auxEdge
    0 2 false), (.auxQualified 48 0), (.auxQualified 0 2), (.vmSegmentReceive 0 (List.replicate 55 0)), (.adcTriggerWrite 12 0),
    (.adcCalibWrite 12 0), (.adcInjWrite 12 0), (.adcOwsrcWrite 12 0), (.adcResult 12 0), (.adcCalEnd 12 none), (.blockLock 4 0 0),
    (.linkDown 4 false 0), (.linkDown 0 false 16), (.helloTimeout 4 0), (.helloTimeout 0 16), (.hello 4 [] false), (.linkUp 4 false),
    (.herdFrameReceive 4 [] false false 0 none), (.portTxStart 4 0), (.isoSlot 4 0 0), (.isoSlot 0 1024 0), (.claim 4 []), (.electionEnd 16
    0), (.electionEnd 0 16), (.size 4 []), (.assign 4 []), (.cut 16 none []), (.syncReq 4 [] 0), (.syncResult 4 [] 0), (.txnRetryTimeout 0
    65536), (.replayExpiry 65536 0), (.ethTailWrite 2 0 0), (.ethTailWrite 0 8 0), (.ethTxDone 2 0), (.ethRxFrame 2 [] 0), (.ethLinkChange
    2 false 0), (.ethLinkChange 0 false 4), (.ptpOffsetWrite 2 0), (.canReqWrite 4 0), (.canReqWrite 0 100), (.canCancelWrite 4 0),
    (.canCancelWrite 0 100), (.canTxEnd 4 0 0 0), (.canRxFrame 4 0 false false 0 [] 0 0), (.canAckWrite 4 0), (.psDatagramReceive 2048 []),
    (.captRdWrite 16 0), (.safetyCycle ⟨[(65536, 0)], 0, 0, 0, 0, 0, 0, 0, 0, 0⟩), (.safetyCycle ⟨[(0, 65536)], 0, 0, 0, 0, 0, 0, 0, 0,
    0⟩), (.offPulse true 8 false false), (.offPulse false 48 false false), (.redStateTake (some 7)), (.hostRead 1 0 1), (.hostRead 0 0 0),
    (.hostRead 0 0 513)] : List Instr).all (fun c => !c.wf) = true := by decide +kernel

theorem test_wf_refuses_4 : ([(.hostWrite 1 0 [0]), (.hostWrite 0 0 []), (.hostWrite 0 0 (List.replicate 257 0)), (.outboundReadTimeout 16 0x1000000000),
    (.outboundReadTimeout 0 0xFFFFFFFFF), (.outboundReadTimeout 0 0x2000000000), (.pcieLinkChange true 3 1), (.pcieLinkChange true 1 0),
    (.pcieLinkChange true 1 4), (.sensorSample 26 0), (.offer 4 []), (.answer 4 []), (.data 4 []), (.ack 4 []), (.done 4 []), (.porRelease
    16384 false false), (.coldReset 1), (.coldReset 5), (.warmRequest 0), (.warmRequest 3), (.powerFail 0), (.powerFail 4), (.pllUnlock 1),
    (.pllUnlock 5), (.debugTapAccess (.halt 64)), (.debugTapAccess (.step 64)), (.debugTapAccess (.run 64)), (.debugTapAccess (.inspect
    64)), (.debugTapAccess (.meshRead 2)), (.debugTapAccess (.meshRead 0x10000000000)), (.debugTapAccess (.meshWrite 1 0)),
    (.debugTapAccess (.meshWrite 0x10000000000 0)), (.debugTapAccess (.meshWrite 0 0x100000000))] : List Instr).all (fun c => !c.wf) = true := by decide +kernel

/-- The first and last values that each kind of check lets through. -/
theorem test_wf_accepts : ([(.registerWrite 15 0x4FFFFFC 0), (.meshRequest 15 3 255 1 true [0]), (.halt 63), (.vmSegmentReceive 0 (List.replicate 56 0)),
    (.hostRead 4 0 512), (.pcieLinkChange true 4 3), (.coldReset 4), (.debugTapAccess (.meshWrite 0xFFFFFFFFFC 0xFFFFFFFF))] : List Instr).all (·.wf) = true := by
  decide +kernel
/-! ## Operations that may act, and commands on them -/

/-- Operations that a unit carries out at once when they may act (OpMay). -/
def mayRows : List (Nat × Nat) :=
  [(0, 4), (0, 6), (0, 7), (1, 6), (1, 9), (3, 1), (3, 2), (3, 3), (3, 4), (3, 5), (3, 6), (3, 7), (7, 1), (13, 1), (13, 4)]

theorem witness_OpMay : ∀ e ∈ mayRows, OpMay (fl (anOp e.1 e.2 3 []) State.reset) (anOp e.1 e.2 3 []) e.1 e.2 := by decide +kernel

/-- Grid-bound operations that a unit may check and take (OpTakes), the COMMIT operations of CommitOperations among them. -/
def takeRows : List (Nat × Nat) :=
  [(0, 1), (0, 2), (0, 3), (0, 5), (0, 8), (1, 1), (1, 2), (2, 1), (2, 2), (2, 3), (4, 1), (5, 1), (8, 1), (9, 1), (10, 1), (13, 3), (14, 1)]

theorem witness_OpTakes : ∀ e ∈ takeRows, OpTakes (fl (anOp e.1 e.2 3 []) State.reset) (anOp e.1 e.2 3 []) e.1 e.2 := by decide +kernel

/-! ## Instructions of a thread -/

/-- IntegerValues, ComparisonValues and FloatValues: operands with a NaN among them, and an immediate of every kind. -/
theorem witness_FloatValues : (f32.isNan 0x7FC00001 = true ∧ f32.isNan 0x3F800000 = false ∧ 0x7FC00001 < 2 ^ (f32.eb + f32.fb + 1)) ∧
    f64.isNan 0x7FF8000000000001 = true ∧ 0x7FF8000000000001 < 2 ^ (f64.eb + f64.fb + 1) := by decide +kernel

/-- A word of every row of the instructions that compute. -/
def computing : List (Nat × QRow) :=
  [(iw 0x00 3 1 2 0x10, .intAlu), (iw 0x01 3 1 2 5, .intImm), (iw 0x10 3 1 2 0, .floatOp), (iw 0x10 3 1 2 0x40, .floatOp),
   (iw 0x30 3 0 0 0, .li), (iw 0x31 3 0 0 0, .lih), (iw 0x2C 3 2 0 0x10, .mfs), (iw 0x2C 3 0 0 0x11, .mfp),
   (iw 0x2C 0 1 0 0x12, .mtp), (iw 0x2C 0 0 0 0, .nop), (iw 0x0C 2 1 2 4, .cmp), (iw 0x06 2 1 0 3, .cmpi),
   (iw 0x0D 2 1 2 1, .predLogic), (iw 0x11 2 1 2 0x41, .fcmp), (iw 0x11 2 1 2 1, .fcmp), (iw 0x26 3 1 0 0, .hstat),
   (iw 0x26 0 1 0 1, .hrel), (iw 0x26 0 1 0 2, .hcan), (iw 0x26 3 0 0 3, .hmask), (iw 0x27 3 1 2 0x10, .waitAny),
   (iw 0x27 3 1 2 0x18, .waitAll), (iw 0x28 0 0 0 0, .fence), (iw 0x28 0 0 0 1, .fenceM), (iw 0x2C 0 0 0 1, .yield),
   (iw 0x2C 0 0 0 2, .halt), (iw 0x2D 0 0 0 7, .trap), (iw 0x29 3 1 0 0, .lock), (iw 0x2A 3 1 0 0, .trylock),
   (iw 0x2B 3 1 0 0, .unlock), (iw 0x24 4 4 0 8, .op), (iw 0x32 4 4 0 8, .opx)]

/-- RegisterInstructions, PredicateInstructions, HandleInstructions, ThreadControl: each instruction issues somewhere. -/
theorem witness_RegisterInstructions : ∀ e ∈ computing, Issues (prog {} [e.1]) 0 e.1 e.2 := by
  have h : ∀ e ∈ computing, (0 < 64 ∧ (prog {} [e.1]).mayIssue 0 = true ∧ ((prog {} [e.1]).thread 0).refused = none ∧
      ((prog {} [e.1]).thread 0).pc + qLen e.1 ≤ 0x40000 ∧ (prog {} [e.1]).imem 0 ((prog {} [e.1]).thread 0).pc = e.1 ∧
      qRow e.1 = some e.2 ∧ ((prog {} [e.1]).thread 0).guardOk e.1 = true ∧
      (prog {} [e.1]).eccIn (imemAddr 0 ((prog {} [e.1]).thread 0).pc) (qLen e.1) = []) := by decide +kernel
  exact fun e he => iss (h e he)

/-- The clauses on bit 6 of a floating-point word. -/
theorem witness_PredicateInstructions : bit (iw 0x11 2 1 2 0x41) 6 = true ∧ bit (iw 0x11 2 1 2 1) 6 = false ∧
    bit (iw 0x10 3 1 2 0x40) 6 = true ∧ bit (iw 0x10 3 1 2 0) 6 = false := by decide +kernel

/-- Guard p3 is false at reset. -/
theorem witness_FalseGuardAdvancesPc : ∀ e ∈ computing, ∃ (s : State) (t w : Nat), t < 64 ∧ s.mayIssue t = true ∧
    (s.thread t).refused = none ∧ (s.thread t).pc + qLen w ≤ 0x40000 ∧ s.imem t (s.thread t).pc = w ∧
    qRow w = some e.2 ∧ (s.thread t).guardOk w = false ∧ s.eccIn (imemAddr t (s.thread t).pc) (qLen w) = [] := by
  have h : ∀ e ∈ computing, let w := e.1 + 3 * 2 ^ 22; let s := prog {} [w]
    (0 < 64 ∧ s.mayIssue 0 = true ∧ (s.thread 0).refused = none ∧ (s.thread 0).pc + qLen w ≤ 0x40000 ∧
      s.imem 0 (s.thread 0).pc = w ∧ qRow w = some e.2 ∧ (s.thread 0).guardOk w = false ∧
      s.eccIn (imemAddr 0 (s.thread 0).pc) (qLen w) = []) := by decide +kernel
  exact fun e he => ⟨_, 0, _, h e he⟩

/-- Targets inside the instruction memory, before it, past it, and off a multiple of 4. -/
theorem witness_BranchInstructions : let x : Thread := { pc := 4 }
    let br := iw 0x21 0 0 0 3; let back := 0x21 * 2 ^ 26 + 0x3FFFFE; let call := iw 0x22 2 0 0 1; let cback := 0x22 * 2 ^ 26 + 0x5FFFE
    let jr := iw 0x23 2 0 0 8; let far := 0x23 * 2 ^ 26 + 0xFFF; let odd := iw 0x23 2 0 0 6
    (prog {} []).sp.locks = [] ∧ (Issues (prog x [0, br]) 0 br .br ∧ (4 : Int) + 4 * qOff22 br = (16 : Nat)) ∧
    (Issues (prog x [0, call]) 0 call .call ∧ (4 : Int) + 4 * qOff17 call = (8 : Nat)) ∧
    (Issues (prog x [0, jr]) 0 jr .jr ∧ (x.gr (qRs1 jr) + u64 (qImm12 jr)) % 2 ^ 64 = 8) ∧
    (Issues (prog x [0, back]) 0 back .br ∧ (4 : Int) + 4 * qOff22 back < 0) ∧
    (Issues (prog x [0, cback]) 0 cback .call ∧ (4 : Int) + 4 * qOff17 cback < 0) ∧
    (Issues (prog x [0, far]) 0 far .jr ∧ 0x3FFFC < (x.gr (qRs1 far) + u64 (qImm12 far)) % 2 ^ 64) ∧
    (Issues (prog x [0, odd]) 0 odd .jr ∧ (x.gr (qRs1 odd) + u64 (qImm12 odd)) % 2 ^ 64 % 4 ≠ 0) ∧
    (prog { pc := 0x40000 } []).mayIssue 0 = true := by
  refine ⟨by decide +kernel, ⟨iss ?_, ?_⟩, ⟨iss ?_, ?_⟩, ⟨iss ?_, ?_⟩, ⟨iss ?_, ?_⟩, ⟨iss ?_, ?_⟩, ⟨iss ?_, ?_⟩, ⟨iss ?_, ?_⟩, ?_⟩ <;>
    decide +kernel

/-- Own data memory, general SRAM, a posted store, an address past 2^40, and one off a multiple of the access size. -/
theorem witness_LoadsAndStores : let d : Thread := { g := [(1, 0x3600000)] }; let hi : Thread := { g := [(1, 0x10000000000)] }
    let ld := iw 0x18 3 1 0 8; let lo := iw 0x18 3 0 0 8; let sd := iw 0x1D 3 1 0 8; let so := iw 0x1D 3 0 0 8
    let lm := iw 0x18 3 0 0 2; let sm := iw 0x1D 3 0 0 2
    (Issues (prog d [ld]) 0 ld .load ∧ ownDmem 0 ((d.gr (qRs1 ld) + u64 (qImm12 ld)) % 2 ^ 64) = true) ∧
    (Issues (prog {} [lo]) 0 lo .load ∧ (({} : Thread).gr (qRs1 lo) + u64 (qImm12 lo)) % 2 ^ 64 = 8) ∧
    (Issues (prog d [sd]) 0 sd .store ∧ ownDmem 0 ((d.gr (qRs1 sd) + u64 (qImm12 sd)) % 2 ^ 64) = true) ∧
    (Issues (prog {} [so]) 0 so .store ∧ ownDmem 0 8 = false) ∧
    (Issues (prog hi [ld]) 0 ld .load ∧ 2 ^ 40 ≤ (hi.gr (qRs1 ld) + u64 (qImm12 ld)) % 2 ^ 64) ∧
    (Issues (prog hi [sd]) 0 sd .store ∧ accSize (qMajor sd) = 4) ∧
    (Issues (prog {} [lm]) 0 lm .load ∧ 2 % accSize (qMajor lm) ≠ 0) ∧ Issues (prog {} [sm]) 0 sm .store := by
  refine ⟨⟨iss ?_, ?_⟩, ⟨iss ?_, ?_⟩, ⟨iss ?_, ?_⟩, ⟨iss ?_, ?_⟩, ⟨iss ?_, ?_⟩, ⟨iss ?_, ?_⟩, ⟨iss ?_, ?_⟩, iss ?_⟩ <;>
    decide +kernel

/-- A posted store to general SRAM, one to an unmapped address, and one that was refused. -/
theorem witness_PostedStores :
    (let s := prog { posted := [{ addr := 0x100, data := bytesLE 4 7 }] } []
     ((s.thread 0).posted[0]?).map (·.addr) = some 0x100 ∧ regionOf 0x100 = .sram ∧ regionOf 0x103 = .sram ∧
     s.eccIn 0x100 4 = [] ∧ (s.thread 0).wait = .none) ∧
    (regionOf 0x2500000 = .unmapped ∨ regionOf 0x3000000 = .unmapped ∨ regionOf 0x7F000000 = .unmapped) ∧
    (let s := prog { refused := some 0x2500000 } [iw 0x2C 0 0 0 0]
     (s.thread 0).refused = some 0x2500000 ∧ s.mayIssue 0 = true ∧ s.sp.locks = []) := by decide +kernel

/-- Operations whose handle is free, whose unit is listed or not, whose handle is PENDING; and a pair with a time. -/
theorem witness_OperationIssue : let pend : Thread := { k := [(2, .pending 3)] }
    let op := iw 0x24 4 4 0 8; let no := iw 0x24 20 4 0 8; let opx := iw 0x32 4 4 0 8; let atw := iw 0x25 0 1 0 0
    (Issues (prog {} [op]) 0 op .op ∧ (({} : Thread).handle (qKd op)).isPending = false ∧ qUnit op < 15) ∧
    Issues (prog {} [opx, 9]) 0 opx .opx ∧
    (Issues (prog {} [atw, op]) 0 atw .atT ∧ (prog {} [atw, op]).imem 0 4 = op ∧ qRow op = some .op) ∧
    (Issues (prog {} [no]) 0 no .op ∧ 15 ≤ qUnit no) ∧ (Issues (prog pend [op]) 0 op .op ∧ (pend.handle (qKd op)).isPending = true) ∧
    Issues (prog pend [opx, 9]) 0 opx .opx := by
  refine ⟨⟨iss ?_, ?_⟩, iss ?_, ⟨iss ?_, ?_⟩, ⟨iss ?_, ?_⟩, ⟨iss ?_, ?_⟩, iss ?_⟩ <;> decide +kernel

/-- A TIME operation with its header in general SRAM: code 1, code 4, an unlisted code; a descriptor off a multiple of 8 and one
past 2^40. -/
theorem witness_OperationAcceptance : ∀ e ∈ [(0x100, 1), (0x100, 4), (0x100, 5), (0x104, 1), (2 ^ 40, 1)],
    let o : Op := { id := 5, tid := 0, k := 1, unit := 13, obj := 0, rdesc := e.1 }
    let s := words 0x100 [e.2, 7] (fl o State.reset)
    let h := (List.range 32).map fun i => s.byte (0x100 + i)
    s.op o.id = some o ∧ o.accepted = false ∧ o.out = none ∧
    (∀ p ∈ s.sp.ops, p.id < o.id → p.unit = 13 → p.tid / 8 = o.tid / 8 → p.accepted = false → p.out ≠ none) ∧
    s.eccIn 0x100 32 = [] ∧ recNat h 0 1 = e.2 ∧ recNat h 1 1 < 4 ∧ recNat h 2 2 = 0 ∧ recNat h 4 4 = 7 ∧ recNat h 20 4 = 0 ∧
    recNat h 24 8 = 0 ∧ recNat h 8 8 = 0 := by decide +kernel

/-- A BOUNDARY stated for a time, on a grid that issues boundaries and on one that does not. -/
theorem witness_OperationAcceptance_timed :
    let o : Op := { id := 5, tid := 0, k := 1, unit := 13, obj := 0, rdesc := 0x100, time := some 9 }
    let s := words 0x100 [4, 7] (fl o State.reset)
    s.op o.id = some o ∧ o.obj < 16 ∧ o.time ≠ none ∧ (s.grid o.obj).running = false ∧ ((grid0 s).grid o.obj).running = true ∧
    recNat ((List.range 32).map fun i => s.byte (o.rdesc + i)) 0 1 = 4 := by decide +kernel

/-- An ended operation with its record wanted at 0x200, with and without `ev`. -/
theorem witness_OperationCompletion : ∀ f ∈ [0, 1],
    let c : OpRec := { status := .ok, cause := 0, uflags := 0, unit := 13, code := 4, tag := 7, stamp := 0, obj := 0 }
    let o : Op := { id := 5, tid := 0, k := 1, unit := 13, obj := 0, rdesc := 64, code := 4, flags := f, recAddr := 0x200,
                    accepted := true, out := some c }
    let s := fl o (prog { k := [(1, .pending 5)] } [])
    s.op o.id = some o ∧ o.results = [] ∧ o.orphan = false ∧ (s.thread o.tid).handle o.k = .pending o.id ∧
    (s.thread o.tid).wait = .none ∧ s.eccIn o.recAddr 16 = [] ∧
    (∀ p ∈ s.sp.ops, p.id < o.id → p.tid = o.tid → p.unit = o.unit → p.obj = o.obj → p.out = none) := by decide +kernel

/-- A PENDING handle to release, an operation to cancel, waits that are met, that poll, that wait and whose deadline has come, and
fences with an operation outstanding. -/
theorem witness_HandleInstructions : let x : Thread := { k := [(1, .pending 5)], g := [(1, 2), (2, 100)] }
    let s (l : List Nat) : State := fl (anOp 13 1 0 []) (prog x l)
    let wa := iw 0x27 3 1 2 0x10; let wl := iw 0x27 3 1 2 0x18; let hc := iw 0x26 0 1 0 2; let hr := iw 0x26 0 1 0 1
    (Issues (s [hr]) 0 hr .hrel ∧ (x.handle (qK hr)).isPending = true) ∧
    (Issues (s [hc]) 0 hc .hcan ∧ x.handle (qK hc) = .pending 5 ∧ (s [hc]).op 5 = some (anOp 13 1 0 [])) ∧
    (Issues (s [wa]) 0 wa .waitAny ∧ bit (x.gr (qRs1 wa)) 1 = true ∧ x.gr (qRs2 wa) = 100) ∧
    (Issues (s [wl]) 0 wl .waitAll ∧ (x.handle 1).isPending = true ∧ (x.handle 1).isDone = false) ∧
    (Issues (prog {} [wa]) 0 wa .waitAny ∧ ({} : Thread).gr (qRs1 wa) = 0) ∧
    ((at0 1 (prog { wait := .wait true 2 0 1 3 } [])).thread 0).wait = .wait true 2 0 1 3 ∧ 0 < (at0 1 (prog {} [])).now ∧
    (Issues (s [iw 0x28 0 0 0 0]) 0 (iw 0x28 0 0 0 0) .fence ∧ (s [iw 0x28 0 0 0 0]).opsOf 0 ≠ []) := by
  refine ⟨⟨iss ?_, ?_⟩, ⟨iss ?_, ?_⟩, ⟨iss ?_, ?_⟩, ⟨iss ?_, ?_⟩, ⟨iss ?_, ?_⟩, ?_, ?_, ⟨iss ?_, ?_⟩⟩ <;> decide +kernel

/-- Lock 7 free, held by the thread with nobody and with thread 1 waiting, held by thread 1; and a number past 255. -/
theorem witness_LockInstructions : let x : Thread := { g := [(1, 7), (2, 256)] }
    let s (l : HwLock) (i : Nat) : State := let a := prog x [iw i 3 1 0 0]
      th 1 { state := .running, wait := .lock 7 4 } { a with sp := { a.sp with locks := [(7, l)] } }
    (∀ e ∈ [(0x29, QRow.lock), (0x2A, QRow.trylock), (0x2B, QRow.unlock)], ∀ o ∈ [none, some 0, some 1],
      Issues (s { owner := o } e.1) 0 (iw e.1 3 1 0 0) e.2 ∧ ((s { owner := o } e.1).hwlock 7).owner = o ∧
      (x.gr (qRs1 (iw e.1 3 1 0 0)) + u64 (qImm12 (iw e.1 3 1 0 0))) % 2 ^ 64 = 7) ∧
    (Issues (s { owner := some 0, waiters := [1] } 0x2B) 0 (iw 0x2B 3 1 0 0) .unlock ∧
      ((s { owner := some 0, waiters := [1] } 0x2B).hwlock 7).waiters = [1] ∧
      ((s { owner := some 0, waiters := [1] } 0x2B).thread 1).wait = .lock 7 4) ∧
    (Issues (prog x [iw 0x29 3 2 0 0]) 0 (iw 0x29 3 2 0 0) .lock ∧
      (x.gr (qRs1 (iw 0x29 3 2 0 0)) + u64 (qImm12 (iw 0x29 3 2 0 0))) % 2 ^ 64 = 256) := by
  refine ⟨fun e he o ho => ?_, ⟨iss ?_, ?_⟩, ⟨iss ?_, ?_⟩⟩
  · simp only [List.mem_cons, List.not_mem_nil, or_false] at he ho
    rcases he with rfl | rfl | rfl <;> rcases ho with rfl | rfl | rfl <;> refine ⟨iss ?_, ?_⟩ <;> decide +kernel
  all_goals decide +kernel

/-- A stopped thread, a running one, a faulted one to be restarted, and a held lock. -/
theorem witness_ThreadControl : State.reset.sp.restart = none ∧ (State.reset.thread 3).state ≠ .running ∧
    ((prog {} []).thread 0).state = .running ∧ (prog {} []).sp.locks = [] ∧
    (let s := th 0 { state := .faulted, restartFrom := some 3 } State.reset
     (s.thread 0).state = .faulted ∧ (s.thread 0).restartFrom ≠ none) ∧
    (let s := { State.reset with sp := { State.reset.sp with locks := [(7, { owner := some 3 })] } }
     (s.hwlock 7).owner = some 3 ∧ (s.hwlock 7).waiters = []) := by decide +kernel

/-! ## Signals -/

/-- A signal with three entries, and one whose oldest entry is aged. -/
def aSig : Sig := { type := 1, defined := true, interp := true, hist := [⟨40, 100, false⟩, ⟨20, 50, false⟩, ⟨3, 7, false⟩] }
def agedSig : Sig := { aSig with hist := [⟨40, 100, false⟩, ⟨3, 7, true⟩] }

/-- The invariant of a history holds of a list with an aged entry, and a new stamp lies within the bounds. -/
theorem witness_SignalRecordsAndHistory : let h : List Entry := [⟨1, 100, false⟩, ⟨2, 50, false⟩, ⟨3, 7, true⟩]
    h.length ≤ 4 ∧ (∀ e ∈ h, e.stamp < 2 ^ 32 ∧ (e.aged = false → -(2 ^ 30) ≤ diff32 200 e.stamp ∧ diff32 200 e.stamp ≤ 2 ^ 30 + 2 ^ 28)) ∧
    h.Pairwise (fun a b => (a.aged = true → b.aged = true) ∧ (a.aged = false → b.aged = false → diff32 200 a.stamp < diff32 200 b.stamp)) ∧
    -(2 ^ 30) ≤ diff32 200 120 ∧ diff32 200 120 ≤ 2 ^ 30 ∧ placeOf 200 h 120 ≠ .late ∧ placeOf 200 [⟨1, 100, false⟩] 100 ≠ .late ∧
    placeOf (2 ^ 31) h 5 = .late := by decide +kernel

/-- Every case of an as-of read, at the stamps themselves and on both sides of them. -/
theorem witness_AsOfReads : let s := at0 200 (sigs [(7, aSig), (8, { aSig with hist := [] }), (9, agedSig)] State.reset)
    (s.sigView 5).defined = false ∧ ((s.sigView 8).defined = true ∧ (s.sigView 8).hist = []) ∧
    (∃ e0 tl, (s.sigView 7).hist = e0 :: tl ∧ e0.aged = false ∧
      (2 ^ 30 < diff64 (at0 (2 ^ 31) s).now 1 ∧ diff64 s.now (2 ^ 31) < -(2 ^ 30) ∧ older 100 e0.stamp = false) ∧
      (older 99 e0.stamp = true ∧ diff64 s.now 99 ≤ 2 ^ 30 ∧ -(2 ^ 30) ≤ diff64 s.now 99)) ∧
    ((s.sigView 7).hist = [⟨40, 100, false⟩] ++ (⟨20, 50, false⟩ : Entry) :: [⟨3, 7, false⟩]) ∧
    (∀ x ∈ (s.sigView 7).hist, x.aged = false ∧ older x.stamp 6 = false ∧ x.stamp ≠ 6) ∧
    (∀ x ∈ (s.sigView 7).hist, x.aged = true ∨ x.stamp ≠ 75) ∧ older 75 100 = true ∧ older 50 75 = true ∧ older 100 75 = false ∧
    (s.sigView 9).hist = [] ++ (⟨40, 100, false⟩ : Entry) :: ⟨3, 7, true⟩ :: [] := by
  refine ⟨by decide +kernel, by decide +kernel, ⟨⟨40, 100, false⟩, [⟨20, 50, false⟩, ⟨3, 7, false⟩], ?_⟩, ?_⟩ <;> decide +kernel

/-- τ halfway between the stamps, across the wrap of a TS32. -/
theorem witness_InterpolatedValues : 0 < (5 + 2 ^ 32 - 0xFFFFFFF0) % 2 ^ 32 ∧
    (5 + 2 ^ 32 - 0xFFFFFFF0) % 2 ^ 32 < (0x20 + 2 ^ 32 - 0xFFFFFFF0) % 2 ^ 32 := by decide +kernel

/-- Reads and writes of a signal by an instruction, an undefined signal, and an index of 2^18. -/
theorem witness_SignalInstructions : let x : Thread := { g := [(1, 7), (2, 0x7800000009)] }
    let s (w : Nat) : State := at0 200 (sigs [(7, aSig)] (prog x [w]))
    (∀ q ∈ [(0, QRow.sigrd), (1, .sigwr), (2, .sigwrt), (3, .sigasH), (4, .sigasI), (5, .sighist)],
      let w := iw 0x20 3 1 (if q.1 = 0 then 0 else 2) q.1
      Issues (s w) 0 w q.2 ∧ qExtOk w ((s w).imem 0 4) = true ∧ RecClean (s w) 7 ∧ SigQuiet (s w)) ∧
    (∀ stamp ∈ [200, 120], Accepts (s 0) { idx := 7, val := 9, stamp := stamp, kind := 1, inst := 0 } ∧
      placeOf (s 0).now32 ((s 0).sigRec 7).hist stamp ≠ .late) ∧
    ((s 0).sigRec 8).defined = false ∧ 2 ^ 18 ≤ ({ g := [(1, 0x40000)] } : Thread).gr 1 := by
  refine ⟨fun q hq => ?_, by decide +kernel, by decide +kernel, by decide +kernel⟩
  simp only [List.mem_cons, List.not_mem_nil, or_false] at hq
  rcases hq with rfl | rfl | rfl | rfl | rfl | rfl <;> refine ⟨iss ?_, ?_, ?_, ?_⟩ <;> decide +kernel

/-- An update that waits for its bank, beside a signal that takes it and one that another writer kind owns. -/
def waitUpd (u : SigUpd) : State :=
  let a := at0 200 (sigs [(7, aSig), (8, { aSig with srcKind := 2 })] State.reset)
  { a with sig := { a.sig with queue := [u] } }

def anUpd (i stamp : Nat) : SigUpd := { idx := i, val := 9, stamp := stamp, kind := 1 }

/-- An update on the path; for each outcome an update that waits for its bank; an old entry; and a hot bank. -/
theorem witness_SignalUpdates :
    (let s := { State.reset with sig := { State.reset.sig with path := [anUpd 7 120] } }
     s.sig.path = [anUpd 7 120] ∧ s.sig.stage.length < 512) ∧
    (∀ u ∈ [anUpd 7 120, anUpd 5 120, anUpd 8 120, anUpd 7 0x50000000, anUpd 7 0xA0000000],
      (waitUpd u).bankNext ((waitUpd u).locate u.idx).1 = some (u, false) ∧ RecClean (waitUpd u) u.idx ∧
      (waitUpd u).noticeLevel + (waitUpd u).sig.stage.length < 256 ∧ (waitUpd u).bankLevel ((waitUpd u).locate u.idx).1 ≤ 64) ∧
    ((waitUpd (anUpd 5 120)).sigRec 5).defined = false ∧ ((waitUpd (anUpd 8 120)).sigRec 8).takes 1 0 = false ∧
    (2 ^ 30 < diff32 0x50000000 (waitUpd (anUpd 7 0x50000000)).now32 ∧ ((waitUpd (anUpd 7 0x50000000)).sigRec 7).takes 1 0 = true) ∧
    ((waitUpd (anUpd 7 0xA0000000)).updRefusal (anUpd 7 0xA0000000) = none ∧ placeOf 200 aSig.hist 0xA0000000 = .late) ∧
    (Accepts (waitUpd (anUpd 7 120)) (anUpd 7 120) ∧ placeOf 200 aSig.hist 120 ≠ .late) ∧
    (let h := cyc 1000000000 { State.reset with sig := { State.reset.sig with hotSince := [(3, some 5)] } }
     tget none 3 h.sig.hotSince = some 5 ∧ 5 + 800 * ((h.rget Reg.sigHotCfg).toNat % 2 ^ 16) ≤ h.cyc ∧ h.rb (Reg.sigBankStat 3) 31 = false) := by
  refine ⟨?_, ?_, ?_, ?_, ?_, ?_, ?_, ?_⟩ <;> decide +kernel

/-- A full notice stage; a staged result beside a waiting update; and an update that its writer holds back. -/
theorem witness_SignalUpdates_order : let x : SigUpd := anUpd 7 120; let y : SigUpd := { x with kind := 3 }
    let s := waitUpd x
    let b := (s.locate 7).1
    let full : State := { s with sig := { s.sig with notices := List.replicate 256 ⟨3, 7, 9, 5, false, true⟩ } }
    let staged : State :=
      { s with sig := { s.sig with stage := [y], recs := [(7, { aSig with srcKind := 3 })] } }
    let held : State := { s with sig := { s.sig with queue := [anUpd 5 120], held := [{ x with idx := 5 }] } }
    (256 ≤ full.noticeLevel + full.sig.stage.length ∧ full.bankNext b = some (x, false)) ∧
    (staged.bankNext b = some (y, true) ∧ staged.sig.stage.length ≤ 512 ∧ y.kind = 3 ∧ RecClean staged 7 ∧ Accepts staged y ∧
      placeOf staged.now32 (staged.sigRec 7).hist 120 ≠ .late) ∧
    (held.bankNext (held.bankOf 5) = some (anUpd 5 120, false) ∧ (held.sigRec 5).defined = false ∧
      (held.sig.held.find? fun z => held.bankOf z.idx == held.bankOf 5) = some { x with idx := 5 }) ∧
    ((waitUpd (anUpd 7 120)).sigRec 7).defined = true := by decide +kernel

/-- A bank that cannot serve a request yet, for the descriptor port and for an operation, and a command in progress. -/
theorem witness_DescriptorPort_waits :
    let full : State := { State.reset with sig := { State.reset.sig with notices := List.replicate 256 ⟨3, 7, 9, 5, false, true⟩ } }
    (full.banksOpen [0] = false ∧ full.sig.dport = none ∧ OpMay (fl (anOp 3 1 0 []) full) (anOp 3 1 0 []) 3 1) ∧
    ({ State.reset with sig := { State.reset.sig with dport := some 3 } } : State).sig.dport.isSome = true ∧
    (SigQuiet State.reset ∧ State.reset.sig.dport = none) := by decide +kernel

/-- The descriptor port on an undefined signal, with a legal descriptor and without `defined`, and on a defined one. -/
theorem witness_DescriptorPort : let s := st [(Reg.sigDportIdx, 7), (Reg.sigDportW 0, 0x0101), (Reg.sigDportW 1, 120)]
    let d := wordsLE [(s.rget (Reg.sigDportW 0)).toNat, 120, 0, 0]
    let t := at0 200 (sigs [(7, aSig)] s)
    ((s.rget Reg.sigDportIdx).toNat % 2 ^ 18 = 7 ∧ (s.sigRec 7).defined = false ∧ bit (recNat d 1 1) 0 = true ∧ recNat d 0 1 % 16 = 1 ∧
      recNat d 2 1 % 16 = 0 ∧ bit (recNat d 1 1) 4 = false ∧ recNat d 3 1 = 0 ∧ recNat d 6 2 = 0 ∧ recNat d 8 2 = 0 ∧ recNat d 10 2 = 0 ∧
      bit (recNat d 1 1) 3 = false) ∧
    bit (recNat (wordsLE [0, 0, 0, 0]) 1 1) 0 = false ∧
    ((t.sigRec 7).defined = true ∧ t.sig.watches = [] ∧ RecClean t 7) ∧
    (Accepts t { idx := 7, val := 0x0101, stamp := 120, kind := 2 } ∧ Accepts t { idx := 7, val := 0x0101, stamp := t.now32, kind := 2 } ∧
      placeOf t.now32 (t.sigRec 7).hist 120 ≠ .late ∧ placeOf t.now32 (t.sigRec 7).hist t.now32 ≠ .late) := by decide +kernel

/-- The SIG operations on an undefined and on a defined signal, with payloads for each clause. -/
theorem witness_SignalOperations : let o (code : Nat) (p : List Nat) : Op := anOp 3 code 7 p
    let u (o : Op) : State := at0 200 (fl o State.reset)
    let s (o : Op) : State := sigs [(7, aSig)] (u o)
    let def_ := [1, 1] ++ List.replicate 14 0 ++ [1, 0, 0, 0, 9, 0, 0, 0, 120, 0, 0, 0]
    (OpMay (u (o 1 def_)) (o 1 def_) 3 1 ∧ (sigOfBytes ((o 1 def_).payload.take 16)).type = 1 ∧
      (sigOfBytes ((o 1 def_).payload.take 16)).defined = true ∧ (sigOfBytes ((o 1 def_).payload.take 16)).srcKind ≤ 10 ∧
      maintainedZero ((o 1 def_).payload.take 16) = true ∧ (u (o 1 def_)).routeFits false 0 0 = true ∧
      bit (recNat (o 1 def_).payload 16 1) 0 = true ∧ |diff32 (recNat (o 1 def_).payload 24 4) (u (o 1 def_)).now32| ≤ 2 ^ 30) ∧
    (((s (o 2 [])).sigRec 7).defined = true ∧ (s (o 2 [])).sig.watches = [] ∧ OpMay (s (o 2 [])) (o 2 []) 3 2) ∧
    (256 < recNat (o 3 (List.replicate 10 0 ++ [1, 1])).payload 10 2) ∧
    (recNat (o 3 (List.replicate 10 0 ++ [1, 0, 0, 0, 0, 0, 7, 0, 0, 0])).payload 10 2 = 1 ∧ (u (o 3 [])).ecc = []) ∧
    (let w := o 4 [1, 0, 1, 0, 0, 0, 0, 0, 0, 0, 0, 0, 0, 0, 0, 0, 7, 0, 0, 0, 9, 0, 0, 0, 120, 0, 0, 0]
     OpMay (s w) w 3 4 ∧ recNat w.payload 2 2 = 1 ∧ recNat w.payload 16 4 = 7 ∧ RecClean (s w) 7 ∧
     Accepts (s w) { idx := 7, val := 9, kind := 1, inst := 0, stamp := (s w).now32 } ∧
     placeOf (s w).now32 ((s w).sigRec 7).hist (s w).now32 ≠ .late) ∧
    256 < recNat (o 4 [0, 0, 1, 1]).payload 2 2 ∧ 3 < recNat (o 6 [4]).payload 0 1 ∧
    (let s' := { s (o 6 []) with sig := { (s (o 6 [])).sig with watches := List.replicate 256 ⟨9, 9, 0, 0⟩ } }
     256 ≤ s'.sig.watches.length ∧ OpMay s' (o 6 []) 3 6 ∧ (s'.sigRec 7).defined = true) ∧
    (let r := o 5 [0, 0, 2, 0, 0, 0]; OpMay (s r) r 3 5 ∧ recNat r.payload 2 2 ≤ 64 ∧ bit (recNat r.payload 0 1) 0 = false) := by
  decide +kernel


/-- SIG READ and SIG WRITE of a few entries, of none and with a reserved mode; a SIG UNDEFINE that ends a WATCH; a route outside the
table. -/
theorem witness_SignalOperations_more : let o (code : Nat) (p : List Nat) : Op := anOp 3 code 7 p
    let u (o : Op) : State := at0 200 (fl o State.reset)
    let s (o : Op) : State := sigs [(7, aSig)] (u o)
    (let r := o 3 (List.replicate 10 0 ++ [1, 0, 0, 0, 0, 0, 7, 0, 0, 0])
     OpMay (s r) r 3 3 ∧ recNat r.payload 8 1 ≤ 3 ∧ SigQuiet (s r) ∧ (s r).noticeLevel + 1 ≤ 256 ∧ (s r).ecc = []) ∧
    (recNat (o 3 (List.replicate 12 0)).payload 10 2 = 0 ∧ 3 < recNat (o 3 (List.replicate 8 0 ++ [4, 0, 1, 0])).payload 8 1) ∧
    (let x : Op := { o 6 [] with id := 4, acted := true }
     let z : State := { s x with
       sig := { (s x).sig with watches := [⟨4, 7, 0, 0⟩] }
       sp := { (s x).sp with ops := [o 2 [], x] } }
     OpMay z (o 2 []) 3 2 ∧ (z.sigRec 7).defined = true ∧ z.op 4 = some x) ∧
    (let w := o 4 ([1, 0, 2, 0] ++ List.replicate 12 0 ++ [7, 0, 0, 0, 9, 0, 0, 0, 120, 0, 0, 0, 0, 0, 4, 0, 9, 0, 0, 0, 120, 0, 0, 0])
     OpMay (s w) w 3 4 ∧ recNat w.payload 2 2 = 2 ∧ recNat w.payload 28 4 = 2 ^ 18 ∧ SigQuiet (s w) ∧ ((s w).sigRec 7).routeEn = false ∧
     (s w).sig.watches = [] ∧ recNat (o 4 [0, 0, 0, 0]).payload 2 2 = 0) ∧
    (let r := o 5 [1, 0, 65, 0, 0, 0]
     OpMay (s r) r 3 5 ∧ (s r).routeFits (bit (recNat r.payload 0 1) 0) (recNat r.payload 2 2) (recNat r.payload 4 2) = false) := by
  refine ⟨?_, ?_, ?_, ?_, ?_⟩ <;> decide +kernel
/-! ## Loop engine -/

/-- Context 0 with one output and no input, in a state of R266. -/
def leCtx (state : Nat) (s : State) : State :=
  words 0x3000060 [state] (words 0x3000000 [0x00010001, 0, 400, 1000, 0x01010001] s)

/-- A sum of two elements, a nonzero decay and both directions of a conversion. -/
theorem witness_BlockFloatingPoint : (23 + 0 - 25 : Int) ≤ 0 ∧ (0 : Int) < 23 + 5 - 3 ∧ 3 < 4 ∧ (2 : Int) < 5 ∧ (3 : Int) ≤ 5 - 2 ∧ 3 + 1 = 4 ∧
    (0 : Int) < 7 ∧ 65535 < 65536 := by decide

/-- Every LE operation with a context in a state that its clause names: START that passes its checks, STOP, SWAP to another bank
that passes or fails, KICK and RESUME by the owner and by another thread, TRACE STOP and REARM. -/
theorem witness_LoopEngineOperations : let o (code : Nat) (p : List Nat) : Op := anOp 0 code 0 p
    let s (st code : Nat) (p : List Nat) : State := leCtx st (grid0 (fl (o code p) State.reset))
    let other (st code : Nat) : State := words 0x3000018 [0x500] (s st code [])
    let bad (st : Nat) : State := words 0x3001210 [5] (s st 3 [1])
    ((s 0 1 []).startOutcome 0 = (.ok, 0) ∧ (s 0 1 []).leShadow 0 = false ∧ OpTakes (s 0 1 []) (o 1 []) 0 1) ∧
    ((s 1 1 []).leState 0 ≠ 0 ∧ (∀ x ∈ (s 1 1 []).sp.ops, x.unit = 0 → x.code = 1 → x.obj = 0 → x.taken = false)) ∧
    (∀ x ∈ (s 1 3 []).sp.ops, x.unit = 0 → x.code = 3 → x.obj = 0 → x.tid = (o 3 []).tid) ∧
    (let m : Op := { o 3 [] with acc := 2 }; let x : Op := { o 3 [] with id := 3, tid := 1, acc := 1 }
     let b := leCtx 1 (grid0 (State.reset)); let b := { b with sp := { b.sp with ops := [x, m] } }
     OpTakes b m 0 3 ∧ b.leState 0 = 1 ∧ x ∈ b.sp.ops ∧ x.tid ≠ m.tid ∧ x.acc < m.acc) ∧
    (∀ st ∈ [0, 1, 2, 3], (s st 2 []).leState 0 = st ∧ OpTakes (s st 3 [1]) (o 3 [1]) 0 3 ∧ OpTakes (s st 5 []) (o 5 []) 0 5 ∧
      OpMay (s st 4 []) (o 4 []) 0 4) ∧
    (recNat (o 3 [1]).payload 0 1 % 2 ≠ (s 1 3 [1]).leH 0 97 1 ∧ (s 1 3 [1]).bankOk 0 1 ((s 1 3 [1]).leHd 0).m ((s 1 3 [1]).leHd 0).q = true) ∧
    ((bad 1).bankOk 0 1 ((bad 1).leHd 0).m ((bad 1).leHd 0).q = false ∧ (bad 1).leState 0 = 1) ∧
    recNat (o 3 [0]).payload 0 1 % 2 = (s 1 3 [0]).leH 0 97 1 ∧
    (((s 1 4 []).leHd 0).owner = (o 4 []).tid ∧ ((other 1 4).leHd 0).owner ≠ (o 4 []).tid ∧ (other 1 4).leState 0 = 1) ∧
    (∀ t ∈ [0, 1, 2, 3], (rs [(Reg.leTrStat 0, t * 2 ^ 30)] State.reset).trState 0 = t) ∧
    (OpMay (s 0 7 [0]) (o 7 [0]) 0 7 ∧ recNat (o 7 [0]).payload 0 1 = 0 ∧ recNat (o 7 [1]).payload 0 1 = 1) := by
  refine ⟨?_, ?_, ?_, ?_, ?_, ?_, ?_, ?_, ?_, ?_, ?_⟩ <;> decide +kernel

/-- A due START and a due STOP at a boundary, a boundary that waits for its release, and a released sample of a context in RUN. -/
theorem witness_LoopSamples : let o (code : Nat) : Op := { anOp 0 code 0 [] with taken := true }
    let s (c : LeCtx) : State := let a := leCtx 1 (grid0 State.reset); { a with le := { a.le with ctxs := [(0, c)] } }
    let b := s { bound := some ⟨1000000, 1000000, 1000400⟩ }
    let r := s { rel := some ⟨1000000, []⟩, lastRef := 1000000 }
    let d := r.leHd 0
    let out := r.leCompute 0 d { y := (inVec 0 d.ey false (r.leVec 0 0x2E0 8) d.p []).1, r := (inVec 0 d.er true (r.leVec 0 0x2C0 8) d.r []).1,
                                 bank := 0, swapped := false, resumedOutput := false, fbOutput := false }
    (∀ code ∈ [1, 2, 3, 5], let s := leCtx (if code = 2 then 1 else 0) (fl (o code) State.reset)
      s.leState 0 = (if code = 2 then 1 else 0) ∧ (s.lec 0).bound = none ∧ (s.lec 0).rel = none ∧
      s.op 5 = some (o code) ∧ s.opDueAt (o code) 1000000 = true ∧ ∀ x ∈ s.sp.ops, ∀ y ∈ s.sp.ops, x.id = y.id → x = y) ∧
    ((b.lec 0).bound = some ⟨1000000, 1000000, 1000400⟩ ∧ b.leH 0 5 1 % 16 = 0 ∧ (at0 1000400 b).baseReached (b.gridBase 0) 1000400 = true ∧
      b.ecc = [] ∧ b.leIns 0 = [] ∧ b.sig.path = [] ∧ b.sig.queue = []) ∧
    ((r.lec 0).rel = some ⟨1000000, []⟩ ∧ r.leState 0 = 1 ∧ (r.lec 0).swapOp = none ∧ (r.lec 0).resumeOp = none ∧ r.leShadow 0 = false ∧
      r.redDutyOf 0 = none ∧ d.n ≤ 16 ∧ d.p ≤ 8 ∧ d.m ≤ 8 ∧ d.q ≤ 8 ∧ d.r ≤ 8 ∧ 0 < d.staleMax ∧
      diff64 1000000 (r.lec 0).lastRef ≤ (d.tOwn * 1000 : Nat) ∧ (∀ e ∈ r.leOuts 0 d.m, e.okind = 0 ∧ e.sigEn = false)) ∧
    ((∀ x, x < 256 → r.leBefore x 0 = false) ∧ (∀ x, x < 256 → x ≠ 0 → (b.lec x).bound = none) ∧ (∀ b, b < 64 → r.rb (Reg.leTrCfgAct b) 31 = false)) ∧
    out.need ≤ 127 ∧ r.bankOk 0 0 d.m d.q = true := by
  refine ⟨?_, ?_, ?_, ?_, ?_, ?_⟩ <;> decide +kernel

/-! ## Registers, commits and the Mesh -/

/-- A register access with no level seen; reserved offset, misaligned address, illegal and legal words, a pending commit. -/
theorem witness_RegisterAccess : State.reset.Inv ∧ State.reset.mesh.seen = 0 ∧
    (regionOf 0x4000FFC = .regs ∧ 0x4000FFC % 4 = 0 ∧ regAt 0x4000FFC = none) ∧ (regionOf 0x4000FFE = .regs ∧ 0x4000FFE % 4 ≠ 0) ∧
    (0x100 : Word).toNat % 256 = 0 ∧ (0x3C : Word).toNat % 256 ≠ 0 ∧
    ({ State.reset with commits := [{ group := .sg 3 }] } : State).committing (.sg 3) = true ∧ State.reset.committing (.sg 3) = false ∧
    State.reset.seenTime 0 < 2 ^ 64 ∧ (∃ x, regAt (Reg.timeTbNowLo 0) = some x ∧ pairLow (Reg.timeTbNowLo 0) x = true) ∧
    (∃ x, regAt (Reg.pwrBkp 5) = some x ∧ Reg.pwrBkp 5 ≠ Reg.timeTrigOut0 x.i ∧ ∀ y, regAt (Reg.pwrBkp 5 - 4) = some y → pairLow (Reg.pwrBkp 5 - 4) y = false) := by 
  refine ⟨by decide +kernel, by decide +kernel, by decide +kernel, by decide +kernel, by decide +kernel, by decide +kernel, by decide +kernel,
    by decide +kernel, by decide +kernel, ⟨_, rfl, by decide +kernel⟩, ⟨_, rfl, by decide +kernel, fun y h => ?_⟩⟩
  have e : ((regAt (Reg.pwrBkp 5 - 4)).map fun y => pairLow (Reg.pwrBkp 5 - 4) y) = some false := by decide +kernel
  rw [h] at e; exact Option.some.inj e

/-- Groups with and without boundary, with a check that passes and one that fails, and a pending commit of an operation. -/
theorem witness_CommitsOfGroups : (∀ g ∈ [Group.tb0lock, .route, .herdcyc, .red, .sdclk, .sg 0, .lg 7, .mot 0], commitGroup g.bitAt.1 g.bitAt.2 = some g) ∧
    (let s := rs [(Reg.herdCyc, 0x80000000), (Reg.timeTb0Lock, 0), (Reg.redCfg, 0x80000000), (Reg.sigRouteLen, 0)]
       (sigs [(7, { defined := true, routeEn := true, routeCnt := 1 })] State.reset)
     (∀ g ∈ [Group.tb0lock, .route, .herdcyc, .red], s.committing g = false ∧ s.noBoundary g = true ∧ s.groupCheck g = false)) ∧
    (∀ g ∈ [Group.route, .herdcyc], State.reset.committing g = false ∧ State.reset.noBoundary g = true ∧ State.reset.groupCheck g = true) ∧
    (let s := { grid0 State.reset with commits := [{ group := .route }] }
     s.committing .route = true ∧ s.committing (.sg 0) = false ∧ s.noBoundary (.sg 0) = false) ∧
    (let o := anOp 5 1 0 []
     let s := { fl o (rs [(Reg.herdCyc, 0x80000000)] State.reset) with commits := [{ group := .herdcyc, ops := [5] }] }
     s.op 5 = some o ∧ o.out = none ∧ s.noBoundary .herdcyc = true ∧ s.groupCheck .herdcyc = false ∧
     ({ fl o State.reset with commits := s.commits } : State).groupCheck .herdcyc = true ∧ o.unit ≠ 0 ∧ o.unit ≠ 2 ∧ o.unit ≠ 4) := by
  refine ⟨?_, ?_, ?_, ?_, ?_⟩ <;> decide +kernel

/-- A COMMIT that joins a pending commit, one that waits for a boundary, one whose check fails, and those that come into use. -/
theorem witness_CommitOperations : let o := anOp 13 3 0 []
    let l := anOp 13 3 24 []
    let c := anOp 4 1 3 []
    (∀ x ∈ State.reset.commits, o.id ∉ x.ops) ∧
    (let s := { fl o State.reset with commits := [{ group := .sg 0 }] }
     OpTakes s o 13 3 ∧ o.obj < 25 ∧ ∃ x, s.commits = [x] ∧ x.group = .sg 0 ∧ o.id ∉ x.ops) ∧
    (let s := grid0 (fl o State.reset); s.committing (.sg 0) = false ∧ s.noBoundary (.sg 0) = false ∧ o.time = none ∧ o.late = false) ∧
    (let s := fl l (st [(Reg.timeTb0Lock, 0)]); OpTakes s l 13 3 ∧ s.noBoundary .tb0lock = true ∧ s.groupCheck .tb0lock = false) ∧
    (let s := fl l State.reset; s.Inv ∧ s.groupCheck .tb0lock = true ∧ s.tb0State ≠ 3) ∧
    (let s := fl c (st [(Reg.captSHerd 3, 0x10000)]); s.Inv ∧ OpTakes s c 4 1 ∧ s.committing (.capts 3) = false ∧ s.groupCheck (.capts 3) = true) := by
  refine ⟨by decide +kernel, ⟨by decide +kernel, by decide +kernel, _, rfl, rfl, by decide +kernel⟩, ?_, ?_, ?_, ?_⟩ <;> decide +kernel

/-- A burst to a free and to a held path, a CRIT one, requests that wait with and without the N-th grant, a burst that is over. -/
theorem witness_MeshArbitration : let q : MeshReq := { port := 3, cls := 0, addr := 0x100, len := 32, wr := true, data := bytesLE 8 7 }
    let s (x : MeshTgt) : State := { State.reset with pwr := { State.reset.pwr with por := false },
                                                      mesh := { State.reset.mesh with tgts := [(10, x)] } }
    (burstOk 0x100 32 = true ∧ targetPort 0x100 = some 10 ∧ regionOf 0x100 = .sram ∧ regionOf 0x107 = .sram) ∧
    (∀ w ∈ ((s {}).tgt 10).waiting, w.port ≠ 5) ∧
    (let c : MeshCur := { req := { q with len := 256 }, start := 0, first := false }
     ((s { cur := some c }).tgt 10).cur = some c ∧ c.req.eff ≤ 1 ∧ c.req.port < 16 ∧ c.req.pre < 3 ∧ (s { cur := some c }).cyc < c.start + c.req.beats) ∧
    (let t := s { waiting := [q] }; (t.tgt 10).waiting ≠ [] ∧ (t.tgt 10).freeAt ≤ t.cyc ∧ (t.tgt 10).count + 1 < t.rf Reg.meshCfg 6 0 ∧
      (∀ w ∈ (t.tgt 10).waiting, w.port < 16)) ∧
    (let c : MeshCur := { req := { q with len := 256, pre := 3, raised := 1 }, start := 0, first := false }
     c.req.eff ≤ 1 ∧ c.req.pre = 3 ∧ ((s { cur := some c }).tgt 10).cur = some c) ∧
    (let t := s { waiting := [q], behind := [{ q with addr := 0x200, cls := 2 }] }
     (t.tgt 10).cur = none ∧ (∃ w ∈ (t.tgt 10).waiting, w.port = 3) ∧ (t.tgt 10).behind = [{ q with addr := 0x200, cls := 2 }] ∧ (t.tgt 10).waiting = [q]) ∧
    (let t := s { waiting := [q], count := 15 }; t.rf Reg.meshCfg 6 0 ≤ (t.tgt 10).count + 1) ∧
    (let t := cyc 9 (s { cur := some { req := q, start := 0, first := false } }); 0 + q.beats ≤ t.cyc ∧ t.eccIn 0x100 8 = [] ∧ q.data ≠ []) ∧
    (State.reset.Inv ∧ State.reset.mesh.seen = 0 ∧ 1 ≤ bits (0x1810 : Word).toNat 15 8 ∧ 4 ≤ bits (0x1810 : Word).toNat 6 0 ∧
      bits (0x1810 : Word).toNat 6 0 ≤ 64 ∧ bits (0x1803 : Word).toNat 6 0 < 4 ∧ 64 < bits (0x1841 : Word).toNat 6 0) ∧
    (s {}).portMasked 5 = false ∧ (s {}).targetMasked 10 = false := by
  refine ⟨?_, ?_, ?_, ?_, ?_, ?_, ?_, ?_, ?_, ?_, ?_⟩ <;> decide +kernel
/-! ## Time -/

/-- A base that slews forward and one that slews backward. -/
theorem witness_TimeBasesTick : ∀ neg ∈ [false, true], let b : Base := { int := 5, slewing := true, slewNeg := neg, slewStep := 3, slewLeft := 7 }
    b.frac < 2 ^ 32 ∧ b.int < 2 ^ 32 ∧ b.slewing = true ∧ b.slewNeg = neg ∧ 0 < b.slewStep ∧ min b.slewStep b.slewLeft ≤ b.inc ∧
    divUp b.slewLeft b.slewStep ≤ 3 ∧ ({} : Base).slewing = false ∧ ({} : Base).sec < 2 ^ 48 := by decide +kernel

/-- Increments at both limits and past them, a step, slews, a refusal, a slew that has ended with and without operation, a
snapshot, holdover past its limit and missed intervals. -/
theorem witness_TimeBlockCommands : let hi (w : Nat) (v : Word) : Nat := v.toNat % 16 * 2 ^ 32 + ((st [(Reg.timeTbIncLo 3, w)]).rget (Reg.timeTbIncLo 3)).toNat
    let slew (op : Option Nat) : Base := { slewing := true, slewLeft := 0, slewOp := op }
    let s (op : Option Nat) : State := fl (anOp 13 2 3 []) { State.reset with time := { State.reset.time with bases := [(3, slew op)] } }
    (0x4FEB851EC ≤ hi 0xFEB851EC 4 ∧ hi 0x0147AE14 5 ≤ 0x50147AE14 ∧ hi 0xFEB851EB 4 < 0x4FEB851EC ∧ 0x50147AE14 < hi 0x0147AE15 5) ∧
    (let r := st [(Reg.timeTbAdjA 3, 9), (Reg.timeStat, 4)]
     sInt 64 ((r.rget (Reg.timeTbAdjA 3)).toNat + (r.rget (Reg.timeTbAdjB 3)).toNat * 2 ^ 32) = 9 ∧ r.baseHasGrid 3 = false ∧
     (r.base 3).slewing = false ∧ r.rb Reg.timeStat 2 = true ∧ State.reset.rb Reg.timeStat 2 = false ∧ r.rf (Reg.timeTbCtrl 1) 1 0 ≠ 1) ∧
    (bit (4 : Word).toNat 2 = true ∧ bits (4 : Word).toNat 1 0 = 0 ∧ bits (0x15 : Word).toNat 1 0 = 1 ∧ bits (0x15 : Word).toNat 12 4 = 1 ∧
      bits (0x1F45 : Word).toNat 12 4 = 500 ∧ bit (0 : Word).toNat 2 = false ∧ bit (1 : Word).toNat 0 = true) ∧
    (((s none).base 3).slewing = true ∧ ((s none).base 3).slewOp = none ∧ ((s (some 5)).base 3).slewOp = some 5 ∧
      (s (some 5)).op 5 = some (anOp 13 2 3 [])) ∧
    (State.reset.base 3).int < 2 ^ 64 ∧
    (let h := cyc 100000000000000 (st [(Reg.timeStat, 3)])
     h.tb0State = 3 ∧ h.time.holdSince + h.rf Reg.timeTb0HoldAct 11 0 * 800000000 < h.cyc ∧ h.time.holdHit = false) ∧
    (let m (d : Int) : State := { State.reset with time := { State.reset.time with bases := [(3, { moves := [(.add (d * 2 ^ 32), .reg)] })] } }
     ((m 7).base 3).moves = [(.add (7 * 2 ^ 32), .reg)] ∧ ((m 7).base 3).frac < 2 ^ 32) ∧
    (let r := { State.reset with time := { State.reset.time with refinAt := some 0 } }; r.time.refinAt = some 0 ∧ 0 + 800000 ≤ (cyc 800000 r).cyc) ∧
    (let m := { st [(Reg.timeStat, 2)] with time := { State.reset.time with missed := 4 } }
     m.tb0State = 2 ∧ m.rb Reg.timeStat 2 = false ∧ 4 ≤ m.time.missed) := by
  refine ⟨?_, ?_, ?_, ?_, ?_, ?_, ?_, ?_, ?_⟩ <;> decide +kernel

/-- An edge that its channel takes, one too close to the last one, one into a full FIFO, and one that it does not take; a stamp
to read; and a pulse that rises and falls. -/
theorem witness_StampsAndPulses : let s (c : TrigCh) : State := cyc 4000 { st [(Reg.timeTrigCfg 2, 0x80000100)] with
      time := { State.reset.time with trigs := [(2, c)] } }
    let x : Stamp := { rising := true, base := 0, sub := 1, lo := 2, hi := 3 }
    ((∀ k, k < 64 → (s {}).rb (Reg.captTrCfgAct k) 31 = false) ∧ (∀ k, k < 12 → (s {}).adcEn k = false) ∧ (s {}).rf (Reg.timeTrigCfg 2) 6 4 = 0) ∧
    ((s {}).trigTakes 2 true = true ∧ (s {}).trigTakes 2 false = false) ∧
    (((s { lastEdge := some 100 }).trig 2).lastEdge = some 100 ∧ 100 + 256 ≤ (s {}).edgeAt 7) ∧
    (s {}).edgeAt 7 < 63999 + 256 ∧ 16 ≤ ((s { fifo := List.replicate 16 x }).trig 2).fifo.length ∧
    (((s { fifo := [x] }).trig 2).fifo = [x] ∧ x.lo < 2 ^ 32 ∧ x.hi < 2 ^ 32) ∧
    (let p := { st [(Reg.timePpsCfg, 0x80000064)] with time := { State.reset.time with bases := [(0, { int := 999999999, ns := 999999999 })] } }
     p.rb Reg.timePpsCfg 31 = true ∧ 0 ≤ p.ppsSteps ∧ ((p.base 0).tick 0).sec ≠ (p.base 0).sec ∧ p.rf Reg.timePpsCfg 30 29 = 0) ∧
    (let p (due rise : Option Nat) := cyc 100000 { st [(Reg.timePpsCfg, 0x80000064)] with time := { State.reset.time with ppsDue := due, ppsRise := rise } }
     (p (some 5) none).time.ppsDue = some 5 ∧ 0 < (p none none).rf Reg.timePpsCfg 18 0 ∧ 5 ≤ 2 * (p none none).cyc ∧
     (p none (some 5)).time.ppsRise = some 5 ∧ 5 + (p none none).rf Reg.timePpsCfg 18 0 * 1600 ≤ 2 * (p none none).cyc ∧
     2 * (cyc 2 (p none none)).cyc < 5 + (p none none).rf Reg.timePpsCfg 18 0 * 1600) ∧
    (let w : TrigWait := ⟨x, 100, 900⟩
     ((s { wait := some w }).trig 2).wait = some w ∧ 900 ≤ (s {}).cyc / 4 ∧ (s {}).trigTakes 2 w.stamp.rising = true ∧
     (s {}).rf (Reg.timeTrigCfg 2) 23 16 = 0 ∧ 0 < (st [(Reg.timeTrigCfg 2, 0x80010100)]).rf (Reg.timeTrigCfg 2) 23 16) := by
  refine ⟨?_, ?_, ?_, ?_, ?_, ?_, ?_, ?_⟩ <;> decide +kernel

/-- A grid whose boundary has come and one whose has not; a BOUNDARY operation; a timed one; TIME operations and their payloads. -/
theorem witness_GridsAndTimedOperations : let o : Op := { anOp 13 4 5 [] with acted := true }
    let e : Op := { anOp 13 4 6 [] with acted := true }
    let b := rs [(Reg.timeSgCfgAct 5, 0x80000000), (Reg.timeSgPeriodAct 5, 200000)] State.reset
    let s := fl o (at0 1000000 { b with time := { b.time with grids := [(5, { running := true, next := 1000000 })] } })
    let step := anOp 13 2 3 [0, 0, 0, 0, 9, 0, 0, 0, 0, 0, 0, 0]
    let slew := anOp 13 2 3 [1, 0, 100, 0, 9, 0, 0, 0, 0, 0, 0, 0]
    (s.gridReached 5 = true ∧ (grid0 State.reset).gridReached 0 = false ∧ s.commits = [] ∧ s.psRunning = [] ∧ s.cycOn = false) ∧
    ((∀ n, n < 48 → s.axGrid n ≠ 5) ∧ s.lockAxesOn 5 = [] ∧ (∀ n, n < 12 → s.adcEn n = false) ∧ (∀ c, c < 256 → s.leH c 5 1 % 16 ≠ 5)) ∧
    (s.sp.ops = [o] ∧ o.acted = true ∧ o.out = none ∧ ∀ x ∈ (fl e s).sp.ops, ¬(x.unit = 13 ∧ x.code = 4 ∧ x.obj = 5)) ∧
    (let p : Op := { anOp 13 4 0 [] with time := some 7 }
     (fl p State.reset).op 5 = some p ∧ p.time = some 7 ∧ 7 ≤ (fl p (at0 7 State.reset)).now ∧ (fl p State.reset).now < 7) ∧
    (OpMay (fl step State.reset) step 13 2 ∧ recNat step.payload 0 1 = 0 ∧
      sInt 64 (recNat step.payload 4 4 + recNat step.payload 8 4 * 2 ^ 32) = 9 ∧ State.reset.baseHasGrid 3 = false ∧
      (st [(Reg.timeSgCfgAct 3, 0x80000003)]).baseHasGrid 3 = true) ∧
    (OpMay (fl slew State.reset) slew 13 2 ∧ recNat slew.payload 0 1 = 1 ∧ recNat slew.payload 2 2 = 100) ∧
    (OpMay (fl (anOp 13 4 0 []) (grid0 State.reset)) (anOp 13 4 0 []) 13 4 ∧ ((grid0 State.reset).grid 0).running = true ∧
      ((grid0 State.reset).grid 3).running = false) := by
  refine ⟨?_, ⟨?_, ?_, ?_, ?_⟩, ?_, ?_, ?_, ?_, ?_⟩ <;> decide +kernel

/-! ## Axis ports -/

/-- An axis port of the state, and a generator. -/
def axs (n : Nat) (x : Axis) (s : State) : State := { s with motion := { s.motion with axes := tset {} n x s.motion.axes } }
def mots (n : Nat) (x : Mot) (s : State) : State := { s with motion := { s.motion with mots := tset {} n x s.motion.mots } }

/-- Axis 3 in a mode, with NORMAL, no trip, `out_en` and torque on. -/
def axisOn (mode : Nat) (x : Axis) : State :=
  let s := rs [(Reg.axCfgAct 3, mode), (Reg.axCtrl 3, 1), (Reg.bhrStat, 0x60000000), (Reg.axStat 3, 0x10000000), (Reg.axPwmAct 3, 1000),
    (Reg.axRetAct 3, 0x01004002), (Reg.axDeadAct 3, 0x00100010), (Reg.axStepAct 3, 0x01000400), (Reg.axStepperAct 3, 10)] (axs 3 x State.reset)
  { s with chm := { s.chm with torque := 8 } }

/-- A due reload, a change of command, a gate whose time has come or not, a gate whose on-interval is long or too short, and a
phase that a context drives. -/
theorem witness_CarriersAndGates : let s := cyc 5000 (axisOn 1 { duty := [0x40000000, 0, 0], cmd := 0, gateAt := [(0, 100), (3, 20000)] })
    s.Inv ∧ (s.axMode 3 = 1 ∧ s.axGroup 3 = none ∧ (s.ax 3).carAt + 2 * s.axH 3 ≤ s.units) ∧
    ((cyc 0 s).axCmd 3 0 ≠ bit (s.ax 3).cmd 0 ∧ s.units < 20000 ∧ 100 ≤ s.units ∧ (0, 100) ∈ (s.ax 3).gateAt ∧ (3, 20000) ∈ (s.ax 3).gateAt) ∧
    (∃ left, s.cmdLeft 3 0 100 = some left ∧ s.rf (Reg.axDeadAct 3) 29 16 ≤ left) ∧
    (let m := rs [(Reg.axDeadAct 3, 0x3FFF0000)] s; ∃ left, m.cmdLeft 3 0 100 = some left ∧ left < m.rf (Reg.axDeadAct 3) 29 16) ∧
    (let d := words 0x3000060 [1] (words 0x3000180 [0, 0x00000301] (words 0x3000000 [0x00010001] s)); d.axDriven 3 0 = true) ∧
    State.reset.axDriven 3 0 = false := by
  refine ⟨?_, ?_, ?_, ⟨_, rfl, ?_⟩, ⟨_, rfl, ?_⟩, ?_, ?_⟩ <;> decide +kernel

/-- A step that may be issued, one held by its limits, pulses and standstill, DRVOK both ways, and a reseat from start to end. -/
theorem witness_StepsAndReseat : let s (x : Axis) : State := cyc 100000 (axisOn 2 x)
    let up : Axis := { ref1 := 655360, ref0 := 655360, dir := true, dirAt := 5, lastStep := 7 }
    let st := Reg.axStat 3
    ((s up).Inv ∧ (s up).axMode 3 = 2 ∧ (s up).axOn 3 = true ∧ (s up).rb st 28 = true ∧ (s up).rb st 26 = false ∧ (s up).stepDue 3 = 1) ∧
    (¬(s up).cyc < ((s up).ax 3).dirAt + 4 * (s up).rf (Reg.axStepAct 3) 20 10 ∧
      ¬(s up).cyc < ((s up).ax 3).lastStep + 4 * (s up).rf (Reg.axStepperAct 3) 15 0) ∧
    (∀ lag ∈ [false, true], let a := s { up with lastStep := 99990, lag := lag }
      a.cyc < (a.ax 3).lastStep + 4 * a.rf (Reg.axStepperAct 3) 15 0 ∧ a.stepDue 3 = 1 ∧ 0 < (a.ax 3).lastStep ∧ (a.ax 3).lag = lag) ∧
    (∀ c ∈ [99999, 5], ((s { pulseAt := some c }).ax 3).pulseAt = some c) ∧
    ((s {}).cyc < 99999 + 4 * (s {}).rf (Reg.axStepAct 3) 31 24 ∧ 5 + 4 * (s {}).rf (Reg.axStepAct 3) 31 24 ≤ (s {}).cyc) ∧
    (let due := usCyc (1000 * (s {}).rf (Reg.axRetAct 3) 30 24); (s {}).cyc < due ∧ due ≤ (cyc (10 ^ 9) (s {})).cyc) ∧
    (rs [(st, 0)] (s {})).rb st 28 = false ∧
    (∀ t ∈ [5, 200000], ((s { rsWait := some t }).ax 3).rsWait = some t ∧ 0 < (s {}).rf (Reg.axRetAct 3) 23 12) ∧
    (let r := rs [(st, 0x14000000)] (s { rsLeft := 2, rsAt := 50 }); r.rb st 26 = true ∧ 0 < (r.ax 3).rsLeft ∧ (r.ax 3).rsAt ≤ r.cyc) ∧
    (let r := rs [(st, 0x14000000)] (s { rsLeft := 0, rsAt := 50 }); r.rb st 26 = true ∧ (r.ax 3).rsLeft = 0 ∧
      (r.ax 3).rsAt + 4 * r.rf (Reg.axStepAct 3) 20 10 ≤ r.cyc ∧ (cyc 50 r).cyc < (r.ax 3).rsAt + 4) := by
  refine ⟨?_, ?_, ?_, ?_, ?_, ?_, ?_, ?_, ?_, ?_⟩ <;> decide +kernel

/-- INC edges, a Z edge, frames due, running, short, of a bad template, in time and late; trips, their release, and AUX edges. -/
theorem witness_EncodersFramesAndTrips : let s (fb : Nat) (x : Axis) : State := cyc 90000 (rs [(Reg.axCfgAct 3, fb * 2 ^ 24), (Reg.axFbAct 3, 0x04000000),
      (Reg.axFbtimeAct 3, 1000), (Reg.sdfChCfgAct 9, 0xC0000000)] (axs 3 x State.reset))
    (∀ fb ∈ [1, 2, 3], (s fb {}).Inv ∧ (s fb {}).axFb 3 = fb) ∧
    (((false : Bool) = ({} : Axis).encA ↔ true ≠ ({} : Axis).encB) ∧ (true ≠ ({} : Axis).encA ∧ true ≠ ({} : Axis).encB)) ∧
    ((s 1 {}).mot 3).home = none ∧
    (((s 2 { frameAt := [5, 9] }).ax 3).frameAt = [5, 9] ∧ ((s 2 { frameAt := [5, 9], frame := some (1, 2) }).ax 3).frame ≠ none ∧
      5 ≤ (s 2 {}).cyc ∧ (s 2 {}).cyc < 90001) ∧
    ((s 2 { frame := some (1, 2) }).rf (Reg.axFbAct 3) 30 24 = 4 ∧ [true].length < 4 ∧ 4 ≤ [true, false, true, true].length ∧
      (s 2 {}).rb (Reg.axSig1Act 3) 31 = false ∧
      (2 * 4 - 1) * (s 2 {}).rf (Reg.axFbAct 3) 15 0 ≤ 4 * ((s 2 {}).cyc - 1)) ∧
    ((rs [(Reg.axTplAct 3 0, 0x30000000)] (s 3 { frame := some (1, 2) })).axFrame 3 [] []).bad = true ∧
      ((rs [(Reg.axTplAct 3 0, 0x30000000)] (s 3 {})).axFrame 3 [] []).line.length * (s 3 {}).rf (Reg.axFbAct 3) 15 0 ≤ 2 * ((s 3 {}).cyc - 1) ∧
    (1 + 80 * (s 2 {}).rf (Reg.axFbtimeAct 3) 15 0 ≤ (s 2 {}).cyc ∧ (s 2 {}).cyc < 89999 + 80 * (s 2 {}).rf (Reg.axFbtimeAct 3) 15 0) ∧
    ((s 1 {}).rb (Reg.sdfChCfgAct 9) 31 = true ∧ (s 1 {}).rb (Reg.sdfChCfgAct 10) 31 = false ∧
      (let c : SdChan := { beyond := 8, same := 256 }; (s 1 {}).rf (Reg.sdfChCfgAct 9) 29 27 + 1 ≤ c.beyond ∧ 256 ≤ c.same) ∧
      (s 1 {}).axWithin 4 = true ∧
      (rs [(Reg.sdfChThrAct 9, 1)] (s 1 {})).axWithin 3 = false) ∧
    ((s 1 {}).rf (Reg.axCfgAct 3) 7 4 = 0 ∧ ((s 1 {}).ax 3).dueA ≤ (s 1 {}).cyc / 4 ∧ 0 < (rs [(Reg.axCfgAct 3, 0x01000030)] (s 1 {})).rf (Reg.axCfgAct 3) 7 4) ∧
    (bit (2 : Word).toNat 1 = true ∧ OpMay (fl (anOp 1 3 3 []) State.reset) (anOp 1 3 3 []) 1 3) ∧
    (true ≠ (({} : Axis).aux 1).raw ∧ true ≠ (({} : Axis).aux 1).qual ∧ (({} : Axis).aux 1).edge = none) := by
  refine ⟨?_, ?_, ?_, ?_, ?_, ?_, ?_, ?_, ?_, ?_, ?_⟩ <;> decide +kernel

/-- ENABLE and SETPOS on an axis that is on, off, tripped, at standstill; with its grid running and not. -/
theorem witness_AxisOperations : let en := anOp 1 2 3 [1]
    let sp := anOp 1 4 3 [9, 0, 0, 0, 0, 0, 0, 0]
    let s (o : Op) (m stat : Nat) : State := rs [(Reg.axStat 3, stat)] (fl o (axisOn m {}))
    (∀ x ∈ [(0, 0), (2, 0), (2, 0x20000000)], (s en x.1 x.2).Inv ∧ OpTakes (s en x.1 x.2) en 1 2) ∧
    (s en 0 0).axMode 3 = 0 ∧ ((s en 2 0).axMode 3 ≠ 0 ∧ (s en 2 0).node = .normal ∧ (s en 2 0).rb (Reg.axStat 3) 29 = false) ∧
    (s en 2 0x20000000).rb (Reg.axStat 3) 29 = true ∧ ((s en 2 0).grid ((s en 2 0).axGrid 3)).running = false ∧ en.time = none ∧
    ((grid0 (s en 2 0)).grid ((grid0 (s en 2 0)).axGrid 3)).running = true ∧
    (OpTakes (s sp 2 0x01000000) sp 1 4 ∧ (s sp 2 0x01000000).rb (Reg.axStat 3) 24 = true ∧ (s sp 2 0x01000000).rb (Reg.axStat 3) 27 = false ∧
      (s sp 2 0x01000000).rb (Reg.axStat 3) 26 = false ∧ (s sp 2 0).rb (Reg.axStat 3) 24 = false) ∧
    OpMay (fl (anOp 1 5 3 []) State.reset) (anOp 1 5 3 []) 1 5 := by
  refine ⟨?_, ?_, ?_, ?_, ?_, ?_, ?_, ?_, ?_⟩ <;> decide +kernel

/-! ## Motion -/

/-- Limits of 100 for axis 3. -/
def limits : List (Nat × Nat) := (List.range 6).map fun i => (Reg.motLimAct 3 i, 0x42C80000)

/-- Operations of every code, well and badly formed, with the axis OFF and not, idle and moving; ARRIVE in each state. -/
theorem witness_MotionOperations : let s (o : Op) (mode : Nat) (m : Mot) : State := fl o (mots 3 m (axisOn mode {}))
    let move := anOp 2 2 3 (List.replicate 16 0)
    let fol := anOp 2 7 3 ([1, 0, 5, 0] ++ List.replicate 4 0 ++ [1, 0, 0, 0])
    (∀ code ∈ [2, 3, 4, 5, 7, 8], OpTakes (s (anOp 2 code 3 []) 0 {}) (anOp 2 code 3 []) 2 code ∧ (s (anOp 2 code 3 []) 0 {}).Inv) ∧
    (2 < recNat (anOp 2 2 3 [3]).payload 0 1 ∧ recNat (anOp 2 2 3 ([2] ++ List.replicate 13 0 ++ [0xF0, 0x7F])).payload 0 1 = 2 ∧
      dfin (recNat (anOp 2 2 3 ([2] ++ List.replicate 13 0 ++ [0xF0, 0x7F])).payload 8 8) = false ∧
      1 < recNat (anOp 2 7 3 [2]).payload 0 1 ∧ recNat (anOp 2 7 3 [1]).payload 8 4 = 0) ∧
    (recNat move.payload 0 1 = 0 ∧ recNat fol.payload 0 1 = 1 ∧ recNat fol.payload 8 4 = 1 ∧ recNat fol.payload 1 1 ≤ 15 ∧ recNat fol.payload 2 1 = 5) ∧
    ((s move 0 {}).axMode 3 = 0 ∧ (s move 2 {}).axMode 3 = 2 ∧ ((s move 0 {}).mot 3).state = 0 ∧ ((s move 0 { state := 1 }).mot 3).state ≠ 0) ∧
    (let f := rs [(Reg.vmCamBaseLoAct 5, 0x02000000), (Reg.vmCamCfgAct 5, 1)] (s fol 2 {})
     0x2000000 < f.rget64 (Reg.vmCamBaseLoAct 5) (Reg.vmCamBaseHiAct 5) + 8 * f.rf (Reg.vmCamCfgAct 5) 12 0 ∧ OpTakes f fol 2 7) ∧
    ((s fol 2 {}).rget64 (Reg.vmCamBaseLoAct 5) (Reg.vmCamBaseHiAct 5) + 8 * (s fol 2 {}).rf (Reg.vmCamCfgAct 5) 12 0 ≤ 0x2000000) ∧
    (∀ m ∈ [({ state := 0 } : Mot), { state := 6 }, { state := 2, v := 5, targetVel := some 5 }, { state := 1 }],
      OpMay (s (anOp 2 6 3 []) 2 m) (anOp 2 6 3 []) 2 6) ∧
    OpMay (s (anOp 2 9 3 []) 2 {}) (anOp 2 9 3 []) 2 9 := by
  refine ⟨?_, ?_, ?_, ?_, ?_, ?_, ?_, ?_⟩ <;> decide +kernel

/-- MOVE to a position and to a velocity, blocked, lost and free; a STOP; an axis that is not ready; a cam; qualified levels. -/
theorem witness_MotionAtBoundary : let s (o : Op) (m : Mot) : State := fl o (mots 3 m (rs limits (axisOn 2 {})))
    let abs := anOp 2 2 3 ([0, 0, 0, 0, 0, 0, 0, 0] ++ [0, 0, 0, 0, 0, 16, 0, 0])
    let vel := anOp 2 2 3 ([2, 0, 0, 0, 0, 0, 0, 0] ++ [0, 0, 0, 0, 0, 0, 0xF0, 0x3F])
    let top := anOp 2 2 3 ([2, 0, 0, 0, 0, 0, 0, 0] ++ [0, 0, 0, 0, 0, 0, 0xF0, 0x40])
    let stop := anOp 2 3 3 [0]
    let moving : Mot := { state := 2, v := 0x4024000000000000 }
    (∀ o ∈ [abs, vel, top, stop], (s o {}).Inv ∧ (s o {}).op o.id = some o ∧ ((s o {}).mot 3).home = none ∧ ((s o {}).mot 3).follow = none) ∧
    (recNat vel.payload 0 1 = 2 ∧ (s vel {}).motBlocked 3 (dsgn (recNat vel.payload 8 8)) = false ∧
      dlt ((s top {}).motLimit 3 0) (dabs (recNat top.payload 8 8)) = true ∧ dlt ((s vel {}).motLimit 3 0) (dabs (recNat vel.payload 8 8)) = false) ∧
    (let b := axs 3 { aux0 := { qual := true } } (rs [(Reg.motCfgAct 3, 1)] (s vel {})); b.motBlocked 3 (dsgn (recNat vel.payload 8 8)) = true ∧ b.motBlocked 3 (sInt 64 (recNat abs.payload 8 8)) = true) ∧
    ((planTo ((s abs {}).motLims 3) 0 0 0 0 (sInt 64 (recNat abs.payload 8 8))).segs ≠ [] ∧ (s abs {}).rb (Reg.axStat 3) 25 = false) ∧
    (rs [(Reg.axStat 3, 0x02000000)] (s abs {})).rb (Reg.axStat 3) 25 = true ∧
    (let p := planRest 0 0 moving.v 0 ((s stop moving).motLimit 3 2) ((s stop moving).motLimit 3 3) false; p.segs ≠ []) ∧
    (((s stop { moving with wasReady := true }).mot 3).wasReady = true ∧ ((s stop moving).mot 3).state ≠ 0 ∧ (rs [(Reg.axStat 3, 0)] (s stop moving)).motReady 3 = false ∧ (s stop moving).motReady 3 = true ∧
      ((s stop moving).mot 3).wasReady = false) ∧
    (∀ cam ∈ [false, true], ((s stop { follow := some { cam := cam, slot := 0, table := 0, num := 1, den := 1, pm0 := 0, pf0 := 0, phi := 0 } }).mot 3).follow.map
      (·.cam) = some cam) := by
  refine ⟨?_, ?_, ?_, ?_, ?_, ?_, ?_, ?_⟩ <;> decide +kernel

/-- A level that has held for its debounce time on an input with the role of a limit, and one that has not. -/
theorem witness_MotionAtBoundary_aux : let e : AuxEdge := { stamp := 5, pos0 := 6, t0 := 4 }
    let s := cyc 1000000 (rs [(Reg.motCfgAct 3, 1), (Reg.motDebAct 3, 10)] (axs 3 { aux0 := { raw := true, rawAt := 7, edge := some e } } State.reset))
    let x := (s.ax 3).aux 0
    s.Inv ∧ x.edge = some e ∧ x.raw ≠ x.qual ∧ x.rawAt + usCyc (s.rf (Reg.motDebAct 3) 15 0) ≤ s.cyc ∧ (cyc 100 s).cyc < x.rawAt + usCyc 10 ∧
    s.auxRole 3 1 = 0 ∧ bit (s.mot 3).lims 0 = false ∧ bit (s.mot 3).lims 1 = false ∧ s.auxRole 3 0 = 1 ∧ s.auxActive 3 0 x.raw = true ∧ dsgn (0x3FF0000000000000) = 1 := by decide +kernel

/-- A segment in its widths; PUBLISH with each check failing first, with a full queue and in order; EVAL inside and after a segment;
a runout; and segments from the Herd for no slot, for one, repeated, with a gap, and into a full queue. -/
def aSeg (t seq : Nat) : VmSeg := { tStart := t, c0 := 0, c1 := 0, c2 := 0, c3 := 0, durUs := 1000, roDec := 0x3F800000, roJerk := 0x3F800000, seq := seq }

def vms (q : List VmSeg) (last : Option Nat) (kind now : Nat) : State :=
  at0 now (rs [(Reg.vmVmCfgAct 3, kind * 2 ^ 30 + 9)] { State.reset with
    motion := { State.reset.motion with vms := [(3, { queue := q, lastSeq := last })] } })

def publish (g : VmSeg) : Op := anOp 2 0x10 67 (List.replicate 8 0 ++ (g.fields.flatMap fun f => bytesLE f.1 f.2).map (·.toNat))

theorem witness_VirtualMasters_publish :
    (let o := publish (aSeg 3000000 0)
     OpMay (fl o (vms [] none 1 5)) o 2 0x10 ∧ bit (recNat o.payload 0 1) 0 = false ∧ (aSeg 3000000 0).sound = true ∧ vmSegOf (o.payload.drop 8) = aSeg 3000000 0 ∧
     (vms [] none 1 5).rf (Reg.vmVmCfgAct 3) 31 30 = 1 ∧ (vms [] none 2 5).rf (Reg.vmVmCfgAct 3) 31 30 ≠ 1 ∧
     ¬3000000 < (vms [] none 1 5).now + (vms [] none 1 5).rf (Reg.vmVmDestAct 3) 31 16 * 1000 ∧ ((vms [] none 1 5).vm 3).queue.getLast? = none) ∧
    ({ aSeg 3000000 0 with durUs := 0 } : VmSeg).sound = false ∧ ¬(aSeg 4000000 0).tStart < (aSeg 3000000 0).tStart ∧
    (3000000 < (vms [] none 1 2500000).now + (vms [] none 1 5).rf (Reg.vmVmDestAct 3) 31 16 * 1000) ∧
    ((aSeg 2500000 0).tStart < 3000000 ∧ 3000000 ≤ (aSeg 2500000 0).tEnd) ∧
    (vmCurrent [{ aSeg 2500000 0 with c0 := 10 ^ 9 }] 3000000).map (fun c => decide (((vms [] none 1 5).rget (Reg.vmVmTolAct 3)).toNat <
      ((c.at 3000000).1.p - (aSeg 3000000 0).c0).natAbs)) = some true ∧
    (vmCurrent [aSeg 2500000 0] 3000000).map (fun c => decide (((c.at 3000000).1.p - (aSeg 3000000 0).c0).natAbs ≤ ((vms [] none 1 5).rget (Reg.vmVmTolAct 3)).toNat)) = some true ∧
    16 ≤ ((vms (List.replicate 16 (aSeg 2000000 0)) none 1 5).vm 3).queue.length := by
  refine ⟨?_, ?_, ?_, ?_, ?_, ?_, ?_, ?_⟩ <;> decide +kernel

theorem witness_VirtualMasters : let wire (g : VmSeg) : List Byte := List.replicate 8 0 ++ g.wire
    (-(2 ^ 63) ≤ (aSeg 7 1).c0 ∧ (aSeg 7 1).c0 < 2 ^ 63 ∧ (aSeg 7 1).seq < 2 ^ 16) ∧
    (∀ g, vmCurrent ((vms [aSeg 3 0] none 1 5).vm 3).queue (vms [aSeg 3 0] none 1 5).now = some g → ((vms [aSeg 3 0] none 1 5).vm 3).queue.head? = some g) ∧
    (OpMay (fl (anOp 2 0x11 67 [9]) (vms [aSeg 3 0] none 1 5)) (anOp 2 0x11 67 [9]) 2 0x11 ∧ vmCurrent [aSeg 3 0] 9 = some (aSeg 3 0) ∧ 9 < (aSeg 3 0).tEnd ∧
      vmCurrent [aSeg 3 0] 2 = none ∧ (aSeg 3 0).tEnd ≤ 2000000) ∧
    (vmCurrent [aSeg 3 0] (vms [aSeg 3 0] none 1 2000000).now = some (aSeg 3 0) ∧ ((vms [aSeg 3 0] none 1 2000000).vm 3).runout = false) ∧
    ((∀ j, j < 16 → ¬((vms [] none 2 5).rf (Reg.vmVmCfgAct j) 31 30 = 2 ∧ (vms [] none 2 5).rf (Reg.vmVmCfgAct j) 15 0 = 8)) ∧
      ∀ j, j < 16 → ((vms [] none 2 5).rf (Reg.vmVmCfgAct j) 31 30 = 2 ∧ (vms [] none 2 5).rf (Reg.vmVmCfgAct j) 15 0 = 9 ∧
        (vms [] none 2 5).rf (Reg.vmVmCfgAct j) 23 20 = recNat (wire (aSeg 7 1)) 0 1 ↔ j = 3)) ∧
    (bit (recNat (wire (aSeg 7 1)) 1 1) 0 = false ∧ vmSegOfWire ((wire (aSeg 7 1)).drop 8) = aSeg 7 1 ∧ (aSeg 7 1).sound = true) ∧
    (((vms [] (some 1) 2 5).vm 3).lastSeq = some (aSeg 7 1).seq ∧ ((vms [] (some 0) 2 5).vm 3).lastSeq ≠ some (aSeg 7 1).seq ∧
      1 < ((aSeg 7 1).seq + 65536 - 65530) % 65536 ∧ ((vms [] none 2 5).vm 3).evalAt < (aSeg 7 1).tStart) ∧
    ((vms (List.replicate 16 (aSeg 6 0)) none 2 5).vm 3).queue.getLast? = some (aSeg 6 0) ∧ (aSeg 6 0).tStart < 7 ∧ 7 ≤ (aSeg 6 0).tEnd := by
  refine ⟨?_, fun g h => ?_, ?_, ?_, ?_, ?_, ?_, ?_⟩
  · decide +kernel
  · rw [← h]; decide +kernel
  all_goals decide +kernel

/-! ## Converters -/

/-- Converter 3, on with a sequence of two entries, in a state, at TB tick 100,000. -/
def adcOn (cfg : Nat) (x : Adc) : State :=
  cyc 400000 (rs [(Reg.adcCfgAct 3, cfg)] { State.reset with adc := { State.reset.adc with convs := [(3, x)] } })

def aConv (sig dr : Bool) (e : Nat) : AdcConv :=
  { kind := .regular 0, input := 2, sig := sig, dr := dr, idx := 7, stamp := 9, endAt := e }

def anInj (tick : Nat) : AdcInj := { input := 2, ext := 0, sig := true, dr := false, idx := 7, tick := tick }

def someUpd : SigUpd := { idx := 7, val := 9, stamp := 120, kind := 3 }

/-- On and off, idle, busy and latched, a calibration at each stage, injected requests and holds, results of each kind. -/
theorem witness_ConvertersAtWork : let on (x : Adc) : State := adcOn 0x80000002 x
    let may (x : Adc) : Prop := (on x).Inv ∧ (on x).underTest 3 = 0
    (may {} ∧ (on {}).adcEn 3 = true ∧ (on {}).adcLen 3 = 2 ∧ (adcOn 0x80000000 {}).adcLen 3 = 0 ∧ (adcOn 0 {}).adcEn 3 = false) ∧
    ((∀ t ∈ [5, 200000], ((on { trigDue := some t }).adcC 3).trigDue = some t) ∧ (5 ≤ (on {}).tick ∧ (on {}).tick < 200000)) ∧
    (((on { running := true, latched := true }).adcC 3).latched = true ∧ ((on {}).adcCommitting 3 && (on {}).adcAtBoundary 3) = false ∧ ((on { calPending := true }).adcC 3).calPending = true) ∧
    ((on { calPending := true, inj := [anInj 5] }).adcC 3).conv = none ∧ (∀ i ∈ ((on { inj := [anInj 5] }).adcC 3).inj, i.early = false) ∧
    (((on { calEnd := some 5 }).adcC 3).calEnd = some 5 ∧ ((on { calEnd := some 5 }).adcC 3).calOps = [] ∧ ((on { calEnd := some 5 }).adcC 3).latched = false) ∧
    (4 ≤ ((on { inj := List.replicate 4 (anInj 5) }).adcC 3).inj.length ∧ fld (3 : Word) 1 0 = 3 ∧ ∀ i, i < 8 → fld (0x15555 : Word) (2 * i + 1) (2 * i) ≠ 3) ∧
    (((on { inj := [anInj 5] }).adcC 3).inj = anInj 5 :: [] ∧ max (5 + 40 + 0) 0 ≤ (on {}).tick ∧ (on {}).tick < max (99990 + 40 + 0) 0 ∧
      16 ≤ ((on { inj := [anInj 5], mesh := List.replicate 16 someUpd }).adcC 3).mesh.length) ∧
    (let r := on { running := true, next := 1, lastHold := some 5 }; (r.adcC 3).next < r.adcLen 3 ∧
      5 + 40 + fld (r.rget (Reg.adcSeqAct 3 1)) 26 19 ≤ r.tick ∧ r.tick < 99990 + 40) ∧
    (∀ sd ∈ [(true, false), (false, true)], ((on { conv := some (aConv sd.1 sd.2 5) }).adcC 3).conv = some (aConv sd.1 sd.2 5) ∧
      (aConv sd.1 sd.2 5).kind = .regular 0 ∧ (aConv sd.1 sd.2 5).endAt ≤ (on {}).tick) ∧
    (((List.replicate 8 99999).filter fun t => decide ((on {}).tick < t + 1250)).length = 8 ∧ (on {}).tick < (aConv true false 100001).endAt) ∧
    (((List.range 12).map fun i => ((on { mesh := [someUpd] }).adc.turn + i) % 12).find? (fun i => !((on { mesh := [someUpd] }).adcC i).mesh.isEmpty) = some 3 ∧
      (on {}).bankLevel ((on {}).bankOf someUpd.idx) < 64 ∧ (on {}).sig.held = []) ∧
    (let f := on { mesh := [someUpd], armed := true, trigAt := 5 }
     let f : State := { f with sig := { f.sig with queue := List.replicate 64 someUpd } }
     64 ≤ f.bankLevel (f.bankOf someUpd.idx) ∧ (f.adcC 3).armed = true ∧ max (f.adcC 3).trigAt 0 ≤ f.tick ∧ (f.adcC 3).next < f.adcLen 3) ∧
    (let c : State := { on { trigDue := some 5 } with commits := [{ group := .adc 3, due := true }] }
     (c.adcCommitting 3 && c.adcAtBoundary 3) = true) := by
  refine ⟨⟨⟨?_, ?_⟩, ?_⟩, ?_, ?_, ?_, ?_, ?_, ?_, ?_, ?_, ?_, ?_, ?_, ?_, ?_⟩ <;> decide +kernel

/-- An open-wire test in its settling time, past it, at its last input; and the ADC operations with each check failing. -/
theorem witness_OpenWireAndAdcOperations : let ow (phase : OwPhase) (mask wait : Nat) : AdcOw :=
      { op := 5, mask := mask, settle := 0, delta := 9, input := 1, phase := phase, waitTo := wait, readings := [(1, 90, 30)] }
    let o (code : Nat) (p : List Nat) : Op := anOp 8 code 3 p
    let on (o : Op) (x : Adc) : State := fl o (adcOn 0x80000002 x)
    (∀ ph ∈ [OwPhase.up, .recover], ∀ w ∈ [5, 200000], ((on (o 5 []) { ow := some (ow ph 2 w) }).adcC 3).ow = some (ow ph 2 w)) ∧
    (5 ≤ (on (o 5 []) {}).tick ∧ (on (o 5 []) {}).tick < 200000 ∧ nextInput 2 2 = none ∧ nextInput 10 2 = some 3 ∧ (on (o 5 []) {}).op 5 = some (o 5 [])) ∧
    (∀ code ∈ [2, 3, 4, 5, 6], OpMay (on (o code []) {}) (o code []) 8 code ∧ (on (o code []) {}).Inv) ∧
    ((on (o 2 []) {}).adcEn 3 = true ∧ (fl (o 2 []) (adcOn 0 {})).adcEn 3 = false ∧ (fl (o 2 []) (adcOn 0x80000000 {})).adcLen 3 = 0) ∧
    (7 < recNat (o 3 [8]).payload 0 1 ∧ bit (recNat (o 3 [2, 0, 1, 0, 0, 0, 4, 0]).payload 2 1) 0 = true ∧
      0x3FFFF < recNat (o 3 [2, 0, 1, 0, 0, 0, 4, 0]).payload 4 4 ∧ recNat (o 3 [2, 0, 1, 0, 7]).payload 4 4 = 7) ∧
    (bit ((on (o 3 []) { ow := some (ow .up 2 5) }).underTest 3) 1 = true ∧ bit ((on (o 3 []) {}).underTest 3) 2 = false) ∧
    4 ≤ ((on (o 3 []) { inj := List.replicate 4 (anInj 5) }).adcC 3).inj.length ∧
    (recNat (o 5 [6]).payload 0 1 = 6 ∧ bit 6 1 = true ∧ (∀ j, j < 1 → bit 6 j = false) ∧ (on (o 5 [6]) {}).underTest 3 &&& 6 = 0 ∧
      (rs [(Reg.adcOwsrc 3, 4)] (on (o 5 [6]) {})).underTest 3 &&& 6 ≠ 0) ∧
    (((on (o 4 []) { calPending := true }).adcC 3).calPending = true ∧ ((on (o 4 []) {}).adcC 3).calEnd.isSome = false) := by
  refine ⟨?_, ?_, ?_, ?_, ?_, ?_, ?_, ?_, ?_⟩ <;> decide +kernel

/-! ## The Herd fabric -/

/-- Herd port 1 of the state, with a link state and a role. -/
def hport (link role : Nat) (x : HPort) (s : State) : State :=
  rs [(Reg.herdHpStat 1, link * 2 ^ 29 + role * 2 ^ 26)] { s with herd := { s.herd with ports := [(1, x)] } }

def hp (link role : Nat) (x : HPort) : State := cyc 100000000 (hport link role x State.reset)

def aNbr (id : Nat) (run : Bool) : HNbr := { port := 0, state := 3, running := run, prio := 1, id := 9, hops := 0, uid := 77, stagUid := 0, herdId := id }

def aFrame (cls dst hops : Nat) : HerdFrame := { dst := dst, src := 3, cls := cls, hops := hops, payload := [1, 2, 3, 4, 5] }

/-- A frame whose fields lie in their widths. -/
theorem witness_HerdFramesOnTheWire : let f := aFrame 2 9 1
    f.dst < 2 ^ 16 ∧ f.src < 2 ^ 16 ∧ f.cls < 16 ∧ f.prio < 4 ∧ f.hops < 256 ∧ f.seq < 2 ^ 16 ∧ f.ts < 2 ^ 32 ∧ f.payload.length < 2 ^ 16 := by decide

/-- Each link state; a ring that loses a link; HELLO due and overdue; a neighbour that ends an election, of another and of the
own Herd; exchanges enough and too few. -/
theorem witness_HerdLinks : (∀ l ∈ [1, 2, 3, 4], (hp l 2 {}).Inv ∧ (hp l 2 {}).hlink 1 = l ∧ (hp l 2 {}).hrole 1 = 2) ∧
    ((hp 2 0 {}).bhr.rx = none ∧ bit 6 1 = true ∧ bit 6 2 = true ∧ ∀ j, j < 2 → j ≠ 1 → bit 6 j = false) ∧
    (((hp 2 0 {}).hport 1).hearAt + usCyc 3000 ≤ (hp 2 0 {}).cyc ∧ ¬((hp 2 0 { hearAt := 100000000 }).hport 1).hearAt + usCyc 3000 ≤ (hp 2 0 {}).cyc) ∧
    ((∀ c, ((hp 2 0 {}).hport 1).helloAt = some c → c + usCyc 1000 ≤ (hp 2 0 {}).cyc) ∧
      ((hp 2 0 { helloAt := some 99999999 }).hport 1).helloAt = some 99999999 ∧ ¬99999999 + usCyc 1000 ≤ (hp 2 0 {}).cyc) ∧
    (let s := rs [(Reg.herdStat, 0x10000000), (Reg.herdStag, 0x00800000), (Reg.herdStagUid 0, 5)] (hp 4 2 {})
     let n := nbrOf ([1, 3, 0x0B, 1] ++ List.replicate 52 0)
     s.rb Reg.herdStat 28 = true ∧ s.herd.elect = none ∧ n.herdId = s.herdId ∧ n.stagUid ≠ s.stagUid) ∧
    (((hp 3 0 { calCount := 15 }).hport 1).calCount < 16 ∧ 16 ≤ ((hp 3 0 { calCount := 16 }).hport 1).calCount) ∧
    (let s (n : HNbr) : State := rs [(Reg.herdStat, 0x50000000)] (hp 3 0 { calCount := 16, nbr := some n })
     ((s (aNbr 0 true)).hport 1).nbr = some (aNbr 0 true) ∧ (aNbr 5 true).herdId ≠ (s (aNbr 5 true)).herdId ∧ (aNbr 0 true).herdId = (s (aNbr 0 true)).herdId ∧
     (aNbr 0 true).stagUid = (s (aNbr 0 true)).stagUid ∧ (s (aNbr 0 true)).rb Reg.herdStat 30 = true ∧ ((s (aNbr 0 true)).hport 1).given = none ∧
     (aNbr 0 false).running = false) := by
  refine ⟨?_, ?_, ?_, ⟨?_, ?_, ?_⟩, ?_, ?_, ?_⟩
  · decide +kernel
  · decide +kernel
  · decide +kernel
  · have e : ((hp 2 0 {}).hport 1).helloAt = none := by decide +kernel
    intro c h; rw [e] at h; cases h
  all_goals decide +kernel

/-- A HELLO of a running neighbour with a better Stag. -/
theorem witness_HerdLinks_hello : let d : List Byte := [1, 3, 0x0B, 1] ++ List.replicate 52 0
    (nbrOf d).running = true ∧ better (nbrOf d).prio (nbrOf d).stagUid 0x80 5 = true ∧ (hp 2 2 {}).hrole 1 ≠ 1 := by decide +kernel

/-- Received frames: a bad header, a bad class, no hops left, no route, and one to pass on; frames to send and a free port. -/
theorem witness_HerdLinks_frames : let s := rs [(Reg.herdStat, 0x80000003)] (hp 4 2 {})
    (headOk ((aFrame 2 9 1).wire.map (· ^^^ 1)) = false ∧ headOk (aFrame 9 9 1).wire = true ∧ (frameOf (aFrame 9 9 1).wire).cls = 9) ∧
    (∀ h ∈ [0, 1], let d := (aFrame 2 9 h).wire
      headOk d = true ∧ bodyOk d = true ∧ lenOf d = 5 ∧ (frameOf d).cls = 2 ∧ s.mayGo 1 (frameOf d) = true ∧ s.hasId = true ∧
      (frameOf d).dst = 9 ∧ s.nodeId = 3 ∧ (frameOf d).hops = h ∧ (frameOf d).wrap = false) ∧
    (s.routePort 9 = none ∧ (rs [(Reg.herdHpIvl 1 0, 0x00090009)] s).routePort 9 = some 1 ∧ s.herd.wrap = none) ∧
    (s.portFree 1 = true ∧ s.cycOn = false ∧ (hp 4 2 { sending := some (aFrame 2 9 1, 100000001) }).portFree 1 = false ) ∧
    (((hp 4 2 { syncQ := [{ aFrame 0 9 1 with payload := [0] }] }).hport 1).syncQ.head?.map (·.payload.head?) = some (some 0) ∧ s.mayGo 1 (aFrame 0 9 1) = true) ∧
    (((hp 4 2 { isoQ := [(0, aFrame 1 9 1)] }).hport 1).isoQ = [(0, aFrame 1 9 1)] ∧ s.mayGo 1 (aFrame 1 9 1) = true ∧
      ((((s.slots 1)[0]?).map (·.2)).getD 0) * 50 ≤ s.cycPos) := by
  refine ⟨?_, ?_, ?_, ?_, ?_, ?_⟩ <;> decide +kernel

/-- START past its wait and before it; claims; the ends of an election as Stag and as another; sizes with and without spares; an
ID failure; a cut; the loss of the path. -/
theorem witness_HerdElections : let st (e : Option Elect) : State := let a := rs [(Reg.bhrStat, 0x40000000)] (hp 3 1 {}); { a with herd := { a.herd with elect := e } }
    let d : List Byte := [2, 1] ++ List.replicate 30 0
    let el (u : Nat) : Elect := { prio := 128, uid := u, hops := 0, since := 5 }
    let other := if State.reset.uid = 0 then 1 else 0
    ((st none).Inv ∧ (st none).node = .start ∧ (st none).herd.joined = false ∧ (st none).bhr.startAt + usCyc 3000 ≤ (st none).cyc ∧
      (st none).rb Reg.herdStat 28 = false ∧ (cyc 5 (st none)).cyc < (st none).bhr.startAt + usCyc 3000) ∧
    ((st (some (el 0))).herd.elect = some (el 0) ∧ better (ofBytesBE ((d.drop 1).take 1)) (ofBytesBE ((d.drop 8).take 16)) 128 0 = true ∧
      better 200 7 128 0 = false ∧ ¬(200 = 128 ∧ 7 = 0) ∧ (cyc 5 (st none)).cyc < 5 + usCyc 1000 ∧ 5 + usCyc 1000 ≤ (st none).cyc) ∧
    ((st (some (el State.reset.uid))).herd.elect = some (el State.reset.uid) ∧ (el State.reset.uid).uid = (st none).uid) ∧
    ((el other).uid ≠ (st none).uid ∧ (el other).uid < 2 ^ 128) ∧
    (let s := rs [(Reg.herdStat, 0x80000003)] { st none with herd := { (st none).herd with spares := some (10, 20) } }
     s.hasId = true ∧ (s.hport 1).given = none ∧ s.herd.spares = some (10, 20) ∧ 10 + 3 ≤ 20 + 1 ∧ 20 + 1 < 10 + 12 ∧ s.ivlsUsed 1 < 64 ∧
     ofBytesBE ((([5, 0, 0, 0, 0, 0, 0, 3] : List Byte).drop 4).take 4) = 3) ∧
    ((hp 4 1 {}).hrole 1 = 1 ∧ (hp 4 1 {}).hasId = false) ∧
    (let s := { hp 4 1 {} with herd := { State.reset.herd with idFailAt := some 5 } }
     s.herd.idFailAt = some 5 ∧ 5 + usCyc 100000 ≤ s.cyc ∧ (cyc 6 s).cyc < 5 + usCyc 100000) ∧
    (2 % 16 ≠ 0 ∧ 16 % 16 = 0) ∧
    (let s := rs [(Reg.herdStat, 0x10000000)] (hp 4 1 {}); s.rb Reg.herdStat 28 = true ∧ s.rb Reg.herdStat 30 = false ∧ s.herd.elect = none ∧
      s.herd.pathAt + max (16 * usCyc (s.rf Reg.herdSync 13 0)) (usCyc 10000) ≤ s.cyc) := by
  refine ⟨?_, ?_, ⟨rfl, rfl⟩, ?_, ?_, ?_, ?_, ?_, ?_⟩
  case refine_3 =>
    refine ⟨?_, ?_⟩
    · show (if State.reset.uid = 0 then 1 else 0) ≠ State.reset.uid
      split <;> omega
    · show (if State.reset.uid = 0 then 1 else 0) < 2 ^ 128
      split <;> omega
  all_goals decide +kernel

/-- A claim of a repeated election at a node that waits for its ID. -/
theorem witness_HerdElections_again : let s := rs [(Reg.herdStat, 0x10000000)] { hp 4 1 {} with herd := { (hp 4 1 {}).herd with sizeSent := true } }
    let d : List Byte := [2, 1] ++ List.replicate 30 0
    s.Inv ∧ s.herd.elect = none ∧ s.rb Reg.herdStat 28 = true ∧ s.hasId = false ∧ s.herd.sizeSent = true ∧
    better (ofBytesBE ((d.drop 1).take 1)) (ofBytesBE ((d.drop 8).take 16)) s.herd.prio s.uid = true := by decide +kernel

theorem witness_HerdElections_start : ∀ q n, q < 4 → ((hp 3 1 { nbr := some (aNbr 0 false) }).hport q).nbr = some n → n.running = false := by
  have h : ∀ q, q < 4 → ((hp 3 1 { nbr := some (aNbr 0 false) }).hport q).nbr.all (fun n => !n.running) = true := by decide +kernel
  intro q n hq hn
  have := h q hq
  rw [hn] at this
  simpa using this

/-- A transaction of port 1's node, in the state of each clause. -/
def txnSt (e : List TxnEntry) (q : List TgtReq) : State :=
  let a := fl (anOp 5 2 9 []) (hp 4 1 {})
  { a with herd := { a.herd with txns := e, tgtQ := q } }

def aTxn (tries : Nat) (sent : Bool) : TxnEntry := { dest := 9, tag := 7, prio := 0, payload := [], op := some 5, sent := sent, tries := tries, sentAt := 5 }

/-- REQ, REQ_SEND and RESULT on ports in CAL and UP; responses, retries and timeouts; requests of each kind at the target. -/
theorem witness_HerdTimeAndTransactions :
    ((hp 1 0 {}).hlink 1 < 3 ∧ 3 ≤ (hp 4 1 {}).hlink 1 ∧ (hp 4 1 {}).hrole 1 ≠ 4 ∧ (hp 4 4 {}).hrole 1 = 4) ∧
    (((hp 3 0 { reqAt := some 99999999 }).hport 1).reqAt = some 99999999 ∧ (hp 3 0 {}).cyc < 99999999 + usCyc 10 ∧ ((hp 3 0 {}).hport 1).reqAt = none) ∧
    (let s := rs [(Reg.herdStat, 0x10000000)] (hp 4 1 {}); s.rb Reg.herdStat 28 = true ∧ s.rb Reg.herdStat 30 = false ∧
      s.herd.syncAt + usCyc (s.rf Reg.herdSync 13 0) ≤ s.cyc) ∧
    (((hp 3 0 { t1 := some 5, exch := 7 }).hport 1).t1 = some 5 ∧ ofBytesBE ((([2, 0, 0, 7] : List Byte).drop 2).take 2) = 7) ∧
    ((txnSt [aTxn 1 true] []).herd.txns = [aTxn 1 true] ∧ (txnSt [aTxn 1 true] []).op 5 = some (anOp 5 2 9 []) ∧
      ofBytesBE ((([0x81, 0, 0, 0, 0, 0, 0, 7] : List Byte).drop 4).take 4) = 7 ∧ ofBytesBE ((([0x81, 0] : List Byte).drop 0).take 1) % 16 = 1) ∧
    (5 + usCyc ((txnSt [] []).rf Reg.herdTxnCfg 15 0) ≤ (txnSt [] []).cyc ∧ (cyc 6 (txnSt [] [])).cyc < 5 + usCyc ((txnSt [] []).rf Reg.herdTxnCfg 15 0) ∧
      (aTxn 1 true).tries ≤ (txnSt [] []).rf Reg.herdTxnCfg 26 24 ∧ (txnSt [] []).rf Reg.herdTxnCfg 26 24 < (aTxn 9 true).tries ∧ 9 ≠ (txnSt [] []).nodeId) ∧
    (let q : TgtReq := { src := 9, prio := 0, payload := [1, 0, 0, 8] ++ List.replicate 12 0 }
     (txnSt [] [q]).herd.tgtQ = [q] ∧ q.src ≠ (txnSt [] [q]).nodeId ∧ (txnSt [] [q]).txnStored q.src (txnTag q.payload) = none ∧
     (txnSt [] [q]).herd.replay.length < 1024 ∧ (txnSt [] [q]).herdWindow 0 8 false = false ∧ (txnSt [] [q]).rb Reg.herdTxnCfg 29 = false ∧
     (rs [(Reg.herdTxnCfg, 0x10000000)] (txnSt [] [q])).rb Reg.herdTxnCfg 28 = true ∧ (txnSt [] [q]).banksOpen q.signals = true) ∧
    (let q : TgtReq := { src := 9, prio := 0, payload := [3, 0, 0, 1] ++ List.replicate 12 0 ++ [0, 0, 0, 7] }
     let z := txnSt [] [q]
     q.signals = [7] ∧ ({ z with sig := { z.sig with notices := List.replicate 256 ⟨3, 7, 9, 5, false, true⟩ } } : State).banksOpen q.signals = false) ∧
    1024 ≤ ({ (txnSt [] []).herd with replay := List.replicate 1024 ⟨9, 7, [], 5⟩ } : HerdSt).replay.length := by
  refine ⟨?_, ?_, ?_, ?_, ?_, ?_, ?_, ?_, ?_⟩ <;> decide +kernel

/-- HERD TXN to a bad destination, badly formed, without ID, without route, with a full table and accepted; STATUS. -/
theorem witness_HerdTimeAndTransactions_ops : let o (obj : Nat) (p : List Nat) : Op := anOp 5 2 obj p
    let s (o : Op) (stat ivl : Nat) : State := fl o (rs [(Reg.herdStat, stat), (Reg.herdHpIvl 1 0, ivl)] (hp 4 2 {}))
    let one := [1, 0, 8, 0]
    (OpMay (s (o 0 []) 0 0) (o 0 []) 5 2 ∧ OpMay (s (o 9 one) 0 0) (o 9 one) 5 2 ∧ ¬1 ≤ recNat (o 9 [0]).payload 0 1 % 16) ∧
    (bit (recNat (o 9 one).payload 0 1) 7 = false ∧ recNat (o 9 one).payload 0 1 % 16 = 1 ∧ recNat (o 9 one).payload 2 2 = 8 ∧ recNat (o 9 [1]).payload 2 2 = 0) ∧
    ((s (o 9 one) 0 0).hasId = false ∧ (s (o 9 one) 0x80000003 0).hasId = true ∧ 9 ≠ (s (o 9 one) 0x80000003 0).nodeId ∧
      (s (o 9 one) 0x80000003 0).routePort 9 = none ∧ (s (o 9 one) 0x80000003 0x00090009).routePort 9 = some 1 ∧
      (s (o 9 one) 0x80000003 0x00090009).herd.txns.length < 1024) ∧
    (∀ c ∈ [3, 4], OpMay (fl (anOp 5 c 1 []) State.reset) (anOp 5 c 1 []) 5 c) := by
  refine ⟨?_, ?_, ?_, ?_⟩ <;> decide +kernel

/-! ## Plant ports -/

/-- A MAC, a partner session and a CAN controller of the state. -/
def eth0 (x : EthMac) (s : State) : State := { s with port := { s.port with eth := [(0, x)] } }
def psx (y : PsSess) (s : State) : State := cyc 100000000 { s with port := { s.port with ps := [(7, y)] } }

/-- A frame of 64 bytes with its FCS. -/
def ethFrame (dst ty : Nat) : List Byte :=
  let b := bytesBE 6 dst ++ bytesBE 6 0 ++ bytesBE 2 ty ++ List.replicate 46 0
  b ++ bytesLE 4 (crc32 b)

/-- A session's entry: a consumer, and a producer over UDP/IP on MAC 0. -/
def consumer : PsEntry := { role := 2, wdUs := 100, transport := 2 }
def producer : PsEntry := { role := 1, transport := 2, every := 1 }

/-- Tails below and at the length, a datagram on the medium, frames received with each fault and without descriptor. -/
theorem witness_EthernetAndPartnerSessions : let on := rs [(Reg.ethCfgAct 0, 0x80000000)] State.reset
    (State.reset.Inv ∧ (st [(Reg.ethTxqRing 0 3, 16)]).ethLen 0 3 = 16 ∧ 16 ≤ (16 : Word).toNat % 8192 ∧ (5 : Word).toNat % 8192 < 16 ∧
      State.reset.rb (Reg.ethCfgAct 0) 30 = false) ∧
    ((eth0 { busy := some (3, .gram 7 [], []) } State.reset).mac 0).busy = some (3, .gram 7 [], []) ∧
    (let d := ethFrame 0xFFFFFFFFFFFF 0x1234
     on.rb (Reg.ethCfgAct 0) 31 = true ∧ crc32 d.dropLast.dropLast.dropLast.dropLast = ofBytesLE (d.drop (d.length - 4)) ∧ d.length = 64 ∧
     64 ≤ on.ethMax 0 ∧ ofBytesBE ((d.drop 12).take 2) = 0x1234 ∧ ofBytesBE ((d.drop 0).take 6) = 0xFFFFFFFFFFFF ∧
     on.rf Reg.psCfg 15 0 ≠ 0x1234 ∧ on.rb (ethRingReg 0 8) 31 = false) ∧
    (let d := ethFrame 9 0x1234; ofBytesBE ((d.drop 0).take 6) = 9 ∧ on.macAddr 0 ≠ 9 ∧ bit 9 40 = false) ∧
    ofBytesBE (((ethFrame 0xFFFFFFFFFFFF 0x8808).drop 12).take 2) = 0x8808 ∧
    crc32 (List.replicate 60 0) ≠ ofBytesLE [0, 0, 0, 0] := by
  refine ⟨?_, ?_, ?_, ?_, ?_, ?_⟩ <;> decide +kernel

/-- A gate list that goes on and one that begins again; servo writes that step, set an increment and leave its range. -/
theorem witness_EthernetAndPartnerSessions_time :
    (let g := at0 5000 (rs [(Reg.ethGclCtrlAct 0, 0x80000002), (Reg.ethGclCycleAct 0, 2000), (Reg.ethGclAct 0 0, 0x010003E8), (Reg.ethGclAct 0 1, 0x020003E8)] State.reset)
     g.gclOn 0 = true ∧ g.gclSegs 0 = [(1, 1000), (2, 1000)] ∧ (g.gclSegs 0)[0 + 1]? = some (2, 1000) ∧ (g.gclSegs 0)[1 + 1]? = none ∧
     ((eth0 { gclNext := some 0, gclIdx := 0 } g).mac 0).gclNext = some 0 ∧ 0 ≤ g.ethTimeNow 0) ∧
    (let p := st [(Reg.timeTbCtrl 1, 1), (Reg.ethPtpCfg 0, 10)]
     p.rf (Reg.timeTbCtrl 1) 1 0 = 1 ∧ p.rb (Reg.ethPtpSig 0) 31 = false ∧ p.rf (Reg.ethPtpCfg 0) 15 0 * 16 < (sInt 32 (1000 : Word).toNat).natAbs ∧
     p.baseHasGrid 1 = false ∧ ¬p.rf (Reg.ethPtpCfg 0) 15 0 * 16 < (sInt 32 (16 : Word).toNat).natAbs) ∧
    State.reset.rf (Reg.timeTbCtrl 1) 1 0 ≠ 1 ∧
    (let inc (inc0 : Nat) (th : Int) (top : Nat) : Nat :=
       let r := ptpRho th (max (-(top : Nat) : Int) (min (top : Nat) (0 + th))) 0 0
       ((inc0 : Int) + roundMul (r.1 * (inc0 : Int)) 1 (r.2 * 1000000000)).toNat
     0x4FEB851EC ≤ inc 0x500000000 16 16000000 ∧ inc 0x500000000 16 16000000 ≤ 0x50147AE14 ∧ inc 0x4FEB851EC 16 16000000 < 0x4FEB851EC) := by
  refine ⟨?_, ?_, ?_, ?_⟩ <;> decide +kernel

/-- Takes that stop, that build a datagram; sends; datagrams refused, repeated and accepted; a watchdog; and the session's
operations, with the entry read from its table. -/
theorem witness_EthernetAndPartnerSessions_sessions :
    (let y : PsSess := { state := 1, entry := producer, takeAt := some 5, stopping := true }
     ((psx y (at0 9 State.reset)).psess 7) = y ∧ 5 ≤ (psx y (at0 9 State.reset)).baseTime ((psx y State.reset).gridBase producer.grid) ∧ producer.transport = 2) ∧
    (let y : PsSess := { state := 1, entry := producer, takeAt := some 5 }
     y.reload = none ∧ y.startOp = none ∧ y.reloadOp = none ∧ y.entry.redEn = false ∧ y.entry.n = 0 ∧ y.entry.mac = 0 ∧ y.gram = none ∧
     ((psx y State.reset).mac 0).items = []) ∧
    (let y : PsSess := { state := 1, entry := producer, gram := some [1], sendAt := 0 }
     (psx y State.reset).psess 7 = y ∧ 0 ≤ (psx y State.reset).baseTime 0 ∧
     256 ≤ ((eth0 { items := List.replicate 256 (3, .gram 7 []) } (psx y State.reset)).mac 0).items.length) ∧
    (let y : PsSess := { state := 1, entry := consumer, lastSeq := some 6 }
     let d (seq : Nat) : List Byte := bytesBE 2 0 ++ [1, 0] ++ bytesBE 2 0 ++ bytesBE 2 seq
     (psx y State.reset).psess 7 = y ∧ y.entry.role = 2 ∧ ofBytesBE (((d 7).drop 2).take 1) = 1 ∧ ofBytesBE (((d 7).drop 4).take 2) = y.entry.n ∧
     (ofBytesBE (((d 7).drop 6).take 2) + 65536 - 6) % 65536 = 1 ∧ (ofBytesBE (((d 6).drop 6).take 2) + 65536 - 6) % 65536 = 0 ∧
     (ofBytesBE (((d 8).drop 6).take 2) + 65536 - 6) % 65536 = 2 ∧ 0x8000 ≤ (ofBytesBE (((d 5).drop 6).take 2) + 65536 - 6) % 65536) ∧
    (let y : PsSess := { state := 1, entry := consumer, heardAt := 5 }; y.heardAt + usCyc y.entry.wdUs ≤ (psx y State.reset).cyc) := by
  refine ⟨?_, ?_, ?_, ?_, ?_⟩ <;> decide +kernel

theorem witness_EthernetAndPartnerSessions_ops : let o := anOp 6 1 7 []
    let s := fl o (words 0x11C0 [0x0A, 0, 0, 0, 0, 0, 0, 100] (rs [(Reg.psTableBaseLo, 0x1000), (Reg.ethCfgAct 0, 0xC0000000)] State.reset))
    let a := s.rget64 Reg.psTableBaseLo Reg.psTableBaseHi + 64 * 7
    (∀ c ∈ [1, 2, 3, 4], OpMay (fl (anOp 6 c 7 []) s) (anOp 6 c 7 []) 6 c) ∧ (s.psess 7).state = 0 ∧
    (Run.start s).memRead 7 a 64 = (Run.start s, .ok, s.bytes a 64) ∧ s.psAdmit 7 (psEntryOf (s.bytes a 64)) = .ok ∧
    State.reset.psAdmit 7 (psEntryOf (State.reset.bytes 0 64)) ≠ .ok ∧
    (let y : PsSess := { state := 1, entry := producer, reload := some producer }; (psx y s).psess 7 = y ∧ y.reload ≠ none) := by
  refine ⟨by decide +kernel, by decide +kernel, memRead_ok _ ?_ ?_ ?_, by decide +kernel, by decide +kernel, by decide +kernel⟩
  · decide +kernel
  · decide +kernel
  · intro w
    rw [show regionOf _ = .sram by decide +kernel]
    exact fun h => by cases h

/-- CAN controller 1 with object 3 of a kind and state, in a mode and an error state. -/
def can1 (mode err : Nat) (kind state : Nat) (c : CanCtl) : State :=
  rs [(Reg.canCfgAct 1, mode + 16), (Reg.canStat 1, err * 2 ^ 30), (Reg.canObjW0 1 3, kind + 256 * state)]
    { State.reset with port := { State.reset.port with can := [(1, c)] } }

/-- Objects idle, pending and active; ends of a transmission; bus-off and recovery; frames for an empty and a full object. -/
theorem witness_CanControllers :
    (∀ x ∈ [0, 3, 4, 5], (can1 1 0 1 x {}).Inv ∧ (can1 1 0 1 x {}).coKind 1 3 = 1 ∧ (can1 1 0 1 x {}).coState 1 3 = x) ∧
    ((can1 1 0 1 0 {}).canc 1).onBus = false ∧
    (let s := can1 1 0 1 0 { onBus := true }
     (s.canc 1).active = none ∧ (s.canc 1).onBus = true ∧ s.canMode 1 = 1 ∧ s.canErr 1 ≠ 2 ∧ s.commits = [] ∧ s.rb (Reg.canCfgAct 1) 4 = true ∧
     (∀ k, k < 100 → k ≠ 3 → s.coKind 1 k = 1 → s.coState 1 k ≠ 1)) ∧
    (let s := can1 1 0 1 2 { onBus := true, active := some 3 }
     s.coState 1 3 = 2 ∧ (s.canc 1).active = some 3 ∧ s.canOp 1 3 = none ∧ s.canErr 1 = 0 ∧ s.canTec 1 ≤ 127 ∧ s.canRec 1 ≤ 127 ∧
     (s.canc 1).cancelReq = false ∧ s.rb (Reg.canObjW0 1 3) 26 = false ∧ (can1 3 0 1 2 {}).canMode 1 ≠ 1 ∧
     255 < s.canTec 1 + 300 ∧ s.canTec 1 + 300 < 512 ∧ (rs [(Reg.canObjW0 1 3, 0x04000201)] s).rb (Reg.canObjW0 1 3) 26 = true) ∧
    ((can1 1 0 1 1 {}).coState 1 3 = 1 ∧ (can1 1 0 1 1 {}).canOp 1 3 = none) ∧
    (let s := can1 1 2 1 0 { counting := true }; s.canErr 1 = 2 ∧ (s.canc 1).counting = true ∧ (s.canc 1).onBus = false ∧ s.sp.ops = []) ∧
    ((can1 2 0 1 0 {}).canMode 1 = 2 ∧ (can1 3 0 1 0 { onBus := true }).canMode 1 = 3 ∧ ((can1 3 0 1 0 { onBus := true }).canc 1).onBus = true) ∧
    (∀ x ∈ [0, 1], let s := rs [(Reg.canFltMatchAct 1 0, 0x80000123), (Reg.canFltMaskAct 1 0, 0x7FF), (Reg.canFltTgtAct 1 0, 3)] (can1 2 0 2 x { onBus := true })
      s.canMode 1 = 2 ∧ s.canErr 1 ≠ 2 ∧ s.rb (Reg.canCfgAct 1) 4 = true ∧ s.rb (Reg.canFltMatchAct 1 0) 31 = true ∧
      (bits 0x123 29 0 ^^^ s.rf (Reg.canFltMatchAct 1 0) 29 0) &&& s.rf (Reg.canFltMaskAct 1 0) 29 0 = 0 ∧
      s.rf (Reg.canFltTgtAct 1 0) 8 7 = 0 ∧ s.rf (Reg.canFltTgtAct 1 0) 6 0 = 3 ∧ s.coKind 1 3 = 2 ∧ s.rb (Reg.canObjW0 1 3) 28 = false ∧
      s.coState 1 3 = x) := by
  refine ⟨?_, ?_, ?_, ?_, ?_, ?_, ?_, ?_⟩ <;> decide +kernel

/-- Acknowledgements, a candidate whose time is over with and without another, and the CAN operations. -/
theorem witness_CanControllers_ops :
    (let s := can1 2 0 2 1 {}; s.coKind 1 3 = 2 ∧ s.coState 1 3 = 1 ∧ (3 : Word).toNat % 128 = 3 ∧ 100 ≤ (120 : Word).toNat % 128) ∧
    (let s := cyc 10000000 (rs [(Reg.canAbdcfgAct 1, 0x00000201), (Reg.canAbdAct 1 1, 1)] (can1 4 0 0 0 { abdOn := true, abdFrom := 5 }))
     s.canMode 1 = 4 ∧ (s.canc 1).abdOn = true ∧ (s.canc 1).abdFrom + usCyc (s.rf (Reg.canAbdcfgAct 1) 7 0 * 1000) ≤ s.cyc ∧
     s.rf (Reg.canAbdAct 1 1) 4 0 ≠ 0 ∧ s.rf (Reg.canAbdAct 1 2) 4 0 = 0 ∧ ¬s.rf (Reg.canAbdcfgAct 1) 15 8 ≤ 0 + 1 ∧ s.rf (Reg.canAbdcfgAct 1) 15 8 ≤ 1 + 1) ∧
    (∀ c ∈ [2, 3, 4], let o := anOp 9 c 131 []; OpMay (fl o (can1 1 0 1 0 {})) o 9 c ∧ o.obj = 1 * 128 + 3 ∧ bit (recNat o.payload 0 1) 0 = false) ∧
    (let o := anOp 9 5 1 []
     OpMay (fl o (can1 1 2 1 0 {})) o 9 5 ∧ (can1 1 2 1 0 {}).rb (Reg.canCfgAct 1) 7 = false ∧ (can1 0x81 2 1 0 {}).rb (Reg.canCfgAct 1) 7 = true ∧
     (can1 0x81 2 1 0 {}).canErr 1 = 2) := by
  refine ⟨?_, ?_, ?_, ?_⟩ <;> decide +kernel

/-! ## Capture -/

/-- Session 3 in a state, with a ring of 16 slots in DDR, at TB0 time 9. -/
def capt3 (state : Nat) (x : CaptSess) : State :=
  let s := at0 9 (rs [(Reg.captSStat 3, state * 2 ^ 29), (Reg.captSBaseHiAct 3, 1), (Reg.captSSizeAct 3, 16), (Reg.captSPreAct 3, 4), (Reg.captSPostAct 3, 6),
    (Reg.captSHerdAct 3, 0x00640007), (Reg.meshDdrCfg, 0x80000001)] State.reset)
  cyc 1000000 { s with capt := { s.capt with sess := [(3, x)] } }

def aSlot : CaptSlot := ⟨7, 8, 9, 0⟩

/-- Notices for a running and a resting session, with and without room; records to write, refused, the last one; a wrap. -/
theorem witness_CaptureSessions : let note (s : State) : State := { s with sig := { s.sig with notices := [⟨3, 7, 9, 5, false, true⟩] } }
    ((capt3 1 {}).Inv ∧ (note (capt3 0 {})).sig.notices = [⟨3, 7, 9, 5, false, true⟩] ∧ (note (capt3 0 {})).csRuns 3 = false ∧ (capt3 1 {}).csState 3 = 1 ∧
      (capt3 1 {}).csRoom 3 1 = true ∧ ((capt3 1 {}).cs 3).held = false ∧ (capt3 1 { queue := List.replicate 256 aSlot }).csRoom 3 1 = false) ∧
    (let s := capt3 3 { queue := [aSlot], postLeft := some 1, trigAt := some (5, 4) }
     let a := s.rget64 (Reg.captSBaseLoAct 3) (Reg.captSBaseHiAct 3) + 12 * s.rf (Reg.captSWr 3) 27 0
     (s.cs 3).queue = [aSlot] ∧ s.csFull 3 = false ∧ s.memStatus 4 a 12 true = .ok ∧ regionOf a = .ddr ∧ s.eccIn a 12 = [] ∧ s.csStream 3 = false ∧
     (s.cs 3).held = false ∧ (s.cs 3).startOp = none ∧ aSlot.mark = 0 ∧ (s.cs 3).postLeft = some 1 ∧ (s.cs 3).trigAt = some (5, 4) ∧ (s.cs 3).lost = false ∧
     (rs [(Reg.meshDdrCfg, 0)] s).memStatus 4 a 12 true ≠ .ok) ∧
    (let s := at0 (2 ^ 32) (capt3 1 {}); s.now / 2 ^ 32 ≠ s.capt.epoch ∧ (∀ k, k < 16 → k ≠ 3 → s.csRuns k = false) ∧ s.csRoom 3 2 = true) ∧
    ((capt3 1 {}).csSize 3 ≤ (16 : Word).toNat % 2 ^ 28 ∧ (5 : Word).toNat % 2 ^ 28 < (capt3 1 {}).csSize 3) ∧
    (let w : CaptWin := { key := 0, since := 5, units := [(4, 77, true)] }
     let s := capt3 2 { wins := [w] }
     (s.cs 3).wins = [w] ∧ w.since + usCyc 1 ≤ s.cyc ∧ s.csState 3 = 2 ∧ (s.cs 3).placed = false ∧ (s.cs 3).primary = none ∧ (s.cs 3).held = false ∧
     s.csRoom 3 4 = true ∧ s.csStream 3 = false ∧ s.rb (Reg.captSCfgAct 3) 29 = false ∧ (capt3 1 { wins := [w] }).csState 3 ≠ 2) := by
  refine ⟨?_, ?_, ?_, ?_, ?_⟩ <;> decide +kernel

/-- The CAPT operations in each state; START without and with a list of one signal, of a bad and an undefined one. -/
theorem witness_CaptureSessions_ops : let o (c : Nat) : Op := anOp 4 c 3 [0, 0, 0, 0]
    (∀ c ∈ [2, 3, 4, 5, 6, 7], OpMay (fl (o c) (capt3 1 {})) (o c) 4 c ∧ recNat (o c).payload 2 2 = 0) ∧ 64 < recNat (anOp 4 3 3 [0, 0, 65, 0]).payload 2 2 ∧
    ((capt3 0 {}).csRingOk 3 = true ∧ (rs [(Reg.meshDdrCfg, 0)] (capt3 0 {})).csRingOk 3 = false ∧ 2 ≤ (capt3 0 {}).csSize 3 ∧
      (capt3 0 {}).rf (Reg.captSCfgAct 3) 12 0 = 0) ∧
    (let l := rs [(Reg.captSCfgAct 3, 1), (Reg.captSListLoAct 3, 0x1000)] (capt3 0 {})
     l.rf (Reg.captSCfgAct 3) 12 0 = 1 ∧ l.memStatus 4 (l.rget64 (Reg.captSListLoAct 3) (Reg.captSListHiAct 3)) 4 false = .ok ∧ l.ecc = [] ∧
     recNat ((words 0x1000 [7] l).bytes 0x1000 4) 0 4 = 7 ∧ 0x3FFFF < recNat ((words 0x1000 [0x40000] l).bytes 0x1000 4) 0 4 ∧
     ((sigs [(7, aSig)] l).sigRec 7).defined = true ∧ (l.sigRec 7).defined = false ∧ RecClean (sigs [(7, aSig)] l) 7) ∧
    (let p : Op := { anOp 4 2 3 [] with id := 4, acted := true }
     let b : State := { capt3 1 { startOp := some 4 } with sp := { (capt3 1 {}).sp with ops := [p, o 6], nextOp := 6 } }
     OpMay b (o 6) 4 6 ∧ b.csState 3 = 1 ∧ (b.cs 3).startOp = some p.id ∧ b.op p.id = some p ∧ p.out = none ∧ p.id ≠ (o 6).id) ∧
    (let u := rs [(Reg.captTrCfgAct 4, 0x83100000), (Reg.captTrSigAct 4, 7)] (capt3 1 {})
     4 ∈ u.unitsOf 3 ∧ u.rf (Reg.captTrCfgAct 4) 23 20 = 1 ∧ u.rf (Reg.captTrSigAct 4) 17 0 ∉ (u.cs 3).list) ∧
    (∀ u, u ∉ (capt3 1 {}).unitsOf 3) ∧ (capt3 3 {}).csState 3 = 3 ∧ (capt3 2 {}).now < 2 ^ 64 := by
  have h : (capt3 1 {}).unitsOf 3 = [] := by decide +kernel
  refine ⟨?_, ?_, ?_, ?_, ?_, ?_, fun u => by rw [h]; exact List.not_mem_nil, ?_, ?_⟩ <;> decide +kernel

theorem witness_CaptureSessions_list : let l := words 0x1000 [7] (rs [(Reg.captSListLoAct 3, 0x1000)] (capt3 0 {}))
    (Run.start l).memRead 4 (l.rget64 (Reg.captSListLoAct 3) (Reg.captSListHiAct 3)) 4 =
      (Run.start l, .ok, l.bytes (l.rget64 (Reg.captSListLoAct 3) (Reg.captSListHiAct 3)) 4) := by
  refine memRead_ok _ (by decide +kernel) (by decide +kernel) fun w => ?_
  rw [show regionOf _ = .sram by decide +kernel]
  exact fun h => by cases h

/-- ARM and DISARM for a session of the tag, in each state and for none; a repeat; answers; FIRE. -/
theorem witness_ArmingAcrossTheHerd : let d : List Byte := [1, 0] ++ bytesBE 2 7 ++ bytesBE 4 0x00090001 ++ bytesBE 8 5 ++ bytesBE 2 0 ++ bytesBE 10 0 ++ bytesBE 4 77
    let s (state armno : Nat) (x : CaptSess) : State := rs [(Reg.captSCfgAct 3, 0x20000000), (Reg.captSArmno 3, armno)] (capt3 state x)
    (∀ x ∈ [0, 1, 2, 3], (s x 0 {}).Inv ∧ (s x 0 {}).csState 3 = x ∧ (s x 0 {}).rb (Reg.captSCfgAct 3) 29 = true ∧
      (s x 0 {}).rf (Reg.captSHerdAct 3) 15 0 = ofBytesBE ((d.drop 2).take 2) ∧ ∀ k, k < 3 → (s x 0 {}).rb (Reg.captSCfgAct k) 29 = false) ∧
    ((∀ x ∈ (s 1 0 {}).herd.replay, ¬(x.src = 9 ∧ x.tag = ofBytesBE ((d.drop 28).take 4))) ∧ (s 1 0 {}).herd.replay.length < 1024 ∧
      (∀ n, n < 16 → State.reset.rb (Reg.captSCfgAct n) 29 = false)) ∧
    ((⟨9, 77, [], 0⟩ : Replay).tag = ofBytesBE ((d.drop 28).take 4)) ∧
    (((s 2 0x00090001 {}).rget (Reg.captSArmno 3)).toNat = ofBytesBE ((d.drop 4).take 4) ∧ ((s 2 5 {}).rget (Reg.captSArmno 3)).toNat ≠ 0x00090001) ∧
    (let e : TxnEntry := { dest := 9, tag := 77, prio := 0, payload := [], cls := 7, sess := 3 }
     let a := fl (anOp 4 3 3 []) (s 2 0 { answers := [none], waitOp := some 5 })
     e.tag = ofBytesBE ((d.drop 28).take 4) ∧ e.pos = 0 ∧ (a.cs e.sess).answers = [none] ∧ (a.cs e.sess).waitOp = some 5 ∧ a.op 5 = some (anOp 4 3 3 [])) ∧
    (let f := s 3 0x00090001 { placed := true, primary := some { t := 3, src := 0 } }
     (∀ k, k < 3 → f.csState k = 0) ∧ f.csState 3 = 3 ∧ f.csStream 3 = false ∧ (f.cs 3).placed = true ∧ (f.cs 3).primary = some { t := 3, src := 0 } ∧
     3 < ofBytesBE ((d.drop 8).take 8) * 2 ^ 16 + ofBytesBE ((d.drop 16).take 2) ∧ (f.cs 3).held = false ∧ f.csRoom 3 2 = true ∧
     ∀ n, n < 16 → State.reset.csState n ≠ 2 ∧ State.reset.csState n ≠ 3) := by
  refine ⟨?_, ?_, ?_, ?_, ?_, ?_⟩ <;> decide +kernel


/-! ## Chamois -/

/-- The words of a staged set that keeps every range: input 0 is a RESET input. -/
def goodSet : List (Nat × Nat) :=
  [(0, 0x53465331), (1, 0xD440001), (2, 125), (3, 0x10000), (16, 3)] ++ (List.range 16).map (fun k => (17 + 2 * k, 1))
    ++ (List.range 48).flatMap (fun n => [(0x71 + 12 * n, 1), (0x72 + 12 * n, 100), (0x74 + 12 * n, 0x3F800000), (0x78 + 12 * n, 100),
      (0x79 + 12 * n, 0x01080000)]) ++ (List.range 8).map (fun k => (0x2B1 + 4 * k, 100)) ++ [(848, 0x0E68EEA7)]

def staged (l : List (Nat × Nat)) (s : State) : State := rs (l.map fun e => (Reg.chmSps e.1, e.2)) s

/-- Chamois in a state, with a valid set in use: axis 0 and output 0 with off-pulses, connection 0 of a role. -/
def chm (role : Nat) (x : ChmSt) : State :=
  let s := rs [(Reg.chmStat, 0x80000000), (Reg.chmSpsAct 2, 0x03E80000 + 125), (Reg.chmSpsAct 3, 0x00010000 + 1000), (Reg.chmSpsAct 0x70, 0x00040001),
    (Reg.chmSpsAct 0x2B0, 0x00020001), (Reg.chmSpsAct 0x2D0, 0x00090000 + 0x100 + role), (Reg.chmSoStat, 1), (Reg.bhrStat, 0x80000000)] State.reset
  { s with chm := x, cyc := 1600000000, pwr := { s.pwr with por := false } }

def chmOn : State := chm 2 { on := true, torque := 1, cycAt := 0 }

def aSample (k : Nat) : SafeSample :=
  { subs := [], stoA := 0, stoB := 0, soA := 0, soB := 0, fbA := 0, fbB := 0, stofbA := 0, stofbB := 0, internal := k }

/-- On and off, with and without an internal fault; each side of the frequency window; a heartbeat missed and not. -/
theorem witness_ChamoisSafety : let s := chmOn
    let n := chm 2 { }
    let f := rs [(Reg.chmStat, 0xC0000000)] s
    (s.Inv ∧ n.Inv ∧ f.Inv ∧ s.chm.on = true ∧ n.chm.on = false ∧ s.chm.load = none ∧ s.chmInternal = false ∧ f.chmInternal = true) ∧
    ((aSample 0).internal < 0x20 ∧ 0x27 < (aSample 0x28).internal ∧ 0x20 ≤ (aSample 0x20).internal ∧ (aSample 0x27).internal ≤ 0x27) ∧
    (s.spsAx 0 0 1 = 1 ∧ (rs [(Reg.chmGrp, 1)] s).inDemand (s.spsAx 0 1 1) = true ∧ (0 < 48 ∧ 47 < 48) ∧ s.spsOut 0 0 1 = 1) ∧
    (47499999 < 47500000 ∧ 52500000 < 52500001 ∧ ¬ max 1990 2000 < (max 1990 2000 - min 1990 2000) * 200 ∧
      max 1989 2000 < (max 1989 2000 - min 1989 2000) * 200) ∧
    (s.rb Reg.chmStat 29 = false ∧ usCyc 100000 ≤ s.cyc - s.chm.hbAt ∧ ¬ usCyc 100000 ≤ s.cyc - (chm 2 { on := true, hbAt := 1600000000 }).chm.hbAt) ∧
    (f.chmInternal = true ∧ f.node ≠ .safeHold ∧ f.inReset = false ∧
      (rs [(Reg.bhrStat, 0xC0000000)] s).node = .safeHold ∧ State.reset.inReset = true) := by
  refine ⟨?_, ?_, ?_, ?_, ?_, ?_⟩ <;> decide +kernel

/-- An off-pulse that is due and not, of an axis and an output, with a fault of its kind and without. -/
theorem witness_ChamoisSafety_pulses : let s := chmOn
    let test := s.sps 14 2 * 1000000
    let due (mine other : Option Nat) : Prop := (∀ p, mine = some p → p + test ≤ s.chmNow) ∧ (∀ p, other = some p → p + test / 2 ≤ s.chmNow)
    let d := chm 2 { on := true, axes := [(0, { lock := { faults := 32 }, pulseA := some 1500000 })], outs := [(0, { lock := { faults := 8 }, pulseB := some 1500000 })] }
    (s.spsValid = true ∧ bit (s.spsOut 0 2 1) 1 = true ∧ s.sps 12 2 ≠ 0 ∧ s.rb Reg.chmSoStat 0 = true ∧ due none none ∧ due (some 1000000) (some 1500000)) ∧
    (bit (s.spsAx 0 2 1) 2 = true ∧ s.sps 10 2 ≠ 0 ∧ bit s.chm.torque 0 = true) ∧
    (bit (s.chmOut 0).lock.faults 3 = false ∧ bit (s.chmAx 0).lock.faults 5 = false ∧ bit (d.chmOut 0).lock.faults 3 = true ∧
      bit (d.chmAx 0).lock.faults 5 = true) ∧
    ¬ due (some 1500000) none ∧ ¬ due none (some 1500001) := by
  intro s test
  have e : s.chmNow = 2000000 := by decide +kernel
  have e' : test = 1000000 := by decide +kernel
  refine ⟨⟨?_, ?_, ?_, ?_, ⟨?_, ?_⟩, ⟨?_, ?_⟩⟩, ⟨?_, ?_, ?_⟩, ⟨?_, ?_, ?_, ?_⟩, ?_, ?_⟩
  any_goals decide +kernel

/-- Connections: one in time, one late; DELIVER with room and without, FETCH with an SPDU and without, of each role; STATUS. -/
theorem witness_ChamoisSafety_connections : let x (c : ChmConn) : State := chm 2 { on := true, conns := [(0, { c with valid := true, lastAt := 1000000 })] }
    let y (role : Nat) (c : ChmConn) : State := chm role { on := true, conns := [(0, c)] }
    let o (c : Nat) : Op := anOp 11 c 0 []
    let peer (s : State) (role : Nat) : Prop := s.spsValid = true ∧ s.spsConn 0 0 1 = role ∧ s.spsConn 0 1 1 ≠ 0
    (((x {}).chmConn 0).valid = true ∧ (x {}).spsConn 0 16 4 < (x {}).chmNow - ((x {}).chmConn 0).lastAt) ∧
    (¬ (rs [(Reg.chmSpsAct 0x2D4, 1000000)] (x {})).spsConn 0 16 4 < (x {}).chmNow - 1000000) ∧
    (∀ c ∈ [2, 3, 4], OpMay (fl (o c) chmOn) (o c) 11 c ∧ (o c).obj = 0) ∧ (peer (y 2 {}) 2 ∧ peer (y 1 {}) 1 ∧ ¬ peer (y 1 {}) 2 ∧ ¬ peer (y 2 {}) 1) ∧
    (4 ≤ ((y 2 { waiting := List.replicate 4 ([], none) }).chmConn 0).waiting.length ∧
      ((y 2 { waiting := List.replicate 3 ([], none) }).chmConn 0).waiting.length < 4) ∧
    (((y 1 {}).chmConn 0).spdu = none ∧ ((y 1 { spdu := some [1] }).chmConn 0).spdu = some [1]) ∧
    (chmOn.spsConn 0 12 4 = 0 ∧ (chmOn.chmConn 0).lastSeq = none ∧ ((y 2 { lastSeq := some 5 }).chmConn 0).lastSeq = some 5 ∧
      (let k := (5 + 2 ^ 31 - 1 + 2 ^ 32 - 5) % 2 ^ 32; 0 < k ∧ k < 2 ^ 31) ∧ ¬ ((5 + 2 ^ 31 + 2 ^ 32 - 5) % 2 ^ 32) < 2 ^ 31) := by
  refine ⟨?_, ?_, ?_, ?_, ?_, ?_, ?_⟩ <;> decide +kernel

/-! A staged set of parameters, as one number, so that the kernel reads it byte by byte. -/

/-- A function of a number that is evaluated first. -/
def forced {α : Type} (n : Nat) (f : Nat → α) : α := match n with | 0 => f 0 | k + 1 => f (k + 1)

theorem forced_eq {α : Type} (n : Nat) (f : Nat → α) : forced n f = f n := by cases n <;> rfl

/-- One bit, and one byte, of `crcR` on evaluated numbers. -/
def bitN {α : Type} (poly c : Nat) (f : Nat → α) : α := forced (Nat.xor (Nat.div c 2) (Nat.mul (Nat.mod c 2) poly)) f
def byteN {α : Type} (poly c : Nat) (f : Nat → α) : α :=
  bitN poly c fun c => bitN poly c fun c => bitN poly c fun c => bitN poly c fun c => bitN poly c fun c => bitN poly c fun c =>
    bitN poly c fun c => bitN poly c f

/-- `crcRight` over the low bytes of a number, each step evaluated before the next. -/
def crcN (poly : Nat) : Nat → Nat → Nat → Nat
  | 0, c, _ => c
  | n + 1, c, v => byteN poly (Nat.xor c (Nat.mod v 256)) fun c => forced (Nat.div v 256) fun v => crcN poly n c v

theorem bitN_eq {α : Type} (poly c : Nat) (f : Nat → α) : bitN poly c f = f (crcR poly 1 c) := by
  rw [bitN, forced_eq]
  congr 1
  show c / 2 ^^^ c % 2 * poly = if bit c 0 then c / 2 ^^^ poly else c / 2
  rw [bit_testBit, Nat.testBit_zero]
  rcases Nat.mod_two_eq_zero_or_one c with h | h <;> simp [h]

theorem crcR_add (poly a b : Nat) : ∀ c, crcR poly (a + b) c = crcR poly b (crcR poly a c) := by
  induction a with
  | zero => intro c; rw [Nat.zero_add, crcR]
  | succ a ih => intro c; rw [Nat.succ_add, crcR, crcR, ih]

theorem byteN_eq {α : Type} (poly c : Nat) (f : Nat → α) : byteN poly c f = f (crcR poly 8 c) := by
  simp only [byteN, bitN_eq, ← crcR_add]

theorem crcN_succ (poly n c v : Nat) : crcN poly (n + 1) c v = crcN poly n (crcR poly 8 (Nat.xor c (Nat.mod v 256))) (Nat.div v 256) := by
  rw [crcN, byteN_eq, forced_eq]

theorem ofNat8 (v : Nat) : (BitVec.ofNat 8 v).toNat = v % 256 := rfl

theorem crcN_eq (poly n : Nat) : ∀ c v, crcRight poly c (bytesLE n v) = crcN poly n c v := by
  induction n with
  | zero => exact fun _ _ => rfl
  | succ n ih =>
    intro c v
    rw [crcN_succ, bytesLE, crcRight, List.foldl_cons, ← crcRight, ih, crcRByte, ofNat8]
    rfl

theorem recNat_bytesLE (k : Nat) : ∀ v off n, v < 256 ^ k → recNat (bytesLE k v) off n = v >>> (8 * off) % 256 ^ n := by
  induction k with
  | zero => 
    intro v off n h
    have : v = 0 := by simpa using h
    subst this; simp [bytesLE, recNat, ofBytesLE]
  | succ k ih =>
    intro v off n h
    have h2 : v / 256 < 256 ^ k := by rw [Nat.div_lt_iff_lt_mul (by decide)]; simpa [Nat.pow_succ] using h
    cases off with
    | zero =>
      cases n with
      | zero => simp [recNat, ofBytesLE, Nat.mod_one]
      | succ n =>
        have := ih (v / 256) 0 n h2
        simp only [recNat, List.drop_zero, Nat.mul_zero, Nat.shiftRight_zero] at this ⊢
        simp only [bytesLE, List.take_succ_cons, ofBytesLE, this]
        rw [Nat.pow_succ', Nat.mod_mul]
        rfl
    | succ off =>
      have := ih (v / 256) off n h2
      simp only [recNat, bytesLE, List.drop_succ_cons] at this ⊢
      rw [this, show 8 * (off + 1) = 8 + 8 * off by omega, Nat.shiftRight_add, Nat.shiftRight_eq_div_pow v]

theorem findFam_append (off : Nat) (l m : List Fam) (h : ∀ f ∈ l, f.index off = none) : findFam off (l ++ m) = findFam off m := by
  induction l with
  | nil => rfl
  | cons f t ih => rw [List.cons_append, findFam, h f (.head _), ih fun g hg => h g (.tail _ hg)]

theorem blk_sps (i : Nat) (h : i < 849) : findBlk (Reg.chmSps i) blocks = some ⟨0x4180000, 1, 0x0, 0x10000, famsChm⟩ := by
  unfold blocks Reg.chmSps
  iterate 16 rw [findBlk, if_neg (by dsimp only; omega)]
  rw [findBlk, if_pos (by dsimp only; omega)]

def famSps : Fam := ⟨0x1000, 849, 0x4, 1, 0x0, .val 0x0, .none, [⟨31, 0, .rw, .any⟩]⟩

theorem fam_before (off : Nat) (h : 0x1000 ≤ off) : ∀ f ∈ famsChm.take 25, f.index off = none := by
  intro f hf
  have hb : f.off + f.n * f.st + 4 ≤ 0x1000 ∧ 0 < f.n ∧ (1 < f.n → 0 < f.st) := by revert f; decide
  unfold Fam.index
  rw [if_neg (by omega)]
  by_cases h1 : f.n ≤ 1
  · simp only [if_pos h1]
    rw [if_neg (by omega)]
  · simp only [if_neg h1]
    rw [if_pos]
    have := hb.2.2 (by omega)
    rw [Nat.div_lt_iff_lt_mul this]
    omega

theorem fam_sps (i off : Nat) (h : i < 849) (h0 : 0x1000 ≤ off) (hi : (off - 0x1000) / 4 = i) (he : (off - 0x1000) % 4 = 0) :
    findFam off famsChm = some (famSps, i, 0) := by
  have hx : famSps.index off = some (i, 0) := by
    have e1 : (off - famSps.off) / famSps.st = i := hi
    have e2 : (off - famSps.off) % famSps.st = 0 := he
    have e3 : ¬ off < famSps.off := Nat.not_lt.mpr h0
    have e4 : i < famSps.n := h
    unfold Fam.index
    rw [if_neg e3, if_neg (by decide)]
    dsimp only
    rw [e1, e2, if_neg (not_not.mpr e4), if_pos (by decide), if_pos rfl]
  rw [show famsChm = famsChm.take 25 ++ famSps :: famsChm.drop 26 from rfl, findFam_append _ _ _ (fam_before off h0), findFam, hx]

theorem mask_of (a off i : Nat) (b : Blk) (hb : findBlk a blocks = some b) (hn : b.n = 1) (ho : a - b.base = off)
    (hf : findFam off b.fams = some (famSps, i, 0)) : implMask a = 0xFFFFFFFF := by
  have hr : regAt a = some ⟨b.base, 0, famSps, i, 0⟩ := by
    have hs : b.split a = (0, off) := by rw [Blk.split, if_pos (Nat.le_of_eq hn), ho]
    unfold regAt
    rw [hb]
    dsimp only
    rw [hs]
    dsimp only
    rw [hf, if_neg (by rw [hn]; decide)]
  unfold implMask
  rw [hr]
  rfl

theorem mask_sps (i : Nat) (h : i < 849) : implMask (Reg.chmSps i) = 0xFFFFFFFF := by
  have hb := blk_sps i h
  generalize ha : Reg.chmSps i = a at hb ⊢
  unfold Reg.chmSps at ha
  obtain ⟨off, ho⟩ : ∃ off, off = a - 0x4180000 := ⟨_, rfl⟩
  exact mask_of a off i _ hb rfl ho.symm (fam_sps i off h (by omega) (by omega) (by omega))
theorem take_bytesLE (a b : Nat) : ∀ v, (bytesLE (a + b) v).take a = bytesLE a v := by
  induction a with
  | zero => intro v; rfl
  | succ a ih => intro v; rw [Nat.succ_add]; simp only [bytesLE, List.take_succ_cons, ih]

theorem flatMap_bytesLE (k : Nat) : ∀ n v, ((List.range n).flatMap fun w => bytesLE k (v >>> (8 * k * w) % 256 ^ k)) = bytesLE (k * n) v := by
  have cut : ∀ m v, bytesLE k (v % 256 ^ k) ++ bytesLE m (v / 256 ^ k) = bytesLE (k + m) v := by
    induction k with
    | zero => intro m v; simp [bytesLE]
    | succ k ih =>
      intro m v
      rw [Nat.succ_add, bytesLE, bytesLE, List.cons_append, ← ih m (v / 256), Nat.pow_succ', Nat.mod_mul_right_div_self, Nat.div_div_eq_div_mul]
      congr 1
      apply BitVec.eq_of_toNat_eq
      simp only [ofNat8, Nat.mod_mul_right_mod]
  intro n
  induction n with
  | zero => intro v; simp [bytesLE]
  | succ n ih =>
    intro v
    rw [List.range_succ_eq_map, List.flatMap_cons, List.flatMap_map, Nat.mul_succ, Nat.add_comm, ← cut, ← ih]
    congr 1
    congr 1; funext w
    rw [show 256 ^ k = 2 ^ (8 * k) by rw [Nat.pow_mul], Nat.mul_succ, Nat.add_comm (8 * k * w), Nat.shiftRight_add, Nat.shiftRight_eq_div_pow v]

/-- A state whose staged set spells a number. -/
def holding (n v : Nat) (s : State) : State := rs ((List.range n).map fun i => (Reg.chmSps i, v >>> (32 * i) % 2 ^ 32)) s

theorem holding_succ (n v : Nat) (s : State) : holding (n + 1) v s = { holding n v s with
    regs := tset (resetOf (Reg.chmSps n)) (Reg.chmSps n) (BitVec.ofNat 32 (v >>> (32 * n) % 2 ^ 32) &&& implMask (Reg.chmSps n)) (holding n v s).regs } := by
  simp only [holding, rs, List.range_succ, List.map_append, List.foldl_append, List.map_cons, List.map_nil, List.foldl_cons, List.foldl_nil]

theorem holding_rget (v : Nat) (s : State) : ∀ n a, (∀ i, i < n → a ≠ Reg.chmSps i) → (holding n v s).rget a = s.rget a := by
  intro n
  induction n with
  | zero => intro a _; rfl
  | succ n ih =>
    intro a h
    rw [holding_succ, ← ih a fun i hi => h i (by omega)]
    exact tget_tset_ne _ _ (h n (by omega)) _ _

theorem holding_sps (v : Nat) (s : State) : ∀ n i, i < n → n ≤ 849 →
    ((holding n v s).rget (Reg.chmSps i)).toNat = v >>> (32 * i) % 2 ^ 32 := by
  intro n
  induction n with
  | zero => intro i h; omega
  | succ n ih =>
    intro i h hn
    rw [holding_succ]
    rcases Nat.lt_succ_iff_lt_or_eq.mp h with h | rfl
    · rw [← ih i h (by omega)]
      exact congrArg BitVec.toNat (tget_tset_ne _ _ (by unfold Reg.chmSps; omega) _ _)
    · have e : ({ holding i v s with regs := tset (resetOf (Reg.chmSps i)) (Reg.chmSps i) (BitVec.ofNat 32 (v >>> (32 * i) % 2 ^ 32) &&& implMask (Reg.chmSps i)) (holding i v s).regs } : State).rget (Reg.chmSps i) = BitVec.ofNat 32 (v >>> (32 * i) % 2 ^ 32) &&& implMask (Reg.chmSps i) := tget_tset_same _ _ _ _
      rw [e, mask_sps i (by omega), show (0xFFFFFFFF : Word) = BitVec.allOnes 32 from rfl, BitVec.and_allOnes, BitVec.toNat_ofNat, Nat.mod_mod]

/-- Two sets as numbers, one with every byte in range and one of zeros with its CRC, and the states that hold a set staged. -/
def goodNum : Nat := goodSet.foldl (fun n e => n + e.2 * 2 ^ (32 * e.1)) 0
def zeroNum : Nat := 0xaa68b911 * 2 ^ (32 * 848)
def withSet (v crc : Nat) : State := holding 849 v (rs [(Reg.chmSpsCrc, crc)] chmOn)

theorem withSet_staged (v crc : Nat) : (withSet v crc).staged = bytesLE 3396 v := by
  rw [show 3396 = 4 * 849 from rfl, ← flatMap_bytesLE 4 849, State.staged]
  refine List.flatMap_congr fun w hw => ?_
  rw [withSet, holding_sps _ _ 849 w (List.mem_range.mp hw) (Nat.le_refl _), show 8 * 4 * w = 32 * w from rfl, show 256 ^ 4 = 2 ^ 32 from rfl]

theorem withSet_crc (v crc : Nat) : spsCrc (withSet v crc).staged = crcN 0x82F63B78 0xD40 0xFFFFFFFF v ^^^ 0xFFFFFFFF := by
  rw [spsCrc, withSet_staged, show 3396 = 0xD40 + 4 from rfl, take_bytesLE, crc32c, crcN_eq]

theorem recNat_withSet (v crc : Nat) (h : v < 256 ^ 3396) : recNat (withSet v crc).staged = fun off n => v >>> (8 * off) % 256 ^ n := by
  funext off n
  rw [withSet_staged, recNat_bytesLE _ _ _ _ h]

theorem goodNum_crc : crcN 0x82F63B78 0xD40 0xFFFFFFFF goodNum ^^^ 0xFFFFFFFF = 0x0E68EEA7 := by decide +kernel
theorem zeroNum_crc : crcN 0x82F63B78 0xD40 0xFFFFFFFF zeroNum ^^^ 0xFFFFFFFF = 0xaa68b911 := by decide +kernel

theorem holding_chm (v : Nat) (s : State) : ∀ n, (holding n v s).chm = s.chm := by
  intro n
  induction n with
  | zero => rfl
  | succ n ih => rw [holding_succ]; exact ih

theorem holding_inv (v : Nat) (s : State) (h : s.Inv) : ∀ n, (holding n v s).Inv := by
  intro n
  induction n with
  | zero => exact h
  | succ n ih =>
    rw [holding_succ]
    refine ⟨ih.1, twf_tset ih.2.1, fun e he => ?_⟩
    simp only [tset] at he
    split at he
    · exact ih.2.2 e (List.mem_of_mem_filter he)
    · rcases mem_tput he with rfl | he
      · ext i; simp
      · exact ih.2.2 e he

theorem withSet_far (v crc a : Nat) (h : a < 0x4181000 ∨ 0x4182000 ≤ a) : (withSet v crc).rget a = (rs [(Reg.chmSpsCrc, crc)] chmOn).rget a :=
  holding_rget _ _ _ _ fun i _ => by unfold Reg.chmSps; omega

/-- A staged set asked for outside TEST, while a load is pending, with another CRC, with a byte out of range, and good. -/
theorem witness_ChamoisSafety_set : let o : Op := anOp 11 1 0 [0xA7, 0xEE, 0x68, 0x0E]
    let fits (s : State) (crc : Nat) : Prop := spsCrc s.staged = recNat s.staged 0xD40 4 ∧ spsCrc s.staged = crc
    let good := withSet goodNum 0x0E68EEA7
    let zero := withSet zeroNum 0xaa68b911
    (good.Inv ∧ good.node = .test ∧ good.chm.load = none ∧ fits good (good.rget Reg.chmSpsCrc).toNat ∧ spsRange good.staged = none) ∧
    (zero.Inv ∧ zero.node = .test ∧ zero.chm.load = none ∧ fits zero (zero.rget Reg.chmSpsCrc).toNat ∧ spsRange zero.staged = some 0) ∧
    ¬ fits good 5 ∧ fits good (recNat o.payload 0 4) ∧ OpMay (fl o chmOn) o 11 1 ∧ State.reset.node ≠ .test ∧
    (chm 2 { on := true, load := some none }).chm.load ≠ none := by
  have node : ∀ v crc, (rs [(Reg.chmSpsCrc, crc)] chmOn).node = (withSet v crc).node := fun v crc => by
    rw [State.node, State.node, State.rf, State.rf, withSet_far _ _ _ (by decide)]
  have rec1 := recNat_withSet goodNum 0x0E68EEA7 (by decide +kernel)
  have rec2 := recNat_withSet zeroNum 0xaa68b911 (by decide +kernel)
  refine ⟨⟨holding_inv _ _ (by decide +kernel) _, ?_, ?_, ⟨?_, ?_⟩, ?_⟩, ⟨holding_inv _ _ (by decide +kernel) _, ?_, ?_, ⟨?_, ?_⟩, ?_⟩,
    ?_, ⟨?_, ?_⟩, ?_, ?_, ?_⟩
  · rw [← node]; decide +kernel
  · rw [withSet, holding_chm]; decide +kernel
  · rw [withSet_crc, goodNum_crc, rec1]; decide +kernel
  · rw [withSet_crc, goodNum_crc, withSet_far _ _ _ (by decide)]; decide +kernel
  · rw [spsRange, rec1]; decide +kernel
  · rw [← node]; decide +kernel
  · rw [withSet, holding_chm]; decide +kernel
  · rw [withSet_crc, zeroNum_crc, rec2]; decide +kernel
  · rw [withSet_crc, zeroNum_crc, withSet_far _ _ _ (by decide)]; decide +kernel
  · rw [spsRange, rec2]; decide +kernel
  · exact fun h => absurd ((withSet_crc _ _).symm.trans h.2) (by rw [goodNum_crc]; decide)
  · rw [withSet_crc, goodNum_crc, rec1]; decide +kernel
  · rw [withSet_crc, goodNum_crc]; decide +kernel
  all_goals decide +kernel

/-! ## Redundancy -/

/-- Member 1 of two in a role for duty 0, in cycle 10, with member 0 heard in a cycle; the group's kind is HOT or as said. -/
def redS (role : Nat) (x : RedRun) (t : RedSt) (more : List (Nat × Nat) := []) : State :=
  let s := rs ([(Reg.redStat, 0x81000000 + role), (Reg.redCfgAct, 0x08200055), (Reg.redMemberAct 0, 9), (Reg.redMemberAct 1, 4),
    (Reg.redCfg2Act, 0x01000100), (Reg.herdCycAct, 0x80000000), (Reg.redDEpoch 0, 8), (Reg.bhrStat, 0x60000000), (Reg.redDiagAct, 1)] ++ more) State.reset
  let s := { s with time := { s.time with grids := [(0, { running := true, idx := 10 })] } }
  cyc (3600 * 800000000) { s with red := { t with duties := [{ home := 1, flow := 0x90, ctxMask := 6 }], runs := [(0, x)] } }

def fresh0 : RedSt := { healthAt := [(0, some 8)] }

def redBytes (flow kind d n e w cycle : Nat) : List Byte :=
  bytesBE 2 flow ++ bytesBE 2 0x55 ++ bytesBE 1 (16 * kind) ++ bytesBE 1 d ++ bytesBE 2 n ++ bytesBE 4 e ++ bytesBE 4 w ++ bytesBE 8 cycle

/-- Frames to take and not; frames of the group: health, state of an ACTIVE and of a JOINING and STANDBY member, newer and stale. -/
theorem witness_RedundantGroup : let s := redS 4 { mine := 1, ever := true } fresh0
    let ours (s : State) (src : Nat) (p : List Byte) : Prop := s.redOn = true ∧ ofBytesBE ((p.drop 2).take 2) = s.rf Reg.redCfgAct 15 0 ∧
      ofBytesBE ((p.drop 4).take 1) % 8 < s.redMem ∧ ofBytesBE ((p.drop 4).take 1) % 8 ≠ s.redSelf ∧
      s.rf (Reg.redMemberAct (ofBytesBE ((p.drop 4).take 1) % 8)) 15 0 = src ∧ 24 ≤ p.length
    (newerEpoch (takeoverEpoch 0xFFFFFFFF 7) 0xFFFFFFFF = true ∧ newerEpoch 9 8 = true) ∧
    (s.Inv ∧ s.redOn = true ∧ s.cycOn = true ∧ s.redRole 0 = 4 ∧ (s.redRun 0).taken ≠ some s.cycNo ∧ s.redTakeTime (s.redDuty 0).flow = true ∧
      (redS 4 { taken := some 10 } fresh0).cycNo = 10 ∧ s.red.healthTaken ≠ some s.cycNo ∧ s.redTakeTime (s.rf Reg.redCfg2Act 11 0 + s.redSelf) = true) ∧
    (let p := redBytes 0x100 4 0 0 0 0x81000000 0 ++ bytesBE 4 9 ++ bytesBE 24 0
     ours s 9 p ∧ ofBytesBE ((p.drop 4).take 1) / 16 = 4 ∧ ofBytesBE (p.take 2) % 4096 = s.rf Reg.redCfg2Act 11 0 + 0 ∧ 52 ≤ p.length ∧
     s.red.duties.length ≤ 7 ∧ s.red.swapAt = none ∧ 0 < s.red.duties.length ∧ ¬ ours s 8 p) ∧
    (∀ e ∈ [1, 9], let p := redBytes 0x90 0 0 0 e 0 10
     ours s 9 p ∧ ofBytesBE ((p.drop 4).take 1) / 16 < 4 ∧ ofBytesBE ((p.drop 5).take 1) < s.red.duties.length ∧
     ofBytesBE (p.take 2) % 4096 = (s.redDuty 0).flow ∧ ofBytesBE ((p.drop 8).take 4) = e ∧ (s.redRun 0).yieldOps = [] ∧
     newerEpoch e (s.redRun 0).mine = decide (e = 9)) ∧
    (∀ role ∈ [1, 3], let j := redS role { follow := 8, ever := true } fresh0
     j.redRole 0 = role ∧ (j.redRun 0).ever = true ∧ newerEpoch 7 (j.redRun 0).follow = false ∧ 7 ≠ (j.redRun 0).follow ∧
     newerEpoch 9 (j.redRun 0).follow = true ∧ (j.redRun 0).yieldOps = [] ∧ ours j 9 (redBytes 0x90 2 0 0 9 0 10) ∧
     bit (j.redDuty 0).ctxMask 2 = true ∧ bit (j.redRun 0).joined 2 = false) := by
  refine ⟨?_, ?_, ?_, ?_, ?_⟩ <;> decide +kernel

/-- The boundary: stopped; not eligible, a miss, too many misses, a yield's turn; superseded, yielding, asked to yield with and without another. -/
theorem witness_RedundantGroup_boundary :
    let fresh (s : State) : Prop := ∀ m, m < s.redMem → m ≠ s.redSelf → ∃ k ∈ [8], tget none m s.red.healthAt = some k ∧ s.cycNo ≤ k + s.missMax
    let plain (s : State) : Prop := s.Inv ∧ s.redOn = true ∧ fresh s ∧ s.red.listen = 0 ∧ s.red.swapAt = none ∧ s.red.swapAck = none ∧ s.red.duties.length = 1
    let misses (s : State) : Nat := if (s.redRun 0).heard then 0 else (s.redRun 0).misses + 1
    let due (s : State) : Prop := s.missMax + s.redPos 0 ≤ misses s
    let b (role : Nat) (x : RedRun) : State := redS role x fresh0
    State.reset.redOn = false ∧
    (∀ role ∈ [2, 3], plain (b role { divAt := some 1 }) ∧ (b role { divAt := some 1 }).redRole 0 = role ∧ (b role { divAt := some 1 }).redEligible 0 1 = false) ∧
    (∀ role ∈ [2, 3], plain (b role {}) ∧ (b role {}).redEligible 0 1 = true ∧ ¬ due (b role {}) ∧ misses (b role {}) = 1 ∧ (b role {}).redSelf = 1 ∧
      due (b role { misses := 1 }) ∧ (b role { heard := true, yieldAt := some 9 }).missMax = 2 ∧ ¬ due (b role { heard := true, yieldAt := some 9 }) ∧
      9 + 1 + (b role { heard := true, yieldAt := some 9 }).redPos 0 ≤ (b role {}).cycNo ∧ takeoverEpoch ((b role {}).rget (Reg.redDEpoch 0)).toNat 1 ≠ 0) ∧
    (plain (b 4 {}) ∧ (b 4 { superseded := true }).redRole 0 = 4 ∧ ((b 4 { yielding := some 9 }).redRun 0).superseded = false ∧
      9 < (b 4 { yielding := some 9 }).cycNo) ∧
    (((b 4 { yieldReq := true }).redRun 0).yieldReq = true ∧ (b 4 {}).redCandidate 0 = false ∧ (b 4 {}).redDiag = 0 ∧
      (redS 4 {} fresh0 [(Reg.bhrStat, 0x80000000)]).redDiag ≠ 0 ∧ (redS 4 {} fresh0 [(Reg.redHealth 0, 0x81000000)]).redCandidate 0 = true) := by
  refine ⟨?_, ?_, ?_, ?_, ?_⟩ <;> decide +kernel

/-- Divergence masks, the swap timer and the operations, due and not, accepted and refused. -/
theorem witness_RedundantGroup_ops : let s := redS 4 { divAt := some 5 } fresh0 [(Reg.redHealth 0, 0x81000000)]
    let o (c : Nat) : Op := anOp 14 c 0 []
    ((s.redRun 0).divAt = some 5 ∧ 5 + 800000000 ≤ s.cyc ∧ s.cyc < 3600 * 800000000 + 800000000) ∧
    (s.redOn = true ∧ s.redGroup = false ∧ s.redRole 0 = 4 ∧ s.rf Reg.redCfg2Act 31 24 = 1 ∧ s.red.retryAt = none ∧
      s.red.roleAt + 1 * 3600 * 800000000 ≤ s.cyc ∧ s.red.swapAt = none ∧ (redS 3 {} fresh0).redRole 0 ≠ 4) ∧
    (∀ c ∈ [2, 3, 4], OpMay (fl (o c) s) (o c) 14 c ∧ (o c).obj = 0 ∧ 0 < s.red.duties.length ∧ s.redCandidate 0 = true) := by
  refine ⟨?_, ?_, ?_⟩ <;> decide +kernel

/-! ## Host, DMA and events -/

/-- The link up or down, with a word of SRAM in error or none; vector 116 at a level, seen or not, enabled or not. -/
def hostS (up : Bool) (more : List (Nat × Nat)) (m : MeshSt := {}) : State :=
  let s := rs ((Reg.meshPcieStat, if up then 0x80000003 else 3) :: more) State.reset
  { s with mesh := m, pwr := { s.pwr with por := false } }

def ecc (l : List (Nat × EccKind)) (s : State) : State := { s with ecc := l }

def raised : List (Nat × Nat) := [(Reg.meshEvstat, 1), (Reg.meshEven, 1)]

theorem witness_HostDmaAndEvents : let s := hostS true []
    let d := hostS false []
    let ok := hostS true [(Reg.bhrStat, 0x60000000), (Reg.meshPcieObSize 0, 16)]
    (s.Inv ∧ d.Inv ∧ 3 * 8 < 0x2000000 ∧ (∀ e ∈ (ecc [(4, .double)] s).ecc, e.1 ≠ 3) ∧ (ecc [(3, .single)] s).ecc = [(3, .single)] ∧
      (ecc [(3, .double)] s).ecc = [(3, .double)]) ∧
    (s.barAddr 1 0 = none ∧ s.barAddr 2 (2 ^ 26) = none ∧ d.linkUp = false ∧ s.linkUp = true ∧ 0 < 512 ∧ 0x1FFFE00 + 512 ≤ 0x2000000 ∧
      s.eccIn 0x1FFFE00 512 = [] ∧ 256 ≤ 256 - 0x2C00000 % 256 ∧ 0x2FFFFFF < 0x3000000 ∧ s.eccIn 0 256 = []) ∧
    (ok.memStatus 13 0x1000000000 1 false = .ok ∧ d.memStatus 13 0x1000000000 1 false ≠ .ok ∧ 0x1FFFFFFFFF < 0x2000000000) ∧
    (d.endpointHeld = false ∧ (hostS true [] { perstn := false }).endpointHeld = true) ∧
    (let l := hostS true raised
     let q (m : MeshSt) : State := hostS true raised m
     l.vecLevel 116 = true ∧ bit l.mesh.seen 116 = false ∧ bit (q { seen := 2 ^ 116 }).mesh.seen 116 = true ∧ s.vecLevel 116 = false ∧ (116 : Word).toNat % 128 = 116 ∧
     116 ∈ (q { requested := [116] }).mesh.requested ∧ (l.rb Reg.meshPcieStat 1 = true ∧ l.rb Reg.meshPcieStat 0 = true ∧ l.mesh.fnMask = false ∧
       (hostS true ((Reg.evcMsixCtrl 116, 0) :: raised)).rb (Reg.evcMsixCtrl 116) 0 = false) ∧
     (q { fnMask := true }).mesh.fnMask = true ∧ 116 ∉ l.mesh.requested ∧ l.pba 116 = false ∧
     (hostS true ((Reg.evcPba 3, 2 ^ 20) :: raised)).pba 116 = true) := by
  refine ⟨?_, ?_, ?_, ?_, ?_⟩ <;> decide +kernel

/-- Two offsets of one aligned 512 bytes in different 128-byte blocks, with one rank and with two. -/
theorem witness_HostDmaAndEvents_ddr : (∀ two ∈ [false, true], 0x280 < 2 ^ (17 + 15 + b2n two) ∧ 0x380 < 2 ^ (17 + 17 + b2n two)) ∧
    0x280 / 512 = 0x380 / 512 ∧ 0x280 / 128 ≠ 0x380 / 128 := by decide +kernel

/-- A move's payload: source or pattern, destination, length, class. -/
def mv (src dst len cls : Nat) : List Nat := ((bytesLE 8 src ++ bytesLE 8 dst ++ bytesLE 4 len ++ [BitVec.ofNat 8 cls, 0, 0, 0]).map (·.toNat))

/-- Moves that are first and not, of class 3, refused, empty, and that run; lists; bursts cancelled, in the middle, at the end. -/
theorem witness_HostDmaAndEvents_dma : let c (k : Nat) (p : List Nat) : Op := anOp 7 k 2 p
    let on (o : Op) (m : MeshSt := {}) : State := fl o (hostS false [] m)
    let run (x : DmaRun) : MeshSt := { dma := [(2, some x)] }
    let chain (n cls : Nat) : Op := c 3 ((bytesLE 8 0x1000 ++ bytesLE 2 n ++ [BitVec.ofNat 8 cls]).map (·.toNat))
    (∀ o ∈ State.reset.sp.ops, ¬(o.unit = 7 ∧ o.obj = 2)) ∧ ((c 1 []) ∈ (on (c 1 [])).sp.ops ∧ (c 1 []).unit = 7 ∧ (c 1 []).obj = 2) ∧
    (∀ k ∈ [1, 2], let o := c k (mv 0x1000 0x2000 300 1)
      OpMay (on o) o 7 k ∧ (on o).dmaFirst o = true ∧ (on o (run { op := 1, chain := false, cls := 0, entries := [] })).dmaFirst o = false ∧
      recNat o.payload 20 1 % 4 ≠ 3 ∧ recNat (c k (mv 0 0 0 3)).payload 20 1 % 4 = 3 ∧ (on o).dmaChecks [(k, dmaMove (k == 2) o.payload)] = none ∧
      (dmaMove (k == 2) o.payload).len ≠ 0 ∧ (on o).dmaChecks [(k, dmaMove (k == 2) (mv 0x1000 0x2C00000 8 1 |>.map (BitVec.ofNat 8)))] = some .cfgerr ∧
      (dmaMove (k == 2) (mv 0 0x2000 0 1 |>.map (BitVec.ofNat 8))).len = 0 ∧ (on o).dmaChecks [(k, dmaMove (k == 2) (mv 0 0x2000 0 1 |>.map (BitVec.ofNat 8)))] = none) ∧
    ((∀ n ∈ [0, 1, 257], OpMay (on (chain n 1)) (chain n 1) 7 3 ∧ (on (chain n 1)).dmaFirst (chain n 1) = true ∧ recNat (chain n 1).payload 8 2 = n ∧
      recNat (chain n 1).payload 10 1 % 4 = 1) ∧ recNat (chain 1 3).payload 10 1 % 4 = 3 ∧ recNat (chain 1 1).payload 0 8 = 0x1000) ∧
    (let e : DmaEntry := { fill := false, src := 0x1000, dst := 0x20F0, len := 32 }
     let b (x : DmaRun) : State := on (c 1 []) (run x)
     (∀ x ∈ [({ op := 5, chain := false, cls := 1, entries := [e, e] } : DmaRun), { op := 5, chain := false, cls := 1, entries := [e, e], moved := 16 },
         { op := 5, chain := false, cls := 1, entries := [e], moved := 16 }, { op := 5, chain := true, cls := 1, entries := [e], cancel := true }],
       (b x).dmaRun 2 = some x ∧ (b x).op x.op = some (c 1 []) ∧ (c 1 []).id = x.op) ∧
     ([e, e] : List DmaEntry)[0]? = some e ∧ e.burst 0 = 16 ∧ 0 + 16 < e.len ∧ e.len ≤ 16 + e.burst 16 ∧ e.burst 16 = 16 ∧
     (State.reset.eccIn 0x20F0 16 = [] ∧ State.reset.eccIn 0x1000 16 = [])) := by
  refine ⟨?_, ?_, ?_, ?_, ?_⟩ <;> decide +kernel

/-- The list of a CHAIN operation of one COPY is read and passes the checks. -/
theorem witness_HostDmaAndEvents_chain : let s := words 0x1000 [0x3000, 0, 0x2000, 0, 8, 1] (hostS false [])
    let d := s.bytes 0x1000 (24 * 1)
    (Run.start s).memRead 13 0x1000 (24 * 1) = (Run.start s, .ok, d) ∧ s.dmaChecks (dmaList 1 d) = none := by
  refine ⟨memRead_ok _ (by decide +kernel) (by decide +kernel) fun w => ?_, by decide +kernel⟩
  rw [show regionOf _ = .sram by decide +kernel]
  exact fun h => by cases h

/-! ## Bharal -/

/-- A node in a state, out of reset, at ten seconds, with Bharal as said. -/
def bhrS (node : Nat) (b : BhrSt) (more : List (Nat × Nat) := []) : State :=
  let s := rs ((Reg.bhrStat, node * 2 ^ 29) :: more) State.reset
  cyc 8000000000 { s with bhr := b, pwr := { s.pwr with por := false } }

def aRec : LogRec := { kind := 3 }

/-- Sensors in and out of their fault condition, for less and more than the filter time; records to write and not yet; each state's timer. -/
theorem witness_BharalAtWork : let s := bhrS 3 {}
    (s.Inv ∧ s.inReset = false ∧ State.reset.inReset = true ∧ (∀ x ∈ [(0, 1888), (8, 5000), (20, 0)], s.sensFault x.1 x.2 = true) ∧
      s.sensFault 0 1887 = false ∧ s.sensFault 25 0 = true) ∧
    (let q : Sensor := { faultAt := some 1 }
     q.faultAt.getD s.cyc + sensFilter 0 ≤ s.cyc ∧ ¬ ((none : Option Nat).getD s.cyc + sensFilter 0 ≤ s.cyc) ∧ q.fault = false ∧
     sensFilter 20 = 0) ∧
    (let c := { s with chm := { s.chm with on := true } }
     c.node ≠ .boot ∧ c.chm.on = true ∧ c.chm.hbAt + usCyc 10000 ≤ c.cyc ∧ s.chm.on = false) ∧
    (let l (t : Option Nat) : State := bhrS 3 { logQ := [aRec], logAt := t }
     (l none).bhr.logQ = aRec :: [] ∧ aRec.who = none ∧ (l none).bhr.logLost = 0 ∧ (l none).bhr.nextSeq < 5120 ∧ s.bhr.logQ = [] ∧
     (l (some 8000000000)).cyc < 8000000000 + usCyc 1000) ∧
    (let f := bhrS 0 {}
     f.node = .boot ∧ f.recOk 0 = false ∧ f.recOk 1 = false ∧ f.inReset = false ∧ s.node ≠ .boot) ∧
    ((bhrS 1 {}).node = .load ∧ s.node ≠ .load) ∧
    ((bhrS 2 {} [(Reg.pwrCfg, 5)]).node = .start ∧ 0 + (bhrS 2 {} [(Reg.pwrCfg, 5)]).rf Reg.pwrCfg 7 0 * 800000000 ≤ s.cyc ∧
      ¬ 0 + (bhrS 2 {} [(Reg.pwrCfg, 11)]).rf Reg.pwrCfg 7 0 * 800000000 ≤ s.cyc) ∧
    (∀ t ∈ [5, 9000000000], (bhrS 3 { nonce := some ([], t) }).bhr.nonce = some ([], t)) := by
  refine ⟨?_, ?_, ?_, ?_, ?_, ?_, ?_, ?_⟩ <;> decide +kernel

/-- A flash whose slot A has a record with a Chozia package of version 3 and no other. -/
def aFlash : Tbl Byte := (bytesLE 8 48 ++ bytesLE 8 0x20 ++ bytesLE 8 0 ++ bytesLE 8 0).zipIdx.map (fun e => (8 + e.2, e.1)) ++ [(48 + 0x1C, 3)]

/-- The commands by operation and by the host, free and busy; each of their cases. The cases of ACTIVATE with a valid slot and
AUTH with a good token hold for some values of the free functions of Config only, and no closed term shows one. -/
theorem witness_BharalAtWork_commands : let o (c : Nat) (d : List Nat) : Op := anOp 12 c 0 d
    let on (node c : Nat) (d : List Nat) (b : BhrSt := {}) : State := fl (o c d) (bhrS node b)
    (∀ c ∈ List.range' 1 15, OpMay (on 3 c []) (o c []) 12 c ∧ (on 3 c []).bhr.running = none ∧ (on 3 c [] { running := some .host }).bhr.running ≠ none) ∧
    (∀ c ∈ List.range' 1 15, (bhrS 3 { cmd := c }).bhr.cmd = c ∧ (bhrS 3 { cmd := c }).bhr.running ≠ some .host) ∧
    ((∀ n ∈ [0, 64, 65], recNat (o 3 [0, 0, 0, 0, n, 0]).payload 4 2 = n) ∧
      (∀ k ∈ [0xFF, 0x100, 0x1FF, 0x200], recNat (o 4 [k % 256, k / 256]).payload 0 2 = k) ∧
      64 ≤ (on 3 4 [] { logQ := List.replicate 64 aRec }).bhr.logQ.length ∧ (on 3 4 []).bhr.logQ.length < 64) ∧
    ((on 3 8 []).node ≠ .test ∧ (on 4 8 []).node = .test ∧ ¬ ((on 4 8 []).calCheck (padTo 2048 ((o 8 []).payload.drop 8)) = 0)) ∧
    (let g (v : Nat) : State := on 3 13 [v] { flash := aFlash, otpSv := 2 }
     let low (v : Nat) : Prop := recNat ((g v).slotPkg (g v).bootSlot 0) 0x1C 1 < v ∨
        (recNat ((g v).slotRec (g v).bootSlot) 32 8 ≠ 0 ∧ recNat ((g v).slotPkg (g v).bootSlot 1) 0x1C 1 < v)
     (∀ v ∈ [2, 3, 4, 65], recNat (o 13 [v]).payload 0 1 = v) ∧ low 4 ∧ ¬ low 3 ∧ (g 3).bhr.otpSv = 2) ∧
    ((∀ k ∈ [3, 4, 7, 8], recNat (o 14 [k]).payload 0 1 = k) ∧ keyEmpty ((on 4 14 []).keySlot 4) = true ∧
      keyEmpty ((on 4 14 [] { keys := [(4, [1])] }).keySlot 4) = false) ∧
    ((∀ n ∈ [1, 2, 3], recNat (o 15 [n]).payload 0 1 = n) ∧ (on 3 15 [1]).node = .normal ∧ (on 5 15 [1]).node = .recovery ∧ (on 5 15 [1]).fawn = false ∧
      (on 4 15 [2]).rf Reg.bhrStat 26 25 = 0 ∧ (on 4 15 [2]).node = .test ∧ (on 2 15 [1]).node = .start ∧
      (bhrS 5 {} [(Reg.bhrStat, 0xB0000000), (Reg.timeStat, 0x80000000)]).causeRemoved = true) ∧
    ((∀ e ∈ (on 3 7 [] { calEcc := [(4, .single)] }).bhr.calEcc, e.2 = .single) ∧ ∃ e ∈ (on 3 7 [] { calEcc := [(4, .double)] }).bhr.calEcc, e.2 = .double) ∧
    ((∀ k ∈ [1, 2], recNat (o 10 [k]).payload 0 1 = k) ∧ (on 3 10 [1]).slotOk 1 = false) := by
  refine ⟨?_, ?_, ?_, ?_, ?_, ?_, ?_, ?_, ?_⟩ <;> decide +kernel

theorem len_bytesLE (n : Nat) : ∀ v, (bytesLE n v).length = n := by
  induction n with
  | zero => exact fun _ => rfl
  | succ n ih => exact fun v => congrArg (· + 1) (ih _)

theorem crcR_lt (n : Nat) : ∀ c, c < 2 ^ 32 → crcR 0x82F63B78 n c < 2 ^ 32 := by
  induction n with
  | zero => exact fun c h => h
  | succ n ih =>
    intro c h
    refine ih _ ?_
    split
    · exact Nat.xor_lt_two_pow (by omega) (by decide)
    · omega

theorem crc32c_lt (d : List Byte) : crc32c 0xFFFFFFFF d < 2 ^ 32 := by
  refine Nat.xor_lt_two_pow ?_ (by decide)
  unfold crcRight
  suffices h : ∀ c, c < 2 ^ 32 → d.foldl (crcRByte 0x82F63B78) c < 2 ^ 32 from h _ (by decide)
  induction d with
  | nil => exact fun c h => h
  | cons b t ih =>
    intro c h
    exact ih _ (crcR_lt 8 _ (Nat.xor_lt_two_pow h (Nat.lt_of_lt_of_le b.isLt (by decide))))

theorem recNat_at {A R : List Byte} {k n v : Nat} (hA : A.length = k) (hv : v < 256 ^ n) : recNat (A ++ (bytesLE n v ++ R)) k n = v := by
  have h := recNat_bytesLE n v 0 n hv
  rw [recNat, List.drop_zero, List.take_of_length_le (Nat.le_of_eq (len_bytesLE n v)), Nat.mul_zero, Nat.shiftRight_zero, Nat.mod_eq_of_lt hv] at h
  rw [recNat, List.drop_left' hA, List.take_left' (len_bytesLE n v), h]

/-- The bytes of a calibration set of the node before its check, with the unit's own identifier. -/
def calHead (s : State) (z : List Byte) : List Byte := bytesLE 4 0x43414C31 ++ (bytesLE 2 1 ++ (bytesLE 2 0x800 ++ (s.uidBytes ++ z)))

theorem calHead_good (s : State) (z : List Byte) (hz : z.length = 2020) (c : Nat) (hl : c < 256 ^ 4) (hc : crc32c 0xFFFFFFFF (calHead s z) = c) :
    s.calCheck (calHead s z ++ bytesLE 4 c) = 0 ∧ (calHead s z ++ bytesLE 4 c).length = 2048 ∧ recNat (calHead s z ++ bytesLE 4 c) 0x7FC 4 = c := by
  have hA : (calHead s z).length = 0x7FC := by simp only [calHead, List.length_append, len_bytesLE, State.uidBytes, hz]
  have hs : (calHead s z ++ bytesLE 4 c).length = 2048 := by rw [List.length_append, hA, len_bytesLE]
  have hr : recNat (calHead s z ++ bytesLE 4 c) 0x7FC 4 = c := by
    rw [← List.append_nil (bytesLE 4 c)]
    exact recNat_at hA hl
  have hp : padTo 0x7FC (calHead s z ++ bytesLE 4 c) = calHead s z := by
    rw [padTo, hs, List.take_left' hA, Nat.sub_eq_zero_of_le (by decide), List.replicate_zero, List.append_nil]
  have h1 : recNat (calHead s z ++ bytesLE 4 c) 0 4 = 0x43414C31 := by
    rw [calHead, List.append_assoc]
    exact recNat_at (A := []) rfl (by decide)
  have h2 : recNat (calHead s z ++ bytesLE 4 c) 4 2 = 1 := by
    rw [calHead, List.append_assoc, List.append_assoc]
    exact recNat_at (len_bytesLE 4 _) (by decide)
  have h3 : recNat (calHead s z ++ bytesLE 4 c) 6 2 = 0x800 := by
    rw [calHead, ← List.append_assoc (bytesLE 4 0x43414C31), List.append_assoc, List.append_assoc]
    have hB : (bytesLE 4 0x43414C31 ++ bytesLE 2 1).length = 6 := by rw [List.length_append, len_bytesLE, len_bytesLE]
    exact recNat_at hB (by decide)
  have hu : ((calHead s z ++ bytesLE 4 c).drop 8).take 16 = s.uidBytes := by
    rw [calHead, ← List.append_assoc (bytesLE 4 0x43414C31), ← List.append_assoc (bytesLE 4 0x43414C31 ++ bytesLE 2 1), List.append_assoc _ _ (bytesLE 4 c),
      List.drop_left' (by rw [List.length_append, List.length_append, len_bytesLE, len_bytesLE, len_bytesLE]), List.append_assoc,
      List.take_left' (show s.uidBytes.length = 16 from len_bytesLE 16 _)]
  refine ⟨?_, hs, hr⟩
  rw [State.calCheck, if_neg (not_not.mpr h1), if_neg (not_not.mpr h2), if_neg (not_not.mpr h3), if_neg (not_not.mpr hu),
    if_neg (not_not.mpr (by rw [hp, hr, hc]))]

/-- A calibration set that CALWRITE accepts; its check is that of the unit's own identifier, which Config leaves free. -/
theorem witness_BharalAtWork_calwrite : ∃ d : List Byte,
    (bhrS 4 {}).calCheck (padTo 2048 (d.drop 8)) = 0 ∧ recNat (padTo 2048 (d.drop 8)) 0x7FC 4 = recNat d 0 4 := by
  obtain ⟨c, hc⟩ : ∃ c, crc32c 0xFFFFFFFF (calHead (bhrS 4 {}) (List.replicate 2020 0)) = c := ⟨_, rfl⟩
  have hl : c < 256 ^ 4 := hc ▸ crc32c_lt _
  obtain ⟨h0, h1, h2⟩ := calHead_good (bhrS 4 {}) (List.replicate 2020 0) List.length_replicate c hl hc
  obtain ⟨set, hset⟩ : ∃ set, set = calHead (bhrS 4 {}) (List.replicate 2020 0) ++ bytesLE 4 c := ⟨_, rfl⟩
  rw [← hset] at h0 h1 h2
  refine ⟨bytesLE 4 c ++ (bytesLE 4 0 ++ set), ?_⟩
  have hd : padTo 2048 ((bytesLE 4 c ++ (bytesLE 4 0 ++ set)).drop 8) = set := by
    rw [← List.append_assoc, List.drop_left' (by rw [List.length_append, len_bytesLE, len_bytesLE]), padTo, h1,
      List.take_of_length_le (Nat.le_of_eq h1), Nat.sub_self, List.replicate_zero, List.append_nil]
  rw [hd]
  exact ⟨h0, h2.trans (recNat_at (A := []) rfl hl).symm⟩

/-! ## Campaigns -/

/-- A frame of campaign 7 with a status and an offset; a campaign of 5,000 bytes. -/
def cf (st off : Nat) : List Byte := bytesBE 1 0 ++ bytesBE 1 st ++ bytesBE 2 0 ++ bytesBE 4 7 ++ bytesBE 8 off ++ List.replicate 32 0
def aCamp : Camp := { id := 7, t0 := 0, origin := 2, sv := 0, activate := false, hash := [], len := 64 }

theorem witness_Campaigns : let s (b : BhrSt) : State := bhrS 3 b
    let c : BhrSt := { camp := some aCamp }
    let tx (t : CampTx) (o : List CampOffer) : State := s { camp := some aCamp, tx := some t, offers := o }
    ((s {}).Inv ∧ (s {}).inReset = false ∧ (s {}).node ≠ .boot ∧ (s {}).node ≠ .load ∧ (s {}).bhr.camp = none ∧ (bhrS 1 {}).node = .load) ∧
    ((s c).bhr.camp = some aCamp ∧ aCamp.id = beAt (cf 0 0) 4 4 ∧
      (s { rx := some { port := 0 } }).offerAnswer aCamp = (.busy, 0)) ∧
    (∀ x ∈ [(1, 0, true), (1, 16, true), (2, 0, false), (1, 40, false)],
      let r : CampRx := { port := x.1, next := x.2.1 }
      let b := s { camp := some aCamp, rx := some r }
      b.bhr.rx = some r ∧ ((r.port = 1 ∧ beAt (cf 0 x.2.1) 8 8 = r.next ∧ r.next + (((cf 0 x.2.1).drop 16).take 2000).length ≤ aCamp.len) ↔ x.2.2 = true)) ∧
    (∀ run ∈ [true, false], let t : CampTx := { port := 1, running := run, sent := 64 }
      (tx t [⟨1, 7, 0⟩]).bhr.tx = some t ∧ (tx t [⟨1, 7, 0⟩]).bhr.offers = [⟨1, 7, 0⟩] ∧ t.port = 1 ∧ t.dead = false ∧ t.sent = aCamp.len ∧
      t.ackAt + usCyc 20000 ≤ (tx t []).cyc ∧ t.rounds < 16 ∧ (tx t []).bhr.own = none) ∧
    (beAt (cf 0 0) 1 1 = 0 ∧ beAt (cf 0x11 0) 1 1 = 0x11 ∧ 0 < beAt (cf 0 40) 8 8 ∧ beAt (cf 0 40) 8 8 ≤ 64) ∧
    (let o : CampOwn := { who := .op 5, expect := 2, area := 0, cap := 0 }
     (s { camp := some aCamp, own := some o }).bhr.own = some o ∧ ({ o with reports := [[]] } : CampOwn).reports.length + 1 = o.expect ∧
     o.reports.length + 1 ≠ o.expect) ∧
    ((s { camp := some aCamp, rx := some { port := 1, next := 64, dataAt := 0 } }).cyc = 8000000000 ∧ 0 + usCyc 1000000 ≤ 8000000000 ∧
      ¬ 8000000000 + usCyc 1000000 ≤ 8000000000 ∧ ¬ 0 + usCyc 20000 ≤ 1 ∧ 16 ≤ ({ port := 1, rounds := 16 } : CampTx).rounds) ∧
    (∀ t ∈ [0, 9000000000], (s { camp := some aCamp, offers := [⟨1, 0, t⟩] }).bhr.offers = [⟨1, 0, t⟩] ∧ (t ≤ (s {}).cyc ↔ t = 0)) ∧
    ((s c).fawn = false ∧ ¬ aCamp.t0 + 1800000000000 ≤ (s c).now ∧ aCamp.t0 + 1800000000000 ≤ (at0 1800000000000 (s c)).now ∧
      (bhrS 5 c [(Reg.bhrStat, 0xA8000000)]).fawn = true ∧ ¬ aCamp.adoptedAt + 1800 * 800000000 ≤ 8000000000) := by
  refine ⟨?_, ?_, ?_, ?_, ?_, ?_, ?_, ?_, ?_⟩ <;> decide +kernel

theorem flashSize_range : 64 * 2 ^ 20 ≤ flashSize ∧ flashSize ≤ 512 * 2 ^ 20 := by
  unfold flashSize Config.flashMiB
  exact ⟨Nat.mul_le_mul_right _ (Nat.le_add_right 64 _),
    Nat.mul_le_mul_right _ (Nat.add_le_add_left (Nat.le_of_lt_succ (Nat.mod_lt _ (by decide))) 64)⟩

theorem roomOf_range (f : Nat) (h : 64 * 2 ^ 20 ≤ f ∧ f ≤ 512 * 2 ^ 20) : 64 ≤ roomOf f ∧ roomOf f < 2 ^ 30 := by unfold roomOf; omega

theorem slotRoom_range : 64 ≤ slotRoom ∧ slotRoom < 2 ^ 30 := roomOf_range flashSize flashSize_range

/-- An OFFER that is accepted. -/
theorem witness_Campaigns_offer : (bhrS 3 {}).offerAnswer aCamp = (.ok, 0) := by
  rw [State.offerAnswer, if_neg (by decide +kernel), if_neg (by decide +kernel), if_neg (by decide +kernel), if_neg (by decide +kernel), if_neg]
  exact Nat.not_lt.mpr slotRoom_range.1

/-- A whole bundle received whose hash is the campaign's, and one whose hash is another. That its packages pass the checks of
R591 holds for some values of the free functions of Config only. -/
theorem witness_Campaigns_bundle : let b (h : List Byte) : State := bhrS 3 { camp := some { aCamp with hash := h }, rx := some { port := 1, next := 64 } }
    ∀ x : List Byte, x = Config.sha256 ((b []).bundleBytes 0 64) →
      Config.sha256 ((b x).bundleBytes 0 64) = x ∧ Config.sha256 ((b (0 :: x)).bundleBytes 0 64) ≠ 0 :: x := by
  intro b x h
  have e : ∀ y, (b y).bundleBytes 0 64 = (b []).bundleBytes 0 64 := fun y => by
    have f : ∀ y a n, (b y).flashBytes a n = (List.range n).map fun _ => 0xFF := fun y a n =>
      List.map_congr_left fun i _ => show tget 0xFF (a + i) (b y).bhr.flash = 0xFF from rfl
    rw [State.bundleBytes, State.bundleBytes, f, f]
  refine ⟨by rw [e, h], fun g => ?_⟩
  rw [e, ← h] at g
  exact absurd (congrArg List.length g) (by simp)

/-- INSTALL in hand and asked for, CAMPAIGN and CLOSE. -/
theorem witness_Campaigns_ops : let o (c : Nat) (d : List Nat) : Op := anOp 12 c 0 d
    let on (x : Op) (b : BhrSt := {}) : State := fl x (bhrS 3 b)
    let ins (n : Nat) : Op := o 9 ((bytesLE 8 0x1000 ++ bytesLE 8 n).map (·.toNat))
    (∀ x ∈ [ins 0, ins 64, ins (2 ^ 30), o 11 [7, 0, 0, 0, 0, 0, 0, 0], o 12 [7, 0, 0, 0]], OpMay (on x) x 12 x.code ∧ (on x).bhr.running = none) ∧
    (∀ n ∈ [0, 64, 2 ^ 30], recNat (ins n).payload 8 8 = n ∧ recNat (ins n).payload 0 8 = 0x1000) ∧ (64 ≤ slotRoom ∧ slotRoom < 2 ^ 30) ∧
    (let i : Install := ⟨.op 5, 1, false, [1, 2]⟩
     let s := on (o 9 []) { install := some i, running := some (.op 5) }
     s.bhr.install = some i ∧ i.who = .op (o 9 []).id ∧ s.op 5 = some (o 9 []) ∧ (o 9 []).out = none ∧ s.bhr.running = some i.who ∧ s.fawn = false ∧
     i.activate = false ∧ i.slot < 2) ∧
    (on (o 11 [])).bhr.own = none ∧
    (let w : CampOwn := { who := .op 4, expect := 2, area := 0, cap := 0 }
     let q : Op := { anOp 12 11 0 [] with id := 4, acted := true }
     let s0 := bhrS 3 { camp := some aCamp, own := some w }
     let s := { s0 with sp := { s0.sp with ops := [q, o 12 [7, 0, 0, 0]], nextOp := 6 } }
     OpMay s (o 12 [7, 0, 0, 0]) 12 12 ∧ s.bhr.own = some w ∧ w.reports = [] ∧ w.who = .op q.id ∧ q.id ≠ 5 ∧ s.op q.id = some q ∧ q.out = none ∧
     s.bhr.rx = none ∧ s.bhr.tx = none ∧ recNat (o 12 [7, 0, 0, 0]).payload 0 4 = aCamp.id) := by
  refine ⟨?_, ?_, slotRoom_range, ?_, ?_, ?_⟩ <;> decide +kernel

/-- The bundle of an INSTALL is read. -/
theorem witness_Campaigns_read : (Run.start (bhrS 3 {})).memRead 14 0x1000 64 = (Run.start (bhrS 3 {}), .ok, (bhrS 3 {}).bytes 0x1000 64) := by
  refine memRead_ok _ (by decide +kernel) (by decide +kernel) fun w => ?_
  rw [show regionOf _ = .sram by decide +kernel]
  exact fun h => by cases h

/-! ## Power, resets, pins -/

/-- A node in a state, out of reset or under POR. -/
def pwrS (node : Nat) (p : PwrSt) (more : List (Nat × Nat) := []) : State :=
  let s := rs ((Reg.bhrStat, node * 2 ^ 29) :: more) State.reset
  cyc 8000000000 { s with pwr := p }

def up : PwrSt := { por := false }

theorem witness_PowerResetAndPins : let s := pwrS 3 up
    (s.Inv ∧ s.pwr.por = false ∧ State.reset.pwr.por = true ∧ s.now < 2 ^ 64 ∧ s.axMode 0 ≠ 2 ∧ (rs [(Reg.axCfgAct 0, 2)] s).axMode 0 = 2 ∧
      s.inReset = false ∧ State.reset.inReset = true ∧ (rs [(Reg.pwrStat, 0x40000000)] s).rb Reg.pwrStat 30 = true ∧ s.bhr.logQ.length < 64) ∧
    (let l := rs [(Reg.timeStat, 2)] { s with time := { s.time with bases := [(0, { int := 1000000000, sec := 1 })] } }
     l.tb0State = 2 ∧ (l.base 0).sec = l.pwr.holdSec + 1 ∧ l.inReset = false ∧ s.tb0State ≠ 2) ∧
    ((pwrS 3 up).bhr.resetReq = false ∧ ({ s with bhr := { s.bhr with resetReq := true } } : State).bhr.resetReq = true ∧
      (pwrS 3 { up with coldUntil := some 5 }).pwr.coldUntil = some 5 ∧ 5 ≤ s.cyc ∧ s.cyc < 9000000000) ∧
    ((pwrS 3 up).node ≠ .boot ∧ (pwrS 3 up).node ≠ .load ∧ (pwrS 3 up).fawn = false ∧ (pwrS 0 up).node = .boot ∧ (pwrS 1 up).node = .load ∧
      (pwrS 5 up [(Reg.bhrStat, 0xA8000000)]).fawn = true ∧ s.sp.restart = none ∧ s.sp.warmAsk = none ∧ s.tgt 13 = {}) ∧
    (let w := { s with sp := { s.sp with warmAsk := some 5 } }
     let e := { rs [(Reg.spTCfg 0, 0x80000000)] s with sp := { s.sp with restart := some 5 } }
     w.sp.warmAsk = some 5 ∧ w.sp.restart = none ∧ w.inReset = false ∧ e.sp.restart = some 5 ∧ 5 ≤ e.cyc ∧ e.rb (Reg.spTCfg 0) 31 = true ∧
     e.rb (Reg.spTCfg 1) 31 = false) ∧
    ((∀ x ∈ [(0, 0), (1, 1), (2, 2)], (rs [(Reg.bhrStat, 3 * 2 ^ 29 + x.1 * 2 ^ 25)] s).debugLvl = x.2) ∧
      State.reset.eccIn 0x1000 4 = [] ∧ s.debugLvl < tapLevel .extest) ∧
    (let r := rs [(Reg.redStat, 0x80000004)] s
     r.redOn = true ∧ r.redGroup = false ∧ r.redRole 0 = 4 ∧ r.red.swapAt = none ∧
     ({ r with red := { r.red with retryAt := some 5 } } : State).red.retryAt = some 5 ∧ 5 ≤ r.cyc ∧ ¬ 9000000000 ≤ r.cyc) := by
  refine ⟨?_, ?_, ?_, ?_, ?_, ?_, ?_⟩ <;> decide +kernel

end Sys2Proof.Tests
end

section
/-!
PROOFS. Every command ends as a run of primitive updates (O3), and so does a step (O4).
-/
namespace Sys2Proof.Machine

/-- The outcome is the end of a run from `s`: no fault and no refusal, and a state that primitive updates reach. -/
def Ends (s : State) (o : Out) : Prop := ∃ r : Run s, o = r.done

theorem Run.ends {s : State} (r : Run s) : Ends s r.done := ⟨r, rfl⟩

theorem Ends.ite {s : State} {p : Prop} [Decidable p] {a b : Out} (ha : Ends s a) (hb : Ends s b) :
    Ends s (if p then a else b) := by
  split <;> assumption

/-- Such an outcome is a next state, reached from `s`. -/
theorem Ends.next {s : State} {o : Out} (h : Ends s o) : ∃ u, o = .next u ∧ Reach s u := by
  obtain ⟨r, rfl⟩ := h
  exact ⟨r.s, rfl, r.reach⟩

/-! ## The commands that branch on the state before they end: each of their branches is the end of a run -/

section
variable (s : State)

/-! ### The Mesh and the host -/

@[simp] theorem execMeshRequest_ends (port cls a n wr d) : Ends s (execMeshRequest port cls a n wr d s) := by
  fun_cases execMeshRequest port cls a n wr d s <;> exact Run.ends _
@[simp] theorem execScrubRead_ends (w) : Ends s (execScrubRead w s) := by fun_cases execScrubRead w s <;> exact Run.ends _
@[simp] theorem execHostRead_ends (bar off n) : Ends s (execHostRead bar off n s) := by
  fun_cases execHostRead bar off n s <;> exact Run.ends _
@[simp] theorem execHostWrite_ends (bar off d) : Ends s (execHostWrite bar off d s) := by
  fun_cases execHostWrite bar off d s <;> exact Run.ends _
@[simp] theorem execOutboundReadTimeout_ends (port a) : Ends s (execOutboundReadTimeout port a s) := by
  fun_cases execOutboundReadTimeout port a s <;> exact Run.ends _
@[simp] theorem execPcieLinkChange_ends (up lanes gen) : Ends s (execPcieLinkChange up lanes gen s) := by
  fun_cases execPcieLinkChange up lanes gen s <;> exact Run.ends _
@[simp] theorem execPcieConfigWrite_ends (msixEn fnMask bme) : Ends s (execPcieConfigWrite msixEn fnMask bme s) := by
  fun_cases execPcieConfigWrite msixEn fnMask bme s <;> exact Run.ends _

/-! ### Time -/

@[simp] theorem execRefinReturn_ends : Ends s (execRefinReturn s) := by fun_cases execRefinReturn s <;> exact Run.ends _
@[simp] theorem execSlewEnd_ends (n) : Ends s (execSlewEnd n s) := by fun_cases execSlewEnd n s <;> exact Run.ends _
@[simp] theorem execPpsOutPulse_ends : Ends s (execPpsOutPulse s) := by fun_cases execPpsOutPulse s <;> exact Run.ends _
@[simp] theorem execPpsPulseEnd_ends : Ends s (execPpsPulseEnd s) := by fun_cases execPpsPulseEnd s <;> exact Run.ends _

/-! ### Grids and timed operations -/

@[simp] theorem execTrigEdge_ends (ch rising f) : Ends s (execTrigEdge ch rising f s) := by
  fun_cases execTrigEdge ch rising f s <;> exact Run.ends _
@[simp] theorem execGridBoundary_ends (g sd) : Ends s (execGridBoundary g sd s) := by
  fun_cases execGridBoundary g sd s <;> exact Run.ends _
@[simp] theorem execTimedOpDue_ends (id) : Ends s (execTimedOpDue id s) := by fun_cases execTimedOpDue id s <;> exact Run.ends _
@[simp] theorem execSwapRetry_ends : Ends s (execSwapRetry s) := by fun_cases execSwapRetry s <;> exact Run.ends _

/-! ### Instructions -/

@[simp] theorem execStoreAck_ends (t ix) : Ends s (execStoreAck t ix s) := by fun_cases execStoreAck t ix s <;> exact Run.ends _
@[simp] theorem execStoreRefused_ends (t ix) : Ends s (execStoreRefused t ix s) := by
  fun_cases execStoreRefused t ix s <;> exact Run.ends _
@[simp] theorem execSequentialFetchEnd_ends (t) : Ends s (execSequentialFetchEnd t s) := by
  fun_cases execSequentialFetchEnd t s <;> exact Run.ends _
@[simp] theorem execWaitTimeout_ends (t) : Ends s (execWaitTimeout t s) := by fun_cases execWaitTimeout t s <;> exact Run.ends _

/-! ### Operations in flight -/

@[simp] theorem execOpAccept_ends (id) : Ends s (execOpAccept id s) := by fun_cases execOpAccept id s <;> exact Run.ends _
@[simp] theorem execOpComplete_ends (id) : Ends s (execOpComplete id s) := by fun_cases execOpComplete id s <;> exact Run.ends _

/-! ### Sequence processors -/

@[simp] theorem execFaultRestart_ends (t) : Ends s (execFaultRestart t s) := by
  fun_cases execFaultRestart t s <;> exact Run.ends _

/-! ### Warm restart and debug port -/

@[simp] theorem execWarmRestart_ends : Ends s (execWarmRestart s) := by fun_cases execWarmRestart s <;> exact Run.ends _
@[simp] theorem execDebugTapAccess_ends (f) : Ends s (execDebugTapAccess f s) := by
  fun_cases execDebugTapAccess f s <;> exact Run.ends _

/-! ### Power and reset -/

@[simp] theorem execWarmRestartEnd_ends : Ends s (execWarmRestartEnd s) := by fun_cases execWarmRestartEnd s <;> exact Run.ends _
@[simp] theorem execPorRelease_ends (low xbat pfailN) : Ends s (execPorRelease low xbat pfailN s) := by
  fun_cases execPorRelease low xbat pfailN s <;> exact Run.ends _
@[simp] theorem execHoldoverCountTick_ends : Ends s (execHoldoverCountTick s) := by
  fun_cases execHoldoverCountTick s <;> exact Run.ends _
@[simp] theorem execColdReset_ends (src) : Ends s (execColdReset src s) := by fun_cases execColdReset src s <;> exact Run.ends _
@[simp] theorem execColdResetEnd_ends : Ends s (execColdResetEnd s) := by fun_cases execColdResetEnd s <;> exact Run.ends _
@[simp] theorem execWarmRequest_ends (src) : Ends s (execWarmRequest src s) := by
  fun_cases execWarmRequest src s <;> exact Run.ends _
@[simp] theorem execPowerFail_ends (src) : Ends s (execPowerFail src s) := by fun_cases execPowerFail src s <;> exact Run.ends _
@[simp] theorem execPowerFailClear_ends : Ends s (execPowerFailClear s) := by fun_cases execPowerFailClear s <;> exact Run.ends _
@[simp] theorem execBackupSupplyLoss_ends : Ends s (execBackupSupplyLoss s) := by
  fun_cases execBackupSupplyLoss s <;> exact Run.ends _
@[simp] theorem execPllUnlock_ends (ix) : Ends s (execPllUnlock ix s) := by fun_cases execPllUnlock ix s <;> exact Run.ends _

/-! ### Signals -/

@[simp] theorem execSigUpdateApply_ends (b) : Ends s (execSigUpdateApply b s) := by
  fun_cases execSigUpdateApply b s <;> exact Run.ends _
@[simp] theorem execSampleStage_ends : Ends s (execSampleStage s) := by fun_cases execSampleStage s <;> exact Run.ends _
@[simp] theorem execBankHot_ends (b) : Ends s (execBankHot b s) := by fun_cases execBankHot b s <;> exact Run.ends _

/-! ### Loop engine -/

@[simp] theorem execLeSample_ends (c) : Ends s (execLeSample c s) := by fun_cases execLeSample c s <;> exact Run.ends _

/-! ### Axes -/

@[simp] theorem execCarrierReload_ends (n) : Ends s (execCarrierReload n s) := by
  fun_cases execCarrierReload n s <;> exact Run.ends _
@[simp] theorem execDeadTimeEnd_ends (n ix) : Ends s (execDeadTimeEnd n ix s) := by
  fun_cases execDeadTimeEnd n ix s <;> exact Run.ends _
@[simp] theorem execStepPulseEnd_ends (n) : Ends s (execStepPulseEnd n s) := by
  fun_cases execStepPulseEnd n s <;> exact Run.ends _
@[simp] theorem execDrvokFall_ends (n) : Ends s (execDrvokFall n s) := by fun_cases execDrvokFall n s <;> exact Run.ends _
@[simp] theorem execDrvokRise_ends (n) : Ends s (execDrvokRise n s) := by fun_cases execDrvokRise n s <;> exact Run.ends _
@[simp] theorem execReseatStart_ends (n) : Ends s (execReseatStart n s) := by fun_cases execReseatStart n s <;> exact Run.ends _
@[simp] theorem execReseatStep_ends (n) : Ends s (execReseatStep n s) := by fun_cases execReseatStep n s <;> exact Run.ends _
@[simp] theorem execReseatDone_ends (n) : Ends s (execReseatDone n s) := by fun_cases execReseatDone n s <;> exact Run.ends _
@[simp] theorem execEncoderEdge_ends (n a b) : Ends s (execEncoderEdge n a b s) := by
  fun_cases execEncoderEdge n a b s <;> exact Run.ends _
@[simp] theorem execFeedbackFrameEnd_ends (n rx) : Ends s (execFeedbackFrameEnd n rx s) := by
  fun_cases execFeedbackFrameEnd n rx s <;> exact Run.ends _
@[simp] theorem execFeedbackFrameTimeout_ends (n) : Ends s (execFeedbackFrameTimeout n s) := by
  fun_cases execFeedbackFrameTimeout n s <;> exact Run.ends _
@[simp] theorem execOcTrip_ends (c) : Ends s (execOcTrip c s) := by fun_cases execOcTrip c s <;> exact Run.ends _
@[simp] theorem execAuxEdge_ends (n ix level) : Ends s (execAuxEdge n ix level s) := by
  fun_cases execAuxEdge n ix level s <;> exact Run.ends _

/-! ### Motion -/

@[simp] theorem execZEdge_ends (n) : Ends s (execZEdge n s) := by fun_cases execZEdge n s <;> exact Run.ends _
@[simp] theorem execAuxQualified_ends (n ix) : Ends s (execAuxQualified n ix s) := by
  fun_cases execAuxQualified n ix s <;> exact Run.ends _
@[simp] theorem execVmRunout_ends (m) : Ends s (execVmRunout m s) := by fun_cases execVmRunout m s <;> exact Run.ends _

/-! ### Converters -/

@[simp] theorem execAdcSequenceTrigger_ends (n) : Ends s (execAdcSequenceTrigger n s) := by
  fun_cases execAdcSequenceTrigger n s <;> exact Run.ends _
@[simp] theorem execAdcMeshResult_ends (n) : Ends s (execAdcMeshResult n s) := by
  fun_cases execAdcMeshResult n s <;> exact Run.ends _
@[simp] theorem execAdcCalStart_ends (n) : Ends s (execAdcCalStart n s) := by fun_cases execAdcCalStart n s <;> exact Run.ends _
@[simp] theorem execAdcCalEnd_ends (n trims) : Ends s (execAdcCalEnd n trims s) := by
  fun_cases execAdcCalEnd n trims s <;> exact Run.ends _
@[simp] theorem execOwSettleEnd_ends (n) : Ends s (execOwSettleEnd n s) := by fun_cases execOwSettleEnd n s <;> exact Run.ends _

/-! ### The Herd -/

@[simp] theorem execLinkUp_ends (p first) : Ends s (execLinkUp p first s) := by
  fun_cases execLinkUp p first s <;> exact Run.ends _
@[simp] theorem execIsoSlot_ends (p ix t) : Ends s (execIsoSlot p ix t s) := by
  fun_cases execIsoSlot p ix t s <;> exact Run.ends _
@[simp] theorem execElectionStart_ends : Ends s (execElectionStart s) := by fun_cases execElectionStart s <;> exact Run.ends _
@[simp] theorem execElectionEnd_ends (resting blocked) : Ends s (execElectionEnd resting blocked s) := by
  fun_cases execElectionEnd resting blocked s <;> exact Run.ends _
@[simp] theorem execIdFailRetry_ends : Ends s (execIdFailRetry s) := by fun_cases execIdFailRetry s <;> exact Run.ends _
@[simp] theorem execSyncReqSend_ends (p) : Ends s (execSyncReqSend p s) := by fun_cases execSyncReqSend p s <;> exact Run.ends _

/-! ### Herd transactions and exchanges -/

@[simp] theorem execTxnRequest_ends : Ends s (execTxnRequest s) := by fun_cases execTxnRequest s <;> exact Run.ends _

/-! ### Capture -/

@[simp] theorem execTxnRetryTimeout_ends (tag dest) : Ends s (execTxnRetryTimeout tag dest s) := by
  fun_cases execTxnRetryTimeout tag dest s <;> exact Run.ends _
@[simp] theorem execCaptNotice_ends : Ends s (execCaptNotice s) := by fun_cases execCaptNotice s <;> exact Run.ends _
@[simp] theorem execCoincidenceWindowEnd_ends (n) : Ends s (execCoincidenceWindowEnd n s) := by
  fun_cases execCoincidenceWindowEnd n s <;> exact Run.ends _
@[simp] theorem execCaptRecordWrite_ends (n) : Ends s (execCaptRecordWrite n s) := by
  fun_cases execCaptRecordWrite n s <;> exact Run.ends _

/-! ### Ethernet -/

@[simp] theorem execEthTxDone_ends (n t) : Ends s (execEthTxDone n t s) := by fun_cases execEthTxDone n t s <;> exact Run.ends _
@[simp] theorem execGclEntry_ends (n) : Ends s (execGclEntry n s) := by fun_cases execGclEntry n s <;> exact Run.ends _

/-! ### Partner sessions -/

@[simp] theorem execEthRxFrame_ends (n d t) : Ends s (execEthRxFrame n d t s) := by
  fun_cases execEthRxFrame n d t s <;> exact Run.ends _
@[simp] theorem execPsTake_ends (ix) : Ends s (execPsTake ix s) := by fun_cases execPsTake ix s <;> exact Run.ends _
@[simp] theorem execPsSend_ends (ix) : Ends s (execPsSend ix s) := by fun_cases execPsSend ix s <;> exact Run.ends _

/-! ### CAN -/

@[simp] theorem execCanTxEnd_ends (n result tecAdd ts) : Ends s (execCanTxEnd n result tecAdd ts s) := by
  fun_cases execCanTxEnd n result tecAdd ts s <;> exact Run.ends _
@[simp] theorem execCanRecovered_ends (n) : Ends s (execCanRecovered n s) := by
  fun_cases execCanRecovered n s <;> exact Run.ends _
@[simp] theorem execCanRxFrame_ends (n id esi remote dlc data ts recAdd) : Ends s (execCanRxFrame n id esi remote dlc data ts recAdd s) := by
  fun_cases execCanRxFrame n id esi remote dlc data ts recAdd s <;> exact Run.ends _
@[simp] theorem execAbdCandidateEnd_ends (n) : Ends s (execAbdCandidateEnd n s) := by
  fun_cases execAbdCandidateEnd n s <;> exact Run.ends _

/-! ### CaptQ -/

@[simp] theorem execEpochWrap_ends : Ends s (execEpochWrap s) := by fun_cases execEpochWrap s <;> exact Run.ends _

/-! ### Chamois -/

@[simp] theorem execSafetyCycle_ends (ix) : Ends s (execSafetyCycle ix s) := by
  fun_cases execSafetyCycle ix s <;> exact Run.ends _
@[simp] theorem execOffPulse_ends (out k b low) : Ends s (execOffPulse out k b low s) :=
  .ite (Run.ends _) (.ite (.ite (Run.ends _) (Run.ends _)) (.ite (Run.ends _) (Run.ends _)))
@[simp] theorem execChamoisFreqWindow_ends (hz lenA lenB absent) : Ends s (execChamoisFreqWindow hz lenA lenB absent s) := by
  fun_cases execChamoisFreqWindow hz lenA lenB absent s <;> exact Run.ends _
@[simp] theorem execHeartbeatLoss_ends : Ends s (execHeartbeatLoss s) := by fun_cases execHeartbeatLoss s <;> exact Run.ends _
@[simp] theorem execChmSpsload_ends (id) : Ends s (execChmSpsload id s) := by fun_cases execChmSpsload id s <;> exact Run.ends _

/-! ### Bharal -/

@[simp] theorem execSafeHoldEntry_ends : Ends s (execSafeHoldEntry s) := by fun_cases execSafeHoldEntry s <;> exact Run.ends _
@[simp] theorem execSensorSample_ends (ix x) : Ends s (execSensorSample ix x s) := by
  fun_cases execSensorSample ix x s <;> exact Run.ends _
@[simp] theorem execHeartbeatSend_ends : Ends s (execHeartbeatSend s) := by fun_cases execHeartbeatSend s <;> exact Run.ends _
@[simp] theorem execLogRecordWrite_ends : Ends s (execLogRecordWrite s) := by fun_cases execLogRecordWrite s <;> exact Run.ends _
@[simp] theorem execBootDone_ends : Ends s (execBootDone s) := by fun_cases execBootDone s <;> exact Run.ends _
@[simp] theorem execLoadDone_ends (mismatch ddr) : Ends s (execLoadDone mismatch ddr s) :=
  .ite (Run.ends _) (.ite (Run.ends _) (Run.ends _))
@[simp] theorem execStartTimeout_ends : Ends s (execStartTimeout s) := by fun_cases execStartTimeout s <;> exact Run.ends _
@[simp] theorem execNonceExpiry_ends : Ends s (execNonceExpiry s) := by fun_cases execNonceExpiry s <;> exact Run.ends _

/-! ### Redundancy -/

@[simp] theorem execRedStateTake_ends (d) : Ends s (execRedStateTake d s) := by
  fun_cases execRedStateTake d s <;> exact Run.ends _
@[simp] theorem execDivergeMaskExpiry_ends (d) : Ends s (execDivergeMaskExpiry d s) := by
  fun_cases execDivergeMaskExpiry d s <;> exact Run.ends _

/-! ### Events -/

@[simp] theorem execEventLevelRise_ends (v) : Ends s (execEventLevelRise v s) := by
  fun_cases execEventLevelRise v s <;> exact Run.ends _

/-! ### Update campaigns -/

@[simp] theorem execAckTimeout_ends : Ends s (execAckTimeout s) := by fun_cases execAckTimeout s <;> exact Run.ends _
@[simp] theorem execDataTimeout_ends : Ends s (execDataTimeout s) := by fun_cases execDataTimeout s <;> exact Run.ends _
@[simp] theorem execBundleReceived_ends (failed) : Ends s (execBundleReceived failed s) := by
  fun_cases execBundleReceived failed s <;> exact Run.ends _
@[simp] theorem execCampaignTimeout_ends : Ends s (execCampaignTimeout s) := by
  fun_cases execCampaignTimeout s <;> exact Run.ends _
@[simp] theorem execInstallWriteEnd_ends (failed) : Ends s (execInstallWriteEnd failed s) := by
  fun_cases execInstallWriteEnd failed s <;> exact Run.ends _
end

/-! ## Every command, every step -/

/-- Every command ends as a run from the state it is given. -/
theorem exec_ends (c : Instr) (s : State) : Ends s (exec c s) := by
  cases c <;> simp [exec]
  -- the commands that do not branch
  all_goals exact Run.ends _

/-- Settles O3: the run that a command ends as leaves the queue. -/
theorem everyCommandCompletes : Obligations.EveryCommandCompletes := by
  intro c s
  obtain ⟨u, hu, hr⟩ := (exec_ends c s).next
  exact ⟨u, hu, hr.pending⟩

/-- The stores do not include the queue. -/
theorem inv_pending {s : State} (q : List Instr) (h : s.Inv) : ({ s with pending := q } : State).Inv := h

/-- Settles O4: a step is a run of primitive updates, none of which breaks the invariant. -/
theorem everyStepKeepsTheStores : Obligations.EveryStepKeepsTheStores := by
  intro s u hs hstep
  unfold step at hstep
  split at hstep
  case h_1 => exact (done_reach hstep).inv hs
  case h_2 c rest _ =>
    obtain ⟨v, hv, hr⟩ := (exec_ends c { s with pending := rest }).next
    obtain rfl : v = u := Host.Outcome.next.inj (hv.symm.trans hstep)
    exact hr.inv (inv_pending rest hs)

end Sys2Proof.Machine
end

section
/-!
PROOFS. Frames: which registers a part of a command writes and what else it leaves; the bits and fields of a register; the end
of an operation behind a part of a command.
-/
namespace Sys2Proof.Machine

/-! ## Registers and memory kept -/

theorem RegsKept.refl (s : State) (l : List Nat) : RegsKept s s l := fun _ _ => rfl

theorem RegsKept.trans {s t u : State} {l : List Nat} (h : RegsKept s t l) (g : RegsKept t u l) : RegsKept s u l :=
  fun a ha => (g a ha).trans (h a ha)

theorem RegsKept.mono {s t : State} {l m : List Nat} (h : RegsKept s t l) (hl : l ⊆ m) : RegsKept s t m :=
  fun a ha => h a fun hm => ha (hl hm)

theorem MemKept.refl (s : State) : MemKept s s := fun _ => rfl

theorem MemKept.trans {s t u : State} (h : MemKept s t) (g : MemKept t u) : MemKept s u := fun a => (g a).trans (h a)

/-- The second state differs from the first in registers of a list only. -/
def OnlyRegs (s u : State) (l : List Nat) : Prop := u = { s with regs := u.regs } ∧ RegsKept s u l

namespace OnlyRegs

variable {s t u : State} {l m : List Nat}

theorem refl (s : State) (l : List Nat) : OnlyRegs s s l := ⟨rfl, .refl s l⟩

theorem trans (h : OnlyRegs s t l) (g : OnlyRegs t u l) : OnlyRegs s u l := by
  refine ⟨?_, h.2.trans g.2⟩
  rw [g.1, h.1]

theorem mono (h : OnlyRegs s t l) (hl : l ⊆ m) : OnlyRegs s t m := ⟨h.1, h.2.mono hl⟩

theorem regsKept (h : OnlyRegs s u l) : RegsKept s u l := h.2

theorem memKept (h : OnlyRegs s u l) : MemKept s u := fun a => by rw [h.1]; rfl

theorem time (h : OnlyRegs s u l) : u.time = s.time := by rw [h.1]
theorem sp (h : OnlyRegs s u l) : u.sp = s.sp := by rw [h.1]
theorem mesh (h : OnlyRegs s u l) : u.mesh = s.mesh := by rw [h.1]
theorem motion (h : OnlyRegs s u l) : u.motion = s.motion := by rw [h.1]
theorem commits (h : OnlyRegs s u l) : u.commits = s.commits := by rw [h.1]
theorem latch (h : OnlyRegs s u l) : u.latch = s.latch := by rw [h.1]

theorem op (h : OnlyRegs s u l) (id : Nat) : u.op id = s.op id := by rw [h.1]; rfl

end OnlyRegs

/-- A register update changes one register. -/
theorem onlyRegs_reg (s : State) (a : Nat) (v : Word) : OnlyRegs s (Upd.apply s (.reg a v)) [a] :=
  ⟨rfl, fun _ hb => rget_reg_ne (List.ne_of_not_mem_cons hb) v⟩

variable {s₀ : State} (r : Run s₀)

theorem wr_onlyRegs (a v : Nat) : OnlyRegs r.s (r.wr a v).s [a] := onlyRegs_reg ..
theorem wf_onlyRegs (a hi lo x : Nat) : OnlyRegs r.s (r.wf a hi lo x).s [a] := onlyRegs_reg ..
theorem wb_onlyRegs (a i : Nat) (b : Bool) : OnlyRegs r.s (r.wb a i b).s [a] := onlyRegs_reg ..
theorem flag_onlyRegs (a i : Nat) : OnlyRegs r.s (r.flag a i).s [a] := onlyRegs_reg ..
theorem count_onlyRegs (a hi lo : Nat) : OnlyRegs r.s (r.count a hi lo).s [a] := onlyRegs_reg ..

/-! ## Bits and fields of a register -/

/-- Two words with the same bits in a field hold the same value there. -/
theorem bits_congr {v w hi lo : Nat} (h : ∀ i, lo ≤ i → i ≤ hi → bit v i = bit w i) : bits v hi lo = bits w hi lo := by
  refine Nat.eq_of_testBit_eq fun i => ?_
  rw [bits_testBit, bits_testBit, ← bit_testBit, ← bit_testBit]
  by_cases hi' : i < hi + 1 - lo
  · simp [hi', h (lo + i) (by omega) (by omega)]
  · simp [hi']

/-- A field reads what was set in it, within its width and the implemented bits. -/
theorem wf_rf_same {a hi lo : Nat} (h : lo ≤ hi) (h32 : hi < 32) (x : Nat)
    (hm : ∀ i, lo ≤ i → i ≤ hi → bit (implMask a).toNat i = true) : (r.wf a hi lo x).s.rf a hi lo = x % 2 ^ (hi + 1 - lo) := by
  refine Nat.eq_of_testBit_eq fun i => ?_
  rw [State.rf, fld, bits_testBit, Nat.testBit_mod_two_pow, ← bit_testBit, ← bit_testBit]
  by_cases hi' : i < hi + 1 - lo
  · have := wf_rb r (a := a) h x (lo + i)
    rw [State.rb] at this
    rw [this, hm (lo + i) (by omega) (by omega)]
    simp [hi', show lo + i < 32 by omega, show lo + i ≤ hi by omega]
  · simp [hi']

/-- A register has 32 bits (R6). -/
theorem rb_of_ge (s : State) (a : Nat) {i : Nat} (h : 32 ≤ i) : s.rb a i = false := by
  rw [State.rb, bit_testBit]
  exact Nat.testBit_lt_two_pow (lt_of_lt_of_le (s.rget a).isLt (Nat.pow_le_pow_right (by omega) h))

theorem rf_lt (s : State) (a hi lo : Nat) : s.rf a hi lo < 2 ^ (hi + 1 - lo) := Nat.mod_lt _ (Nat.two_pow_pos _)

/-- A bit outside the field that was set keeps its value, where no reserved bit was set. -/
theorem wf_rb_other {a hi lo i : Nat} (h : lo ≤ hi) (hi' : ¬(lo ≤ i ∧ i ≤ hi)) (x : Nat)
    (hm : bit (implMask a).toNat i = false → r.s.rb a i = false) : (r.wf a hi lo x).s.rb a i = r.s.rb a i := by
  rw [wf_rb r h, if_neg hi']
  by_cases h32 : i < 32
  · cases hb : bit (implMask a).toNat i
    · simp [hm hb]
    · simp [h32]
  · simp [h32, rb_of_ge r.s a (not_lt.1 h32)]

/-- A field apart from the one that was set keeps its value. -/
theorem wf_rf_other {a hi lo hi' lo' : Nat} (h : lo ≤ hi) (hd : hi < lo' ∨ hi' < lo) (x : Nat)
    (hm : ∀ i, lo' ≤ i → i ≤ hi' → bit (implMask a).toNat i = true) :
    (r.wf a hi lo x).s.rf a hi' lo' = r.s.rf a hi' lo' :=
  bits_congr fun i h₁ h₂ => wf_rb_other r h (by omega) x fun hf => by simp [hm i h₁ h₂] at hf

theorem wb_rb {a i : Nat} (hi : i < 32) (hm : bit (implMask a).toNat i = true) (b : Bool) : (r.wb a i b).s.rb a i = b := by
  rw [Run.wb, wf_rb r (le_refl i), hm]
  cases b <;> simp [hi, b2n, bit]

/-- A register holds its reset value or is listed. -/
theorem rget_reset_or_mem (s : State) (a : Nat) : s.rget a = resetOf a ∨ (a, s.rget a) ∈ s.regs := by
  have go : ∀ l : Tbl Word, tget (resetOf a) a l = resetOf a ∨ (a, tget (resetOf a) a l) ∈ l := by
    intro l
    induction l with
    | nil => exact .inl rfl
    | cons e l ih =>
      obtain ⟨j, w⟩ := e
      by_cases hj : j = a
      · subst hj; simp [tget]
      · simp only [tget, if_neg hj]
        exact ih.imp_right (List.mem_cons_of_mem _)
  exact go s.regs

/-- In a state whose stores are in order no register has a reserved bit set, if its reset value has none (R5). -/
theorem Inv.reserved {s : State} (h : s.Inv) {a : Nat} (hr : resetOf a &&& ~~~implMask a = 0) : s.rget a &&& ~~~implMask a = 0 := by
  rcases rget_reset_or_mem s a with he | he
  · rw [he, hr]
  · exact h.2.2 _ he

theorem Inv.reserved_bit {s : State} (h : s.Inv) {a i : Nat} (hr : resetOf a &&& ~~~implMask a = 0)
    (hm : bit (implMask a).toNat i = false) : s.rb a i = false := by
  by_cases hi : i < 32
  · have h0 : (s.rget a &&& ~~~implMask a).getLsbD i = false := by rw [Inv.reserved h hr]; simp
    rw [bit_testBit] at hm
    rw [BitVec.getLsbD_and, BitVec.getLsbD_not, show (implMask a).getLsbD i = false from hm] at h0
    rw [State.rb, bit_testBit]
    show (s.rget a).getLsbD i = false
    simpa [hi] using h0
  · exact rb_of_ge s a (not_lt.1 hi)

/-- A register whose bits another register implements too keeps its value in it. -/
theorem Inv.masked {s : State} (h : s.Inv) {a b : Nat} (hr : resetOf a &&& ~~~implMask a = 0)
    (hm : implMask a &&& ~~~implMask b = 0) : s.rget a &&& implMask b = s.rget a := by
  have h0 := Inv.reserved h hr
  ext i hi
  have h₁ := congrArg (fun w : Word => w.getLsbD i) h0
  have h₂ := congrArg (fun w : Word => w.getLsbD i) hm
  simp [hi] at h₁ h₂ ⊢
  tauto

/-! ## Ends of operations -/

/-- A command that ends as a run answers what holds of the run's state. -/
theorem Run.answers {s : State} {c : Instr} (r : Run s) (hc : exec c s = r.done) {P : State → Prop} (h : P r.s) : Answers c s P :=
  ⟨r.s, hc, h⟩

theorem Answers.imp {s : State} {c : Instr} {P Q : State → Prop} (h : Answers c s P) (hPQ : ∀ u, P u → Q u) : Answers c s Q :=
  Exists.imp (fun u hu => ⟨hu.1, hPQ u hu.2⟩) h

theorem okSt_untimed {o : Op} (h : o.time = none) : o.okSt = .ok := by simp [Op.okSt, h]

/-- A part of a command, and then the end of its operation: what the part keeps, the whole keeps. -/
theorem opEnd_after {q : Run s₀} {o : Op} {l : List Nat} (ho : q.s.op o.id = some o) (hops : OpsKept r.s q.s o.id)
    (hm : MemKept r.s q.s) (hr : RegsKept r.s q.s l) (st : Status) (cause stamp : Nat) (res : List Byte) (uflags : Nat) :
    OpEnded (q.opEnd o st cause stamp res uflags).s o.id st res ∧ OpsKept r.s (q.opEnd o st cause stamp res uflags).s o.id ∧
      MemKept r.s (q.opEnd o st cause stamp res uflags).s ∧ RegsKept r.s (q.opEnd o st cause stamp res uflags).s l := by
  obtain ⟨⟨hm', hr', ho'⟩, he⟩ := opEnd_ended q ho st cause stamp res uflags
  exact ⟨he, fun j hj => (ho' j hj).trans (hops j hj), hm.trans hm', hr.trans (hr'.mono (List.nil_subset _))⟩

end Sys2Proof.Machine
end

section
/-!
PROOFS. The state after reset, and the release of power-on reset (O2).
-/
namespace Sys2Proof.Machine

variable {s₀ : State} (r : Run s₀)

/-! ## What the parts of BOOT leave once it has been entered -/

/-- The registers that the parts of BOOT write. -/
def bootRegs : List Nat := [Reg.bhrLogLost, Reg.bhrStat, Reg.bhrEvstat, Reg.pwrStat, Reg.pwrEvstat]

/-- The node and power state and every register but those of BOOT are kept. -/
structure BootKept (s u : State) : Prop where
  regs : RegsKept s u bootRegs
  pwr : u.pwr = s.pwr
  node : u.node = s.node

namespace BootKept

theorem trans {s t u : State} (h : BootKept s t) (g : BootKept t u) : BootKept s u :=
  ⟨h.regs.trans g.regs, g.pwr.trans h.pwr, g.node.trans h.node⟩

/-- An update of a register of BOOT apart from BHR_STAT leaves the node state. -/
theorem reg (s : State) (a : Nat) (v : Word) (h : a ∈ bootRegs ∧ a ≠ Reg.bhrStat) :
    BootKept s (Upd.apply s (.reg a v)) := by
  refine ⟨(onlyRegs_reg s a v).regsKept.mono (List.cons_subset.2 ⟨h.1, List.nil_subset _⟩), rfl, ?_⟩
  rw [State.node, State.node, State.rf, rget_reg_ne h.2.symm, State.rf]

/-- So does an update of a bit of BHR_STAT below its code of the node state. -/
theorem bhrStat {i : Nat} (hi : i < 29) (b : Bool) : BootKept r.s (r.wb Reg.bhrStat i b).s := by
  refine ⟨(wb_onlyRegs r _ _ _).regsKept.mono (by decide), rfl, ?_⟩
  rw [State.node, State.node, Run.wb, wf_rf_other r (le_refl i) (.inl hi) _ (by decide +kernel)]

/-- Queueing a record changes the register of lost records at most. -/
theorem log (kind sev : Nat) (data : List Nat) : BootKept r.s (r.log kind sev data).s := by
  fun_cases Run.log r kind sev data
  next b _ =>
    have hup : BootKept r.s (r.up (.bhr { b with logLost := b.logLost + 1 })).s := ⟨.refl r.s _, rfl, rfl⟩
    exact hup.trans (reg _ Reg.bhrLogLost _ (by decide))
  · exact ⟨.refl r.s _, rfl, rfl⟩

/-- The check of the calibration set. -/
theorem calJudge : BootKept r.s r.calJudge.s := by
  have hread : BootKept r.s r.calRead.1.s := ⟨.refl r.s _, rfl, rfl⟩
  fun_cases Run.calJudge r
  next q d h _ _ =>
    rw [h] at hread
    exact hread.trans (bhrStat q (i := 28) (by decide) true)
  next q d h _ _ =>
    rw [h] at hread
    have hflag : BootKept (q.wb Reg.bhrStat 28 false).s ((q.wb Reg.bhrStat 28 false).flag Reg.bhrEvstat 3).s :=
      reg _ Reg.bhrEvstat _ (by decide)
    exact ((hread.trans (bhrStat q (i := 28) (by decide) false)).trans hflag).trans (log _ _ _ _)

/-- The record of a power failure. -/
theorem pfRecord : BootKept r.s r.pfRecord.s := by
  fun_cases Run.pfRecord r
  · exact (log r _ _ _).trans (reg _ Reg.pwrStat _ (by decide))
  · exact ⟨.refl r.s _, rfl, rfl⟩

end BootKept

/-! ## The start of BOOT -/

/-- Entering BOOT: a record, and the code of BOOT in BHR_STAT. -/
theorem nodeTo_boot (c : NodeCause) :
    ∃ data m, r.nodeTo .boot c = ((r.log 0x0001 0 data).wf Reg.bhrStat 31 29 0).up (.motion m) := ⟨_, _, rfl⟩

theorem nodeTo_boot_node (c : NodeCause) : (r.nodeTo .boot c).s.node = .boot ∧
    (r.nodeTo .boot c).s.pwr = r.s.pwr ∧ (r.nodeTo .boot c).s.rget Reg.rstCause = r.s.rget Reg.rstCause := by
  obtain ⟨data, m, h⟩ := nodeTo_boot r c
  have hl := BootKept.log r 0x0001 0 data
  have hf : ((r.log 1 0 data).wf Reg.bhrStat 31 29 0).s.rf Reg.bhrStat 31 29 = 0 :=
    wf_rf_same _ (by decide) (by decide) 0 (by decide +kernel)
  rw [h]
  refine ⟨?_, hl.pwr, ?_⟩
  · show NodeState.ofCode (((r.log 1 0 data).wf Reg.bhrStat 31 29 0).s.rf Reg.bhrStat 31 29) = .boot
    rw [hf]; rfl
  · exact (wf_other (r.log 1 0 data) (by decide) 31 29 0).trans (hl.regs _ (by decide))

/-- What BOOT does before it is entered: the salt is drawn, the processors' cycle begins, the PLLs are locked. -/
def Run.bootPrep (r : Run s₀) : Run s₀ :=
  let r := r.up (.sig { r.s.sig with salt := Config.salt r.s.pwr.salts })
  let r := (r.mapPwr fun p => { p with salts := p.salts + 1 }).mapSp fun p => { p with cyc0 := r.s.cyc }
  (r.wf Reg.clkStat 5 0 0x3F).wb Reg.timeStat 31 true

theorem bootStart_eq (c : NodeCause) : r.bootStart c = (r.bootPrep.nodeTo .boot c).calJudge.pfRecord := rfl

theorem bootPrep_inReset : r.bootPrep.s.inReset = r.s.inReset := by simp [Run.bootPrep, State.inReset, Run.mapPwr]

theorem bootPrep_rstCause : r.bootPrep.s.rget Reg.rstCause = r.s.rget Reg.rstCause := by
  rw [Run.bootPrep, wb_s, rget_reg_ne (by decide), wf_s, rget_reg_ne (by decide)]
  simp [Run.mapPwr]

/-- BOOT starts: the node is in BOOT, and nothing of the reset state and its cause is changed. -/
theorem bootStart_node (c : NodeCause) : (r.bootStart c).s.node = .boot ∧
    (r.bootStart c).s.inReset = r.s.inReset ∧ (r.bootStart c).s.rget Reg.rstCause = r.s.rget Reg.rstCause := by
  obtain ⟨hnode, hp, hc⟩ := nodeTo_boot_node r.bootPrep c
  have hk := (BootKept.calJudge (r.bootPrep.nodeTo .boot c)).trans (BootKept.pfRecord _)
  rw [bootStart_eq]
  refine ⟨hk.node.trans hnode, ?_, (hk.regs _ (by decide)).trans (hc.trans (bootPrep_rstCause r))⟩
  rw [← bootPrep_inReset r, State.inReset, State.inReset, hk.pwr, hp]

/-! ## The release of power-on reset -/

/-- What POR_RELEASE records before BOOT starts. -/
def Run.porPrep (r : Run s₀) (low : Nat) (xbat pfailN : Bool) : Run s₀ :=
  let r := r.mapPwr fun p => { p with por := false, bkpLost := false, xbatAt := s₀.cyc }
  let r := (r.wr Reg.pinBank low).wr Reg.clkStat (b2n xbat <<< 8)
  let r := (r.wr Reg.rstCause (1 <<< 8)).wb Reg.pwrStat 29 pfailN
  r.mapBhr fun b => { b with pcyc := b.pcyc + 1, opAt := s₀.cyc }

theorem execPorRelease_por (low : Nat) (xbat pf : Bool) {s : State} (h : s.pwr.por = true) : execPorRelease low xbat pf s =
    (let r := ((Run.start s).porPrep low xbat pf).bootStart .powerOn
     if s.pwr.bkpLost then (r.flag Reg.pwrEvstat 4).log 0x000E 1 [] else r).done := by
  rw [execPorRelease, h]; rfl

theorem porPrep_inReset (low : Nat) (xbat pf : Bool) (h : r.s.pwr.coldUntil = none) :
    (r.porPrep low xbat pf).s.inReset = false := by
  simp [Run.porPrep, State.inReset, Run.mapPwr, Run.mapBhr, h]

theorem porPrep_rstCause (low : Nat) (xbat pf : Bool) : (r.porPrep low xbat pf).s.rget Reg.rstCause = 0x100 := by
  have hm : BitVec.ofNat 32 (1 <<< 8) &&& implMask Reg.rstCause = 0x100 := by decide +kernel
  simp only [Run.porPrep, Run.mapBhr, up_s, wb_s, wr_s]
  rw [rget_other (by simp) (by simp) (by simp), rget_reg_ne (by decide), rget_reg_same, hm]

/-- POR_RELEASE under power-on reset without a cold reset to come: BOOT with the cause of power-on. -/
theorem porRelease_boot (low : Nat) (xbat pf : Bool) {s : State} (hpor : s.pwr.por = true) (hcold : s.pwr.coldUntil = none) :
    Answers (.porRelease low xbat pf) s fun u => u.node = .boot ∧ u.inReset = false ∧ (u.rget Reg.rstCause).toNat = 0x100 := by
  refine ⟨_, execPorRelease_por low xbat pf hpor, ?_⟩
  obtain ⟨hnode, hin, hc⟩ := bootStart_node ((Run.start s).porPrep low xbat pf) .powerOn
  rw [porPrep_inReset _ low xbat pf hcold] at hin
  rw [porPrep_rstCause] at hc
  generalize ((Run.start s).porPrep low xbat pf).bootStart .powerOn = q at *
  have hend : ∀ u, BootKept q.s u → u.node = .boot ∧ u.inReset = false ∧ (u.rget Reg.rstCause).toNat = 0x100 := by
    intro u hk
    refine ⟨hk.node.trans hnode, ?_, ?_⟩
    · rw [State.inReset, hk.pwr, ← State.inReset, hin]
    · rw [hk.regs _ (by decide), hc]; rfl
  dsimp only
  split
  · exact hend _ ((BootKept.reg _ Reg.pwrEvstat _ (by decide)).trans (BootKept.log (q.flag Reg.pwrEvstat 4) _ _ _))
  · exact hend _ ⟨.refl _ _, rfl, rfl⟩

/-- Settles O2: the fields at reset by evaluation, the release of power-on reset by `porRelease_boot`. -/
theorem resetState : Obligations.ResetState := by
  refine ⟨⟨rfl, rfl, fun _ h => absurd h List.not_mem_nil⟩, rfl, fun _ => rfl, rfl, rfl, rfl, ?_, ?_, ?_, ?_, ?_, ?_⟩
  · decide +kernel
  · decide +kernel
  · decide +kernel
  · decide +kernel
  · decide +kernel
  · exact fun low xbat pf => porRelease_boot low xbat pf rfl rfl

end Sys2Proof.Machine
end

section
/-!
PROOFS. Numbers as little-endian bytes, and back from a record; signed numbers of a width.
-/
namespace Sys2Proof.Machine

@[simp] theorem bytesLE_length (n v : Nat) : (bytesLE n v).length = n := by
  induction n generalizing v with
  | zero => rfl
  | succ n ih => simp [bytesLE, ih]

/-- Bytes spell the number they were made of, within their width. -/
theorem ofBytesLE_bytesLE (n v : Nat) : ofBytesLE (bytesLE n v) = v % 256 ^ n := by
  induction n generalizing v with
  | zero => simp [bytesLE, ofBytesLE, Nat.mod_one]
  | succ n ih =>
    have h : v % 256 ^ (n + 1) = v % 256 + 256 * (v / 256 % 256 ^ n) := by rw [pow_succ', Nat.mod_mul]
    rw [bytesLE, ofBytesLE, ih, BitVec.toNat_ofNat, h]

/-- The first field of a record. -/
theorem recNat_bytesLE (n v : Nat) (l : List Byte) : recNat (bytesLE n v ++ l) 0 n = v % 256 ^ n := by
  rw [recNat, List.drop_zero, List.take_left' (bytesLE_length n v), ofBytesLE_bytesLE]

/-- A field of a record behind its first bytes. -/
theorem recNat_append {l : List Byte} {k : Nat} (h : l.length = k) (m : List Byte) (off n : Nat) :
    recNat (l ++ m) (k + off) n = recNat m off n := by
  rw [recNat, recNat, List.drop_append, h, List.drop_eq_nil_of_le (by omega)]
  simp

@[simp] theorem wordsLE_length (l : List Nat) : (wordsLE l).length = 4 * l.length := by
  induction l with
  | nil => rfl
  | cons v l ih =>
    have : wordsLE (v :: l) = bytesLE 4 v ++ wordsLE l := rfl
    rw [this, List.length_append, ih, bytesLE_length, List.length_cons]; omega

/-- A word of a record of words. -/
theorem recNat_wordsLE {l : List Nat} {i : Nat} (h : i < l.length) : recNat (wordsLE l) (4 * i) 4 = l[i] % 2 ^ 32 := by
  induction l generalizing i with
  | nil => simp at h
  | cons v l ih =>
    have hc : wordsLE (v :: l) = bytesLE 4 v ++ wordsLE l := rfl
    cases i with
    | zero => rw [hc, Nat.mul_zero, recNat_bytesLE]; rfl
    | succ i =>
      rw [hc, Nat.mul_succ, Nat.add_comm, recNat_append (bytesLE_length 4 v)]
      exact ih (by simpa using h)

/-- One register word as four bytes and back. -/
theorem recNat_word (w : Word) : recNat (bytesLE 4 w.toNat) 0 4 = w.toNat := by
  have h := recNat_bytesLE 4 w.toNat []
  rw [List.append_nil] at h
  rw [h]; exact Nat.mod_eq_of_lt w.isLt

/-- A signed number of a width is found again in its two's complement. -/
theorem sInt_uNat_sInt (n v : Nat) : sInt n (uNat n (sInt n v)) = sInt n v := by
  have hpos : (0 : Int) < ((2 ^ n : Nat) : Int) := by positivity
  have hx : ((v % 2 ^ n : Nat) : Int) < ((2 ^ n : Nat) : Int) := by exact_mod_cast Nat.mod_lt _ (by positivity)
  have hmod : uNat n (sInt n v) % 2 ^ n = v % 2 ^ n := by
    have : uNat n (sInt n v) = v % 2 ^ n := by
      unfold uNat sInt
      dsimp only
      split
      · rw [Int.emod_eq_of_lt (by positivity) hx, Int.toNat_natCast]
      · rw [Int.sub_emod_right, Int.emod_eq_of_lt (by positivity) hx, Int.toNat_natCast]
    rw [this, Nat.mod_mod]
  unfold sInt at hmod ⊢
  rw [hmod]

end Sys2Proof.Machine
end

section
/-!
PROOFS. The operations ENABLE, SETPOS and STATUS of the AXIS unit (O41).
-/
namespace Sys2Proof.Machine

variable {s₀ : State} (r : Run s₀)

/-! ## What AXIS takes -/

/-- The operation, ENABLE or SETPOS, may be carried out. -/
def State.axMay (s : State) (o : Op) : Bool := if o.code = 2 then s.axMayEnable o.obj else s.axMaySetpos o.obj

theorem axMayEnable_iff (s : State) (n : Nat) : s.axMayEnable n = true ↔
    s.axMode n ≠ 0 ∧ (s.node = .normal ∨ s.node = .test) ∧ s.rb (Reg.axStat n) 29 = false := by
  simp [State.axMayEnable, and_assoc]

theorem axMayEnable_eq_false (s : State) (n : Nat) : s.axMayEnable n = false ↔
    s.axMode n = 0 ∨ (s.node ≠ .normal ∧ s.node ≠ .test) ∨ s.rb (Reg.axStat n) 29 = true := by
  rw [← Bool.not_eq_true, axMayEnable_iff, ← Bool.not_eq_true (s.rb _ _)]
  tauto

theorem axMaySetpos_iff (s : State) (n : Nat) : s.axMaySetpos n = true ↔
    s.rb (Reg.axStat n) 24 = true ∧ s.rb (Reg.axStat n) 27 = false ∧ s.rb (Reg.axStat n) 26 = false := by
  simp [State.axMaySetpos, and_assoc]

theorem axMaySetpos_eq_false (s : State) (n : Nat) : s.axMaySetpos n = false ↔
    s.rb (Reg.axStat n) 24 = false ∨ s.rb (Reg.axStat n) 27 = true ∨ s.rb (Reg.axStat n) 26 = true := by
  rw [← Bool.not_eq_true, axMaySetpos_iff, ← Bool.not_eq_true (s.rb _ 27), ← Bool.not_eq_true (s.rb _ 26), ← Bool.not_eq_true (s.rb _ 24)]
  tauto

variable {o : Op}

theorem axTake_refused (h : r.s.axMay o = false) : r.axTake o = r.axFin o .refused r.s.now := by
  rw [State.axMay] at h
  simp [Run.axTake, h]

theorem axTake_running (h : r.s.axMay o = true) (hrun : (r.s.grid (r.s.axGrid o.obj)).running = true) :
    r.axTake o = r.opTaken o := by
  rw [State.axMay] at h
  simp [Run.axTake, h, hrun]

theorem axTake_now (h : r.s.axMay o = true) (hrun : (r.s.grid (r.s.axGrid o.obj)).running = false) (ht : o.time = none) :
    r.axTake o = r.axAct o r.s.now := by
  rw [State.axMay] at h
  simp [Run.axTake, h, hrun, ht]

/-- A refused operation ends REFUSED, and nothing else happens. -/
theorem axTake_refused_ends (ho : r.s.op o.id = some o) (h : r.s.axMay o = false) :
    OnlyOp r.s (r.axTake o).s o.id ∧ OpEnded (r.axTake o).s o.id .refused [] ∧ (r.axTake o).s.motion = r.s.motion := by
  obtain ⟨h₁, h₂⟩ := opEnd_ended r ho .refused 0 r.s.now [] 0
  rw [axTake_refused r h]
  exact ⟨h₁, h₂, rfl⟩

/-- An admissible operation is taken for the boundary of a grid that runs. -/
theorem axTake_running_taken (ho : r.s.op o.id = some o) (h : r.s.axMay o = true)
    (hrun : (r.s.grid (r.s.axGrid o.obj)).running = true) :
    OnlyOp r.s (r.axTake o).s o.id ∧ OpTaken r.s (r.axTake o).s o := by
  rw [axTake_running r h hrun]
  exact opTaken_taken r ho

/-! ## ENABLE at once -/

theorem implMask_axCtrl {n : Nat} (h : n < 48) : bit (implMask (Reg.axCtrl n)).toNat 0 = true := by
  have : ∀ n < 48, bit (implMask (Reg.axCtrl n)).toNat 0 = true := by decide +kernel
  exact this n h

/-- Setting `out_en` writes the bit, and marks the axis in TEST only (R275). -/
theorem setOutEn_s (n : Nat) (on : Bool) : ∃ m, (r.setOutEn n on).s = { (r.wb (Reg.axCtrl n) 0 on).s with motion := m } ∧
    (r.s.node ≠ .test → m = r.s.motion) := by
  have hnode : (r.wb (Reg.axCtrl n) 0 on).s.node = r.s.node := by
    rw [State.node, State.node, State.rf, wb_s, rget_reg_ne (by unfold Reg.axCtrl Reg.bhrStat; omega), State.rf]
  fun_cases Run.setOutEn r n on
  next q h => exact ⟨_, rfl, fun hne => absurd (hnode.symm.trans h) hne⟩
  next q h => exact ⟨_, rfl, fun _ => rfl⟩

theorem enable_now (ho : r.s.op o.id = some o) (hn : o.obj < 48) (hc : o.code = 2) (ht : o.time = none)
    (hmay : r.s.axMayEnable o.obj = true) (k : Nat) :
    let u := (r.axAct o k).s
    OpEnded u o.id .ok [] ∧ OpsKept r.s u o.id ∧ MemKept r.s u ∧ RegsKept r.s u [Reg.axCtrl o.obj] ∧
      u.rb (Reg.axCtrl o.obj) 0 = bit (recNat o.payload 0 1) 0 ∧ (r.s.node = .normal → u.motion = r.s.motion) := by
  have hact : r.axAct o k = (r.setOutEn o.obj (bit (recNat o.payload 0 1) 0)).axFin o o.okSt k := by
    simp [Run.axAct, hc, hmay]
  obtain ⟨m, hs, hm⟩ := setOutEn_s r o.obj (bit (recNat o.payload 0 1) 0)
  have hw := wb_onlyRegs r (Reg.axCtrl o.obj) 0 (bit (recNat o.payload 0 1) 0)
  have hb := wb_rb r (i := 0) (by decide) (implMask_axCtrl hn) (bit (recNat o.payload 0 1) 0)
  generalize r.setOutEn o.obj (bit (recNat o.payload 0 1) 0) = q at hact hs
  generalize (r.wb (Reg.axCtrl o.obj) 0 (bit (recNat o.payload 0 1) 0)).s = w at hs hw hb
  have hop : ∀ j, q.s.op j = r.s.op j := fun j => by rw [hs]; exact hw.op j
  obtain ⟨h₁, h₂, h₃, h₄⟩ := opEnd_after r (q := q) (l := [Reg.axCtrl o.obj]) ((hop _).trans ho) (fun j _ => hop j)
    (fun a => by rw [hs]; exact hw.memKept a) (fun a ha => by rw [hs]; exact hw.regsKept a ha) o.okSt 0 k [] 0
  rw [hact, Run.axFin]
  refine ⟨okSt_untimed ht ▸ h₁, h₂, h₃, h₄, ?_, fun hnode => ?_⟩
  · show q.s.rb _ 0 = _
    rw [hs]; exact hb
  · show q.s.motion = _
    rw [hs]; exact hm (by rw [hnode]; decide)

/-! ## SETPOS at once -/

theorem axStat_masks {n : Nat} (h : n < 48) : bit (implMask (Reg.axStat n)).toNat 25 = true ∧ resetOf (Reg.axStat n) = 0 := by
  have : ∀ n < 48, bit (implMask (Reg.axStat n)).toNat 25 = true ∧ resetOf (Reg.axStat n) = 0 := by decide +kernel
  exact this n h

/-- In mode STEP the position of the axis is set, and `poslost` cleared. -/
theorem setPos_step (n : Nat) (p : Int) (h : r.s.axMode n = 2) :
    ∃ x : Axis, x.pos = wrap48 p ∧ r.setPos n p = (r.setAx n x).wb (Reg.axStat n) 25 false := by
  refine ⟨{ r.s.ax n with pos := wrap48 p, leAnchor := wrap48 p, leNum := 0, leAt := r.s.cyc / 4 }, rfl, ?_⟩
  simp [Run.setPos, h]

theorem setAx_same (n : Nat) (x : Axis) : (r.setAx n x).s.ax n = x := by simp [State.ax, Run.setAx]

theorem setAx_ne {n j : Nat} (h : j ≠ n) (x : Axis) : (r.setAx n x).s.ax j = r.s.ax j := by
  simp [State.ax, Run.setAx, tget_tset_ne _ _ h]

@[simp] theorem setAx_rget (n : Nat) (x : Axis) (a : Nat) : (r.setAx n x).s.rget a = r.s.rget a := rget_other (by simp) (by simp) (by simp) a

@[simp] theorem setAx_rb (n : Nat) (x : Axis) (a i : Nat) : (r.setAx n x).s.rb a i = r.s.rb a i := by simp [State.rb]

/-- SETPOS of an axis in mode STEP sets P, sign extended, clears `poslost`, and leaves the rest (R301). -/
theorem setpos_now (hinv : r.s.Inv) (ho : r.s.op o.id = some o) (hn : o.obj < 48) (hc : o.code = 4) (ht : o.time = none)
    (hmay : r.s.axMaySetpos o.obj = true) (hmode : r.s.axMode o.obj = 2) (k : Nat) :
    let u := (r.axAct o k).s
    OpEnded u o.id .ok [] ∧ OpsKept r.s u o.id ∧ MemKept r.s u ∧ RegsKept r.s u [Reg.axStat o.obj] ∧
      u.rb (Reg.axStat o.obj) 25 = false ∧ (∀ i, i ≠ 25 → u.rb (Reg.axStat o.obj) i = r.s.rb (Reg.axStat o.obj) i) ∧
      (u.ax o.obj).pos = sInt 48 (recNat o.payload 0 8) ∧ ∀ j, j ≠ o.obj → u.ax j = r.s.ax j := by
  have hact : r.axAct o k = (r.setPos o.obj (sInt 48 (recNat o.payload 0 8))).axFin o o.okSt k := by
    simp [Run.axAct, hc, hmay]
  obtain ⟨x, hpos, hset⟩ := setPos_step r o.obj (sInt 48 (recNat o.payload 0 8)) hmode
  obtain ⟨hm, h0⟩ := axStat_masks hn
  rw [hact, hset]
  have hw := wb_onlyRegs (r.setAx o.obj x) (Reg.axStat o.obj) 25 false
  have hb := wb_rb (r.setAx o.obj x) (i := 25) (by decide) hm false
  have hrest (i : Nat) (hi : i ≠ 25) := wf_rb_other (r.setAx o.obj x) (a := Reg.axStat o.obj) (le_refl 25) (i := i) (by omega) (b2n false)
    fun hf => (setAx_rb ..).trans (Inv.reserved_bit hinv (by simp [h0]) hf)
  have hax (j : Nat) : ((r.setAx o.obj x).wb (Reg.axStat o.obj) 25 false).s.ax j = (r.setAx o.obj x).s.ax j := by
    rw [State.ax, hw.motion, State.ax]
  obtain ⟨h₁, h₂, h₃, h₄⟩ := opEnd_after r (q := (r.setAx o.obj x).wb (Reg.axStat o.obj) 25 false) (l := [Reg.axStat o.obj])
    ho (fun _ _ => rfl) hw.memKept (fun a ha => (hw.regsKept a ha).trans (setAx_rget ..)) o.okSt 0 k [] 0
  refine ⟨okSt_untimed ht ▸ h₁, h₂, h₃, h₄, hb, fun i hi => (hrest i hi).trans (setAx_rb ..), ?_, fun j hj => ?_⟩
  · exact (congrArg Axis.pos ((hax _).trans (setAx_same ..))).trans (hpos.trans (sInt_uNat_sInt 48 _))
  · exact (hax j).trans (setAx_ne r hj x)

/-! ## STATUS -/

theorem axStatReg_lt (s : State) (n : Nat) : s.axStatReg n < 2 ^ 32 := by
  have h := rf_lt s (Reg.axStat n) 29 24
  have hb (b : Bool) : b2n b ≤ 1 := by cases b <;> decide
  have h₁ := hb (s.axOn n)
  have h₂ := hb (s.stoActive n)
  have h₃ := hb (s.axReady n)
  unfold State.axStatReg
  generalize s.rf (Reg.axStat n) 29 24 = a, b2n (s.axOn n) = b, b2n (s.stoActive n) = c, b2n (s.axReady n) = d at *
  simp only [Nat.shiftLeft_eq]
  omega

/-- The 36 bytes of STATUS: AXn_STAT, P, the count, F0 to F3 and AXn_ERRCNT. -/
def axStatusBytes (s : State) (n : Nat) : List Byte :=
  bytesLE 4 (s.axStatReg n) ++ (bytesLE 8 (uNat 64 (s.ax n).pos) ++ wordsLE ([(s.rget (Reg.axEnc n)).toNat] ++
    ((List.range 4).map fun i => (s.rget (Reg.axF n i)).toNat) ++ [(s.rget (Reg.axErrcnt n)).toNat]))

theorem axStatusBytes_length (s : State) (n : Nat) : (axStatusBytes s n).length = 36 := by
  simp [axStatusBytes]

/-- The six words behind AXn_STAT and P. -/
theorem axStatusBytes_word (s : State) (n i : Nat) (v : Word) (hv : ([(s.rget (Reg.axEnc n)).toNat] ++
    ((List.range 4).map fun i => (s.rget (Reg.axF n i)).toNat) ++ [(s.rget (Reg.axErrcnt n)).toNat])[i]? = some v.toNat) :
    recNat (axStatusBytes s n) (12 + 4 * i) 4 = v.toNat := by
  obtain ⟨hi, he⟩ := List.getElem?_eq_some_iff.1 hv
  have h8 := recNat_append (bytesLE_length 8 (uNat 64 (s.ax n).pos))
  rw [axStatusBytes, show 12 + 4 * i = 4 + (8 + 4 * i) by omega, recNat_append (bytesLE_length 4 _), h8, recNat_wordsLE hi, he]
  exact Nat.mod_eq_of_lt v.isLt

theorem axStatusBytes_fields (s : State) (n : Nat) : recNat (axStatusBytes s n) 0 4 = s.axStatReg n ∧
    sInt 64 (recNat (axStatusBytes s n) 4 8) = sInt 64 (uNat 64 (s.ax n).pos) ∧
    recNat (axStatusBytes s n) 12 4 = (s.rget (Reg.axEnc n)).toNat ∧
    (∀ i, i < 4 → recNat (axStatusBytes s n) (16 + 4 * i) 4 = (s.rget (Reg.axF n i)).toNat) ∧
    recNat (axStatusBytes s n) 32 4 = (s.rget (Reg.axErrcnt n)).toNat := by
  refine ⟨?_, ?_, axStatusBytes_word s n 0 _ rfl, fun i hi => ?_, axStatusBytes_word s n 5 _ rfl⟩
  · rw [axStatusBytes, recNat_bytesLE]
    exact Nat.mod_eq_of_lt (axStatReg_lt s n)
  · rw [axStatusBytes, show 4 = 4 + 0 from rfl, recNat_append (bytesLE_length 4 _), recNat_bytesLE]
    simp [sInt]
  · rw [show 16 + 4 * i = 12 + 4 * (i + 1) by omega]
    refine axStatusBytes_word s n (i + 1) _ ?_
    interval_cases i <;> rfl

/-! ## The obligation -/

theorem axMay_enable (s : State) (h : o.code = 2) : s.axMay o = s.axMayEnable o.obj := by simp [State.axMay, h]
theorem axMay_setpos (s : State) (h : o.code = 4) : s.axMay o = s.axMaySetpos o.obj := by simp [State.axMay, h]

theorem exec_axisEnable {s : State} (h : OpTakes s o 1 2) : exec (.axisEnable o.id) s = ((Run.start s).axTake o).done :=
  congrArg Run.done (opTakeFree_takes (Run.start s) Run.axTake h)

theorem exec_axisSetpos {s : State} (h : OpTakes s o 1 4) : exec (.axisSetpos o.id) s = ((Run.start s).axTake o).done :=
  congrArg Run.done (opTakeFree_takes (Run.start s) Run.axTake h)

theorem exec_axisStatus {s : State} (h : OpMay s o 1 5) : exec (.axisStatus o.id) s =
    ((Run.start s).opFin o o.okSt 0 (axStatusBytes s o.obj)).done := by
  refine (congrArg Run.done (opRow_may (Run.start s) Run.actAxStatus h)).trans ?_
  rw [Run.actAxStatus, axStatusBytes, List.append_assoc]; rfl

/-- Settles O41: what AXIS refuses, takes for a boundary, and does at once, for ENABLE and SETPOS; the record of STATUS. -/
theorem axisOperations : Obligations.AxisOperations := by
  intro s o hn hinv n run p
  refine ⟨fun h => ?_, fun h => ?_, fun h => ?_⟩
  case refine_1 =>
    obtain ⟨ho, -, hc, -⟩ := id h
    have hmay := axMay_enable s hc
    refine ⟨fun hno => Run.answers _ (exec_axisEnable h) ?_, fun hmode hnode htrip => ?_⟩
    · obtain ⟨h₁, h₂, -⟩ := axTake_refused_ends (Run.start s) ho (hmay.trans ((axMayEnable_eq_false s o.obj).2 hno))
      exact ⟨h₁, h₂⟩
    · have hok := (axMayEnable_iff s o.obj).2 ⟨hmode, hnode, htrip⟩
      refine ⟨fun hrun => Run.answers _ (exec_axisEnable h) ?_, fun hrun ht => Run.answers _ (exec_axisEnable h) ?_⟩
      · exact axTake_running_taken (Run.start s) ho (hmay.trans hok) hrun
      · rw [axTake_now (Run.start s) (hmay.trans hok) hrun ht]
        exact enable_now (Run.start s) ho hn hc ht hok _
  case refine_2 =>
    obtain ⟨ho, -, hc, -⟩ := id h
    have hmay := axMay_setpos s hc
    refine ⟨fun hno => Run.answers _ (exec_axisSetpos h) ?_, fun h24 h27 h26 => ?_⟩
    · exact axTake_refused_ends (Run.start s) ho (hmay.trans ((axMaySetpos_eq_false s o.obj).2 hno))
    · have hok := (axMaySetpos_iff s o.obj).2 ⟨h24, h27, h26⟩
      refine ⟨fun hrun => Run.answers _ (exec_axisSetpos h) ?_, fun hrun ht hmode => Run.answers _ (exec_axisSetpos h) ?_⟩
      · exact axTake_running_taken (Run.start s) ho (hmay.trans hok) hrun
      · rw [axTake_now (Run.start s) (hmay.trans hok) hrun ht]
        exact setpos_now (Run.start s) hinv ho hn hc ht hok hmode _
  case refine_3 =>
    obtain ⟨h₁, h₂⟩ := opEnd_ended (Run.start s) h.1 o.okSt 0 s.now32 (axStatusBytes s o.obj) 0
    exact Run.answers _ (exec_axisStatus h)
      ⟨h₁, rfl, axStatusBytes s o.obj, axStatusBytes_length s o.obj, h₂, axStatusBytes_fields s o.obj⟩

end Sys2Proof.Machine
end

section
/-!
PROOFS. Commits of configuration groups: what a request does, and what a commit does when it acts (O31, O32).
-/
namespace Sys2Proof.Machine

variable {s₀ : State} (r : Run s₀)

/-! ## Loops that change nothing, and loops that copy words -/

theorem each_fixed {α : Type} {l : List α} {f : Run s₀ → α → Run s₀} (h : ∀ a ∈ l, f r a = r) : r.each l f = r :=
  each_ind (P := (· = r)) (fun _ a ha hq => hq ▸ h a ha) rfl

/-- Words of a fixed state copied into registers: each of the list reads its word in the bits it implements, and nothing else
changes. -/
theorem each_copy (v : Nat → Word) (ac : Nat) (l : List Nat) :
    let u := (r.each l fun r i => r.up (.reg (ac + 4 * i) (v i))).s
    OnlyRegs r.s u (l.map fun i => ac + 4 * i) ∧
      ∀ i, u.rget (ac + 4 * i) = if i ∈ l then v i &&& implMask (ac + 4 * i) else r.s.rget (ac + 4 * i) := by
  induction l generalizing r with
  | nil => exact ⟨.refl _ _, fun i => by simp⟩
  | cons j l ih =>
    obtain ⟨hk, hv⟩ := ih (r.up (.reg (ac + 4 * j) (v j)))
    rw [each_cons]
    refine ⟨((onlyRegs_reg r.s _ _).mono (by simp)).trans (hk.mono (by simp)), fun i => ?_⟩
    rw [hv i]
    by_cases hl : i ∈ l
    · simp [hl]
    · by_cases hj : i = j
      · subst hj; rw [if_neg hl, if_pos (by simp), up_s, rget_reg_same]
      · rw [if_neg hl, if_neg (by simp [hl, hj]), up_s, rget_reg_ne (by omega)]

/-! ## Words of a group come into use -/

/-- Every shadow register of a run of words can be held by its active copy, and its reset value has no reserved bit. -/
def spanFits (sh ac n : Nat) : Prop :=
  ∀ i < n, resetOf (sh + 4 * i) &&& ~~~implMask (sh + 4 * i) = 0 ∧ implMask (sh + 4 * i) &&& ~~~implMask (ac + 4 * i) = 0

/-- A group of one run of words is copied: the active copy equals the shadow words, and nothing else changes (R15). -/
theorem groupCopy_one {g : Group} {sh ac n : Nat} (hg : g.spans = [(sh, ac, n)]) (hf : spanFits sh ac n) (h : r.s.Inv) :
    OnlyRegs r.s (r.groupCopy g).s ((List.range n).map fun i => ac + 4 * i) ∧
      ∀ i < n, (r.groupCopy g).s.rget (ac + 4 * i) = r.s.rget (sh + 4 * i) := by
  obtain ⟨hk, hv⟩ := each_copy r (fun i => r.s.rget (sh + 4 * i)) ac
    ((List.range n).filter fun i => r.s.rget (ac + 4 * i) != r.s.rget (sh + 4 * i))
  rw [Run.groupCopy, hg, each_cons, each_nil]
  refine ⟨hk.mono (List.map_subset _ (List.filter_subset_self _)), fun i hi => ?_⟩
  obtain ⟨hr, hm⟩ := hf i hi
  rw [hv i]
  split
  · exact Inv.masked h hr hm
  · next hn => simpa [hi] using hn

/-! ## A commit that acts -/

/-- The operations of a commit that have not ended yet. -/
def Run.liveOps (r : Run s₀) (ops : List Nat) : List Op := ops.filterMap fun i => (r.s.op i).filter fun o => o.out.isNone

@[simp] theorem liveOps_nil : r.liveOps [] = [] := rfl

theorem liveOps_one {o : Op} (ho : r.s.op o.id = some o) (hout : o.out = none) : r.liveOps [o.id] = [o] := by
  have hlive : (some o).filter (fun o => o.out.isNone) = some o := by simp [Option.filter, hout]
  rw [Run.liveOps, List.filterMap_cons, ho, hlive]
  rfl

/-- Without the commits of a group that is not pending the list of commits is the same. -/
theorem commits_filter {s : State} {g : Group} (h : s.committing g = false) : (s.commits.filter fun c => c.group != g) = s.commits := by
  rw [List.filter_eq_self]
  simpa [State.committing, bne] using h

/-- No read of the redundancy tables meets an error where no word holds one. -/
theorem redReads_clean (h : r.s.ecc = []) : r.redReads = r := by
  have hecc (a n : Nat) : r.eccRead a n = (r, false) := eccRead_clean r (by simp [State.eccIn, h])
  unfold Run.redReads
  simp only [hecc, ite_self, each_fixed r, implies_true]

theorem when_redReads {g : Group} (h : g = .red → r.s.ecc = []) : r.when (g == .red) Run.redReads = r := by
  by_cases hg : g = .red
  · subst hg; exact redReads_clean r (h rfl)
  · rw [beq_eq_false_iff_ne.2 hg, when_false]

/-- The state of a run with the pending commits of a group taken off the list. -/
def Run.commitOff (r : Run s₀) (g : Group) : Run s₀ := r.up (.commits (r.s.commits.filter fun c => c.group != g))

/-- The state in which a group whose check passes has come into use. -/
def Run.inUse (r : Run s₀) (g : Group) : Run s₀ := ((r.commitOff g).groupCopy g).groupApplied g r.s

/-- A failed check sets `cfgerr`, and ends the operations of the commit (R15). -/
theorem commitDo_fails {g : Group} (hred : g = .red → r.s.ecc = []) (hck : r.s.groupCheck g = false) (ops : List Nat) (k : Nat) :
    r.commitDo g ops k = ((r.commitOff g).flag g.err.1 g.err.2).each
      (((r.commitOff g).flag g.err.1 g.err.2).liveOps ops) fun r o => r.commitFails o k := by
  simp only [Run.commitDo, when_redReads r hred, hck]
  rfl

/-- A group whose check passes comes into use, and the operations of the commit end (R15, R17). -/
theorem commitDo_passes {g : Group} (hred : g = .red → r.s.ecc = []) (hck : r.s.groupCheck g = true) (ops : List Nat) (k : Nat) :
    r.commitDo g ops k = (r.inUse g).each ((r.inUse g).liveOps ops) fun r o => r.opEnd o o.okSt 0 k [] 0 := by
  simp only [Run.commitDo, when_redReads r hred, hck]
  rfl

/-! ## Requests -/

/-- No pending commit of a group. -/
theorem find_commit_none {s : State} {g : Group} (h : s.committing g = false) : s.commits.find? (fun c => c.group == g) = none := by
  rw [List.find?_eq_none]
  simpa [State.committing] using h

theorem find_commit_some {s : State} {g : Group} (h : s.committing g = true) : ∃ c, s.commits.find? (fun c => c.group == g) = some c := by
  rw [← Option.isSome_iff_exists, List.find?_isSome]
  simpa [State.committing] using h

/-- A request by register for a group that is pending changes nothing (R14). -/
theorem commitRequest_pending {g : Group} (h : r.s.committing g = true) (cycle : Option Nat) : r.commitRequest g none cycle = r := by
  obtain ⟨c, hc⟩ := find_commit_some h
  simp [Run.commitRequest, hc]

/-- With a running boundary it waits for that boundary (R10). -/
theorem commitRequest_waits {g : Group} (h : r.s.committing g = false) (hb : r.s.noBoundary g = false) :
    r.commitRequest g none none = r.up (.commits (r.s.commits ++ [{ group := g }])) := by
  simp [Run.commitRequest, find_commit_none h, hb, State.cyclePassed]

/-- Without one it acts at once (R16). -/
theorem commitRequest_now {g : Group} (h : r.s.committing g = false) (hb : r.s.noBoundary g = true) :
    r.commitRequest g none none = r.commitDo g [] r.s.now := by
  simp [Run.commitRequest, find_commit_none h, hb]

/-- The request of an operation for a group that is pending joins that commit and loses its time (R14). -/
theorem commitRequest_joins {g : Group} (h : r.s.committing g = true) (o : Op) (cycle : Option Nat) :
    r.commitRequest g (some o) cycle =
      (let q := r.opSet { o with time := none, late := false }
       q.up (.commits (q.s.commits.map fun c => if c.group == g then { c with ops := c.ops ++ [o.id] } else c))) := by
  obtain ⟨c, hc⟩ := find_commit_some h
  simp [Run.commitRequest, hc]

/-- That of an untimed operation waits for a running boundary. -/
theorem commitRequest_op_waits {g : Group} (h : r.s.committing g = false) (hb : r.s.noBoundary g = false) {o : Op}
    (ht : o.time = none) (hl : o.late = false) : r.commitRequest g (some o) none =
      (r.opSet o).up (.commits (r.s.commits ++ [{ group := g, byOp := true, ops := [o.id] }])) := by
  simp [Run.commitRequest, find_commit_none h, hb, State.cyclePassed, ht, hl, opSet_s]

/-- Without one it acts at once. -/
theorem commitRequest_op_now {g : Group} (h : r.s.committing g = false) (hb : r.s.noBoundary g = true) {o : Op}
    (ht : o.time = none) : r.commitRequest g (some o) none = (r.opSet o).commitDo g [o.id] r.s.now := by
  simp [Run.commitRequest, find_commit_none h, hb, ht, opSet_s, State.now, State.base]

/-- The bits of the COMMIT registers that hold several numbered groups at their own number or one apart. -/
theorem commitGroup_time (i : Nat) : commitGroup Reg.timeCommit i =
    if i < 16 then some (.sg i) else if i < 24 then some (.lg (i - 16)) else if i == 24 then some .tb0lock else none := by
  obtain ⟨x, hx⟩ := Option.isSome_iff_exists.1 (show (regAt Reg.timeCommit).isSome = true by decide +kernel)
  simp only [commitGroup, hx, if_true]

theorem commitGroup_capt (i : Nat) : commitGroup Reg.captCommit i = if i < 16 then some (.capts i) else none := by
  obtain ⟨x, hx⟩ := Option.isSome_iff_exists.1 (show (regAt Reg.captCommit).isSome = true by decide +kernel)
  simp (decide := true) only [commitGroup, hx, if_true, if_false, decide_eq_true_eq]

theorem commitGroup_herd (i : Nat) : commitGroup Reg.herdCommit i =
    if i = 0 then some .herdcyc else if i ≤ 4 then some (.slot (i - 1)) else none := by
  obtain ⟨x, hx⟩ := Option.isSome_iff_exists.1 (show (regAt Reg.herdCommit).isSome = true by decide +kernel)
  simp (decide := true) only [commitGroup, hx, if_true, if_false, decide_eq_true_eq]

theorem commitGroup_vm (i : Nat) : commitGroup Reg.vmCommit i = if i < 16 then some (.vm i) else none := by
  obtain ⟨x, hx⟩ := Option.isSome_iff_exists.1 (show (regAt Reg.vmCommit).isSome = true by decide +kernel)
  simp (decide := true) only [commitGroup, hx, if_true, if_false, decide_eq_true_eq]

/-- The bit of a group is one of 32, and in HERD_COMMIT it lies below `use_cyc` (R10, R409). -/
theorem bitAt_lt {g : Group} (h : commitGroup g.bitAt.1 g.bitAt.2 = some g) :
    g.bitAt.2 < 32 ∧ (g.bitAt.1 = Reg.herdCommit → g.bitAt.2 < 8) := by
  cases g
  case sg n =>
    rw [Group.bitAt, commitGroup_time] at h
    refine ⟨show n < 32 from ?_, fun e => absurd (show Reg.timeCommit = Reg.herdCommit from e) (by decide)⟩
    split_ifs at h <;> simp_all; omega
  case lg n =>
    rw [Group.bitAt, commitGroup_time] at h
    refine ⟨show 16 + n < 32 from ?_, fun e => absurd (show Reg.timeCommit = Reg.herdCommit from e) (by decide)⟩
    split_ifs at h <;> simp_all; omega
  case capts n =>
    rw [Group.bitAt, commitGroup_capt] at h
    refine ⟨show n < 32 from ?_, fun e => absurd (show Reg.captCommit = Reg.herdCommit from e) (by decide)⟩
    split_ifs at h; omega
  case vm n =>
    rw [Group.bitAt, commitGroup_vm] at h
    refine ⟨show n < 32 from ?_, fun e => absurd (show Reg.vmCommit = Reg.herdCommit from e) (by decide)⟩
    split_ifs at h; omega
  case slot p =>
    rw [Group.bitAt, commitGroup_herd] at h
    show 1 + p < 32 ∧ (_ → 1 + p < 8)
    split_ifs at h <;> omega
  case tr b | sd b | cam b | capttr b =>
    refine ⟨Nat.mod_lt _ (by decide), fun e => ?_⟩
    simp only [Group.bitAt] at e
    split_ifs at e <;> exact absurd e (by decide)
  case axcfg n | axtpl n | mot n | adc n | can n | ethcfg n | ethgcl n =>
    refine ⟨by simp [Group.bitAt], fun e => ?_⟩
    simp only [Group.bitAt, Reg.axCommit, Reg.motCommit, Reg.adcCommit, Reg.canCommit, Reg.ethCommit, Reg.herdCommit] at e
    omega
  case tb0lock | route | sdclk | herdcyc | red => decide

/-- The one bit that is written. -/
theorem filter_bit_two_pow {b : Nat} (h : b < 32) : ((List.range 32).filter fun i => bit (2 ^ b) i) = [b] := by
  have : ∀ b < 32, ((List.range 32).filter fun i => bit (2 ^ b) i) = [b] := by decide +kernel
  exact this b h

/-- COMMIT_REQUEST of a group of the map is a request without an operation and without a cycle. -/
theorem exec_commitRequest {g : Group} (h : commitGroup g.bitAt.1 g.bitAt.2 = some g) (s : State) :
    exec (.commitRequest g) s = ((Run.start s).commitRequest g none none).done := by
  obtain ⟨hb, hherd⟩ := bitAt_lt h
  have hcyc : ¬(g.bitAt.1 = Reg.herdCommit ∧ bit (2 ^ g.bitAt.2) 8 = true) := by
    rintro ⟨ha, h8⟩
    have := hherd ha
    rw [bit_testBit, Nat.testBit_two_pow, decide_eq_true_eq] at h8
    omega
  show (if _ then _ else _ : Run s).done = _
  rw [if_pos h, Run.writeCommit, if_neg hcyc, filter_bit_two_pow hb, each_cons, each_nil, h]

/-! ## COMMIT_APPLY -/

theorem commitApply_none {g : Group} (h : r.s.committing g = false) : r.commitApply g = r := by
  simp [Run.commitApply, find_commit_none h]

/-- The one pending commit, untimed, acts where its group has no running boundary. -/
theorem commitApply_now {g : Group} {c : Commit} (hc : r.s.commits = [c]) (hg : c.group = g) (hdue : c.due = false)
    (ht : c.time = none) (hb : r.s.noBoundary g = true) : r.commitApply g = r.commitDo g c.ops r.s.now := by
  have hfind : r.s.commits.find? (fun c => c.group == g) = some c := by simp [hc, hg]
  simp [Run.commitApply, hfind, hdue, Commit.reached, ht, hb]

/-! ## What a commit without operations and one of an operation leave -/

variable {g : Group} {o : Op}

/-- The `cfgerr` flag of the group's block is a flag. -/
def errFlag (g : Group) : Prop := g.err.2 < 32 ∧ bit (implMask g.err.1).toNat g.err.2 = true

theorem commitDo_fails_none (hcom : r.s.committing g = false) (hred : g = .red → r.s.ecc = []) (hck : r.s.groupCheck g = false)
    (he : errFlag g) (k : Nat) :
    let u := (r.commitDo g [] k).s
    u.rb g.err.1 g.err.2 = true ∧ RegsKept r.s u [g.err.1] ∧ MemKept r.s u ∧ u.commits = r.s.commits ∧ u.sp = r.s.sp := by
  rw [commitDo_fails r hred hck, liveOps_nil, each_nil]
  have hf := flag_onlyRegs (r.commitOff g) g.err.1 g.err.2
  exact ⟨flag_rb (r.commitOff g) he.1 he.2, hf.regsKept, hf.memKept, hf.commits.trans (commits_filter hcom), hf.sp⟩

theorem commitFails_end (h0 : o.unit ≠ 0) (h2 : o.unit ≠ 2) (h4 : o.unit ≠ 4) (k : Nat) :
    r.commitFails o k = r.opEnd o .cfgerr 0 k [] 0 := by
  unfold Run.commitFails
  split
  · contradiction
  · contradiction
  · contradiction
  · rfl

/-- A failed check of the commit of one operation ends it CFGERR. -/
theorem commitDo_fails_one (hred : g = .red → r.s.ecc = []) (hck : r.s.groupCheck g = false) (he : errFlag g)
    (ho : r.s.op o.id = some o) (hout : o.out = none) (h0 : o.unit ≠ 0) (h2 : o.unit ≠ 2) (h4 : o.unit ≠ 4) (k : Nat) :
    let u := (r.commitDo g [o.id] k).s
    u.commits = (r.s.commits.filter fun c => c.group != g) ∧ OpEnded u o.id .cfgerr [] ∧ OpsKept r.s u o.id ∧
      u.rb g.err.1 g.err.2 = true ∧ RegsKept r.s u [g.err.1] ∧ MemKept r.s u := by
  have hf := flag_onlyRegs (r.commitOff g) g.err.1 g.err.2
  have hb := flag_rb (r.commitOff g) he.1 he.2
  have hq : r.commitDo g [o.id] k = ((r.commitOff g).flag g.err.1 g.err.2).opEnd o .cfgerr 0 k [] 0 := by
    rw [commitDo_fails r hred hck, liveOps_one _ ((hf.op _).trans ho) hout, each_cons, each_nil]
    exact commitFails_end _ h0 h2 h4 k
  generalize (r.commitOff g).flag g.err.1 g.err.2 = q at hf hb hq
  obtain ⟨h₁, h₂, h₃, h₄⟩ := opEnd_after r (q := q) (l := [g.err.1]) ((hf.op _).trans ho) (fun j _ => hf.op j) hf.memKept
    hf.regsKept .cfgerr 0 k [] 0
  rw [hq]
  exact ⟨hf.commits, h₁, h₂, hb, h₄, h₃⟩

theorem commitDo_passes_none (hred : g = .red → r.s.ecc = []) (hck : r.s.groupCheck g = true) (k : Nat) :
    r.commitDo g [] k = r.inUse g := commitDo_passes r hred hck [] k

/-- The operation of a commit whose group has come into use ends OK, or LATE. -/
theorem commitDo_passes_one (hred : g = .red → r.s.ecc = []) (hck : r.s.groupCheck g = true) (ho : r.s.op o.id = some o)
    (hout : o.out = none) {l : List Nat} (hsp : (r.inUse g).s.sp = r.s.sp) (hm : MemKept r.s (r.inUse g).s)
    (hr : RegsKept r.s (r.inUse g).s l) (k : Nat) :
    let u := (r.commitDo g [o.id] k).s
    OpEnded u o.id o.okSt [] ∧ OpsKept r.s u o.id ∧ MemKept r.s u ∧ RegsKept r.s u l ∧
      u.commits = (r.inUse g).s.commits ∧ u.time = (r.inUse g).s.time ∧ ∀ a, u.rget a = (r.inUse g).s.rget a := by
  have hop (j : Nat) : (r.inUse g).s.op j = r.s.op j := by rw [State.op, State.op, hsp]
  have hq : r.commitDo g [o.id] k = (r.inUse g).opEnd o o.okSt 0 k [] 0 := by
    rw [commitDo_passes r hred hck, liveOps_one _ ((hop _).trans ho) hout, each_cons, each_nil]
  obtain ⟨h₁, h₂, h₃, h₄⟩ := opEnd_after r ((hop _).trans ho) (fun j _ => hop j) hm hr o.okSt 0 k [] 0
  rw [hq]
  exact ⟨h₁, h₂, h₃, h₄, rfl, rfl, fun _ => rfl⟩

/-- A group of one run of words with no further effect: its words come into use, and nothing else changes. -/
theorem inUse_one {sh ac n : Nat} (hg : g.spans = [(sh, ac, n)]) (hf : spanFits sh ac n) (h : r.s.Inv)
    (ha : ∀ (q : Run s₀) (s : State), q.groupApplied g s = q) :
    OnlyRegs (r.commitOff g).s (r.inUse g).s ((List.range n).map fun i => ac + 4 * i) ∧
      ∀ i < n, (r.inUse g).s.rget (ac + 4 * i) = r.s.rget (sh + 4 * i) := by
  rw [Run.inUse, ha]
  exact groupCopy_one (r.commitOff g) hg hf h

end Sys2Proof.Machine
end

section
/-!
PROOFS. COMMIT_REQUEST and COMMIT_APPLY (O31).
-/
namespace Sys2Proof.Machine

theorem errFlag_groups : ∀ g ∈ [Group.tb0lock, .route, .herdcyc, .red, .sdclk, .sg 0, .lg 7], errFlag g := by
  unfold errFlag; decide +kernel

theorem spanFits_route : spanFits Reg.sigRouteBaseLo Reg.sigRouteBaseLoAct 3 := by unfold spanFits; decide +kernel

theorem spanFits_herdcyc : spanFits Reg.herdCyc Reg.herdCycAct 1 := by unfold spanFits; decide +kernel

variable {s : State}

theorem commitRequest_route (hinv : s.Inv) (hcom : s.committing .route = false) (hb : s.noBoundary .route = true)
    (hck : s.groupCheck .route = true) : Answers (.commitRequest .route) s fun u =>
      RegsKept s u [Reg.sigRouteBaseLoAct, Reg.sigRouteBaseHiAct, Reg.sigRouteLenAct] ∧
        u.rget Reg.sigRouteBaseLoAct = s.rget Reg.sigRouteBaseLo ∧ u.rget Reg.sigRouteBaseHiAct = s.rget Reg.sigRouteBaseHi ∧
        u.rget Reg.sigRouteLenAct = s.rget Reg.sigRouteLen ∧ MemKept s u ∧ u.commits = s.commits := by
  obtain ⟨hk, hv⟩ := inUse_one (Run.start s) (g := .route) rfl spanFits_route hinv fun _ _ => rfl
  refine Run.answers _ (exec_commitRequest (by decide +kernel) s) ?_
  rw [commitRequest_now (Run.start s) hcom hb, commitDo_passes_none _ (fun e => by cases e) hck]
  exact ⟨hk.regsKept, hv 0 (by decide), hv 1 (by decide), hv 2 (by decide), hk.memKept, hk.commits.trans (commits_filter hcom)⟩

theorem commitRequest_herdcyc (hinv : s.Inv) (hcom : s.committing .herdcyc = false) (hb : s.noBoundary .herdcyc = true)
    (hck : s.groupCheck .herdcyc = true) : Answers (.commitRequest .herdcyc) s fun u => RegsKept s u [Reg.herdCycAct] ∧
        u.rget Reg.herdCycAct = s.rget Reg.herdCyc ∧ MemKept s u ∧ u.commits = s.commits := by
  obtain ⟨hk, hv⟩ := inUse_one (Run.start s) (g := .herdcyc) rfl spanFits_herdcyc hinv fun _ _ => rfl
  refine Run.answers _ (exec_commitRequest (by decide +kernel) s) ?_
  rw [commitRequest_now (Run.start s) hcom hb, commitDo_passes_none _ (fun e => by cases e) hck]
  exact ⟨hk.regsKept, hv 0 (by decide), hk.memKept, hk.commits.trans (commits_filter hcom)⟩

/-- Settles O31: the lemmas of requests, of COMMIT_APPLY, and of a check that fails or passes. -/
theorem commitsOfGroups : Obligations.CommitsOfGroups := by
  intro s g hg
  have hreq := exec_commitRequest hg s
  refine ⟨fun hcom => Run.answers _ hreq ?_, fun hcom hb => Run.answers _ hreq ?_, fun hcom => ⟨s, ?_, rfl⟩,
    fun hmem hcom hb hck hecc => Run.answers _ hreq ?_, fun hinv hcom hb hck => ⟨?_, ?_⟩, ?_⟩
  · rw [commitRequest_pending (Run.start s) hcom]; rfl
  · rw [commitRequest_waits (Run.start s) hcom hb]; rfl
  · exact congrArg Run.done (commitApply_none (Run.start s) hcom)
  · rw [commitRequest_now (Run.start s) hcom hb]
    have hmem' : g ∈ [Group.tb0lock, .route, .herdcyc, .red, .sdclk, .sg 0, .lg 7] := by
      simp only [List.mem_cons] at hmem ⊢; tauto
    exact commitDo_fails_none (Run.start s) hcom hecc hck (errFlag_groups g hmem') _
  · rintro rfl; exact commitRequest_route hinv hcom hb hck
  · rintro rfl; exact commitRequest_herdcyc hinv hcom hb hck
  · intro c o hc hgc hdue ht hl hops ho hout hb
    have happ : exec (.commitApply g) s = _ := congrArg Run.done (commitApply_now (Run.start s) hc hgc hdue ht hb)
    have hnone : (s.commits.filter fun c => c.group != g) = [] := by simp [hc, hgc]
    refine ⟨fun hck hmem hecc h0 h2 h4 => Run.answers _ happ ?_, fun hck hherd hinv => Run.answers _ happ ?_⟩
    · have hmem' : g ∈ [Group.tb0lock, .route, .herdcyc, .red, .sdclk, .sg 0, .lg 7] := by
        simp only [List.mem_cons] at hmem ⊢; tauto
      obtain ⟨h₁, hrest⟩ := commitDo_fails_one (Run.start s) (fun _ => hecc) hck (errFlag_groups g hmem') ho hout h0 h2 h4 s.now
      rw [hops]
      exact ⟨h₁.trans hnone, hrest⟩
    · subst hherd
      obtain ⟨hk, hv⟩ := inUse_one (Run.start s) (g := .herdcyc) rfl spanFits_herdcyc hinv fun _ _ => rfl
      obtain ⟨h₁, h₂, h₃, h₄, h₅, -, h₆⟩ := commitDo_passes_one (Run.start s) (fun e => by cases e) hck ho hout
        (l := [Reg.herdCycAct]) hk.sp hk.memKept hk.regsKept s.now
      rw [hops]
      exact ⟨h₅.trans (hk.commits.trans hnone), h₁, h₂, (h₆ _).trans (hv 0 (by decide)), h₄, h₃⟩

end Sys2Proof.Machine
end

section
/-!
PROOFS. The COMMIT operations of the units (O32).
-/
namespace Sys2Proof.Machine

/-! ## The operation is a request for the group it names -/

variable {s₀ : State} (r : Run s₀) {s : State} {o : Op} {g : Group}

/-- An operation that no pending commit has taken is a request for its group. -/
theorem commitOp_request (h : ∀ x ∈ r.s.commits, o.id ∉ x.ops) (cycle : Option Nat) :
    r.commitOp o (some g) cycle = r.commitRequest g (some o) cycle := by
  have : (r.s.commits.any fun c => c.ops.contains o.id) = false := by simpa using h
  rw [Run.commitOp, this]; rfl

/-- What all COMMIT operations have in common: the operation stands in the list without outcome, and its row is an untimed request
for the group without a cycle. -/
structure CommitRow (s : State) (o : Op) (g : Group) (c : Instr) : Prop where
  op : s.op o.id = some o
  out : o.out = none
  exec : exec c s = ((Run.start s).commitRequest g (some o) none).done

theorem CommitRow.of_takes {c : Instr} {unit code : Nat} {take : Run s → Op → Run s} (hfree : ∀ x ∈ s.commits, o.id ∉ x.ops)
    (h : OpTakes s o unit code) (hc : Machine.exec c s = ((Run.start s).opTake o.id unit code take).done)
    (ht : take (Run.start s) o = (Run.start s).commitOp o (some g) none) : CommitRow s o g c := by
  refine ⟨h.1, h.2.2.2.2.2.2.1, ?_⟩
  rw [hc, opTake_takes (Run.start s) take h, ht, commitOp_request (Run.start s) hfree]

/-- The group that a COMMIT operation of each unit names, for an operation that its unit may take (R10, R17). -/
def CommitNames (s : State) (o : Op) (g : Group) (c : Instr) : Prop :=
  (c = .timeCommit o.id ∧ OpTakes s o 13 3 ∧ o.obj < 25 ∧
      g = (if o.obj < 16 then .sg o.obj else if o.obj < 24 then .lg (o.obj - 16) else .tb0lock)) ∨
    (c = .leCommit o.id ∧ OpTakes s o 0 8 ∧ g = .tr o.obj) ∨
    (c = .axisCommit o.id ∧ OpTakes s o 1 1 ∧ ((recNat o.payload 0 1 = 0 ∧ g = .axcfg o.obj) ∨
      (recNat o.payload 0 1 = 1 ∧ g = .axtpl o.obj) ∨ (recNat o.payload 0 1 = 2 ∧ g = .sd o.obj))) ∨
    (c = .motCommit o.id ∧ OpTakes s o 2 1 ∧ g = (if o.obj < 48 then .mot o.obj else if o.obj < 128 then .vm (o.obj - 64)
      else .cam (o.obj - 128))) ∨
    (c = .adcCommit o.id ∧ OpTakes s o 8 1 ∧ g = .adc o.obj) ∨
    (c = .herdCommit o.id ∧ OpTakes s o 5 1 ∧ recNat o.payload 0 1 % 2 = 0 ∧
      g = (if o.obj = 0 then .herdcyc else .slot (o.obj - 1))) ∨
    (c = .ethCommit o.id ∧ OpTakes s o 10 1 ∧ ((recNat o.payload 0 1 = 0 ∧ g = .ethcfg o.obj) ∨
      (recNat o.payload 0 1 = 1 ∧ g = .ethgcl o.obj))) ∨
    (c = .canCommit o.id ∧ OpTakes s o 9 1 ∧ g = .can o.obj) ∨
    (c = .captCommit o.id ∧ OpTakes s o 4 1 ∧ g = (if o.obj < 16 then .capts o.obj else .capttr (o.obj - 64))) ∨
    (c = .redCommit o.id ∧ OpTakes s o 14 1 ∧ g = .red)

theorem CommitNames.row {c : Instr} (hfree : ∀ x ∈ s.commits, o.id ∉ x.ops) (h : CommitNames s o g c) : CommitRow s o g c := by
  rcases h with ⟨rfl, ht, hobj, hg⟩ | ⟨rfl, ht, hg⟩ | ⟨rfl, ht, hg⟩ | ⟨rfl, ht, hg⟩ | ⟨rfl, ht, hg⟩ | ⟨rfl, ht, hcyc, hg⟩ |
    ⟨rfl, ht, hg⟩ | ⟨rfl, ht, hg⟩ | ⟨rfl, ht, hg⟩ | ⟨rfl, ht, hg⟩
  · refine .of_takes hfree ht rfl ?_
    by_cases h16 : o.obj < 16
    · simp [Run.takeTimeCommit, hg, h16]
    · by_cases h24 : o.obj < 24
      · simp [Run.takeTimeCommit, hg, h16, h24]
      · simp [Run.takeTimeCommit, hg, show o.obj = 24 by omega]
  · exact .of_takes hfree ht rfl (by rw [hg]; rfl)
  · refine .of_takes hfree ht rfl ?_
    rcases hg with ⟨hp, hg⟩ | ⟨hp, hg⟩ | ⟨hp, hg⟩ <;> simp [Run.takeAxisCommit, hp, hg]
  · exact .of_takes hfree ht rfl (by rw [hg]; rfl)
  · exact .of_takes hfree ht rfl (by rw [hg]; rfl)
  · refine .of_takes hfree ht rfl ?_
    simp [Run.takeHerdCommit, bit, hcyc, hg]
  · refine .of_takes hfree ht rfl ?_
    rcases hg with ⟨hp, hg⟩ | ⟨hp, hg⟩ <;> simp [Run.takeEthCommit, hp, hg]
  · exact .of_takes hfree ht rfl (by rw [hg]; rfl)
  · exact .of_takes hfree ht rfl (by rw [hg]; rfl)
  · exact .of_takes hfree ht rfl (by rw [hg]; rfl)

/-- TB0LOCK is a group of the TIME unit and HERD CYC one of the HERD unit. -/
theorem CommitNames.unit {c : Instr} (h : CommitNames s o g c) (hg : g = .tb0lock ∨ g = .herdcyc) : o.unit = 13 ∨ o.unit = 5 := by
  rcases h with ⟨-, ht, -, -⟩ | ⟨-, -, hn⟩ | ⟨-, -, hn⟩ | ⟨-, -, hn⟩ | ⟨-, -, hn⟩ | ⟨-, ht, -, -⟩ | ⟨-, -, hn⟩ | ⟨-, -, hn⟩ |
    ⟨-, -, hn⟩ | ⟨-, -, hn⟩
  case inl => exact .inl ht.2.1
  case inr.inr.inr.inr.inr.inl => exact .inr ht.2.1
  all_goals exfalso; revert hn; rcases hg with rfl | rfl <;> simp <;> split_ifs <;> simp

/-! ## What the request of an operation leaves -/

/-- An operation set in the list again leaves every register and byte, and the other operations. -/
theorem opSet_onlyOp : OnlyOp r.s (r.opSet o).s o.id := ⟨fun _ => rfl, fun _ _ => rfl, fun _ hj => op_opSet_ne r o hj⟩

/-- With a commit of the group pending, the operation joins it and loses its time (R14). -/
theorem CommitRow.joins {c : Instr} (h : CommitRow s o g c) {x : Commit} (hc : s.commits = [x]) (hx : x.group = g) :
    Answers c s fun u => u.commits = [{ x with ops := x.ops ++ [o.id] }] ∧
      u.op o.id = some { o with time := none, late := false } ∧ OpsKept s u o.id ∧ RegsKept s u [] ∧ MemKept s u := by
  have hcom : s.committing g = true := by simp [State.committing, hc, hx]
  obtain ⟨hm, hr, hk⟩ := opSet_onlyOp (Run.start s) (o := { o with time := none, late := false })
  refine Run.answers _ h.exec ?_
  rw [commitRequest_joins (Run.start s) hcom]
  refine ⟨?_, op_opSet (Run.start s) (o := { o with time := none, late := false }) h.op, hk, hr, hm⟩
  show s.commits.map _ = _
  simp [hc, hx]

/-- With a running boundary and nothing pending, an untimed operation leaves a commit that waits (R10). -/
theorem CommitRow.waits {c : Instr} (h : CommitRow s o g c) (hcom : s.committing g = false) (hb : s.noBoundary g = false)
    (ht : o.time = none) (hl : o.late = false) :
    Answers c s fun u => u.commits = s.commits ++ [{ group := g, byOp := true, ops := [o.id] }] ∧ u.op o.id = some o ∧
      OpsKept s u o.id ∧ RegsKept s u [] ∧ MemKept s u := by
  obtain ⟨hm, hr, hk⟩ := opSet_onlyOp (Run.start s) (o := o)
  refine Run.answers _ h.exec ?_
  rw [commitRequest_op_waits (Run.start s) hcom hb ht hl]
  exact ⟨rfl, op_opSet (Run.start s) h.op, hk, hr, hm⟩

/-- Fields, bits and checks that look at registers only. -/
theorem rf_congr {s u : State} (h : ∀ a, u.rget a = s.rget a) : u.rf = s.rf := by
  funext a hi lo; rw [State.rf, State.rf, h]

theorem rb_congr {s u : State} (h : ∀ a, u.rget a = s.rget a) : u.rb = s.rb := by
  funext a i; rw [State.rb, State.rb, h]

theorem tb0lockCheck_congr {s u : State} (h : ∀ a, u.rget a = s.rget a) : u.tb0lockCheck = s.tb0lockCheck := by
  rw [State.tb0lockCheck, State.tb0lockCheck, rf_congr h]

theorem cycCheck_congr {s u : State} (h : ∀ a, u.rget a = s.rget a) : u.cycCheck = s.cycCheck := by
  have hen : u.gridEn = s.gridEn := by funext g; rw [State.gridEn, State.gridEn, rb_congr h]
  have hbase : u.gridBase = s.gridBase := by funext g; rw [State.gridBase, State.gridBase, rf_congr h]
  rw [State.cycCheck, State.cycCheck, rf_congr h, rb_congr h, hen, hbase]

theorem csCheck_congr {s u : State} (h : ∀ a, u.rget a = s.rget a) (n : Nat) : u.csCheck n = s.csCheck n := by
  rw [State.csCheck, State.csCheck, State.csState, State.csState, rf_congr h]

/-- Without a running boundary a failed check of TB0LOCK or HERD CYC ends the operation CFGERR (R15, R16). -/
theorem CommitRow.fails {c : Instr} (h : CommitRow s o g c) (hcom : s.committing g = false) (hb : s.noBoundary g = true)
    (ht : o.time = none) (hck : s.groupCheck g = false) (hg : g = .tb0lock ∨ g = .herdcyc) (hu : o.unit = 13 ∨ o.unit = 5) :
    Answers c s fun u => u.commits = s.commits ∧ OpEnded u o.id .cfgerr [] ∧ OpsKept s u o.id ∧
      u.rb g.err.1 g.err.2 = true ∧ RegsKept s u [g.err.1] ∧ MemKept s u := by
  have hop := op_opSet (Run.start s) h.op
  obtain ⟨hm, hr, hk⟩ := opSet_onlyOp (Run.start s) (o := o)
  have hck' : ((Run.start s).opSet o).s.groupCheck g = false := by
    rcases hg with rfl | rfl
    · exact (tb0lockCheck_congr fun a => hr a List.not_mem_nil).trans hck
    · exact (cycCheck_congr fun a => hr a List.not_mem_nil).trans hck
  have he : errFlag g := errFlag_groups g (by rcases hg with rfl | rfl <;> simp)
  refine Run.answers _ h.exec ?_
  rw [commitRequest_op_now (Run.start s) hcom hb ht]
  obtain ⟨h₁, h₂, h₃, h₄, h₅, h₆⟩ := commitDo_fails_one ((Run.start s).opSet o) (fun e => by rcases hg with rfl | rfl <;> cases e)
    hck' he hop h.out (by omega) (by omega) (by omega) s.now
  exact ⟨h₁.trans (commits_filter hcom), h₂, fun j hj => (h₃ j hj).trans (hk j hj), h₄, (hr.mono (List.nil_subset _)).trans h₅,
    hm.trans h₆⟩

/-- A group without boundary whose check passes comes into use at once, and the operation ends OK (R16). -/
theorem CommitRow.passes {c : Instr} (h : CommitRow s o g c) (hcom : s.committing g = false) (hb : s.noBoundary g = true)
    (ht : o.time = none) (hred : g ≠ .red) (hck : ((Run.start s).opSet o).s.groupCheck g = true) {l : List Nat} {q : Run s}
    (hq : ((Run.start s).opSet o).inUse g = q) (hsp : q.s.sp = ((Run.start s).opSet o).s.sp) (hm : MemKept s q.s)
    (hr : RegsKept s q.s l) (hc : q.s.commits = s.commits) :
    Answers c s fun u => (OpEnded u o.id .ok [] ∧ u.commits = s.commits ∧ OpsKept s u o.id) ∧ (RegsKept s u l ∧ MemKept s u) ∧
      u.time = q.s.time ∧ ∀ a, u.rget a = q.s.rget a := by
  subst hq
  obtain ⟨-, -, hk⟩ := opSet_onlyOp (Run.start s) (o := o)
  refine Run.answers _ h.exec ?_
  rw [commitRequest_op_now (Run.start s) hcom hb ht]
  obtain ⟨h₁, h₂, h₃, h₄, h₅, h₆, h₇⟩ := commitDo_passes_one ((Run.start s).opSet o) (fun e => absurd e hred) hck
    (op_opSet (Run.start s) h.op) h.out hsp hm hr s.now
  exact ⟨⟨okSt_untimed ht ▸ h₁, h₅.trans hc, fun j hj => (h₂ j hj).trans (hk j hj)⟩, ⟨h₄, h₃⟩, h₆, h₇⟩

/-! ## Groups of capture, and TB0LOCK -/

theorem spanFits_capts {n : Nat} (h : n < 16) : spanFits (Reg.captSCfg n) (Reg.captSCfgAct n) 9 := by
  have : ∀ n < 16, spanFits (Reg.captSCfg n) (Reg.captSCfgAct n) 9 := by unfold spanFits; decide +kernel
  exact this n h

theorem spanFits_tb0lock : spanFits Reg.timeTb0Lock Reg.timeTb0LockAct 2 := by unfold spanFits; decide +kernel

theorem CommitRow.passes_capts {c : Instr} {n : Nat} (hn : n < 16) (hinv : s.Inv) (h : CommitRow s o (.capts n) c)
    (hcom : s.committing (.capts n) = false) (ht : o.time = none) (hck : s.groupCheck (.capts n) = true) :
    Answers c s fun u => OpEnded u o.id .ok [] ∧ u.commits = s.commits ∧ OpsKept s u o.id ∧
      (∀ i, i < 9 → u.rget (Reg.captSCfgAct n + 4 * i) = s.rget (Reg.captSCfg n + 4 * i)) ∧
      RegsKept s u ((List.range 9).map fun i => Reg.captSCfgAct n + 4 * i) ∧ MemKept s u := by
  obtain ⟨hk, hv⟩ := inUse_one ((Run.start s).opSet o) (g := .capts n) rfl (spanFits_capts hn) hinv fun _ _ => rfl
  refine (h.passes hcom rfl ht (by simp) ((csCheck_congr (fun _ => rfl) n).trans hck) rfl hk.sp hk.memKept hk.regsKept
    (hk.commits.trans (commits_filter hcom))).imp fun u hu => ?_
  obtain ⟨⟨h₁, h₂, h₃⟩, ⟨h₄, h₅⟩, -, h₆⟩ := hu
  exact ⟨h₁, h₂, h₃, fun i hi => (h₆ _).trans (hv i hi), h₄, h₅⟩

/-- Outside HOLDOVER nothing follows when TB0LOCK comes into use but a new count of exchanges (R64). -/
theorem tb0lockApplied_s (r : Run s₀) (h : r.s.tb0State ≠ 3) :
    r.tb0lockApplied = r.mapTime fun t => { t with lockCount := 0 } := by
  rw [Run.tb0lockApplied, Run.holdoverLimit, if_neg]
  exact fun hc => h hc.1

theorem CommitRow.passes_tb0lock {c : Instr} (hinv : s.Inv) (h : CommitRow s o .tb0lock c) (hcom : s.committing .tb0lock = false)
    (ht : o.time = none) (hck : s.groupCheck .tb0lock = true) (hstate : s.tb0State ≠ 3) :
    Answers c s fun u => OpEnded u o.id .ok [] ∧ u.commits = s.commits ∧ OpsKept s u o.id ∧
      u.rget Reg.timeTb0LockAct = s.rget Reg.timeTb0Lock ∧ u.rget Reg.timeTb0HoldAct = s.rget Reg.timeTb0Hold ∧
      u.time = { s.time with lockCount := 0 } ∧ RegsKept s u [Reg.timeTb0LockAct, Reg.timeTb0HoldAct] ∧ MemKept s u := by
  obtain ⟨hk, hv⟩ := groupCopy_one (((Run.start s).opSet o).commitOff .tb0lock) (g := .tb0lock) rfl spanFits_tb0lock hinv
  have hq : ((Run.start s).opSet o).inUse .tb0lock =
      ((((Run.start s).opSet o).commitOff .tb0lock).groupCopy .tb0lock).mapTime fun t => { t with lockCount := 0 } := by
    refine tb0lockApplied_s _ fun he => hstate ?_
    rw [← he, State.tb0State, State.tb0State, State.rf, State.rf, hk.regsKept _ (by decide)]
    rfl
  generalize (((Run.start s).opSet o).commitOff .tb0lock).groupCopy .tb0lock = q at hk hv hq
  refine (h.passes hcom rfl ht (by simp) ((tb0lockCheck_congr fun _ => rfl).trans hck) hq hk.sp hk.memKept hk.regsKept
    (hk.commits.trans (commits_filter hcom))).imp fun u hu => ?_
  obtain ⟨⟨h₁, h₂, h₃⟩, ⟨h₄, h₅⟩, h₆, h₇⟩ := hu
  refine ⟨h₁, h₂, h₃, (h₇ _).trans (hv 0 (by decide)), (h₇ _).trans (hv 1 (by decide)), h₆.trans ?_, h₄, h₅⟩
  show { q.s.time with lockCount := 0 } = _
  rw [hk.time]; rfl

/-- Settles O32: every COMMIT operation is a request for its group (`CommitNames.row`); the four outcomes of a request follow. -/
theorem commitOperations : Obligations.CommitOperations := by
  intro s o g c hfree hc
  have hnames : CommitNames s o g c := hc
  have h := hnames.row hfree
  refine ⟨fun x hx hg => h.joins hx hg, fun hcom hb ht hl => h.waits hcom hb ht hl,
    fun hcom hb ht hck hg => h.fails hcom hb ht hck hg (hnames.unit hg), fun hinv hcom ht hck => ⟨?_, ?_⟩⟩
  · rintro n hn rfl
    exact h.passes_capts hn hinv hcom ht hck
  · rintro rfl hstate
    exact h.passes_tb0lock hinv hcom ht hck hstate

end Sys2Proof.Machine
end

section
/-!
PROOFS. Reads and writes of the register range by a port: the range and its pairs of words, what a read returns and latches,
and the end of an access with its answer (R4 to R8).
-/
namespace Sys2Proof.Machine

variable {s₀ : State} (r : Run s₀)

/-! ## The register range -/

theorem findBlk_isSome {a : Nat} {l : List Blk} : (findBlk a l).isSome = true ↔ ∃ b ∈ l, b.base ≤ a ∧ a < b.base + b.size := by
  induction l with
  | nil => simp [findBlk]
  | cons b l ih =>
    rw [findBlk]
    split
    next h => simp [h]
    next h => simp [ih, h]

theorem regionOf_eq_regs {a : Nat} :
    regionOf a = .regs ↔ 0x4000000 ≤ a ∧ a < 0x5000000 ∧ ∃ b ∈ blocks, b.base ≤ a ∧ a < b.base + b.size := by
  rw [← findBlk_isSome]
  constructor
  · fun_cases regionOf a
    case case8 hlo hhi hb => exact fun _ => ⟨by omega, hhi, hb⟩
    all_goals exact fun h => nomatch h
  · rintro ⟨hlo, hhi, hb⟩
    rw [regionOf, hb]
    rw [if_neg (by omega), if_neg (by omega), if_neg (by omega), if_neg (by omega), if_neg (by omega), if_neg (by omega),
      if_neg (by omega), if_pos hhi, if_pos rfl]

/-- The window of every block ends at a multiple of 8, so that no pair of words lies across its end. -/
theorem regs_high_word {a : Nat} (h : regionOf a = .regs) (h8 : a % 8 = 0) : regionOf (a + 4) = .regs := by
  obtain ⟨hlo, hhi, b, hb, hba, hab⟩ := regionOf_eq_regs.1 h
  have hend : ∀ b ∈ blocks, (b.base + b.size) % 8 = 0 := by decide
  have := hend b hb
  exact regionOf_eq_regs.2 ⟨by omega, by omega, b, hb, by omega, by omega⟩

/-- The low word of a 64-bit register lies at a multiple of 8 of the register range, and is no FIFO output of a trigger. -/
theorem pairLow_place {a : Nat} {x : RegAt} (h : pairLow a x = true) :
    a % 8 = 0 ∧ 4 ≤ a ∧ ¬(x.blk = 0x4020000 ∧ a = Reg.timeTrigOut0 x.i) := by
  unfold pairLow at h
  dsimp only at h
  split at h <;> simp only [Bool.or_eq_true, beq_iff_eq, Bool.false_eq_true, Reg.pwrHoldLo, Reg.pwrPfTsLo, Reg.timeTbNowLo,
    Reg.timeSgIdxLo, Reg.timeSgNextLo, Reg.captSTrigLo, Reg.ethGclBaseLo, Reg.ethGclBaseLoAct, Reg.adcDrLo, Reg.axPosLo,
    Reg.motHomeposLo, Reg.motHomeposLoAct, Reg.motRefLo, Reg.timeTrigOut0] at h ⊢ <;> omega

/-- The address is that of a high word: the register before it is a low word (R8). -/
def isHigh (a : Nat) : Bool := decide (4 ≤ a) && (regAt (a - 4)).any (pairLow (a - 4))

theorem isHigh_eq_false {a : Nat} (h : ∀ y, regAt (a - 4) = some y → pairLow (a - 4) y = false) : isHigh a = false := by
  rw [isHigh, Bool.and_eq_false_iff]
  right
  cases hy : regAt (a - 4) with
  | none => rfl
  | some y => exact h y hy

theorem isHigh_add {a : Nat} {x : RegAt} (hx : regAt a = some x) (h : pairLow a x = true) : isHigh (a + 4) = true := by
  simp [isHigh, hx, h]

/-- A low word is no high word of another register. -/
theorem isHigh_of_pairLow {a : Nat} {x : RegAt} (h : pairLow a x = true) : isHigh a = false := by
  refine isHigh_eq_false fun y _ => Bool.eq_false_iff.2 fun hy => ?_
  obtain ⟨h₁, h₂, -⟩ := pairLow_place h
  have h₃ := (pairLow_place hy).1
  omega

/-! ## What a read of a register does -/

/-- The value that a read returns: a high word from the latch, any other register as it is. -/
def State.readVal (s : State) (a : Nat) : Word := if isHigh a then tget (resetOf a) (a - 4) s.latch else s.regVal a

/-- The fields of a register that a read clears (R4). -/
def RegAt.rcFields (x : RegAt) : List Fld := x.fam.flds.filter fun f => f.acc == .rc

/-- A read of a low word latches the high word (R8). -/
def Run.latched (r : Run s₀) (x : RegAt) (a : Nat) : Run s₀ := if pairLow a x then r.up (.latch a (r.s.regVal (a + 4))) else r

/-- A read clears the RC fields (R4). -/
def Run.rcCleared (r : Run s₀) (x : RegAt) (a : Nat) : Run s₀ :=
  if x.rcFields.isEmpty then r else r.wr a (x.rcFields.foldl (fun w f => putBits w f.hi f.lo 0) (r.s.rget a).toNat)

/-- A read of a register that is no FIFO output: its value, and the effects of the read. -/
theorem regRead_some {a : Nat} {x : RegAt} (hx : regAt a = some x) (ht : ¬(x.blk = 0x4020000 ∧ a = Reg.timeTrigOut0 x.i)) :
    r.regRead a = ((r.latched x a).rcCleared x a, r.s.readVal a) := by
  have hhigh : (decide (4 ≤ a) && (match regAt (a - 4) with | some y => pairLow (a - 4) y | none => false)) = isHigh a := by
    rw [isHigh]; cases regAt (a - 4) <;> rfl
  rw [Run.regRead, hx]
  dsimp only
  rw [if_neg ht]
  simp only [State.readVal, ← hhigh]
  rfl

theorem regRead_none {a : Nat} (hx : regAt a = none) : r.regRead a = (r, 0) := by rw [Run.regRead, hx]

theorem regVal_none (s : State) {a : Nat} (hx : regAt a = none) : s.regVal a = 0 := by rw [State.regVal, hx]

theorem latched_rget (x : RegAt) (a b : Nat) : (r.latched x a).s.rget b = r.s.rget b := by
  rw [Run.latched]
  split
  · exact rget_other (by simp) (by simp) (by simp) b
  · rfl

theorem latched_memKept (x : RegAt) (a : Nat) : MemKept r.s (r.latched x a).s := by
  rw [Run.latched]
  split
  · exact fun _ => rfl
  · exact .refl _

theorem latched_latch {x : RegAt} {a : Nat} (h : pairLow a x = true) :
    (r.latched x a).s.latch = tput a (r.s.regVal (a + 4)) r.s.latch := by
  rw [Run.latched, if_pos h]; rfl

theorem rcCleared_onlyRegs (x : RegAt) (a : Nat) : OnlyRegs r.s (r.rcCleared x a).s [a] := by
  rw [Run.rcCleared]
  split
  · exact .refl ..
  · exact wr_onlyRegs ..

/-- A read changes the register it reads at most, and no memory. -/
theorem read_kept (x : RegAt) (a : Nat) :
    MemKept r.s ((r.latched x a).rcCleared x a).s ∧ RegsKept r.s ((r.latched x a).rcCleared x a).s [a] := by
  have h := rcCleared_onlyRegs (r.latched x a) x a
  exact ⟨(latched_memKept r x a).trans h.memKept, fun b hb => (h.regsKept b hb).trans (latched_rget r x a b)⟩

theorem read_latch {x : RegAt} {a : Nat} (h : pairLow a x = true) :
    ((r.latched x a).rcCleared x a).s.latch = tput a (r.s.regVal (a + 4)) r.s.latch :=
  (rcCleared_onlyRegs (r.latched x a) x a).latch.trans (latched_latch r h)

/-! ## The commands of an access -/

variable {s : State} {port a : Nat} {v : Word}

/-- A write of the register range ends with the answer OK and no data. -/
theorem exec_registerWrite (h : regionOf a = .regs) (h4 : a % 4 = 0) :
    exec (.registerWrite port a v) s = (((Run.start s).regWrite a v.toNat).answer .ok []).done := by
  have hv : ofBytesLE (bytesLE 4 v.toNat) = v.toNat := (ofBytesLE_bytesLE 4 v.toNat).trans (Nat.mod_eq_of_lt v.isLt)
  change execRegisterWrite port a v s = _
  simp [execRegisterWrite, Run.busWrite, h, h4, hv]

theorem wordsOf_word (v : Word) : wordsOf (bytesLE 4 v.toNat) = [v.toNat] := by
  have h : divUp 4 4 = 1 := rfl
  rw [wordsOf, bytesLE_length, h]
  exact congrArg (fun n => [n]) (recNat_word v)

/-- A read of the register range ends with the answer OK and one word. -/
theorem readAnswer_regs (h : regionOf a = .regs) (h4 : a % 4 = 0) :
    r.readAnswer port a = (r.regRead a).1.answer .ok [(r.regRead a).2.toNat] := by
  simp [Run.readAnswer, Run.busRead, h, h4, wordsOf_word]

theorem exec_rcRead : exec (.rcRead port a) s = ((Run.start s).readAnswer port a).done := rfl

theorem exec_lowWordRead : exec (.lowWordRead port a) s = ((Run.start s).readAnswer port a).done := rfl

/-- What a command whose run is a read of a register answers. -/
theorem answers_read {c : Instr} (hc : exec c s = ((Run.start s).readAnswer port a).done) (h : regionOf a = .regs) (h4 : a % 4 = 0)
    {P : State → Prop} (hP : P (((Run.start s).regRead a).1.answer .ok [((Run.start s).regRead a).2.toNat]).s) : Answers c s P :=
  Run.answers _ hc (readAnswer_regs (Run.start s) h h4 ▸ hP)

/-- A reserved offset reads 0. -/
theorem answers_read_none {c : Instr} (hc : exec c s = ((Run.start s).readAnswer port a).done) (h : regionOf a = .regs)
    (h4 : a % 4 = 0) (hx : regAt a = none) :
    Answers c s fun u => u.resp = ⟨.ok, [0]⟩ ∧ RegsKept s u [] ∧ MemKept s u := by
  refine answers_read hc h h4 ?_
  rw [regRead_none _ hx]
  exact ⟨rfl, fun _ _ => rfl, fun _ => rfl⟩

/-- A register that is no FIFO output of a trigger reads its value, and the read has the effects of its fields. -/
theorem answers_read_some {c : Instr} (hc : exec c s = ((Run.start s).readAnswer port a).done) (h : regionOf a = .regs)
    (h4 : a % 4 = 0) {x : RegAt} (hx : regAt a = some x) (ht : ¬(x.blk = 0x4020000 ∧ a = Reg.timeTrigOut0 x.i)) :
    Answers c s fun u => u.resp = ⟨.ok, [(s.readVal a).toNat]⟩ ∧
      (∀ b, u.rget b = (((Run.start s).latched x a).rcCleared x a).s.rget b) ∧ MemKept s u ∧ RegsKept s u [a] ∧
      (pairLow a x = true → u.latch = tput a (s.regVal (a + 4)) s.latch) := by
  refine answers_read hc h h4 ?_
  rw [regRead_some _ hx ht]
  obtain ⟨hm, hr⟩ := read_kept (Run.start s) x a
  exact ⟨rfl, fun _ => rfl, hm, hr, read_latch (Run.start s)⟩

/-- While the latch holds the high word, a read of the high word returns it (R8). -/
theorem answers_read_high {x : RegAt} (h : regionOf a = .regs) (hx : regAt a = some x) (hp : pairLow a x = true) {t : State}
    (hl : ∃ l, t.latch = tput a (s.regVal (a + 4)) l) :
    Answers (.rcRead port (a + 4)) t fun w => w.resp = ⟨.ok, [(s.regVal (a + 4)).toNat]⟩ := by
  obtain ⟨l, hl⟩ := hl
  have h8 := (pairLow_place hp).1
  have hreg := regs_high_word h h8
  cases hy : regAt (a + 4) with
  | none =>
    rw [regVal_none s hy]
    exact (answers_read_none exec_rcRead hreg (by omega) hy).imp fun u hu => hu.1
  | some y =>
    have ht : ¬(y.blk = 0x4020000 ∧ a + 4 = Reg.timeTrigOut0 y.i) := by rintro ⟨-, ha⟩; simp only [Reg.timeTrigOut0] at ha; omega
    refine (answers_read_some exec_rcRead hreg (by omega) hy ht).imp fun u hu => hu.1.trans ?_
    rw [State.readVal, if_pos (isHigh_add hx hp), hl, Nat.add_sub_cancel, tget_tput_same]

end Sys2Proof.Machine
end

section
/-!
PROOFS. Writes of registers that only move values into their fields, by the access code of the fields (R4, R13, R19); a refused
access (R6).
-/
namespace Sys2Proof.Machine

variable {s₀ : State} (r : Run s₀)

/-! ## The fields of a register under a write -/

/-- A field that takes its value holds it. -/
theorem writeFields_taken {f : Fld} {v : Nat} {held : Bool} (hacc : f.acc = .rw ∨ f.acc = .rws ∧ held = false)
    (hok : f.chk.ok (bits v f.hi f.lo) = true) (old : Nat) :
    writeFields old v held [f] = (putBits old f.hi f.lo (bits v f.hi f.lo), false) := by
  rcases hacc with hacc | ⟨hacc, hh⟩ <;> simp [writeFields, *]

/-- A field that refuses its value, or whose group has a commit pending, keeps its own. -/
theorem writeFields_refused {f : Fld} {v : Nat} {held : Bool}
    (h : f.acc = .rw ∧ f.chk.ok (bits v f.hi f.lo) = false ∨ f.acc = .rws ∧ held = true) (old : Nat) :
    writeFields old v held [f] = (old, true) := by
  rcases h with ⟨hacc, hok⟩ | ⟨hacc, hh⟩ <;> simp [writeFields, *]

/-- A read-only field keeps its value. -/
theorem writeFields_ro {f : Fld} (hacc : f.acc = .ro) (old v : Nat) (held : Bool) : writeFields old v held [f] = (old, false) := by
  simp [writeFields, hacc]

theorem bits_one (v k : Nat) : bits v k k = (bit v k).toNat := by
  rw [bits, bit_testBit, Nat.toNat_testBit, Nat.shiftRight_eq_div_pow, Nat.add_sub_cancel_left]; rfl

/-- A single bit that is cleared where a value holds 1. -/
theorem w1c_bit (old v k i : Nat) :
    bit (putBits old k k (bits old k k &&& (2 ^ (k + 1 - k) - 1 - bits v k k))) i = (bit old i && !(bit v i && k == i)) := by
  rw [bits_one, bits_one, Nat.add_sub_cancel_left, bit_testBit, putBits_testBit (le_refl k), ← bit_testBit old i]
  by_cases hi : k ≤ i ∧ i ≤ k
  · obtain rfl : i = k := by omega
    rw [if_pos hi, Nat.sub_self]
    cases bit old i <;> cases bit v i <;> simp
  · rw [if_neg hi, beq_eq_false_iff_ne.2 (by omega : k ≠ i)]
    simp

/-- Single bits of code W1C: those written 1 are cleared, and no value is refused. -/
theorem writeFields_w1c {l : List Fld} (h : ∀ f ∈ l, f.acc = .w1c ∧ f.hi = f.lo) (old v : Nat) (held : Bool) :
    (writeFields old v held l).2 = false ∧
      ∀ i, bit (writeFields old v held l).1 i = (bit old i && !(bit v i && l.any fun f => f.lo == i)) := by
  induction l generalizing old with
  | nil => simp [writeFields]
  | cons f l ih =>
    obtain ⟨hacc, hhi⟩ := h f (List.mem_cons_self ..)
    obtain ⟨ih₁, ih₂⟩ := ih (fun g hg => h g (List.mem_cons_of_mem _ hg))
      (putBits old f.hi f.lo (bits old f.hi f.lo &&& (2 ^ (f.hi + 1 - f.lo) - 1 - bits v f.hi f.lo)))
    simp only [writeFields, hacc]
    refine ⟨ih₁, fun i => ?_⟩
    rw [ih₂, hhi, w1c_bit, List.any_cons]
    cases bit old i <;> cases bit v i <;> simp

/-- A value stored in bits [hi:0] of a register that implements these. -/
theorem stored_toNat {a hi : Nat} (hhi : hi < 32) (hm : (implMask a).toNat = 2 ^ (hi + 1) - 1) (old v : Nat) :
    (BitVec.ofNat 32 (putBits old hi 0 (bits v hi 0)) &&& implMask a).toNat = v % 2 ^ (hi + 1) := by
  refine Nat.eq_of_testBit_eq fun i => ?_
  rw [BitVec.toNat_and, hm, Nat.and_two_pow_sub_one_eq_mod, BitVec.toNat_ofNat, Nat.testBit_mod_two_pow, Nat.testBit_mod_two_pow,
    Nat.testBit_mod_two_pow, putBits_testBit (Nat.zero_le hi), bits_testBit]
  by_cases hi' : i < hi + 1
  · simp [hi', show i < 32 by omega, show i ≤ hi by omega]
  · simp [hi']

/-- A bit of a register after the register has been set whole. -/
theorem wr_rb (a v i : Nat) : (r.wr a v).s.rb a i = (decide (i < 32) && bit v i && bit (implMask a).toNat i) := by
  rw [State.rb, wr_s, rget_reg_same, and_bit, bit_testBit, BitVec.toNat_ofNat, Nat.testBit_mod_two_pow, bit_testBit v]

/-! ## Writes that only move values into fields -/

/-- A register keeps its value when that is written to it again. -/
theorem wr_same {a : Nat} (h : r.s.rget a &&& implMask a = r.s.rget a) (b : Nat) : (r.wr a (r.s.rget a).toNat).s.rget b = r.s.rget b := by
  by_cases hb : b = a
  · subst hb
    rw [wr_s, rget_reg_same, BitVec.ofNat_toNat, BitVec.setWidth_eq, h]
  · exact rget_reg_ne hb _

/-- The group of a register is pending. -/
def State.heldReg (s : State) (x : RegAt) : Bool := match x.group with | some g => s.committing g | none => false

theorem writePlain_eq (x : RegAt) (a v : Nat) :
    let w := writeFields (r.s.rget a).toNat v (r.s.heldReg x) x.fam.flds
    r.writePlain x a v = (r.wr a w.1).when w.2 fun r => r.cfgerr x := rfl

theorem writePlain_taken {x : RegAt} {a v new : Nat}
    (h : writeFields (r.s.rget a).toNat v (r.s.heldReg x) x.fam.flds = (new, false)) : r.writePlain x a v = r.wr a new := by
  rw [writePlain_eq, h, when_false]

theorem writePlain_refused {x : RegAt} {a v old e i : Nat}
    (h : writeFields (r.s.rget a).toNat v (r.s.heldReg x) x.fam.flds = (old, true)) (he : x.err = some (e, i)) :
    r.writePlain x a v = (r.wr a old).flag e i := by
  rw [writePlain_eq, h, when_true, Run.cfgerr, he]

/-- The registers of MESH, PWR, TIME and the blocks behind them, of an index, whose writes act. -/
def coreRegs (i : Nat) : List Nat :=
  [Reg.meshCfg, Reg.meshDmaCtrl i, Reg.rstCtrl, Reg.timeCtrl, Reg.timeSnap, Reg.timeTbCtrl i, Reg.timeTbIncHi i, Reg.timeTbAdjctl i,
    Reg.spTCtrl i, Reg.spLock i, Reg.sigLocateIdx, Reg.sigHotCfg, Reg.sigDportCmd, Reg.captSRd i, Reg.evcEoi]

theorem writeCore_none {x : RegAt} {a : Nat} (h : a ∉ coreRegs x.i) (v : Nat) : r.writeCore x a v = none := by
  simp only [coreRegs, List.mem_cons, not_or] at h
  simp [Run.writeCore, h]

/-- While no vector's level is held as seen, none is forgotten. -/
theorem evcSync_none (h : r.s.mesh.seen = 0) : r.evcSync = r := by rw [Run.evcSync, if_pos h]

/-- The register lies at the address, and its write only moves values into its fields. -/
structure PlainAt (a : Nat) (x : RegAt) (l : List Fld) (g : Option Group) (err : Option (Nat × Nat)) : Prop where
  found : regAt a = some x
  regs : regionOf a = .regs
  aligned : a % 4 = 0
  noCommit : isCommit a = false
  core : a < 0x4070000 ∧ a ∉ coreRegs x.i
  flds : x.fam.flds = l
  group : x.group = g
  cfgerr : x.err = err

/-- The same as one test of an address. -/
def plainAt (a : Nat) (l : List Fld) (g : Option Group) (err : Option (Nat × Nat)) : Bool :=
  (regAt a).any fun x => decide (regionOf a = .regs ∧ a % 4 = 0 ∧ isCommit a = false ∧ (a < 0x4070000 ∧ a ∉ coreRegs x.i) ∧
    x.fam.flds = l ∧ x.group = g ∧ x.err = err)

theorem plainAt_spec {a : Nat} {l : List Fld} {g : Option Group} {err : Option (Nat × Nat)} (h : plainAt a l g err = true) :
    ∃ x, PlainAt a x l g err := by
  obtain ⟨x, hx, hp⟩ := (Option.any_eq_true _ _).1 h
  obtain ⟨h₁, h₂, h₃, h₄, h₅, h₆, h₇⟩ := of_decide_eq_true hp
  exact ⟨x, hx, h₁, h₂, h₃, h₄, h₅, h₆, h₇⟩

theorem regWrite_plain {a : Nat} {x : RegAt} {l : List Fld} {g : Option Group} {err : Option (Nat × Nat)} (h : PlainAt a x l g err)
    (v : Nat) : r.regWrite a v = (r.writePlain x a v).evcSync := by
  rw [Run.regWrite, h.found]
  simp [h.noCommit, h.core.1, writeCore_none r h.core.2]

/-! ## What the command answers -/

/-- What a write that is accepted does outside the registers of a list. -/
def WriteOk (s : State) (l : List Nat) (u : State) : Prop :=
  RegsKept s u l ∧ MemKept s u ∧ u.resp = ⟨.ok, []⟩ ∧ u.time = s.time ∧ u.sp = s.sp

variable {s : State} {port a : Nat} {v : Word} {l : List Nat}

/-- A write of the register range that changes registers of a list at most. -/
theorem answers_write (h : regionOf a = .regs) (h4 : a % 4 = 0) {q : Run s} (hq : (Run.start s).regWrite a v.toNat = q)
    (ho : OnlyRegs s q.s l) : Answers (.registerWrite port a v) s fun u => WriteOk s l u ∧ ∀ b, u.rget b = q.s.rget b := by
  refine Run.answers _ (exec_registerWrite h h4) ?_
  rw [hq]
  exact ⟨⟨ho.regsKept, ho.memKept, rfl, ho.time, ho.sp⟩, fun _ => rfl⟩

/-- A reserved offset takes no value. -/
theorem answers_write_none (h : regionOf a = .regs) (h4 : a % 4 = 0) (hx : regAt a = none) :
    Answers (.registerWrite port a v) s (WriteOk s []) := by
  have hq : (Run.start s).regWrite a v.toNat = Run.start s := by rw [Run.regWrite, hx]
  exact (answers_write h h4 hq (.refl s [])).imp fun u hu => hu.1

variable {x : RegAt} {fs : List Fld} {g : Option Group} {err : Option (Nat × Nat)}

theorem answers_write_plain (hp : PlainAt a x fs g err) (hseen : s.mesh.seen = 0) {q : Run s}
    (hq : (Run.start s).writePlain x a v.toNat = q) (ho : OnlyRegs s q.s l) :
    Answers (.registerWrite port a v) s fun u => WriteOk s l u ∧ ∀ b, u.rget b = q.s.rget b := by
  refine answers_write hp.regs hp.aligned ?_ ho
  rw [regWrite_plain _ hp, hq]
  exact evcSync_none q (ho.mesh ▸ hseen)

/-- Fields that take what is written hold it, in the bits that the register implements. -/
theorem answers_write_taken (hp : PlainAt a x fs g err) (hseen : s.mesh.seen = 0) {new : Nat}
    (hw : writeFields (s.rget a).toNat v.toNat (s.heldReg x) fs = (new, false)) :
    Answers (.registerWrite port a v) s fun u => WriteOk s [a] u ∧ u.rget a = BitVec.ofNat 32 new &&& implMask a := by
  have hq := writePlain_taken (Run.start s) (x := x) (a := a) (hp.flds ▸ hw)
  refine (answers_write_plain hp hseen hq (wr_onlyRegs ..)).imp fun u hu => ⟨hu.1, (hu.2 a).trans ?_⟩
  rw [wr_s, rget_reg_same]

/-- Fields that keep their values leave the register as it was. -/
theorem answers_write_kept (hinv : s.Inv) (hr : resetOf a &&& ~~~implMask a = 0) (hp : PlainAt a x fs g err) (hseen : s.mesh.seen = 0)
    (hw : writeFields (s.rget a).toNat v.toNat (s.heldReg x) fs = ((s.rget a).toNat, false)) :
    Answers (.registerWrite port a v) s (WriteOk s []) := by
  refine (answers_write_taken hp hseen hw).imp fun u hu => ⟨fun b _ => ?_, hu.1.2⟩
  by_cases hb : b = a
  · subst hb
    rw [hu.2, BitVec.ofNat_toNat, BitVec.setWidth_eq, Inv.masked hinv hr (BitVec.and_not_self _)]
  · exact hu.1.1 b (by simpa using hb)

/-- A value that is refused leaves the register as it was, and sets the flag of its block. -/
theorem answers_write_refused (hinv : s.Inv) (hr : resetOf a &&& ~~~implMask a = 0) {e i : Nat} (hp : PlainAt a x fs g (some (e, i)))
    (hi : i < 32) (hm : bit (implMask e).toNat i = true) (hseen : s.mesh.seen = 0)
    (hw : writeFields (s.rget a).toNat v.toNat (s.heldReg x) fs = ((s.rget a).toNat, true)) :
    Answers (.registerWrite port a v) s fun u => WriteOk s [e] u ∧ u.rb e i = true := by
  have hsame := wr_same (Run.start s) (Inv.masked hinv hr (BitVec.and_not_self _))
  have hq := writePlain_refused (Run.start s) (x := x) (a := a) (hp.flds ▸ hw) hp.cfgerr
  have ho : OnlyRegs s ((Run.start s).wr a (s.rget a).toNat).s [] := ⟨(wr_onlyRegs (Run.start s) ..).1, fun b _ => hsame b⟩
  have hf := flag_onlyRegs ((Run.start s).wr a (s.rget a).toNat) e i
  refine (answers_write_plain hp hseen hq ((ho.mono (List.nil_subset _)).trans hf)).imp fun u hu => ⟨hu.1, ?_⟩
  rw [State.rb, hu.2, ← State.rb]
  exact flag_rb _ hi hm

/-- A field of the low bits of a register that takes its value. -/
theorem answers_write_field {hi : Nat} {acc : Acc} {chk : Chk} (hp : PlainAt a x [⟨hi, 0, acc, chk⟩] g err) (hseen : s.mesh.seen = 0)
    (hhi : hi < 32) (hm : (implMask a).toNat = 2 ^ (hi + 1) - 1) (hacc : acc = .rw ∨ acc = .rws ∧ s.heldReg x = false)
    (hok : chk.ok (bits v.toNat hi 0) = true) :
    Answers (.registerWrite port a v) s fun u => WriteOk s [a] u ∧ (u.rget a).toNat = v.toNat % 2 ^ (hi + 1) := by
  refine (answers_write_taken hp hseen (writeFields_taken (f := ⟨hi, 0, acc, chk⟩) hacc hok _)).imp fun u hu => ⟨hu.1, ?_⟩
  rw [hu.2]
  exact stored_toNat hhi hm _ _

/-- The bits of a W1C register that are written 1 are cleared. -/
theorem answers_write_w1c (hinv : s.Inv) (hr : resetOf a &&& ~~~implMask a = 0) (hp : PlainAt a x fs g err)
    (hseen : s.mesh.seen = 0) (hfs : ∀ f ∈ fs, f.acc = .w1c ∧ f.hi = f.lo)
    (hm : ∀ i < 32, bit (implMask a).toNat i = fs.any fun f => f.lo == i) :
    Answers (.registerWrite port a v) s fun u => WriteOk s [a] u ∧ u.rget a = s.rget a &&& ~~~v := by
  obtain ⟨hbad, hbits⟩ := writeFields_w1c hfs (s.rget a).toNat v.toNat (s.heldReg x)
  refine (answers_write_taken hp hseen (Prod.ext rfl hbad)).imp fun u hu => ⟨hu.1, hu.2.trans ?_⟩
  have hres : ∀ i < 32, (implMask a).getLsbD i = false → (s.rget a).getLsbD i = false := by
    intro i _ hf
    have := Inv.reserved_bit hinv hr (i := i) (by rw [bit_testBit]; exact hf)
    rwa [State.rb, bit_testBit] at this
  refine BitVec.eq_of_getLsbD_eq fun i hi => ?_
  have hnew := hbits i
  rw [← hm i hi, bit_testBit, bit_testBit, bit_testBit, bit_testBit] at hnew
  rw [BitVec.getLsbD_and, BitVec.getLsbD_and, BitVec.getLsbD_not, BitVec.getLsbD_ofNat, hnew]
  simp only [BitVec.testBit_toNat, hi, decide_true, Bool.true_and]
  cases hmask : (implMask a).getLsbD i
  · simp [hres i hi hmask]
  · simp

/-! ## A refused access -/

theorem accErr_onlyRegs (wr : Bool) (st : Status) :
    OnlyRegs r.s (r.accErr port a wr st).s [Reg.meshAccLo, Reg.meshAccHi, Reg.meshEvstat] :=
  (((wr_onlyRegs r ..).mono (by decide)).trans ((wr_onlyRegs (r.wr Reg.meshAccLo a) ..).mono (by decide))).trans
    ((flag_onlyRegs ..).mono (by decide))

/-- The word of MESH_ACC_HI of a refused access. -/
def accHiWord (port a : Nat) (wr : Bool) (st : Status) : Nat :=
  2 ^ 31 + (port % 16) <<< 24 + st.code <<< 16 + b2n wr <<< 8 + bits a 39 32

theorem accErr_eq (wr : Bool) (st : Status) : r.accErr port a wr st =
    ((r.wr Reg.meshAccLo a).wr Reg.meshAccHi (accHiWord port a wr st)).flag Reg.meshEvstat 0 := rfl

theorem accHiWord_valid (port a : Nat) (wr : Bool) (st : Status) : bit (accHiWord port a wr st) 31 = true := by
  have hcode : st.code < 2 ^ 8 := by cases st <;> decide
  have hwr : b2n wr ≤ 1 := by cases wr <;> decide
  have hbits : bits a 39 32 < 2 ^ 8 := Nat.mod_lt _ (by decide)
  rw [bit, accHiWord]
  generalize st.code = c, b2n wr = w, bits a 39 32 = d at *
  simp only [Nat.shiftLeft_eq, Nat.shiftRight_eq_div_pow, beq_iff_eq]
  omega

/-- A refused access below 4 GiB is recorded with its address, and raises the flag of access errors (R6, R7). -/
theorem accErr_record (ha : a < 2 ^ 32) (wr : Bool) (st : Status) : ((r.accErr port a wr st).s.rget Reg.meshAccLo).toNat = a ∧
    (r.accErr port a wr st).s.rb Reg.meshAccHi 31 = true ∧ (r.accErr port a wr st).s.rb Reg.meshEvstat 0 = true := by
  have hlo : implMask Reg.meshAccLo = BitVec.allOnes 32 := by decide +kernel
  have hhi : bit (implMask Reg.meshAccHi).toNat 31 = true := by decide +kernel
  have hev : bit (implMask Reg.meshEvstat).toNat 0 = true := by decide +kernel
  rw [accErr_eq]
  refine ⟨?_, ?_, flag_rb _ (by decide) hev⟩
  · rw [flag_other _ (by decide), wr_s, rget_reg_ne (by decide), wr_s, rget_reg_same, hlo, BitVec.and_allOnes, BitVec.toNat_ofNat,
      Nat.mod_eq_of_lt ha]
  · rw [State.rb, flag_other _ (by decide), ← State.rb, wr_rb, hhi, accHiWord_valid]
    rfl

/-- A write of the register range off a multiple of 4 is refused (R6). -/
theorem exec_registerWrite_misaligned (h : regionOf a = .regs) (h4 : a % 4 ≠ 0) :
    exec (.registerWrite port a v) s = (((Run.start s).accErr port a true .fault).answer .fault []).done := by
  change execRegisterWrite port a v s = _
  simp [execRegisterWrite, Run.busWrite, h, h4]

end Sys2Proof.Machine
end

section
/-!
PROOFS. What an access does to a register, for the registers that O30 names.
-/
namespace Sys2Proof.Machine

variable {s : State} {port : Nat} {v : Word}

/-! ## The registers -/

theorem pwrBkp_facts : ∀ w < 64, plainAt (Reg.pwrBkp w) [⟨31, 0, .rw, .any⟩] none (some (Reg.pwrEvstat, 6)) = true ∧
    implMask (Reg.pwrBkp w) = BitVec.allOnes 32 := by decide +kernel

/-- The flags of PWR_EVSTAT. -/
def pwrFlags : List Fld := [⟨6, 6, .w1c, .any⟩, ⟨5, 5, .w1c, .any⟩, ⟨4, 4, .w1c, .any⟩, ⟨3, 3, .w1c, .any⟩, ⟨2, 2, .w1c, .any⟩,
  ⟨1, 1, .w1c, .any⟩, ⟨0, 0, .w1c, .any⟩]

theorem pwrEvstat_facts : plainAt Reg.pwrEvstat pwrFlags none (some (Reg.pwrEvstat, 6)) = true ∧ resetOf Reg.pwrEvstat = 0 ∧
    ∀ i < 32, bit (implMask Reg.pwrEvstat).toNat i = pwrFlags.any fun f => f.lo == i := by decide +kernel

theorem meshPcieId_facts : plainAt Reg.meshPcieId [⟨31, 0, .ro, .any⟩] none (some (Reg.meshEvstat, 7)) = true ∧
    resetOf Reg.meshPcieId &&& ~~~implMask Reg.meshPcieId = 0 := by decide +kernel

theorem pwrCfg_facts : plainAt Reg.pwrCfg [⟨7, 0, .rw, .nonzero⟩] none (some (Reg.pwrEvstat, 6)) = true ∧
    (implMask Reg.pwrCfg).toNat = 2 ^ 8 - 1 ∧ resetOf Reg.pwrCfg &&& ~~~implMask Reg.pwrCfg = 0 ∧
    bit (implMask Reg.pwrEvstat).toNat 6 = true := by decide +kernel

theorem timeSgPhase_facts : ∀ g < 16,
    plainAt (Reg.timeSgPhase g) [⟨24, 0, .rws, .any⟩] (some (.sg g)) (some (Reg.timeEvstat, 5)) = true ∧
    (implMask (Reg.timeSgPhase g)).toNat = 2 ^ 25 - 1 ∧ resetOf (Reg.timeSgPhase g) = 0 := by decide +kernel

theorem timeEvstat_cfgerr : bit (implMask Reg.timeEvstat).toNat 5 = true := by decide +kernel

/-- The fields of MESH_Pp_WAIT. -/
def waitFields : List Fld := [⟨31, 16, .rc, .any⟩, ⟨15, 0, .rc, .any⟩]

theorem meshPWait_facts : ∀ p < 16, regionOf (Reg.meshPWait p) = .regs ∧ isHigh (Reg.meshPWait p) = false ∧
    (regAt (Reg.meshPWait p)).any fun x => decide (x.blk = 0x4000000 ∧ Reg.meshPWait p ≠ Reg.meshDmaStat x.i ∧ x.rcFields = waitFields) := by
  decide +kernel

theorem timeTbNow_facts : ∀ n < 8, regionOf (Reg.timeTbNowLo n) = .regs ∧
    ((regAt (Reg.timeTbNowLo n)).any fun x => decide (x.blk = 0x4020000 ∧ x.i = n ∧ x.rcFields = [])) ∧
    (regAt (Reg.timeTbNowHi n)).any fun x => decide (x.blk = 0x4020000 ∧ x.i = n) := by
  decide +kernel

/-! ## Values that registers show -/

/-- MESH_Pp_WAIT shows what the register file holds. -/
theorem regVal_mesh {a : Nat} {x : RegAt} (hx : regAt a = some x) (hb : x.blk = 0x4000000) (ha : a ≠ Reg.meshDmaStat x.i) :
    s.regVal a = s.rget a := by
  have hview : s.view a x = none := by
    unfold State.view
    rw [hb]
    exact if_neg ha
  rw [State.regVal, hx]
  dsimp only
  rw [hview]

theorem regVal_timeTbNowLo {n : Nat} {x : RegAt} (hx : regAt (Reg.timeTbNowLo n) = some x) (hb : x.blk = 0x4020000) (hi : x.i = n) :
    s.regVal (Reg.timeTbNowLo n) = BitVec.ofNat 32 (half (s.seenTime n) false) := by
  have hview : s.view (Reg.timeTbNowLo n) x = some (half (s.seenTime n) false) := by
    unfold State.view
    rw [hb, hi]
    refine (if_neg (by unfold Reg.timeTbNowLo Reg.timeCommit; omega)).trans ?_
    rw [State.timeView, if_pos rfl]
  rw [State.regVal, hx]
  dsimp only
  rw [hview]

theorem regVal_timeTbNowHi {n : Nat} {x : RegAt} (hx : regAt (Reg.timeTbNowHi n) = some x) (hb : x.blk = 0x4020000) (hi : x.i = n) :
    s.regVal (Reg.timeTbNowHi n) = BitVec.ofNat 32 (half (s.seenTime n) true) := by
  have hview : s.view (Reg.timeTbNowHi n) x = some (half (s.seenTime n) true) := by
    unfold State.view
    rw [hb, hi]
    refine (if_neg (by unfold Reg.timeTbNowHi Reg.timeCommit; omega)).trans ?_
    rw [State.timeView, if_neg (by unfold Reg.timeTbNowHi Reg.timeTbNowLo; omega), if_pos rfl]
  rw [State.regVal, hx]
  dsimp only
  rw [hview]

theorem half_low (v : Nat) : (BitVec.ofNat 32 (half v false)).toNat = v % 2 ^ 32 := by
  simp [half, bits]

theorem half_high {v : Nat} (h : v < 2 ^ 64) : (BitVec.ofNat 32 (half v true)).toNat = v / 2 ^ 32 := by
  simp only [half, if_true, bits, BitVec.toNat_ofNat, Nat.shiftRight_eq_div_pow]
  omega

/-! ## Accesses to them -/

theorem write_pwrBkp {w : Nat} (hw : w < 64) (hseen : s.mesh.seen = 0) :
    Answers (.registerWrite port (Reg.pwrBkp w) v) s fun u => WriteOk s [Reg.pwrBkp w] u ∧ u.rget (Reg.pwrBkp w) = v := by
  obtain ⟨hp, hm⟩ := pwrBkp_facts w hw
  obtain ⟨x, hp⟩ := plainAt_spec hp
  refine (answers_write_field hp hseen (by decide) (by rw [hm]; rfl) (.inl rfl) rfl).imp fun u hu => ⟨hu.1, ?_⟩
  exact BitVec.eq_of_toNat_eq (hu.2.trans (Nat.mod_eq_of_lt v.isLt))

theorem write_pwrEvstat (hinv : s.Inv) (hseen : s.mesh.seen = 0) : Answers (.registerWrite port Reg.pwrEvstat v) s fun u =>
    WriteOk s [Reg.pwrEvstat] u ∧ u.rget Reg.pwrEvstat = s.rget Reg.pwrEvstat &&& ~~~v := by
  obtain ⟨hp, hr, hm⟩ := pwrEvstat_facts
  obtain ⟨x, hp⟩ := plainAt_spec hp
  exact answers_write_w1c hinv (by rw [hr]; exact BitVec.zero_and) hp hseen (by decide) hm

theorem write_meshPcieId (hinv : s.Inv) (hseen : s.mesh.seen = 0) :
    Answers (.registerWrite port Reg.meshPcieId v) s (WriteOk s []) := by
  obtain ⟨hp, hr⟩ := meshPcieId_facts
  obtain ⟨x, hp⟩ := plainAt_spec hp
  exact answers_write_kept hinv hr hp hseen (writeFields_ro rfl _ _ _)

theorem write_misaligned {a : Nat} (h : regionOf a = .regs) (h4 : a % 4 ≠ 0) : Answers (.registerWrite port a v) s fun u =>
    u.resp = ⟨.fault, []⟩ ∧ MemKept s u ∧ RegsKept s u [Reg.meshAccLo, Reg.meshAccHi, Reg.meshEvstat] ∧
      (u.rget Reg.meshAccLo).toNat = a ∧ u.rb Reg.meshAccHi 31 = true ∧ u.rb Reg.meshEvstat 0 = true := by
  have ho := accErr_onlyRegs (Run.start s) (port := port) (a := a) true .fault
  have ha := (regionOf_eq_regs.1 h).2.1
  have hrec := accErr_record (Run.start s) (port := port) (show a < 2 ^ 32 by omega) true .fault
  refine Run.answers _ (exec_registerWrite_misaligned h h4) ?_
  generalize (Run.start s).accErr port a true .fault = q at ho hrec
  exact ⟨rfl, ho.memKept, ho.regsKept, hrec⟩

theorem write_pwrCfg_zero (hinv : s.Inv) (hseen : s.mesh.seen = 0) (hv : v.toNat % 256 = 0) :
    Answers (.registerWrite port Reg.pwrCfg v) s fun u => WriteOk s [Reg.pwrEvstat] u ∧ u.rb Reg.pwrEvstat 6 = true := by
  obtain ⟨hp, -, hr, hm⟩ := pwrCfg_facts
  obtain ⟨x, hp⟩ := plainAt_spec hp
  have hbad : Chk.ok .nonzero (bits v.toNat 7 0) = false := by simp [Chk.ok, bits, hv]
  exact answers_write_refused hinv hr hp (by decide) hm hseen (writeFields_refused (.inl ⟨rfl, hbad⟩) _)

theorem write_pwrCfg (hseen : s.mesh.seen = 0) (hv : v.toNat % 256 ≠ 0) : Answers (.registerWrite port Reg.pwrCfg v) s fun u =>
    WriteOk s [Reg.pwrCfg] u ∧ (u.rget Reg.pwrCfg).toNat = v.toNat % 256 := by
  obtain ⟨hp, hm, -⟩ := pwrCfg_facts
  obtain ⟨x, hp⟩ := plainAt_spec hp
  exact answers_write_field hp hseen (by decide) hm (.inl rfl) (by simp [Chk.ok, bits, hv])

/-- A shadow register whose group has a commit pending refuses a write (R13). -/
theorem write_timeSgPhase_held {g : Nat} (hg : g < 16) (hinv : s.Inv) (hseen : s.mesh.seen = 0) (hc : s.committing (.sg g) = true) :
    Answers (.registerWrite port (Reg.timeSgPhase g) v) s fun u => WriteOk s [Reg.timeEvstat] u ∧ u.rb Reg.timeEvstat 5 = true := by
  obtain ⟨hp, -, hr⟩ := timeSgPhase_facts g hg
  obtain ⟨x, hp⟩ := plainAt_spec hp
  have hheld : s.heldReg x = true := by rw [State.heldReg, hp.group]; exact hc
  exact answers_write_refused hinv (by rw [hr]; exact BitVec.zero_and) hp (by decide) timeEvstat_cfgerr hseen
    (writeFields_refused (.inr ⟨rfl, hheld⟩) _)

theorem write_timeSgPhase {g : Nat} (hg : g < 16) (hseen : s.mesh.seen = 0) (hc : s.committing (.sg g) = false) :
    Answers (.registerWrite port (Reg.timeSgPhase g) v) s fun u =>
      WriteOk s [Reg.timeSgPhase g] u ∧ (u.rget (Reg.timeSgPhase g)).toNat = v.toNat % 2 ^ 25 := by
  obtain ⟨hp, hm, -⟩ := timeSgPhase_facts g hg
  obtain ⟨x, hp⟩ := plainAt_spec hp
  have hheld : s.heldReg x = false := by rw [State.heldReg, hp.group]; exact hc
  exact answers_write_field hp hseen (by decide) hm (.inr ⟨rfl, hheld⟩) rfl

/-- Both halves of a word cleared. -/
theorem cleared_halves (w : Word) : BitVec.ofNat 32 (putBits (putBits w.toNat 31 16 0) 15 0 0) = 0 := by
  refine BitVec.eq_of_getLsbD_eq fun i hi => ?_
  rw [BitVec.getLsbD_ofNat, putBits_testBit (by decide), putBits_testBit (by decide)]
  by_cases h : i ≤ 15
  · simp [h]
  · simp [h, show 16 ≤ i by omega, show i ≤ 31 by omega]

/-- A read of MESH_Pp_WAIT returns the register and clears it. -/
theorem read_meshPWait {p : Nat} (hp : p < 16) : Answers (.rcRead port (Reg.meshPWait p)) s fun u =>
    u.resp = ⟨.ok, [(s.rget (Reg.meshPWait p)).toNat]⟩ ∧ RegsKept s u [Reg.meshPWait p] ∧ u.rget (Reg.meshPWait p) = 0 ∧
      MemKept s u := by
  obtain ⟨hreg, hhigh, hany⟩ := meshPWait_facts p hp
  obtain ⟨x, hx, hd⟩ := (Option.any_eq_true _ _).1 hany
  obtain ⟨hb, ha, hrc⟩ := of_decide_eq_true hd
  have hval : s.readVal (Reg.meshPWait p) = s.rget (Reg.meshPWait p) := by
    rw [State.readVal, hhigh, if_neg Bool.false_ne_true, regVal_mesh hx hb ha]
  have h4 : Reg.meshPWait p % 4 = 0 := by unfold Reg.meshPWait; omega
  refine (answers_read_some exec_rcRead hreg h4 hx (by rw [hb]; rintro ⟨h, -⟩; cases h)).imp fun u hu => ?_
  obtain ⟨hresp, hget, hm, hr, -⟩ := hu
  refine ⟨by rw [hresp, hval], hr, ?_, hm⟩
  rw [hget, Run.rcCleared, hrc, if_neg (by decide), wr_s, rget_reg_same, latched_rget]
  exact (congrArg (· &&& _) (cleared_halves _)).trans BitVec.zero_and

/-- A read of a low word returns it, and the next read of the high word returns what the high word was (R8). -/
theorem read_low {a : Nat} {x : RegAt} (h : regionOf a = .regs) (hx : regAt a = some x) (hp : pairLow a x = true) :
    Answers (.lowWordRead port a) s fun u => u.resp = ⟨.ok, [(s.regVal a).toNat]⟩ ∧ MemKept s u ∧ RegsKept s u [a] ∧
      (∀ b, u.rget b = (((Run.start s).latched x a).rcCleared x a).s.rget b) ∧
      ∀ t : State, t.latch = u.latch → Answers (.rcRead port (a + 4)) t fun w => w.resp = ⟨.ok, [(s.regVal (a + 4)).toNat]⟩ := by
  obtain ⟨h8, -, ht⟩ := pairLow_place hp
  have hval : s.readVal a = s.regVal a := by rw [State.readVal, isHigh_of_pairLow hp, if_neg Bool.false_ne_true]
  refine (answers_read_some exec_lowWordRead h (by omega) hx ht).imp fun u hu => ?_
  obtain ⟨hresp, hget, hm, hr, hl⟩ := hu
  exact ⟨hval ▸ hresp, hm, hr, hget, fun t htl => answers_read_high h hx hp ⟨_, htl.trans (hl hp)⟩⟩

/-- The low word of the time of a base, with the high word held for the next read of it. -/
theorem read_timeTbNow {n : Nat} (hn : n < 8) (hv : s.seenTime n < 2 ^ 64) :
    Answers (.lowWordRead port (Reg.timeTbNowLo n)) s fun u => u.resp = ⟨.ok, [s.seenTime n % 2 ^ 32]⟩ ∧ RegsKept s u [] ∧
      MemKept s u ∧ ∀ t : State, t.latch = u.latch →
        Answers (.rcRead port (Reg.timeTbNowHi n)) t fun w => w.resp = ⟨.ok, [s.seenTime n / 2 ^ 32]⟩ := by
  obtain ⟨hreg, hlo, hhi⟩ := timeTbNow_facts n hn
  obtain ⟨x, hx, hd⟩ := (Option.any_eq_true _ _).1 hlo
  obtain ⟨hb, hi, hrc⟩ := of_decide_eq_true hd
  obtain ⟨y, hy, hd'⟩ := (Option.any_eq_true _ _).1 hhi
  obtain ⟨hb', hi'⟩ := of_decide_eq_true hd'
  have hpair : pairLow (Reg.timeTbNowLo n) x = true := by
    unfold pairLow
    rw [hb, hi]
    simp
  have hnext : Reg.timeTbNowLo n + 4 = Reg.timeTbNowHi n := by unfold Reg.timeTbNowLo Reg.timeTbNowHi; omega
  refine (read_low hreg hx hpair).imp fun u hu => ?_
  obtain ⟨hresp, hm, -, hget, hnextRead⟩ := hu
  rw [regVal_timeTbNowLo hx hb hi, half_low] at hresp
  rw [hnext, regVal_timeTbNowHi hy hb' hi', half_high hv] at hnextRead
  refine ⟨hresp, fun b _ => (hget b).trans ?_, hm, hnextRead⟩
  rw [Run.rcCleared, hrc]
  exact latched_rget ..

/-! ## The obligation -/

/-- Settles O30: the answers of the register range for every address, and what the access codes do to the registers named. -/
theorem registerAccess : Obligations.RegisterAccess := by
  refine ⟨fun s port a v h h4 => ⟨?_, fun x hx ht hlow => ?_, fun x hx hp => ?_⟩, ?_⟩
  · exact Run.answers _ (exec_registerWrite h h4) rfl
  · have hval : s.readVal a = s.regVal a := by rw [State.readVal, isHigh_eq_false hlow, if_neg Bool.false_ne_true]
    refine (answers_read_some exec_rcRead h h4 hx fun hh => ht hh.2).imp fun u hu => ?_
    obtain ⟨hresp, -, hm, hr, -⟩ := hu
    exact ⟨hval ▸ hresp, hm, hr⟩
  · exact (read_low h hx hp).imp fun u ⟨hresp, hm, hr, _, hnext⟩ => ⟨hresp, hm, hr, hnext⟩
  · intro s port v hinv hseen
    refine ⟨fun w hw => write_pwrBkp hw hseen, write_pwrEvstat hinv hseen, write_meshPcieId hinv hseen, fun a h h4 hx =>
      ⟨answers_write_none h h4 hx, answers_read_none exec_rcRead h h4 hx⟩, fun a h h4 => write_misaligned h h4,
      write_pwrCfg_zero hinv hseen, write_pwrCfg hseen, fun g hg => write_timeSgPhase_held hg hinv hseen,
      fun g hg => write_timeSgPhase hg hseen, fun p hp => read_meshPWait hp, fun n hn hv => read_timeTbNow hn hv⟩

end Sys2Proof.Machine
end

section
/-!
PROOFS. One tick of a time base, field by field, and the ticks that use up a slew (O34).
-/
namespace Sys2Proof.Machine

variable (b : Base) (n : Nat)

/-! ## The full time is carried on apart from the count -/

/-- Carrying the full time on sets the seconds and nanoseconds only. -/
theorem setFull_rest (v : Nat) : b.setFull n v = { b with sec := (b.setFull n v).sec, ns := (b.setFull n v).ns } := by
  unfold Base.setFull; split <;> rfl

/-- The full time of a privileged base is the one it is set to, modulo its 48 bits of seconds (R50). -/
theorem setFull_full (h : n ≤ 2) (v : Nat) :
    (b.setFull n v).sec * 10 ^ 9 + (b.setFull n v).ns = v % (2 ^ 48 * 10 ^ 9) ∧ (b.setFull n v).ns < 10 ^ 9 := by
  simp only [Base.setFull, if_pos h]
  omega

/-! ## What a tick does -/

/-- The slew term of a tick (R53). -/
def Base.term : Nat := if b.slewing then min b.slewStep b.slewLeft else 0

/-- The fixed-point value that a tick comes to, before the base's width is applied (R47). -/
def Base.ticked : Nat := b.int * 2 ^ 32 + b.frac + (if b.slewNeg then b.inc - b.term else b.inc + b.term)

/-- Everything a tick changes, field by field. -/
theorem tick_eq : b.tick n = { b with
    int := b.ticked / 2 ^ 32 % 2 ^ intBits n
    frac := b.ticked % 2 ^ 32
    added := (if b.slewNeg then b.inc - b.term else b.inc + b.term)
    slewLeft := b.slewLeft - b.term
    wraps := if n ≤ 2 then b.wraps else (b.wraps + b.ticked / 2 ^ 32 / 2 ^ intBits n) % 2 ^ 16
    was := if n ≤ 2 then b.int else b.int + b.wraps * 2 ^ 32
    sec := (b.tick n).sec
    ns := (b.tick n).ns } := by
  simp only [Base.ticked, Base.term, ← Nat.shiftLeft_eq, ← Nat.shiftRight_eq_div_pow _ 32]
  exact setFull_rest ..

@[simp] theorem tick_slewing : (b.tick n).slewing = b.slewing := by rw [tick_eq]
@[simp] theorem tick_slewStep : (b.tick n).slewStep = b.slewStep := by rw [tick_eq]
@[simp] theorem tick_slewLeft : (b.tick n).slewLeft = b.slewLeft - b.term := by rw [tick_eq]

/-- The count and fraction of a base after a tick are the value it comes to, modulo the base's width (R47). -/
theorem tick_value : (b.tick n).int * 2 ^ 32 + (b.tick n).frac = b.ticked % (2 ^ intBits n * 2 ^ 32) := by
  rw [tick_eq, Nat.mul_comm (2 ^ intBits n), Nat.mod_mul]
  dsimp only
  omega

/-- The seconds and nanoseconds of a privileged base are carried on by the nanoseconds that its count gains (R50). -/
theorem tick_full (h : n ≤ 2) (hs : b.int * 2 ^ 32 ≤ b.ticked) :
    (b.tick n).sec * 10 ^ 9 + (b.tick n).ns = (b.sec * 10 ^ 9 + b.ns + b.ticked / 2 ^ 32 - b.int) % (2 ^ 48 * 10 ^ 9) ∧
      (b.tick n).ns < 10 ^ 9 := by
  have hadd : b.sec * 10 ^ 9 + b.ns + b.ticked / 2 ^ 32 - b.int = b.full + (b.ticked / 2 ^ 32 - b.int) := by
    rw [Base.full]; omega
  rw [hadd]
  simp only [Base.ticked, Base.term, ← Nat.shiftLeft_eq, ← Nat.shiftRight_eq_div_pow _ 32]
  exact setFull_full _ n h _

theorem ticked_idle (h : b.slewing = false) : b.ticked = b.int * 2 ^ 32 + b.frac + b.inc := by simp [Base.ticked, Base.term, h]

theorem ticked_ahead (h : b.slewNeg = false) : b.ticked = b.int * 2 ^ 32 + b.frac + b.inc + b.term := by
  simp [Base.ticked, h, Nat.add_assoc]

theorem ticked_back (h : b.slewNeg = true) : b.ticked = b.int * 2 ^ 32 + b.frac + (b.inc - b.term) := by simp [Base.ticked, h]

theorem term_idle (h : b.slewing = false) : b.term = 0 := by simp [Base.term, h]

theorem term_slewing (h : b.slewing = true) : b.term = min b.slewStep b.slewLeft := by simp [Base.term, h]

/-! ## A slew over many ticks -/

/-- After `k` ticks a slew has `k` steps less left, and never less than nothing (R53). -/
theorem ticks_slewLeft (h : b.slewing = true) (k : Nat) :
    ((fun x : Base => x.tick n)^[k] b).slewLeft = b.slewLeft - k * b.slewStep := by
  induction k generalizing b with
  | zero => simp
  | succ k ih =>
    rw [Function.iterate_succ_apply, ih (b.tick n) (by rw [tick_slewing, h]), tick_slewLeft, tick_slewStep, term_slewing b h,
      Nat.succ_mul]
    omega

/-- Rounded-up division counts enough steps. -/
theorem le_mul_divUp {a c k : Nat} (hc : 0 < c) (h : divUp a c ≤ k) : a ≤ k * c := by
  rw [divUp, if_neg (by omega)] at h
  have hle : (a + c - 1) / c * c ≤ k * c := Nat.mul_le_mul_right c h
  have hmod := Nat.div_add_mod (a + c - 1) c
  have hlt := Nat.mod_lt (a + c - 1) hc
  rw [Nat.mul_comm] at hmod
  omega

/-! ## Reads of a base -/

/-- A read shows the last tick or the one before it, and for two cycles after a tick always the latter (R33). -/
theorem seenTime_cases (s : State) (n : Nat) : (s.seenTime n = s.baseTime n ∨ s.seenTime n = (s.base n).was) ∧
    (s.cyc % 4 < 2 → s.seenTime n = (s.base n).was) := by
  unfold State.seenTime
  split
  case isTrue h =>
    have h2 : 2 ≤ s.cyc % 4 := by simpa using (Bool.and_eq_true_iff.1 h).1
    exact ⟨.inl rfl, fun hlt => absurd hlt (not_lt.2 h2)⟩
  case isFalse => exact ⟨.inr rfl, fun _ => rfl⟩

/-- Settles O34: reads by `seenTime_cases`, a tick by its fields, the ticks of a slew by `ticks_slewLeft`. -/
theorem timeBasesTick : Obligations.TimeBasesTick := by
  refine ⟨seenTime_cases, ?_⟩
  intro b n _ hfrac hint m v t term
  have hm : m = 2 ^ intBits n := rfl
  refine ⟨?_, fun hidle hn => ?_, fun hidle => ⟨?_, ?_, fun hn => ?_⟩, fun hslew => ⟨?_, fun hneg => ?_, fun hneg _ => ?_⟩,
    fun hslew hstep k hk => ?_⟩
  · rw [show t = b.tick n from rfl, tick_eq]
    exact ⟨Nat.mod_lt _ (by decide), Nat.mod_lt _ (Nat.two_pow_pos _), rfl, rfl⟩
  · have hv := ticked_idle b hidle
    have := tick_full b n hn (by omega)
    rwa [hv] at this
  · rw [tick_value, ticked_idle b hidle, hm]
  · rw [tick_slewLeft, term_idle b hidle, Nat.sub_zero]
  · have hwide : intBits n = 32 := if_neg (Nat.not_le.2 hn)
    rw [show t = b.tick n from rfl, tick_eq]
    dsimp only
    rw [if_neg (Nat.not_le.2 hn), ticked_idle b hidle, hwide, Nat.div_div_eq_div_mul, ← Nat.pow_add]
  · rw [tick_slewLeft, term_slewing b hslew]
    exact Nat.sub_add_cancel (Nat.min_le_right ..)
  · rw [tick_value, ticked_ahead b hneg, term_slewing b hslew, hm]
  · rw [tick_value, ticked_back b hneg, term_slewing b hslew, hm]
  · rw [ticks_slewLeft b n hslew]
    exact Nat.sub_eq_zero_of_le (le_mul_divUp hstep hk)

end Sys2Proof.Machine
end

section
/-!
PROOFS. A step (O1). Only the SYS cycle itself moves the model's clock `cyc`: every part of it leaves the clock, each said once.
-/
namespace Sys2Proof.Machine

variable {s₀ : State} (r : Run s₀)

/-! ## Updates, branches and loops -/

@[simp] theorem cyc_ite {p : Prop} [Decidable p] (a b : Run s₀) :
    (if p then a else b).s.cyc = if p then a.s.cyc else b.s.cyc := by split <;> rfl
@[simp] theorem fst_cyc_ite {α : Type} {p : Prop} [Decidable p] (a b : Run s₀ × α) :
    (if p then a else b).1.s.cyc = if p then a.1.s.cyc else b.1.s.cyc := by split <;> rfl
/-- What every round of a loop leaves, the loop leaves. -/
@[simp] theorem each_cyc {α : Type} {l : List α} {f : Run s₀ → α → Run s₀} (hf : ∀ r a, (f r a).s.cyc = r.s.cyc) :
    (r.each l f).s.cyc = r.s.cyc := each_ind (P := fun q => q.s.cyc = r.s.cyc) (fun q a _ h => (hf q a).trans h) rfl
@[simp] theorem when_cyc (b : Bool) {f : Run s₀ → Run s₀} (hf : ∀ r, (f r).s.cyc = r.s.cyc) :
    (r.when b f).s.cyc = r.s.cyc := by
  cases b
  · rfl
  · exact hf r
@[simp] theorem count_cyc (a hi lo : Nat) : (r.count a hi lo).s.cyc = r.s.cyc := rfl
@[simp] theorem drawn_cyc : r.drawn.s.cyc = r.s.cyc := by simp [Run.drawn]
@[simp] theorem mapSig_cyc (f : SigSt → SigSt) : (r.mapSig f).s.cyc = r.s.cyc := by simp [Run.mapSig]
@[simp] theorem setSig_cyc (i : Nat) (g : Sig) : (r.setSig i g).s.cyc = r.s.cyc := by simp [Run.setSig]
@[simp] theorem mapSp_cyc (f : SpSt → SpSt) : (r.mapSp f).s.cyc = r.s.cyc := by simp [Run.mapSp]
@[simp] theorem mapLe_cyc (f : LeSt → LeSt) : (r.mapLe f).s.cyc = r.s.cyc := by simp [Run.mapLe]
@[simp] theorem mapTime_cyc (f : TimeSt → TimeSt) : (r.mapTime f).s.cyc = r.s.cyc := by simp [Run.mapTime]
@[simp] theorem mapHerd_cyc (f : HerdSt → HerdSt) : (r.mapHerd f).s.cyc = r.s.cyc := by simp [Run.mapHerd]
@[simp] theorem setThread_cyc (t : Nat) (x : Thread) : (r.setThread t x).s.cyc = r.s.cyc := by simp [Run.setThread]
@[simp] theorem setLec_cyc (c : Nat) (x : LeCtx) : (r.setLec c x).s.cyc = r.s.cyc := by simp [Run.setLec]
@[simp] theorem setHport_cyc (p : Nat) (x : HPort) : (r.setHport p x).s.cyc = r.s.cyc := by simp [Run.setHport]
@[simp] theorem setGrid_cyc (g : Nat) (x : Grid) : (r.setGrid g x).s.cyc = r.s.cyc := by simp [Run.setGrid]
@[simp] theorem setAdc_cyc (n : Nat) (x : Adc) : (r.setAdc n x).s.cyc = r.s.cyc := by simp [Run.setAdc]
@[simp] theorem setAx_cyc (n : Nat) (x : Axis) : (r.setAx n x).s.cyc = r.s.cyc := by simp [Run.setAx]
@[simp] theorem setMac_cyc (n : Nat) (x : EthMac) : (r.setMac n x).s.cyc = r.s.cyc := by simp [Run.setMac]
@[simp] theorem setMot_cyc (n : Nat) (x : Mot) : (r.setMot n x).s.cyc = r.s.cyc := by simp [Run.setMot]
@[simp] theorem setSd_cyc (c : Nat) (x : SdChan) : (r.setSd c x).s.cyc = r.s.cyc := by simp [Run.setSd]
@[simp] theorem setVm_cyc (m : Nat) (x : Vm) : (r.setVm m x).s.cyc = r.s.cyc := by simp [Run.setVm]
@[simp] theorem setCs_cyc (n : Nat) (x : CaptSess) : (r.setCs n x).s.cyc = r.s.cyc := by simp [Run.setCs]
@[simp] theorem setBase_cyc (n : Nat) (b : Base) : (r.setBase n b).s.cyc = r.s.cyc := by simp [Run.setBase]
@[simp] theorem setTrig_cyc (ch : Nat) (x : TrigCh) : (r.setTrig ch x).s.cyc = r.s.cyc := by simp [Run.setTrig]
@[simp] theorem putBytes_cyc (a : Nat) (d : List Byte) : (r.putBytes a d).s.cyc = r.s.cyc := by
  rw [putBytes_s]

/-! ## Ends of operations -/

@[simp] theorem opSet_cyc (o : Op) : (r.opSet o).s.cyc = r.s.cyc := by simp [Run.opSet]
@[simp] theorem opEnd_cyc (o : Op) (st : Status) (cause : Nat) (stamp : Nat) (res : List Byte) (uflags : Nat) :
    (r.opEnd o st cause stamp res uflags).s.cyc = r.s.cyc := by
  simp [Run.opEnd]
@[simp] theorem opFin_cyc (o : Op) (st : Status) (cause : Nat) (res : List Byte) :
    (r.opFin o st cause res).s.cyc = r.s.cyc := by
  simp [Run.opFin]
@[simp] theorem opFinId_cyc (id : Nat) (st : Status) (cause : Nat) (res : List Byte) :
    (r.opFinId id st cause res).s.cyc = r.s.cyc := by
  fun_cases Run.opFinId r id st cause res <;> simp +zetaDelta
@[simp] theorem endWatches_cyc (i : Nat) (st : Status) (cause : Nat) : (r.endWatches i st cause).s.cyc = r.s.cyc := by
  simp [Run.endWatches]
@[simp] theorem endIds_cyc (ids : List Nat) (st : Option Status) (cause k : Nat) :
    (r.endIds ids st cause k).s.cyc = r.s.cyc := by
  rw [Run.endIds, each_cyc]
  intro q k
  split <;> simp
@[simp] theorem arriveEnd_cyc (n : Nat) (st : Option Status) (cause k : Nat) : (r.arriveEnd n st cause k).s.cyc = r.s.cyc := by
  simp [Run.arriveEnd]

/-! ## Memory and its errors -/

@[simp] theorem accErr_cyc (port a : Nat) (wr : Bool) (st : Status) : (r.accErr port a wr st).s.cyc = r.s.cyc := by
  simp [Run.accErr]
@[simp] theorem eccClear_cyc (w : Nat) : (r.eccClear w).s.cyc = r.s.cyc := by simp [Run.eccClear]
@[simp] theorem eccCorrect_cyc (w : Nat) : (r.eccCorrect w).s.cyc = r.s.cyc := by
  fun_cases Run.eccCorrect r w <;> simp +zetaDelta
@[simp] theorem memErr_cyc : r.memErr.s.cyc = r.s.cyc := by simp [Run.memErr]
@[simp] theorem sigEcc_cyc (i : Nat) : (r.sigEcc i).s.cyc = r.s.cyc := by simp [Run.sigEcc]
@[simp] theorem eccFatal_cyc (w : Nat) : (r.eccFatal w).s.cyc = r.s.cyc := by fun_cases Run.eccFatal r w <;> simp +zetaDelta
@[simp] theorem eccRead_cyc (a n : Nat) : (r.eccRead a n).1.s.cyc = r.s.cyc := by simp [Run.eccRead]
@[simp] theorem memRead_cyc (port a n : Nat) : (r.memRead port a n).1.s.cyc = r.s.cyc := by
  have h := eccRead_cyc r a n
  fun_cases Run.memRead r port a n <;> simp_all

/-! ## Frames of the Herd -/

@[simp] theorem herdDrop_cyc (counter : Nat) : (r.herdDrop counter).s.cyc = r.s.cyc := by simp [Run.herdDrop]
@[simp] theorem nextSeq_cyc (cls : Nat) : (r.nextSeq cls).s.cyc = r.s.cyc := by simp [Run.nextSeq]
@[simp] theorem toQueue_cyc (p q : Nat) (f : HerdFrame) : (r.toQueue p q f).s.cyc = r.s.cyc := by simp [Run.toQueue]
@[simp] theorem isoPlace_cyc (p : Nat) (f : HerdFrame) : (r.isoPlace p f).s.cyc = r.s.cyc := by
  fun_cases Run.isoPlace r p f <;> simp +zetaDelta
@[simp] theorem enqueue_cyc (p : Nat) (f : HerdFrame) : (r.enqueue p f).s.cyc = r.s.cyc := by simp [Run.enqueue]
@[simp] theorem sendOn_cyc (p : Nat) (f : HerdFrame) : (r.sendOn p f).s.cyc = r.s.cyc := by
  fun_cases Run.sendOn r p f <;> simp +zetaDelta
@[simp] theorem routeFrame_cyc (f : HerdFrame) : (r.routeFrame f).s.cyc = r.s.cyc := by
  fun_cases Run.routeFrame r f <;> simp +zetaDelta
@[simp] theorem spread_cyc (arrival : Option Nat) (f : HerdFrame) : (r.spread arrival f).s.cyc = r.s.cyc := by simp [Run.spread]
@[simp] theorem originate_cyc (cls dst prio : Nat) (payload : List Byte) :
    (r.originate cls dst prio payload).s.cyc = r.s.cyc := by
  simp [Run.originate]

/-! ## Signals -/

@[simp] theorem bankRefill_cyc (b : Nat) : (r.bankRefill b).s.cyc = r.s.cyc := by
  fun_cases Run.bankRefill r b <;> simp +zetaDelta
@[simp] theorem bankSeen_cyc (b : Nat) : (r.bankSeen b).s.cyc = r.s.cyc := by simp [Run.bankSeen]
@[simp] theorem leOutErr_cyc (u : SigUpd) (st : Status) : (r.leOutErr u st).s.cyc = r.s.cyc := by simp [Run.leOutErr]
@[simp] theorem notify_cyc (m : Nat) (u : SigUpd) (lateIns : Bool) : (r.notify m u lateIns).s.cyc = r.s.cyc := by
  simp [Run.notify]
@[simp] theorem sigPush_cyc (u : SigUpd) : (r.sigPush u).s.cyc = r.s.cyc := by simp [Run.sigPush]
@[simp] theorem remoteUpdate_cyc (node idx val stamp : Nat) : (r.remoteUpdate node idx val stamp).s.cyc = r.s.cyc := by
  simp [Run.remoteUpdate]
@[simp] theorem routeOne_cyc (e : Nat) (u : SigUpd) : (r.routeOne e u).s.cyc = r.s.cyc := by simp [Run.routeOne]
@[simp] theorem serveWatches_cyc (i : Nat) (type : Nat) (prev : Option Entry) (new : Entry) :
    (r.serveWatches i type prev new).s.cyc = r.s.cyc := by
  rw [Run.serveWatches, each_cyc]
  · simp
  · intro q w
    split <;> simp
@[simp] theorem noticeStage_cyc (g : Sig) (h' : List Entry) (pos : Nat) (u : SigUpd) :
    (r.noticeStage g h' pos u).s.cyc = r.s.cyc := by
  rcases h : h'[1]? with _ | o <;> simp [Run.noticeStage, h]
@[simp] theorem sigUpdate_cyc (u : SigUpd) : (r.sigUpdate u).1.s.cyc = r.s.cyc := by
  fun_cases Run.sigUpdate r u <;> simp +zetaDelta
@[simp] theorem bankServe_cyc (b : Nat) (u : SigUpd) (staged : Bool) : (r.bankServe b u staged).s.cyc = r.s.cyc := by
  simp [Run.bankServe]
@[simp] theorem bankFlush_cyc (i : Nat) : (r.bankFlush i).s.cyc = r.s.cyc := by
  rw [Run.bankFlush, each_cyc]
  intro q k
  split <;> simp
@[simp] theorem sigMeet_cyc (i : Nat) : (r.sigMeet i).s.cyc = r.s.cyc := by simp [Run.sigMeet]
@[simp] theorem sigDefine_cyc (i : Nat) (d : List Byte) (init : Option (Nat × Nat)) :
    (r.sigDefine i d init).1.s.cyc = r.s.cyc := by
  fun_cases Run.sigDefine r i d init <;> simp +zetaDelta
@[simp] theorem sigUndefine_cyc (i : Nat) : (r.sigUndefine i).1.s.cyc = r.s.cyc := by simp [Run.sigUndefine]
@[simp] theorem sigWrite_cyc (u : SigUpd) : (r.sigWrite u).1.s.cyc = r.s.cyc := by simp [Run.sigWrite]
@[simp] theorem dportStatus_cyc (st : Status) : (r.dportStatus st).s.cyc = r.s.cyc := by simp [Run.dportStatus]
@[simp] theorem dportDo_cyc (cmd : Nat) : (r.dportDo cmd).s.cyc = r.s.cyc := by
  unfold Run.dportDo
  split <;> simp
@[simp] theorem dportDue_cyc : r.dportDue.s.cyc = r.s.cyc := by fun_cases Run.dportDue r <;> simp +zetaDelta

/-! ## Loop engine -/

@[simp] theorem leLastErr_cyc (c : Nat) (st : Status) (cause : Nat) : (r.leLastErr c st cause).s.cyc = r.s.cyc := by
  simp [Run.leLastErr]
@[simp] theorem leSet_cyc (c off n v : Nat) : (r.leSet c off n v).s.cyc = r.s.cyc := by simp [Run.leSet]
@[simp] theorem leSetVec_cyc (c off : Nat) (l : List Int) : (r.leSetVec c off l).s.cyc = r.s.cyc := by simp [Run.leSetVec]
@[simp] theorem leOut_cyc (c : Nat) (eu : Int) (stamp : Nat) (e : LeOutE) (u : Int) :
    (r.leOut c eu stamp e u).s.cyc = r.s.cyc := by
  simp [Run.leOut]
@[simp] theorem leOutputs_cyc (c k : Nat) (u : List Int) : (r.leOutputs c k u).s.cyc = r.s.cyc := by simp [Run.leOutputs]
@[simp] theorem leWriteUfb_cyc (c k : Nat) : (r.leWriteUfb c k).s.cyc = r.s.cyc := by simp [Run.leWriteUfb]
@[simp] theorem trDone_cyc (b : Nat) : (r.trDone b).s.cyc = r.s.cyc := by simp [Run.trDone]
@[simp] theorem trStop_cyc (b condBit : Nat) : (r.trStop b condBit).s.cyc = r.s.cyc := by simp [Run.trStop]
@[simp] theorem trStopCtx_cyc (c condBit : Nat) : (r.trStopCtx c condBit).s.cyc = r.s.cyc := by simp [Run.trStopCtx]
@[simp] theorem leFault_cyc (c cause : Nat) (k : Option Nat) : (r.leFault c cause k).s.cyc = r.s.cyc := by
  cases k <;> simp [Run.leFault]
@[simp] theorem leEccActs_cyc : r.leEccActs.s.cyc = r.s.cyc := by simp [Run.leEccActs]

/-! ## Ports and generators -/

@[simp] theorem adcStart_cyc (n : Nat) (op : Option Nat) : (r.adcStart n op).s.cyc = r.s.cyc := by simp [Run.adcStart]
@[simp] theorem adcUnlatch_cyc (n : Nat) : (r.adcUnlatch n).s.cyc = r.s.cyc := by simp [Run.adcUnlatch]
@[simp] theorem adcPin_cyc (ch : Nat) (rising : Bool) : (r.adcPin ch rising).s.cyc = r.s.cyc := by simp [Run.adcPin]
@[simp] theorem encCount_cyc (n : Nat) (a b : Bool) : (r.encCount n a b).s.cyc = r.s.cyc := by simp [Run.encCount]
@[simp] theorem encQualify_cyc (n : Nat) : (r.encQualify n).s.cyc = r.s.cyc := by simp [Run.encQualify]
@[simp] theorem gclArm_cyc (n : Nat) : (r.gclArm n).s.cyc = r.s.cyc := by simp [Run.gclArm]
@[simp] theorem gclWatch_cyc (n : Nat) : (r.gclWatch n).s.cyc = r.s.cyc := by fun_cases Run.gclWatch r n <;> simp +zetaDelta
@[simp] theorem motAbort_cyc (n : Nat) : (r.motAbort n).s.cyc = r.s.cyc := by simp [Run.motAbort]
@[simp] theorem motWatch_cyc (n : Nat) : (r.motWatch n).s.cyc = r.s.cyc := by simp [Run.motWatch]
@[simp] theorem sdTake_cyc (c : Nat) (b : Bool) : (r.sdTake c b).s.cyc = r.s.cyc :=
  (setSd_cyc ..).trans (setSd_cyc ..)
@[simp] theorem sdTick_cyc : r.sdTick.s.cyc = r.s.cyc := by simp [Run.sdTick]
@[simp] theorem vmPrune_cyc (m t : Nat) : (r.vmPrune m t).s.cyc = r.s.cyc := by fun_cases Run.vmPrune r m t <;> simp +zetaDelta
@[simp] theorem portTick_cyc : r.portTick.s.cyc = r.s.cyc := by simp [Run.portTick]

/-! ## Capture -/

@[simp] theorem csPut_cyc (n : Nat) (l : List CaptSlot) : (r.csPut n l).s.cyc = r.s.cyc := by simp [Run.csPut]
@[simp] theorem csFlush_cyc (n : Nat) : (r.csFlush n).s.cyc = r.s.cyc := by
  rcases h : (r.s.cs n).heldMark with _ | m <;> simp [Run.csFlush, h]
@[simp] theorem csMarker_cyc (n cause mark : Nat) : (r.csMarker n cause mark).s.cyc = r.s.cyc := by simp [Run.csMarker]
@[simp] theorem captStepped_cyc : r.captStepped.s.cyc = r.s.cyc := by simp [Run.captStepped]
@[simp] theorem unitFires_cyc (u n key t : Nat) (delay : Int) : (r.unitFires u n key t delay).s.cyc = r.s.cyc := by
  simp [Run.unitFires]
@[simp] theorem captPin_cyc (ch : Nat) (st : Stamp) : (r.captPin ch st).s.cyc = r.s.cyc := by simp [Run.captPin]

/-! ## Time -/

@[simp] theorem adjStatus_cyc (n : Nat) (st : Status) : (r.adjStatus n st).s.cyc = r.s.cyc := by simp [Run.adjStatus]
@[simp] theorem moveBase_cyc (n : Nat) (m : Move) : (r.moveBase n m).s.cyc = r.s.cyc := by simp [Run.moveBase]
@[simp] theorem movesDue_cyc (n : Nat) : (r.movesDue n).s.cyc = r.s.cyc := by
  rw [Run.movesDue]
  split
  · rfl
  · rw [each_cyc]
    · simp
    · rintro q ⟨m, w⟩
      cases w <;> simp
@[simp] theorem ppsTick_cyc : r.ppsTick.s.cyc = r.s.cyc := by simp [Run.ppsTick]
@[simp] theorem tickAll_cyc : r.tickAll.s.cyc = r.s.cyc := by simp [Run.tickAll]
@[simp] theorem gridPass_cyc (g : Nat) : (r.gridPass g).s.cyc = r.s.cyc := by fun_cases Run.gridPass r g <;> simp +zetaDelta
@[simp] theorem trigEdge_cyc (ch : Nat) (st : Stamp) (t : Nat) : (r.trigEdge ch st t).1.s.cyc = r.s.cyc := by
  simp [Run.trigEdge]
@[simp] theorem trigTake_cyc (ch : Nat) (w : TrigWait) : (r.trigTake ch w).s.cyc = r.s.cyc := by
  rcases h : (r.trigEdge ch w.stamp w.edge).2 with _ | x <;> simp [Run.trigTake, h]
@[simp] theorem trigDue_cyc (ch : Nat) : (r.trigDue ch).s.cyc = r.s.cyc := by fun_cases Run.trigDue r ch <;> simp +zetaDelta
@[simp] theorem tbTick_cyc : r.tbTick.s.cyc = r.s.cyc := by simp [Run.tbTick]

/-! ## The SYS cycle -/

@[simp] theorem xbatWatch_cyc : r.xbatWatch.s.cyc = r.s.cyc := by simp [Run.xbatWatch]
@[simp] theorem cycleWork_cyc : r.cycleWork.s.cyc = r.s.cyc := by simp [Run.cycleWork]
@[simp] theorem spCycle_cyc : r.spCycle.s.cyc = r.s.cyc := by
  rw [Run.spCycle, each_cyc]
  intro q e
  dsimp only
  split <;> simp

/-- A SYS cycle counts one on the clock of the model, and nothing in it counts another. -/
theorem clock_cyc : r.clock.s.cyc = r.s.cyc + 1 := by
  simp [Run.clock]

/-- No word of the table spells a command. -/
theorem withFetchWord_eq (s : State) (nbits w : Nat) : s.withFetchWord nbits w = s := by
  rfl

/-- On an empty queue one SYS cycle passes. -/
theorem step_nil {s : State} (h : s.pending = []) : step s = .next (Run.start s).clock.s := by
  rw [step, h]; rfl

/-- Settles O1: a step by its definition, the SYS cycle by `clock_cyc`. -/
theorem stepCarriesOutTheFront : Obligations.StepCarriesOutTheFront := by
  intro s c rest nbits w
  refine ⟨rfl, fun h => ⟨_, step_nil h, clock_cyc _, ?_⟩, withFetchWord_eq s nbits w⟩
  exact (Run.start s).clock.reach.pending.trans h

end Sys2Proof.Machine
end

section
/-!
PROOFS. The places of general SRAM and of the DDR4 devices (O57).
-/
namespace Sys2Proof.Machine

theorem bits_eq_div (v hi lo : Nat) : bits v hi lo = v / 2 ^ lo % 2 ^ (hi + 1 - lo) := by
  rw [bits, Nat.shiftRight_eq_div_pow]

theorem bits_lt (v hi lo : Nat) : bits v hi lo < 2 ^ (hi + 1 - lo) := Nat.mod_lt _ (Nat.two_pow_pos _)

theorem regionOf_sram {a : Nat} (h : a < 0x2000000) : regionOf a = .sram := by rw [regionOf, if_pos h]

/-- A byte of general SRAM lies behind the port of its bank, and its bank is that of its 256-byte block (R555, R571). -/
theorem sramBank_port {a : Nat} (h : a < 0x2000000) :
    sramBank a < 16 ∧ targetPort a = some (10 + sramBank a / 8) ∧ sramBank (a / 256 * 256) = sramBank a := by
  have hport : targetPort a = some (if a < 0x1000000 then 10 else 11) := by rw [targetPort, regionOf_sram h]
  simp only [hport, sramBank, bits_eq_div, Option.some.injEq]
  refine ⟨by omega, ?_, by omega⟩
  split <;> omega

/-! ## The DDR4 interleave (R559) -/

/-- The bank group, the bank and the column of a place lie within the devices. -/
theorem ddrLocOf_bounds (n : Nat) (two : Bool) (o : Nat) : (ddrLocOf n two o).row < 2 ^ n ∧ (ddrLocOf n two o).group < 4 ∧
    (ddrLocOf n two o).bank < 4 ∧ (ddrLocOf n two o).column < 2 ^ 10 := by
  refine ⟨?_, Nat.xor_lt_two_pow (n := 2) (bits_lt ..) (bits_lt ..), Nat.xor_lt_two_pow (n := 2) (bits_lt ..) (bits_lt ..), ?_⟩
  · have h := bits_lt o (16 + n) 17
    rwa [show 16 + n + 1 - 17 = n by omega] at h
  · simp only [ddrLocOf, bits_eq_div, Nat.shiftLeft_eq]
    omega

/-- The fields of a place give back every bit of the offset: the row undoes the two exclusive ors. -/
theorem ddrLocOf_injective {n : Nat} {two : Bool} {o p : Nat} (ho : o < 2 ^ (17 + n + b2n two)) (hp : p < 2 ^ (17 + n + b2n two))
    (h : ddrLocOf n two o = ddrLocOf n two p) : o = p := by
  simp only [ddrLocOf, DdrLoc.mk.injEq] at h
  obtain ⟨hrank, hrow, hgroup, hbank, hcol, hbyte⟩ := h
  rw [hrow, Nat.xor_left_inj] at hgroup hbank
  simp only [bits_eq_div, Nat.shiftLeft_eq] at hgroup hbank hcol hbyte
  have hlow : o % 2 ^ 17 = p % 2 ^ 17 := by omega
  have hhigh : o / 2 ^ 17 = p / 2 ^ 17 := by
    rw [bits_eq_div, bits_eq_div, show 16 + n + 1 - 17 = n by omega] at hrow
    have hrest : o / 2 ^ 17 / 2 ^ n = p / 2 ^ 17 / 2 ^ n := by
      rw [Nat.div_div_eq_div_mul, Nat.div_div_eq_div_mul, ← Nat.pow_add]
      cases two
      · exact (Nat.div_eq_of_lt ho).trans (Nat.div_eq_of_lt hp).symm
      · have ho' := Nat.div_lt_of_lt_mul ((pow_succ 2 (17 + n)).symm ▸ ho)
        have hp' := Nat.div_lt_of_lt_mul ((pow_succ 2 (17 + n)).symm ▸ hp)
        simp only [if_true, bits_eq_div, Nat.add_sub_cancel_left, pow_one] at hrank
        generalize o / 2 ^ (17 + n) = x, p / 2 ^ (17 + n) = y at *
        omega
    rw [← Nat.div_add_mod (o / 2 ^ 17) (2 ^ n), ← Nat.div_add_mod (p / 2 ^ 17) (2 ^ n), hrow, hrest]
  rw [← Nat.div_add_mod o (2 ^ 17), ← Nat.div_add_mod p (2 ^ 17), hlow, hhigh]

/-- The 128-byte blocks of one aligned 512 bytes lie in one row, and so in different bank groups. -/
theorem ddrLocOf_group_ne {n : Nat} {two : Bool} {o p : Nat} (h : o / 512 = p / 512) (hne : o / 128 ≠ p / 128) :
    (ddrLocOf n two o).group ≠ (ddrLocOf n two p).group := by
  have hrow : bits o (16 + n) 17 = bits p (16 + n) 17 := by
    rw [bits_eq_div, bits_eq_div, show o / 2 ^ 17 = p / 2 ^ 17 by omega]
  simp only [ddrLocOf, hrow, ne_eq, Nat.xor_left_inj, bits_eq_div]
  omega

end Sys2Proof.Machine
end

section
/-!
PROOFS. Accesses to general SRAM that meet no error, whole and in their 256-byte blocks; the scrubber; the host (O57).
-/
namespace Sys2Proof.Machine

variable {s₀ : State} (r : Run s₀) {s : State} {a n port : Nat} {d : List Byte}

/-! ## General SRAM without errors -/

/-- A range of general SRAM that holds no error. -/
def SramClean (s : State) (a n : Nat) : Prop := 0 < n ∧ a + n ≤ 0x2000000 ∧ s.eccIn a n = []

theorem SramClean.sub (h : SramClean s a n) {b m : Nat} (hab : a ≤ b) (hbm : b + m ≤ a + n) (hm : 0 < m) : SramClean s b m :=
  ⟨hm, hbm.trans h.2.1, eccIn_mono h.2.2 hab hbm hm⟩

theorem SramClean.region (h : SramClean s a n) : regionOf a = .sram := by
  obtain ⟨h0, hn, -⟩ := h
  rw [regionOf, if_pos (by omega)]

theorem SramClean.status (h : SramClean s a n) (wr : Bool) : s.memStatus port a n wr = .ok := by
  have ha := h.region
  obtain ⟨h0, hn, -⟩ := h
  have hend : regionOf (a + n - 1) = .sram := by rw [regionOf, if_pos (by omega)]
  rw [State.memStatus, hend, ha, if_neg (not_not.2 rfl)]

theorem meshByte_sram (s : State) (h : a < 0x2000000) : s.meshByte a = s.byte a := by
  rw [State.meshByte, regionOf, if_pos h]

theorem bytes_add (s : State) (a m n : Nat) : s.bytes a (m + n) = s.bytes a m ++ s.bytes (a + m) n := by
  simp [State.bytes, List.range_add, Nat.add_assoc, Function.comp_def]

theorem SramClean.memRead (h : SramClean r.s a n) : r.memRead port a n = (r, .ok, r.s.bytes a n) :=
  memRead_ok r (h.status false) h.2.2 fun w hw => by rw [h.region] at hw; cases hw

theorem SramClean.busRead (h : SramClean r.s a n) : r.busRead port a n = (r, .ok, r.s.bytes a n) := by
  rw [Run.busRead, h.region]
  exact h.memRead r

theorem SramClean.memWrite (h : SramClean r.s a d.length) : r.memWrite port a d = (r.putBytes a d, .ok) :=
  memWrite_ok r (h.status true) h.2.2 (fun w hw => by rw [h.region] at hw; cases hw) (List.length_pos_iff.1 h.1)

theorem SramClean.busWrite (h : SramClean r.s a d.length) : r.busWrite port a d = (r.putBytes a d, .ok) := by
  rw [Run.busWrite, h.region]
  exact h.memWrite r

/-- Bytes put into general SRAM read back, and the rest of memory stays. -/
theorem putBytes_sram (h : a + d.length ≤ 0x2000000) :
    (r.putBytes a d).s.bytes a d.length = d ∧ MemKeptBut r.s (r.putBytes a d).s a d.length := by
  refine ⟨List.ext_getElem (by simp [State.bytes]) fun i _ hi => ?_, fun b hb => ?_⟩
  · simp only [State.bytes, List.getElem_map, List.getElem_range]
    rw [meshByte_sram _ (by omega), putBytes_byte, dif_pos ⟨by omega, by omega⟩]
    simp
  · rw [putBytes_byte, dif_neg (by omega)]

theorem putBytes_append (a : Nat) (d e : List Byte) :
    r.putBytes a (d ++ e) = (r.putBytes a d).putBytes (a + d.length) e := by
  induction d generalizing r a with
  | nil => rfl
  | cons b t ih =>
    rw [List.cons_append, Run.putBytes, Run.putBytes, ih, List.length_cons, Nat.add_assoc, Nat.add_comm 1]

theorem putBytes_eccIn (a : Nat) (d : List Byte) (b m : Nat) : (r.putBytes a d).s.eccIn b m = r.s.eccIn b m := by
  rw [putBytes_s]; rfl

/-! ## Accesses in blocks (R545) -/

/-- The pieces lie one behind the other from `a` to `b`, and none is empty. -/
def Pieces (b : Nat) : Nat → List (Nat × Nat) → Prop
  | a, [] => a = b
  | a, e :: l => e.1 = a ∧ 0 < e.2 ∧ Pieces b (a + e.2) l

theorem Pieces.le {b : Nat} {l : List (Nat × Nat)} : ∀ {a : Nat}, Pieces b a l → a ≤ b := by
  induction l with
  | nil => exact fun h => Nat.le_of_eq h
  | cons e l ih =>
    rintro a ⟨-, -, h⟩
    have := ih h
    omega

/-- The 256-byte blocks of a transfer lie one behind the other and make up the whole of it. -/
theorem splits_pieces (h : 0 < n) : Pieces (a + n) a (splits a n) := by
  rw [splits, if_neg (by omega), List.range_eq_range']
  generalize hk : (a + n - 1) / 256 - a / 256 + 1 = k
  have go : ∀ m i, i + m = k → Pieces (a + n) (if i = 0 then a else min (a + n) ((a / 256 + i) * 256))
      ((List.range' i m).map fun i =>
        let lo := if i = 0 then a else (a / 256 + i) * 256
        (lo, min (a + n) ((a / 256 + i + 1) * 256) - lo)) := by
    intro m
    induction m with
    | zero =>
      intro i hi
      have : i ≠ 0 := by omega
      simp only [List.range'_zero, List.map_nil, Pieces, if_neg this]
      omega
    | succ m ih =>
      intro i hi
      have hrest := ih (i + 1) (by omega)
      rw [if_neg (Nat.succ_ne_zero i), ← Nat.add_assoc] at hrest
      simp only [List.range'_succ, List.map_cons, Pieces]
      split
      next h0 =>
        subst h0
        refine ⟨rfl, by omega, ?_⟩
        rwa [Nat.add_sub_cancel' (by omega)]
      next h0 =>
        refine ⟨by omega, by omega, ?_⟩
        rwa [show min (a + n) ((a / 256 + i) * 256) + (min (a + n) ((a / 256 + i + 1) * 256) - (a / 256 + i) * 256) =
          min (a + n) ((a / 256 + i + 1) * 256) by omega]
  exact go k 0 (Nat.zero_add k)

theorem splits_one (h : 0 < n) (h256 : n ≤ 256 - a % 256) : splits a n = [(a, n)] := by
  have hk : (a + n - 1) / 256 - a / 256 + 1 = 1 := by omega
  rw [splits, if_neg (by omega), hk]
  simp
  omega

/-- One piece of a host read: its bytes behind those before it, or a refusal (R564). -/
def readPiece (acc : Run s₀ × Bool × List Byte) (e : Nat × Nat) : Run s₀ × Bool × List Byte :=
  match acc.1.busRead 13 e.1 e.2 with
  | (r, .ok, x) => (r, acc.2.1, acc.2.2 ++ x)
  | (r, _, _) => (r, false, acc.2.2)

/-- One piece of a host write of bytes from `a`. -/
def writePiece (a : Nat) (d : List Byte) (acc : Run s₀ × Bool) (e : Nat × Nat) : Run s₀ × Bool :=
  match acc.1.busWrite 13 e.1 ((d.drop (e.1 - a)).take e.2) with
  | (r, .ok) => (r, acc.2)
  | (r, _) => (r, false)

/-- Pieces of a clean range read one behind the other give its bytes and change nothing. -/
theorem readPieces_clean {b : Nat} {l : List (Nat × Nat)} (h : Pieces b a l) (hc : SramClean r.s a (b - a) ∨ a = b)
    (d : List Byte) : l.foldl readPiece (r, true, d) = (r, true, d ++ r.s.bytes a (b - a)) := by
  induction l generalizing a d with
  | nil =>
    obtain rfl : a = b := h
    simp [State.bytes]
  | cons e l ih =>
    obtain ⟨rfl, hpos, hrest⟩ := h
    have hle := hrest.le
    have hcl : SramClean r.s e.1 (b - e.1) := hc.resolve_right (by omega)
    have hread : readPiece (r, true, d) e = (r, true, d ++ r.s.bytes e.1 e.2) := by
      rw [readPiece, (hcl.sub (le_refl _) (by omega) hpos).busRead]
    have hcl' : SramClean r.s (e.1 + e.2) (b - (e.1 + e.2)) ∨ e.1 + e.2 = b :=
      (Nat.lt_or_eq_of_le hle).imp_left fun hlt => hcl.sub (by omega) (by omega) (by omega)
    rw [List.foldl_cons, hread, ih hrest hcl', List.append_assoc, ← bytes_add,
      show e.2 + (b - (e.1 + e.2)) = b - e.1 by omega]

/-- Pieces of a clean range written one behind the other put all the bytes. -/
theorem writePieces_clean {a₀ : Nat} {l : List (Nat × Nat)} (h : Pieces (a₀ + d.length) a l) (ha : a₀ ≤ a)
    (hc : SramClean r.s a (a₀ + d.length - a) ∨ a = a₀ + d.length) :
    l.foldl (writePiece a₀ d) (r, true) = (r.putBytes a (d.drop (a - a₀)), true) := by
  induction l generalizing r a with
  | nil =>
    obtain rfl : a = a₀ + d.length := h
    rw [Nat.add_sub_cancel_left, List.drop_length]; rfl
  | cons e l ih =>
    obtain ⟨rfl, hpos, hrest⟩ := h
    have hle := hrest.le
    have hcl : SramClean r.s e.1 (a₀ + d.length - e.1) := hc.resolve_right (by omega)
    generalize hx : (d.drop (e.1 - a₀)).take e.2 = x
    have hlen : x.length = e.2 := by rw [← hx, List.length_take, List.length_drop]; omega
    have hput : writePiece a₀ d (r, true) e = (r.putBytes e.1 x, true) := by
      rw [writePiece, hx, SramClean.busWrite r (hlen ▸ hcl.sub (le_refl _) (by omega) hpos)]
    have hcl' : SramClean (r.putBytes e.1 x).s (e.1 + e.2) (a₀ + d.length - (e.1 + e.2)) ∨ e.1 + e.2 = a₀ + d.length :=
      (Nat.lt_or_eq_of_le hle).imp_left fun hlt =>
        ⟨by omega, by have := hcl.2.1; omega, (putBytes_eccIn ..).trans (hcl.sub (by omega) (by omega) (by omega)).2.2⟩
    have hdrop : d.drop (e.1 - a₀) = x ++ d.drop (e.1 + e.2 - a₀) := by
      rw [← hx, show e.1 + e.2 - a₀ = e.1 - a₀ + e.2 by omega, ← List.drop_drop, List.take_append_drop]
    rw [List.foldl_cons, hput, ih _ hrest (by omega) hcl', hdrop, putBytes_append, hlen]

/-! ## The scrubber (R556) -/

theorem mesh_masks : implMask Reg.meshEccCnt = BitVec.allOnes 32 ∧ implMask Reg.meshEccLo = BitVec.allOnes 32 ∧
    bit (implMask Reg.meshEccHi).toNat 31 = true ∧ (∀ i < 8, bit (implMask Reg.meshEvstat).toNat i = true) := by decide +kernel

/-- A counter of a whole register. -/
theorem count_rget {a : Nat} (hm : implMask a = BitVec.allOnes 32) :
    ((r.count a 31 0).s.rget a).toNat = min ((r.s.rget a).toNat + 1) 0xFFFFFFFF := by
  have hall : ∀ s : State, s.rf a 31 0 = (s.rget a).toNat := fun s => Nat.mod_eq_of_lt (s.rget a).isLt
  have hbit : ∀ i, 0 ≤ i → i ≤ 31 → bit (implMask a).toNat i = true := fun i _ hi => by
    rw [hm, bit_testBit, BitVec.toNat_allOnes, Nat.testBit_two_pow_sub_one]
    exact decide_eq_true (by omega)
  rw [← hall (r.count a 31 0).s, Run.count, wf_rf_same r (by decide) (by decide) _ hbit, hall, satAdd]
  exact Nat.mod_eq_of_lt (by omega)

variable {w : Nat}

theorem eccCorrect_sram (hw : w * 8 < 0x2000000) :
    r.eccCorrect w = ((r.eccClear w).count Reg.meshEccCnt 31 0).flag Reg.meshEvstat 1 := by
  rw [Run.eccCorrect, regionOf_sram hw]

theorem eccFatal_sram (hw : w * 8 < 0x2000000) : r.eccFatal w =
    ((r.memErr.wr Reg.meshEccLo (w * 8)).wr Reg.meshEccHi (2 ^ 31 + bits (w * 8) 39 32)).flag Reg.meshEvstat 2 := by
  rw [Run.eccFatal, regionOf_sram hw]

theorem exec_scrubRead (hw : w * 8 < 0x2000000) : exec (.scrubRead w) s = match s.ecc.find? fun e => e.1 == w with
    | some (_, .single) => ((Run.start s).eccCorrect w).done
    | some (_, .double) => ((Run.start s).eccFatal w).done
    | none => (Run.start s).done := by
  change execScrubRead w s = _
  rw [execScrubRead, regionOf_sram hw]
  rfl

theorem scrub_none (hw : w * 8 < 0x2000000) (h : ∀ e ∈ s.ecc, e.1 ≠ w) : Answers (.scrubRead w) s (· = s) := by
  refine Run.answers (Run.start s) ?_ rfl
  rw [exec_scrubRead hw, List.find?_eq_none.2 (by simpa using h)]

/-- A single-bit error is corrected and counted. -/
theorem scrub_single (hw : w * 8 < 0x2000000) (h : s.ecc = [(w, .single)]) : Answers (.scrubRead w) s fun u =>
    u.ecc = [] ∧ MemKept s u ∧ u.rb Reg.meshEvstat 1 = true ∧
      (u.rget Reg.meshEccCnt).toNat = min ((s.rget Reg.meshEccCnt).toNat + 1) 0xFFFFFFFF ∧
      RegsKept s u [Reg.meshEvstat, Reg.meshEccCnt] := by
  obtain ⟨hcnt, -, -, hev⟩ := mesh_masks
  have hex : exec (.scrubRead w) s = ((Run.start s).eccCorrect w).done := by rw [exec_scrubRead hw, h]; simp
  refine Run.answers _ hex ?_
  rw [eccCorrect_sram _ hw]
  have ho := ((count_onlyRegs ((Run.start s).eccClear w) Reg.meshEccCnt 31 0).mono (m := [Reg.meshEvstat, Reg.meshEccCnt])
    (by simp)).trans ((flag_onlyRegs _ Reg.meshEvstat 1).mono (by simp))
  refine ⟨?_, ho.memKept, flag_rb _ (by decide) (hev 1 (by decide)), ?_, ho.regsKept⟩
  · rw [ho.1]
    show tdel w s.ecc = []
    rw [h]; simp [tdel]
  · rw [flag_other _ (by decide)]
    exact count_rget _ hcnt

/-- An uncorrectable error is reported with its address. -/
theorem scrub_double (hw : w * 8 < 0x2000000) (h : s.ecc = [(w, .double)]) : Answers (.scrubRead w) s fun u =>
    u.ecc = s.ecc ∧ MemKept s u ∧ u.rb Reg.meshEvstat 2 = true ∧ (u.rget Reg.meshEccLo).toNat = w * 8 ∧
      u.rb Reg.meshEccHi 31 = true ∧ RegsKept s u [Reg.meshEvstat, Reg.meshEccLo, Reg.meshEccHi] := by
  obtain ⟨-, hlo, hhi, hev⟩ := mesh_masks
  have hex : exec (.scrubRead w) s = ((Run.start s).eccFatal w).done := by rw [exec_scrubRead hw, h]; simp
  refine Run.answers _ hex ?_
  rw [eccFatal_sram _ hw]
  have ho := (((wr_onlyRegs (Run.start s).memErr Reg.meshEccLo (w * 8)).mono
      (m := [Reg.meshEvstat, Reg.meshEccLo, Reg.meshEccHi]) (by simp)).trans
    ((wr_onlyRegs _ Reg.meshEccHi (2 ^ 31 + bits (w * 8) 39 32)).mono (by simp))).trans
      ((flag_onlyRegs _ Reg.meshEvstat 2).mono (by simp))
  refine ⟨by rw [ho.1]; rfl, ho.memKept, flag_rb _ (by decide) (hev 2 (by decide)), ?_, ?_, ho.regsKept⟩
  · rw [flag_other _ (by decide), wr_s, rget_reg_ne (by decide), wr_s, rget_reg_same, hlo, BitVec.and_allOnes, BitVec.toNat_ofNat,
      Nat.mod_eq_of_lt (by omega)]
  · have hzero : bits (w * 8) 39 32 = 0 := by rw [bits_eq_div]; omega
    rw [State.rb, flag_other _ (by decide), ← State.rb, wr_rb, hhi, hzero]
    rfl

/-! ## The host (R563 to R566) -/

/-- An answer changes the port of the requester only. -/
theorem answers_answer {c : Instr} (q : Run s) {st : Status} {l : List Nat} (hex : exec c s = (q.answer st l).done) :
    Answers c s fun u => u.resp = ⟨st, l⟩ ∧ (∀ a, u.rget a = q.s.rget a) ∧ MemKept q.s u :=
  Run.answers _ hex ⟨rfl, fun _ => rfl, fun _ => rfl⟩

theorem exec_hostRead {a : Nat} (ha : s.barAddr bar off = some a) (hl : s.linkUp = true) (h0 : n ≠ 0) (hn : n ≤ 512) :
    exec (.hostRead bar off n) s =
      (let q := (splits a n).foldl readPiece (Run.start s, true, [])
       if q.2.1 then (q.1.answer .ok (wordsOf q.2.2)).done else ((q.1.hostErr false).answer .fault []).done) := by
  change execHostRead bar off n s = _
  simp only [execHostRead, ha, hl, h0, not_lt.2 hn, Bool.not_true, Bool.false_eq_true, or_self, if_false]
  rfl

theorem hostRead_idle (h : s.barAddr bar off = none ∨ s.linkUp = false ∨ n = 0 ∨ 512 < n) :
    Answers (.hostRead bar off n) s (· = s) := by
  refine Run.answers (Run.start s) ?_ rfl
  change execHostRead bar off n s = _
  rw [execHostRead]
  rcases hb : s.barAddr bar off with _ | a
  · rfl
  · have h' : (!s.linkUp) = true ∨ n = 0 ∨ 512 < n := by simpa [hb] using h
    exact if_pos h'

theorem barAddr_two (h : off < 2 ^ 26) : s.barAddr 2 off = some off := if_pos h

/-- A read of general SRAM answers its bytes. -/
theorem hostRead_sram (hl : s.linkUp = true) (hn : n ≤ 512) (hc : SramClean s off n) :
    Answers (.hostRead 2 off n) s (· = { s with resp := ⟨.ok, wordsOf (s.bytes off n)⟩ }) := by
  obtain ⟨h0, hend, -⟩ := id hc
  have hread := readPieces_clean (Run.start s) (splits_pieces h0) (.inl (by rwa [Nat.add_sub_cancel_left])) []
  refine Run.answers ((Run.start s).answer .ok (wordsOf (s.bytes off n))) ?_ rfl
  rw [exec_hostRead (barAddr_two (by omega)) hl (by omega) hn, hread, Nat.add_sub_cancel_left]
  rfl

theorem memStatus_unmapped (h : regionOf a = .unmapped) (wr : Bool) : s.memStatus port a n wr = .fault := by
  rw [State.memStatus, h]
  split <;> rfl

theorem regionOf_hole (hlo : 0x2C00000 ≤ off) (hhi : off < 0x3000000) : regionOf off = .unmapped := by
  rw [regionOf, if_neg (by omega), if_neg (by omega), if_pos (by omega)]

/-- A counter in a field of a register. -/
theorem count_rf {a hi lo : Nat} (h : lo ≤ hi) (h32 : hi < 32) (hm : ∀ i, lo ≤ i → i ≤ hi → bit (implMask a).toNat i = true) :
    (r.count a hi lo).s.rf a hi lo = min (r.s.rf a hi lo + 1) (2 ^ (hi + 1 - lo) - 1) := by
  have hpos := Nat.two_pow_pos (hi + 1 - lo)
  rw [Run.count, wf_rf_same r h h32 _ hm, satAdd]
  exact Nat.mod_eq_of_lt (by omega)

theorem hostErr_read_eq : r.hostErr false = (r.count Reg.meshPcieErr 15 0).flag Reg.meshEvstat 4 := rfl

theorem meshPcieErr_mask : ∀ i, 0 ≤ i → i ≤ 15 → bit (implMask Reg.meshPcieErr).toNat i = true := by
  have : ∀ i < 16, bit (implMask Reg.meshPcieErr).toNat i = true := by decide +kernel
  exact fun i _ hi => this i (by omega)

/-- A refused host read is counted, and raises its flag. -/
theorem hostErr_read : OnlyRegs r.s (r.hostErr false).s [Reg.meshPcieErr, Reg.meshEvstat] ∧
    (r.hostErr false).s.rb Reg.meshEvstat 4 = true ∧ (r.hostErr false).s.rb Reg.meshEvstat 0 = r.s.rb Reg.meshEvstat 0 ∧
    (r.hostErr false).s.rf Reg.meshPcieErr 15 0 = min (r.s.rf Reg.meshPcieErr 15 0 + 1) 65535 := by
  have hev := mesh_masks.2.2.2
  have hcount := count_rf r (by decide) (by decide) meshPcieErr_mask
  have ho := count_onlyRegs r Reg.meshPcieErr 15 0
  rw [hostErr_read_eq]
  generalize r.count Reg.meshPcieErr 15 0 = q at hcount ho
  refine ⟨(ho.mono (by simp)).trans ((flag_onlyRegs q Reg.meshEvstat 4).mono (by simp)), flag_rb q (by decide) (hev 4 (by decide)),
    ?_, ?_⟩
  · refine (wf_rb_other q (le_refl 4) (by decide) 1 fun hf => ?_).trans ?_
    · rw [hev 0 (by decide)] at hf; cases hf
    · rw [State.rb, ho.regsKept _ (by decide)]; rfl
  · rw [State.rf, flag_other q (by decide)]
    exact hcount

/-- A refused read of a hole in the map is recorded and counted (R7, R564). -/
theorem hostRead_hole (hl : s.linkUp = true) (h0 : 0 < n) (hn : n ≤ 256 - off % 256) (hlo : 0x2C00000 ≤ off) (hhi : off < 0x3000000) :
    Answers (.hostRead 2 off n) s fun u =>
      RegsKept s u [Reg.meshPcieErr, Reg.meshEvstat, Reg.meshAccLo, Reg.meshAccHi] ∧ MemKept s u ∧ u.resp = ⟨.fault, []⟩ ∧
      u.rb Reg.meshEvstat 4 = true ∧ u.rb Reg.meshEvstat 0 = true ∧ (u.rget Reg.meshAccLo).toNat = off ∧
      u.rf Reg.meshPcieErr 15 0 = min (s.rf Reg.meshPcieErr 15 0 + 1) 65535 := by
  have hregion := regionOf_hole hlo hhi
  have hpiece : (splits off n).foldl readPiece (Run.start s, true, []) = ((Run.start s).accErr 13 off false .fault, false, []) := by
    rw [splits_one h0 hn, List.foldl_cons, List.foldl_nil, readPiece, Run.busRead, hregion]
    simp only [Run.memRead, start_s, memStatus_unmapped hregion]
  have hacc := accErr_onlyRegs (Run.start s) (port := 13) (a := off) false .fault
  obtain ⟨hrec, -, hflag⟩ := accErr_record (Run.start s) (port := 13) (a := off) (by omega) false .fault
  have hex := exec_hostRead (barAddr_two (s := s) (off := off) (by omega)) hl (by omega) (by omega : n ≤ 512)
  rw [hpiece] at hex
  generalize (Run.start s).accErr 13 off false .fault = q at hacc hrec hflag hex
  obtain ⟨hend, h4, h0', hcount⟩ := hostErr_read q
  refine (answers_answer _ hex).imp fun u ⟨hresp, hget, hmem⟩ => ?_
  rw [rb_congr hget, rf_congr hget, hget]
  refine ⟨((hacc.mono (by simp)).regsKept.trans (hend.mono (by simp)).regsKept).trans fun a _ => hget a,
    (hacc.memKept.trans hend.memKept).trans hmem, hresp, h4, h0'.trans hflag, ?_, hcount.trans ?_⟩
  · exact (congrArg BitVec.toNat (hend.regsKept _ (by decide))).trans hrec
  · rw [State.rf, hacc.regsKept _ (by decide)]; rfl

theorem exec_hostWrite {a : Nat} (ha : s.barAddr bar off = some a) (hl : s.linkUp = true) (h0 : d ≠ []) (hn : d.length ≤ 256) :
    exec (.hostWrite bar off d) s =
      (let q := (splits a d.length).foldl (writePiece a d) (Run.start s, true)
       if q.2 then q.1.done else (q.1.hostErr true).done) := by
  change execHostWrite bar off d s = _
  simp only [execHostWrite, ha, hl, h0, not_lt.2 hn, Bool.not_true, Bool.false_eq_true, or_self, if_false]
  rfl

theorem hostWrite_idle (h : s.barAddr bar off = none ∨ s.linkUp = false ∨ d = [] ∨ 256 < d.length) :
    Answers (.hostWrite bar off d) s (· = s) := by
  refine Run.answers (Run.start s) ?_ rfl
  change execHostWrite bar off d s = _
  rw [execHostWrite]
  rcases hb : s.barAddr bar off with _ | a
  · rfl
  · have h' : (!s.linkUp) = true ∨ d = [] ∨ 256 < d.length := by simpa [hb] using h
    exact if_pos h'

/-- A write of general SRAM stores its bytes. -/
theorem hostWrite_sram (hl : s.linkUp = true) (hn : d.length ≤ 256) (hc : SramClean s off d.length) :
    Answers (.hostWrite 2 off d) s fun u =>
      u = { s with mem := u.mem } ∧ u.bytes off d.length = d ∧ MemKeptBut s u off d.length := by
  obtain ⟨h0, hend, -⟩ := id hc
  have hwrite := writePieces_clean (Run.start s) (splits_pieces h0) (le_refl off) (.inl (by rwa [Nat.add_sub_cancel_left]))
  rw [Nat.sub_self, List.drop_zero] at hwrite
  refine Run.answers ((Run.start s).putBytes off d) ?_ ⟨putBytes_s .., putBytes_sram (Run.start s) hend⟩
  rw [exec_hostWrite (barAddr_two (by omega)) hl (List.length_pos_iff.1 h0) hn, hwrite]
  rfl

/-! ## Outbound windows (R565) -/

theorem regionOf_host : (∃ w, regionOf a = .host w) ↔ 0x1000000000 ≤ a ∧ a < 0x2000000000 := by
  constructor
  · rintro ⟨w, hw⟩
    revert hw
    fun_cases regionOf a
    case case13 => exact fun _ => ⟨by omega, by omega⟩
    all_goals exact fun h => nomatch h
  · rintro ⟨hlo, hhi⟩
    refine ⟨(a - 0x1000000000) / 0x400000000, ?_⟩
    rw [regionOf, if_neg (by omega), if_neg (by omega), if_neg (by omega), if_neg (by omega), if_neg (by omega), if_neg (by omega),
      if_neg (by omega), if_neg (by omega), if_neg (by omega), if_neg (by omega), if_neg (by omega), if_pos hhi]

/-- A register that is set whole holds the value in its implemented bits. -/
theorem wr_rf {a hi lo : Nat} (h32 : hi < 32) (hm : ∀ i, lo ≤ i → i ≤ hi → bit (implMask a).toNat i = true) (v : Nat) :
    (r.wr a v).s.rf a hi lo = bits v hi lo := by
  refine bits_congr fun i h₁ h₂ => ?_
  have h := wr_rb r a v i
  rw [State.rb] at h
  rw [h, hm i h₁ h₂, decide_eq_true (by omega)]
  simp

theorem accHiWord_addr (port a : Nat) (wr : Bool) (st : Status) : bits (accHiWord port a wr st) 7 0 = bits a 39 32 := by
  have hbits : bits a 39 32 < 2 ^ 8 := bits_lt ..
  rw [accHiWord, bits_eq_div]
  generalize st.code = c, b2n wr = w, bits a 39 32 = x at *
  simp only [Nat.shiftLeft_eq]
  omega

/-- A refused access is recorded with its whole address (R6). -/
theorem accErr_addr (wr : Bool) (st : Status) : ((r.accErr port a wr st).s.rget Reg.meshAccLo).toNat = a % 2 ^ 32 ∧
    (r.accErr port a wr st).s.rf Reg.meshAccHi 7 0 = bits a 39 32 ∧ (r.accErr port a wr st).s.rb Reg.meshEvstat 0 = true := by
  have hlo : implMask Reg.meshAccLo = BitVec.allOnes 32 := by decide +kernel
  have hhi : ∀ i < 8, bit (implMask Reg.meshAccHi).toNat i = true := by decide +kernel
  rw [accErr_eq]
  refine ⟨?_, ?_, flag_rb _ (by decide) (mesh_masks.2.2.2 0 (by decide))⟩
  · rw [flag_other _ (by decide), wr_s, rget_reg_ne (by decide), wr_s, rget_reg_same, hlo, BitVec.and_allOnes, BitVec.toNat_ofNat]
  · rw [State.rf, flag_other _ (by decide), ← State.rf, wr_rf _ (by decide) (fun i _ h => hhi i (by omega)), accHiWord_addr]

/-- A read of an outbound window that gets no completion may be given up. -/
def outboundMay (s : State) (port a : Nat) : Prop :=
  0x1000000000 ≤ a ∧ a < 0x2000000000 ∧ s.memStatus port a 1 false = .ok

theorem outbound_idle (h : ¬outboundMay s port a) : Answers (.outboundReadTimeout port a) s (· = s) := by
  refine Run.answers (Run.start s) ?_ rfl
  change execOutboundReadTimeout port a s = _
  rw [execOutboundReadTimeout]
  split
  next w hw =>
    obtain ⟨hlo, hhi⟩ := regionOf_host.1 ⟨w, hw⟩
    have : s.memStatus port a 1 false ≠ .ok := fun hs => h ⟨hlo, hhi, hs⟩
    rw [beq_eq_false_iff_ne.2 this]; rfl
  · rfl

theorem exec_outbound (h : outboundMay s port a) : exec (.outboundReadTimeout port a) s =
    (((Run.start s).accErr port a false .fault).answer .fault []).done := by
  obtain ⟨hlo, hhi, hst⟩ := h
  obtain ⟨w, hw⟩ := regionOf_host.2 ⟨hlo, hhi⟩
  change execOutboundReadTimeout port a s = _
  rw [execOutboundReadTimeout, hw, hst, beq_self_eq_true, if_pos rfl]

theorem outbound_fails (h : outboundMay s port a) : Answers (.outboundReadTimeout port a) s fun u =>
    RegsKept s u [Reg.meshEvstat, Reg.meshAccLo, Reg.meshAccHi] ∧ MemKept s u ∧ u.resp = ⟨.fault, []⟩ ∧
      u.rb Reg.meshEvstat 0 = true ∧ (u.rget Reg.meshAccLo).toNat = a % 2 ^ 32 ∧ u.rf Reg.meshAccHi 7 0 = a / 2 ^ 32 := by
  obtain ⟨hlo, hhi, -⟩ := id h
  have hacc := accErr_onlyRegs (Run.start s) (port := port) (a := a) false .fault
  obtain ⟨hrec, haddr, hflag⟩ := accErr_addr (Run.start s) (port := port) (a := a) false .fault
  refine (answers_answer _ (exec_outbound h)).imp fun u ⟨hresp, hget, hmem⟩ => ?_
  rw [rb_congr hget, rf_congr hget, hget]
  refine ⟨(hacc.mono (by simp)).regsKept.trans fun a _ => hget a, hacc.memKept.trans hmem, hresp, hflag, hrec, haddr.trans ?_⟩
  rw [bits_eq_div]
  omega

/-! ## The link, PERSTN and configuration space (R566, R574, R622) -/

theorem pcieStat_masks : ∀ i ∈ [31, 18, 17, 16, 9, 8, 1, 0], bit (implMask Reg.meshPcieStat).toNat i = true := by decide +kernel

theorem pcieStat_field {hi lo : Nat} (h : ∀ i ≤ hi, lo ≤ i → i ∈ [31, 18, 17, 16, 9, 8, 1, 0]) :
    ∀ i, lo ≤ i → i ≤ hi → bit (implMask Reg.meshPcieStat).toNat i = true := fun i h₁ h₂ => pcieStat_masks i (h i h₂ h₁)

theorem linkSet_same {up : Bool} (h : r.s.linkUp = up) (lanes gen : Nat) : r.linkSet up lanes gen = r := by
  rw [Run.linkSet, h]; simp

/-- A change of the link shows in MESH_PCIE_STAT, and sets the flag of link changes. -/
theorem linkSet_changes {up : Bool} (h : r.s.linkUp ≠ up) {lanes gen : Nat} (hlanes : lanes < 8) (hgen : gen < 4) :
    let u := (r.linkSet up lanes gen).s
    OnlyRegs r.s u [Reg.meshPcieStat, Reg.meshEvstat] ∧ u.linkUp = up ∧ u.rf Reg.meshPcieStat 18 16 = (if up then lanes else 0) ∧
      u.rf Reg.meshPcieStat 9 8 = (if up then gen else 0) ∧ u.rb Reg.meshEvstat 3 = true := by
  have heq : r.linkSet up lanes gen = (((r.wb Reg.meshPcieStat 31 up).wf Reg.meshPcieStat 18 16 (if up then lanes else 0)).wf
      Reg.meshPcieStat 9 8 (if up then gen else 0)).flag Reg.meshEvstat 3 := by
    rw [Run.linkSet, beq_eq_false_iff_ne.2 h]; rfl
  have h31 := wb_rb r (a := Reg.meshPcieStat) (i := 31) (by decide) (pcieStat_masks 31 (by decide)) up
  have ho := wb_onlyRegs r Reg.meshPcieStat 31 up
  intro u
  rw [show u = _ from congrArg Run.s heq]
  generalize hl : (if up then lanes else 0) = l
  generalize hg : (if up then gen else 0) = g
  have hl8 : l < 8 := by rw [← hl]; split <;> omega
  have hg4 : g < 4 := by rw [← hg]; split <;> omega
  generalize r.wb Reg.meshPcieStat 31 up = q at h31 ho
  have ho' := ((ho.mono (m := [Reg.meshPcieStat, Reg.meshEvstat]) (by simp)).trans ((wf_onlyRegs q Reg.meshPcieStat 18 16 l).mono (by simp))).trans
    ((wf_onlyRegs _ Reg.meshPcieStat 9 8 g).mono (by simp))
  have hkeep (b : Bool) (hf : bit (implMask Reg.meshPcieStat).toNat 31 = false) : b = false := by
    rw [pcieStat_masks 31 (by decide)] at hf; cases hf
  have hflag := (flag_onlyRegs ((q.wf Reg.meshPcieStat 18 16 l).wf Reg.meshPcieStat 9 8 g) Reg.meshEvstat 3).mono
    (m := [Reg.meshPcieStat, Reg.meshEvstat]) (by simp)
  refine ⟨ho'.trans hflag, ?_, ?_, ?_, flag_rb _ (by decide) (mesh_masks.2.2.2 3 (by decide))⟩
  · rw [State.linkUp, State.rb, flag_other _ (by decide), ← State.rb, wf_rb_other _ (by decide) (by decide) g (hkeep _),
      wf_rb_other _ (by decide) (by decide) l (hkeep _), h31]
  · rw [State.rf, flag_other _ (by decide), ← State.rf, wf_rf_other _ (by decide) (by decide) g (pcieStat_field (by decide)),
      wf_rf_same _ (by decide) (by decide) l (pcieStat_field (by decide))]
    exact Nat.mod_eq_of_lt hl8
  · rw [State.rf, flag_other _ (by decide), ← State.rf, wf_rf_same _ (by decide) (by decide) g (pcieStat_field (by decide))]
    exact Nat.mod_eq_of_lt hg4

/-- The state in which a link may train (R566). -/
def linkMay (s : State) (lanes gen : Nat) : Prop :=
  s.endpointHeld = false ∧ (lanes = 1 ∨ lanes = 2 ∨ lanes = 4) ∧ 1 ≤ gen ∧ gen ≤ 3

theorem exec_linkUp {lanes gen : Nat} (h : linkMay s lanes gen) :
    exec (.pcieLinkChange true lanes gen) s = ((Run.start s).linkSet true lanes gen).done := by
  obtain ⟨hheld, hlanes, hlo, hhi⟩ := h
  change execPcieLinkChange true lanes gen s = _
  simp [execPcieLinkChange, hheld, hlanes, not_lt.2 hlo, not_lt.2 hhi]

theorem linkUp_idle {lanes gen : Nat} (h : ¬linkMay s lanes gen ∨ s.linkUp = true) :
    Answers (.pcieLinkChange true lanes gen) s (· = s) := by
  refine Run.answers (Run.start s) ?_ rfl
  by_cases hmay : linkMay s lanes gen
  · rw [exec_linkUp hmay, linkSet_same (Run.start s) (h.resolve_left (not_not.2 hmay))]
  · change execPcieLinkChange true lanes gen s = _
    have hno : s.endpointHeld = true ∨ (!decide (lanes = 1 ∨ lanes = 2 ∨ lanes = 4)) = true ∨ gen < 1 ∨ 3 < gen := by
      simp only [linkMay, not_and_or, Bool.not_eq_false, not_le] at hmay
      simpa using hmay
    rw [execPcieLinkChange, Bool.not_true, if_neg Bool.false_ne_true]
    exact if_pos hno

theorem linkUp_trains {lanes gen : Nat} (h : linkMay s lanes gen) (hl : s.linkUp = false) :
    Answers (.pcieLinkChange true lanes gen) s fun u => OnlyRegs s u [Reg.meshPcieStat, Reg.meshEvstat] ∧ u.linkUp = true ∧
      u.rf Reg.meshPcieStat 18 16 = lanes ∧ u.rf Reg.meshPcieStat 9 8 = gen ∧ u.rb Reg.meshEvstat 3 = true := by
  obtain ⟨-, hlanes, -, hgen⟩ := id h
  have hne : (Run.start s).s.linkUp ≠ true := by rw [start_s, hl]; decide
  exact Run.answers _ (exec_linkUp h) (linkSet_changes (Run.start s) hne (by omega) (by omega))

theorem exec_linkDown (lanes gen : Nat) :
    exec (.pcieLinkChange false lanes gen) s = ((Run.start s).linkSet false 0 0).done := rfl

theorem linkDown_idle (hl : s.linkUp = false) (lanes gen : Nat) : Answers (.pcieLinkChange false lanes gen) s (· = s) :=
  Run.answers (Run.start s) (by rw [exec_linkDown, linkSet_same (Run.start s) hl]) rfl

theorem linkDown_drops (hl : s.linkUp = true) (lanes gen : Nat) : Answers (.pcieLinkChange false lanes gen) s fun u =>
    OnlyRegs s u [Reg.meshPcieStat, Reg.meshEvstat] ∧ u.linkUp = false ∧ u.rf Reg.meshPcieStat 18 16 = 0 ∧
      u.rf Reg.meshPcieStat 9 8 = 0 ∧ u.rb Reg.meshEvstat 3 = true := by
  have hne : (Run.start s).s.linkUp ≠ false := by rw [start_s, hl]; decide
  exact Run.answers _ (exec_linkDown lanes gen) (linkSet_changes (Run.start s) hne (by decide) (by decide))

/-- With the link set down it is down, whatever it was. -/
theorem linkSet_down (lanes gen : Nat) (hlanes : lanes < 8) (hgen : gen < 4) :
    OnlyRegs r.s (r.linkSet false lanes gen).s [Reg.meshPcieStat, Reg.meshEvstat] ∧ (r.linkSet false lanes gen).s.linkUp = false := by
  cases h : r.s.linkUp
  · rw [linkSet_same r h]
    exact ⟨.refl .., h⟩
  · obtain ⟨ho, hl, -⟩ := linkSet_changes r (up := false) (by rw [h]; decide) hlanes hgen
    exact ⟨ho, hl⟩

/-- A field of MESH_PCIE_STAT below bit 31 leaves the link. -/
theorem wf_linkUp {hi lo : Nat} (h : lo ≤ hi) (hhi : hi < 31) (x : Nat) : (r.wf Reg.meshPcieStat hi lo x).s.linkUp = r.s.linkUp := by
  refine wf_rb_other r h (by omega) x fun hf => ?_
  rw [pcieStat_masks 31 (by decide)] at hf; cases hf

/-- PERSTN low resets the endpoint (R622). -/
theorem perst_low : Answers (.pciePerst false) s fun u => RegsKept s u [Reg.meshPcieStat, Reg.meshEvstat] ∧ MemKept s u ∧
    u.linkUp = false ∧ u.rf Reg.meshPcieStat 1 0 = 0 ∧ u.mesh = { s.mesh with perstn := false, fnMask := false } := by
  have hex : exec (.pciePerst false) s = (((((Run.start s).mapMesh fun m => { m with perstn := false }).linkSet false 0 0).wf
    Reg.meshPcieStat 1 0 0).mapMesh fun m => { m with fnMask := false }).done := rfl
  obtain ⟨ho, hl⟩ := linkSet_down ((Run.start s).mapMesh fun m => { m with perstn := false }) 0 0 (by decide) (by decide)
  refine Run.answers _ hex ?_
  generalize ((Run.start s).mapMesh fun m => { m with perstn := false }).linkSet false 0 0 = q at ho hl
  have hw := wf_onlyRegs q Reg.meshPcieStat 1 0 0
  have hf := wf_rf_same q (a := Reg.meshPcieStat) (hi := 1) (lo := 0) (by decide) (by decide) 0 (pcieStat_field (by decide))
  have hlw := (wf_linkUp q (hi := 1) (lo := 0) (by decide) (by decide) 0).trans hl
  generalize q.wf Reg.meshPcieStat 1 0 0 = t at hw hf hlw
  exact ⟨ho.regsKept.trans (hw.mono (by simp)).regsKept, ho.memKept.trans hw.memKept, hlw, hf,
    congrArg (fun m : MeshSt => { m with fnMask := false }) (hw.mesh.trans ho.mesh)⟩

theorem configWrite_idle (hl : s.linkUp = false) (en mask bme : Bool) :
    Answers (.pcieConfigWrite en mask bme) s (· = s) := by
  refine Run.answers (Run.start s) ?_ rfl
  change execPcieConfigWrite en mask bme s = _
  rw [execPcieConfigWrite, hl]; rfl

theorem exec_configWrite (hl : s.linkUp = true) (en mask bme : Bool) : exec (.pcieConfigWrite en mask bme) s =
    ((((Run.start s).wb Reg.meshPcieStat 1 en).wb Reg.meshPcieStat 0 bme).mapMesh fun m => { m with fnMask := mask }).done := by
  change execPcieConfigWrite en mask bme s = _
  rw [execPcieConfigWrite, hl]; rfl

/-- The host sets the enable of MSI-X, the function mask and Bus Master Enable (R574). -/
theorem configWrite_sets (hl : s.linkUp = true) (en mask bme : Bool) : Answers (.pcieConfigWrite en mask bme) s fun u =>
    RegsKept s u [Reg.meshPcieStat] ∧ MemKept s u ∧ u.rb Reg.meshPcieStat 1 = en ∧ u.rb Reg.meshPcieStat 0 = bme ∧
      u.linkUp = true ∧ u.mesh = { s.mesh with fnMask := mask } := by
  refine Run.answers _ (exec_configWrite hl en mask bme) ?_
  have h1 := wb_rb (Run.start s) (a := Reg.meshPcieStat) (i := 1) (by decide) (pcieStat_masks 1 (by decide)) en
  have ho := wb_onlyRegs (Run.start s) Reg.meshPcieStat 1 en
  have hl1 := (wf_linkUp (Run.start s) (hi := 1) (lo := 1) (by decide) (by decide) (b2n en)).trans hl
  change ((Run.start s).wb Reg.meshPcieStat 1 en).s.linkUp = true at hl1
  generalize (Run.start s).wb Reg.meshPcieStat 1 en = q at h1 ho hl1
  have h0 := wb_rb q (a := Reg.meshPcieStat) (i := 0) (by decide) (pcieStat_masks 0 (by decide)) bme
  have h1' := (wf_rb_other q (a := Reg.meshPcieStat) (le_refl 0) (i := 1) (by decide) (b2n bme) fun hf => by
    rw [pcieStat_masks 1 (by decide)] at hf; cases hf).trans h1
  have hl0 := (wf_linkUp q (hi := 0) (lo := 0) (by decide) (by decide) (b2n bme)).trans hl1
  have ho' := wb_onlyRegs q Reg.meshPcieStat 0 bme
  change (q.wb Reg.meshPcieStat 0 bme).s.rb Reg.meshPcieStat 1 = en at h1'
  change (q.wb Reg.meshPcieStat 0 bme).s.linkUp = true at hl0
  generalize q.wb Reg.meshPcieStat 0 bme = t at h0 h1' hl0 ho'
  exact ⟨(ho.trans ho').regsKept, (ho.trans ho').memKept, h1', h0, hl0,
    congrArg (fun m : MeshSt => { m with fnMask := mask }) (ho.trans ho').mesh⟩

end Sys2Proof.Machine
end

section
/-!
PROOFS. The DMA engine: writes of `go`, the start of COPY, FILL and CHAIN, and bursts over general SRAM (O57).
-/
namespace Sys2Proof.Machine

variable {s₀ : State} (r : Run s₀) {s : State} {o : Op} {c : Nat}

/-! ## The state of a channel -/

@[simp] theorem setDma_dmaRun (c : Nat) (x : Option DmaRun) : (r.setDma c x).s.dmaRun c = x := tget_tset_same ..

/-- An operation that ends leaves the Mesh's state, and everything but itself. -/
theorem opFin_ended (h : r.s.op o.id = some o) (st : Status) (cause : Nat) (res : List Byte) :
    OnlyOp r.s (r.opFin o st cause res).s o.id ∧ (r.opFin o st cause res).s.mesh = r.s.mesh ∧
      OpEnded (r.opFin o st cause res).s o.id st res :=
  have h' := opEnd_ended r h st cause r.s.now32 res 0
  ⟨h'.1, rfl, h'.2⟩

/-! ## A write of `go` (R567) -/

/-- No operation is running or queued on the channel. -/
def dmaIdle (s : State) (c : Nat) : Prop := ∀ o ∈ s.sp.ops, ¬(o.unit = 7 ∧ o.obj = c)

theorem dmaIdle_iff (s : State) (c : Nat) : (s.sp.ops.any fun o => o.unit == 7 && o.obj == c) = false ↔ dmaIdle s c := by
  simp [dmaIdle]

theorem dmaGo_refused (h : ¬dmaIdle s c) : Answers (.dmaGo c) s fun u => OnlyRegs s u [Reg.meshEvstat] ∧
    u.rb Reg.meshEvstat 7 = true := by
  have hany := (Bool.not_eq_false _).mp fun hf => h ((dmaIdle_iff s c).1 hf)
  have hex : exec (.dmaGo c) s = ((Run.start s).flag Reg.meshEvstat 7).done := congrArg Run.done (if_pos hany)
  exact Run.answers _ hex ⟨flag_onlyRegs _ _ _, flag_rb _ (by decide) (mesh_masks.2.2.2 7 (by decide))⟩

theorem dmaGo_adds (h : dmaIdle s c) : Answers (.dmaGo c) s fun u => RegsKept s u [] ∧ MemKept s u ∧ u.mesh = s.mesh ∧
    u.sp = { s.sp with
      nextOp := s.sp.nextOp + 1
      ops := s.sp.ops ++ [{ id := s.sp.nextOp, tid := 64, k := 0, unit := 7, obj := c,
                            rdesc := s.rget64 (Reg.meshDmaDescLo c) (Reg.meshDmaDescHi c) }] } := by
  have hany := (dmaIdle_iff s c).2 h
  have hex : exec (.dmaGo c) s = _ := congrArg Run.done (if_neg (Bool.not_eq_true _ ▸ hany))
  exact Run.answers _ hex ⟨fun _ _ => rfl, fun _ => rfl, rfl, rfl⟩

/-! ## The start of an operation (R568) -/

/-- The operation has ended with a status and no results, and the Mesh stands as before. -/
def dmaEnded (s : State) (o : Op) (st : Status) (u : State) : Prop := OnlyOp s u o.id ∧ u.mesh = s.mesh ∧ OpEnded u o.id st []

/-- The operation runs on its channel. -/
def dmaRuns (s : State) (o : Op) (x : DmaRun) (u : State) : Prop :=
  OnlyOp s u o.id ∧ u.op o.id = some { o with acted := true, actedAt := s.now } ∧ u.dmaRun o.obj = some x

theorem dmaStart_refused (ho : r.s.op o.id = some o) {l : List (Nat × DmaEntry)} {st : Status} (h : r.s.dmaChecks l = some st)
    (chain : Bool) (cls : Nat) (empty : Bool) : dmaEnded r.s o st (r.dmaStart o chain cls l empty).s := by
  rw [Run.dmaStart, h]
  exact opFin_ended r ho st 0 []

theorem dmaStart_empty (ho : r.s.op o.id = some o) {l : List (Nat × DmaEntry)} (h : r.s.dmaChecks l = none)
    (chain : Bool) (cls : Nat) : dmaEnded r.s o .empty (r.dmaStart o chain cls l true).s := by
  rw [Run.dmaStart, h]
  exact opFin_ended r ho .empty 0 []

theorem dmaStart_runs (ho : r.s.op o.id = some o) {l : List (Nat × DmaEntry)} (h : r.s.dmaChecks l = none)
    (chain : Bool) (cls : Nat) : dmaRuns r.s o { op := o.id, chain := chain, cls := cls, entries := l.map (·.2) }
      (r.dmaStart o chain cls l false).s := by
  rw [Run.dmaStart, h]
  refine ⟨⟨fun _ => rfl, fun _ _ => rfl, fun j hj => op_opSet_ne (r.setDma ..) _ hj⟩, ?_, setDma_dmaRun r ..⟩
  exact op_opSet (r.setDma o.obj (some { op := o.id, chain := chain, cls := cls, entries := l.map (·.2) }))
    (o := { o with acted := true, actedAt := r.s.now }) ho

/-- The row of a move: COPY or FILL. -/
noncomputable def dmaRow (fill : Bool) (id : Nat) : Instr := if fill then .dmaFill id else .dmaCopy id

/-- The code of a move. -/
def dmaCode (fill : Bool) : Nat := if fill then 2 else 1

theorem exec_dmaRow {fill : Bool} (h : OpMay s o 7 (dmaCode fill)) :
    exec (dmaRow fill o.id) s = ((Run.start s).actDmaMove fill o).done := by
  cases fill <;> exact congrArg Run.done (opRow_may (Run.start s) _ h)

theorem exec_dmaChain (h : OpMay s o 7 3) : exec (.dmaChain o.id) s = ((Run.start s).actDmaChain o).done :=
  congrArg Run.done (opRow_may (Run.start s) _ h)

theorem actDmaMove_first (fill : Bool) (h : r.s.dmaFirst o = true) : r.actDmaMove fill o =
    if recNat o.payload 20 1 % 4 = 3 then r.opFin o .cfgerr 0 []
    else r.dmaStart o false (recNat o.payload 20 1 % 4) [(dmaCode fill, dmaMove fill o.payload)]
      ((dmaMove fill o.payload).len == 0) := by
  rw [Run.actDmaMove, h]; rfl

/-- What COPY and FILL do: wait for their channel, end as the checks say, or run (R568). -/
theorem dmaMove_outcomes (fill : Bool) (h : OpMay s o 7 (dmaCode fill)) :
    let e := dmaMove fill o.payload
    let cls := recNat o.payload 20 1 % 4
    let checks := s.dmaChecks [(dmaCode fill, e)]
    (s.dmaFirst o = false → Answers (dmaRow fill o.id) s (· = s)) ∧
    (s.dmaFirst o = true →
      (cls = 3 → Answers (dmaRow fill o.id) s (dmaEnded s o .cfgerr)) ∧
      (∀ st, cls ≠ 3 → checks = some st → Answers (dmaRow fill o.id) s (dmaEnded s o st)) ∧
      (cls ≠ 3 → checks = none → e.len = 0 → Answers (dmaRow fill o.id) s (dmaEnded s o .empty)) ∧
      (cls ≠ 3 → checks = none → e.len ≠ 0 → Answers (dmaRow fill o.id) s
        (dmaRuns s o { op := o.id, chain := false, cls := cls, entries := [e] }))) := by
  intro e cls checks
  have hex := exec_dmaRow h
  refine ⟨fun hwait => Run.answers (Run.start s) ?_ rfl, fun hfirst => ?_⟩
  · rw [hex, Run.actDmaMove, start_s, hwait]; rfl
  rw [actDmaMove_first (Run.start s) fill hfirst] at hex
  refine ⟨fun h3 => ?_, fun st h3 hck => ?_, fun h3 hck hlen => ?_, fun h3 hck hlen => ?_⟩
  · rw [if_pos h3] at hex
    exact Run.answers _ hex (opFin_ended (Run.start s) h.1 ..)
  all_goals rw [if_neg h3] at hex
  · exact Run.answers _ hex (dmaStart_refused (Run.start s) h.1 hck ..)
  · rw [hlen] at hex
    exact Run.answers _ hex (dmaStart_empty (Run.start s) h.1 hck ..)
  · rw [beq_eq_false_iff_ne.2 hlen] at hex
    exact Run.answers _ hex (dmaStart_runs (Run.start s) h.1 hck ..)

/-- What CHAIN does when its channel is free for it (R568). -/
theorem dmaChain_outcomes (h : OpMay s o 7 3) (hfirst : s.dmaFirst o = true) :
    let n := recNat o.payload 8 2
    let cls := recNat o.payload 10 1 % 4
    let a := recNat o.payload 0 8
    ((cls = 3 ∨ 256 < n) → Answers (.dmaChain o.id) s (dmaEnded s o .cfgerr)) ∧
    (cls ≠ 3 → n = 0 → Answers (.dmaChain o.id) s (dmaEnded s o .empty)) ∧
    (∀ d, cls ≠ 3 → 0 < n → n ≤ 256 → a < 2 ^ 40 → (Run.start s).memRead 13 a (24 * n) = (Run.start s, .ok, d) →
      s.dmaChecks (dmaList n d) = none → Answers (.dmaChain o.id) s
        (dmaRuns s o { op := o.id, chain := true, cls := cls, entries := (dmaList n d).map (·.2) })) := by
  intro n cls a
  have hex := exec_dmaChain h
  rw [Run.actDmaChain, start_s, hfirst, Bool.not_true, if_neg Bool.false_ne_true] at hex
  refine ⟨fun hbad => ?_, fun h3 hn => ?_, fun d h3 hpos hn ha hread hck => ?_⟩
  · exact Run.answers _ (hex.trans (congrArg Run.done (if_pos hbad))) (opFin_ended (Run.start s) h.1 ..)
  · have hok : ¬(cls = 3 ∨ 256 < n) := by omega
    exact Run.answers _ (hex.trans (congrArg Run.done ((if_neg hok).trans (if_pos hn)))) (opFin_ended (Run.start s) h.1 ..)
  · have hok : ¬(cls = 3 ∨ 256 < n) := by omega
    refine Run.answers _ (hex.trans (congrArg Run.done ((if_neg hok).trans ((if_neg (Nat.pos_iff_ne_zero.1 hpos)).trans ?_))))
      (dmaStart_runs (Run.start s) h.1 hck true cls)
    change (match if 2 ^ 40 ≤ a then ((Run.start s, .fault, []) : Run s × Status × List Byte)
        else (Run.start s).memRead 13 a (24 * n) with
      | (r, .ok, d) => r.dmaStart o true cls (dmaList n d) false
      | (r, _, _) => r.opFin o .fault 0 []) = _
    rw [if_neg (not_le.2 ha), hread]

/-! ## Bursts (R569) -/

theorem dmaEnd_op (hop : r.s.op o.id = some o) {x : DmaRun} (hid : o.id = x.op) (st : Status) (cause : Nat) :
    let u := (r.dmaEnd c x st cause).s
    u.dmaRun c = none ∧ OpEnded u o.id (if st = .ok then o.okSt else st) x.result ∧ OnlyOp r.s u o.id := by
  have hop' : (r.setDma c none).s.op x.op = some o := hid ▸ hop
  have heq : r.dmaEnd c x st cause = (r.setDma c none).opFin o (if st = .ok then o.okSt else st) cause x.result := by
    rw [Run.dmaEnd, hop']
  obtain ⟨honly, hmesh, hend⟩ := opFin_ended (r.setDma c none) hop (if st = .ok then o.okSt else st) cause x.result
  intro u
  rw [show u = _ from congrArg Run.s heq]
  refine ⟨?_, hend, honly⟩
  rw [State.dmaRun, hmesh]
  exact setDma_dmaRun r c none

theorem exec_dmaBurst (c : Nat) (s : State) : exec (.dmaBurst c) s = ((Run.start s).dmaBurst c).done := rfl

theorem dmaBurst_idle (h : s.dmaRun c = none) : Answers (.dmaBurst c) s (· = s) := by
  refine Run.answers (Run.start s) ?_ rfl
  rw [exec_dmaBurst, Run.dmaBurst, start_s, h]

variable {x : DmaRun} {e : DmaEntry}

theorem dmaBurst_cancelled (hrun : s.dmaRun c = some x) (hop : s.op x.op = some o) (hid : o.id = x.op) (hcan : x.cancel = true) :
    Answers (.dmaBurst c) s fun u => u.dmaRun c = none ∧ OpEnded u o.id .aborted x.result ∧ OnlyOp s u o.id := by
  have hex : exec (.dmaBurst c) s = ((Run.start s).dmaEnd c x .aborted 0x01).done := by
    rw [exec_dmaBurst, Run.dmaBurst, start_s, hrun]
    dsimp only
    rw [hcan, if_pos rfl]
  exact Run.answers _ hex (dmaEnd_op (Run.start s) (hid ▸ hop) hid .aborted 0x01)

/-- The bytes of a burst. -/
def burstData (s : State) (x : DmaRun) (e : DmaEntry) : List Byte :=
  if e.fill then fillBytes e.src (e.dst + x.moved) (e.burst x.moved) else s.bytes (e.src + x.moved) (e.burst x.moved)

theorem burstData_length (s : State) (x : DmaRun) (e : DmaEntry) : (burstData s x e).length = e.burst x.moved := by
  unfold burstData
  split <;> simp [fillBytes, State.bytes]

/-- What follows the move of a burst: the next burst of its entry, the next entry, or the end. -/
def Run.burstNext (r : Run s₀) (c : Nat) (x : DmaRun) (e : DmaEntry) : Run s₀ :=
  let moved := x.moved + e.burst x.moved
  if moved < e.len then r.setDma c (some { x with moved := moved })
  else if x.done + 1 < x.entries.length then r.setDma c (some { x with done := x.done + 1, moved := 0 })
  else r.dmaEnd c { x with done := x.done + 1, moved := moved } .ok 0

/-- A burst over general SRAM without errors moves its bytes. -/
theorem dmaBurst_moves (hrun : r.s.dmaRun c = some x) (hcan : x.cancel = false) (he : x.entries[x.done]? = some e)
    (hdst : SramClean r.s (e.dst + x.moved) (e.burst x.moved))
    (hsrc : e.fill = true ∨ SramClean r.s (e.src + x.moved) (e.burst x.moved)) :
    r.dmaBurst c = (r.putBytes (e.dst + x.moved) (burstData r.s x e)).burstNext c x e := by
  have hn : ¬e.burst x.moved = 0 := Nat.pos_iff_ne_zero.1 hdst.1
  have hread : (if e.burst x.moved = 0 then (r, Status.ok, [])
      else if e.fill = true then (r, Status.ok, fillBytes e.src (e.dst + x.moved) (e.burst x.moved))
      else r.memRead 13 (e.src + x.moved) (e.burst x.moved)) = (r, .ok, burstData r.s x e) := by
    rw [if_neg hn, burstData]
    by_cases hfill : e.fill = true
    · rw [if_pos hfill, if_pos hfill]
    · rw [if_neg hfill, if_neg hfill, (hsrc.resolve_left hfill).memRead]
  have hwrite : r.memWrite 13 (e.dst + x.moved) (burstData r.s x e) = (r.putBytes (e.dst + x.moved) (burstData r.s x e), .ok) :=
    SramClean.memWrite r (by rw [burstData_length]; exact hdst)
  rw [Run.dmaBurst, hrun]
  dsimp only
  rw [if_neg (show ¬x.cancel = true from hcan ▸ Bool.false_ne_true), he]
  dsimp only
  rw [hread]
  dsimp only
  rw [if_neg (not_not.2 rfl), hwrite]
  dsimp only
  rw [if_neg (not_not.2 rfl)]
  rfl

/-- What a burst leaves: it moves its bytes and no others. -/
theorem burstNext_kept (q : Run s₀) (hop : q.s.op o.id = some o) (hid : o.id = x.op) :
    OnlyOp q.s (q.burstNext c x e).s o.id ∧
      (x.moved + e.burst x.moved < e.len → (q.burstNext c x e).s.dmaRun c = some { x with moved := x.moved + e.burst x.moved }) ∧
      (e.len ≤ x.moved + e.burst x.moved → x.done + 1 < x.entries.length →
        (q.burstNext c x e).s.dmaRun c = some { x with done := x.done + 1, moved := 0 }) ∧
      (e.len ≤ x.moved + e.burst x.moved → x.entries.length ≤ x.done + 1 → (q.burstNext c x e).s.dmaRun c = none ∧
        OpEnded (q.burstNext c x e).s o.id o.okSt ({ x with done := x.done + 1, moved := x.moved + e.burst x.moved }).result) := by
  by_cases h1 : x.moved + e.burst x.moved < e.len
  · rw [show q.burstNext c x e = _ from if_pos h1]
    exact ⟨⟨fun _ => rfl, fun _ _ => rfl, fun _ _ => rfl⟩, fun _ => setDma_dmaRun .., fun h => absurd h1 (not_lt.2 h),
      fun h => absurd h1 (not_lt.2 h)⟩
  · by_cases h2 : x.done + 1 < x.entries.length
    · rw [show q.burstNext c x e = _ from (if_neg h1).trans (if_pos h2)]
      exact ⟨⟨fun _ => rfl, fun _ _ => rfl, fun _ _ => rfl⟩, fun h => absurd h h1, fun _ _ => setDma_dmaRun ..,
        fun _ h => absurd h2 (not_lt.2 h)⟩
    · rw [show q.burstNext c x e = _ from (if_neg h1).trans (if_neg h2)]
      obtain ⟨hnone, hend, honly⟩ := dmaEnd_op (c := c) q (x := { x with done := x.done + 1, moved := x.moved + e.burst x.moved }) hop hid .ok 0
      exact ⟨honly, fun h => absurd h h1, fun _ h => absurd h h2, fun _ _ => ⟨hnone, hend⟩⟩

/-- Bytes that have been put into general SRAM and stand there since. -/
theorem sram_put {u : State} {a : Nat} {d : List Byte} (h : a + d.length ≤ 0x2000000) (hk : MemKept (r.putBytes a d).s u) :
    u.bytes a d.length = d ∧ MemKeptBut r.s u a d.length := by
  obtain ⟨hd, hm⟩ := putBytes_sram r h
  refine ⟨?_, fun b hb => (hk b).trans (hm b hb)⟩
  rw [← hd]
  refine List.ext_getElem (by simp [State.bytes]) fun i hi _ => ?_
  have hi' : i < d.length := by simpa [State.bytes] using hi
  simp only [State.bytes, List.getElem_map, List.getElem_range, List.length_map, List.length_range]
  rw [meshByte_sram _ (by omega), meshByte_sram _ (by omega), hk]

/-- A burst over general SRAM moves its bytes and no others, and goes on or ends the operation (R569). -/
theorem dmaBurst_kept (hrun : s.dmaRun c = some x) (hop : s.op x.op = some o) (hid : o.id = x.op) (hcan : x.cancel = false)
    (he : x.entries[x.done]? = some e) (hdst : SramClean s (e.dst + x.moved) (e.burst x.moved))
    (hsrc : e.fill = true ∨ SramClean s (e.src + x.moved) (e.burst x.moved)) :
    Answers (.dmaBurst c) s fun u => RegsKept s u [] ∧ u.bytes (e.dst + x.moved) (e.burst x.moved) = burstData s x e ∧
      MemKeptBut s u (e.dst + x.moved) (e.burst x.moved) ∧ OpsKept s u o.id ∧
      (x.moved + e.burst x.moved < e.len → u.dmaRun c = some { x with moved := x.moved + e.burst x.moved }) ∧
      (e.len ≤ x.moved + e.burst x.moved → x.done + 1 < x.entries.length →
        u.dmaRun c = some { x with done := x.done + 1, moved := 0 }) ∧
      (e.len ≤ x.moved + e.burst x.moved → x.entries.length ≤ x.done + 1 → u.dmaRun c = none ∧
        OpEnded u o.id o.okSt ({ x with done := x.done + 1, moved := x.moved + e.burst x.moved }).result) := by
  have hq := putBytes_s (Run.start s) (e.dst + x.moved) (burstData s x e)
  have hlen := burstData_length s x e
  have hop' : ((Run.start s).putBytes (e.dst + x.moved) (burstData s x e)).s.op o.id = some o := by rw [hq, hid]; exact hop
  obtain ⟨⟨hmem, hregs, hops⟩, hmore, hnext, hend⟩ := burstNext_kept (c := c) (x := x) (e := e) _ hop' hid
  obtain ⟨hdata, hbut⟩ := sram_put (Run.start s) (hlen ▸ hdst.2.1) hmem
  rw [hlen] at hdata hbut
  refine Run.answers _ ((exec_dmaBurst c s).trans (congrArg Run.done (dmaBurst_moves (Run.start s) hrun hcan he hdst hsrc)))
    ⟨fun a ha => ?_, hdata, hbut, fun j hj => ?_,
    hmore, hnext, hend⟩
  · exact (hregs a ha).trans (congrArg (·.rget a) hq)
  · exact (hops j hj).trans (congrArg (·.op j) hq)

end Sys2Proof.Machine
end

section
/-!
PROOFS. The event controller: levels that rise, EOI, and the messages of vectors (O57).
-/
namespace Sys2Proof.Machine

variable {s : State} {v : Nat}

/-! ## Levels and EOI (R573) -/

/-- The vectors asked for beside `v`, in their order. -/
def State.askedBut (s : State) (v : Nat) : List Nat := s.mesh.requested.filter (· ≠ v)

theorem filter_bne (l : List Nat) (v : Nat) : l.filter (· != v) = l.filter (· ≠ v) :=
  List.filter_congr fun x _ => by rw [bne, beq_eq_decide, decide_not]

theorem evcRequest_eq {s₀ : State} (r : Run s₀) (v : Nat) :
    (r.evcRequest v).s = { r.s with mesh := { r.s.mesh with requested := r.s.askedBut v ++ [v] } } := by
  rw [State.askedBut, ← filter_bne]; rfl

/-- A level that rises is asked for (R573). -/
theorem exec_eventLevelRise (v : Nat) (s : State) : exec (.eventLevelRise v) s =
    if decide (v < 128) && s.vecLevel v && !bit s.mesh.seen v then
      (((Run.start s).mapMesh fun m => { m with seen := putBits m.seen v v 1 }).evcRequest v).done
    else (Run.start s).done := rfl

theorem exec_evcEoiWrite (w : Word) (s : State) : exec (.evcEoiWrite w) s =
    (if s.vecLevel (w.toNat % 128) then (Run.start s).evcRequest (w.toNat % 128) else Run.start s).done := rfl

theorem eventLevelRise_idle (h : ¬(s.vecLevel v = true ∧ bit s.mesh.seen v = false)) : Answers (.eventLevelRise v) s (· = s) := by
  refine Run.answers (Run.start s) ((exec_eventLevelRise v s).trans (if_neg fun hc => h ?_)) rfl
  simp only [Bool.and_eq_true, Bool.not_eq_true'] at hc
  exact ⟨hc.1.2, hc.2⟩

theorem eventLevelRise_asks (hv : v < 128) (hl : s.vecLevel v = true) (hseen : bit s.mesh.seen v = false) :
    Answers (.eventLevelRise v) s (· = { s with mesh := { s.mesh with
      seen := putBits s.mesh.seen v v 1, requested := s.askedBut v ++ [v] } }) := by
  refine Run.answers _ ((exec_eventLevelRise v s).trans (if_pos ?_)) (evcRequest_eq _ v)
  simp [hv, hl, hseen]

theorem evcEoiWrite_low {w : Word} (hw : w.toNat % 128 = v) (h : s.vecLevel v = false) : Answers (.evcEoiWrite w) s (· = s) := by
  refine Run.answers (Run.start s) ((exec_evcEoiWrite w s).trans (congrArg Run.done (if_neg ?_))) rfl
  rw [hw]
  exact Bool.eq_false_iff.1 h

theorem evcEoiWrite_high {w : Word} (hw : w.toNat % 128 = v) (h : s.vecLevel v = true) :
    Answers (.evcEoiWrite w) s (· = { s with mesh := { s.mesh with requested := s.askedBut v ++ [v] } }) := by
  subst hw
  exact Run.answers _ ((exec_evcEoiWrite w s).trans (congrArg Run.done (if_pos h))) (evcRequest_eq _ _)

/-! ## Messages (R574) -/

theorem pba_mask : ∀ v < 128, bit (implMask (Reg.evcPba (v / 32))).toNat (v % 32) = true := by decide +kernel

/-- The message of `v` has left. -/
def msixSent (s : State) (v : Nat) (u : State) : Prop :=
  RegsKept s u [Reg.evcPba (v / 32)] ∧ MemKept s u ∧ u.pba v = false ∧
    u.mesh = { s.mesh with
      requested := s.askedBut v, sent := s.mesh.sent + 1
      lastMsg := some (s.rget64 (Reg.evcMsixLo v) (Reg.evcMsixHi v), (s.rget (Reg.evcMsixData v)).toNat) }

theorem setPba_pba {s₀ : State} (r : Run s₀) (hv : v < 128) (b : Bool) : (r.setPba v b).s.pba v = b :=
  wb_rb r (Nat.mod_lt _ (by decide)) (pba_mask v hv) b

theorem msixOut_sent {s₀ : State} (r : Run s₀) (hv : v < 128) : msixSent r.s v (r.msixOut v).s := by
  have hw := wb_onlyRegs r (Reg.evcPba (v / 32)) (v % 32) false
  refine ⟨hw.regsKept, hw.memKept, setPba_pba r hv false, ?_⟩
  rw [State.askedBut, ← filter_bne]; rfl

theorem msixOpen_iff (s : State) (v : Nat) : s.msixOpen v = true ↔ s.rb Reg.meshPcieStat 1 = true ∧
    s.rb Reg.meshPcieStat 0 = true ∧ s.mesh.fnMask = false ∧ s.rb (Reg.evcMsixCtrl v) 0 = false := by
  simp [State.msixOpen, and_assoc]

/-- MSIX_SEND takes one of its four ways (R574). -/
theorem exec_msixSend (v : Nat) (s : State) : exec (.msixSend v) s =
    (if s.mesh.requested.contains v && s.msixOpen v then (Run.start s).msixOut v
     else if s.mesh.requested.contains v then
       ((Run.start s).setPba v true).mapMesh fun m => { m with requested := m.requested.filter (· != v) }
     else if s.pba v && s.msixOpen v && s.vecLevel v then (Run.start s).msixOut v
     else Run.start s).done := rfl

theorem msixSend_requested (hv : v < 128) (hreq : v ∈ s.mesh.requested) (ho : s.msixOpen v = true) :
    Answers (.msixSend v) s (msixSent s v) := by
  refine Run.answers _ ((exec_msixSend v s).trans (congrArg Run.done (if_pos ?_))) (msixOut_sent (Run.start s) hv)
  simp [hreq, ho]

theorem msixSend_pends (hv : v < 128) (hreq : v ∈ s.mesh.requested) (ho : ¬s.msixOpen v = true) :
    Answers (.msixSend v) s fun u => RegsKept s u [Reg.evcPba (v / 32)] ∧ u.pba v = true ∧
      u.mesh = { s.mesh with requested := s.askedBut v } := by
  refine Run.answers _ ((exec_msixSend v s).trans (congrArg Run.done ((if_neg ?_).trans (if_pos ?_))))
    ⟨(wb_onlyRegs (Run.start s) (Reg.evcPba (v / 32)) (v % 32) true).regsKept, setPba_pba (Run.start s) hv true, ?_⟩
  · simp [ho]
  · simpa using hreq
  · rw [State.askedBut, ← filter_bne]; rfl

theorem msixSend_pending (hv : v < 128) (hreq : v ∉ s.mesh.requested) (hp : s.pba v = true) (ho : s.msixOpen v = true)
    (hl : s.vecLevel v = true) : Answers (.msixSend v) s (msixSent s v) := by
  refine Run.answers _ ((exec_msixSend v s).trans (congrArg Run.done ((if_neg ?_).trans ((if_neg ?_).trans (if_pos ?_)))))
    (msixOut_sent (Run.start s) hv)
  all_goals simp [hreq, hp, ho, hl]

theorem msixSend_idle (hreq : v ∉ s.mesh.requested) (h : s.pba v = false ∨ ¬s.msixOpen v = true ∨ s.vecLevel v = false) :
    Answers (.msixSend v) s (· = s) := by
  refine Run.answers (Run.start s)
    ((exec_msixSend v s).trans (congrArg Run.done ((if_neg ?_).trans ((if_neg ?_).trans (if_neg ?_))))) rfl
  · simp [hreq]
  · simpa using hreq
  · rcases h with h | h | h <;> simp [h]

end Sys2Proof.Machine
end

section
/-!
PROOFS. The places of memory, the host, the DMA engine and the event controller (O57).
-/
namespace Sys2Proof.Machine

/-- Settles O57: each clause is the lemma of its command, and general SRAM without errors reads and writes whole. -/
theorem hostDmaAndEvents : Obligations.HostDmaAndEvents := by
  refine ⟨fun a => sramBank_port, fun n two o p _ _ ho hp => ⟨ddrLocOf_injective ho hp, ddrLocOf_group_ne, ddrLocOf_bounds n two o⟩,
    fun s _ => ?_⟩
  intro ev stat regs clean
  refine ⟨fun w hw => ⟨scrub_none hw, scrub_single hw, scrub_double hw⟩, fun bar off n => hostRead_idle, fun off n => hostRead_sram,
    fun off n => hostRead_hole, fun bar off d => hostWrite_idle, fun off d => hostWrite_sram,
    fun port a => ⟨outbound_idle, outbound_fails⟩,
    fun lanes gen => ⟨linkUp_idle, linkUp_trains, (linkDown_idle · lanes gen), (linkDown_drops · lanes gen)⟩,
    Run.answers _ rfl rfl, perst_low, fun en mask bme => ⟨(configWrite_idle · en mask bme), (configWrite_sets · en mask bme)⟩,
    fun c _ => ⟨dmaGo_refused, dmaGo_adds, fun o fill => ?_, fun o h hobj hfirst => ?_, dmaBurst_idle,
      fun x o hrun hop hid => ⟨dmaBurst_cancelled hrun hop hid, fun e => dmaBurst_kept hrun hop hid⟩⟩,
    fun v hv => ?_⟩
  · intro code row e cls checks ended h hobj
    subst hobj
    exact dmaMove_outcomes fill h
  · subst hobj
    exact dmaChain_outcomes h hfirst
  · intro asked rises may word sent
    have hopen : s.msixOpen v = true ↔ may := msixOpen_iff s v
    refine ⟨eventLevelRise_idle, fun h => eventLevelRise_asks hv h.1 h.2, fun w hw => ⟨evcEoiWrite_low hw, evcEoiWrite_high hw⟩, ?_⟩
    rw [← hopen]
    exact ⟨msixSend_requested hv, msixSend_pends hv, msixSend_pending hv, msixSend_idle⟩

end Sys2Proof.Machine
end

section
/-!
PROOFS. Bharal's own work: what its parts leave, the event recorder's queue, and the end of an operation or of a host
command (O58).
-/
namespace Sys2Proof.Machine

variable {s₀ : State} (r : Run s₀)

/-! ## What Bharal's work leaves -/

/-- Memory, the processors, the clock, Chamois and every register outside a list stand as before. -/
structure BhrFrame (l : List Nat) (s u : State) : Prop where
  mem : u.mem = s.mem
  sp : u.sp = s.sp
  cyc : u.cyc = s.cyc
  chm : u.chm = s.chm
  regs : RegsKept s u l

namespace BhrFrame

variable {l m : List Nat} {s t u : State}

theorem refl (l : List Nat) (s : State) : BhrFrame l s s := ⟨rfl, rfl, rfl, rfl, .refl s l⟩

theorem trans (h : BhrFrame l s t) (g : BhrFrame l t u) : BhrFrame l s u :=
  ⟨g.mem.trans h.mem, g.sp.trans h.sp, g.cyc.trans h.cyc, g.chm.trans h.chm, h.regs.trans g.regs⟩

theorem mono (h : BhrFrame l s u) (hl : l ⊆ m) : BhrFrame m s u := ⟨h.mem, h.sp, h.cyc, h.chm, h.regs.mono hl⟩

/-- Two parts one behind the other. -/
theorem append (h : BhrFrame l s t) (g : BhrFrame m t u) : BhrFrame (l ++ m) s u :=
  (h.mono (List.subset_append_left l m)).trans (g.mono (List.subset_append_right l m))

theorem memKept (h : BhrFrame l s u) : MemKept s u := fun a => by rw [State.byte, h.mem, State.byte]

theorem op (h : BhrFrame l s u) (id : Nat) : u.op id = s.op id := by rw [State.op, h.sp, State.op]

/-- A bit of a register outside the list. -/
theorem rb (h : BhrFrame l s u) {a : Nat} (ha : a ∉ l) (i : Nat) : u.rb a i = s.rb a i := by
  rw [State.rb, h.regs a ha, State.rb]

/-- A field of a register outside the list. -/
theorem rf (h : BhrFrame l s u) {a : Nat} (ha : a ∉ l) (hi lo : Nat) : u.rf a hi lo = s.rf a hi lo := by
  rw [State.rf, h.regs a ha, State.rf]

theorem node (h : BhrFrame l s u) (hl : Reg.bhrStat ∉ l) : u.node = s.node := by rw [State.node, h.rf hl, State.node]

theorem of_onlyRegs (h : OnlyRegs s u l) : BhrFrame l s u := by
  refine ⟨?_, h.sp, ?_, ?_, h.regsKept⟩ <;> rw [h.1]

theorem wr (a v : Nat) : BhrFrame [a] r.s (r.wr a v).s := of_onlyRegs (wr_onlyRegs ..)
theorem wf (a hi lo x : Nat) : BhrFrame [a] r.s (r.wf a hi lo x).s := of_onlyRegs (wf_onlyRegs ..)
theorem wb (a i : Nat) (b : Bool) : BhrFrame [a] r.s (r.wb a i b).s := of_onlyRegs (wb_onlyRegs ..)
theorem flag (a i : Nat) : BhrFrame [a] r.s (r.flag a i).s := of_onlyRegs (flag_onlyRegs ..)

theorem mapBhr (f : BhrSt → BhrSt) : BhrFrame [] r.s (r.mapBhr f).s := ⟨rfl, rfl, rfl, rfl, .refl r.s []⟩

end BhrFrame

/-! ## Records (R584) -/

/-- Queueing a record changes the register of lost records at most. -/
theorem log_frame (kind sev : Nat) (data : List Nat) : BhrFrame [Reg.bhrLogLost] r.s (r.log kind sev data).s := by
  fun_cases Run.log r kind sev data
  next b _ =>
    have hup : BhrFrame [Reg.bhrLogLost] r.s (r.up (.bhr { b with logLost := b.logLost + 1 })).s := ⟨rfl, rfl, rfl, rfl, .refl r.s _⟩
    exact hup.trans (.of_onlyRegs (count_onlyRegs ..))
  · exact ⟨rfl, rfl, rfl, rfl, .refl r.s _⟩

/-- Queueing a record changes Bharal's queue and its count of lost records only. -/
theorem log_bhr (kind sev : Nat) (data : List Nat) : (r.log kind sev data).s.bhr =
    { r.s.bhr with logQ := (r.log kind sev data).s.bhr.logQ, logLost := (r.log kind sev data).s.bhr.logLost } := by
  fun_cases Run.log r kind sev data <;> rfl

/-- Every other part of Bharal's state stands as before a record. -/
theorem log_get {α : Type} (f : BhrSt → α) (hf : ∀ b q n, f { b with logQ := q, logLost := n } = f b) (kind sev : Nat) (data : List Nat) :
    f (r.log kind sev data).s.bhr = f r.s.bhr := by
  rw [log_bhr]
  exact hf ..

theorem wr_bhr (a v : Nat) : (r.wr a v).s.bhr = r.s.bhr := rfl
theorem wf_bhr (a hi lo x : Nat) : (r.wf a hi lo x).s.bhr = r.s.bhr := rfl
theorem wb_bhr (a i : Nat) (b : Bool) : (r.wb a i b).s.bhr = r.s.bhr := rfl
theorem flag_bhr (a i : Nat) : (r.flag a i).s.bhr = r.s.bhr := rfl

/-! ## Event flags -/

theorem bhr_masks : (∀ i < 14, bit (implMask Reg.bhrEvstat).toNat i = true) ∧
    (∀ i < 32, 25 ≤ i → bit (implMask Reg.bhrStat).toNat i = true) ∧ implMask Reg.bhrCmd = 0xFFFF80FF := by decide +kernel

theorem mbx_mask {k : Nat} : k < 1024 → implMask (Reg.bhrMbx k) = BitVec.allOnes 32 := by
  have h : (List.range 1024).all (fun k => implMask (Reg.bhrMbx k) == BitVec.allOnes 32) = true := by decide +kernel
  exact fun hk => beq_iff_eq.1 (List.all_eq_true.1 h k (List.mem_range.2 hk))

/-- Every event flag of Bharal that is set stays set. -/
def FlagsKept (s u : State) : Prop := ∀ i < 14, s.rb Reg.bhrEvstat i = true → u.rb Reg.bhrEvstat i = true

theorem FlagsKept.trans {s t u : State} (h : FlagsKept s t) (g : FlagsKept t u) : FlagsKept s u :=
  fun i hi hs => g i hi (h i hi hs)

theorem flagsKept_frame {l : List Nat} {s u : State} (h : BhrFrame l s u) (hl : Reg.bhrEvstat ∉ l) : FlagsKept s u :=
  fun i _ hs => (h.rb hl i).trans hs

theorem flagsKept_flag {j : Nat} (hj : j < 14) : FlagsKept r.s (r.flag Reg.bhrEvstat j).s := by
  intro i hi hs
  by_cases hij : i = j
  · subst hij
    exact flag_rb r (by omega) (bhr_masks.1 i hi)
  · exact (wf_rb_other r (le_refl j) (by omega) 1 fun hf => by simp [bhr_masks.1 i hi] at hf).trans hs

/-! ## The mailbox (R608) -/

theorem ofBytesLE_lt (l : List Byte) : ofBytesLE l < 256 ^ l.length := by
  induction l with
  | nil => exact Nat.one_pos
  | cons b l ih =>
    have hb := b.isLt
    rw [ofBytesLE, List.length_cons, pow_succ]
    omega

theorem recNat_lt (l : List Byte) (off n : Nat) : recNat l off n < 256 ^ n :=
  (ofBytesLE_lt _).trans_le (Nat.pow_le_pow_right (by decide) (List.length_take_le ..))

/-- The mailbox words. -/
def mbxRegs : List Nat := (List.range 1024).map Reg.bhrMbx

theorem mem_mbxRegs {k : Nat} (h : k < 1024) : Reg.bhrMbx k ∈ mbxRegs := List.mem_map_of_mem (List.mem_range.2 h)

theorem mbx_not_mem {a : Nat} (h : a < Reg.bhrMbx 0) : a ∉ mbxRegs := by
  simp only [mbxRegs, List.mem_map, not_exists, not_and, Reg.bhrMbx] at *
  omega

/-- Words put into the mailbox read back, and nothing else changes. -/
theorem mbxPut_words {d : List Byte} (hd : d.length ≤ 4096) : OnlyRegs r.s (r.mbxPut d).s mbxRegs ∧
    ∀ k, k < (d.length + 3) / 4 → ((r.mbxPut d).s.rget (Reg.bhrMbx k)).toNat = recNat d (4 * k) 4 := by
  have hn : divUp d.length 4 = (d.length + 3) / 4 := rfl
  have hle : divUp d.length 4 ≤ 1024 := by omega
  rw [← hn, Run.mbxPut]
  generalize divUp d.length 4 = n at hle
  clear hn
  induction n with
  | zero => exact ⟨.refl .., fun k hk => absurd hk (Nat.not_lt_zero k)⟩
  | succ n ih =>
    obtain ⟨ho, hw⟩ := ih (by omega)
    have hstep : r.each (List.range (n + 1)) (fun r w => r.wr (Reg.bhrMbx w) (recNat d (4 * w) 4)) =
        (r.each (List.range n) fun r w => r.wr (Reg.bhrMbx w) (recNat d (4 * w) 4)).wr (Reg.bhrMbx n) (recNat d (4 * n) 4) := by
      rw [Run.each, Run.each, List.range_succ, List.foldl_append]; rfl
    rw [hstep]
    refine ⟨ho.trans ((wr_onlyRegs ..).mono (List.cons_subset.2 ⟨mem_mbxRegs (by omega), List.nil_subset _⟩)), fun k hk => ?_⟩
    by_cases hkn : k = n
    · subst hkn
      rw [wr_s, rget_reg_same, mbx_mask (by omega), BitVec.and_allOnes, BitVec.toNat_ofNat]
      exact Nat.mod_eq_of_lt (recNat_lt ..)
    · rw [wr_s, rget_reg_ne (by simp only [Reg.bhrMbx]; omega)]
      exact hw k (by omega)

/-! ## The end of an operation or of a host command (R608) -/

/-- The flag of a refusal, but where `auth_fail` applies. -/
def Run.bhrRefused (r : Run s₀) (w : BhrWho) (st : Status) : Run s₀ :=
  r.when (st.isRefusal && !(w == .host && r.s.bhr.cmd == 6 && st == .denied)) fun r =>
    match w with
    | .host => r.flag Reg.bhrEvstat 12
    | .op id => match r.s.op id with
      | some o => if o.code = 6 ∧ st = .denied then r else r.flag Reg.bhrEvstat 12
      | none => r

/-- The command in hand is no longer that of `w`. -/
def BhrSt.freed (b : BhrSt) (w : BhrWho) : BhrSt := { b with running := if b.running = some w then none else b.running }

/-- The end of an operation or command behind its flag. -/
def Run.bhrClose (r : Run s₀) (w : BhrWho) (st : Status) (cause : Nat) (res : List Byte) : Run s₀ :=
  let r := r.mapBhr (·.freed w)
  match w with
  | .op id => match r.s.op id with
    | some o => if o.out.isSome then r else r.opFin o (if st = .ok then o.okSt else st) cause res
    | none => r
  | .host =>
    let r := (r.mbxPut res).mapBhr fun b => { b with cmd := 0 }
    (r.wr Reg.bhrCmd (st.code <<< 24 + cause <<< 16)).flag Reg.bhrEvstat 13

theorem bhrFin_eq (w : BhrWho) (st : Status) (cause : Nat) (res : List Byte) :
    r.bhrFin w st cause res = (r.bhrRefused w st).bhrClose w st cause res := rfl

variable {w : BhrWho} {st : Status} {cause : Nat} {res : List Byte}

theorem bhrRefused_cases (w : BhrWho) (st : Status) : r.bhrRefused w st = r ∨ r.bhrRefused w st = r.flag Reg.bhrEvstat 12 := by
  rw [Run.bhrRefused, Run.when]
  split
  · cases w with
    | host => exact .inr rfl
    | op id =>
      dsimp only
      split
      · split
        · exact .inl rfl
        · exact .inr rfl
      · exact .inl rfl
  · exact .inl rfl

/-- Who asks is the host, or an operation in flight that has not ended. -/
def BhrAsked (s : State) : BhrWho → Prop
  | .host => True
  | .op i => ∃ o, s.op i = some o ∧ o.id = i ∧ o.out = none

theorem bhrRefused_flags (hr : st.isRefusal = true) (hd : st ≠ .denied) (h : BhrAsked r.s w) :
    r.bhrRefused w st = r.flag Reg.bhrEvstat 12 := by
  cases w with
  | host => rw [Run.bhrRefused, hr, beq_eq_false_iff_ne.2 hd, Bool.and_false]; rfl
  | op i =>
    obtain ⟨o, ho, -, -⟩ := h
    rw [Run.bhrRefused, hr, beq_eq_false_iff_ne.2 hd, Bool.and_false]
    change (match r.s.op i with
      | some o => if o.code = 6 ∧ st = Status.denied then r else r.flag Reg.bhrEvstat 12
      | none => r) = _
    rw [ho]
    exact if_neg fun h => hd h.2

/-- An operation or a host command has ended with a status, a cause and results. -/
def bhrEnded (s : State) (w : BhrWho) (st : Status) (cause : Nat) (res : List Byte) (u : State) : Prop := MemKept s u ∧ match w with
  | .op i => ∃ o, s.op i = some o ∧ OpEnded u i (if st = .ok then o.okSt else st) res ∧ OpsKept s u i
  | .host => u.sp = s.sp ∧ (u.rget Reg.bhrCmd).toNat = st.code * 2 ^ 24 + cause * 2 ^ 16 ∧ u.rb Reg.bhrEvstat 13 = true ∧
    u.bhr.cmd = 0 ∧ ∀ k, k < (res.length + 3) / 4 → (u.rget (Reg.bhrMbx k)).toNat = recNat res (4 * k) 4

/-- BHR_CMD and the mailbox. -/
def bhrBox : List Nat := Reg.bhrCmd :: mbxRegs

/-- What the end leaves of the state before it. -/
structure BhrClosed (q u : State) : Prop where
  regs : RegsKept q u (Reg.bhrEvstat :: bhrBox)
  bhr : u.bhr = { q.bhr with running := u.bhr.running, cmd := u.bhr.cmd }
  flags : FlagsKept q u

/-- Every other part of Bharal's state stands as before the end. -/
theorem BhrClosed.get {q u : State} (h : BhrClosed q u) {α : Type} (f : BhrSt → α)
    (hf : ∀ b running cmd, f { b with running := running, cmd := cmd } = f b) : f u.bhr = f q.bhr := by
  rw [h.bhr]
  exact hf ..

theorem bhrClose_op {i : Nat} {o : Op} (ho : r.s.op i = some o) (hid : o.id = i) (hout : o.out = none) :
    OnlyOp r.s (r.bhrClose (.op i) st cause res).s i ∧ OpEnded (r.bhrClose (.op i) st cause res).s i (if st = .ok then o.okSt else st) res ∧
      BhrClosed r.s (r.bhrClose (.op i) st cause res).s := by
  subst hid
  have heq : r.bhrClose (.op o.id) st cause res = (r.mapBhr (·.freed (.op o.id))).opFin o (if st = .ok then o.okSt else st) cause res := by
    have ho' : (r.mapBhr (·.freed (.op o.id))).s.op o.id = some o := ho
    have hout' : o.out.isSome = false := Option.isSome_eq_false_iff.2 (Option.isNone_iff_eq_none.2 hout)
    rw [Run.bhrClose, ho']
    exact if_neg (Bool.eq_false_iff.1 hout')
  obtain ⟨honly, hend⟩ := opEnd_ended (r.mapBhr (·.freed (.op o.id))) ho (if st = .ok then o.okSt else st) cause r.s.now32 res 0
  rw [heq]
  exact ⟨honly, hend, fun _ _ => rfl, rfl, fun _ _ h => h⟩

/-- A status and a cause as BHR_CMD shows them. -/
theorem bhrCmd_value {c k : Nat} (hc : c < 256) (hk : k < 256) :
    (BitVec.ofNat 32 (c <<< 24 + k <<< 16) &&& implMask Reg.bhrCmd).toNat = c * 2 ^ 24 + k * 2 ^ 16 := by
  have hv : c <<< 24 + k <<< 16 = (c * 256 + k) * 2 ^ 16 := by rw [Nat.shiftLeft_eq, Nat.shiftLeft_eq]; omega
  have hmask : ∀ i < 32, 16 ≤ i → (0xFFFF80FF : Nat).testBit i = true := by decide
  rw [bhr_masks.2.2, hv, BitVec.toNat_and, BitVec.toNat_ofNat, Nat.mod_eq_of_lt (by omega),
    show c * 2 ^ 24 + k * 2 ^ 16 = (c * 256 + k) * 2 ^ 16 by omega]
  refine Nat.eq_of_testBit_eq fun i => ?_
  rw [Nat.testBit_and, show (0xFFFF80FF : Word).toNat = 0xFFFF80FF from rfl]
  by_cases h16 : 16 ≤ i
  · by_cases h32 : i < 32
    · rw [hmask i h32 h16, Bool.and_true]
    · have hzero : ((c * 256 + k) * 2 ^ 16).testBit i = false :=
        Nat.testBit_lt_two_pow (lt_of_lt_of_le (b := 2 ^ 32) (by omega) (Nat.pow_le_pow_right (by decide) (by omega)))
      rw [hzero, Bool.false_and]
  · rw [Nat.testBit_mul_two_pow, decide_eq_false (by omega), Bool.false_and, Bool.false_and]

theorem bhrClose_host (hst : st.code < 256) (hc : cause < 256) (hres : res.length ≤ 4096) :
    bhrEnded r.s .host st cause res (r.bhrClose .host st cause res).s ∧ BhrClosed r.s (r.bhrClose .host st cause res).s := by
  let q := r.mapBhr (·.freed .host)
  obtain ⟨ho, hwords⟩ := mbxPut_words q hres
  have heq : r.bhrClose .host st cause res = (((q.mbxPut res).mapBhr fun b => { b with cmd := 0 }).wr Reg.bhrCmd
      (st.code <<< 24 + cause <<< 16)).flag Reg.bhrEvstat 13 := rfl
  rw [heq]
  have hbox : BhrFrame mbxRegs r.s ((q.mbxPut res).mapBhr fun b => { b with cmd := 0 }).s :=
    (((BhrFrame.mapBhr r _).append (.of_onlyRegs ho)).append (.mapBhr _ _)).mono (by simp)
  have hwords' : ∀ k, k < (res.length + 3) / 4 → (((q.mbxPut res).mapBhr fun b => { b with cmd := 0 }).s.rget (Reg.bhrMbx k)).toNat =
      recNat res (4 * k) 4 := hwords
  have hbhr : ((q.mbxPut res).mapBhr fun b => { b with cmd := 0 }).s.bhr = { q.s.bhr with cmd := 0 } :=
    congrArg (fun b : BhrSt => { b with cmd := 0 }) (by rw [ho.1])
  generalize (q.mbxPut res).mapBhr (fun b => { b with cmd := 0 }) = t at hbox hwords' hbhr
  have hcmd : BhrFrame [Reg.bhrCmd] t.s (t.wr Reg.bhrCmd (st.code <<< 24 + cause <<< 16)).s := .wr ..
  have hval : ((t.wr Reg.bhrCmd (st.code <<< 24 + cause <<< 16)).s.rget Reg.bhrCmd).toNat = st.code * 2 ^ 24 + cause * 2 ^ 16 := by
    rw [wr_s, rget_reg_same, bhrCmd_value hst hc]
  have hbhr' : (t.wr Reg.bhrCmd (st.code <<< 24 + cause <<< 16)).s.bhr = { q.s.bhr with cmd := 0 } := (wr_bhr ..).trans hbhr
  generalize t.wr Reg.bhrCmd (st.code <<< 24 + cause <<< 16) = t' at hcmd hval hbhr'
  have hflag : BhrFrame [Reg.bhrEvstat] t'.s (t'.flag Reg.bhrEvstat 13).s := .flag ..
  have hbhr'' : (t'.flag Reg.bhrEvstat 13).s.bhr = { q.s.bhr with cmd := 0 } := (flag_bhr ..).trans hbhr'
  have hset : (t'.flag Reg.bhrEvstat 13).s.rb Reg.bhrEvstat 13 = true := flag_rb t' (by decide) (bhr_masks.1 13 (by decide))
  have hflags := flagsKept_flag t' (j := 13) (by decide)
  generalize t'.flag Reg.bhrEvstat 13 = u at hflag hbhr'' hset hflags
  have hev : Reg.bhrEvstat ∉ mbxRegs ++ [Reg.bhrCmd] := List.not_mem_append (mbx_not_mem (by decide)) (by decide)
  have hframe := (hbox.append hcmd).append hflag
  refine ⟨⟨hframe.memKept, hframe.sp, ?_, hset, by rw [hbhr''], fun k hk => ?_⟩, ?_, ?_, (flagsKept_frame (hbox.append hcmd) hev).trans hflags⟩
  · rw [hflag.regs _ (by decide), hval]
  · have hne : Reg.bhrMbx k ∉ [Reg.bhrCmd] ∧ Reg.bhrMbx k ∉ [Reg.bhrEvstat] := by
      simp only [List.mem_singleton, Reg.bhrMbx, Reg.bhrCmd, Reg.bhrEvstat]
      omega
    rw [hflag.regs _ hne.2, hcmd.regs _ hne.1, hwords' k hk]
  · exact hframe.regs.mono (by simp [bhrBox])
  · rw [hbhr'']; rfl

/-- What is known of the state in which an operation or host command has ended: `s` before it, `q` before its end. -/
structure BhrEnds (l : List Nat) (s : State) (w : BhrWho) (st : Status) (cause : Nat) (res : List Byte) (q u : State) : Prop where
  ended : bhrEnded s w st cause res u
  regs : RegsKept s u (l ++ Reg.bhrEvstat :: bhrBox)
  closed : BhrClosed q u

/-- The end behind a part that leaves the processors. -/
theorem bhrClose_ends {l : List Nat} {s : State} (q : Run s₀) (hq : BhrFrame l s q.s) (hw : BhrAsked s w) (hst : st.code < 256)
    (hc : cause < 256) (hres : res.length ≤ 4096) : BhrEnds l s w st cause res q.s (q.bhrClose w st cause res).s := by
  cases w with
  | host =>
    obtain ⟨⟨hmem, hsp, hrest⟩, hclosed⟩ := bhrClose_host q hst hc hres
    exact ⟨⟨hq.memKept.trans hmem, hsp.trans hq.sp, hrest⟩, (hq.regs.mono (by simp)).trans (hclosed.regs.mono (by simp)), hclosed⟩
  | op i =>
    obtain ⟨o, ho, hid, hout⟩ := hw
    obtain ⟨⟨hmem, -, hops⟩, hend, hclosed⟩ := bhrClose_op q (st := st) (cause := cause) (res := res) ((hq.op i).trans ho) hid hout
    exact ⟨⟨hq.memKept.trans hmem, o, ho, hend, fun j hj => (hops j hj).trans (hq.op j)⟩,
      (hq.regs.mono (by simp)).trans (hclosed.regs.mono (by simp)), hclosed⟩

theorem Status.code_lt (st : Status) : st.code < 256 := by cases st <;> decide

/-- A flag before the end. -/
theorem BhrClosed.after_flag {q : Run s₀} {i : Nat} {u : State} (hi : i < 14) (h : BhrClosed (q.flag Reg.bhrEvstat i).s u) :
    BhrClosed q.s u :=
  ⟨((flag_onlyRegs q Reg.bhrEvstat i).regsKept.mono (by simp)).trans h.regs, by rw [h.bhr, flag_bhr], (flagsKept_flag q hi).trans h.flags⟩

/-- The end of an operation or command. -/
theorem bhrFin_ends {l : List Nat} {s : State} (q : Run s₀) (hq : BhrFrame l s q.s) (hw : BhrAsked s w) (hc : cause < 256)
    (hres : res.length ≤ 4096) : BhrEnds l s w st cause res q.s (q.bhrFin w st cause res).s := by
  rw [bhrFin_eq]
  rcases bhrRefused_cases q w st with h | h <;> rw [h]
  · exact bhrClose_ends q hq hw st.code_lt hc hres
  · have hflag := hq.append (.flag q Reg.bhrEvstat 12)
    obtain ⟨hend, hregs, hclosed⟩ := bhrClose_ends (st := st) _ hflag hw st.code_lt hc hres
    exact ⟨hend, hregs.mono (by simp), hclosed.after_flag (by decide)⟩

/-- A refusal, but for the DENIED of AUTH, raises its flag. -/
theorem bhrFin_refusal (q : Run s₀) (hw : BhrAsked q.s w) (hr : st.isRefusal = true) (hd : st ≠ .denied)
    (hc : cause < 256) (hres : res.length ≤ 4096) : (q.bhrFin w st cause res).s.rb Reg.bhrEvstat 12 = true := by
  rw [bhrFin_eq, bhrRefused_flags q hr hd hw]
  have hflag := BhrFrame.flag q Reg.bhrEvstat 12
  exact (bhrClose_ends _ hflag hw st.code_lt hc hres).closed.flags 12 (by decide) (flag_rb q (by decide) (bhr_masks.1 12 (by decide)))

end Sys2Proof.Machine
end

section
/-!
PROOFS. The commands of the BHR unit, by operation or by the host: how they are taken, and their ends (O58).
-/
namespace Sys2Proof.Machine

variable {s : State} {id : Option Nat} {w : BhrWho} {d : List Byte} {c : Instr} {code : Nat} {st : Status} {cause : Nat}
  {res : List Byte} {l : List Nat}

/-! ## How a command is taken (R608) -/

/-- An operation of the unit, or the host, asks for a code with its data. -/
def BhrAsks (s : State) (id : Option Nat) (w : BhrWho) (d : List Byte) (code : Nat) : Prop :=
  (∃ o : Op, OpMay s o 12 code ∧ id = some o.id ∧ w = .op o.id ∧ d = o.payload) ∨
  (id = none ∧ w = .host ∧ s.bhr.cmd = code ∧ s.bhr.running ≠ some .host ∧ d = s.mbx)

theorem BhrAsks.asked (h : BhrAsks s id w d code) : BhrAsked s w := by
  rcases h with ⟨o, ⟨ho, -, -, hready⟩, -, rfl, -⟩ | ⟨-, rfl, -⟩
  · simp only [State.opReady, Op.isDue, Bool.and_eq_true, Option.isNone_iff_eq_none] at hready
    exact ⟨o, ho, rfl, hready.1.1.2⟩
  · trivial

theorem bhrRow_op {s₀ : State} (r : Run s₀) (i code : Nat) (act : Run s₀ → BhrWho → List Byte → Run s₀) :
    r.bhrRow (some i) code act = r.opRow i 12 code fun q o =>
      if r.s.bhr.running.isSome && decide (3 < code) then q.bhrFin (.op i) .busy 0 [] else act q (.op i) o.payload := rfl

theorem bhrRow_host {s₀ : State} (r : Run s₀) (code : Nat) (act : Run s₀ → BhrWho → List Byte → Run s₀) :
    r.bhrRow none code act = if r.s.bhr.cmd ≠ code then r else if r.s.bhr.running = some .host then r
      else if r.s.bhr.running.isSome && decide (3 < code) then r.bhrFin .host .busy 0 [] else act r .host r.s.mbx := rfl

theorem bhrRow_runs (h : BhrAsks s id w d code) (hb : code ≤ 3 ∨ s.bhr.running = none)
    (act : Run s → BhrWho → List Byte → Run s) : (Run.start s).bhrRow id code act = act (Run.start s) w d := by
  have hbusy : (s.bhr.running.isSome && decide (3 < code)) = false := by
    rcases hb with hb | hb
    · simp [hb]
    · simp [hb]
  rcases h with ⟨o, hmay, rfl, rfl, rfl⟩ | ⟨rfl, rfl, hcmd, hrun, hd⟩
  · rw [bhrRow_op, opRow_may (Run.start s) _ hmay]
    exact if_neg (Bool.eq_false_iff.1 hbusy)
  · rw [bhrRow_host, start_s, if_neg (not_not.2 hcmd), if_neg hrun, hbusy, if_neg Bool.false_ne_true, hd]

theorem bhrRow_busy (h : BhrAsks s id w d code) (hcode : 3 < code) (hb : s.bhr.running ≠ none)
    (act : Run s → BhrWho → List Byte → Run s) : (Run.start s).bhrRow id code act = (Run.start s).bhrFin w .busy 0 [] := by
  have hbusy : (s.bhr.running.isSome && decide (3 < code)) = true := by simp [hcode, Option.isSome_iff_ne_none, hb]
  rcases h with ⟨o, hmay, rfl, rfl, rfl⟩ | ⟨rfl, rfl, hcmd, hrun, hd⟩
  · rw [bhrRow_op, opRow_may (Run.start s) _ hmay]
    exact if_pos hbusy
  · rw [bhrRow_host, start_s, if_neg (not_not.2 hcmd), if_neg hrun, hbusy, if_pos rfl]

/-! ## The ends -/

/-- The end of a command whose parts keep memory and the processors. -/
theorem answers_bhrFin (q : Run s) (hex : exec c s = (q.bhrFin w st cause res).done) (hq : BhrFrame l s q.s) (hw : BhrAsked s w)
    (hc : cause < 256) (hres : res.length ≤ 4096) : Answers c s (BhrEnds l s w st cause res q.s) :=
  Run.answers _ hex (bhrFin_ends q hq hw hc hres)

/-- A refusal that leaves Bharal's stores. -/
def bhrRefusal (s : State) (w : BhrWho) (st : Status) (cause : Nat) (u : State) : Prop :=
  bhrEnded s w st cause [] u ∧ u.rb Reg.bhrEvstat 12 = true ∧ RegsKept s u (Reg.bhrEvstat :: bhrBox) ∧ u.bhr.cal = s.bhr.cal ∧
    u.bhr.flash = s.bhr.flash ∧ u.bhr.otpSv = s.bhr.otpSv ∧ u.bhr.keys = s.bhr.keys

/-- An end EMPTY that leaves the flash. -/
def bhrQuiet (s : State) (w : BhrWho) (cause : Nat) (u : State) : Prop :=
  bhrEnded s w .empty cause [] u ∧ RegsKept s u (Reg.bhrEvstat :: bhrBox) ∧ u.bhr.flash = s.bhr.flash

/-- An end OK with results, which changes registers of a list besides. -/
def bhrGood (s : State) (w : BhrWho) (l : List Nat) (res : List Byte) (u : State) : Prop :=
  bhrEnded s w .ok 0 res u ∧ RegsKept s u (l ++ Reg.bhrEvstat :: bhrBox)

theorem answers_refusal (hw : BhrAsked s w) (hex : exec c s = ((Run.start s).bhrFin w st cause []).done)
    (hr : st.isRefusal = true) (hd : st ≠ .denied) (hc : cause < 256) : Answers c s (bhrRefusal s w st cause) := by
  have hfin := bhrFin_ends (st := st) (cause := cause) (res := []) (Run.start s) (.refl [] s) hw hc (Nat.zero_le _)
  have hflag := bhrFin_refusal (cause := cause) (res := []) (Run.start s) hw hr hd hc (Nat.zero_le _)
  refine Run.answers _ hex ?_
  generalize (Run.start s).bhrFin w st cause [] = u at hfin hflag
  obtain ⟨hend, hregs, hclosed⟩ := hfin
  exact ⟨hend, hflag, hregs, hclosed.get BhrSt.cal fun _ _ _ => rfl, hclosed.get BhrSt.flash fun _ _ _ => rfl,
    hclosed.get BhrSt.otpSv fun _ _ _ => rfl, hclosed.get BhrSt.keys fun _ _ _ => rfl⟩

theorem answers_quiet (hw : BhrAsked s w) (hex : exec c s = ((Run.start s).bhrFin w .empty 0 []).done) :
    Answers c s (bhrQuiet s w 0) := by
  refine (answers_bhrFin (Run.start s) hex (.refl [] s) hw (by decide) (Nat.zero_le _)).imp ?_
  rintro u ⟨hend, hregs, hclosed⟩
  exact ⟨hend, hregs, hclosed.get BhrSt.flash fun _ _ _ => rfl⟩

theorem BhrEnds.good {q u : State} (h : BhrEnds l s w .ok 0 res q u) : bhrGood s w l res u := ⟨h.ended, h.regs⟩

/-- An end OK that changes nothing else. -/
theorem answers_good (hw : BhrAsked s w) (hex : exec c s = ((Run.start s).bhrFin w .ok 0 res).done) (hres : res.length ≤ 4096) :
    Answers c s (bhrGood s w [] res) :=
  (answers_bhrFin (Run.start s) hex (.refl [] s) hw (by decide) hres).imp fun _ h => h.good

/-- A second command while one runs (R608). -/
theorem bhr_busy {act : Run s → BhrWho → List Byte → Run s} (hex : exec c s = ((Run.start s).bhrRow id code act).done)
    (h : BhrAsks s id w d code) (hcode : 3 < code) (hb : s.bhr.running ≠ none) : Answers c s (bhrRefusal s w .busy 0) :=
  answers_refusal h.asked (hex.trans (congrArg Run.done (bhrRow_busy h hcode hb act))) (by decide) (by decide) (by decide)

/-- A command of code 1 to 3 runs at once. -/
theorem exec_bhr_asks {act : Run s → BhrWho → List Byte → Run s} (hex : exec c s = ((Run.start s).bhrRow id code act).done)
    (h : BhrAsks s id w d code) (hcode : code ≤ 3) : exec c s = (act (Run.start s) w d).done :=
  hex.trans (congrArg Run.done (bhrRow_runs h (.inl hcode) act))

/-- Another command runs when none runs. -/
theorem exec_bhr_starts {act : Run s → BhrWho → List Byte → Run s} (hex : exec c s = ((Run.start s).bhrRow id code act).done)
    (h : BhrAsks s id w d code ∧ s.bhr.running = none) : exec c s = (act (Run.start s) w d).done :=
  hex.trans (congrArg Run.done (bhrRow_runs h.1 (.inr h.2) act))

/-! ## Records of bytes -/

/-- A field that lies in the first part of a record. -/
theorem recNat_append_left {l m : List Byte} {off n : Nat} (h : off + n ≤ l.length) : recNat (l ++ m) off n = recNat l off n := by
  rw [recNat, recNat, List.drop_append_of_le_length (by omega), List.take_append_of_le_length (by rw [List.length_drop]; omega)]

theorem padTo_length (n : Nat) (d : List Byte) : (padTo n d).length = n := by
  simp only [padTo, List.length_append, List.length_take, List.length_replicate]
  omega

theorem padTo_of_le {n : Nat} {d : List Byte} (h : d.length ≤ n) : padTo n d = d ++ List.replicate (n - d.length) 0 := by
  rw [padTo, List.take_of_length_le h]

theorem recNat_padTo_words {ws : List Nat} {n i : Nat} (hn : 4 * ws.length ≤ n) (h : i < ws.length) :
    recNat (padTo n (wordsLE ws)) (4 * i) 4 = ws[i] % 2 ^ 32 := by
  rw [padTo_of_le (by rw [wordsLE_length]; exact hn), recNat_append_left (by rw [wordsLE_length]; omega), recNat_wordsLE h]

/-! ## STATUS, SENSORS, LOGREAD -/

theorem slotVersions_length (s : State) (b : Nat) : (s.slotVersions b).length ≤ 4 := by
  unfold State.slotVersions
  dsimp only
  split <;> simp

/-- The words of STATUS. -/
def statusWords (s : State) : List Nat :=
  [(s.rget Reg.bhrStat).toNat, (s.rget Reg.bhrBoot).toNat,
    s.bhr.otpSv + ((List.range 8).map fun k => b2n (!keyEmpty (s.keySlot k)) <<< (8 + k)).sum, s.slotSeq 0, s.slotSeq 1]
    ++ (if s.fawn then [] else s.slotVersions s.bootSlot)

theorem statusWords_length (s : State) : 5 ≤ (statusWords s).length ∧ (statusWords s).length ≤ 9 := by
  have hv : (if s.fawn then [] else s.slotVersions s.bootSlot).length ≤ 4 := by
    split
    · exact Nat.zero_le 4
    · exact slotVersions_length ..
  rw [statusWords, List.length_append]
  simp only [List.length_cons, List.length_nil]
  omega

theorem bhrStatus_answers (h : BhrAsks s id w d 1) : Answers (.bhrStatus id) s fun u => ∃ r : List Byte, r.length = 64 ∧
    bhrGood s w [] r u ∧ recNat r 0 4 = (s.rget Reg.bhrStat).toNat ∧ recNat r 4 4 = (s.rget Reg.bhrBoot).toNat ∧
    recNat r 12 4 = s.slotSeq 0 % 2 ^ 32 ∧ recNat r 16 4 = s.slotSeq 1 % 2 ^ 32 := by
  have hex : exec (.bhrStatus id) s = ((Run.start s).bhrFin w .ok 0 (padTo 64 (wordsLE (statusWords s)))).done :=
    exec_bhr_asks (act := Run.actBhrStatus) rfl h (by decide)
  obtain ⟨h5, h9⟩ := statusWords_length s
  have hword (i : Nat) (hi : i < (statusWords s).length) := recNat_padTo_words (n := 64) (by omega) hi
  refine (answers_good h.asked hex (by rw [padTo_length]; decide)).imp fun u hu => ⟨_, padTo_length .., hu, ?_, ?_, ?_, ?_⟩
  · exact (hword 0 (by omega)).trans (Nat.mod_eq_of_lt (s.rget Reg.bhrStat).isLt)
  · exact (hword 1 (by omega)).trans (Nat.mod_eq_of_lt (s.rget Reg.bhrBoot).isLt)
  · exact hword 3 (by omega)
  · exact hword 4 (by omega)

/-- The registers of SENSORS. -/
def sensorRegs : List Nat :=
  (List.range 8).map Reg.bhrTemp ++ (List.range 12).map Reg.bhrVolt ++ (List.range 6).map Reg.bhrClk ++ [Reg.bhrSensstat]

theorem bhrSensors_answers (h : BhrAsks s id w d 2) :
    Answers (.bhrSensors id) s (bhrGood s w [] (wordsLE (sensorRegs.map fun a => (s.rget a).toNat))) := by
  have hex : exec (.bhrSensors id) s = ((Run.start s).bhrFin w .ok 0 (wordsLE (sensorRegs.map fun a => (s.rget a).toNat))).done :=
    exec_bhr_asks (act := Run.actBhrSensors) rfl h (by decide)
  exact answers_good h.asked hex (by simp [sensorRegs])

theorem crcR_bound {poly : Nat} (hp : poly < 2 ^ 32) (n : Nat) {c : Nat} (hc : c < 2 ^ 32) : crcR poly n c < 2 ^ 32 := by
  induction n generalizing c with
  | zero => exact hc
  | succ n ih =>
    have hhalf : c / 2 < 2 ^ 32 := (Nat.div_le_self c 2).trans_lt hc
    refine ih ?_
    split
    · exact Nat.xor_lt_two_pow hhalf hp
    · exact hhalf

/-- A CRC has 32 bits (R509). -/
theorem crc32c_bound {seed : Nat} (hs : seed < 2 ^ 32) (d : List Byte) : crc32c seed d < 2 ^ 32 := by
  refine Nat.xor_lt_two_pow ?_ (by decide)
  rw [crcRight]
  induction d generalizing seed with
  | nil => exact hs
  | cons b d ih => exact ih (crcR_bound (by decide) 8 (Nat.xor_lt_two_pow hs (b.isLt.trans (by decide))))

/-- The bytes of a record: 56 of data, their CRC and the mark (R582). -/
theorem logRec_bytes (x : LogRec) (n : Nat) : ∃ t : List Byte, x.bytes n = (bytesLE 4 n ++ t) ++
    (bytesLE 4 (crc32c 0xFFFFFFFF (bytesLE 4 n ++ t)) ++ bytesLE 4 0x56414C44) ∧ t.length = 52 := by
  refine ⟨bytesLE 4 x.opS ++ (bytesLE 4 x.pcyc ++ (bytesLE 8 x.ts ++ (bytesLE 2 x.kind ++ (bytesLE 1 x.sev ++ (bytesLE 1 x.node ++
    padTo 32 (wordsLE x.data)))))), ?_, ?_⟩
  · simp only [LogRec.bytes, List.append_assoc]
  · simp only [List.length_append, bytesLE_length, padTo_length]

theorem logRec_layout (x : LogRec) (n : Nat) : (x.bytes n).length = 64 ∧ recNat (x.bytes n) 0 4 = n % 2 ^ 32 ∧
    recNat (x.bytes n) 56 4 = crc32c 0xFFFFFFFF ((x.bytes n).take 56) ∧ recNat (x.bytes n) 60 4 = 0x56414C44 := by
  obtain ⟨t, heq, ht⟩ := logRec_bytes x n
  have hlen : (bytesLE 4 n ++ t).length = 56 := by rw [List.length_append, bytesLE_length, ht]
  have hcrc := crc32c_bound (seed := 0xFFFFFFFF) (by decide) (bytesLE 4 n ++ t)
  rw [heq, List.take_left' hlen, show 56 = 56 + 0 from rfl, recNat_append hlen, recNat_bytesLE, show 60 = 56 + (4 + 0) from rfl,
    recNat_append hlen, recNat_append (bytesLE_length ..), recNat_append_left (by rw [hlen]; decide), recNat_bytesLE]
  refine ⟨?_, rfl, Nat.mod_eq_of_lt hcrc, rfl⟩
  simp only [List.length_append, bytesLE_length, ht]

/-- The records of LOGREAD from a number on. -/
def logRead (s : State) (first n : Nat) : List Byte :=
  (List.range n).flatMap fun i => match (tget none (first + i) s.bhr.recs : Option LogRec) with
    | some x => x.bytes (first + i)
    | none => []

theorem logRead_length (s : State) (first n : Nat) : (logRead s first n).length ≤ 64 * n := by
  induction n with
  | zero => exact Nat.le_refl 0
  | succ n ih =>
    rw [logRead] at ih ⊢
    rw [List.range_succ, List.flatMap_append, List.length_append, List.flatMap_singleton]
    split
    · rw [(logRec_layout ..).1]; omega
    · rw [List.length_nil]; omega

theorem bhrLogread_answers (h : BhrAsks s id w d 3) :
    (64 < recNat d 4 2 → Answers (.bhrLogread id) s (bhrRefusal s w .cfgerr 0x10)) ∧
    (recNat d 4 2 = 0 → Answers (.bhrLogread id) s (bhrQuiet s w 0)) ∧
    (0 < recNat d 4 2 → recNat d 4 2 ≤ 64 → Answers (.bhrLogread id) s
      (bhrGood s w [] (logRead s (recNat d 0 4) (recNat d 4 2)))) := by
  have hex := exec_bhr_asks (c := .bhrLogread id) (act := Run.actLogread) rfl h (by decide)
  refine ⟨fun hn => ?_, fun hn => ?_, fun h0 h64 => ?_⟩
  · exact answers_refusal h.asked (hex.trans (congrArg Run.done (if_pos hn))) (by decide) (by decide) (by decide)
  · exact answers_quiet h.asked (hex.trans (congrArg Run.done ((if_neg (by omega)).trans (if_pos hn))))
  · exact answers_good h.asked (hex.trans (congrArg Run.done ((if_neg (by omega)).trans (if_neg (by omega)))))
      ((logRead_length ..).trans (by omega))

end Sys2Proof.Machine
end

section
/-!
PROOFS. The commands of the BHR unit that change Bharal's stores or the node state (O58).
-/
namespace Sys2Proof.Machine

variable {s : State} {id : Option Nat} {w : BhrWho} {d : List Byte}

/-- A command has been taken while none ran. -/
def BhrStarts (s : State) (id : Option Nat) (w : BhrWho) (d : List Byte) (code : Nat) : Prop :=
  BhrAsks s id w d code ∧ s.bhr.running = none

/-! ## LOGWRITE -/

section
variable {s₀ : State} (r : Run s₀)

/-- With room in the queue a record is queued. -/
theorem log_room (h : r.s.bhr.logQ.length < 64) (kind sev : Nat) (data : List Nat) : ∃ x : LogRec,
    r.log kind sev data = r.mapBhr (fun b => { b with logQ := b.logQ ++ [x] }) ∧ x.kind = kind ∧ x.sev = sev ∧ x.data = data := by
  rw [Run.log]
  exact ⟨_, if_neg (not_le.2 h), rfl, rfl, rfl⟩

/-- The record of a requester is queued with its requester. -/
theorem logFor_room (h : r.s.bhr.logQ.length < 64) (kind : Nat) (data : List Nat) (who : BhrWho) : ∃ x : LogRec,
    BhrFrame [] r.s (r.logFor kind data who).s ∧
      (r.logFor kind data who).s.bhr = { r.s.bhr with logQ := r.s.bhr.logQ ++ [x] } ∧
      x.kind = kind ∧ x.sev = 0 ∧ x.who = some who ∧ x.data = data := by
  obtain ⟨x, heq, hkind, hsev, hdata⟩ := log_room r h kind 0 data
  refine ⟨{ x with who := some who }, ?_, ?_, hkind, hsev, rfl, hdata⟩
  · rw [Run.logFor, heq]
    exact (BhrFrame.mapBhr r _).trans (.mapBhr _ _)
  · rw [Run.logFor, heq]
    refine congrArg (fun q => { r.s.bhr with logQ := q }) ?_
    have hrev : (r.s.bhr.logQ ++ [x]).reverse = x :: r.s.bhr.logQ.reverse := List.reverse_concat ..
    change (match (r.s.bhr.logQ ++ [x]).reverse with
      | [] => []
      | x :: t => (({ x with who := some who } : LogRec) :: t).reverse) = _
    rw [hrev]
    simp

end

/-- The data values of LOGWRITE. -/
def logwriteData (d : List Byte) : List Nat := (List.range 8).map fun i => recNat d (8 + 4 * i) 4

/-- LOGWRITE has queued its record and runs until that is written. -/
def logQueued (s : State) (w : BhrWho) (d : List Byte) (u : State) : Prop :=
  (RegsKept s u [] ∧ MemKept s u) ∧ u.bhr.running = some w ∧ ∃ x : LogRec, u.bhr.logQ = s.bhr.logQ ++ [x] ∧
    x.kind = recNat d 0 2 ∧ x.sev = 0 ∧ x.who = some w ∧ x.data = logwriteData d

/-- The operation of LOGWRITE has its effect; a host command has none to mark. -/
def Run.whoAct {s₀ : State} (r : Run s₀) (w : BhrWho) : Run s₀ :=
  match w with
  | .op id => match r.s.op id with | some o => r.opAct o | none => r
  | .host => r

theorem whoAct_kept {s₀ : State} (r : Run s₀) (w : BhrWho) : RegsKept r.s (r.whoAct w).s [] ∧ MemKept r.s (r.whoAct w).s ∧
    (r.whoAct w).s.bhr = r.s.bhr := by
  have hself : RegsKept r.s r.s [] ∧ MemKept r.s r.s ∧ r.s.bhr = r.s.bhr := ⟨.refl _ _, .refl _, rfl⟩
  cases w with
  | host => exact hself
  | op i =>
    rw [Run.whoAct]
    split
    · exact ⟨fun _ _ => rfl, fun _ => rfl, rfl⟩
    · exact hself

theorem bhrLogwrite_answers (h : BhrStarts s id w d 4) :
    ((recNat d 0 2 < 0x100 ∨ 0x1FF < recNat d 0 2) → Answers (.bhrLogwrite id) s (bhrRefusal s w .cfgerr 0)) ∧
    (0x100 ≤ recNat d 0 2 → recNat d 0 2 ≤ 0x1FF → 64 ≤ s.bhr.logQ.length → Answers (.bhrLogwrite id) s (bhrRefusal s w .overload 0)) ∧
    (0x100 ≤ recNat d 0 2 → recNat d 0 2 ≤ 0x1FF → s.bhr.logQ.length < 64 → Answers (.bhrLogwrite id) s (logQueued s w d)) := by
  have hex := exec_bhr_starts (c := .bhrLogwrite id) (act := Run.actLogwrite) rfl h
  refine ⟨fun hbad => ?_, fun hlo hhi hfull => ?_, fun hlo hhi hroom => ?_⟩
  · exact answers_refusal h.1.asked (hex.trans (congrArg Run.done (if_pos hbad))) (by decide) (by decide) (by decide)
  · exact answers_refusal h.1.asked (hex.trans (congrArg Run.done ((if_neg (by omega)).trans (if_pos hfull))))
      (by decide) (by decide) (by decide)
  · let q := (Run.start s).mapBhr fun b => { b with running := some w }
    obtain ⟨x, hframe, hbhr, hkind, hsev, hwho, hdata⟩ := logFor_room q hroom (recNat d 0 2) (logwriteData d) w
    have hact : exec (.bhrLogwrite id) s = ((q.logFor (recNat d 0 2) (logwriteData d) w).whoAct w).done :=
      hex.trans (congrArg Run.done ((if_neg (by omega)).trans (if_neg (not_le.2 hroom))))
    obtain ⟨hregs, hmem, hb⟩ := whoAct_kept (q.logFor (recNat d 0 2) (logwriteData d) w) w
    refine Run.answers _ hact ⟨⟨hframe.regs.trans hregs, hframe.memKept.trans hmem⟩, ?_, x, ?_, hkind, hsev, hwho, hdata⟩
    · rw [hb, hbhr]; rfl
    · rw [hb, hbhr]; rfl

/-- A register below the mailbox that is not of the end of a command. -/
theorem not_mem_box {a : Nat} (h : a ∉ [Reg.bhrEvstat, Reg.bhrCmd]) (hlt : a < Reg.bhrMbx 0) : a ∉ Reg.bhrEvstat :: bhrBox := by
  simp only [List.mem_cons, List.not_mem_nil, or_false, not_or] at h
  exact List.not_mem_cons_of_ne_of_not_mem h.1 (List.not_mem_cons_of_ne_of_not_mem h.2 (mbx_not_mem hlt))

/-- A register that is not of the end of a command reads as before it. -/
theorem BhrClosed.rget {q u : State} (h : BhrClosed q u) {a : Nat} (ha : a ∉ [Reg.bhrEvstat, Reg.bhrCmd]) (hlt : a < Reg.bhrMbx 0) :
    u.rget a = q.rget a := h.regs a (not_mem_box ha hlt)

theorem BhrClosed.node {q u : State} (h : BhrClosed q u) : u.node = q.node := by
  rw [State.node, State.rf, h.rget (by decide) (by decide), State.node, State.rf]

/-! ## CHALLENGE and AUTH (R605 to R607) -/

theorem bhrChallenge_answers (h : BhrStarts s id w d 5) : Answers (.bhrChallenge id) s fun u =>
    bhrGood s w [] (bytesLE 16 s.freeVal ++ s.uidBytes) u ∧ u.bhr.nonce = some (bytesLE 16 s.freeVal, s.cyc + 600 * 800000000) := by
  let q := (Run.start s).drawn.mapBhr fun b => { b with nonce := some (bytesLE 16 s.freeVal, s.cyc + 600 * 800000000) }
  have hex : exec (.bhrChallenge id) s = (q.bhrFin w .ok 0 (bytesLE 16 s.freeVal ++ s.uidBytes)).done :=
    exec_bhr_starts (act := Run.actChallenge) rfl h
  have hlen : (bytesLE 16 s.freeVal ++ s.uidBytes).length ≤ 4096 := by
    rw [List.length_append, State.uidBytes, bytesLE_length, bytesLE_length]; decide
  refine (answers_bhrFin q hex ⟨rfl, rfl, rfl, rfl, .refl s []⟩ h.1.asked (by decide) hlen).imp fun u hu => ⟨hu.good, ?_⟩
  exact (hu.closed.get BhrSt.nonce fun _ _ _ => rfl)

section
variable {s₀ : State} (r : Run s₀)

/-- AUTH notes its outcome: the nonce is consumed, a failure counted, the outcome recorded. -/
def Run.authNoted (r : Run s₀) (d : List Byte) : Run s₀ :=
  let (st, _) := r.s.authOutcome d
  let q := r.mapBhr fun b => { b with
    nonce := none
    fails := if st = .ok then b.fails else (r.s.cyc :: b.fails).take 5 }
  let q := q.log 0x000A (if st = .ok then 0 else 1) [recNat d 4 1, st.code, recNat d 5 1]
  q.when (st == .denied) fun q => q.flag Reg.bhrEvstat 9

/-- A successful AUTH carries its action out: the records are erased, or the level is set. -/
def Run.authActs (r : Run s₀) (d : List Byte) : Run s₀ :=
  if recNat d 4 1 = 1 then
    let n := (r.s.bhr.recs.filter fun e => decide (1024 ≤ e.1)).length
    let q := r.mapBhr fun b => { b with recs := b.recs.filter fun e => decide (e.1 < 1024) }
    (q.flag Reg.bhrEvstat 11).log 0x0009 0 [n, recNat d 5 1]
  else (r.wf Reg.bhrStat 26 25 (recNat d 6 1)).flag Reg.bhrEvstat 10

theorem actAuth_eq (w : BhrWho) (d : List Byte) : r.actAuth w d =
    (if (r.s.authOutcome d).1 ≠ .ok then r.authNoted d else (r.authNoted d).authActs d).bhrFin w (r.s.authOutcome d).1
      (r.s.authOutcome d).2 [] := rfl

theorem authNoted_noted (d : List Byte) :
    BhrFrame [Reg.bhrLogLost, Reg.bhrEvstat] r.s (r.authNoted d).s ∧ (r.authNoted d).s.bhr.nonce = none ∧
      (r.authNoted d).s.bhr.fails = (if (r.s.authOutcome d).1 = .ok then r.s.bhr.fails else (r.s.cyc :: r.s.bhr.fails).take 5) ∧
      ((r.s.authOutcome d).1 = .denied → (r.authNoted d).s.rb Reg.bhrEvstat 9 = true) := by
  rcases hout : r.s.authOutcome d with ⟨st, cause⟩
  let q := r.mapBhr fun b => { b with
    nonce := none
    fails := if st = .ok then b.fails else (r.s.cyc :: b.fails).take 5 }
  let t := q.log 0x000A (if st = .ok then 0 else 1) [recNat d 4 1, st.code, recNat d 5 1]
  have heq : r.authNoted d = t.when (st == .denied) fun q => q.flag Reg.bhrEvstat 9 := by rw [Run.authNoted, hout]
  have hnonce : t.s.bhr.nonce = none := log_get q BhrSt.nonce (fun _ _ _ => rfl) ..
  have hfails : t.s.bhr.fails = (if st = .ok then r.s.bhr.fails else (r.s.cyc :: r.s.bhr.fails).take 5) :=
    log_get q BhrSt.fails (fun _ _ _ => rfl) ..
  have ht : BhrFrame [Reg.bhrLogLost, Reg.bhrEvstat] r.s t.s :=
    ((BhrFrame.mapBhr r _).append (log_frame q _ _ _)).mono (by simp)
  rw [heq]
  by_cases hd : st = .denied
  · rw [hd, beq_self_eq_true, when_true]
    refine ⟨ht.trans ((BhrFrame.flag t _ _).mono (by simp)), hnonce, ?_, fun _ => ?_⟩
    · rw [← hd]
      exact hfails
    · exact flag_rb t (by decide) (bhr_masks.1 9 (by decide))
  · rw [beq_eq_false_iff_ne.2 hd, when_false]
    exact ⟨ht, hnonce, hfails, fun h => absurd h hd⟩

theorem authActs_acts (d : List Byte) :
    BhrFrame [Reg.bhrStat, Reg.bhrLogLost, Reg.bhrEvstat] r.s (r.authActs d).s ∧ (r.authActs d).s.bhr.nonce = r.s.bhr.nonce ∧
      (recNat d 4 1 = 2 → recNat d 6 1 < 4 → (r.authActs d).s.rf Reg.bhrStat 26 25 = recNat d 6 1 ∧
        (r.authActs d).s.rb Reg.bhrEvstat 10 = true) := by
  rw [Run.authActs]
  split
  · next h1 =>
    refine ⟨(((BhrFrame.mapBhr r _).append (.flag _ _ _)).append (log_frame _ _ _ _)).mono (by simp), ?_, fun h2 => by omega⟩
    rw [log_get _ BhrSt.nonce (fun _ _ _ => rfl), flag_bhr]; rfl
  · refine ⟨((BhrFrame.wf r _ _ _ _).append (.flag _ _ _)).mono (by simp), by rw [flag_bhr, wf_bhr],
      fun _ hlt => ⟨?_, ?_⟩⟩
    · rw [(BhrFrame.flag _ _ _).rf (by decide), wf_rf_same r (by decide) (by decide) _ (fun i h₁ h₂ => bhr_masks.2.1 i (by omega) h₁)]
      exact Nat.mod_eq_of_lt hlt
    · exact flag_rb _ (by decide) (bhr_masks.1 10 (by decide))

end

theorem authOutcome_cause (s : State) (d : List Byte) : (s.authOutcome d).2 < 256 := by
  rw [State.authOutcome]
  repeat' split
  all_goals decide

theorem recNat_take {d : List Byte} {m off n : Nat} (h : off + n ≤ m) : recNat (d.take m) off n = recNat d off n := by
  rw [recNat, recNat, List.drop_take, List.take_take, min_eq_left (by omega)]

/-- The level of a token that is accepted. -/
theorem authOutcome_level (h : (s.authOutcome d).1 = .ok) (h2 : recNat d 4 1 = 2) : recNat d 6 1 < 4 := by
  rw [← recNat_take (d := d) (m := 64) (by decide)] at h2 ⊢
  rw [State.authOutcome] at h
  iterate 7 split at h; · cases h
  split at h
  · cases h
  · next hlvl => omega

theorem bhrAuth_answers (h : BhrStarts s id w d 6) : Answers (.bhrAuth id) s fun u =>
    bhrEnded s w (s.authOutcome d).1 (s.authOutcome d).2 [] u ∧ u.bhr.nonce = none ∧
      ((s.authOutcome d).1 = .denied → u.rb Reg.bhrEvstat 9 = true) ∧
      ((s.authOutcome d).1 ≠ .ok → u.bhr.fails = (s.cyc :: s.bhr.fails).take 5 ∧ u.rf Reg.bhrStat 26 25 = s.rf Reg.bhrStat 26 25) ∧
      ((s.authOutcome d).1 = .ok → recNat d 4 1 = 2 → u.rf Reg.bhrStat 26 25 = recNat d 6 1 ∧ u.rb Reg.bhrEvstat 10 = true) := by
  have hex : exec (.bhrAuth id) s = _ := (exec_bhr_starts (act := Run.actAuth) rfl h).trans (congrArg Run.done (actAuth_eq (Run.start s) w d))
  obtain ⟨hnoted, hnonce, hfails, hdenied⟩ := authNoted_noted (Run.start s) d
  have hstat := not_mem_box (a := Reg.bhrStat) (by decide) (by decide)
  rw [start_s] at *
  by_cases hok : (s.authOutcome d).1 = .ok
  · obtain ⟨hacts, hn, hlevel⟩ := authActs_acts ((Run.start s).authNoted d) d
    rw [if_neg (not_not.2 hok)] at hex
    have hframe := (hnoted.append hacts)
    refine (answers_bhrFin _ hex hframe h.1.asked (authOutcome_cause s d) (Nat.zero_le _)).imp fun u hu =>
      ⟨hu.ended, ?_, fun hd => ?_, fun hno => absurd hok hno, fun _ h2 => ?_⟩
    · exact (hu.closed.get BhrSt.nonce fun _ _ _ => rfl).trans (hn.trans hnonce)
    · rw [hok] at hd; cases hd
    · obtain ⟨hrf, hrb⟩ := hlevel h2 (authOutcome_level hok h2)
      refine ⟨?_, hu.closed.flags 10 (by decide) hrb⟩
      rw [State.rf, hu.closed.regs _ hstat, ← State.rf, hrf]
  · rw [if_pos hok] at hex
    refine (answers_bhrFin _ hex hnoted h.1.asked (authOutcome_cause s d) (Nat.zero_le _)).imp fun u hu =>
      ⟨hu.ended, ?_, fun hd => ?_, fun _ => ⟨?_, ?_⟩, fun h => absurd h hok⟩
    · exact (hu.closed.get BhrSt.nonce fun _ _ _ => rfl).trans hnonce
    · exact hu.closed.flags 9 (by decide) (hdenied hd)
    · rw [if_neg hok] at hfails
      exact (hu.closed.get BhrSt.fails fun _ _ _ => rfl).trans hfails
    · rw [State.rf, hu.closed.regs _ hstat, ← State.rf, hnoted.rf (by decide)]

end Sys2Proof.Machine
end

section
/-!
PROOFS. The node state and what entering START does; the boot flash (O58).
-/
namespace Sys2Proof.Machine

variable {s₀ : State} (r : Run s₀)

/-! ## Changes of the node state (R35, R38) -/

theorem ofCode_code (new : NodeState) : NodeState.ofCode (new.code % 2 ^ (31 + 1 - 29)) = new := by cases new <;> rfl

/-- The code of a node state in BHR_STAT. -/
theorem wf_node (new : NodeState) : (r.wf Reg.bhrStat 31 29 new.code).s.node = new := by
  rw [State.node, wf_rf_same r (by decide) (by decide) _ fun i h₁ h₂ => bhr_masks.2.1 i (by omega) (by omega)]
  exact ofCode_code new

/-- The record and the code of a change. -/
def Run.nodeSet (r : Run s₀) (new : NodeState) (c : NodeCause) : Run s₀ :=
  let old := match c with | .coldReset _ old => old | _ => r.s.node.code
  let data := [old, new.code, c.code] ++ (match c with | .coldReset src _ => [src] | _ => [])
  let r := r.log 0x0001 0 data
  (r.wf Reg.bhrStat 31 29 new.code).up (.motion { r.s.motion with testEn := 0 })

theorem nodeSet_sets (new : NodeState) (c : NodeCause) : BhrFrame [Reg.bhrStat, Reg.bhrLogLost] r.s (r.nodeSet new c).s ∧
    (r.nodeSet new c).s.node = new ∧ (r.nodeSet new c).s.bhr =
      { r.s.bhr with logQ := (r.nodeSet new c).s.bhr.logQ, logLost := (r.nodeSet new c).s.bhr.logLost } := by
  let data := [match c with | .coldReset _ old => old | _ => r.s.node.code, new.code, c.code] ++
    (match c with | .coldReset src _ => [src] | _ => [])
  have hlog : BhrFrame [Reg.bhrLogLost] r.s (r.log 0x0001 0 data).s := log_frame ..
  have hbhr := log_bhr r 0x0001 0 data
  have heq : r.nodeSet new c = ((r.log 0x0001 0 data).wf Reg.bhrStat 31 29 new.code).up (.motion { (r.log 0x0001 0 data).s.motion with testEn := 0 }) := rfl
  rw [heq]
  generalize r.log 0x0001 0 data = q at hlog hbhr
  have hwf := (hlog.append (.wf q Reg.bhrStat 31 29 new.code)).mono (m := [Reg.bhrStat, Reg.bhrLogLost]) (by simp)
  exact ⟨⟨hwf.mem, hwf.sp, hwf.cyc, hwf.chm, hwf.regs⟩, wf_node q new, hbhr⟩

/-- The mark of Fawn lies apart from the code of the node state. -/
theorem nodeSet_fawn (new : NodeState) (c : NodeCause) : (r.nodeSet new c).s.fawn = r.s.fawn := by
  let data := [match c with | .coldReset _ old => old | _ => r.s.node.code, new.code, c.code] ++
    (match c with | .coldReset src _ => [src] | _ => [])
  have hlog : BhrFrame [Reg.bhrLogLost] r.s (r.log 0x0001 0 data).s := log_frame ..
  have heq : (r.nodeSet new c).s.fawn = ((r.log 0x0001 0 data).wf Reg.bhrStat 31 29 new.code).s.fawn := rfl
  rw [heq]
  exact (wf_rb_other _ (by decide) (by decide) _ fun hf => by simp [bhr_masks.2.1 27 (by decide) (by decide)] at hf).trans
    (hlog.rb (by decide) 27)

/-- A change to a state but NORMAL and START. -/
theorem nodeTo_plain {new : NodeState} (hn : new ≠ .normal) (hs : new ≠ .start) (c : NodeCause) : r.nodeTo new c = r.nodeSet new c :=
  (if_neg hs).trans (if_neg hn)

/-! ## START -/

/-- The registers that entering START writes beside those of the change. -/
def startRegs : List Nat := [Reg.bhrLogLost, Reg.bhrCamp, Reg.bhrEvstat, Reg.herdEvstat, Reg.timeStat, Reg.timeEvstat] ++
  (List.range 4).map Reg.herdHpStat

/-- Entering START keeps the node state and Bharal's clock of START. -/
def StartKept (s u : State) : Prop := BhrFrame startRegs s u ∧ u.bhr.startAt = s.bhr.startAt ∧ u.fawn = s.fawn

variable {s t u : State}

theorem StartKept.trans (h : StartKept s t) (g : StartKept t u) : StartKept s u :=
  ⟨h.1.trans g.1, g.2.1.trans h.2.1, g.2.2.trans h.2.2⟩

theorem startKept_frame {l : List Nat} (h : BhrFrame l s u) (hl : l ⊆ startRegs) (hb : u.bhr.startAt = s.bhr.startAt) : StartKept s u :=
  ⟨h.mono hl, hb, (h.mono hl).rb (by decide) 27⟩

theorem campRecord_kept (id role p : Nat) (st : Status) : BhrFrame [Reg.bhrLogLost] r.s (r.campRecord id role p st).s ∧
    (r.campRecord id role p st).s.bhr.startAt = r.s.bhr.startAt :=
  ⟨log_frame .., log_get r BhrSt.startAt (fun _ _ _ => rfl) ..⟩

theorem campLinkDown_kept (p : Nat) : StartKept r.s (r.campLinkDown p).s := by
  fun_cases Run.campLinkDown r p
  next b tx q x hx hp q' =>
    have hq : BhrFrame [Reg.bhrLogLost] r.s (q.up (.bhr { q.s.bhr with rx := none })).s := ⟨rfl, rfl, rfl, rfl, .refl _ _⟩
    obtain ⟨hrec, hb⟩ := campRecord_kept (q.up (.bhr { q.s.bhr with rx := none })) ((b.camp.map (·.id)).getD 0) 1 p .lost
    exact startKept_frame (((hq.trans hrec).append (.wb q' _ _ _)).append (.flag _ _ _)) (by decide)
      (by rw [flag_bhr, wb_bhr]; exact hb)
  all_goals exact startKept_frame (l := []) ⟨rfl, rfl, rfl, rfl, .refl _ _⟩ (List.nil_subset _) rfl

theorem linkTo_kept {p : Nat} (hp : p < 4) (v : Nat) : StartKept r.s (r.linkTo p v).s := by
  have hmem : Reg.herdHpStat p ∈ startRegs := List.mem_append_right _ (List.mem_map_of_mem (List.mem_range.2 hp))
  have hset (q : Run s₀) : StartKept q.s ((q.wf (Reg.herdHpStat p) 31 29 v).flag Reg.herdEvstat p).s :=
    startKept_frame ((BhrFrame.wf q _ _ _ _).append (.flag _ _ _))
      (List.append_subset.2 ⟨List.cons_subset.2 ⟨hmem, List.nil_subset _⟩, List.cons_subset.2 ⟨by decide, List.nil_subset _⟩⟩)
      (by rw [flag_bhr, wf_bhr])
  fun_cases Run.linkTo r p v
  · exact startKept_frame (.refl [] r.s) (List.nil_subset _) rfl
  · next q =>
    have hq : StartKept r.s q.s := by
      by_cases hv : v < 2
      · rw [show q = r.campLinkDown p from if_pos (decide_eq_true hv)]
        exact campLinkDown_kept r p
      · rw [show q = r from if_neg (by simpa using hv)]
        exact startKept_frame (.refl [] r.s) (List.nil_subset _) rfl
    exact hq.trans (hset q)

theorem herdStart_kept : StartKept r.s r.herdStart.s := by
  rw [Run.herdStart]
  refine each_ind (P := fun q : Run s₀ => StartKept r.s q.s) (fun q p hp hq => ?_)
    (startKept_frame (l := []) ⟨rfl, rfl, rfl, rfl, .refl _ _⟩ (List.nil_subset _) rfl)
  split
  · exact hq.trans (linkTo_kept q (List.mem_range.1 hp) 1)
  · exact hq

/-- TB0 enters ACQUIRE. -/
theorem setTb0State_kept : StartKept r.s (r.setTb0State 1).s := by
  have heq : r.setTb0State 1 = if r.s.tb0State = 1 then r else (r.wf Reg.timeStat 1 0 1).flag Reg.timeEvstat 0 := rfl
  rw [heq]
  split
  · exact startKept_frame (.refl [] r.s) (List.nil_subset _) rfl
  · exact startKept_frame ((BhrFrame.wf r _ _ _ _).append (.flag _ _ _)) (by decide) (by rw [flag_bhr, wf_bhr])

/-- What the change to START does behind its record and its code. -/
def Run.startEnter (r : Run s₀) : Run s₀ :=
  let r := (r.up (.bhr { r.s.bhr with startAt := r.s.cyc })).herdStart
  let r := r.wb Reg.timeStat 3 (r.s.tb0State == 2)
  if r.s.tb0State = 0 then r.setTb0State 1 else r

theorem nodeTo_eq (new : NodeState) (c : NodeCause) : r.nodeTo new c =
    if new = .start then (if new = .normal then (r.nodeSet new c).slotConfirmed else r.nodeSet new c).startEnter
    else if new = .normal then (r.nodeSet new c).slotConfirmed else r.nodeSet new c := rfl

theorem nodeTo_start (c : NodeCause) : r.nodeTo .start c = (r.nodeSet .start c).startEnter := by
  rw [nodeTo_eq, if_pos rfl, if_neg (by decide)]

theorem startEnter_enters : BhrFrame startRegs r.s r.startEnter.s ∧ r.startEnter.s.bhr.startAt = r.s.cyc ∧
    r.startEnter.s.fawn = r.s.fawn := by
  let q := r.up (.bhr { r.s.bhr with startAt := r.s.cyc })
  have hq : BhrFrame startRegs r.s q.s := ⟨rfl, rfl, rfl, rfl, .refl _ _⟩
  have hherd : StartKept q.s q.herdStart.s := herdStart_kept q
  have heq : r.startEnter = if (q.herdStart.wb Reg.timeStat 3 (q.herdStart.s.tb0State == 2)).s.tb0State = 0 then
      (q.herdStart.wb Reg.timeStat 3 (q.herdStart.s.tb0State == 2)).setTb0State 1
    else q.herdStart.wb Reg.timeStat 3 (q.herdStart.s.tb0State == 2) := rfl
  rw [heq]
  generalize (q.herdStart.s.tb0State == 2) = b
  have hwb : StartKept q.s (q.herdStart.wb Reg.timeStat 3 b).s :=
    hherd.trans (startKept_frame (.wb _ _ _ _) (by decide) (by rw [wb_bhr]))
  generalize q.herdStart.wb Reg.timeStat 3 b = t at hwb
  have hend : StartKept q.s (if t.s.tb0State = 0 then t.setTb0State 1 else t).s := by
    split
    · exact hwb.trans (setTb0State_kept t)
    · exact hwb
  exact ⟨hq.trans hend.1, hend.2.1, hend.2.2⟩

/-- The change to START. -/
theorem nodeTo_start_starts (c : NodeCause) : BhrFrame (Reg.bhrStat :: startRegs) r.s (r.nodeTo .start c).s ∧
    (r.nodeTo .start c).s.node = .start ∧ (r.nodeTo .start c).s.bhr.startAt = r.s.cyc := by
  obtain ⟨hset, hnode, -⟩ := nodeSet_sets r .start c
  obtain ⟨henter, hat, -⟩ := startEnter_enters (r.nodeSet .start c)
  rw [nodeTo_start]
  exact ⟨(hset.mono (by decide)).trans (henter.mono (by simp)), (henter.node (by decide)).trans hnode, hat.trans hset.cyc⟩

end Sys2Proof.Machine
end

section
/-!
PROOFS. The calibration set, the security version, the keys, the node state and the slots by command (O58).
-/
namespace Sys2Proof.Machine

variable {s : State} {id : Option Nat} {w : BhrWho} {d : List Byte}

/-! ## The calibration set (R28, R580, R581) -/

section
variable {s₀ : State} (r : Run s₀)

/-- A set without an uncorrectable word is read, and its words corrected and counted. -/
theorem calRead_good (h : ∀ e ∈ r.s.bhr.calEcc, e.2 = .single) :
    r.calRead = (r.mapBhr fun b => { b with calEcc := [], eccCount := b.eccCount + b.calEcc.length }, some r.s.bhr.cal) := by
  have hbad : r.s.bhr.calEcc.filter (fun e => e.2 == .double) = [] :=
    List.filter_eq_nil_iff.2 fun e he => by rw [h e he]; decide
  rw [Run.calRead, hbad]; rfl

/-- A set with an uncorrectable word is not read. -/
theorem calRead_bad (h : ∃ e ∈ r.s.bhr.calEcc, e.2 = .double) : ∃ f : BhrSt → BhrSt,
    r.calRead = (r.mapBhr f, none) ∧ ∀ b, (f b).cal = b.cal := by
  obtain ⟨e, he, hd⟩ := h
  have hbad : (r.s.bhr.calEcc.filter fun e => e.2 == .double).isEmpty = false := by
    rw [List.isEmpty_eq_false_iff]
    exact List.ne_nil_of_mem (List.mem_filter.2 ⟨he, by rw [hd]; decide⟩)
  refine ⟨fun b => { b with
    calEcc := r.s.bhr.calEcc.filter fun e => e.2 == .double
    eccCount := b.eccCount + (b.calEcc.length - (r.s.bhr.calEcc.filter fun e => e.2 == .double).length) }, ?_, fun _ => rfl⟩
  rw [Run.calRead, hbad]; rfl

theorem uidBytes_eq (s u : State) : s.uidBytes = u.uidBytes := rfl

/-- The checks of a set are of its bytes and the identifier only. -/
theorem calCheck_eq (s u : State) (d : List Byte) : s.calCheck d = u.calCheck d := by
  rw [State.calCheck, State.calCheck, uidBytes_eq s u]

theorem calJudge_of_read {q : Run s₀} {l : Option (List Byte)} (h : r.calRead = (q, l)) (hc : q.s.calCheck (l.getD []) = 0) :
    r.calJudge = q.wb Reg.bhrStat 28 true := by
  rw [Run.calJudge, h]
  exact if_pos hc

/-- A valid set without errors is judged valid. -/
theorem calJudge_good (he : r.s.bhr.calEcc = []) (hc : r.s.calCheck r.s.bhr.cal = 0) :
    BhrFrame [Reg.bhrStat] r.s r.calJudge.s ∧ r.calJudge.s.bhr.cal = r.s.bhr.cal ∧ r.calJudge.s.rb Reg.bhrStat 28 = true := by
  have hread := calRead_good r (fun e h => by rw [he] at h; cases h)
  let q := r.mapBhr fun b => { b with calEcc := [], eccCount := b.eccCount + b.calEcc.length }
  have heq : r.calJudge = q.wb Reg.bhrStat 28 true := calJudge_of_read r hread ((calCheck_eq q.s r.s _).trans hc)
  rw [heq]
  exact ⟨(BhrFrame.mapBhr r _).append (.wb q _ _ _), by rw [wb_bhr]; rfl, wb_rb q (by decide) (bhr_masks.2.1 28 (by decide) (by decide)) true⟩

end

theorem bhrCalread_answers (h : BhrStarts s id w d 7) :
    ((∀ e ∈ s.bhr.calEcc, e.2 = .single) → Answers (.bhrCalread id) s fun u => bhrGood s w [] (padTo 2048 s.bhr.cal) u ∧
      u.bhr.calEcc = [] ∧ u.bhr.eccCount = s.bhr.eccCount + s.bhr.calEcc.length) ∧
    ((∃ e ∈ s.bhr.calEcc, e.2 = .double) → Answers (.bhrCalread id) s fun u => bhrEnded s w .fault 0 [] u ∧
      RegsKept s u (Reg.bhrEvstat :: bhrBox) ∧ u.bhr.cal = s.bhr.cal) := by
  have hex := exec_bhr_starts (c := .bhrCalread id) (act := Run.actCalread) rfl h
  refine ⟨fun hgood => ?_, fun hbad => ?_⟩
  · rw [Run.actCalread, calRead_good (Run.start s) hgood] at hex
    refine (answers_bhrFin _ hex (.mapBhr (Run.start s) _) h.1.asked (by decide) (by rw [padTo_length]; decide)).imp fun u hu => ⟨hu.good, ?_, ?_⟩
    · exact (hu.closed.get BhrSt.calEcc fun _ _ _ => rfl)
    · exact (hu.closed.get BhrSt.eccCount fun _ _ _ => rfl)
  · obtain ⟨f, hread, hcal⟩ := calRead_bad (Run.start s) hbad
    rw [Run.actCalread, hread] at hex
    refine (answers_bhrFin _ hex (.mapBhr (Run.start s) f) h.1.asked (by decide) (Nat.zero_le _)).imp fun u hu => ⟨hu.ended, hu.regs, ?_⟩
    exact (hu.closed.get BhrSt.cal fun _ _ _ => rfl).trans (hcal _)

/-- The set that CALWRITE brings. -/
def calSet (d : List Byte) : List Byte := padTo 2048 (d.drop 8)

/-- A set that passes its checks and agrees with the CRC given. -/
def calFits (s : State) (d : List Byte) : Prop := s.calCheck (calSet d) = 0 ∧ recNat (calSet d) 0x7FC 4 = recNat d 0 4

theorem bhrCalwrite_answers (h : BhrStarts s id w d 8) :
    (s.node ≠ .test → Answers (.bhrCalwrite id) s (bhrRefusal s w .refused 0x18)) ∧
    (s.node = .test → Answers (.bhrCalwrite id) s fun u => (¬calFits s d → bhrRefusal s w .cfgerr 0x10 u) ∧
      (calFits s d → bhrGood s w [Reg.bhrStat, Reg.bhrLogLost] [] u ∧ u.bhr.cal = calSet d ∧ u.rb Reg.bhrStat 28 = true ∧
        u.rb Reg.bhrEvstat 4 = true)) := by
  have hex := exec_bhr_starts (c := .bhrCalwrite id) (act := Run.actCalwrite) rfl h
  refine ⟨fun hn => ?_, fun hn => ?_⟩
  · exact answers_refusal h.1.asked (hex.trans (congrArg Run.done (if_pos hn))) (by decide) (by decide) (by decide)
  replace hex := hex.trans (congrArg Run.done (if_neg (not_not.2 hn)))
  by_cases hfits : calFits s d
  · have hok : ¬(s.calCheck (calSet d) ≠ 0 ∨ recNat (calSet d) 0x7FC 4 ≠ recNat d 0 4) := by
      rw [not_or, not_not, not_not]; exact hfits
    let q := (Run.start s).mapBhr fun b => { b with cal := calSet d, calEcc := [] }
    let t := q.calJudge.flag Reg.bhrEvstat 4
    let data := [recNat s.bhr.cal 0x7FC 4, recNat (calSet d) 0x7FC 4]
    replace hex : exec (.bhrCalwrite id) s = ((t.log 0x0004 0 data).bhrFin w .ok 0 []).done := hex.trans (congrArg Run.done (if_neg hok))
    obtain ⟨hjudge, hcal, h28⟩ := calJudge_good q rfl ((calCheck_eq q.s s _).trans hfits.1)
    have hflag : BhrFrame [Reg.bhrEvstat] q.calJudge.s t.s := .flag ..
    have hlog : BhrFrame [Reg.bhrLogLost] t.s (t.log 0x0004 0 data).s := log_frame ..
    have h4 : t.s.rb Reg.bhrEvstat 4 = true := flag_rb _ (by decide) (bhr_masks.1 4 (by decide))
    have hq : BhrFrame [] s q.s := .mapBhr (Run.start s) _
    refine (answers_bhrFin _ hex (((hq.append hjudge).append hflag).append hlog) h.1.asked (by decide) (Nat.zero_le _)).imp
      fun u hu => ⟨fun hno => absurd hfits hno, fun _ => ⟨⟨hu.ended, hu.regs.mono (by simp)⟩, ?_, ?_, ?_⟩⟩
    · exact (hu.closed.get BhrSt.cal fun _ _ _ => rfl).trans ((log_get t BhrSt.cal (fun _ _ _ => rfl) ..).trans (by rw [flag_bhr, hcal]; rfl))
    · rw [State.rb, hu.closed.regs _ (not_mem_box (by decide) (by decide)), ← State.rb, hlog.rb (by decide), hflag.rb (by decide), h28]
    · exact hu.closed.flags 4 (by decide) ((hlog.rb (by decide) 4).trans h4)
  · have hbad : s.calCheck (calSet d) ≠ 0 ∨ recNat (calSet d) 0x7FC 4 ≠ recNat d 0 4 := by
      rwa [calFits, not_and_or] at hfits
    refine (answers_refusal h.1.asked (hex.trans (congrArg Run.done (if_pos hbad))) (by decide) (by decide) (by decide)).imp
      fun u hu => ⟨fun _ => hu, fun hf => absurd hf hfits⟩

/-! ## SVBUMP and KEYPROG (R590, R592, R608) -/

/-- A security version above that of a package in the slot that was booted. -/
def svLow (s : State) (v : Nat) : Prop := recNat (s.slotPkg s.bootSlot 0) 0x1C 1 < v ∨
  (recNat (s.slotRec s.bootSlot) 32 8 ≠ 0 ∧ recNat (s.slotPkg s.bootSlot 1) 0x1C 1 < v)

theorem bhrSvbump_answers (h : BhrStarts s id w d 13) :
    (64 < recNat d 0 1 → Answers (.bhrSvbump id) s (bhrRefusal s w .cfgerr 0)) ∧
    (recNat d 0 1 ≤ 64 → recNat d 0 1 ≤ s.bhr.otpSv → Answers (.bhrSvbump id) s (bhrQuiet s w 0)) ∧
    (recNat d 0 1 ≤ 64 → s.bhr.otpSv < recNat d 0 1 → svLow s (recNat d 0 1) → Answers (.bhrSvbump id) s (bhrRefusal s w .refused 0)) ∧
    (recNat d 0 1 ≤ 64 → s.bhr.otpSv < recNat d 0 1 → ¬svLow s (recNat d 0 1) → Answers (.bhrSvbump id) s fun u =>
      bhrGood s w [Reg.bhrLogLost] [] u ∧ u.bhr.otpSv = recNat d 0 1) := by
  have hex := exec_bhr_starts (c := .bhrSvbump id) (act := Run.actSvbump) rfl h
  refine ⟨fun hbig => ?_, fun h64 hle => ?_, fun h64 hlt hlow => ?_, fun h64 hlt hok => ?_⟩
  · exact answers_refusal h.1.asked (hex.trans (congrArg Run.done (if_pos hbig))) (by decide) (by decide) (by decide)
  all_goals replace hex := hex.trans (congrArg Run.done (if_neg (not_lt.2 h64)))
  · exact answers_quiet h.1.asked (hex.trans (congrArg Run.done (if_pos hle)))
  all_goals replace hex := hex.trans (congrArg Run.done (if_neg (not_le.2 hlt)))
  · exact answers_refusal h.1.asked (hex.trans (congrArg Run.done (if_pos hlow))) (by decide) (by decide) (by decide)
  · let q := (Run.start s).mapBhr fun x => { x with otpSv := recNat d 0 1 }
    replace hex : exec (.bhrSvbump id) s = ((q.log 0x000C 0 [s.bhr.otpSv, recNat d 0 1]).bhrFin w .ok 0 []).done :=
      hex.trans (congrArg Run.done (if_neg hok))
    have hq : BhrFrame [] s q.s := .mapBhr (Run.start s) _
    refine (answers_bhrFin _ hex (hq.append (log_frame ..)) h.1.asked (by decide) (Nat.zero_le _)).imp fun u hu => ⟨hu.good, ?_⟩
    exact (hu.closed.get BhrSt.otpSv fun _ _ _ => rfl).trans (log_get q BhrSt.otpSv (fun _ _ _ => rfl) ..)

theorem bhrKeyprog_answers (h : BhrStarts s id w d 14) :
    (s.node ≠ .test → Answers (.bhrKeyprog id) s (bhrRefusal s w .refused 0x18)) ∧
    (s.node = .test → (recNat d 0 1 < 4 ∨ 7 < recNat d 0 1) → Answers (.bhrKeyprog id) s (bhrRefusal s w .cfgerr 0)) ∧
    (s.node = .test → 4 ≤ recNat d 0 1 → recNat d 0 1 ≤ 7 → keyEmpty (s.keySlot (recNat d 0 1)) = false →
      Answers (.bhrKeyprog id) s (bhrRefusal s w .refused 0)) ∧
    (s.node = .test → 4 ≤ recNat d 0 1 → recNat d 0 1 ≤ 7 → keyEmpty (s.keySlot (recNat d 0 1)) = true →
      Answers (.bhrKeyprog id) s fun u => bhrGood s w [] [] u ∧ u.keySlot (recNat d 0 1) = (d.drop 8).take 32 ∧
        ∀ j, j ≠ recNat d 0 1 → u.keySlot j = s.keySlot j) := by
  have hex := exec_bhr_starts (c := .bhrKeyprog id) (act := Run.actKeyprog) rfl h
  refine ⟨fun hn => ?_, fun hn hk => ?_, fun hn h4 h7 hfull => ?_, fun hn h4 h7 hempty => ?_⟩
  · exact answers_refusal h.1.asked (hex.trans (congrArg Run.done (if_pos hn))) (by decide) (by decide) (by decide)
  all_goals replace hex := hex.trans (congrArg Run.done (if_neg (not_not.2 hn)))
  · exact answers_refusal h.1.asked (hex.trans (congrArg Run.done (if_pos hk))) (by decide) (by decide) (by decide)
  all_goals replace hex := hex.trans (congrArg Run.done (if_neg (by omega)))
  · refine answers_refusal h.1.asked (hex.trans (congrArg Run.done (if_pos ?_))) (by decide) (by decide) (by decide)
    rw [start_s, hfull]; rfl
  · let q := (Run.start s).mapBhr fun b => { b with keys := tset [] (recNat d 0 1) ((d.drop 8).take 32) b.keys }
    have hno : ¬(!keyEmpty (s.keySlot (recNat d 0 1))) = true := by rw [hempty]; decide
    replace hex : exec (.bhrKeyprog id) s = (q.bhrFin w .ok 0 []).done := hex.trans (congrArg Run.done (if_neg hno))
    have hq : BhrFrame [] s q.s := .mapBhr (Run.start s) _
    refine (answers_bhrFin _ hex hq h.1.asked (by decide) (Nat.zero_le _)).imp fun u hu => ⟨hu.good, ?_, fun j hj => ?_⟩
    all_goals have hkeys : u.bhr.keys = tset [] (recNat d 0 1) ((d.drop 8).take 32) s.bhr.keys :=
      hu.closed.get BhrSt.keys fun _ _ _ => rfl
    · rw [State.keySlot, if_neg (not_lt.2 h4), hkeys, tget_tset_same]
    · rw [State.keySlot, State.keySlot, hkeys, tget_tset_ne _ _ hj]

/-! ## STATE (R35) -/

/-- TEST may be entered by command. -/
def mayTest (s : State) (n : Nat) : Prop := n = 1 ∧ (s.node = .normal ∨ (s.node = .recovery ∧ s.fawn = false))

/-- START may be entered by command. -/
def mayStart (s : State) (n : Nat) : Prop := n = 2 ∧ s.rf Reg.bhrStat 26 25 = 0 ∧
  (s.node = .test ∨ (s.node = .recovery ∧ s.fawn = false ∧ s.causeRemoved = true))

theorem actState_cases {s₀ : State} (r : Run s₀) (w : BhrWho) (d : List Byte) :
    (mayTest r.s (recNat d 0 1) → r.actState w d = (r.nodeTo .test .command).bhrFin w .ok 0 []) ∧
    (mayStart r.s (recNat d 0 1) → r.actState w d = (r.nodeTo .start .command).bhrFin w .ok 0 []) ∧
    (¬mayTest r.s (recNat d 0 1) → ¬mayStart r.s (recNat d 0 1) → r.actState w d = r.bhrFin w .refused 0x18 []) := by
  rw [Run.actState]
  generalize recNat d 0 1 = n
  split
  · refine ⟨fun h => if_pos ?_, fun h => absurd h.1 (by decide), fun h _ => if_neg fun hc => h ⟨rfl, ?_⟩⟩
    · simpa [mayTest] using h
    · simpa using hc
  · refine ⟨fun h => absurd h.1 (by decide), fun h => if_pos ?_, fun _ h => if_neg fun hc => h ⟨rfl, ?_⟩⟩
    · simpa [mayStart] using h
    · simpa using hc
  · next h1 h2 => exact ⟨fun h => absurd h.1 h1, fun h => absurd h.1 h2, fun _ _ => rfl⟩

theorem bhrState_answers (h : BhrStarts s id w d 15) :
    (¬mayTest s (recNat d 0 1) → ¬mayStart s (recNat d 0 1) → Answers (.bhrState id) s (bhrRefusal s w .refused 0x18)) ∧
    (mayTest s (recNat d 0 1) → Answers (.bhrState id) s fun u => bhrGood s w [Reg.bhrStat, Reg.bhrLogLost] [] u ∧ u.node = .test) ∧
    (mayStart s (recNat d 0 1) → Answers (.bhrState id) s fun u => bhrEnded s w .ok 0 [] u ∧ u.node = .start ∧ u.bhr.startAt = s.cyc) := by
  have hex := exec_bhr_starts (c := .bhrState id) (act := Run.actState) rfl h
  obtain ⟨htest, hstart, hno⟩ := actState_cases (Run.start s) w d
  refine ⟨fun h1 h2 => ?_, fun h1 => ?_, fun h2 => ?_⟩
  · exact answers_refusal h.1.asked (hex.trans (congrArg Run.done (hno h1 h2))) (by decide) (by decide) (by decide)
  · obtain ⟨hset, hnode, -⟩ := nodeSet_sets (Run.start s) .test .command
    rw [htest h1, nodeTo_plain (Run.start s) (by decide) (by decide)] at hex
    generalize (Run.start s).nodeSet .test .command = q at hset hnode hex
    exact (answers_bhrFin q hex hset h.1.asked (by decide) (Nat.zero_le _)).imp fun u hu => ⟨hu.good, hu.closed.node.trans hnode⟩
  · obtain ⟨hset, hnode, hat⟩ := nodeTo_start_starts (Run.start s) .command
    rw [hstart h2] at hex
    generalize (Run.start s).nodeTo .start .command = q at hset hnode hat hex
    exact (answers_bhrFin q hex hset h.1.asked (by decide) (Nat.zero_le _)).imp
      fun u hu => ⟨hu.ended, hu.closed.node.trans hnode, (hu.closed.get BhrSt.startAt fun _ _ _ => rfl).trans hat⟩

end Sys2Proof.Machine
end

section
/-!
PROOFS. The boot flash and ACTIVATE (O58).
-/
namespace Sys2Proof.Machine

variable {s₀ : State} (r : Run s₀) {s : State} {id : Option Nat} {w : BhrWho} {d : List Byte}

/-! ## Bytes put into the flash (R588) -/

theorem flashPut_frame (a : Nat) (d : List Byte) : BhrFrame [] r.s (r.flashPut a d).s := by
  induction d generalizing r a with
  | nil => exact .refl [] r.s
  | cons b d ih => exact (BhrFrame.mapBhr r _).trans (ih ..)

theorem flashPut_below (a : Nat) (d : List Byte) {c : Nat} (h : c < a) :
    tget 0xFF c (r.flashPut a d).s.bhr.flash = tget 0xFF c r.s.bhr.flash := by
  induction d generalizing r a with
  | nil => rfl
  | cons b d ih => exact (ih _ (a + 1) (by omega)).trans (tget_tset_ne _ _ (by omega) ..)

/-- Bytes put into the flash read back. -/
theorem flashPut_bytes (a : Nat) (d : List Byte) : (r.flashPut a d).s.flashBytes a d.length = d := by
  induction d generalizing r a with
  | nil => rfl
  | cons b d ih =>
    have hhead : tget 0xFF a (r.flashPut a (b :: d)).s.bhr.flash = b :=
      (flashPut_below _ (a + 1) d (by omega)).trans (tget_tset_same ..)
    have htail : (r.flashPut a (b :: d)).s.flashBytes (a + 1) d.length = d := ih ..
    rw [State.flashBytes] at htail ⊢
    rw [List.length_cons, List.range_succ_eq_map, List.map_cons, List.map_map, Nat.add_zero, hhead]
    refine congrArg (b :: ·) (Eq.trans (List.map_congr_left fun i _ => ?_) htail)
    rw [Function.comp_apply, Nat.add_right_comm]
    rfl

/-! ## Slot records (R588, R593) -/

/-- The bytes of a slot record: 40 of data, their CRC and the mark. -/
theorem slotRecBytes_layout (seq oC lC oB lB : Nat) : (slotRecBytes seq oC lC oB lB).length = 48 ∧
    recNat (slotRecBytes seq oC lC oB lB) 4 4 = seq % 2 ^ 32 ∧
    crc32c 0xFFFFFFFF ((slotRecBytes seq oC lC oB lB).take 40) = recNat (slotRecBytes seq oC lC oB lB) 40 4 ∧
    recNat (slotRecBytes seq oC lC oB lB) 44 4 = 0x56414C44 := by
  obtain ⟨t, ht, heq⟩ : ∃ t : List Byte, t.length = 32 ∧ slotRecBytes seq oC lC oB lB =
      (bytesLE 4 0x534C4F54 ++ (bytesLE 4 seq ++ t)) ++
        (bytesLE 4 (crc32c 0xFFFFFFFF (bytesLE 4 0x534C4F54 ++ (bytesLE 4 seq ++ t))) ++ bytesLE 4 0x56414C44) := by
    refine ⟨bytesLE 8 oC ++ (bytesLE 8 lC ++ (bytesLE 8 oB ++ bytesLE 8 lB)), ?_, ?_⟩
    · simp only [List.length_append, bytesLE_length]
    · simp only [slotRecBytes, List.append_assoc]
  have hlen : (bytesLE 4 0x534C4F54 ++ (bytesLE 4 seq ++ t)).length = 40 := by
    rw [List.length_append, List.length_append, bytesLE_length, bytesLE_length, ht]
  have hcrc := crc32c_bound (seed := 0xFFFFFFFF) (by decide) (bytesLE 4 0x534C4F54 ++ (bytesLE 4 seq ++ t))
  rw [heq, List.take_left' hlen, show 40 = 40 + 0 from rfl, recNat_append hlen, recNat_bytesLE, show 44 = 40 + (4 + 0) from rfl,
    recNat_append hlen, recNat_append (bytesLE_length ..), recNat_append_left (by rw [hlen]; decide), show 4 = 4 + 0 from rfl,
    recNat_append (bytesLE_length ..), recNat_bytesLE]
  refine ⟨?_, rfl, (Nat.mod_eq_of_lt hcrc).symm, rfl⟩
  rw [List.length_append, hlen, List.length_append, bytesLE_length, bytesLE_length]

/-- Another `slot_seq` leaves a valid record with it. -/
theorem slotSetSeq_sets (b seq : Nat) : BhrFrame [] r.s (r.slotSetSeq b seq).s ∧
    recNat ((r.slotSetSeq b seq).s.slotRec b) 4 4 = seq % 2 ^ 32 ∧ (r.slotSetSeq b seq).s.recOk b = true := by
  have hrec : (r.slotSetSeq b seq).s.slotRec b = slotRecBytes seq (recNat (r.s.slotRec b) 8 8) (recNat (r.s.slotRec b) 16 8)
      (recNat (r.s.slotRec b) 24 8) (recNat (r.s.slotRec b) 32 8) := by
    have hput := flashPut_bytes r (slotBase b) (slotRecBytes seq (recNat (r.s.slotRec b) 8 8) (recNat (r.s.slotRec b) 16 8)
      (recNat (r.s.slotRec b) 24 8) (recNat (r.s.slotRec b) 32 8))
    rwa [(slotRecBytes_layout ..).1] at hput
  obtain ⟨-, hseq, hcrc, hmark⟩ := slotRecBytes_layout seq (recNat (r.s.slotRec b) 8 8) (recNat (r.s.slotRec b) 16 8)
    (recNat (r.s.slotRec b) 24 8) (recNat (r.s.slotRec b) 32 8)
  refine ⟨flashPut_frame .., by rw [hrec, hseq], ?_⟩
  rw [State.recOk, hrec, hmark, hcrc, beq_self_eq_true, beq_self_eq_true]
  rfl

/-- The flash decides on the records of the slots. -/
theorem slotRec_congr {s u : State} (h : u.bhr.flash = s.bhr.flash) (b : Nat) : u.slotRec b = s.slotRec b := by
  rw [State.slotRec, State.slotRec, State.flashBytes, State.flashBytes, h]

theorem recOk_congr {s u : State} (h : u.bhr.flash = s.bhr.flash) (b : Nat) : u.recOk b = s.recOk b := by
  rw [State.recOk, State.recOk, slotRec_congr h]

/-- A slot that has been activated (R608). -/
def slotActivated (s : State) (k : Nat) (u : State) : Prop := tget 0 k u.bhr.trials = 0 ∧ tget false k u.bhr.confirmed = false ∧
  recNat (u.slotRec k) 4 4 = (s.slotSeq (1 - k) + 1) % 2 ^ 32 ∧ u.recOk k = true

/-- A slot without trials that is not yet confirmed. -/
def BhrSt.fresh (b : BhrSt) (k : Nat) : BhrSt := { b with trials := tset 0 k 0 b.trials, confirmed := tset false k false b.confirmed }

theorem slotActivate_eq (k : Nat) : r.slotActivate k = (r.slotSetSeq k (r.s.slotSeq (1 - k) + 1)).mapBhr (·.fresh k) := rfl

theorem mapBhr_fresh (k : Nat) : tget 0 k (r.mapBhr (·.fresh k)).s.bhr.trials = 0 ∧
    tget false k (r.mapBhr (·.fresh k)).s.bhr.confirmed = false ∧ (r.mapBhr (·.fresh k)).s.bhr.flash = r.s.bhr.flash :=
  ⟨tget_tset_same 0 k 0 r.s.bhr.trials, tget_tset_same false k false r.s.bhr.confirmed, rfl⟩

theorem slotActivate_activates (k : Nat) : BhrFrame [] r.s (r.slotActivate k).s ∧ slotActivated r.s k (r.slotActivate k).s := by
  obtain ⟨hframe, hseq, hok⟩ := slotSetSeq_sets r k (r.s.slotSeq (1 - k) + 1)
  obtain ⟨htrials, hconf, hflash⟩ := mapBhr_fresh (r.slotSetSeq k (r.s.slotSeq (1 - k) + 1)) k
  rw [slotActivate_eq]
  exact ⟨hframe.trans (.mapBhr _ _), htrials, hconf, by rw [slotRec_congr hflash, hseq], by rw [recOk_congr hflash, hok]⟩

/-! ## ACTIVATE (R608) -/

theorem bhrActivate_answers (h : BhrStarts s id w d 10) :
    (1 < recNat d 0 1 → Answers (.bhrActivate ⟨id, false⟩) s (bhrRefusal s w .cfgerr 0)) ∧
    (recNat d 0 1 ≤ 1 → s.slotOk (recNat d 0 1) = true → s.preferred ≠ recNat d 0 1 → Answers (.bhrActivate ⟨id, true⟩) s fun u =>
      bhrEnded s w .fault 0x19 [] u ∧ RegsKept s u (Reg.bhrEvstat :: bhrBox) ∧ u.bhr.flash = s.bhr.flash ∧
        u.bhr.trials = s.bhr.trials) ∧
    (recNat d 0 1 ≤ 1 → Answers (.bhrActivate ⟨id, false⟩) s fun u =>
      (s.slotOk (recNat d 0 1) = false → bhrRefusal s w .refused 0 u) ∧
      (s.slotOk (recNat d 0 1) = true → s.preferred = recNat d 0 1 → bhrQuiet s w 0 u) ∧
      (s.slotOk (recNat d 0 1) = true → s.preferred ≠ recNat d 0 1 → bhrGood s w [] [] u ∧ slotActivated s (recNat d 0 1) u)) := by
  have hex (failed : Bool) := exec_bhr_starts (c := .bhrActivate ⟨id, failed⟩) (act := Run.actActivate failed) rfl h
  have hno (failed : Bool) (hk : recNat d 0 1 ≤ 1) := (hex failed).trans (congrArg Run.done (if_neg (not_lt.2 hk)))
  have hbang {b : Bool} (hb : b = true) : ¬(!b) = true := by rw [hb]; decide
  refine ⟨fun hk => ?_, fun hk hok hp => ?_, fun hk => ?_⟩
  · exact answers_refusal h.1.asked ((hex false).trans (congrArg Run.done (if_pos hk))) (by decide) (by decide) (by decide)
  · refine (answers_bhrFin (Run.start s) ((hno true hk).trans (congrArg Run.done ((if_neg (hbang hok)).trans ((if_neg hp).trans (if_pos rfl)))))
      (.refl [] s) h.1.asked (by decide) (Nat.zero_le _)).imp fun u hu => ⟨hu.ended, hu.regs, ?_, ?_⟩
    · exact hu.closed.get BhrSt.flash fun _ _ _ => rfl
    · exact hu.closed.get BhrSt.trials fun _ _ _ => rfl
  · cases hok : s.slotOk (recNat d 0 1)
    · have hbad : (!s.slotOk (recNat d 0 1)) = true := by rw [hok]; rfl
      exact (answers_refusal h.1.asked ((hno false hk).trans (congrArg Run.done (if_pos hbad))) (by decide) (by decide) (by decide)).imp
        fun u hu => ⟨fun _ => hu, fun h => (by cases h), fun h => (by cases h)⟩
    · by_cases hp : s.preferred = recNat d 0 1
      · exact (answers_quiet h.1.asked ((hno false hk).trans (congrArg Run.done ((if_neg (hbang hok)).trans (if_pos hp))))).imp
          fun u hu => ⟨fun h => (by cases h), fun _ _ => hu, fun _ h => absurd hp h⟩
      · obtain ⟨hframe, hact⟩ := slotActivate_activates (Run.start s) (recNat d 0 1)
        refine (answers_bhrFin _ ((hno false hk).trans (congrArg Run.done ((if_neg (hbang hok)).trans ((if_neg hp).trans
          (if_neg Bool.false_ne_true))))) hframe h.1.asked (by decide) (Nat.zero_le _)).imp
          fun u hu => ⟨fun h => (by cases h), fun _ h => absurd h hp, fun _ _ => ⟨hu.good, ?_⟩⟩
        obtain ⟨htrials, hconf, hseq, hrec⟩ := hact
        have hflash := hu.closed.get BhrSt.flash fun _ _ _ => rfl
        refine ⟨?_, ?_, ?_, ?_⟩
        · rw [hu.closed.get BhrSt.trials fun _ _ _ => rfl, htrials]
        · rw [hu.closed.get BhrSt.confirmed fun _ _ _ => rfl, hconf]
        · rw [slotRec_congr hflash, hseq]; rfl
        · rw [recOk_congr hflash, hrec]

end Sys2Proof.Machine
end

section
/-!
PROOFS. Bharal's events: heartbeat, records, the start of a node without images, time-outs (O58).
-/
namespace Sys2Proof.Machine

variable {s : State}

/-! ## The heartbeat (R576) -/

/-- A heartbeat is due. -/
def hbDue (s : State) : Prop := s.node ≠ .boot ∧ s.inReset = false ∧ s.chm.on = true ∧ s.chm.hbAt + usCyc 10000 ≤ s.cyc

theorem exec_heartbeat (s : State) : exec .heartbeatSend s =
    if s.node ≠ .boot ∧ !s.inReset ∧ s.chm.on ∧ s.chm.hbAt + usCyc 10000 ≤ s.cyc then (Run.start s).chmHeartbeat.done
    else (Run.start s).done := rfl

theorem hbDue_iff (s : State) : (s.node ≠ .boot ∧ (!s.inReset) = true ∧ s.chm.on = true ∧ s.chm.hbAt + usCyc 10000 ≤ s.cyc) ↔ hbDue s := by
  rw [Bool.not_eq_true', hbDue]

theorem heartbeat_idle (h : ¬hbDue s) : Answers .heartbeatSend s (· = s) :=
  Run.answers (Run.start s) ((exec_heartbeat s).trans (if_neg fun hc => h ((hbDue_iff s).1 hc))) rfl

theorem heartbeat_sent (h : hbDue s) : Answers .heartbeatSend s fun u => (RegsKept s u [Reg.chmStat] ∧ MemKept s u) ∧
    u.chm = { s.chm with hbAt := s.cyc } ∧ u.rb Reg.chmStat 29 = false := by
  let q := (Run.start s).mapChm fun t => { t with hbAt := s.cyc }
  have hex : exec .heartbeatSend s = (q.wb Reg.chmStat 29 false).done := (exec_heartbeat s).trans (if_pos ((hbDue_iff s).2 h))
  have ho := wb_onlyRegs q Reg.chmStat 29 false
  refine Run.answers _ hex ⟨⟨ho.regsKept, ho.memKept⟩, ?_, wb_rb q (by decide) (by decide +kernel) false⟩
  rw [ho.1]
  rfl

/-! ## Records (R583, R584) -/

/-- The last record has been written less than 1 ms ago. -/
def logEarly (s : State) : Prop := ∃ t, s.bhr.logAt = some t ∧ s.cyc < t + usCyc 1000

/-- The next record may be written. -/
def State.logMay (s : State) : Bool := match s.bhr.logAt with | none => true | some t => decide (t + usCyc 1000 ≤ s.cyc)

theorem logMay_iff (s : State) : s.logMay = true ↔ ¬logEarly s := by
  rw [State.logMay, logEarly]
  cases s.bhr.logAt <;> simp

/-- A queued record goes to its slot. -/
def BhrSt.written (b : BhrSt) (x : LogRec) (rest : List LogRec) (cyc : Nat) : BhrSt :=
  let recs := tset none b.nextSeq (some { x with who := none }) b.recs
  let recs := if 1024 + 4096 ≤ b.nextSeq then tset none (b.nextSeq - 4096) none recs else recs
  { b with recs := recs, logQ := rest, nextSeq := b.nextSeq + 1, logAt := some cyc }

theorem exec_logRecordWrite (s : State) : exec .logRecordWrite s =
    match s.bhr.logQ with
    | [] => (Run.start s).done
    | x :: t => if s.inReset || !s.logMay then (Run.start s).done
      else
        let r := ((Run.start s).mapBhr (·.written x t s.cyc)).flag Reg.bhrEvstat 2
        let r := match x.who with | some w => r.bhrFin w .ok 0 [] | none => r
        let k := r.s.bhr.logLost
        if k = 0 then r.done else ((r.mapBhr fun b => { b with logLost := 0 }).log 0x000D 1 [k]).done := rfl

theorem logRecordWrite_idle (h : s.bhr.logQ = [] ∨ s.inReset = true ∨ logEarly s) : Answers .logRecordWrite s (· = s) := by
  refine Run.answers (Run.start s) ?_ rfl
  rw [exec_logRecordWrite]
  split
  · rfl
  · next x t hq =>
    refine if_pos ?_
    rcases h with h | h | h
    · rw [hq] at h; cases h
    · rw [h]; rfl
    · rw [Bool.eq_false_iff.2 fun hm => (logMay_iff s).1 hm h, Bool.not_false, Bool.or_true]

theorem logRecordWrite_writes {x : LogRec} {rest : List LogRec} (hq : s.bhr.logQ = x :: rest) (hr : s.inReset = false)
    (he : ¬logEarly s) (hw : x.who = none) (hl : s.bhr.logLost = 0) (hn : s.bhr.nextSeq < 5120) :
    Answers .logRecordWrite s fun u => (RegsKept s u [Reg.bhrEvstat] ∧ MemKept s u) ∧ u.rb Reg.bhrEvstat 2 = true ∧
      u.bhr = { s.bhr with
        recs := tset none s.bhr.nextSeq (some x) s.bhr.recs, logQ := rest, nextSeq := s.bhr.nextSeq + 1, logAt := some s.cyc } := by
  let q := (Run.start s).mapBhr (·.written x rest s.cyc)
  have hbhr : q.s.bhr = { s.bhr with
      recs := tset none s.bhr.nextSeq (some x) s.bhr.recs, logQ := rest, nextSeq := s.bhr.nextSeq + 1, logAt := some s.cyc } := by
    have hx : ({ x with who := none } : LogRec) = x := by rw [← hw]
    change s.bhr.written x rest s.cyc = _
    rw [BhrSt.written, hx, if_neg (by omega)]
  have hlost : (q.flag Reg.bhrEvstat 2).s.bhr.logLost = 0 := by rw [flag_bhr, hbhr]; exact hl
  have hex : exec .logRecordWrite s = (q.flag Reg.bhrEvstat 2).done := by
    rw [exec_logRecordWrite, hq]
    dsimp only
    rw [hr, (logMay_iff s).2 he, hw]
    exact if_pos hlost
  have hflag := (BhrFrame.mapBhr (Run.start s) (·.written x rest s.cyc)).append (.flag q Reg.bhrEvstat 2)
  refine Run.answers _ hex ⟨⟨hflag.regs, hflag.memKept⟩, flag_rb q (by decide) (bhr_masks.1 2 (by decide)), ?_⟩
  rw [flag_bhr, hbhr]

/-! ## BOOT without a valid slot (R593, R597) -/

/-- The slot that BOOT tries first. -/
def State.bootFirst (s : State) : Nat :=
  if !(tget false s.preferred s.bhr.confirmed) && decide (3 ≤ tget 0 s.preferred s.bhr.trials) then 1 - s.preferred else s.preferred

theorem bootFirst_le (s : State) : s.bootFirst ≤ 1 := by
  have hpref : s.preferred ≤ 1 := by
    rw [State.preferred]
    split
    · split <;> omega
    · exact Nat.le_refl 1
    · exact Nat.zero_le 1
  rw [State.bootFirst]
  split <;> omega

theorem bootDone_idle (h : s.node ≠ .boot ∨ s.inReset = true) : Answers .bootDone s (· = s) := by
  refine Run.answers (Run.start s) ?_ rfl
  change execBootDone s = _
  rw [execBootDone]
  exact if_pos h

section
variable {s₀ : State} (r : Run s₀)

theorem slotJudge_noRecord {b : Nat} (h : r.s.recOk b = false) : r.slotJudge b = (r, some (.cfgerr, 0x10)) :=
  if_pos (.inl (by rw [h]; rfl))

/-- Fawn runs in RECOVERY. -/
theorem fawnStart_starts : r.fawnStart.s.node = .recovery ∧ r.fawnStart.s.fawn = true ∧ MemKept r.s r.fawnStart.s ∧
    r.fawnStart.s.sp = r.s.sp := by
  let q := (r.mapBhr fun x => { x with badSlot := none }).wb Reg.bhrStat 27 true
  have hq : BhrFrame [Reg.bhrStat] r.s q.s := (BhrFrame.mapBhr r _).append (.wb _ Reg.bhrStat 27 true)
  have hfawn : q.s.fawn = true := wb_rb _ (by decide) (bhr_masks.2.1 27 (by decide) (by decide)) true
  have hlog : BhrFrame [Reg.bhrLogLost] q.s (q.bootRecord 0xFF [0, 0, 0, 0]).s := log_frame ..
  have heq : r.fawnStart = ((q.bootRecord 0xFF [0, 0, 0, 0]).nodeTo .recovery .noImage).herdStart := rfl
  obtain ⟨hset, hnode, -⟩ := nodeSet_sets (q.bootRecord 0xFF [0, 0, 0, 0]) .recovery .noImage
  have hsetFawn := nodeSet_fawn (q.bootRecord 0xFF [0, 0, 0, 0]) .recovery .noImage
  obtain ⟨hherd, -, hherdFawn⟩ := herdStart_kept ((q.bootRecord 0xFF [0, 0, 0, 0]).nodeSet .recovery .noImage)
  rw [heq, nodeTo_plain _ (by decide) (by decide)]
  have hframe := ((hq.append hlog).append hset).append hherd
  exact ⟨(hherd.node (by decide)).trans hnode, hherdFawn.trans (hsetFawn.trans ((hlog.rb (by decide) 27).trans hfawn)),
    hframe.memKept, hframe.sp⟩

end

theorem bootDone_fawn (hb : s.node = .boot) (hr : s.inReset = false) (h0 : s.recOk 0 = false) (h1 : s.recOk 1 = false) :
    Answers .bootDone s fun u => u.node = .recovery ∧ u.fawn = true ∧ MemKept s u ∧ u.sp = s.sp := by
  have hslot {b : Nat} (hb : b ≤ 1) : (Run.start s).slotJudge b = (Run.start s, some (.cfgerr, 0x10)) := by
    refine slotJudge_noRecord (Run.start s) ?_
    rcases Nat.le_one_iff_eq_zero_or_eq_one.1 hb with rfl | rfl
    · exact h0
    · exact h1
  have hfirst := bootFirst_le s
  have hjudge := hslot hfirst
  have hother := hslot (b := 1 - s.bootFirst) (by omega)
  rw [State.bootFirst] at hjudge hother
  have hex : exec .bootDone s = (Run.start s).fawnStart.done := by
    change execBootDone s = _
    rw [execBootDone, if_neg (by rw [hb, hr]; decide)]
    dsimp only
    rw [hjudge]
    dsimp only
    rw [hother]
  exact Run.answers _ hex (fawnStart_starts (Run.start s))

/-! ## Time-outs (R605, R624) -/

theorem exec_startTimeout (s : State) : exec .startTimeout s =
    if s.node = .start ∧ s.bhr.startAt + s.rf Reg.pwrCfg 7 0 * 800000000 ≤ s.cyc then ((Run.start s).nodeTo .recovery .noLock).done
    else (Run.start s).done := rfl

/-- START has lasted longer than PWR_CFG allows. -/
def startOut (s : State) : Prop := s.node = .start ∧ s.bhr.startAt + s.rf Reg.pwrCfg 7 0 * 800000000 ≤ s.cyc

theorem startTimeout_idle (h : ¬startOut s) : Answers .startTimeout s (· = s) :=
  Run.answers (Run.start s) ((exec_startTimeout s).trans (if_neg h)) rfl

theorem startTimeout_recovers (h : startOut s) : Answers .startTimeout s fun u =>
    (RegsKept s u [Reg.bhrStat, Reg.bhrLogLost] ∧ MemKept s u) ∧ u.node = .recovery ∧ u.sp = s.sp := by
  have hex : exec .startTimeout s = ((Run.start s).nodeTo .recovery .noLock).done := (exec_startTimeout s).trans (if_pos h)
  rw [nodeTo_plain _ (by decide) (by decide)] at hex
  obtain ⟨hset, hnode, -⟩ := nodeSet_sets (Run.start s) .recovery .noLock
  exact Run.answers _ hex ⟨⟨hset.regs, hset.memKept⟩, hnode, hset.sp⟩

theorem exec_nonceExpiry (s : State) : exec .nonceExpiry s =
    match s.bhr.nonce with
    | some (_, t) => if t ≤ s.cyc then ((Run.start s).mapBhr fun b => { b with nonce := none }).done else (Run.start s).done
    | none => (Run.start s).done := rfl

theorem nonceExpiry_idle (h : ∀ n t, s.bhr.nonce = some (n, t) → s.cyc < t) : Answers .nonceExpiry s (· = s) := by
  refine Run.answers (Run.start s) ?_ rfl
  rw [exec_nonceExpiry]
  split
  · next n t hn => exact if_neg (not_le.2 (h n t hn))
  · rfl

theorem nonceExpiry_expires {n : List Byte} {t : Nat} (h : s.bhr.nonce = some (n, t)) (ht : t ≤ s.cyc) :
    Answers .nonceExpiry s (· = { s with bhr := { s.bhr with nonce := none } }) := by
  refine Run.answers ((Run.start s).mapBhr fun b => { b with nonce := none }) ?_ rfl
  rw [exec_nonceExpiry, h]
  exact if_pos ht

end Sys2Proof.Machine
end

section
/-!
PROOFS. Sensor readings, their filters and the actions of their faults (O58).
-/
namespace Sys2Proof.Machine

/-! ## The register of a reading (R577) -/

/-- The register of sensor `i`. -/
def sensorReg (i : Nat) : Nat := if i < 8 then Reg.bhrTemp i else if i < 20 then Reg.bhrVolt (i - 8) else Reg.bhrClk (i - 20)

/-- The width of a reading. -/
def sensorWidth (i : Nat) : Nat := if i < 20 then 16 else 32

theorem sensorReg_mask : ∀ i < 26, implMask (sensorReg i) = BitVec.ofNat 32 (2 ^ sensorWidth i - 1) := by decide +kernel

theorem sensorReg_apart : ∀ i < 26, sensorReg i ∉ [Reg.bhrSensstat, Reg.meshDdrStat, Reg.bhrEvstat, Reg.bhrLogLost, Reg.bhrStat] := by
  decide

theorem uNat_lt (n : Nat) (x : Int) : uNat n x < 2 ^ n := by
  have hpos : (0 : Int) < ((2 ^ n : Nat) : Int) := by positivity
  have hlt := Int.emod_lt_of_pos x hpos
  have hge := Int.emod_nonneg x (ne_of_gt hpos)
  rw [uNat]
  omega

section
variable {s₀ : State} (r : Run s₀) {i : Nat}

theorem wr_sensorReg (hi : i < 26) (x : Int) :
    ((r.wr (sensorReg i) (uNat (sensorWidth i) x)).s.rget (sensorReg i)).toNat = uNat (sensorWidth i) x := by
  have hx := uNat_lt (sensorWidth i) x
  have hw : sensorWidth i ≤ 32 := by rw [sensorWidth]; split <;> omega
  have hpow : 2 ^ sensorWidth i ≤ 2 ^ 32 := Nat.pow_le_pow_right (by decide) hw
  have hpos := Nat.two_pow_pos (sensorWidth i)
  rw [wr_s, rget_reg_same, sensorReg_mask i hi, BitVec.toNat_and, BitVec.toNat_ofNat, BitVec.toNat_ofNat,
    Nat.mod_eq_of_lt (hx.trans_le hpow), Nat.mod_eq_of_lt (a := 2 ^ sensorWidth i - 1) (by omega), Nat.and_two_pow_sub_one_eq_mod,
    Nat.mod_eq_of_lt hx]

/-! ## Filters and actions (R578) -/

/-- A condition is entered when it holds and has held for its filter time. -/
theorem condNext_entered {cond : Bool} {since : Option Nat} {cyc filt : Nat} :
    (condNext cond since cyc filt).2 = true ↔ cond = true ∧ since.getD cyc + filt ≤ cyc := by
  cases cond <;> simp [condNext]

theorem condNext_since (cond : Bool) (since : Option Nat) (cyc filt : Nat) :
    (condNext cond since cyc filt).1 = if cond = true then some (since.getD cyc) else none := by
  cases cond <;> rfl

/-- The registers that the action of a fault of sensor `i` writes. -/
def actionRegs (i : Nat) : List Nat := if i = 25 then [Reg.bhrStat, Reg.bhrLogLost] else []

/-- A fault that asks for SAFE_HOLD. -/
def asksHold (i : Nat) : Prop := i < 13 ∨ i = 20 ∨ i = 21

theorem sensAction_acts (i : Nat) : BhrFrame (actionRegs i) r.s (r.sensAction i).s ∧
    (r.sensAction i).s.bhr.sensors = r.s.bhr.sensors ∧ (asksHold i → (r.sensAction i).s.bhr.holdReq = true) ∧
    (i = 25 → (r.s.node = .start ∨ r.s.node = .normal) → (r.sensAction i).s.node = .recovery) := by
  by_cases hhold : asksHold i
  · have heq : r.sensAction i = r.mapBhr fun b => { b with holdReq := true } := if_pos hhold
    rw [heq]
    refine ⟨(BhrFrame.mapBhr r _).mono (List.nil_subset _), rfl, fun _ => rfl, fun h25 => ?_⟩
    subst h25
    exact absurd hhold (by simp [asksHold])
  · by_cases hrec : i = 25 ∧ (r.s.node = .start ∨ r.s.node = .normal)
    · have heq : r.sensAction i = r.nodeSet .recovery .sensor :=
        (if_neg hhold).trans ((if_pos hrec).trans (nodeTo_plain r (by decide) (by decide) _))
      obtain ⟨hset, hnode, hbhr⟩ := nodeSet_sets r .recovery .sensor
      rw [heq, actionRegs, if_pos hrec.1]
      refine ⟨hset, ?_, fun h => absurd h hhold, fun _ _ => hnode⟩
      rw [hbhr]
    · have heq : r.sensAction i = r := (if_neg hhold).trans (if_neg hrec)
      rw [heq]
      exact ⟨.refl _ _, rfl, fun h => absurd h hhold, fun h25 hn => absurd ⟨h25, hn⟩ hrec⟩

/-! ## The parts of a sample -/

/-- The reading and the level bits of it. -/
def Run.sensShow (r : Run s₀) (i : Nat) (x : Int) (hot warm : Bool) : Run s₀ :=
  let r := if i < 8 then r.wr (Reg.bhrTemp i) (uNat 16 x)
    else if i < 20 then r.wr (Reg.bhrVolt (i - 8)) (uNat 16 x)
    else r.wr (Reg.bhrClk (i - 20)) (uNat 32 x)
  let r := if i < 8 then r.wb Reg.bhrSensstat (6 + i) hot else r
  if i = 2 then r.wb Reg.meshDdrStat 8 warm else r

/-- The new state of the sensor, and its fault bit. -/
def Run.sensNote (r : Run s₀) (i : Nat) (y : Sensor) : Run s₀ :=
  let r := r.mapBhr fun b => { b with sensors := tset {} i y b.sensors }
  if 8 ≤ i then r.wb Reg.bhrSensstat (if i < 20 then 14 + (i - 8) else 26 + (i - 20)) y.fault else r

/-- A fault is entered. -/
def Run.faultEnter (r : Run s₀) (i : Nat) (x : Int) : Run s₀ := ((r.flag Reg.bhrEvstat 1).log 0x0006 2 [i, uNat 32 x, 2]).sensAction i

/-- A warning is entered. -/
def Run.warnEnter (r : Run s₀) (i : Nat) (x : Int) : Run s₀ := (r.flag Reg.bhrEvstat 0).log 0x0006 1 [i, uNat 32 x, 1]

theorem sensShow_shows (hi : i < 26) (x : Int) (hot warm : Bool) :
    BhrFrame [sensorReg i, Reg.bhrSensstat, Reg.meshDdrStat] r.s (r.sensShow i x hot warm).s ∧
      ((r.sensShow i x hot warm).s.rget (sensorReg i)).toNat = uNat (sensorWidth i) x ∧ (r.sensShow i x hot warm).s.bhr = r.s.bhr := by
  have hword : (if i < 8 then r.wr (Reg.bhrTemp i) (uNat 16 x) else if i < 20 then r.wr (Reg.bhrVolt (i - 8)) (uNat 16 x)
      else r.wr (Reg.bhrClk (i - 20)) (uNat 32 x)) = r.wr (sensorReg i) (uNat (sensorWidth i) x) := by
    rw [sensorReg, sensorWidth]
    split
    · rw [if_pos (by omega)]
    · split <;> rfl
  have hval := wr_sensorReg r hi x
  have hfr : BhrFrame [sensorReg i] r.s (r.wr (sensorReg i) (uNat (sensorWidth i) x)).s := .wr ..
  have hbhr := wr_bhr r (sensorReg i) (uNat (sensorWidth i) x)
  rw [Run.sensShow, hword]
  generalize r.wr (sensorReg i) (uNat (sensorWidth i) x) = q at hval hfr hbhr
  have hq1 : BhrFrame [Reg.bhrSensstat] q.s (if i < 8 then q.wb Reg.bhrSensstat (6 + i) hot else q).s ∧
      (if i < 8 then q.wb Reg.bhrSensstat (6 + i) hot else q).s.bhr = q.s.bhr := by
    split
    · exact ⟨.wb .., wb_bhr ..⟩
    · exact ⟨.refl .., rfl⟩
  generalize (if i < 8 then q.wb Reg.bhrSensstat (6 + i) hot else q) = q1 at hq1
  have hq2 : BhrFrame [Reg.meshDdrStat] q1.s (if i = 2 then q1.wb Reg.meshDdrStat 8 warm else q1).s ∧
      (if i = 2 then q1.wb Reg.meshDdrStat 8 warm else q1).s.bhr = q1.s.bhr := by
    split
    · exact ⟨.wb .., wb_bhr ..⟩
    · exact ⟨.refl .., rfl⟩
  generalize (if i = 2 then q1.wb Reg.meshDdrStat 8 warm else q1) = q2 at hq2
  have hout := sensorReg_apart i hi
  simp only [List.mem_cons, List.not_mem_nil, or_false, not_or] at hout
  refine ⟨(hfr.append hq1.1).append hq2.1, ?_, hq2.2.trans (hq1.2.trans hbhr)⟩
  rw [hq2.1.regs _ (by simp [hout]), hq1.1.regs _ (by simp [hout]), hval]

theorem sensNote_notes (i : Nat) (y : Sensor) : BhrFrame [Reg.bhrSensstat] r.s (r.sensNote i y).s ∧
    (r.sensNote i y).s.bhr = { r.s.bhr with sensors := tset {} i y r.s.bhr.sensors } := by
  rw [Run.sensNote]
  dsimp only
  split
  · exact ⟨(BhrFrame.mapBhr r _).append (.wb _ _ _ _), (wb_bhr ..).trans rfl⟩
  · exact ⟨(BhrFrame.mapBhr r _).mono (List.nil_subset _), rfl⟩

theorem faultEnter_enters (i : Nat) (x : Int) : BhrFrame ([Reg.bhrEvstat] ++ [Reg.bhrLogLost] ++ actionRegs i) r.s (r.faultEnter i x).s ∧
    (r.faultEnter i x).s.bhr.sensors = r.s.bhr.sensors ∧ (r.faultEnter i x).s.rb Reg.bhrEvstat 1 = true ∧
    (asksHold i → (r.faultEnter i x).s.bhr.holdReq = true) ∧
    (i = 25 → (r.s.node = .start ∨ r.s.node = .normal) → (r.faultEnter i x).s.node = .recovery) := by
  let q := r.flag Reg.bhrEvstat 1
  let t := q.log 0x0006 2 [i, uNat 32 x, 2]
  have hq : BhrFrame [Reg.bhrEvstat] r.s q.s := .flag ..
  have h1 : q.s.rb Reg.bhrEvstat 1 = true := flag_rb r (by decide) (bhr_masks.1 1 (by decide))
  have ht : BhrFrame [Reg.bhrLogLost] q.s t.s := log_frame ..
  have hsens : t.s.bhr.sensors = r.s.bhr.sensors := (log_get q BhrSt.sensors (fun _ _ _ => rfl) ..).trans (by rw [flag_bhr])
  obtain ⟨hact, hs, hhold, hnode⟩ := sensAction_acts t i
  have hev : Reg.bhrEvstat ∉ actionRegs i := by rw [actionRegs]; split <;> decide
  have hn : t.s.node = r.s.node := (ht.node (by decide)).trans (hq.node (by decide))
  rw [hn] at hnode
  exact ⟨(hq.append ht).append hact, hs.trans hsens, (hact.rb hev 1).trans ((ht.rb (by decide) 1).trans h1), hhold, hnode⟩

theorem warnEnter_enters (i : Nat) (x : Int) : BhrFrame ([Reg.bhrEvstat] ++ [Reg.bhrLogLost]) r.s (r.warnEnter i x).s ∧
    (r.warnEnter i x).s.bhr.sensors = r.s.bhr.sensors ∧ (r.warnEnter i x).s.bhr.holdReq = r.s.bhr.holdReq ∧
    FlagsKept r.s (r.warnEnter i x).s := by
  have hlog : BhrFrame [Reg.bhrLogLost] (r.flag Reg.bhrEvstat 0).s (r.warnEnter i x).s := log_frame ..
  refine ⟨(BhrFrame.flag r _ _).append hlog, ?_, ?_, (flagsKept_flag r (by decide)).trans (flagsKept_frame hlog (by decide))⟩
  · exact (log_get (r.flag Reg.bhrEvstat 0) BhrSt.sensors (fun _ _ _ => rfl) ..).trans (by rw [flag_bhr])
  · exact (log_get (r.flag Reg.bhrEvstat 0) BhrSt.holdReq (fun _ _ _ => rfl) ..).trans (by rw [flag_bhr])

/-- What entering a fault or a warning leaves and does. -/
theorem sensEnter_enters (i : Nat) (x : Int) (fault warn : Bool) :
    let u := (let q := if fault then r.faultEnter i x else r
      if warn then q.warnEnter i x else q).s
    BhrFrame ([Reg.bhrEvstat, Reg.bhrLogLost] ++ actionRegs i) r.s u ∧ u.bhr.sensors = r.s.bhr.sensors ∧
      (fault = true → u.rb Reg.bhrEvstat 1 = true ∧ (asksHold i → u.bhr.holdReq = true) ∧
        (i = 25 → (r.s.node = .start ∨ r.s.node = .normal) → u.node = .recovery)) ∧
      (fault = false → u.bhr.holdReq = r.s.bhr.holdReq) := by
  have hfault : let q := if fault then r.faultEnter i x else r
      BhrFrame ([Reg.bhrEvstat, Reg.bhrLogLost] ++ actionRegs i) r.s q.s ∧ q.s.bhr.sensors = r.s.bhr.sensors ∧
        (fault = true → q.s.rb Reg.bhrEvstat 1 = true ∧ (asksHold i → q.s.bhr.holdReq = true) ∧
          (i = 25 → (r.s.node = .start ∨ r.s.node = .normal) → q.s.node = .recovery)) ∧
        (fault = false → q.s.bhr.holdReq = r.s.bhr.holdReq) := by
    cases fault
    · exact ⟨.refl _ _, rfl, fun h => (by cases h), fun _ => rfl⟩
    · obtain ⟨hframe, hsens, h1, hhold, hnode⟩ := faultEnter_enters r i x
      exact ⟨hframe, hsens, fun _ => ⟨h1, hhold, hnode⟩, fun h => by cases h⟩
  dsimp only at hfault ⊢
  generalize (if fault = true then r.faultEnter i x else r) = q at hfault
  cases warn
  · exact hfault
  · obtain ⟨hframe, hsens, hyes, hno⟩ := hfault
    obtain ⟨hwf, hws, hwh, hwk⟩ := warnEnter_enters q i x
    refine ⟨hframe.trans (hwf.mono (by simp)), hws.trans hsens, fun h => ?_, fun h => hwh.trans (hno h)⟩
    obtain ⟨h1, hhold, hnode⟩ := hyes h
    exact ⟨hwk 1 (by decide) h1, fun ha => hwh.trans (hhold ha), fun h25 hn => (hwf.node (by decide)).trans (hnode h25 hn)⟩

end

/-! ## SENSOR_SAMPLE -/

variable {s : State} {i : Nat}

theorem sensorSample_idle (x : Int) (h : s.inReset = true ∨ 25 < i) : Answers (.sensorSample i x) s (· = s) := by
  refine Run.answers (Run.start s) ?_ rfl
  change execSensorSample i x s = _
  rw [execSensorSample]
  refine if_pos ?_
  rw [Bool.or_eq_true, decide_eq_true_eq]
  exact h

/-- The condition of a fault of the sensor, as it stands behind the reading. -/
def faultNext (s : State) (i : Nat) (x : Int) : Option Nat × Bool :=
  condNext (s.sensFault i x) (tget {} i s.bhr.sensors : Sensor).faultAt s.cyc (sensFilter i)

/-- The condition of a warning. -/
def warnNext (s : State) (i : Nat) (x : Int) : Option Nat × Bool :=
  condNext (!s.sensFault i x && s.sensWarn i x) (tget {} i s.bhr.sensors : Sensor).warnAt s.cyc (sensFilter i)

/-- The sensor behind the reading. -/
def sensorNext (s : State) (i : Nat) (x : Int) : Sensor :=
  { faultAt := (faultNext s i x).1, fault := (faultNext s i x).2, warnAt := (warnNext s i x).1, warn := (warnNext s i x).2 }

theorem exec_sensorSample (x : Int) (hr : s.inReset = false) (hi : i ≤ 25) : ∃ hot warm : Bool, exec (.sensorSample i x) s =
    (let q := ((Run.start s).sensShow i x hot warm).sensNote i (sensorNext s i x)
     let q := if (faultNext s i x).2 && !(tget {} i s.bhr.sensors : Sensor).fault then q.faultEnter i x else q
     if (warnNext s i x).2 && !(tget {} i s.bhr.sensors : Sensor).warn then q.warnEnter i x else q).done := by
  refine ⟨decide ((s.rf Reg.bhrLimit 7 0 * 16 : Nat) ≤ x), decide (85 * 16 < x), ?_⟩
  have hgo : ¬(s.inReset || decide (25 < i)) = true := by simp [hr, hi]
  change execSensorSample i x s = _
  rw [execSensorSample]
  exact if_neg hgo

/-- A fault is entered with this reading. -/
def faultEnters (s : State) (i : Nat) (x : Int) : Prop :=
  s.sensFault i x = true ∧ (tget {} i s.bhr.sensors : Sensor).faultAt.getD s.cyc + sensFilter i ≤ s.cyc

theorem sensorNext_fault (s : State) (i : Nat) (x : Int) : (sensorNext s i x).fault = true ↔ faultEnters s i x := condNext_entered

/-- While a fault is met no warning is. -/
theorem sensorNext_warnAt {x : Int} (h : s.sensFault i x = true) : (sensorNext s i x).warnAt = none := by
  rw [sensorNext, warnNext, h]
  rfl

/-- The registers of a sample. -/
def sampleRegs (i : Nat) : List Nat :=
  [sensorReg i, Reg.bhrSensstat, Reg.meshDdrStat, Reg.bhrEvstat, Reg.bhrLogLost, if i = 25 then Reg.bhrStat else Reg.bhrEvstat]

theorem actionRegs_subset (i : Nat) : [Reg.bhrEvstat, Reg.bhrLogLost] ++ actionRegs i ⊆ sampleRegs i := by
  rw [actionRegs, sampleRegs]
  split <;> simp

theorem sensorReg_not_action (hi : i < 26) : sensorReg i ∉ [Reg.bhrEvstat, Reg.bhrLogLost] ++ actionRegs i := by
  have hout := sensorReg_apart i hi
  simp only [List.mem_cons, List.not_mem_nil, or_false, not_or] at hout
  obtain ⟨-, -, hev, hlost, hstat⟩ := hout
  rw [actionRegs]
  split <;> simp only [List.mem_append, List.mem_cons, List.not_mem_nil, or_false, not_or] <;> tauto

/-- What a sample leaves and does (R577, R578). -/
theorem sensorSample_taken (x : Int) (hr : s.inReset = false) (hi : i ≤ 25) : Answers (.sensorSample i x) s fun u =>
    BhrFrame (sampleRegs i) s u ∧ (u.rget (sensorReg i)).toNat = uNat (sensorWidth i) x ∧
      (tget {} i u.bhr.sensors : Sensor) = sensorNext s i x ∧
      (faultEnters s i x → (tget {} i s.bhr.sensors : Sensor).fault = false → u.rb Reg.bhrEvstat 1 = true ∧
        (asksHold i → u.bhr.holdReq = true) ∧ (i = 25 → (s.node = .start ∨ s.node = .normal) → u.node = .recovery)) ∧
      (¬faultEnters s i x → u.bhr.holdReq = s.bhr.holdReq) := by
  obtain ⟨hot, warm, hex⟩ := exec_sensorSample x hr hi
  have hout := sensorReg_apart i (by omega)
  obtain ⟨hshow, hval, hbhr⟩ := sensShow_shows (Run.start s) (i := i) (by omega) x hot warm
  generalize (Run.start s).sensShow i x hot warm = q at hex hshow hval hbhr
  obtain ⟨hnote, hsens⟩ := sensNote_notes q i (sensorNext s i x)
  generalize q.sensNote i (sensorNext s i x) = t at hex hnote hsens
  have hbefore : BhrFrame ([sensorReg i, Reg.bhrSensstat, Reg.meshDdrStat] ++ [Reg.bhrSensstat]) s t.s := hshow.append hnote
  have hst : Reg.bhrStat ∉ [sensorReg i, Reg.bhrSensstat, Reg.meshDdrStat] ++ [Reg.bhrSensstat] := by
    simp only [List.mem_cons, List.not_mem_nil, or_false, not_or] at hout
    simp only [List.mem_append, List.mem_cons, List.not_mem_nil, or_false, not_or]
    exact ⟨⟨fun h => hout.2.2.2.2 h.symm, by decide, by decide⟩, by decide⟩
  have hnode := hbefore.node hst
  have hy : (tget {} i t.s.bhr.sensors : Sensor) = sensorNext s i x := by rw [hsens]; exact tget_tset_same ..
  have hhold : t.s.bhr.holdReq = s.bhr.holdReq := by rw [hsens, hbhr]; rfl
  have hval' : (t.s.rget (sensorReg i)).toNat = uNat (sensorWidth i) x := by
    rw [hnote.regs _ fun h => hout (List.mem_cons.2 (.inl (List.mem_singleton.1 h))), hval]
  obtain ⟨henter, hsame, hyes, hno⟩ := sensEnter_enters t i x ((faultNext s i x).2 && !(tget {} i s.bhr.sensors : Sensor).fault)
    ((warnNext s i x).2 && !(tget {} i s.bhr.sensors : Sensor).warn)
  rw [hnode] at hyes
  refine Run.answers _ hex ⟨?_, ?_, ?_, fun hin hq => ?_, fun hin => ?_⟩
  · exact (hbefore.mono (by simp [sampleRegs])).trans (henter.mono (actionRegs_subset i))
  · exact (congrArg BitVec.toNat (henter.regs _ (sensorReg_not_action (by omega)))).trans hval'
  · rw [hsame, hy]
  · have hnext : (faultNext s i x).2 = true := (sensorNext_fault s i x).2 hin
    exact hyes (by rw [hnext, hq]; rfl)
  · have hnext : (faultNext s i x).2 = false := Bool.eq_false_iff.2 fun h => hin ((sensorNext_fault s i x).1 h)
    exact (hno (by rw [hnext]; rfl)).trans hhold

end Sys2Proof.Machine
end

section
/-!
PROOFS. LOAD: what it leaves of Chamois and of the clock, the change to START, and the cold reset of a mismatch (O58).
-/
namespace Sys2Proof.Machine

variable {s₀ : State} (r : Run s₀)

/-! ## Parts that leave Chamois on and the clock -/

/-- Chamois is on or off as before, and the clock stands as before. -/
def OnKept (s u : State) : Prop := u.chm.on = s.chm.on ∧ u.cyc = s.cyc

theorem OnKept.refl (s : State) : OnKept s s := ⟨rfl, rfl⟩

theorem OnKept.trans {s t u : State} (h : OnKept s t) (g : OnKept t u) : OnKept s u := ⟨g.1.trans h.1, g.2.trans h.2⟩

theorem wr_onKept (a v : Nat) : OnKept r.s (r.wr a v).s := ⟨rfl, rfl⟩
theorem wf_onKept (a hi lo x : Nat) : OnKept r.s (r.wf a hi lo x).s := ⟨rfl, rfl⟩
theorem wb_onKept (a i : Nat) (b : Bool) : OnKept r.s (r.wb a i b).s := ⟨rfl, rfl⟩
theorem flag_onKept (a i : Nat) : OnKept r.s (r.flag a i).s := ⟨rfl, rfl⟩
theorem count_onKept (a hi lo : Nat) : OnKept r.s (r.count a hi lo).s := ⟨rfl, rfl⟩
theorem eccClear_onKept (w : Nat) : OnKept r.s (r.eccClear w).s := ⟨rfl, rfl⟩
theorem memErr_onKept : OnKept r.s r.memErr.s := ⟨rfl, rfl⟩
theorem setChmAx_onKept (n : Nat) (x : ChmAx) : OnKept r.s (r.setChmAx n x).s := ⟨rfl, rfl⟩
theorem setChmOut_onKept (k : Nat) (x : ChmOut) : OnKept r.s (r.setChmOut k x).s := ⟨rfl, rfl⟩

theorem le_onKept (x : LeSt) : OnKept r.s (r.up (.le x)).s := ⟨rfl, rfl⟩

theorem mapChm_onKept {f : ChmSt → ChmSt} (hf : ∀ t, (f t).on = t.on) : OnKept r.s (r.mapChm f).s := ⟨hf _, rfl⟩

/-- What every round of a loop keeps, the loop keeps. -/
theorem each_onKept {α : Type} {l : List α} {f : Run s₀ → α → Run s₀} (h : ∀ q a, OnKept q.s (f q a).s) : OnKept r.s (r.each l f).s :=
  each_ind (P := fun q : Run s₀ => OnKept r.s q.s) (fun q a _ hq => hq.trans (h q a)) (.refl r.s)

theorem frame_onKept {l : List Nat} {s u : State} (h : BhrFrame l s u) : OnKept s u := ⟨by rw [h.chm], h.cyc⟩

/-! ### Memory -/

theorem eccCorrect_onKept (w : Nat) : OnKept r.s (r.eccCorrect w).s := by
  have hclear := eccClear_onKept r w
  rw [Run.eccCorrect]
  split
  · exact (hclear.trans (count_onKept ..)).trans (flag_onKept ..)
  · exact hclear.trans (flag_onKept ..)
  · exact (hclear.trans (count_onKept ..)).trans (flag_onKept ..)

theorem setSig_onKept (i : Nat) (g : Sig) : OnKept r.s (r.setSig i g).s := ⟨rfl, rfl⟩

theorem opFinId_onKept (id : Nat) (st : Status) (cause : Nat) (res : List Byte) : OnKept r.s (r.opFinId id st cause res).s := by
  rw [Run.opFinId]
  split
  · exact .refl r.s
  split
  · exact .refl r.s
  · exact ⟨rfl, rfl⟩

theorem endWatches_onKept (i : Nat) (st : Status) (cause : Nat) : OnKept r.s (r.endWatches i st cause).s := by
  rw [Run.endWatches]
  refine OnKept.trans ?_ (each_onKept _ fun q w => opFinId_onKept q ..)
  exact ⟨rfl, rfl⟩

theorem sigEcc_onKept (i : Nat) : OnKept r.s (r.sigEcc i).s := by
  have hclean (q : Run s₀) (l : List (Nat × EccKind)) :
      OnKept q.s (q.each l fun r e => if e.2 == .single then (r.eccClear e.1).flag Reg.sigEvstat 6 else r).s :=
    each_onKept q fun q e => by
      split
      · exact (eccClear_onKept q e.1).trans (flag_onKept ..)
      · exact .refl q.s
  have hclear (q : Run s₀) (w : Nat) (l : List Nat) : OnKept q.s (q.memErr.each l fun r k => r.eccClear (w + k)).s :=
    (memErr_onKept q).trans (each_onKept _ fun q k => eccClear_onKept q _)
  rw [Run.sigEcc]
  split
  · exact .refl r.s
  dsimp only
  split
  · exact hclean ..
  split
  · refine OnKept.trans ?_ (((setSig_onKept _ ..).trans (wr_onKept _ ..)).trans ((endWatches_onKept _ ..).trans (flag_onKept _ ..)))
    exact (hclean ..).trans (hclear ..)
  · refine OnKept.trans ?_ (setSig_onKept _ ..)
    exact (hclean ..).trans (hclear ..)

theorem eccFatal_onKept (w : Nat) : OnKept r.s (r.eccFatal w).s := by
  have hmem := memErr_onKept r
  fun_cases Run.eccFatal r w
  · refine OnKept.trans ?_ (le_onKept _ _)
    exact hmem.trans (((wr_onKept _ ..).trans (flag_onKept _ ..)).trans (flag_onKept _ ..))
  · exact hmem.trans (((wr_onKept _ ..).trans (flag_onKept _ ..)).trans (flag_onKept _ ..))
  · exact hmem.trans ((sigEcc_onKept _ _).trans (flag_onKept _ ..))
  · exact hmem.trans (((wr_onKept _ ..).trans (wr_onKept _ ..)).trans (flag_onKept _ ..))

theorem putBytes_onKept (a : Nat) (d : List Byte) : OnKept r.s (r.putBytes a d).s := by
  rw [putBytes_s]
  exact .refl r.s

theorem accErr_onKept (port a : Nat) (wr : Bool) (st : Status) : OnKept r.s (r.accErr port a wr st).s := by
  have h := accErr_onlyRegs r (port := port) (a := a) wr st
  rw [h.1]
  exact .refl r.s

theorem memWrite_onKept (port a : Nat) (d : List Byte) : OnKept r.s (r.memWrite port a d).1.s := by
  rw [Run.memWrite]
  split
  · exact .refl r.s
  split
  · dsimp only
    split
    · exact each_onKept r fun q e => eccFatal_onKept q e.1
    · have hcorrect : ∀ (q : Run s₀) (e : Nat × EccKind),
          OnKept q.s (if partialWord a d.length e.1 = true then q.eccCorrect e.1 else q.eccClear e.1).s := fun q e => by
        split
        · exact eccCorrect_onKept q e.1
        · exact eccClear_onKept q e.1
      have heach := each_onKept r (l := r.s.eccIn a d.length) hcorrect
      split
      · exact heach
      · exact heach.trans (putBytes_onKept _ a d)
  · exact accErr_onKept r ..

theorem imemLoad_onKept (n off : Nat) (d : List Byte) : OnKept r.s (r.imemLoad n off d).s := memWrite_onKept ..

theorem userLoad_onKept (d : List Byte) : OnKept r.s (r.userLoad d).s := by
  rw [Run.userLoad]
  refine OnKept.trans (each_onKept r fun q n => imemLoad_onKept q ..) (each_onKept _ fun q t => ?_)
  exact (wr_onKept q ..).trans (wr_onKept _ ..)

theorem ddrLoad_onKept (x : DdrBoard) : OnKept r.s (r.ddrLoad x).s := by
  rw [Run.ddrLoad]
  split
  · exact .refl r.s
  split
  · exact (flag_onKept r ..).trans (frame_onKept (log_frame ..))
  · exact (wr_onKept r ..).trans (wr_onKept _ ..)

/-! ### Chamois (R485, R487) -/

theorem chmDrive_onKept (cmdT cmdS : Nat) : OnKept r.s (r.chmDrive cmdT cmdS).s := by
  rw [Run.chmDrive]
  refine OnKept.trans ?_ (((wf_onKept _ ..).trans (wr_onKept _ ..)).trans (wr_onKept _ ..))
  refine OnKept.trans ?_ (each_onKept _ fun q k => setChmOut_onKept q ..)
  refine OnKept.trans ?_ (each_onKept _ fun q n => setChmAx_onKept q ..)
  exact ⟨rfl, rfl⟩

theorem chmUse_onKept (l : List Byte) : OnKept r.s (r.chmUse l).s := by
  rw [Run.chmUse]
  refine OnKept.trans ?_ (chmDrive_onKept _ 0 0)
  refine OnKept.trans ?_ (each_onKept _ fun q n => wr_onKept q ..)
  refine OnKept.trans ?_ ((wr_onKept _ ..).trans (wr_onKept _ ..))
  refine OnKept.trans ?_ ((wr_onKept _ ..).trans (flag_onKept _ ..))
  refine OnKept.trans ?_ (mapChm_onKept _ fun _ => rfl)
  refine OnKept.trans ?_ ((wb_onKept _ ..).trans (wf_onKept _ ..))
  exact (each_onKept r fun q n => wr_onKept q ..).trans (wr_onKept _ ..)

/-- Bharal starts Chamois. -/
theorem chmBoot_on : r.chmBoot.s.chm.on = true ∧ r.chmBoot.s.cyc = r.s.cyc := by
  let q := r.mapChm fun t => { t with on := true, hbAt := r.s.cyc, cycAt := r.s.cyc }
  have hq : OnKept q.s r.chmBoot.s := by
    rw [Run.chmBoot]
    split
    · exact chmUse_onKept q _
    · exact chmDrive_onKept q 0 0
  exact ⟨hq.1, hq.2⟩

/-! ## LOAD ends in START (R594) -/

theorem wb_chm (a i : Nat) (b : Bool) : (r.wb a i b).s.chm = r.s.chm := rfl

/-- Threads that start leave Bharal, Chamois and the node state. -/
theorem autostart_kept : r.autostart.s.bhr = r.s.bhr ∧ r.autostart.s.chm = r.s.chm ∧
    r.autostart.s.rget Reg.bhrStat = r.s.rget Reg.bhrStat := by
  rw [Run.autostart]
  refine each_ind (P := fun q : Run s₀ => q.s.bhr = r.s.bhr ∧ q.s.chm = r.s.chm ∧ q.s.rget Reg.bhrStat = r.s.rget Reg.bhrStat)
    (fun q t ht hq => ?_) ⟨rfl, rfl, rfl⟩
  split
  · obtain ⟨hbhr, hchm, hstat⟩ := hq
    have hne : Reg.bhrStat ≠ Reg.spFaultedLo + 4 * (t / 32) := by
      have := List.mem_range.1 ht
      simp only [Reg.bhrStat, Reg.spFaultedLo]
      omega
    rw [Run.threadStartNew, Run.threadStart, Run.threadBit]
    exact ⟨(wb_bhr ..).trans hbhr, (wb_chm ..).trans hchm, (rget_reg_ne hne _).trans hstat⟩
  · exact hq

section
variable {s : State}

theorem loadDone_idle (bad : Bool) (ddr : DdrBoard) (h : s.node ≠ .load ∨ s.inReset = true) : Answers (.loadDone bad ddr) s (· = s) := by
  refine Run.answers (Run.start s) ?_ rfl
  change execLoadDone bad ddr s = _
  rw [execLoadDone]
  exact if_pos h

/-- The components are in place, and Chamois runs, when the node enters START. -/
theorem loadDone_goes (hn : s.node = .load) (hr : s.inReset = false) (ddr : DdrBoard) : ∃ q : Run s,
    exec (.loadDone false ddr) s = (q.nodeTo .start .loaded).autostart.done ∧ q.s.chm.on = true ∧ q.s.cyc = s.cyc := by
  have hgo : ¬(s.node ≠ .load ∨ s.inReset = true) := by rw [hn, hr]; decide
  obtain ⟨hon, hcyc⟩ := chmBoot_on (Run.start s)
  change ∃ q : Run s, execLoadDone false ddr s = _ ∧ _
  rw [execLoadDone, if_neg hgo, if_neg Bool.false_ne_true]
  refine ⟨_, rfl, ?_⟩
  suffices h : OnKept (Run.start s).chmBoot.s _ from ⟨h.1.trans hon, h.2.trans hcyc⟩
  refine OnKept.trans ?_ (ddrLoad_onKept _ ddr)
  generalize (Run.start s).chmBoot = q
  generalize pkgFind (q.s.slotPkg s.bootSlot 0) 6 = image
  cases image with
  | none =>
    dsimp only
    generalize (if recNat (q.s.slotRec s.bootSlot) 32 8 = 0 then none else pkgFind (q.s.slotPkg s.bootSlot 1) 7) = user
    cases user
    · exact .refl q.s
    · exact userLoad_onKept q _
  | some d =>
    dsimp only
    obtain ⟨t, ht⟩ : ∃ t : Run s, (q.each (List.range 8) fun r n => r.imemLoad n 0x30000 (d.take 0x10000)) = t := ⟨_, rfl⟩
    have himage : OnKept q.s t.s := ht ▸ each_onKept q fun q n => imemLoad_onKept q ..
    simp only [ht]
    generalize (if recNat (t.s.slotRec s.bootSlot) 32 8 = 0 then none else pkgFind (t.s.slotPkg s.bootSlot 1) 7) = user
    cases user
    · exact himage
    · exact himage.trans (userLoad_onKept t _)

theorem loadDone_mismatch (hn : s.node = .load) (hr : s.inReset = false) (ddr : DdrBoard) : exec (.loadDone true ddr) s =
    (((Run.start s).mapBhr fun x => { x with badSlot := some s.bootSlot }).coldReset 4).done := by
  have hgo : ¬(s.node ≠ .load ∨ s.inReset = true) := by rw [hn, hr]; decide
  change execLoadDone true ddr s = _
  rw [execLoadDone, if_neg hgo, if_pos rfl]

/-- LOAD ends in START with Chamois on (R594). -/
theorem loadDone_starts (hn : s.node = .load) (hr : s.inReset = false) (ddr : DdrBoard) : Answers (.loadDone false ddr) s fun u =>
    u.node = .start ∧ u.chm.on = true ∧ u.bhr.startAt = s.cyc := by
  obtain ⟨q, hex, hon, hcyc⟩ := loadDone_goes hn hr ddr
  obtain ⟨hset, hnode, hat⟩ := nodeTo_start_starts q .loaded
  generalize q.nodeTo .start .loaded = t at hset hnode hat hex
  obtain ⟨hbhr, hchm, hstat⟩ := autostart_kept t
  refine Run.answers _ hex ⟨?_, ?_, ?_⟩
  · rw [State.node, State.rf, hstat]
    exact hnode
  · rw [hchm, hset.chm, hon]
  · rw [hbhr, hat, hcyc]

end

/-! ## The cold reset of a mismatch (R617, R619) -/

theorem saveAxes_kept : r.saveAxes.s.bhr = r.s.bhr ∧ r.saveAxes.s.cyc = r.s.cyc := by
  rw [Run.saveAxes]
  refine each_ind (P := fun q : Run s₀ => q.s.bhr = r.s.bhr ∧ q.s.cyc = r.s.cyc) (fun q n _ hq => ?_) ⟨rfl, rfl⟩
  have hwr (a v b w : Nat) : ((q.wr a v).wr b w).s.bhr = r.s.bhr ∧ ((q.wr a v).wr b w).s.cyc = r.s.cyc := hq
  split
  · exact hwr ..
  · exact hwr ..

theorem wipe_kept (keep : List (Nat × Nat)) : (r.wipe keep).s.bhr = r.s.bhr.kept ∧ (r.wipe keep).s.cyc = r.s.cyc := by
  constructor <;> simp [Run.wipe]

/-- The low half of RST_CAUSE, of which the high half is reserved. -/
theorem wf_rstCause (x : Nat) : ((r.wf Reg.rstCause 15 0 x).s.rget Reg.rstCause).toNat = x % 2 ^ 16 := by
  have hmask : implMask Reg.rstCause = BitVec.ofNat 32 (2 ^ 16 - 1) ∧ ∀ i, 0 ≤ i → i ≤ 15 → bit (implMask Reg.rstCause).toNat i = true := by
    decide +kernel
  have hfield := wf_rf_same r (a := Reg.rstCause) (hi := 15) (lo := 0) (by decide) (by decide) x hmask.2
  rw [State.rf, fld, bits_eq_div, Nat.pow_zero, Nat.div_one] at hfield
  rw [← hfield, Nat.mod_eq_of_lt]
  rw [wf_s, rget_reg_same, hmask.1, BitVec.toNat_and]
  exact Nat.and_lt_two_pow _ (by decide)

/-- The cause and the count of a cold reset, recorded in the registers that it keeps. -/
def Run.resetNoted (r : Run s₀) (src : Nat) : Run s₀ :=
  ((r.wf Reg.rstCause 15 0 (src <<< 8)).count Reg.rstCount 31 16).wf Reg.rstCount 15 0 0

theorem coldReset_eq (src : Nat) : r.coldReset src =
    let q := (r.saveAxes.wipe coldKeep).resetNoted src
    q.up (.pwr { q.s.pwr with coldUntil := some (q.s.cyc + usCyc 100), coldSrc := src, coldNode := r.s.node.code }) := rfl

theorem resetNoted_notes (src : Nat) : (r.resetNoted src).s.bhr = r.s.bhr ∧ (r.resetNoted src).s.cyc = r.s.cyc ∧
    ((r.resetNoted src).s.rget Reg.rstCause).toNat = src <<< 8 % 2 ^ 16 := by
  refine ⟨rfl, rfl, ?_⟩
  have hne : Reg.rstCause ≠ Reg.rstCount := by decide
  rw [Run.resetNoted, Run.count, wf_other _ hne, wf_other _ hne]
  exact wf_rstCause r _

theorem pwr_kept (x : PwrSt) : (r.up (.pwr x)).s.bhr = r.s.bhr ∧ (r.up (.pwr x)).s.pwr = x ∧
    ∀ a, (r.up (.pwr x)).s.rget a = r.s.rget a := ⟨rfl, rfl, fun _ => rfl⟩

/-- A cold reset holds the device for 100 µs, keeps what Bharal stores and records its source. -/
theorem coldReset_holds (src : Nat) : (r.coldReset src).s.pwr.coldUntil = some (r.s.cyc + usCyc 100) ∧
    (r.coldReset src).s.bhr = r.s.bhr.kept ∧ ((r.coldReset src).s.rget Reg.rstCause).toNat = src <<< 8 % 2 ^ 16 := by
  obtain ⟨haxBhr, haxCyc⟩ := saveAxes_kept r
  obtain ⟨hwipeBhr, hwipeCyc⟩ := wipe_kept r.saveAxes coldKeep
  obtain ⟨hbhr, hcyc, hcause⟩ := resetNoted_notes (r.saveAxes.wipe coldKeep) src
  rw [coldReset_eq]
  generalize (r.saveAxes.wipe coldKeep).resetNoted src = q at hbhr hcyc hcause ⊢
  obtain ⟨hpwrBhr, hpwr, hreg⟩ := pwr_kept q { q.s.pwr with
    coldUntil := some (q.s.cyc + usCyc 100), coldSrc := src, coldNode := r.s.node.code }
  refine ⟨?_, ?_, ?_⟩
  · rw [hpwr, ← haxCyc, ← hwipeCyc, ← hcyc]
  · rw [hpwrBhr, hbhr, hwipeBhr, haxBhr]
  · rw [hreg, hcause]

/-- A bundle that does not match is remembered as bad, and a cold reset follows (R594). -/
theorem loadDone_resets {s : State} (hn : s.node = .load) (hr : s.inReset = false) (ddr : DdrBoard) :
    Answers (.loadDone true ddr) s fun u =>
      u.pwr.coldUntil = some (s.cyc + usCyc 100) ∧ u.bhr.badSlot = some s.bootSlot ∧ (u.rget Reg.rstCause).toNat = 2 ^ 10 := by
  obtain ⟨hpwr, hbhr, hcause⟩ := coldReset_holds ((Run.start s).mapBhr fun x => { x with badSlot := some s.bootSlot }) 4
  refine Run.answers _ (loadDone_mismatch hn hr ddr) ⟨hpwr, ?_, hcause⟩
  rw [hbhr]
  rfl

end Sys2Proof.Machine
end

section
/-!
PROOFS. Sensors, records, boot and load, and the commands of the BHR unit: the statement (O58).
-/
namespace Sys2Proof.Machine

section
variable {s : State} {id : Option Nat} {w : BhrWho} {d : List Byte}

/-- A sample kept, with the filter time of its fault spelled out (R577). -/
theorem sensorSample_kept {i : Nat} (x : Int) (hr : s.inReset = false) (hi : i ≤ 25) : Answers (.sensorSample i x) s fun u =>
    MemKept s u ∧ u.sp = s.sp ∧ RegsKept s u (sampleRegs i) ∧ (u.rget (sensorReg i)).toNat = uNat (sensorWidth i) x ∧
      (let y : Sensor := tget {} i u.bhr.sensors
       y.faultAt = (if s.sensFault i x = true then some ((tget {} i s.bhr.sensors : Sensor).faultAt.getD s.cyc) else none) ∧
        (y.fault = true ↔ faultEnters s i x) ∧ (s.sensFault i x = true → y.warnAt = none)) ∧
      (faultEnters s i x → (tget {} i s.bhr.sensors : Sensor).fault = false → u.rb Reg.bhrEvstat 1 = true ∧
        (asksHold i → u.bhr.holdReq = true) ∧ (i = 25 → (s.node = .start ∨ s.node = .normal) → u.node = .recovery)) ∧
      (¬faultEnters s i x → u.bhr.holdReq = s.bhr.holdReq) := by
  refine (sensorSample_taken x hr hi).imp fun u ⟨hframe, hword, hsensor, henters, hnot⟩ => ?_
  refine ⟨hframe.memKept, hframe.sp, hframe.regs, hword, ?_, henters, hnot⟩
  rw [hsensor]
  exact ⟨condNext_since .., sensorNext_fault s i x, sensorNext_warnAt⟩

/-- A row of code 4 or more meets a command that runs with BUSY. -/
theorem bhrRow_meets {c : Instr} {code : Nat} {act : Run s → BhrWho → List Byte → Run s}
    (hex : exec c s = ((Run.start s).bhrRow id code act).done) (hcode : 3 < code) :
    BhrAsks s id w d code → s.bhr.running ≠ none → Answers c s (bhrRefusal s w .busy 0) :=
  fun h hb => bhr_busy hex h hcode hb

/-- The commands that run alone, with their codes. -/
noncomputable def bhrAlone (id : Option Nat) : List (Nat × Instr) :=
  [(4, .bhrLogwrite id), (5, .bhrChallenge id), (6, .bhrAuth id), (7, .bhrCalread id), (8, .bhrCalwrite id),
    (9, .bhrInstall id), (10, .bhrActivate ⟨id, false⟩), (10, .bhrActivate ⟨id, true⟩), (11, .bhrCampaign id), (12, .bhrClose id),
    (13, .bhrSvbump id), (14, .bhrKeyprog id), (15, .bhrState id)]

theorem bhrAlone_busy : ∀ p ∈ bhrAlone id, BhrAsks s id w d p.1 → s.bhr.running ≠ none → Answers p.2 s (bhrRefusal s w .busy 0) := by
  simp only [bhrAlone, List.forall_mem_cons, List.not_mem_nil, false_implies, implies_true, and_true]
  exact ⟨bhrRow_meets (act := Run.actLogwrite) rfl (by decide), bhrRow_meets (act := Run.actChallenge) rfl (by decide),
    bhrRow_meets (act := Run.actAuth) rfl (by decide), bhrRow_meets (act := Run.actCalread) rfl (by decide),
    bhrRow_meets (act := Run.actCalwrite) rfl (by decide), bhrRow_meets (act := Run.actInstall) rfl (by decide),
    bhrRow_meets (act := Run.actActivate false) rfl (by decide), bhrRow_meets (act := Run.actActivate true) rfl (by decide),
    bhrRow_meets (act := Run.actCampaign) rfl (by decide), bhrRow_meets (act := Run.actClose) rfl (by decide),
    bhrRow_meets (act := Run.actSvbump) rfl (by decide), bhrRow_meets (act := Run.actKeyprog) rfl (by decide),
    bhrRow_meets (act := Run.actState) rfl (by decide)⟩

end

/-- Settles O58, from a lemma for each part of Bharal's work and for each command. A command's lemma speaks of both
callers: its operation or the host that asks, and what it leaves is told by the registers that changed. -/
theorem bharalAtWork : Obligations.BharalAtWork := by
  unfold Obligations.BharalAtWork
  intro s _
  refine ⟨fun i x h => sensorSample_idle x h, fun i x hr hi => sensorSample_kept x hr hi, ⟨heartbeat_idle, heartbeat_sent⟩,
    ⟨logRecordWrite_idle, fun x rest hq hr he hw hl hn => logRecordWrite_writes hq hr he hw hl hn⟩, logRec_layout, bootDone_idle,
    bootDone_fawn, loadDone_idle, fun ddr hn hr => loadDone_starts hn hr ddr, fun ddr hn hr => loadDone_resets hn hr ddr,
    ⟨startTimeout_idle, startTimeout_recovers⟩, nonceExpiry_idle, fun n t h ht => nonceExpiry_expires h ht, fun id w d => ?_⟩
  exact ⟨bhrAlone_busy, bhrStatus_answers, bhrSensors_answers, bhrLogread_answers, bhrLogwrite_answers, bhrChallenge_answers,
    bhrAuth_answers, bhrCalread_answers, bhrCalwrite_answers, bhrSvbump_answers, bhrKeyprog_answers, bhrState_answers,
    bhrActivate_answers⟩

end Sys2Proof.Machine
end


section
/-!
PROOFS. The time block: frames of what changes it, the rules of its bases, and the masks of its registers.
-/
namespace Sys2Proof.Machine

/-! ## Frames -/

section
variable {s t u : State} {l m : List Nat}

theorem RegsKept.rb (h : RegsKept s u l) {a : Nat} (ha : a ∉ l) (i : Nat) : u.rb a i = s.rb a i := by
  rw [State.rb, h a ha, State.rb]

theorem RegsKept.rf (h : RegsKept s u l) {a : Nat} (ha : a ∉ l) (hi lo : Nat) : u.rf a hi lo = s.rf a hi lo := by
  rw [State.rf, h a ha, State.rf]

/-- The second state differs from the first in the time block and in registers of a list only. -/
def OnlyTime (s u : State) (l : List Nat) : Prop := u = { s with regs := u.regs, time := u.time } ∧ RegsKept s u l

theorem OnlyRegs.onlyTime (h : OnlyRegs s u l) : OnlyTime s u l := by
  refine ⟨?_, h.2⟩
  rw [h.time]; exact h.1

theorem OnlyTime.trans (h : OnlyTime s t l) (g : OnlyTime t u l) : OnlyTime s u l := by
  refine ⟨?_, h.2.trans g.2⟩
  rw [g.1, h.1]

theorem OnlyTime.mono (h : OnlyTime s u l) (hl : l ⊆ m) : OnlyTime s u m := ⟨h.1, h.2.mono hl⟩

theorem OnlyTime.regsKept (h : OnlyTime s u l) : RegsKept s u l := h.2

theorem OnlyTime.memKept (h : OnlyTime s u l) : MemKept s u := fun a => by rw [h.1]; rfl

theorem OnlyTime.op (h : OnlyTime s u l) (id : Nat) : u.op id = s.op id := by rw [h.1]; rfl

theorem OnlyTime.cyc (h : OnlyTime s u l) : u.cyc = s.cyc := by rw [h.1]

/-- What such a change keeps of memory, the sequence processors and the commits. -/
theorem OnlyTime.kept (h : OnlyTime s u l) : MemKept s u ∧ u.sp = s.sp ∧ u.commits = s.commits :=
  ⟨h.memKept, by rw [h.1], by rw [h.1]⟩

theorem OnlyRegs.kept (h : OnlyRegs s u l) : MemKept s u ∧ u.sp = s.sp ∧ u.commits = s.commits := h.onlyTime.kept

theorem OnlyRegs.base (h : OnlyRegs s u l) (n : Nat) : u.base n = s.base n := by rw [State.base, h.time, State.base]

theorem OnlyRegs.rb (h : OnlyRegs s u l) {a : Nat} (ha : a ∉ l) (i : Nat) : u.rb a i = s.rb a i := h.2.rb ha i

theorem OnlyRegs.rf (h : OnlyRegs s u l) {a : Nat} (ha : a ∉ l) (hi lo : Nat) : u.rf a hi lo = s.rf a hi lo := h.2.rf ha hi lo

end

variable {s₀ : State} (r : Run s₀)

/-! ## Bases -/

theorem mapTime_onlyTime (f : TimeSt → TimeSt) (l : List Nat) : OnlyTime r.s (r.mapTime f).s l := ⟨rfl, fun _ _ => rfl⟩

theorem setBase_onlyTime (n : Nat) (b : Base) (l : List Nat) : OnlyTime r.s (r.setBase n b).s l := mapTime_onlyTime ..

@[simp] theorem setBase_same (n : Nat) (b : Base) : (r.setBase n b).s.base n = b := tget_tset_same ..

theorem setBase_ne {n j : Nat} (h : j ≠ n) (b : Base) : (r.setBase n b).s.base j = r.s.base j := tget_tset_ne _ _ h ..

/-- The second state differs from the first in base `n`, which is `b` there, and in registers of a list only. -/
structure BaseSet (s u : State) (n : Nat) (b : Base) (l : List Nat) : Prop where
  only : OnlyTime s u l
  same : u.base n = b
  others : ∀ j, j ≠ n → u.base j = s.base j
  grids : u.time.grids = s.time.grids

theorem setBase_sets (n : Nat) (b : Base) (l : List Nat) : BaseSet r.s (r.setBase n b).s n b l :=
  ⟨setBase_onlyTime r n b l, setBase_same r n b, fun _ hj => setBase_ne r hj b, rfl⟩

/-- Registers written after the base has been set. -/
theorem BaseSet.then {s t u : State} {n : Nat} {b : Base} {l : List Nat} (h : BaseSet s t n b l) (g : OnlyRegs t u l) :
    BaseSet s u n b l :=
  ⟨h.only.trans g.onlyTime, (g.base n).trans h.same, fun j hj => (g.base j).trans (h.others j hj), by rw [g.time, h.grids]⟩

/-- Registers written before the base is set. -/
theorem BaseSet.after {s t u : State} {n : Nat} {b : Base} {l : List Nat} (h : BaseSet t u n b l) (g : OnlyRegs s t l) :
    BaseSet s u n b l :=
  ⟨g.onlyTime.trans h.only, h.same, fun j hj => (h.others j hj).trans (g.base j), by rw [h.grids, g.time]⟩

/-- The base set twice. -/
theorem BaseSet.again {s t u : State} {n : Nat} {b c : Base} {l : List Nat} (h : BaseSet s t n b l) (g : BaseSet t u n c l) :
    BaseSet s u n c l :=
  ⟨h.only.trans g.only, g.same, fun j hj => (g.others j hj).trans (h.others j hj), g.grids.trans h.grids⟩

/-! ## Masks -/

theorem timeEvstat_mask : ∀ i < 8, bit (implMask Reg.timeEvstat).toNat i = true := by decide +kernel

theorem timeStat_mask : ∀ i ∈ [0, 1, 2, 3, 29, 30, 31], bit (implMask Reg.timeStat).toNat i = true := by decide +kernel

theorem timeCtrl_mask : bit (implMask Reg.timeCtrl).toNat 0 = true := by decide +kernel

theorem clkStat_mask : bit (implMask Reg.clkStat).toNat 1 = true := by decide +kernel

theorem adjctl_mask : ∀ n < 8, ∀ i < 32, i = 16 ∨ 24 ≤ i → bit (implMask (Reg.timeTbAdjctl n)).toNat i = true := by decide +kernel

theorem incHi_mask : ∀ n < 8, implMask (Reg.timeTbIncHi n) = 0xF := by decide +kernel

theorem timeFlag_rb {i : Nat} (h : i < 8) : (r.flag Reg.timeEvstat i).s.rb Reg.timeEvstat i = true :=
  flag_rb r (by omega) (timeEvstat_mask i h)

/-- ADJCTL shows the status of a request (R54). -/
theorem adjStatus_rf {n : Nat} (h : n < 8) (st : Status) : (r.adjStatus n st).s.rf (Reg.timeTbAdjctl n) 31 24 = st.code := by
  rw [Run.adjStatus, wf_rf_same r (by decide) (by decide) _ fun i h₁ h₂ => adjctl_mask n h i (by omega) (.inr h₁)]
  exact Nat.mod_eq_of_lt (Status.code_lt st)

theorem adjStatus_onlyRegs (n : Nat) (st : Status) : OnlyRegs r.s (r.adjStatus n st).s [Reg.timeTbAdjctl n] := wf_onlyRegs ..

theorem adjBusy_rb {n : Nat} (h : n < 8) (b : Bool) : (r.wb (Reg.timeTbAdjctl n) 16 b).s.rb (Reg.timeTbAdjctl n) 16 = b :=
  wb_rb r (by decide) (adjctl_mask n h 16 (by decide) (.inl rfl)) b

end Sys2Proof.Machine
end

section
/-!
PROOFS. The reference of the TB clock, its loss of lock, increments, snapshots and holdover (O35).
-/
namespace Sys2Proof.Machine

variable {s₀ : State} (r : Run s₀) {s : State} {n : Nat} {v : Word}

/-! ## The reference (R45) -/

/-- What the change of the reference to `used` leaves: `refin_used` says so, and `refin_chg` marks a change. -/
theorem refinUse_uses (used : Bool) :
    OnlyRegs r.s (r.refinUse used).s [Reg.timeStat, Reg.timeEvstat] ∧ (r.refinUse used).s.rb Reg.timeStat 29 = used ∧
      (r.refinUse used).s.rb Reg.timeStat 30 = r.s.rb Reg.timeStat 30 ∧
      (r.refinUse used).s.rb Reg.timeEvstat 2 = (r.s.rb Reg.timeEvstat 2 || (used != r.s.rb Reg.timeStat 29)) := by
  unfold Run.refinUse
  split
  case isTrue h =>
    have h := eq_of_beq h
    exact ⟨.refl .., h, rfl, by simp [h]⟩
  case isFalse h =>
    have hne : (used != r.s.rb Reg.timeStat 29) = true := by simpa [bne, Bool.beq_comm] using h
    have hw := wb_onlyRegs r Reg.timeStat 29 used
    have hf := flag_onlyRegs (r.wb Reg.timeStat 29 used) Reg.timeEvstat 2
    refine ⟨(hw.mono (by decide)).trans (hf.mono (by decide)), ?_, ?_, ?_⟩
    · exact (hf.rb (by decide) 29).trans (wb_rb r (by decide) (timeStat_mask 29 (by decide)) used)
    · exact (hf.rb (by decide) 30).trans (wf_rb_other r (le_refl 29) (by decide) _ fun h => by
        simp [timeStat_mask 30 (by decide)] at h)
    · rw [hne, Bool.or_true]; exact timeFlag_rb _ (by decide)

theorem refinLoss_drops : Answers .refinLoss s fun u => (MemKept s u ∧ u.sp = s.sp ∧ u.commits = s.commits) ∧
    u.time = { s.time with refinAt := none } ∧ RegsKept s u [Reg.timeStat, Reg.timeEvstat] ∧
    u.rb Reg.timeStat 30 = false ∧ u.rb Reg.timeStat 29 = false ∧
    u.rb Reg.timeEvstat 2 = (s.rb Reg.timeEvstat 2 || s.rb Reg.timeStat 29) := by
  let a := (Run.start s).mapTime fun t => { t with refinAt := none }
  let q := a.wb Reg.timeStat 30 false
  have hq : OnlyRegs a.s q.s [Reg.timeStat] := wb_onlyRegs ..
  have h29 : q.s.rb Reg.timeStat 29 = s.rb Reg.timeStat 29 := wf_rb_other a (le_refl 30) (by decide) _ fun h => by
    simp [timeStat_mask 29 (by decide)] at h
  obtain ⟨hu, hused, hpres, hchg⟩ := refinUse_uses q false
  have hall := (mapTime_onlyTime (Run.start s) (fun t => { t with refinAt := none }) [Reg.timeStat, Reg.timeEvstat]).trans
    ((hq.mono (by decide)).trans hu).onlyTime
  refine Run.answers (q.refinUse false) rfl ⟨hall.kept, ?_, hall.regsKept, ?_, hused, ?_⟩
  · rw [hu.time, hq.time]; rfl
  · exact hpres.trans (wb_rb a (by decide) (timeStat_mask 30 (by decide)) false)
  · rw [hchg, h29, hq.rb (by decide)]; simp; rfl

theorem refinReturn_begins (h : s.time.refinAt = none) : Answers .refinReturn s fun u => (MemKept s u ∧ u.sp = s.sp ∧ u.commits = s.commits) ∧
    u.time = { s.time with refinAt := some s.cyc } ∧ u.rb Reg.timeStat 30 = true ∧ RegsKept s u [Reg.timeStat] := by
  let a := (Run.start s).mapTime fun t => { t with refinAt := some s.cyc }
  have hw := wb_onlyRegs a Reg.timeStat 30 true
  have hall := (mapTime_onlyTime (Run.start s) (fun t => { t with refinAt := some s.cyc }) [Reg.timeStat]).trans hw.onlyTime
  refine Run.answers (a.wb Reg.timeStat 30 true) ?_ ⟨hall.kept, hw.time, ?_, hall.regsKept⟩
  · show execRefinReturn s = _
    rw [execRefinReturn, h]
  · exact wb_rb a (by decide) (timeStat_mask 30 (by decide)) true

/-- A command that changes the reference to `used` where a condition holds, and nothing otherwise. -/
theorem refinUse_when (ok : Bool) :
    OnlyRegs r.s (r.when ok fun r => r.refinUse true).s [Reg.timeStat, Reg.timeEvstat] ∧
      (r.when ok fun r => r.refinUse true).s.rb Reg.timeStat 29 = (ok || r.s.rb Reg.timeStat 29) ∧
      (r.when ok fun r => r.refinUse true).s.rb Reg.timeEvstat 2 = (r.s.rb Reg.timeEvstat 2 || (ok && !r.s.rb Reg.timeStat 29)) := by
  cases ok
  · rw [when_false]
    exact ⟨.refl .., by simp, by simp⟩
  · obtain ⟨h₁, h₂, -, h₄⟩ := refinUse_uses r true
    rw [when_true]
    exact ⟨h₁, h₂, by rw [h₄]; simp⟩

theorem refinReturn_returns {c : Nat} (h : s.time.refinAt = some c) :
    let ok := s.rb Reg.timeCtrl 0 && decide (c + 800000 ≤ s.cyc)
    Answers .refinReturn s fun u => (MemKept s u ∧ u.sp = s.sp ∧ u.commits = s.commits) ∧ u.time = s.time ∧
      RegsKept s u [Reg.timeStat, Reg.timeEvstat] ∧ u.rb Reg.timeStat 29 = (ok || s.rb Reg.timeStat 29) ∧
      u.rb Reg.timeEvstat 2 = (s.rb Reg.timeEvstat 2 || (ok && !s.rb Reg.timeStat 29)) := by
  intro ok
  have hlong : s.refinLong = decide (c + 800000 ≤ s.cyc) := by rw [State.refinLong, h]; rfl
  obtain ⟨h₁, h₂, h₃⟩ := refinUse_when (Run.start s) ok
  refine Run.answers ((Run.start s).when ok fun r => r.refinUse true) ?_ ⟨h₁.kept, h₁.time, h₁.regsKept, h₂, h₃⟩
  show execRefinReturn s = _
  rw [execRefinReturn, h, hlong]; rfl

theorem exec_refinEnWrite (v : Word) (s : State) : exec (.refinEnWrite v) s = ((Run.start s).writeRefinEn v.toNat).done := rfl

/-- What a write of `refin_en` leaves: the bit, the use of the reference, and the mark of a change of use. -/
def RefinWritten (s : State) (v : Word) (u : State) : Prop := (MemKept s u ∧ u.sp = s.sp ∧ u.commits = s.commits) ∧
  u.time = s.time ∧ RegsKept s u [Reg.timeCtrl, Reg.timeStat, Reg.timeEvstat] ∧ u.rb Reg.timeCtrl 0 = bit v.toNat 0 ∧
  u.rb Reg.timeStat 29 = (bit v.toNat 0 && (s.refinLong || s.rb Reg.timeStat 29)) ∧
  u.rb Reg.timeEvstat 2 = (s.rb Reg.timeEvstat 2 || (u.rb Reg.timeStat 29 != s.rb Reg.timeStat 29))

theorem refinEnWrite_sets : Answers (.refinEnWrite v) s (RefinWritten s v) := by
  let q := (Run.start s).wf Reg.timeCtrl 0 0 (v.toNat % 2)
  have hq : OnlyRegs s q.s [Reg.timeCtrl] := wf_onlyRegs ..
  have hen : q.s.rb Reg.timeCtrl 0 = bit v.toNat 0 := by
    rw [wf_rb (Run.start s) (le_refl 0), timeCtrl_mask]
    simp [bit]
  -- what the second part gives on the state with `refin_en` written
  have hend (u : Run s) (hu : OnlyRegs q.s u.s [Reg.timeStat, Reg.timeEvstat])
      (h29 : u.s.rb Reg.timeStat 29 = (bit v.toNat 0 && (s.refinLong || s.rb Reg.timeStat 29)))
      (h2 : u.s.rb Reg.timeEvstat 2 = (s.rb Reg.timeEvstat 2 || (u.s.rb Reg.timeStat 29 != s.rb Reg.timeStat 29)))
      (hex : (Run.start s).writeRefinEn v.toNat = u) : Answers (.refinEnWrite v) s (RefinWritten s v) := by
    have hall := (hq.mono (m := [Reg.timeCtrl, Reg.timeStat, Reg.timeEvstat]) (by decide)).trans (hu.mono (by decide))
    exact Run.answers u (by rw [exec_refinEnWrite, hex]) ⟨hall.kept, hall.time, hall.regsKept, (hu.rb (by decide) 0).trans hen, h29, h2⟩
  have hstat : q.s.rb Reg.timeStat 29 = s.rb Reg.timeStat 29 := hq.rb (by decide) 29
  have hev : q.s.rb Reg.timeEvstat 2 = s.rb Reg.timeEvstat 2 := hq.rb (by decide) 2
  by_cases hv : v.toNat % 2 = 0
  case pos =>
    have hbit : bit v.toNat 0 = false := by simp [bit, hv]
    obtain ⟨h₁, h₂, -, h₄⟩ := refinUse_uses q false
    refine hend (q.refinUse false) h₁ (by rw [h₂, hbit]; rfl) (by rw [h₄, h₂, hstat, hev]) ?_
    exact if_pos hv
  case neg =>
    have hbit : bit v.toNat 0 = true := by simp [bit]; omega
    obtain ⟨h₁, h₂, h₃⟩ := refinUse_when q s.refinLong
    rw [hstat] at h₂ h₃
    rw [hev] at h₃
    refine hend _ h₁ (by rw [h₂, hbit]; rfl) ?_ ?_
    · rw [h₃, h₂]
      cases s.refinLong <;> simp
    · exact if_neg hv

/-! ## Loss of lock (R46) -/

theorem log_time (kind sev : Nat) (data : List Nat) :
    (r.log kind sev data).s.time = r.s.time ∧ (r.log kind sev data).s.commits = r.s.commits := by
  fun_cases Run.log r kind sev data <;> exact ⟨rfl, rfl⟩

theorem nodeSet_time (new : NodeState) (c : NodeCause) : (r.nodeSet new c).s.time = r.s.time ∧
    (r.nodeSet new c).s.commits = r.s.commits := log_time ..

/-- What a change of the node to RECOVERY keeps. -/
theorem recovery_kept (c : NodeCause) : (MemKept r.s (r.nodeTo .recovery c).s ∧ (r.nodeTo .recovery c).s.sp = r.s.sp ∧
      (r.nodeTo .recovery c).s.commits = r.s.commits) ∧ (r.nodeTo .recovery c).s.time = r.s.time ∧
    (r.nodeTo .recovery c).s.node = .recovery ∧ RegsKept r.s (r.nodeTo .recovery c).s [Reg.bhrStat, Reg.bhrLogLost] := by
  rw [nodeTo_plain r (by decide) (by decide)]
  obtain ⟨hf, hn, -⟩ := nodeSet_sets r .recovery c
  obtain ⟨ht, hc⟩ := nodeSet_time r .recovery c
  exact ⟨⟨hf.memKept, hf.sp, hc⟩, ht, hn, hf.regs⟩

theorem OnlyRegs.node {s u : State} {l : List Nat} (h : OnlyRegs s u l) (hl : Reg.bhrStat ∉ l) : u.node = s.node := by
  rw [State.node, h.rf hl, State.node]

theorem exec_tbPllUnlock (s : State) : exec .tbPllUnlock s =
    (if s.node = .start ∨ s.node = .normal then
      ((((Run.start s).wb Reg.timeStat 31 false).wb Reg.clkStat 1 false).flag Reg.timeEvstat 3).nodeTo .recovery .pllUnlock
     else ((((Run.start s).wb Reg.timeStat 31 false).wb Reg.clkStat 1 false).flag Reg.timeEvstat 3)).done := rfl

theorem tbPllUnlock_unlocks : Answers .tbPllUnlock s fun u => (MemKept s u ∧ u.sp = s.sp ∧ u.commits = s.commits) ∧
    u.time = s.time ∧ u.rb Reg.timeStat 31 = false ∧ u.rb Reg.clkStat 1 = false ∧ u.rb Reg.timeEvstat 3 = true ∧
    (s.node = .start ∨ s.node = .normal → u.node = .recovery) ∧ (s.node ≠ .start → s.node ≠ .normal → u.node = s.node) := by
  let a := (Run.start s).wb Reg.timeStat 31 false
  let b := a.wb Reg.clkStat 1 false
  let q := b.flag Reg.timeEvstat 3
  have ha : OnlyRegs s a.s [Reg.timeStat] := wb_onlyRegs ..
  have hb : OnlyRegs a.s b.s [Reg.clkStat] := wb_onlyRegs ..
  have hf : OnlyRegs b.s q.s [Reg.timeEvstat] := flag_onlyRegs ..
  have h31 : q.s.rb Reg.timeStat 31 = false := by
    rw [hf.rb (by decide), hb.rb (by decide)]
    exact wb_rb (Run.start s) (by decide) (timeStat_mask 31 (by decide)) false
  have h1 : q.s.rb Reg.clkStat 1 = false := (hf.rb (by decide) 1).trans (wb_rb a (by decide) clkStat_mask false)
  have h3 : q.s.rb Reg.timeEvstat 3 = true := timeFlag_rb b (by decide)
  have hq : OnlyRegs s q.s [Reg.timeStat, Reg.clkStat, Reg.timeEvstat] :=
    ((ha.mono (by decide)).trans (hb.mono (by decide))).trans (hf.mono (by decide))
  by_cases hn : s.node = .start ∨ s.node = .normal
  case pos =>
    obtain ⟨⟨hm, hsp, hc⟩, ht, hrec, hr⟩ := recovery_kept q .pllUnlock
    obtain ⟨hm', hsp', hc'⟩ := hq.kept
    refine Run.answers (q.nodeTo .recovery .pllUnlock) ((exec_tbPllUnlock s).trans (by rw [if_pos hn]))
      ⟨⟨hm'.trans hm, hsp.trans hsp', hc.trans hc'⟩,
      ht.trans hq.time, (hr.rb (by decide) _).trans h31, (hr.rb (by decide) _).trans h1, (hr.rb (by decide) _).trans h3,
      fun _ => hrec, fun h₁ h₂ => absurd hn (not_or.2 ⟨h₁, h₂⟩)⟩
  case neg =>
    exact Run.answers q ((exec_tbPllUnlock s).trans (by rw [if_neg hn])) ⟨hq.kept, hq.time, h31, h1, h3, fun h => absurd h hn,
      fun _ _ => hq.node (by decide)⟩

/-! ## Increments (R48) -/

/-- The increment that a write of INC_HI makes up with INC_LO. -/
def incOf (s : State) (n : Nat) (v : Word) : Nat := v.toNat % 16 * 2 ^ 32 + (s.rget (Reg.timeTbIncLo n)).toNat

theorem exec_incHiWrite (n : Nat) (v : Word) (s : State) : exec (.incHiWrite n v) s =
    (if 0x4FEB851EC ≤ incOf s n v ∧ incOf s n v ≤ 0x50147AE14 then
      ((Run.start s).wr (Reg.timeTbIncHi n) (v.toNat % 16)).setBase n { s.base n with inc := incOf s n v, applied := incOf s n v }
     else (Run.start s).flag Reg.timeEvstat 5).done := by
  rw [incOf, ← Nat.shiftLeft_eq]; rfl

theorem incHiWrite_applies (hn : n < 8) (h : 0x4FEB851EC ≤ incOf s n v ∧ incOf s n v ≤ 0x50147AE14) : Answers (.incHiWrite n v) s fun u =>
      BaseSet s u n { s.base n with inc := incOf s n v, applied := incOf s n v } [Reg.timeTbIncHi n] ∧
        (u.rget (Reg.timeTbIncHi n)).toNat = v.toNat % 16 := by
  let q := (Run.start s).wr (Reg.timeTbIncHi n) (v.toNat % 16)
  have hq : OnlyRegs s q.s [Reg.timeTbIncHi n] := wr_onlyRegs ..
  refine Run.answers _ ((exec_incHiWrite n v s).trans (by rw [if_pos h])) ⟨(setBase_sets q n _ _).after hq, ?_⟩
  show (q.s.rget (Reg.timeTbIncHi n)).toNat = _
  rw [wr_s, rget_reg_same, incHi_mask n hn, BitVec.toNat_and, BitVec.toNat_ofNat]
  have h15 : (0xF : Word).toNat = 2 ^ 4 - 1 := rfl
  rw [h15, Nat.and_two_pow_sub_one_eq_mod]
  omega

theorem incHiWrite_refuses (h : ¬(0x4FEB851EC ≤ incOf s n v ∧ incOf s n v ≤ 0x50147AE14)) : Answers (.incHiWrite n v) s fun u =>
      (MemKept s u ∧ u.sp = s.sp ∧ u.commits = s.commits) ∧ u.time = s.time ∧ u.rb Reg.timeEvstat 5 = true ∧
        RegsKept s u [Reg.timeEvstat] := by
  have hf := flag_onlyRegs (Run.start s) Reg.timeEvstat 5
  exact Run.answers _ ((exec_incHiWrite n v s).trans (by rw [if_neg h])) ⟨hf.kept, hf.time, timeFlag_rb _ (by decide), hf.regsKept⟩

/-! ## Holdover and missed intervals (R60, R62) -/

theorem OnlyTime.node {s u : State} {l : List Nat} (h : OnlyTime s u l) (hl : Reg.bhrStat ∉ l) : u.node = s.node := by
  rw [State.node, h.2.rf hl, State.node]

/-- The limit of HOLDOVER has been exceeded, for the first time in this stay. -/
def holdOut (s : State) : Prop :=
  s.tb0State = 3 ∧ s.time.holdSince + s.rf Reg.timeTb0HoldAct 11 0 * 800000000 < s.cyc ∧ s.time.holdHit = false

theorem exec_holdoverLimit (s : State) : exec .holdoverLimit s = (Run.start s).holdoverLimit.done := rfl

theorem holdoverLimit_idle (h : ¬holdOut s) : Answers .holdoverLimit s (· = s) := by
  refine Run.answers _ ((exec_holdoverLimit s).trans (congrArg Run.done (if_neg fun hc => h ?_))) rfl
  obtain ⟨h₁, h₂, h₃⟩ := hc
  exact ⟨h₁, h₂, by simpa using h₃⟩

theorem holdoverLimit_hits (h : holdOut s) : Answers .holdoverLimit s fun u => (MemKept s u ∧ u.sp = s.sp ∧ u.commits = s.commits) ∧
    u.time = { s.time with holdHit := true } ∧ u.rb Reg.timeEvstat 1 = true ∧
    u.node = (if s.node = .normal then .recovery else s.node) := by
  obtain ⟨h₁, h₂, h₃⟩ := h
  let q := ((Run.start s).mapTime fun t => { t with holdHit := true }).flag Reg.timeEvstat 1
  have hf : OnlyRegs ((Run.start s).mapTime fun t => { t with holdHit := true }).s q.s [Reg.timeEvstat] := flag_onlyRegs ..
  have hq : OnlyTime s q.s [Reg.timeEvstat] := (mapTime_onlyTime (Run.start s) _ _).trans hf.onlyTime
  have ht : q.s.time = { s.time with holdHit := true } := hf.time
  have h1 : q.s.rb Reg.timeEvstat 1 = true := timeFlag_rb _ (by decide)
  have hnode : q.s.node = s.node := hq.node (by decide)
  have hex : exec .holdoverLimit s = (if q.s.node = .normal then q.nodeTo .recovery .holdover else q).done :=
    congrArg Run.done (if_pos ⟨h₁, h₂, by simp [h₃]⟩)
  rw [hnode] at hex
  refine Run.answers _ hex ?_
  split
  case isTrue =>
    obtain ⟨⟨hm, hsp, hc⟩, hu, hrec, hr⟩ := recovery_kept q .holdover
    obtain ⟨hm', hsp', hc'⟩ := hq.kept
    exact ⟨⟨hm'.trans hm, hsp.trans hsp', hc.trans hc'⟩, hu.trans ht, (hr.rb (by decide) _).trans h1, hrec⟩
  case isFalse => exact ⟨hq.kept, ht, h1, hnode⟩

/-- Four sync intervals have passed without an exchange result, away from the Stag. -/
def syncLost (s : State) : Prop := s.tb0State = 2 ∧ s.rb Reg.timeStat 2 = false ∧ 4 ≤ s.time.missed

theorem exec_syncIntervalsMissed (s : State) : exec .syncIntervalsMissed s =
    (if s.tb0State = 2 ∧ !s.rb Reg.timeStat 2 ∧ 4 ≤ s.time.missed then (Run.start s).setTb0State 3 else Run.start s).done := rfl

theorem syncIntervalsMissed_idle (h : ¬syncLost s) : Answers .syncIntervalsMissed s (· = s) := by
  refine Run.answers _ ((exec_syncIntervalsMissed s).trans (congrArg Run.done (if_neg fun hc => h ?_))) rfl
  obtain ⟨h₁, h₂, h₃⟩ := hc
  exact ⟨h₁, by simpa using h₂, h₃⟩

theorem syncIntervalsMissed_holds (h : syncLost s) : Answers .syncIntervalsMissed s fun u =>
    (MemKept s u ∧ u.sp = s.sp ∧ u.commits = s.commits) ∧ u.tb0State = 3 ∧ u.rb Reg.timeEvstat 0 = true ∧
      u.time = { s.time with holdSince := s.cyc, holdHit := false } ∧ RegsKept s u [Reg.timeStat, Reg.timeEvstat] := by
  obtain ⟨h₁, h₂, h₃⟩ := h
  let a := (Run.start s).wf Reg.timeStat 1 0 3
  let q := a.flag Reg.timeEvstat 0
  have ha : OnlyRegs s a.s [Reg.timeStat] := wf_onlyRegs ..
  have hf : OnlyRegs a.s q.s [Reg.timeEvstat] := flag_onlyRegs ..
  have hq := (ha.mono (m := [Reg.timeStat, Reg.timeEvstat]) (by decide)).trans (hf.mono (by decide))
  have hset : (Run.start s).setTb0State 3 = q.mapTime fun t => { t with holdSince := s.cyc, holdHit := false } :=
    (if_neg (by rw [start_s, h₁]; decide)).trans (if_pos rfl)
  have hall := hq.onlyTime.trans (mapTime_onlyTime q (fun t => { t with holdSince := s.cyc, holdHit := false }) _)
  refine Run.answers (q.mapTime fun t => { t with holdSince := s.cyc, holdHit := false }) ?_
    ⟨hall.kept, ?_, timeFlag_rb a (by decide), ?_, hall.regsKept⟩
  · rw [exec_syncIntervalsMissed, if_pos ⟨h₁, by simp [h₂], h₃⟩, hset]
  · show q.s.rf Reg.timeStat 1 0 = 3
    rw [hf.rf (by decide)]
    exact wf_rf_same (Run.start s) (by decide) (by decide) 3 fun i _ hi => timeStat_mask i (by interval_cases i <;> decide)
  · show { q.s.time with holdSince := s.cyc, holdHit := false } = _
    rw [hq.time]

/-! ## Snapshots (R67) -/

/-- The four snapshot registers of a base. -/
def snapRegs (n : Nat) : List Nat := [Reg.timeTbSnapSub n, Reg.timeTbSnapNs n, Reg.timeTbSnapSecLo n, Reg.timeTbSnapSecHi n]

theorem snap_masks : ∀ n < 8, ∀ a ∈ snapRegs n, implMask a = BitVec.allOnes 32 := by decide +kernel

/-- The four words of one base written. -/
def Run.snapOne (r : Run s₀) (n : Nat) (w : Nat → Nat) : Run s₀ :=
  (((r.wr (Reg.timeTbSnapSub n) (w 0)).wr (Reg.timeTbSnapNs n) (w 1)).wr (Reg.timeTbSnapSecLo n) (w 2)).wr (Reg.timeTbSnapSecHi n) (w 3)

/-- The snapshot registers of a base show four words. -/
def SnapShown (u : State) (n : Nat) (w : Nat → Nat) : Prop :=
  (u.rget (Reg.timeTbSnapSub n)).toNat = w 0 % 2 ^ 32 ∧ (u.rget (Reg.timeTbSnapNs n)).toNat = w 1 % 2 ^ 32 ∧
  (u.rget (Reg.timeTbSnapSecLo n)).toNat = w 2 % 2 ^ 32 ∧ (u.rget (Reg.timeTbSnapSecHi n)).toNat = w 3 % 2 ^ 32

theorem SnapShown.congr {u t : State} {w : Nat → Nat} {l : List Nat} (h : SnapShown u n w) (hk : RegsKept u t l)
    (hl : ∀ a ∈ snapRegs n, a ∉ l) : SnapShown t n w := by
  obtain ⟨h0, h1, h2, h3⟩ := h
  exact ⟨by rw [hk _ (hl _ (by simp [snapRegs])), h0], by rw [hk _ (hl _ (by simp [snapRegs])), h1],
    by rw [hk _ (hl _ (by simp [snapRegs])), h2], by rw [hk _ (hl _ (by simp [snapRegs])), h3]⟩

/-- Word `i` of a base's snapshot. -/
def State.snapWord (s : State) (n i : Nat) : Nat := (s.snapWords n)[i]?.getD 0

theorem wr_full {a : Nat} (h : implMask a = BitVec.allOnes 32) (v : Nat) : ((r.wr a v).s.rget a).toNat = v % 2 ^ 32 := by
  rw [wr_s, rget_reg_same, h, BitVec.and_allOnes, BitVec.toNat_ofNat]

theorem snapOne_onlyRegs (n : Nat) (w : Nat → Nat) : OnlyRegs r.s (r.snapOne n w).s (snapRegs n) :=
  ((((wr_onlyRegs r _ _).mono (by simp [snapRegs])).trans ((wr_onlyRegs _ _ _).mono (by simp [snapRegs]))).trans
    ((wr_onlyRegs _ _ _).mono (by simp [snapRegs]))).trans ((wr_onlyRegs _ _ _).mono (by simp [snapRegs]))

theorem snapOne_shown (hn : n < 8) (w : Nat → Nat) : SnapShown (r.snapOne n w).s n w := by
  have hm := snap_masks n hn
  have hw (q : Run s₀) (a v b : Nat) (h : b ≠ a) : (q.wr a v).s.rget b = q.s.rget b := rget_reg_ne h _
  unfold Run.snapOne SnapShown
  refine ⟨?_, ?_, ?_, wr_full _ (hm _ (by simp [snapRegs])) _⟩
  · rw [hw _ _ _ _ (by simp), hw _ _ _ _ (by simp), hw _ _ _ _ (by simp)]
    exact wr_full _ (hm _ (by simp [snapRegs])) _
  · rw [hw _ _ _ _ (by simp), hw _ _ _ _ (by simp)]
    exact wr_full _ (hm _ (by simp [snapRegs])) _
  · rw [hw _ _ _ _ (by simp)]
    exact wr_full _ (hm _ (by simp [snapRegs])) _

theorem snapshot_eq : r.snapshot = r.each (List.range 8) fun q n => q.snapOne n (q.s.snapWord n) := by
  refine congrArg (r.each (List.range 8)) (funext fun q => funext fun n => ?_)
  by_cases h : n ≤ 2 <;> simp [State.snapWords, State.snapWord, h, Run.snapOne]

theorem snapWord_congr {s u : State} (h : u.time = s.time) (n : Nat) : u.snapWord n = s.snapWord n := by
  funext i
  rw [State.snapWord, State.snapWord, State.snapWords, State.snapWords, State.base, State.base, h]

/-- The snapshot registers of two bases are apart. -/
theorem snapRegs_apart {m k : Nat} (h : m ≠ k) : ∀ a ∈ snapRegs m, a ∉ snapRegs k := by
  simp only [snapRegs, List.mem_cons, List.not_mem_nil, or_false, Reg.timeTbSnapSub, Reg.timeTbSnapNs, Reg.timeTbSnapSecLo,
    Reg.timeTbSnapSecHi]
  omega

/-- Snapshots of the bases of a list: each shows its words, and nothing else changes. -/
theorem each_snapOne (l : List Nat) (hl : ∀ n ∈ l, n < 8) : let u := (r.each l fun q n => q.snapOne n (q.s.snapWord n)).s
    OnlyRegs r.s u (l.flatMap snapRegs) ∧ ∀ n ∈ l, SnapShown u n (r.s.snapWord n) := by
  induction l generalizing r with
  | nil => exact ⟨.refl .., fun _ h => absurd h List.not_mem_nil⟩
  | cons m l ih =>
    have hone := snapOne_onlyRegs r m (r.s.snapWord m)
    obtain ⟨hk, hv⟩ := ih (r.snapOne m (r.s.snapWord m)) fun n hn => hl n (List.mem_cons_of_mem _ hn)
    rw [each_cons]
    refine ⟨(hone.mono (by simp)).trans (hk.mono (by simp)), fun n hn => ?_⟩
    by_cases hnl : n ∈ l
    · exact snapWord_congr hone.time n ▸ hv n hnl
    · obtain rfl : n = m := (List.mem_cons.1 hn).resolve_right hnl
      refine (snapOne_shown r (hl n hn) _).congr hk.regsKept fun a ha hmem => ?_
      obtain ⟨k, hkl, hak⟩ := List.mem_flatMap.1 hmem
      exact snapRegs_apart (fun he => hnl (by rw [he]; exact hkl)) a ha hak

theorem exec_timeSnapWrite (v : Word) (s : State) : exec (.timeSnapWrite v) s =
    (if bit v.toNat 0 then (Run.start s).snapshot else Run.start s).done := rfl

theorem timeSnapWrite_captures (hn : n < 8) (hv : bit v.toNat 0 = true) : Answers (.timeSnapWrite v) s fun u =>
    OnlyRegs s u ((List.range 8).flatMap snapRegs) ∧ SnapShown u n (s.snapWord n) := by
  obtain ⟨hk, hr⟩ := each_snapOne (Run.start s) (List.range 8) fun n hn => List.mem_range.1 hn
  exact Run.answers _ ((exec_timeSnapWrite v s).trans (by rw [if_pos hv, snapshot_eq])) ⟨hk, hr n (List.mem_range.2 hn)⟩

theorem timeSnapWrite_idle (h : bit v.toNat 0 = false) : Answers (.timeSnapWrite v) s (· = s) :=
  Run.answers (Run.start s) ((exec_timeSnapWrite v s).trans (by rw [h]; rfl)) rfl

/-- The snapshot words of a privileged base hold its nanoseconds and seconds (R67). -/
theorem snapWord_privileged (h : n ≤ 2) : s.snapWord n 0 = (s.base n).frac / 2 ^ 16 ∧
    s.snapWord n 1 = (s.base n).ns ∧ s.snapWord n 2 = (s.base n).sec % 2 ^ 32 ∧
    s.snapWord n 3 = (s.base n).sec / 2 ^ 32 % 2 ^ 16 := by
  rw [← Nat.shiftRight_eq_div_pow, ← Nat.shiftRight_eq_div_pow]
  simp [State.snapWord, State.snapWords, h]

/-- Those of a wrapping base hold its count and its wraps. -/
theorem snapWord_wrapping (h : 2 < n) : s.snapWord n 0 = (s.base n).frac / 2 ^ 16 ∧ s.snapWord n 1 = (s.base n).int ∧
    s.snapWord n 2 = (s.base n).wraps ∧ s.snapWord n 3 = 0 := by
  rw [← Nat.shiftRight_eq_div_pow]
  simp [State.snapWord, State.snapWords, Nat.not_le.2 h]

end Sys2Proof.Machine
end

section
/-!
PROOFS. Adjustments of a base: what a request comes to, steps, slews and their ends (O35, O37).
-/
namespace Sys2Proof.Machine

variable {s₀ : State} (r : Run s₀) {s : State} {n : Nat} {v : Word}

/-! ## The outcome of a request (R54) -/

/-- The registers and the base on which a request is judged stand in `u` as in `s`. -/
theorem adjOutcome_congr {s u : State} {l : List Nat} (hk : RegsKept s u l) (hb : u.base n = s.base n)
    (hl : ∀ a ∈ l, a ≠ Reg.timeStat ∧ a ≠ Reg.timeTbCtrl n ∧ ∀ g, a ≠ Reg.timeSgCfgAct g) (x : Adj) :
    u.adjOutcome n x = s.adjOutcome n x := by
  have h₁ : u.rb Reg.timeStat 2 = s.rb Reg.timeStat 2 := hk.rb (fun hm => (hl _ hm).1 rfl) 2
  have h₂ : u.rf (Reg.timeTbCtrl n) 1 0 = s.rf (Reg.timeTbCtrl n) 1 0 := hk.rf (fun hm => (hl _ hm).2.1 rfl) 1 0
  have h₃ (g : Nat) : u.gridEn g = s.gridEn g := hk.rb (fun hm => (hl _ hm).2.2 g rfl) 31
  have h₄ (g : Nat) : u.gridBase g = s.gridBase g := hk.rf (fun hm => (hl _ hm).2.2 g rfl) 2 0
  have h₅ : u.baseHasGrid n = s.baseHasGrid n := by simp only [State.baseHasGrid, h₃, h₄]
  rw [State.adjOutcome, h₁, h₂, h₅, hb, State.adjOutcome]

theorem adjOutcome_step_ok {x : Adj} (hm : x.mode = 0) (hn : 3 ≤ n) (hg : s.baseHasGrid n = false)
    (hs : (s.base n).slewing = false) (ha : x.amount ≠ 0) : s.adjOutcome n x = .ok := by
  simp [State.adjOutcome, hm, hg, hs, ha, show n ≠ 0 by omega, show n ≠ 1 by omega, show n ≠ 2 by omega]

theorem adjOutcome_step_grid {x : Adj} (hm : x.mode = 0) (hn : 3 ≤ n) (hg : s.baseHasGrid n = true) : s.adjOutcome n x = .refused := by
  simp [State.adjOutcome, hm, hg, show n ≠ 0 by omega, show n ≠ 1 by omega, show n ≠ 2 by omega]

theorem adjOutcome_step_denied {x : Adj} (hm : x.mode = 0) (h : s.rb Reg.timeStat 2 = false) : s.adjOutcome 0 x = .denied := by
  simp [State.adjOutcome, hm, h]

theorem adjOutcome_slew_ok {x : Adj} (hm : x.mode = 1) (hp : 1 ≤ x.ppm ∧ x.ppm ≤ 500) (h0 : n = 0 → s.rb Reg.timeStat 2 = true)
    (h12 : n = 1 ∨ n = 2 → s.rf (Reg.timeTbCtrl n) 1 0 ≠ 1) (hs : (s.base n).slewing = false) (ha : x.amount ≠ 0) :
    s.adjOutcome n x = .ok := by
  have h0' : ¬(n = 0 ∧ (!s.rb Reg.timeStat 2) = true) := fun h => by simp [h0 h.1] at h
  have h12' : ¬((n = 1 ∨ n = 2) ∧ s.rf (Reg.timeTbCtrl n) 1 0 = 1) := fun h => h12 h.1 h.2
  unfold State.adjOutcome
  rw [if_neg (by simp [hm]; omega), if_neg h0', if_neg h12']
  simp [hm, hs, ha]

/-! ## A write of ADJCTL (R54) -/

/-- The request of a write of ADJCTL. -/
def adjAsked (s : State) (n : Nat) (v : Word) : Adj :=
  ⟨bits v.toNat 1 0, bits v.toNat 12 4, (s.rget (Reg.timeTbAdjA n)).toNat, (s.rget (Reg.timeTbAdjB n)).toNat,
    s.rf (Reg.timeTbAdjC n) 15 0⟩

theorem adjAsked_amount (s : State) (n : Nat) (v : Word) : (adjAsked s n v).amount =
    sInt 64 ((s.rget (Reg.timeTbAdjA n)).toNat + (s.rget (Reg.timeTbAdjB n)).toNat * 2 ^ 32) := by
  rw [Adj.amount, Nat.shiftLeft_eq]; rfl

/-- The fields of ADJCTL written. -/
def Run.adjFields (r : Run s₀) (n v : Nat) : Run s₀ :=
  (r.wf (Reg.timeTbAdjctl n) 12 4 (bits v 12 4)).wf (Reg.timeTbAdjctl n) 1 0 (bits v 1 0)

theorem adjFields_onlyRegs (n v : Nat) : OnlyRegs r.s (r.adjFields n v).s [Reg.timeTbAdjctl n] :=
  (wf_onlyRegs r ..).trans (wf_onlyRegs ..)

theorem exec_timeAdjGo (n : Nat) (v : Word) (s : State) : exec (.timeAdjGo n v) s =
    (if !bit v.toNat 2 then (Run.start s).adjFields n v.toNat else
      match ((Run.start s).adjFields n v.toNat).s.adjOutcome n (adjAsked ((Run.start s).adjFields n v.toNat).s n v) with
      | .ok => ((Run.start s).adjFields n v.toNat).adjust n (adjAsked ((Run.start s).adjFields n v.toNat).s n v) none
      | .empty => ((Run.start s).adjFields n v.toNat).adjStatus n .empty
      | st => (((Run.start s).adjFields n v.toNat).adjStatus n st).adjRefused : Run s).done := rfl

/-- The fields of ADJCTL have no part in the judgement of a request. -/
theorem adjFields_judged (hn : n < 8) (v : Word) (s : State) :
    adjAsked ((Run.start s).adjFields n v.toNat).s n v = adjAsked s n v ∧
      ((Run.start s).adjFields n v.toNat).s.adjOutcome n (adjAsked s n v) = s.adjOutcome n (adjAsked s n v) := by
  have hq := adjFields_onlyRegs (Run.start s) n v.toNat
  constructor
  · rw [adjAsked, adjAsked, hq.regsKept _ (by simp), hq.regsKept _ (by simp), hq.rf (by simp)]
    rfl
  · refine adjOutcome_congr hq.regsKept (hq.base n) ?_ _
    intro a ha
    obtain rfl := List.mem_singleton.1 ha
    refine ⟨?_, by simp, fun g => ?_⟩ <;> simp only [Reg.timeTbAdjctl, Reg.timeStat, Reg.timeSgCfgAct] <;> omega

/-- A request that is granted: the adjustment is carried out behind the fields. -/
theorem timeAdjGo_granted (hn : n < 8) (hgo : bit v.toNat 2 = true) (h : s.adjOutcome n (adjAsked s n v) = .ok) :
    exec (.timeAdjGo n v) s = (((Run.start s).adjFields n v.toNat).adjust n (adjAsked s n v) none).done := by
  obtain ⟨h₁, h₂⟩ := adjFields_judged hn v s
  rw [exec_timeAdjGo, hgo, h₁, h₂, h]; rfl

/-! ## Steps (R53, R55) -/

theorem moveLater_sets (n : Nat) (m : Move) (w : MoveFor) (l : List Nat) :
    BaseSet r.s (r.moveLater n m w).s n { r.s.base n with moves := (r.s.base n).moves ++ [(m, w)] } l := setBase_sets ..

/-- A step moves the count of a wrapping base by whole nanoseconds and leaves the rest of it (R53; log 51). -/
theorem move_add_wrapping (b : Base) (hn : 3 ≤ n) (hf : b.frac < 2 ^ 32) (d : Int) :
    b.move n (.add (d * 2 ^ 32)) = { b with int := ((b.int + d) % 2 ^ 32).toNat } := by
  have hv : ((b.int <<< 32 + b.frac : Nat) : Int) + d * 2 ^ 32 = (b.frac : Int) + (b.int + d) * 2 ^ 32 := by
    rw [Nat.shiftLeft_eq]; push_cast; ring
  have hw : (((b.int <<< 32 + b.frac : Nat) : Int) + d * 2 ^ 32) / ((2 ^ 32 : Nat) : Int) = b.int + d := by rw [hv]; omega
  have hm : (((b.int <<< 32 + b.frac : Nat) : Int) + d * 2 ^ 32) % ((2 ^ 32 : Nat) : Int) = b.frac := by rw [hv]; omega
  have hbits : intBits n = 32 := if_neg (by omega)
  simp only [Base.move, hw, hm, hbits, Base.setFull, if_neg (show ¬n ≤ 2 by omega), uNat, Int.toNat_natCast]
  rfl

/-- Who asked for a move is told that it has been made. -/
def Run.moveTold (r : Run s₀) (n : Nat) : MoveFor → Run s₀
  | .reg => r.adjStatus n .ok
  | .op id => r.opFinId id .ok 0 []
  | .servo => r

/-- The one step of a wrapping base that waits is made on the tick, and whoever asked for it is told (R55). -/
theorem movesDue_step {d : Int} {w : MoveFor} (hn : 3 ≤ n) (hf : (r.s.base n).frac < 2 ^ 32)
    (h : (r.s.base n).moves = [(.add (d * 2 ^ 32), w)]) : ∃ q : Run s₀,
      (∀ l, BaseSet r.s q.s n { r.s.base n with moves := [], int := (((r.s.base n).int + d) % 2 ^ 32).toNat } l) ∧
        r.movesDue n = q.moveTold n w := by
  let a := r.setBase n { r.s.base n with moves := [] }
  have ha (l : List Nat) := setBase_sets r n { r.s.base n with moves := [] } l
  have hmove := move_add_wrapping { r.s.base n with moves := [] } hn hf d
  have hbase : a.moveBase n (.add (d * 2 ^ 32)) = a.setBase n ((a.s.base n).move n (.add (d * 2 ^ 32))) := by
    rw [Run.moveBase, beq_eq_false_iff_ne.2 (show n ≠ 0 by omega), when_false]
  refine ⟨a.moveBase n (.add (d * 2 ^ 32)), fun l => ?_, ?_⟩
  · rw [hbase, (ha l).same, hmove]; exact (ha l).again (setBase_sets ..)
  · unfold Run.movesDue
    rw [h]
    cases w <;> rfl

/-! ## Slews (R53) -/

/-- A slew by `amt` at `ppm` begins at a base. -/
def Base.slewBegun (b : Base) (amt : Int) (ppm : Nat) (op : Option Nat) : Base :=
  { b with slewing := true, slewNeg := decide (amt < 0), slewStep := slewUnits ppm, slewLeft := amt.natAbs * 2 ^ 32, slewOp := op }

theorem adjust_slew (hn : n < 8) {x : Adj} (hm : x.mode = 1) (op : Option Nat) :
    BaseSet r.s (r.adjust n x op).s n ((r.s.base n).slewBegun x.amount x.ppm op) [Reg.timeTbAdjctl n] ∧
      (r.adjust n x op).s.rb (Reg.timeTbAdjctl n) 16 = true := by
  have hadj : r.adjust n x op = (r.setBase n ((r.s.base n).slewBegun x.amount x.ppm op)).wb (Reg.timeTbAdjctl n) 16 true := if_pos hm
  rw [hadj]
  exact ⟨(setBase_sets ..).then (wb_onlyRegs ..), adjBusy_rb _ hn true⟩

/-- The end of a slew at the base and in ADJCTL. -/
def Run.slewOff (r : Run s₀) (n : Nat) : Run s₀ :=
  (r.setBase n { r.s.base n with slewing := false, slewOp := none }).wb (Reg.timeTbAdjctl n) 16 false

theorem slewOff_ends (hn : n < 8) :
    BaseSet r.s (r.slewOff n).s n { r.s.base n with slewing := false, slewOp := none } [Reg.timeTbAdjctl n] ∧
      (r.slewOff n).s.rb (Reg.timeTbAdjctl n) 16 = false :=
  ⟨(setBase_sets ..).then (wb_onlyRegs ..), adjBusy_rb _ hn false⟩

theorem exec_slewEnd (n : Nat) (s : State) : exec (.slewEnd n) s =
    if (s.base n).slewing && (s.base n).slewLeft == 0 then
      match (s.base n).slewOp with
      | none => (((Run.start s).slewOff n).adjStatus n .ok).done
      | some id => match ((Run.start s).slewOff n).s.op id with
        | none => ((Run.start s).slewOff n).done
        | some o => (((Run.start s).slewOff n).opFin o o.okSt 0 []).done
    else (Run.start s).done := by
  show execSlewEnd n s = _
  unfold execSlewEnd
  rfl

/-! ## The commands -/

theorem timeAdjGo_waits (h : bit v.toNat 2 = false) : Answers (.timeAdjGo n v) s fun u => OnlyRegs s u [Reg.timeTbAdjctl n] :=
  Run.answers ((Run.start s).adjFields n v.toNat) ((exec_timeAdjGo n v s).trans (by rw [h]; rfl)) (adjFields_onlyRegs ..)

theorem timeAdjGo_step (hn : n < 8) (hgo : bit v.toNat 2 = true) (hm : bits v.toNat 1 0 = 0) (h3 : 3 ≤ n) (hg : s.baseHasGrid n = false)
    (hs : (s.base n).slewing = false) (ha : (adjAsked s n v).amount ≠ 0) : Answers (.timeAdjGo n v) s fun u =>
      BaseSet s u n { s.base n with moves := (s.base n).moves ++ [(.add ((adjAsked s n v).amount * 2 ^ 32), .reg)] } [Reg.timeTbAdjctl n] := by
  have hq := adjFields_onlyRegs (Run.start s) n v.toNat
  refine Run.answers _ (timeAdjGo_granted hn hgo (adjOutcome_step_ok hm h3 hg hs ha)) ?_
  have hmove : (adjAsked s n v).move n = .add ((adjAsked s n v).amount * 2 ^ 32) := if_pos hm
  have hmode : ¬(adjAsked s n v).mode = 1 := by rw [show (adjAsked s n v).mode = 0 from hm]; decide
  rw [Run.adjust, if_neg hmode, hmove]
  have := (moveLater_sets ((Run.start s).adjFields n v.toNat) n (.add ((adjAsked s n v).amount * 2 ^ 32)) .reg [Reg.timeTbAdjctl n]).after hq
  rwa [hq.base n] at this

theorem timeAdjGo_slew (hn : n < 8) (hgo : bit v.toNat 2 = true) (hm : bits v.toNat 1 0 = 1)
    (hp : 1 ≤ bits v.toNat 12 4 ∧ bits v.toNat 12 4 ≤ 500) (h0 : n = 0 → s.rb Reg.timeStat 2 = true)
    (h12 : n = 1 ∨ n = 2 → s.rf (Reg.timeTbCtrl n) 1 0 ≠ 1) (hs : (s.base n).slewing = false) (ha : (adjAsked s n v).amount ≠ 0) :
    Answers (.timeAdjGo n v) s fun u =>
      BaseSet s u n ((s.base n).slewBegun (adjAsked s n v).amount (bits v.toNat 12 4) none) [Reg.timeTbAdjctl n] ∧
        u.rb (Reg.timeTbAdjctl n) 16 = true := by
  have hq := adjFields_onlyRegs (Run.start s) n v.toNat
  refine Run.answers _ (timeAdjGo_granted hn hgo (adjOutcome_slew_ok hm hp h0 h12 hs ha)) ?_
  obtain ⟨hset, hb⟩ := adjust_slew ((Run.start s).adjFields n v.toNat) hn (x := adjAsked s n v) hm none
  rw [hq.base n] at hset
  exact ⟨hset.after hq, hb⟩

theorem timeAdjGo_denied (hgo : bit v.toNat 2 = true) (hm : bits v.toNat 1 0 = 0) (h : s.rb Reg.timeStat 2 = false) :
    Answers (.timeAdjGo 0 v) s fun u => OnlyRegs s u [Reg.timeTbAdjctl 0, Reg.timeEvstat] ∧
      u.rf (Reg.timeTbAdjctl 0) 31 24 = Status.denied.code ∧ u.rb Reg.timeEvstat 6 = true := by
  let q := (Run.start s).adjFields 0 v.toNat
  have hq : OnlyRegs s q.s [Reg.timeTbAdjctl 0] := adjFields_onlyRegs ..
  have hst := adjStatus_onlyRegs q 0 .denied
  have hf := flag_onlyRegs (q.adjStatus 0 .denied) Reg.timeEvstat 6
  obtain ⟨h₁, h₂⟩ := adjFields_judged (n := 0) (by decide) v s
  refine Run.answers ((q.adjStatus 0 .denied).adjRefused) ?_ ⟨?_, ?_, timeFlag_rb _ (by decide)⟩
  · rw [exec_timeAdjGo, hgo, h₁, h₂, adjOutcome_step_denied hm h]; rfl
  · exact ((hq.mono (by simp)).trans (hst.mono (by simp))).trans (hf.mono (by simp))
  · exact (hf.rf (by decide) _ _).trans (adjStatus_rf q (by decide) .denied)

theorem movesDue_reg (hn : n < 8) (h3 : 3 ≤ n) (hf : (s.base n).frac < 2 ^ 32) {d : Int}
    (hm : (s.base n).moves = [(.add (d * 2 ^ 32), .reg)]) :
    BaseSet s ((Run.start s).movesDue n).s n { s.base n with moves := [], int := (((s.base n).int + d) % 2 ^ 32).toNat } [Reg.timeTbAdjctl n] ∧
      ((Run.start s).movesDue n).s.rf (Reg.timeTbAdjctl n) 31 24 = Status.ok.code := by
  obtain ⟨q, hq, he⟩ := movesDue_step (Run.start s) h3 hf hm
  rw [he]
  exact ⟨(hq _).then (adjStatus_onlyRegs q n .ok), adjStatus_rf q hn .ok⟩

theorem slewEnd_reg (hn : n < 8) (hs : (s.base n).slewing = true) (hl : (s.base n).slewLeft = 0) (ho : (s.base n).slewOp = none) :
    Answers (.slewEnd n) s fun u => BaseSet s u n { s.base n with slewing := false } [Reg.timeTbAdjctl n] ∧
      u.rb (Reg.timeTbAdjctl n) 16 = false ∧ u.rf (Reg.timeTbAdjctl n) 31 24 = Status.ok.code := by
  obtain ⟨hset, hb⟩ := slewOff_ends (Run.start s) hn
  have hst := adjStatus_onlyRegs ((Run.start s).slewOff n) n .ok
  refine Run.answers (((Run.start s).slewOff n).adjStatus n .ok) ?_ ⟨?_, ?_, adjStatus_rf _ hn .ok⟩
  · rw [exec_slewEnd, hs, hl, ho]; rfl
  · have := hset.then hst
    rwa [start_s, ← ho] at this
  · exact (wf_rb_other _ (by decide) (by decide) _ fun h => by simp [adjctl_mask n hn 16 (by decide) (.inl rfl)] at h).trans hb

theorem slewEnd_op (hn : n < 8) {o : Op} (hs : (s.base n).slewing = true) (hl : (s.base n).slewLeft = 0)
    (hid : (s.base n).slewOp = some o.id) (ho : s.op o.id = some o) : Answers (.slewEnd n) s fun u =>
      OpEnded u o.id o.okSt [] ∧ OpsKept s u o.id ∧ MemKept s u ∧ RegsKept s u [Reg.timeTbAdjctl n] ∧
      (∀ j, j ≠ n → u.base j = s.base j) ∧ u.base n = { s.base n with slewing := false, slewOp := none } ∧
      u.rb (Reg.timeTbAdjctl n) 16 = false := by
  obtain ⟨hset, hb⟩ := slewOff_ends (Run.start s) hn
  have hop : ((Run.start s).slewOff n).s.op o.id = some o := (hset.only.op _).trans ho
  refine Run.answers (((Run.start s).slewOff n).opFin o o.okSt 0 []) ?_ ?_
  · rw [exec_slewEnd, hs, hl, hid]
    simp only [hop]; rfl
  · obtain ⟨h₁, h₂, h₃, h₄⟩ := opEnd_after (Run.start s) hop (fun j _ => hset.only.op j) hset.only.memKept hset.only.regsKept
      o.okSt 0 ((Run.start s).slewOff n).s.now32 [] 0
    exact ⟨h₁, h₂, h₃, h₄, hset.others, hset.same, hb⟩

theorem slewEnd_idle (h : (s.base n).slewLeft ≠ 0) : Answers (.slewEnd n) s (· = s) := by
  refine Run.answers (Run.start s) ?_ rfl
  rw [exec_slewEnd, beq_eq_false_iff_ne.2 h, Bool.and_false]; rfl

end Sys2Proof.Machine
end

section
/-!
PROOFS. The commands of the time block: the statement (O35).
-/
namespace Sys2Proof.Machine

/-- Settles O35: a lemma for each command; what each keeps follows from its frame. -/
theorem timeBlockCommands : Obligations.TimeBlockCommands := by
  intro s n v hn q amt kept bases
  have hamt : (adjAsked s n v).amount = amt := adjAsked_amount s n v
  refine ⟨refinLoss_drops, refinReturn_begins, fun c hc => refinReturn_returns hc, refinEnWrite_sets, tbPllUnlock_unlocks,
    ⟨fun hlo hhi => ?_, fun hout => incHiWrite_refuses fun h => ?_⟩, fun hgo => ?_, fun hgo hm h3 hg hs ha => ?_, fun d h3 hf hm => ?_,
    fun hgo hm hp hp' h0 h12 hs ha => ?_, fun hgo hm h0 hstag => ?_, fun hs hl ho => ?_, fun o hs hl hid ho => ?_, slewEnd_idle,
    fun hv hint hfrac hwraps hsec hns => ?_, timeSnapWrite_idle, fun h₁ h₂ h₃ => holdoverLimit_hits ⟨h₁, h₂, h₃⟩, fun h => ?_,
    fun h₁ h₂ h₃ => syncIntervalsMissed_holds ⟨h₁, h₂, h₃⟩, fun h => ?_⟩
  case refine_1 =>
    exact (incHiWrite_applies hn ⟨hlo, hhi⟩).imp fun u ⟨h, hreg⟩ => ⟨h.only.kept, h.others, h.same, h.only.regsKept, hreg⟩
  case refine_2 =>
    have : incOf s n v < 0x4FEB851EC ∨ 0x50147AE14 < incOf s n v := hout
    omega
  case refine_3 => exact (timeAdjGo_waits hgo).imp fun u h => ⟨h.kept, h.time, h.regsKept⟩
  case refine_4 =>
    exact (timeAdjGo_step hn hgo hm h3 hg hs (by rwa [hamt])).imp fun u h =>
      ⟨h.only.kept, h.others, hamt ▸ h.same, h.grids, h.only.regsKept⟩
  case refine_5 =>
    obtain ⟨h, hok⟩ := movesDue_reg hn h3 hf hm
    exact ⟨h.only.kept, h.others, h.same, h.grids, hok, h.only.regsKept⟩
  case refine_6 =>
    exact (timeAdjGo_slew hn hgo hm ⟨hp, hp'⟩ h0 h12 hs (by rwa [hamt])).imp fun u ⟨h, hb⟩ =>
      ⟨h.only.kept, h.others, hamt ▸ h.same, hb, h.only.regsKept⟩
  case refine_7 =>
    subst h0
    exact (timeAdjGo_denied hgo hm hstag).imp fun u ⟨h, hst, hb⟩ => ⟨h.kept, h.time, hst, hb, h.regsKept⟩
  case refine_8 =>
    exact (slewEnd_reg hn hs hl ho).imp fun u ⟨h, hb, hst⟩ => ⟨h.only.kept, h.others, h.same, hb, hst, h.only.regsKept⟩
  case refine_9 =>
    exact (slewEnd_op hn hs hl hid ho).imp fun u ⟨h₁, h₂, hm, hr, hbs, hb, hst⟩ => ⟨h₁, h₂, hbs, hb, hst, hr, hm⟩
  case refine_10 =>
    refine (timeSnapWrite_captures hn hv).imp fun u ⟨h, w0, w1, w2, w3⟩ => ⟨h.kept, h.time, ?_, fun h2 => ?_, fun h2 => ?_, h.regsKept⟩
    · rw [w0, (show s.snapWord n 0 = q.frac / 2 ^ 16 from (le_or_gt n 2).elim (fun h => (snapWord_privileged h).1)
        fun h => (snapWord_wrapping h).1)]
      omega
    · obtain ⟨-, e1, e2, e3⟩ := snapWord_privileged (s := s) h2
      rw [w1, w2, w3, e1, e2, e3]
      exact ⟨Nat.mod_eq_of_lt hns, by change _ = (s.base n).sec; have : (s.base n).sec < 2 ^ 48 := hsec; omega⟩
    · obtain ⟨-, e1, e2, e3⟩ := snapWord_wrapping (s := s) h2
      rw [w1, w2, e1, e2]
      refine ⟨rfl, by change _ = (s.base n).wraps; have : (s.base n).wraps < 2 ^ 16 := hwraps; omega, ?_⟩
      exact BitVec.eq_of_toNat_eq (by rw [w3, e3]; rfl)
  case refine_11 =>
    refine holdoverLimit_idle fun ⟨h₁, h₂, h₃⟩ => ?_
    rcases h with h | h | h
    · exact h h₁
    · omega
    · rw [h₃] at h; cases h
  case refine_12 =>
    refine syncIntervalsMissed_idle fun ⟨h₁, _, h₃⟩ => ?_
    rcases h with h | h
    · exact h h₁
    · omega

end Sys2Proof.Machine
end

section
/-!
PROOFS. The boundary of a grid on its own, timed operations, and the operations of the TIME unit (O37).
-/
namespace Sys2Proof.Machine

variable {s₀ : State} (r : Run s₀) {s : State} {g n : Nat} {o : Op}

/-! ## Grids -/

@[simp] theorem setGrid_same (g : Nat) (x : Grid) : (r.setGrid g x).s.grid g = x := tget_tset_same ..

theorem setGrid_ne {g j : Nat} (h : j ≠ g) (x : Grid) : (r.setGrid g x).s.grid j = r.s.grid j := tget_tset_ne _ _ h ..

/-- The grid once its next boundary has been issued (R75, R77, R81, R226). -/
def State.gridIssued (s : State) (g : Nat) : Grid :=
  let x := s.grid g
  let here := if s.gridBase g = 0 then x.next else s.now
  let pred := x.tb0 + s.gridP g
  { x with
    last := x.next, idx := x.nextIdx, fine := s.gridFine g, nextIdx := (x.nextIdx + 1) % 2 ^ 64
    next := (x.next + s.gridP g) % (if s.gridBase g ≤ 2 then 2 ^ 64 else 2 ^ 48)
    tb0 := here, readAt := if here < pred ∧ pred ≤ here + s.gridP g / 2 then pred else here }

theorem gridAdvance_eq (g : Nat) : r.gridAdvance g = r.setGrid g (r.s.gridIssued g) := rfl

/-- Nothing but a BOUNDARY operation is bound to the grid: no commit waits, no axis, converter, loop context or lock group is on
it, and neither the isochronous cycle nor a partner session runs. -/
structure GridAlone (s : State) (g : Nat) : Prop where
  commits : s.commits = []
  axes : ∀ n, n < 48 → s.axGrid n ≠ g
  locks : s.lockAxesOn g = []
  converters : ∀ n, n < 12 → s.adcEn n = false
  contexts : ∀ c, c < 256 → s.leH c 5 1 % 16 ≠ g
  cycle : s.cycOn = false
  sessions : s.psRunning = []

/-- LE local memory is read as it stands. -/
theorem meshByte_le {a : Nat} (hlo : 0x3000000 ≤ a) (hhi : a < 0x3400000) (s : State) : s.meshByte a = s.byte a := by
  have hreg : regionOf a = .le := by
    rw [regionOf, if_neg (by omega), if_neg (by omega), if_neg (by omega), if_pos hhi]
  rw [State.meshByte, hreg]

/-- A header byte of a context depends on memory alone. -/
theorem leH_congr {u : State} (h : u.mem = s.mem) {c : Nat} (hc : c < 256) (off : Nat) (hoff : off < 0x2000) :
    u.leH c off 1 = s.leH c off 1 := by
  have hlo : 0x3000000 ≤ leBase c + off := by rw [leBase]; omega
  have hhi : leBase c + off < 0x3400000 := by rw [leBase]; omega
  have hbyte : ∀ t : State, t.leH c off 1 = ofBytesLE [t.byte (leBase c + off)] := fun t =>
    congrArg (fun b => ofBytesLE [b]) (meshByte_le hlo hhi t)
  rw [hbyte, hbyte, State.byte, State.byte, h]

/-- Neither the time block nor the operations in flight have a part in it. -/
theorem GridAlone.congr {u : State} (h : GridAlone s g) (hu : u = { s with time := u.time, sp := u.sp }) : GridAlone u g := by
  have hmem : u.mem = s.mem := by rw [hu]
  have hle : ∀ c, c < 256 → u.leH c 5 1 % 16 ≠ g := fun c hc => by
    rw [leH_congr hmem hc 5 (by norm_num)]
    exact h.contexts c hc
  rw [hu] at hle ⊢
  exact ⟨h.commits, h.axes, h.locks, h.converters, hle, h.cycle, h.sessions⟩

theorem when_fixed {b : Bool} {f : Run s₀ → Run s₀} (h : f r = r) : r.when b f = r := by
  cases b
  · rfl
  · exact h

theorem GridAlone.axesOn (h : GridAlone s g) : s.axesOn g = [] := by
  refine List.filter_eq_nil_iff.2 fun n hn => ?_
  simpa using h.axes n (List.mem_range.1 hn)

theorem adcBoundary_alone (h : GridAlone r.s g) : r.adcBoundary g = r := by
  have hnil : ((List.range 12).filter fun n => r.s.adcEn n && r.s.rf (Reg.adcCfgAct n) 25 24 == 1
      && r.s.rf (Reg.adcCfgAct n) 23 20 == g) = [] := by
    refine List.filter_eq_nil_iff.2 fun n hn => ?_
    simp [h.converters n (List.mem_range.1 hn)]
  rw [Run.adcBoundary, hnil, each_nil]

theorem leBoundary_alone (h : GridAlone r.s g) : r.leBoundary g = r := by
  have hnil : ((List.range 256).filter fun c => r.s.leH c 5 1 % 16 == g) = [] := by
    refine List.filter_eq_nil_iff.2 fun c hc => ?_
    simpa using h.contexts c (List.mem_range.1 hc)
  rw [Run.leBoundary, hnil, each_nil]

theorem psBoundary_alone (h : GridAlone r.s g) : r.psBoundary g = r := by
  rw [Run.psBoundary, h.sessions, List.filter_nil, each_nil]

/-- No commit acts at the boundary where none waits. -/
theorem commitsAt_none (h : r.s.commits = []) (g k : Nat) : r.commitsAt g k = r := by
  rw [Run.commitsAt, State.commitsHere, h, List.filter_nil, each_nil]

theorem boundaryOps_s (g : Nat) : (r.boundaryOps g).s = { r.s with sp := (r.boundaryOps g).s.sp } := by
  unfold Run.boundaryOps
  exact each_ind (P := fun q => q.s = { r.s with sp := q.s.sp }) (fun q o _ hq => by
    rw [Run.opEnd, opSet_s, hq]) rfl

/-- The blocks that wait for nothing else act at the boundary: lock groups, axes, converters, axis ports and loop contexts. -/
def Run.blocksAt (r : Run s₀) (g k v : Nat) : Run s₀ :=
  let r := r.each (r.s.lockAxesOn g) fun r n => r.axLock g n
  let r := r.each (r.s.axesOn g) fun r n => (r.axOps n k).axBoundary n k
  let r := r.adcBoundary g
  let r := r.each (r.s.axesOn g) fun r n => r.motBoundary n k v
  r.leBoundary g

theorem boundaryAt_eq (g k : Nat) : r.boundaryAt g k =
    let q := ((r.commitsAt g k).boundaryOps g).when ((r.commitsAt g k).boundaryOps g).s.blocksRun
      fun q => q.blocksAt g k (r.s.grid g).last
    let q := q.when (q.s.cycOn && q.s.cycGrid == g) fun q => q.herdCycle.redCycle
    q.when q.s.blocksRun fun q => q.psBoundary g := rfl

/-- The boundary of a grid on its own ends the BOUNDARY operations that wait for it, and does nothing else (R40, R85). -/
theorem boundaryAt_alone (h : GridAlone r.s g) (k : Nat) : r.boundaryAt g k = r.boundaryOps g := by
  have hq : GridAlone (r.boundaryOps g).s g := h.congr (by rw [boundaryOps_s])
  rw [boundaryAt_eq, commitsAt_none r h.commits]
  generalize r.boundaryOps g = q at hq
  have hblocks : q.blocksAt g k (r.s.grid g).last = q := by
    simp only [Run.blocksAt, hq.locks, hq.axesOn, each_nil, adcBoundary_alone q hq, leBoundary_alone q hq]
  dsimp only
  rw [when_fixed q hblocks, hq.cycle, Bool.false_and, when_false, when_fixed q (psBoundary_alone q hq)]

theorem exec_gridBoundary (g : Nat) (s : State) : exec (.gridBoundary g ()) s =
    if ¬ g < 16 ∨ !s.gridReached g then (Run.start s).done
    else (((Run.start s).gridAdvance g).boundaryAt g (((Run.start s).gridAdvance g).s.boundaryTb0 g)).done := rfl

theorem gridBoundary_idle (h : s.gridReached g = false) : Answers (.gridBoundary g ()) s (· = s) :=
  Run.answers (Run.start s) ((exec_gridBoundary g s).trans (if_pos (.inr (by simp [h])))) rfl

/-- A grid on its own reaches a boundary: the boundary is taken and the BOUNDARY operations that wait end. -/
theorem exec_gridBoundary_alone (hg : g < 16) (h : s.gridReached g = true) (ha : GridAlone s g) : exec (.gridBoundary g ()) s =
    (((Run.start s).setGrid g (s.gridIssued g)).boundaryOps g).done := by
  rw [exec_gridBoundary, if_neg (by simp [hg, h]), gridAdvance_eq, boundaryAt_alone]
  · rfl
  · exact ha.congr rfl

theorem gridBoundary_empty (hg : g < 16) (h : s.gridReached g = true) (ha : GridAlone s g)
    (hno : ∀ o ∈ s.sp.ops, ¬(o.unit = 13 ∧ o.code = 4 ∧ o.obj = g)) : Answers (.gridBoundary g ()) s fun u =>
      (u.grid g = s.gridIssued g ∧ ∀ j, j ≠ g → u.grid j = s.grid j) ∧ ∃ gr, u = { s with time := { s.time with grids := gr } } := by
  let q := (Run.start s).setGrid g (s.gridIssued g)
  have hnil : q.boundaryOps g = q := by
    have : (q.s.sp.ops.filter fun o => o.unit == 13 && o.code == 4 && o.obj == g && o.acted && o.out.isNone) = [] := by
      refine List.filter_eq_nil_iff.2 fun o ho => ?_
      have := hno o ho
      simp only [Bool.and_eq_true, beq_iff_eq]
      tauto
    rw [Run.boundaryOps, this, each_nil]
  refine Run.answers q ((exec_gridBoundary_alone hg h ha).trans (by rw [hnil])) ⟨⟨setGrid_same .., fun j hj => setGrid_ne _ hj _⟩, ?_⟩
  exact ⟨_, rfl⟩

/-- The outcome of an operation that ends: its status, and the stamp within 32 bits. -/
theorem opEnd_out (ho : r.s.op o.id = some o) (st : Status) (cause stamp : Nat) (res : List Byte) (uflags : Nat) :
    ∃ p c, (r.opEnd o st cause stamp res uflags).s.op o.id = some p ∧ p.out = some c ∧ c.status = st ∧ c.stamp = stamp % 2 ^ 32 :=
  ⟨_, _, op_opSet r (o := { o with
    acted := true
    actedAt := r.s.now
    out := some { status := st, cause := cause, uflags := uflags, unit := o.unit, code := o.code, tag := o.tag,
                  stamp := stamp % 2 ^ 32, obj := o.obj }
    results := res }) ho, rfl, rfl, rfl⟩

theorem gridBoundary_one (hg : g < 16) (h : s.gridReached g = true) (ha : GridAlone s g) (ho : s.sp.ops = [o])
    (hu : o.unit = 13) (hc : o.code = 4) (hob : o.obj = g) (hact : o.acted = true) (hout : o.out = none) :
    Answers (.gridBoundary g ()) s fun u => (u.grid g = s.gridIssued g ∧ ∀ j, j ≠ g → u.grid j = s.grid j) ∧
      MemKept s u ∧ RegsKept s u [] ∧
      ∃ p c, u.op o.id = some p ∧ p.out = some c ∧ c.status = o.okSt ∧ c.stamp = (s.grid g).next % 2 ^ 32 := by
  let q := (Run.start s).setGrid g (s.gridIssued g)
  have hlast : (q.s.grid g).last = (s.grid g).next := by rw [setGrid_same]; rfl
  have hone : q.boundaryOps g = q.opEnd o o.okSt 0 (s.grid g).next [] 0 := by
    have : (q.s.sp.ops.filter fun o => o.unit == 13 && o.code == 4 && o.obj == g && o.acted && o.out.isNone) = [o] := by
      show (s.sp.ops.filter _) = _
      simp [ho, hu, hc, hob, hact, hout]
    rw [Run.boundaryOps, this, each_cons, each_nil, hlast]
  have hop : q.s.op o.id = some o := by
    show (s.sp.ops.find? _) = _
    simp [ho]
  refine Run.answers (q.opEnd o o.okSt 0 (s.grid g).next [] 0) ((exec_gridBoundary_alone hg h ha).trans (by rw [hone]))
    ⟨⟨setGrid_same .., fun j hj => setGrid_ne _ hj _⟩, fun _ => rfl, fun _ _ => rfl, ?_⟩
  exact opEnd_out q hop o.okSt 0 (s.grid g).next [] 0

/-! ## Timed operations (R169) -/

theorem timedOpDue_comes {t : Nat} (ho : s.op o.id = some o) (ht : o.time = some t) (hacc : o.accepted = true) (hact : o.acted = false)
    (hlate : o.late = false) (hout : o.out = none) (hnow : t ≤ s.now) : Answers (.timedOpDue o.id) s fun u =>
      OnlyOp s u o.id ∧ u.op o.id = some { o with due := true, held := o.held || (s.opBlocked o && !gridBound o.unit o.code) } := by
  let p : Op := { o with due := true, held := o.held || (s.opBlocked o && !gridBound o.unit o.code) }
  refine Run.answers ((Run.start s).opSet p) ?_ ⟨opSet_onlyOp (Run.start s), op_opSet (Run.start s) (o := p) ho⟩
  show execTimedOpDue o.id s = _
  simp [execTimedOpDue, ho, ht, hacc, hact, hlate, hout, hnow, p]

theorem timedOpDue_early {t : Nat} (ho : s.op o.id = some o) (ht : o.time = some t) (hnow : s.now < t) :
    Answers (.timedOpDue o.id) s (· = s) := by
  refine Run.answers (Run.start s) ?_ rfl
  show execTimedOpDue o.id s = _
  simp [execTimedOpDue, ho, ht, Nat.not_le.2 hnow]

/-! ## The operations of TIME (R85) -/

/-- An operation takes effect and runs on: it stands as acted, and the rest of the state is kept. -/
theorem opAct_acts (ho : r.s.op o.id = some o) : (r.opAct o).s.op o.id = some { o with acted := true, actedAt := r.s.now } ∧
    OnlyOp r.s (r.opAct o).s o.id ∧ (r.opAct o).s.time = r.s.time :=
  ⟨op_opSet r (o := { o with acted := true, actedAt := r.s.now }) ho, opSet_onlyOp r (o := { o with acted := true, actedAt := r.s.now }), rfl⟩

theorem exec_timeSnap (h : OpMay s o 13 1) : exec (.timeSnap o.id) s = ((Run.start s).actTimeSnap o).done :=
  congrArg Run.done (opRow_may (Run.start s) Run.actTimeSnap h)

theorem exec_timeAdjust (h : OpMay s o 13 2) : exec (.timeAdjust o.id) s = ((Run.start s).actTimeAdjust o).done :=
  congrArg Run.done (opRow_may (Run.start s) Run.actTimeAdjust h)

theorem exec_timeBoundary (h : OpMay s o 13 4) : exec (.timeBoundary o.id) s = ((Run.start s).actTimeBoundary o).done :=
  congrArg Run.done (opRow_may (Run.start s) Run.actTimeBoundary h)

theorem timeSnap_answers (h : OpMay s o 13 1) : Answers (.timeSnap o.id) s fun u => OnlyOp s u o.id ∧ u.time = s.time ∧
    OpEnded u o.id o.okSt (wordsLE ((List.range 8).flatMap s.snapWords)) := by
  obtain ⟨h₁, -, h₂⟩ := opFin_ended (Run.start s) h.1 o.okSt 0 (wordsLE ((List.range 8).flatMap s.snapWords))
  exact Run.answers _ (exec_timeSnap h) ⟨h₁, rfl, h₂⟩

theorem timeBoundary_waits (h : OpMay s o 13 4) (hrun : (s.grid o.obj).running = true) : Answers (.timeBoundary o.id) s fun u =>
    OnlyOp s u o.id ∧ u.op o.id = some { o with acted := true, actedAt := s.now } ∧ u.time = s.time := by
  obtain ⟨h₁, h₂, h₃⟩ := opAct_acts (Run.start s) h.1
  have hact : (Run.start s).actTimeBoundary o = (Run.start s).opAct o := if_pos hrun
  exact Run.answers _ ((exec_timeBoundary h).trans (by rw [hact])) ⟨h₂, h₁, h₃⟩

theorem timeBoundary_refused (h : OpMay s o 13 4) (hrun : (s.grid o.obj).running = false) : Answers (.timeBoundary o.id) s fun u =>
    OnlyOp s u o.id ∧ OpEnded u o.id .refused [] ∧ u.time = s.time := by
  obtain ⟨h₁, -, h₂⟩ := opFin_ended (Run.start s) h.1 .refused 0 []
  have hact : (Run.start s).actTimeBoundary o = (Run.start s).opFin o .refused 0 [] := if_neg (by simp [hrun])
  exact Run.answers _ ((exec_timeBoundary h).trans (by rw [hact])) ⟨h₁, h₂, rfl⟩

/-! ### ADJUST -/

/-- The adjustment that an ADJUST asks for; a mode above 3 is taken as 3 (log 54). -/
def Op.adj (o : Op) : Adj :=
  ⟨if 3 ≤ recNat o.payload 0 1 then 3 else recNat o.payload 0 1, recNat o.payload 2 2, recNat o.payload 4 4, recNat o.payload 8 4,
    recNat o.payload 12 2⟩

theorem Op.adj_mode {m : Nat} (h : recNat o.payload 0 1 = m) (hm : m < 3) : o.adj.mode = m := by
  rw [Op.adj, h, if_neg (by omega)]

theorem Op.adj_amount (o : Op) : o.adj.amount = sInt 64 (recNat o.payload 4 4 + recNat o.payload 8 4 * 2 ^ 32) := by
  rw [Adj.amount, Nat.shiftLeft_eq]; rfl

theorem actTimeAdjust_eq (o : Op) : r.actTimeAdjust o = match r.s.adjOutcome o.obj o.adj with
    | .ok => (r.adjust o.obj o.adj (some o.id)).opAct o
    | .empty => r.opFin o .empty 0 []
    | st => r.adjRefused.opFin o st 0 [] := rfl

/-- Setting a base but TB0 leaves the present time. -/
theorem BaseSet.now {u : State} {b : Base} {l : List Nat} (h : BaseSet s u n b l) (hn : n ≠ 0) : u.now = s.now := by
  rw [State.now, h.others 0 hn.symm, State.now]

/-- A granted ADJUST on a base but TB0: the adjustment begins, and the operation runs on. -/
theorem timeAdjust_granted (h : OpMay s o 13 2) (hok : s.adjOutcome o.obj o.adj = .ok) (h0 : o.obj ≠ 0) {b : Base} {l : List Nat}
    (hset : BaseSet s ((Run.start s).adjust o.obj o.adj (some o.id)).s o.obj b l) : ∃ q : Run s, exec (.timeAdjust o.id) s = q.done ∧
      q.s.op o.id = some { o with acted := true, actedAt := s.now } ∧ OpsKept s q.s o.id ∧ MemKept s q.s ∧ RegsKept s q.s l ∧
      q.s.base o.obj = b ∧ (∀ j, j ≠ o.obj → q.s.base j = s.base j) ∧
      ∀ a, q.s.rget a = ((Run.start s).adjust o.obj o.adj (some o.id)).s.rget a := by
  obtain ⟨h₁, ⟨hm, hr, hops⟩, ht⟩ := opAct_acts ((Run.start s).adjust o.obj o.adj (some o.id)) ((hset.only.op _).trans h.1)
  rw [hset.now h0] at h₁
  refine ⟨_, (exec_timeAdjust h).trans (by rw [actTimeAdjust_eq, start_s, hok]), h₁, fun j hj => (hops j hj).trans (hset.only.op j),
    hset.only.memKept.trans hm, hset.only.regsKept.trans (hr.mono (List.nil_subset _)), ?_, fun j hj => ?_, fun a => hr a List.not_mem_nil⟩
  · rw [State.base, ht]; exact hset.same
  · rw [State.base, ht]; exact hset.others j hj

theorem timeAdjust_step (h : OpMay s o 13 2) (hm : recNat o.payload 0 1 = 0) (h3 : 3 ≤ o.obj) (hs : (s.base o.obj).slewing = false)
    (ha : o.adj.amount ≠ 0) (hg : s.baseHasGrid o.obj = false) : Answers (.timeAdjust o.id) s fun u => OnlyOp s u o.id ∧
      u.op o.id = some { o with acted := true, actedAt := s.now } ∧
      u.base o.obj = { s.base o.obj with moves := (s.base o.obj).moves ++ [(.add (o.adj.amount * 2 ^ 32), .op o.id)] } ∧
      ∀ j, j ≠ o.obj → u.base j = s.base j := by
  have hmode := Op.adj_mode hm (by decide)
  have hadj : (Run.start s).adjust o.obj o.adj (some o.id) = (Run.start s).moveLater o.obj (.add (o.adj.amount * 2 ^ 32)) (.op o.id) := by
    have hmove : o.adj.move o.obj = .add (o.adj.amount * 2 ^ 32) := if_pos hmode
    unfold Run.adjust
    rw [if_neg (by rw [hmode]; decide), hmove]
  obtain ⟨q, hex, h₁, h₂, h₃, h₄, h₅, h₆, -⟩ := timeAdjust_granted h (adjOutcome_step_ok hmode h3 hg hs ha) (by omega)
    (hadj ▸ moveLater_sets (Run.start s) o.obj (.add (o.adj.amount * 2 ^ 32)) (.op o.id) [])
  exact Run.answers q hex ⟨⟨h₃, h₄, h₂⟩, h₁, h₅, h₆⟩

theorem timeAdjust_slew (h : OpMay s o 13 2) (hm : recNat o.payload 0 1 = 1) (hp : 1 ≤ recNat o.payload 2 2 ∧ recNat o.payload 2 2 ≤ 500)
    (h3 : 3 ≤ o.obj) (h8 : o.obj < 8) (hs : (s.base o.obj).slewing = false) (ha : o.adj.amount ≠ 0) :
    Answers (.timeAdjust o.id) s fun u => u.op o.id = some { o with acted := true, actedAt := s.now } ∧
      u.base o.obj = (s.base o.obj).slewBegun o.adj.amount (recNat o.payload 2 2) (some o.id) ∧
      u.rb (Reg.timeTbAdjctl o.obj) 16 = true ∧ RegsKept s u [Reg.timeTbAdjctl o.obj] ∧ OpsKept s u o.id ∧ MemKept s u := by
  have hmode := Op.adj_mode hm (by decide)
  obtain ⟨hset, hb⟩ := adjust_slew (Run.start s) h8 hmode (some o.id)
  obtain ⟨q, hex, h₁, h₂, h₃, h₄, h₅, -, h₇⟩ := timeAdjust_granted h
    (adjOutcome_slew_ok hmode hp (by omega) (by omega) hs ha) (by omega) hset
  exact Run.answers q hex ⟨h₁, h₅, by rw [State.rb, h₇]; exact hb, h₄, h₂, h₃⟩

theorem timeAdjust_refused (h : OpMay s o 13 2) (hm : recNat o.payload 0 1 = 0) (h3 : 3 ≤ o.obj) (hg : s.baseHasGrid o.obj = true) :
    Answers (.timeAdjust o.id) s fun u => u.time = s.time ∧ OpEnded u o.id .refused [] ∧ OpsKept s u o.id ∧ MemKept s u ∧
      RegsKept s u [Reg.timeEvstat] ∧ u.rb Reg.timeEvstat 6 = true := by
  have hf := flag_onlyRegs (Run.start s) Reg.timeEvstat 6
  obtain ⟨h₁, h₂, h₃, h₄⟩ := opEnd_after (Run.start s) ((hf.op o.id).trans h.1) (fun j _ => hf.op j) hf.memKept hf.regsKept .refused 0
    ((Run.start s).adjRefused).s.now32 [] 0
  refine Run.answers ((Run.start s).adjRefused.opFin o .refused 0 []) ?_
    ⟨hf.time, h₁, h₂, h₃, h₄, timeFlag_rb (Run.start s) (by decide)⟩
  rw [exec_timeAdjust h, actTimeAdjust_eq, start_s, adjOutcome_step_grid (Op.adj_mode hm (by decide)) h3 hg]

/-- The tick that makes the step of an ADJUST ends the operation (R55, R85). -/
theorem movesDue_op (h3 : 3 ≤ n) (hf : (s.base n).frac < 2 ^ 32) (ho : s.op o.id = some o) (hout : o.out = none) {d : Int}
    (hm : (s.base n).moves = [(.add (d * 2 ^ 32), .op o.id)]) : let u := ((Run.start s).movesDue n).s
    OnlyOp s u o.id ∧ OpEnded u o.id o.okSt [] ∧
      u.base n = { s.base n with moves := [], int := (((s.base n).int + d) % 2 ^ 32).toNat } := by
  obtain ⟨q, hq, he⟩ := movesDue_step (Run.start s) h3 hf hm
  have hop : q.s.op o.id = some o := ((hq []).only.op _).trans ho
  have hend : q.moveTold n (.op o.id) = q.opFin o o.okSt 0 [] := by
    rw [Run.moveTold, Run.opFinId, hop]; simp [hout]
  obtain ⟨h₁, h₂, h₃, h₄⟩ := opEnd_after (Run.start s) hop (fun j _ => (hq []).only.op j) (hq []).only.memKept (hq []).only.regsKept
    o.okSt 0 q.s.now32 [] 0
  rw [he, hend]
  exact ⟨⟨h₃, h₄, h₂⟩, h₁, (hq []).same⟩

/-- Settles O37: the boundary of a grid on which nothing else is bound (`boundaryAt_alone`), timed operations, and a lemma for each
operation of TIME. -/
theorem gridsAndTimedOperations : Obligations.GridsAndTimedOperations := by
  intro s g hg x
  refine ⟨gridBoundary_idle, ?_, ?_, ?_⟩
  · intro h hc hax hlk had hle hcy hps here pred next moved
    have ha : GridAlone s g := ⟨hc, hax, hlk, had, hle, hcy, hps⟩
    exact ⟨gridBoundary_empty hg h ha, fun o => gridBoundary_one hg h ha⟩
  · exact fun o t ho ht => ⟨timedOpDue_comes ho ht, timedOpDue_early ho ht⟩
  · intro o b amt
    have hamt : o.adj.amount = amt := Op.adj_amount o
    refine ⟨timeSnap_answers, ?_, fun d ho hout h3 _ hf hm => movesDue_op h3 hf ho hout hm, ?_, timeBoundary_waits, timeBoundary_refused⟩
    · exact fun h hm h3 _ hs ha => ⟨fun hg => hamt ▸ timeAdjust_step h hm h3 hs (by rwa [hamt]) hg, timeAdjust_refused h hm h3⟩
    · exact fun h hm hp hp' h3 h8 hs ha => hamt ▸ timeAdjust_slew h hm ⟨hp, hp'⟩ h3 h8 hs (by rwa [hamt])

end Sys2Proof.Machine
end

section
/-!
PROOFS. Stamps of edges, the stamp FIFO and the pulse per second (O36).
-/
namespace Sys2Proof.Machine

variable {s₀ : State} (r : Run s₀) {s : State} {ch f : Nat} {rising : Bool}

/-! ## The stamp channels -/

@[simp] theorem setTrig_same (ch : Nat) (x : TrigCh) : (r.setTrig ch x).s.trig ch = x := tget_tset_same ..

theorem setTrig_ne {ch j : Nat} (h : j ≠ ch) (x : TrigCh) : (r.setTrig ch x).s.trig j = r.s.trig j := tget_tset_ne _ _ h ..

/-- The second state differs from the first in stamp channel `ch`, which is `c` there, and in registers of a list only. -/
structure TrigSet (s u : State) (ch : Nat) (c : TrigCh) (l : List Nat) : Prop where
  only : OnlyTime s u l
  same : u.trig ch = c
  others : ∀ j, j ≠ ch → u.trig j = s.trig j
  bases : u.time.bases = s.time.bases

theorem setTrig_sets (ch : Nat) (c : TrigCh) (l : List Nat) : TrigSet r.s (r.setTrig ch c).s ch c l :=
  ⟨mapTime_onlyTime .., setTrig_same r ch c, fun _ hj => setTrig_ne r hj c, rfl⟩

theorem OnlyRegs.trig {s u : State} {l : List Nat} (h : OnlyRegs s u l) (ch : Nat) : u.trig ch = s.trig ch := by
  rw [State.trig, h.time, State.trig]

/-- Registers written after the channel has been set. -/
theorem TrigSet.then {s t u : State} {c : TrigCh} {l : List Nat} (h : TrigSet s t ch c l) (g : OnlyRegs t u l) : TrigSet s u ch c l :=
  ⟨h.only.trans g.onlyTime, (g.trig ch).trans h.same, fun j hj => (g.trig j).trans (h.others j hj), by rw [g.time, h.bases]⟩

/-- The channel set twice. -/
theorem TrigSet.again {s t u : State} {c d : TrigCh} {l : List Nat} (h : TrigSet s t ch c l) (g : TrigSet t u ch d l) :
    TrigSet s u ch d l :=
  ⟨h.only.trans g.only, g.same, fun j hj => (g.others j hj).trans (h.others j hj), g.bases.trans h.bases⟩

theorem OnlyRegs.trigSet {u : State} {l : List Nat} (h : OnlyRegs s u l) (ch : Nat) : TrigSet s u ch (s.trig ch) l :=
  ⟨h.onlyTime, h.trig ch, fun j _ => h.trig j, by rw [h.time]⟩

theorem TrigSet.mono {u : State} {c : TrigCh} {l m : List Nat} (h : TrigSet s u ch c l) (hl : l ⊆ m) : TrigSet s u ch c m :=
  ⟨h.only.mono hl, h.same, h.others, h.bases⟩

/-- What a change of one channel keeps. -/
theorem TrigSet.kept {u : State} {c : TrigCh} {l : List Nat} (h : TrigSet s u ch c l) :
    (∀ j, j ≠ ch → u.trig j = s.trig j) ∧ MemKept s u ∧ u.sp = s.sp ∧ u.time.bases = s.time.bases :=
  ⟨h.others, h.only.memKept, h.only.kept.2.1, h.bases⟩

theorem trigStat_mask : ∀ ch < 9, ∀ i < 32, 16 ≤ i → bit (implMask (Reg.timeTrigStat ch)).toNat i = true := by decide +kernel

theorem trigOut_mask : ∀ ch < 9, implMask (Reg.timeTrigOut1 ch) = BitVec.allOnes 32 ∧
    implMask (Reg.timeTrigOut2 ch) = BitVec.allOnes 32 := by decide +kernel

/-! ## Taking an edge (R68, R71, R72) -/

/-- No trigger unit and no converter is enabled, so an edge goes to none. -/
structure EdgesUnused (s : State) : Prop where
  units : ∀ k, k < 64 → s.rb (Reg.captTrCfgAct k) 31 = false
  converters : ∀ k, k < 12 → s.adcEn k = false

theorem EdgesUnused.congr {u : State} {l : List Nat} (h : EdgesUnused s) (hu : RegsKept s u l)
    (hl : ∀ a ∈ l, 0x4020000 ≤ a ∧ a < 0x4030000) : EdgesUnused u := by
  refine ⟨fun k hk => (hu.rb (fun ha => ?_) 31).trans (h.units k hk), fun k hk => (hu.rb (fun ha => ?_) 31).trans (h.converters k hk)⟩ <;>
  · have := hl _ ha
    simp only [Reg.captTrCfgAct, Reg.adcCfgAct] at this
    omega

theorem captPin_unused (h : EdgesUnused r.s) (ch : Nat) (st : Stamp) : r.captPin ch st = r := by
  have hnil : ((List.range 64).filter fun u =>
      r.s.rb (Reg.captTrCfgAct u) 31 && r.s.rf (Reg.captTrCfgAct u) 23 20 == 9 && r.s.rf (Reg.captTrCfgAct u) 3 0 == ch
        && (r.s.csState (r.s.rf (Reg.captTrCfgAct u) 27 24) == 2 || r.s.csState (r.s.rf (Reg.captTrCfgAct u) 27 24) == 3)) = [] := by
    refine List.filter_eq_nil_iff.2 fun u hu => ?_
    simp [h.units u (List.mem_range.1 hu)]
  unfold Run.captPin
  exact if_pos (by rw [hnil]; rfl)

theorem adcPin_unused (h : EdgesUnused r.s) (ch : Nat) (rising : Bool) : r.adcPin ch rising = r := by
  have hnil : ((List.range 12).filter fun n => r.s.adcEn n && r.s.rf (Reg.adcCfgAct n) 25 24 == 2
      && r.s.rf (Reg.adcCfgAct n) 23 20 == ch) = [] := by
    refine List.filter_eq_nil_iff.2 fun n hn => ?_
    simp [h.converters n (List.mem_range.1 hn)]
  rw [Run.adcPin, hnil, each_nil, ite_self]

/-- An edge lies less than 20 ns after the last one of its channel. -/
def TrigCh.near (c : TrigCh) (t : Nat) : Prop := ∃ l, c.lastEdge = some l ∧ t < l + 256

theorem trigEdge_eq (st : Stamp) (t : Nat) : r.trigEdge ch st t =
    if !r.s.trigTakes ch st.rising then (r, none)
    else if (match (r.s.trig ch).lastEdge with | none => false | some l => decide (t < l + 256)) || decide (16 ≤ (r.s.trig ch).fifo.length) then
      ((r.count (Reg.timeTrigStat ch) 31 16).flag Reg.timeEvstat 7, none)
    else
      let r' := r.setTrig ch { r.s.trig ch with fifo := (r.s.trig ch).fifo ++ [st], lastEdge := some t }
      (if (r.s.trig ch).fifo.isEmpty then r'.flag Reg.timeEvstat 4 else r', some st) := rfl

theorem near_decides (c : TrigCh) (t : Nat) :
    (match c.lastEdge with | none => false | some l => decide (t < l + 256)) = true ↔ c.near t := by
  rw [TrigCh.near]
  cases c.lastEdge <;> simp

theorem trigEdge_ignored {st : Stamp} (h : r.s.trigTakes ch st.rising = false) (t : Nat) : r.trigEdge ch st t = (r, none) := by
  rw [trigEdge_eq, if_pos (by simp [h])]

theorem trigEdge_lost {st : Stamp} {t : Nat} (h : r.s.trigTakes ch st.rising = true)
    (hlost : (r.s.trig ch).near t ∨ 16 ≤ (r.s.trig ch).fifo.length) :
    r.trigEdge ch st t = ((r.count (Reg.timeTrigStat ch) 31 16).flag Reg.timeEvstat 7, none) := by
  rw [trigEdge_eq, if_neg (by simp [h]), if_pos]
  rw [Bool.or_eq_true, near_decides, decide_eq_true_eq]
  exact hlost

theorem trigEdge_taken {st : Stamp} {t : Nat} (h : r.s.trigTakes ch st.rising = true) (hnear : ¬(r.s.trig ch).near t)
    (hroom : (r.s.trig ch).fifo.length < 16) : ∃ q : Run s₀, r.trigEdge ch st t = (q, some st) ∧
      TrigSet r.s q.s ch { r.s.trig ch with fifo := (r.s.trig ch).fifo ++ [st], lastEdge := some t } [Reg.timeEvstat] ∧
      ((r.s.trig ch).fifo = [] → q.s.rb Reg.timeEvstat 4 = true) := by
  let a := r.setTrig ch { r.s.trig ch with fifo := (r.s.trig ch).fifo ++ [st], lastEdge := some t }
  have ha := setTrig_sets r ch { r.s.trig ch with fifo := (r.s.trig ch).fifo ++ [st], lastEdge := some t } [Reg.timeEvstat]
  rw [trigEdge_eq, if_neg (by simp [h]), if_neg]
  · by_cases hf : (r.s.trig ch).fifo = []
    · exact ⟨a.flag Reg.timeEvstat 4, by simp [hf, a], ha.then (flag_onlyRegs ..), fun _ => timeFlag_rb a (by decide)⟩
    · exact ⟨a, by simp [hf, a], ha, fun h => absurd h hf⟩
  · rw [Bool.or_eq_true, near_decides, decide_eq_true_eq]
    exact fun h => h.elim hnear (by omega)

/-- What becomes of a qualified edge where no unit and no converter uses it. -/
theorem trigTake_eq (h : EdgesUnused r.s) (w : TrigWait) (q : Run s₀) (x : Option Stamp) (hq : r.trigEdge ch w.stamp w.edge = (q, x))
    {l : List Nat} (hr : RegsKept r.s q.s l) (hl : ∀ a ∈ l, 0x4020000 ≤ a ∧ a < 0x4030000) : r.trigTake ch w = q := by
  have hu := h.congr hr hl
  rw [Run.trigTake, hq]
  cases x with
  | none => exact adcPin_unused q hu ..
  | some x =>
    dsimp only
    rw [captPin_unused q hu, adcPin_unused q hu]

theorem trigTake_taken (hun : EdgesUnused r.s) {w : TrigWait} (h : r.s.trigTakes ch w.stamp.rising = true)
    (hnear : ¬(r.s.trig ch).near w.edge) (hroom : (r.s.trig ch).fifo.length < 16) :
      TrigSet r.s (r.trigTake ch w).s ch { r.s.trig ch with fifo := (r.s.trig ch).fifo ++ [w.stamp], lastEdge := some w.edge } [Reg.timeEvstat] ∧
      ((r.s.trig ch).fifo = [] → (r.trigTake ch w).s.rb Reg.timeEvstat 4 = true) := by
  obtain ⟨q, hq, hset, hfirst⟩ := trigEdge_taken r h hnear hroom
  rw [trigTake_eq r hun w q _ hq hset.only.regsKept (by decide)]
  exact ⟨hset, hfirst⟩

theorem trigTake_ignored (hun : EdgesUnused r.s) {w : TrigWait} (h : r.s.trigTakes ch w.stamp.rising = false) : r.trigTake ch w = r :=
  trigTake_eq r hun w r none (trigEdge_ignored r h _) (l := []) (fun _ _ => rfl) (by simp)

theorem trigTake_lost (hch : ch < 9) (hun : EdgesUnused r.s) {w : TrigWait} (h : r.s.trigTakes ch w.stamp.rising = true)
    (hlost : (r.s.trig ch).near w.edge ∨ 16 ≤ (r.s.trig ch).fifo.length) : let u := (r.trigTake ch w).s
      TrigSet r.s u ch (r.s.trig ch) [Reg.timeEvstat, Reg.timeTrigStat ch] ∧ u.rb Reg.timeEvstat 7 = true ∧
      u.rf (Reg.timeTrigStat ch) 31 16 = min (r.s.rf (Reg.timeTrigStat ch) 31 16 + 1) 0xFFFF := by
  let a := r.count (Reg.timeTrigStat ch) 31 16
  have hc : OnlyRegs r.s a.s [Reg.timeTrigStat ch] := count_onlyRegs ..
  have hf : OnlyRegs a.s (a.flag Reg.timeEvstat 7).s [Reg.timeEvstat] := flag_onlyRegs ..
  have hne : Reg.timeTrigStat ch ∉ [Reg.timeEvstat] := by
    simp only [Reg.timeTrigStat, Reg.timeEvstat, List.mem_singleton]
    omega
  have hall : OnlyRegs r.s (a.flag Reg.timeEvstat 7).s [Reg.timeEvstat, Reg.timeTrigStat ch] :=
    (hc.mono (by simp)).trans (hf.mono (by simp))
  rw [trigTake_eq r hun w _ _ (trigEdge_lost r h hlost) hall.regsKept fun a ha => ?_]
  · refine ⟨hall.trigSet ch, timeFlag_rb a (by decide), ?_⟩
    rw [hf.rf hne]
    exact count_rf r (by decide) (by decide) fun i h₁ h₂ => trigStat_mask ch hch i (by omega) h₁
  · rcases List.mem_cons.1 ha with rfl | ha
    · decide
    · rw [List.mem_singleton.1 ha]
      simp only [Reg.timeTrigStat]
      omega

/-! ## TRIG_EDGE -/

/-- The edge that a channel stamps now. -/
def State.edgeNow (s : State) (ch : Nat) (rising : Bool) (f : Nat) : TrigWait :=
  ⟨s.mkStamp rising (s.rf (Reg.timeTrigCfg ch) 6 4) (s.stampOf ch (s.rf (Reg.timeTrigCfg ch) 6 4) f), s.edgeAt f,
    s.cyc / 4 + s.rf (Reg.timeTrigCfg ch) 23 16⟩

/-- The value of a stamp of a base that does not wrap, in units of 2⁻¹⁶ ns. -/
theorem mkStamp_value {n : Nat} (h : n ≤ 2) (v : Int) : let st := s.mkStamp rising n v
    st.rising = rising ∧ st.base = n ∧ st.sub < 2 ^ 16 ∧ st.lo < 2 ^ 32 ∧
      (((st.hi * 2 ^ 32 + st.lo) * 2 ^ 16 + st.sub : Nat) : Int) = v % 2 ^ 80 := by
  refine ⟨rfl, rfl, Nat.mod_lt _ (by decide), Nat.mod_lt _ (by decide), ?_⟩
  have hpos : 0 ≤ v % 2 ^ 80 := Int.emod_nonneg _ (by decide)
  have hlt : v % 2 ^ 80 < 2 ^ 80 := Int.emod_lt_of_pos _ (by decide)
  have hu : uNat 80 v = (v % 2 ^ 80).toNat := rfl
  simp only [State.mkStamp, if_pos h, hu, Nat.shiftRight_eq_div_pow]
  omega

theorem stampOf_eq (ch n f : Nat) : s.stampOf ch n f =
    (((((s.base n).int * 2 ^ 32 + (s.base n).frac) * 64 + f * (s.base n).added + 2 ^ 21) / 2 ^ 22 : Nat) : Int) - s.calInt (0x060 + 4 * ch) := by
  simp only [State.stampOf, Nat.shiftLeft_eq, Nat.shiftRight_eq_div_pow]

theorem exec_trigEdge (hch : ch < 9) (hf : f < 64) (hw : (s.trig ch).wait = none) : exec (.trigEdge ch rising f) s =
    (if s.rf (Reg.timeTrigCfg ch) 23 16 = 0 then (Run.start s).trigTake ch (s.edgeNow ch rising f)
      else (Run.start s).setTrig ch { s.trig ch with wait := some (s.edgeNow ch rising f) }).done := by
  show execTrigEdge ch rising f s = _
  rw [execTrigEdge, if_neg (by omega)]
  simp only [hw]
  rfl

theorem exec_trigEdge_waiting (hch : ch < 9) (hf : f < 64) {w : TrigWait} (hw : (s.trig ch).wait = some w) :
    exec (.trigEdge ch rising f) s = if w.stamp.rising == rising then (Run.start s).done
      else ((Run.start s).setTrig ch { s.trig ch with wait := none }).done := by
  show execTrigEdge ch rising f s = _
  rw [execTrigEdge, if_neg (by omega)]
  simp only [hw]

/-- The channel does not take the edge. -/
theorem trigEdge_ignores (hch : ch < 9) (hf : f < 64) (hun : EdgesUnused s) (hfl : s.rf (Reg.timeTrigCfg ch) 23 16 = 0)
    (hw : (s.trig ch).wait = none) (h : s.trigTakes ch rising = false) : Answers (.trigEdge ch rising f) s (· = s) :=
  Run.answers _ ((exec_trigEdge hch hf hw).trans (by rw [if_pos hfl])) 
    (congrArg Run.s (trigTake_ignored (Run.start s) hun (w := s.edgeNow ch rising f) h))

/-- The channel takes the edge: its stamp joins the FIFO. -/
theorem trigEdge_joins (hch : ch < 9) (hf : f < 64) (hun : EdgesUnused s) (hfl : s.rf (Reg.timeTrigCfg ch) 23 16 = 0)
    (hw : (s.trig ch).wait = none) (h : s.trigTakes ch rising = true) (hnear : ¬(s.trig ch).near (s.edgeAt f))
    (hroom : (s.trig ch).fifo.length < 16) : Answers (.trigEdge ch rising f) s fun u =>
      TrigSet s u ch { fifo := (s.trig ch).fifo ++ [(s.edgeNow ch rising f).stamp], lastEdge := some (s.edgeAt f) } [Reg.timeEvstat] ∧
      ((s.trig ch).fifo = [] → u.rb Reg.timeEvstat 4 = true) := by
  obtain ⟨hset, hfirst⟩ := trigTake_taken (Run.start s) hun (w := s.edgeNow ch rising f) h hnear hroom
  dsimp only [start_s] at hset
  rw [hw] at hset
  exact Run.answers _ ((exec_trigEdge hch hf hw).trans (by rw [if_pos hfl])) ⟨hset, hfirst⟩

/-- The edge is lost. -/
theorem trigEdge_loses (hch : ch < 9) (hf : f < 64) (hun : EdgesUnused s) (hfl : s.rf (Reg.timeTrigCfg ch) 23 16 = 0)
    (hw : (s.trig ch).wait = none) (h : s.trigTakes ch rising = true)
    (hlost : (s.trig ch).near (s.edgeAt f) ∨ 16 ≤ (s.trig ch).fifo.length) : Answers (.trigEdge ch rising f) s fun u =>
      TrigSet s u ch (s.trig ch) [Reg.timeEvstat, Reg.timeTrigStat ch] ∧ u.rb Reg.timeEvstat 7 = true ∧
      u.rf (Reg.timeTrigStat ch) 31 16 = min (s.rf (Reg.timeTrigStat ch) 31 16 + 1) 0xFFFF :=
  Run.answers _ ((exec_trigEdge hch hf hw).trans (by rw [if_pos hfl]))
    (trigTake_lost (Run.start s) hch hun (w := s.edgeNow ch rising f) h hlost)

theorem trigEdge_waits (hch : ch < 9) (hf : f < 64) (hfl : 0 < s.rf (Reg.timeTrigCfg ch) 23 16) (hw : (s.trig ch).wait = none) :
    Answers (.trigEdge ch rising f) s fun u =>
      TrigSet s u ch { s.trig ch with wait := some (s.edgeNow ch rising f) } [] :=
  Run.answers _ ((exec_trigEdge hch hf hw).trans (by rw [if_neg (by omega)])) (setTrig_sets (Run.start s) ch _ [])

theorem trigEdge_again (hch : ch < 9) (hf : f < 64) {w : TrigWait} (hw : (s.trig ch).wait = some w) (h : w.stamp.rising = rising) :
    Answers (.trigEdge ch rising f) s (· = s) :=
  Run.answers (Run.start s) ((exec_trigEdge_waiting hch hf hw).trans (if_pos (by simp [h]))) rfl

theorem trigEdge_back (hch : ch < 9) (hf : f < 64) {w : TrigWait} (hw : (s.trig ch).wait = some w) (h : w.stamp.rising = !rising) :
    Answers (.trigEdge ch rising f) s fun u => TrigSet s u ch { s.trig ch with wait := none } [] :=
  Run.answers _ ((exec_trigEdge_waiting hch hf hw).trans (if_neg (by simp [h]))) (setTrig_sets (Run.start s) ch _ [])

theorem trigDue_early {w : TrigWait} (hw : (r.s.trig ch).wait = some w) (h : r.s.cyc / 4 < w.due) : r.trigDue ch = r := by
  rw [Run.trigDue, hw]
  exact if_neg (by omega)

theorem trigDue_taken (hun : EdgesUnused r.s) {w : TrigWait} (hw : (r.s.trig ch).wait = some w) (hdue : w.due ≤ r.s.cyc / 4)
    (h : r.s.trigTakes ch w.stamp.rising = true) (hnear : ¬(r.s.trig ch).near w.edge) (hroom : (r.s.trig ch).fifo.length < 16) :
    TrigSet r.s (r.trigDue ch).s ch { fifo := (r.s.trig ch).fifo ++ [w.stamp], lastEdge := some w.edge } [Reg.timeEvstat] := by
  let a := r.setTrig ch { r.s.trig ch with wait := none }
  have ha : a.s.trig ch = { r.s.trig ch with wait := none } := setTrig_same ..
  have hex : r.trigDue ch = a.trigTake ch w := by
    rw [Run.trigDue, hw]
    exact if_pos hdue
  have hun' : EdgesUnused a.s := hun.congr (l := []) (fun _ _ => rfl) (by simp)
  obtain ⟨hset, -⟩ := trigTake_taken (ch := ch) a hun' (w := w) h (by rw [ha]; exact hnear) (by rw [ha]; exact hroom)
  rw [hex]
  rw [ha] at hset
  exact (setTrig_sets r ch _ _).again hset

/-! ## TRIG_OUT0_READ (R71) -/

theorem trigOut0Read_some (hch : ch < 9) {x : Stamp} {t : List Stamp} (h : (s.trig ch).fifo = x :: t) (hlo : x.lo < 2 ^ 32)
    (hhi : x.hi < 2 ^ 32) : Answers (.trigOut0Read ch) s fun u =>
      ((∀ j, j ≠ ch → u.trig j = s.trig j) ∧ MemKept s u ∧ u.sp = s.sp ∧ u.time.bases = s.time.bases) ∧
      u.trig ch = { s.trig ch with fifo := t } ∧ (u.rget (Reg.timeTrigOut1 ch)).toNat = x.lo ∧
      (u.rget (Reg.timeTrigOut2 ch)).toNat = x.hi ∧ u.rget (Reg.timeTrigOut0 ch) = 0 ∧
      u.resp = ⟨.ok, [2 ^ 31 + (if x.rising then 1 else 2) * 2 ^ 29 + x.base * 2 ^ 26 + x.sub]⟩ ∧
      RegsKept s u [Reg.timeTrigOut0 ch, Reg.timeTrigOut1 ch, Reg.timeTrigOut2 ch] := by
  let a := (Run.start s).setTrig ch { s.trig ch with fifo := t }
  let b := a.wr (Reg.timeTrigOut1 ch) x.lo
  let c := b.wr (Reg.timeTrigOut2 ch) x.hi
  let q := c.wr (Reg.timeTrigOut0 ch) 0
  let v := 2 ^ 31 + (if x.rising then 1 else 2) * 2 ^ 29 + x.base * 2 ^ 26 + x.sub
  have hb : OnlyRegs a.s b.s [Reg.timeTrigOut1 ch] := wr_onlyRegs ..
  have hc : OnlyRegs b.s c.s [Reg.timeTrigOut2 ch] := wr_onlyRegs ..
  have hq : OnlyRegs c.s q.s [Reg.timeTrigOut0 ch] := wr_onlyRegs ..
  have hall : TrigSet s q.s ch { s.trig ch with fifo := t } [Reg.timeTrigOut0 ch, Reg.timeTrigOut1 ch, Reg.timeTrigOut2 ch] :=
    (((setTrig_sets (Run.start s) ch _ _).then (hb.mono (by simp))).then (hc.mono (by simp))).then (hq.mono (by simp))
  obtain ⟨hm1, hm2⟩ := trigOut_mask ch hch
  have hex : exec (.trigOut0Read ch) s = (q.answer .ok [v]).done := by
    show execTrigOut0Read ch s = _
    rw [execTrigOut0Read, Run.readTrigOut, start_s, h]
    simp only [Nat.shiftLeft_eq]
    rfl
  refine Run.answers _ hex ⟨hall.kept, hall.same, ?_, ?_, ?_, rfl, hall.only.regsKept⟩
  · show (q.s.rget _).toNat = _
    rw [hq.2 _ (by simp), hc.2 _ (by simp), wr_full a hm1, Nat.mod_eq_of_lt hlo]
  · show (q.s.rget _).toNat = _
    rw [hq.2 _ (by simp), wr_full b hm2, Nat.mod_eq_of_lt hhi]
  · show q.s.rget _ = _
    rw [wr_s, rget_reg_same]
    exact BitVec.zero_and

theorem trigOut0Read_none (h : (s.trig ch).fifo = []) : Answers (.trigOut0Read ch) s fun u => u.time = s.time ∧
    u.rget (Reg.timeTrigOut0 ch) = 0 ∧ u.resp = ⟨.ok, [(s.rget (Reg.timeTrigOut0 ch)).toNat % 2 ^ 31]⟩ ∧
    RegsKept s u [Reg.timeTrigOut0 ch] ∧ MemKept s u := by
  let q := (Run.start s).wr (Reg.timeTrigOut0 ch) 0
  have hq : OnlyRegs s q.s [Reg.timeTrigOut0 ch] := wr_onlyRegs ..
  have hex : exec (.trigOut0Read ch) s = (q.answer .ok [(s.rget (Reg.timeTrigOut0 ch)).toNat % 2 ^ 31]).done := by
    show execTrigOut0Read ch s = _
    rw [execTrigOut0Read, Run.readTrigOut, start_s, h]
  refine Run.answers _ hex ⟨hq.time, ?_, rfl, hq.regsKept, hq.memKept⟩
  show q.s.rget _ = _
  rw [wr_s, rget_reg_same]
  exact BitVec.zero_and

/-! ## The pulse per second (R73) -/

theorem ppsTick_late (h : 0 ≤ r.s.ppsSteps) : r.ppsTick =
    if r.s.rb Reg.timePpsCfg 31 && (((r.s.base (r.s.rf Reg.timePpsCfg 30 29)).tick (r.s.rf Reg.timePpsCfg 30 29)).sec
        != (r.s.base (r.s.rf Reg.timePpsCfg 30 29)).sec) then
      r.mapTime fun t => { t with ppsDue := some (2 * r.s.cyc + r.s.ppsSteps.toNat) }
    else r := by
  have hj : divUp (-r.s.ppsSteps).toNat 8 = 0 := by rw [Int.toNat_of_nonpos (by omega)]; rfl
  have hat : (((r.s.cyc * 2 + 8 * 0 : Nat) : Int) + r.s.ppsSteps).toNat = 2 * r.s.cyc + r.s.ppsSteps.toNat := by omega
  unfold Run.ppsTick
  simp only [hj, hat]
  rfl

theorem ppsTick_second (hon : r.s.rb Reg.timePpsCfg 31 = true) (h : 0 ≤ r.s.ppsSteps)
    (hsec : ((r.s.base (r.s.rf Reg.timePpsCfg 30 29)).tick (r.s.rf Reg.timePpsCfg 30 29)).sec
      ≠ (r.s.base (r.s.rf Reg.timePpsCfg 30 29)).sec) :
    r.ppsTick = r.mapTime fun t => { t with ppsDue := some (2 * r.s.cyc + r.s.ppsSteps.toNat) } := by
  rw [ppsTick_late r h, if_pos (by simp [hon, hsec])]

theorem ppsTick_none (h : r.s.rb Reg.timePpsCfg 31 = false ∨ (0 ≤ r.s.ppsSteps ∧
      ((r.s.base (r.s.rf Reg.timePpsCfg 30 29)).tick (r.s.rf Reg.timePpsCfg 30 29)).sec
        = (r.s.base (r.s.rf Reg.timePpsCfg 30 29)).sec)) : r.ppsTick = r := by
  rcases h with hoff | ⟨h, hsec⟩
  · unfold Run.ppsTick
    exact if_neg (by simp [hoff])
  · rw [ppsTick_late r h, if_neg (by simp [hsec])]

theorem exec_ppsOutPulse {d : Nat} (h : s.time.ppsDue = some d) : exec .ppsOutPulse s = if s.cyc * 2 < d then (Run.start s).done
    else ((Run.start s).mapTime fun t => { t with
      ppsDue := none
      ppsRise := if s.rb Reg.timePpsCfg 31 && decide (0 < s.rf Reg.timePpsCfg 18 0) then some d else t.ppsRise }).done := by
  show execPpsOutPulse s = _
  rw [execPpsOutPulse, h]

theorem ppsOutPulse_none (h : s.time.ppsDue = none) : Answers .ppsOutPulse s (· = s) := by
  refine Run.answers (Run.start s) ?_ rfl
  show execPpsOutPulse s = _
  rw [execPpsOutPulse, h]

theorem ppsOutPulse_early {d : Nat} (h : s.time.ppsDue = some d) (hd : 2 * s.cyc < d) : Answers .ppsOutPulse s (· = s) :=
  Run.answers (Run.start s) ((exec_ppsOutPulse h).trans (if_pos (by omega))) rfl

theorem ppsOutPulse_rises {d : Nat} (h : s.time.ppsDue = some d) (hd : d ≤ 2 * s.cyc) (hon : s.rb Reg.timePpsCfg 31 = true)
    (hw : 0 < s.rf Reg.timePpsCfg 18 0) :
    Answers .ppsOutPulse s (· = { s with time := { s.time with ppsDue := none, ppsRise := some d } }) := by
  refine Run.answers _ ((exec_ppsOutPulse h).trans (if_neg (by omega))) ?_
  rw [hon, decide_eq_true hw]; rfl

theorem ppsOutPulse_stays {d : Nat} (h : s.time.ppsDue = some d) (hd : d ≤ 2 * s.cyc)
    (hoff : s.rb Reg.timePpsCfg 31 = false ∨ s.rf Reg.timePpsCfg 18 0 = 0) :
    Answers .ppsOutPulse s (· = { s with time := { s.time with ppsDue := none } }) := by
  refine Run.answers _ ((exec_ppsOutPulse h).trans (if_neg (by omega))) ?_
  have hup : (s.rb Reg.timePpsCfg 31 && decide (0 < s.rf Reg.timePpsCfg 18 0)) = false := by
    rcases hoff with h | h <;> simp [h]
  rw [hup]; rfl

theorem exec_ppsPulseEnd {d : Nat} (h : s.time.ppsRise = some d) : exec .ppsPulseEnd s =
    if d + 2 * usCyc (s.rf Reg.timePpsCfg 18 0) ≤ s.cyc * 2 then ((Run.start s).mapTime fun t => { t with ppsRise := none }).done
    else (Run.start s).done := by
  show execPpsPulseEnd s = _
  rw [execPpsPulseEnd, h]

theorem ppsPulseEnd_falls {d : Nat} (h : s.time.ppsRise = some d) (hd : d + s.rf Reg.timePpsCfg 18 0 * 1600 ≤ 2 * s.cyc) :
    Answers .ppsPulseEnd s (· = { s with time := { s.time with ppsRise := none } }) :=
  Run.answers _ ((exec_ppsPulseEnd h).trans (if_pos (by rw [usCyc]; omega))) rfl

theorem ppsPulseEnd_early {d : Nat} (h : s.time.ppsRise = some d) (hd : 2 * s.cyc < d + s.rf Reg.timePpsCfg 18 0 * 1600) :
    Answers .ppsPulseEnd s (· = s) :=
  Run.answers (Run.start s) ((exec_ppsPulseEnd h).trans (if_neg (by rw [usCyc]; omega))) rfl

/-- Settles O36: what a stamp channel makes of an edge (`trigTake_taken`, `trigTake_lost`), the read of its FIFO, and the pulse per
second. -/
theorem stampsAndPulses : Obligations.StampsAndPulses := by
  intro s ch f rising hch c n b others
  have hnear {t : Nat} (h : ∀ l, c.lastEdge = some l → l + 256 ≤ t) : ¬c.near t := fun ⟨l, hl, ht⟩ => by
    have := h l hl
    omega
  refine ⟨fun hun hadc hf => ?_, ?_, ?_, ?_, trigOut0Read_none, ?_, ppsOutPulse_none, ?_, ?_⟩
  · have hun : EdgesUnused s := ⟨hun, hadc⟩
    refine ⟨trigEdge_ignores hch hf hun, fun hfl hw htake hlast hroom hn => ?_, fun hfl hw htake hlost => ?_, fun w hw => ⟨fun h => ?_, ?_⟩⟩
    · obtain ⟨h₁, h₂, h₃, h₄, h₅⟩ := mkStamp_value (s := s) (rising := rising) hn (s.stampOf ch n f)
      exact (trigEdge_joins hch hf hun hfl hw htake (hnear hlast) hroom).imp fun u ⟨hset, hfirst⟩ =>
        ⟨hset.kept, hset.only.regsKept, hfirst, s.mkStamp rising n (s.stampOf ch n f), hset.same, h₁, h₂, h₃, h₄,
          h₅.trans (congrArg (· % 2 ^ 80) (stampOf_eq ch n f))⟩
    · exact (trigEdge_loses hch hf hun hfl hw htake hlost).imp fun u ⟨hset, hflag, hcnt⟩ =>
        ⟨hset.kept, hset.same, hflag, hcnt, hset.only.regsKept⟩
    · exact congrArg Run.s (trigDue_early (Run.start s) hw h)
    · intro hdue htake hlast hroom
      have hset := trigDue_taken (Run.start s) hun hw hdue htake (hnear hlast) hroom
      exact ⟨hset.kept, hset.only.regsKept, hset.same⟩
  · intro hf hfl hw
    exact (trigEdge_waits hch hf hfl hw).imp fun u hu => ⟨hu.kept, hu.only.regsKept, s.edgeNow ch rising f, hu.same, rfl, rfl, rfl⟩
  · intro w hf hw
    exact ⟨trigEdge_again hch hf hw, fun h => (trigEdge_back hch hf hw h).imp fun u hu => ⟨hu.kept, hu.only.regsKept, hu.same⟩⟩
  · exact fun x t h hlo hhi => trigOut0Read_some hch h hlo hhi
  · exact ⟨fun hon h hsec => congrArg Run.s (ppsTick_second (Run.start s) hon h hsec), fun h => congrArg Run.s (ppsTick_none (Run.start s) h)⟩
  · exact fun d h => ⟨ppsOutPulse_early h, ppsOutPulse_rises h, ppsOutPulse_stays h⟩
  · exact fun d h => ⟨ppsPulseEnd_falls h, ppsPulseEnd_early h⟩

end Sys2Proof.Machine
end

section
/-!
PROOFS. Compare values, carrier reloads, gates with their dead time, and writes of duties and of the output enable (O38).
-/
namespace Sys2Proof.Machine

variable {s₀ : State} (r : Run s₀) {s : State} {n i g : Nat} {v : Word}

/-! ## Compare values (R277) -/

/-- The compare value is the share of `h` that the duty states, to the nearest; no share exceeds `h`. -/
theorem compareVal_nearest (h : Nat) {d : Nat} (hd : d < 2 ^ 32) :
    compareVal h d ≤ h ∧ |2 ^ 32 * (compareVal h d : Int) - (2 ^ 31 + sInt 32 d) * h| ≤ 2 ^ 31 := by
  obtain ⟨y, hy⟩ : ∃ y : Nat, 2 ^ 31 + sInt 32 d = y ∧ y ≤ 4294967295 := by
    rw [sInt]
    split
    · exact ⟨2 ^ 31 + d, by omega, by omega⟩
    · exact ⟨d - 2 ^ 31, by omega, by omega⟩
  obtain ⟨hy, hle⟩ := hy
  have hA : y * h ≤ 4294967295 * h := Nat.mul_le_mul_right h hle
  rw [compareVal, hy, ← Nat.cast_mul]
  generalize y * h = A at hA
  rw [abs_le]
  omega

/-! ## An axis set -/

/-- The second state differs from the first in axis `n` only, which is `a` there. -/
def AxisSet (s u : State) (n : Nat) (a : Axis) : Prop := (u = { s with motion := u.motion } ∧ ∀ j, j ≠ n → u.ax j = s.ax j) ∧ u.ax n = a

theorem setAx_sets (n : Nat) (a : Axis) : AxisSet r.s (r.setAx n a).s n a :=
  ⟨⟨rfl, fun _ hj => setAx_ne r hj a⟩, setAx_same r n a⟩

theorem AxisSet.again {s t u : State} {a b : Axis} (h : AxisSet s t n a) (k : AxisSet t u n b) : AxisSet s u n b := by
  obtain ⟨⟨h₁, h₂⟩, -⟩ := h
  obtain ⟨⟨k₁, k₂⟩, k₃⟩ := k
  exact ⟨⟨by rw [k₁, h₁], fun j hj => (k₂ j hj).trans (h₂ j hj)⟩, k₃⟩

/-! ## Carriers (R276, R279) -/

/-- The words of the three duty shadows. -/
def State.dutyShadows (s : State) (n : Nat) : List Nat :=
  [(s.rget (Reg.axDuty n 0)).toNat, (s.rget (Reg.axDuty n 1)).toNat, (s.rget (Reg.axDuty n 2)).toNat]

/-- An axis that is set and then reloaded takes all three duties together. -/
theorem setAx_axReload (n : Nat) (a : Axis) :
    AxisSet r.s ((r.setAx n a).axReload n).s n { a with duty := r.s.dutyShadows n } := by
  have hset := (setAx_sets r n a).again (setAx_sets (r.setAx n a) n { a with duty := r.s.dutyShadows n })
  have heq : (r.setAx n a).axReload n = (r.setAx n a).setAx n { a with duty := r.s.dutyShadows n } := by
    rw [Run.axReload, setAx_same]
    simp only [setAx_rget]
    rfl
  rw [heq]
  exact hset

theorem exec_carrierReload (n : Nat) (s : State) : exec (.carrierReload n) s =
    if s.axMode n = 1 ∧ (s.axGroup n).isNone ∧ (s.ax n).carAt + (2 * s.axH n : Nat) ≤ (s.units : Int) then
      (((Run.start s).setAx n { s.ax n with joined := none, carAt := (s.ax n).carAt + (2 * s.axH n : Nat) }).axReload n).done
    else (Run.start s).done := rfl

theorem carrierReload_reloads (hm : s.axMode n = 1) (hg : s.axGroup n = none) (hv : (s.ax n).carAt + 2 * s.axH n ≤ s.units) :
    Answers (.carrierReload n) s fun u => AxisSet s u n { s.ax n with
      joined := none, carAt := (s.ax n).carAt + 2 * s.axH n, duty := s.dutyShadows n } := by
  have hcast : ((2 * s.axH n : Nat) : Int) = 2 * s.axH n := by push_cast; rfl
  refine Run.answers _ ((exec_carrierReload n s).trans (if_pos ⟨hm, by rw [hg]; rfl, by rwa [hcast]⟩)) ?_
  rw [← hcast]
  exact setAx_axReload (Run.start s) n _

theorem carrierReload_idle (h : s.axMode n ≠ 1 ∨ s.axGroup n ≠ none ∨ s.units < (s.ax n).carAt + 2 * s.axH n) :
    Answers (.carrierReload n) s (· = s) := by
  refine Run.answers _ ((exec_carrierReload n s).trans (if_neg ?_)) rfl
  rintro ⟨hm, hg, hv⟩
  rcases h with h | h | h
  · exact h hm
  · exact h (Option.isNone_iff_eq_none.1 hg)
  · push_cast at hv
    omega

/-- A member that joins its group starts a period at the boundary's interpolated instant. -/
theorem axLockReload_joins {q b : Nat} (h : (r.s.ax n).joined ≠ some (q, b)) : (r.axLockReload n q b).s.ax n = { r.s.ax n with
    joined := some (q, b), peak := false, carAt := (r.s.units : Int) - (r.s.grid b).fine, duty := r.s.dutyShadows n } := by
  have heq : r.axLockReload n q b = (r.setAx n { r.s.ax n with
      joined := some (q, b), peak := false, carAt := (r.s.units : Int) - (r.s.grid b).fine }).axReload n := by
    unfold Run.axLockReload
    simp only [if_neg h, Bool.false_eq_true, if_false]
  rw [heq]
  exact (setAx_axReload r n _).2

/-! ## Gates and their dead time (R278) -/

/-- The gates of one phase are `2p` and `2p + 1`. -/
def gatePartner (k : Nat) : Nat := 4 * (k / 2) + 1 - k

/-- No phase has both gates on, no gate waits whose partner is on, and only one gate of a phase waits. -/
def Axis.GatesSafe (a : Axis) : Prop := (∀ p, p < 3 → ¬(bit a.gate (2 * p) = true ∧ bit a.gate (2 * p + 1) = true)) ∧
  (∀ e ∈ a.gateAt, bit a.gate (gatePartner e.1) = false) ∧ (∀ e ∈ a.gateAt, ∀ f ∈ a.gateAt, e.1 / 2 = f.1 / 2 → e.1 = f.1)

/-- One bit of a number put. -/
theorem putBit_bit (m k : Nat) (b : Bool) (j : Nat) : bit (putBits m k k (b2n b)) j = if j = k then b else bit m j := by
  rw [bit_testBit, putBits_testBit (le_refl k), bit_testBit]
  by_cases h : j = k
  · subst h
    cases b <;> simp [b2n]
  · rw [if_neg (by omega), if_neg h]

/-- The gate that a phase turns off when its command becomes `c`, and the one that it turns on. -/
def gateOff (i : Nat) (c : Bool) : Nat := if c then 2 * i + 1 else 2 * i
def gateOn (i : Nat) (c : Bool) : Nat := if c then 2 * i else 2 * i + 1

theorem gateOn_phase (i : Nat) (c : Bool) : gateOn i c / 2 = i := by
  cases c <;> simp only [gateOn, if_true, if_false, Bool.false_eq_true] <;> omega

theorem gatePartner_gateOn (i : Nat) (c : Bool) : gatePartner (gateOn i c) = gateOff i c := by
  rw [gatePartner, gateOn_phase]
  cases c <;> simp only [gateOn, gateOff, if_true, if_false, Bool.false_eq_true] <;> omega

/-- The axis once the command of phase `i` has become `c`, at instant `t`. -/
def Axis.commanded (a : Axis) (i : Nat) (c : Bool) (t : Nat) : Axis := { a with
  cmd := putBits a.cmd i i (b2n c), gate := putBits a.gate (gateOff i c) (gateOff i c) 0
  gateAt := (a.gateAt.filter fun e => e.1 / 2 != i) ++ [(gateOn i c, t)] }

section
variable (a : Axis) (i : Nat) (c : Bool) (t : Nat)

theorem commanded_cmd (k : Nat) : bit (a.commanded i c t).cmd k = if k = i then c else bit a.cmd k := putBit_bit ..

theorem commanded_gate (k : Nat) : bit (a.commanded i c t).gate k = if k = gateOff i c then false else bit a.gate k :=
  putBit_bit a.gate (gateOff i c) false k

theorem mem_commanded_gateAt (e : Nat × Nat) :
    e ∈ (a.commanded i c t).gateAt ↔ e = (gateOn i c, t) ∨ (e ∈ a.gateAt ∧ e.1 / 2 ≠ i) := by
  simp [Axis.commanded, or_comm]

/-- A gate that is on after the command was on before it. -/
theorem commanded_gate_on {k : Nat} (h : bit (a.commanded i c t).gate k = true) : bit a.gate k = true := by
  rw [commanded_gate] at h
  split at h
  · cases h
  · exact h

theorem commanded_gate_stays_off {k : Nat} (h : bit a.gate k = false) : bit (a.commanded i c t).gate k = false := by
  rw [commanded_gate]
  split
  · rfl
  · exact h

theorem commanded_safe (h : a.GatesSafe) : (a.commanded i c t).GatesSafe := by
  obtain ⟨hboth, hpart, hone⟩ := h
  refine ⟨fun p hp ⟨h₁, h₂⟩ => hboth p hp ⟨commanded_gate_on a i c t h₁, commanded_gate_on a i c t h₂⟩, fun e he => ?_,
    fun e he f hf hef => ?_⟩
  · rcases (mem_commanded_gateAt a i c t e).1 he with rfl | ⟨he, -⟩
    · rw [commanded_gate, gatePartner_gateOn, if_pos rfl]
    · exact commanded_gate_stays_off a i c t (hpart e he)
  · rcases (mem_commanded_gateAt a i c t e).1 he with rfl | ⟨he, hei⟩ <;>
      rcases (mem_commanded_gateAt a i c t f).1 hf with rfl | ⟨hf, hfi⟩
    · rfl
    · exact absurd (hef.symm.trans (gateOn_phase i c)) hfi
    · exact absurd (hef.trans (gateOn_phase i c)) hei
    · exact hone e he f hf hef

end

/-- The axis once the dead time of gate `g` has passed; a gate whose on-interval would be too short stays off. -/
def Axis.gateDone (a : Axis) (g : Nat) (short : Bool) : Axis := { a with
  gate := if short then a.gate else putBits a.gate g g 1, gateAt := a.gateAt.filter fun f => f.1 != g }

section
variable (a : Axis) (g : Nat) (short : Bool)

theorem gateDone_gate (k : Nat) : bit (a.gateDone g short).gate k = if k = g ∧ short = false then true else bit a.gate k := by
  cases short
  · simpa [Axis.gateDone, b2n] using putBit_bit a.gate g true k
  · simp [Axis.gateDone]

theorem gateDone_gate_ne {k : Nat} (h : k ≠ g) : bit (a.gateDone g short).gate k = bit a.gate k := by
  rw [gateDone_gate, if_neg fun hk => h hk.1]

theorem mem_gateDone_gateAt (e : Nat × Nat) : e ∈ (a.gateDone g short).gateAt ↔ e ∈ a.gateAt ∧ e.1 ≠ g := by
  simp [Axis.gateDone]

/-- The partner of a gate that waits is off, so the gate may turn on. -/
theorem gateDone_safe {t : Nat} (hmem : (g, t) ∈ a.gateAt) (h : a.GatesSafe) : (a.gateDone g short).GatesSafe := by
  obtain ⟨hboth, hpart, hone⟩ := h
  have hoff : bit a.gate (gatePartner g) = false := hpart _ hmem
  refine ⟨fun p hp ⟨h₁, h₂⟩ => ?_, fun e he => ?_, fun e he f hf hef => ?_⟩
  · by_cases hlow : 2 * p = g
    · have hp : 2 * p + 1 = gatePartner g := by rw [gatePartner]; omega
      rw [gateDone_gate_ne a g short (by omega), hp, hoff] at h₂
      cases h₂
    · by_cases hhigh : 2 * p + 1 = g
      · have hp : 2 * p = gatePartner g := by rw [gatePartner]; omega
        rw [gateDone_gate_ne a g short hlow, hp, hoff] at h₁
        cases h₁
      · rw [gateDone_gate_ne a g short hlow] at h₁
        rw [gateDone_gate_ne a g short hhigh] at h₂
        exact hboth p hp ⟨h₁, h₂⟩
  · obtain ⟨he, hne⟩ := (mem_gateDone_gateAt a g short e).1 he
    have hpn : gatePartner e.1 ≠ g := fun heq => hne (hone e he _ hmem (by
      dsimp only
      rw [← heq, gatePartner]; omega))
    rw [gateDone_gate_ne a g short hpn]
    exact hpart e he
  · exact hone e ((mem_gateDone_gateAt a g short e).1 he).1 f ((mem_gateDone_gateAt a g short f).1 hf).1 hef

end

theorem exec_pwmCompare (hi : i < 3) : exec (.pwmCompare n i) s =
    (if s.axMode n = 1 ∧ s.axCmd n i ≠ bit (s.ax n).cmd i then
      (Run.start s).setAx n ((s.ax n).commanded i (s.axCmd n i) (s.units + s.rf (Reg.axDeadAct n) 13 0))
    else Run.start s).done := by
  have hcmp : (Run.start s).axCompare n i = if s.axCmd n i ≠ bit (s.ax n).cmd i then
      (Run.start s).setAx n ((s.ax n).commanded i (s.axCmd n i) (s.units + s.rf (Reg.axDeadAct n) 13 0)) else Run.start s := by
    unfold Run.axCompare
    simp only [start_s, beq_iff_eq, ne_eq, ite_not]
    rfl
  show execPwmCompare n i s = _
  rw [execPwmCompare, hcmp]
  by_cases hm : s.axMode n = 1
  · rw [if_pos ⟨hm, hi⟩]
    simp only [hm, true_and]
  · rw [if_neg fun h => hm h.1, if_neg fun h => hm h.1]

theorem pwmCompare_changes (hi : i < 3) (hm : s.axMode n = 1) (hc : s.axCmd n i ≠ bit (s.ax n).cmd i) :
    Answers (.pwmCompare n i) s fun u =>
      AxisSet s u n ((s.ax n).commanded i (s.axCmd n i) (s.units + s.rf (Reg.axDeadAct n) 13 0)) :=
  Run.answers _ ((exec_pwmCompare hi).trans (by rw [if_pos ⟨hm, hc⟩])) (setAx_sets (Run.start s) n _)

theorem pwmCompare_idle (hi : i < 3) (h : s.axMode n ≠ 1 ∨ s.axCmd n i = bit (s.ax n).cmd i) : Answers (.pwmCompare n i) s (· = s) := by
  refine Run.answers (Run.start s) ((exec_pwmCompare hi).trans (by rw [if_neg]; rintro ⟨hm, hc⟩; exact h.elim (absurd hm) hc)) rfl

/-- The on-interval of a gate that turned on at instant `t` would be shorter than `min_on`. -/
def State.onTooShort (s : State) (n g t : Nat) : Bool :=
  match s.cmdLeft n (g / 2) t with
  | none => false
  | some left => decide (left < s.rf (Reg.axDeadAct n) 29 16)

theorem onTooShort_iff (s : State) (n g t : Nat) :
    s.onTooShort n g t = true ↔ ∃ left, s.cmdLeft n (g / 2) t = some left ∧ left < s.rf (Reg.axDeadAct n) 29 16 := by
  unfold State.onTooShort
  cases s.cmdLeft n (g / 2) t <;> simp

theorem exec_deadTimeEnd (n g : Nat) (s : State) : exec (.deadTimeEnd n g) s =
    match (s.ax n).gateAt.find? fun e => e.1 == g && decide (e.2 ≤ s.units) with
    | none => (Run.start s).done
    | some e => ((Run.start s).setAx n ((s.ax n).gateDone g (s.onTooShort n g e.2))).done := rfl

theorem deadTimeEnd_idle (h : ∀ e ∈ (s.ax n).gateAt, e.1 = g → s.units < e.2) : Answers (.deadTimeEnd n g) s (· = s) := by
  have hnone : ((s.ax n).gateAt.find? fun e => e.1 == g && decide (e.2 ≤ s.units)) = none := by
    refine List.find?_eq_none.2 fun e he => ?_
    simpa using h e he
  refine Run.answers (Run.start s) ?_ rfl
  rw [exec_deadTimeEnd, hnone]

theorem deadTimeEnd_ends {t : Nat} (hmem : (g, t) ∈ (s.ax n).gateAt) (hone : ∀ e ∈ (s.ax n).gateAt, e.1 = g → e.2 = t)
    (ht : t ≤ s.units) : Answers (.deadTimeEnd n g) s fun u => AxisSet s u n ((s.ax n).gateDone g (s.onTooShort n g t)) := by
  have hsome : ((s.ax n).gateAt.find? fun e => e.1 == g && decide (e.2 ≤ s.units)).isSome := by
    rw [List.find?_isSome]
    exact ⟨_, hmem, by simpa using ht⟩
  obtain ⟨e, he⟩ := Option.isSome_iff_exists.1 hsome
  have hg : e.1 = g := by
    have := List.find?_some he
    simp only [Bool.and_eq_true, beq_iff_eq] at this
    exact this.1
  have het : e.2 = t := hone e (List.mem_of_find?_eq_some he) hg
  refine Run.answers _ ?_ (setAx_sets (Run.start s) n _)
  rw [exec_deadTimeEnd, he, ← het]

/-! ## Writes of duties and of the output enable (R275, R280) -/

theorem axDuty_mask : ∀ n < 48, ∀ i < 3, implMask (Reg.axDuty n i) = BitVec.allOnes 32 := by decide +kernel

theorem axEvstat_cfgerr : ∀ n < 48, bit (implMask (Reg.axEvstat n)).toNat 8 = true ∧
    resetOf (Reg.axEvstat n) &&& ~~~implMask (Reg.axEvstat n) = 0 := by decide +kernel

theorem axCtrl_reset : ∀ n < 48, resetOf (Reg.axCtrl n) &&& ~~~implMask (Reg.axCtrl n) = 0 := by decide +kernel

/-- A bit written leaves the other bits of its register, whose reserved bits are 0. -/
theorem Inv.wb_rb_other {r : Run s₀} (hinv : r.s.Inv) {a i k : Nat} (hr : resetOf a &&& ~~~implMask a = 0) (hk : k ≠ i) (b : Bool) :
    (r.wb a i b).s.rb a k = r.s.rb a k :=
  wf_rb_other r (le_refl i) (by omega) _ (Inv.reserved_bit hinv hr)

theorem exec_dutyWrite (n i : Nat) (v : Word) (s : State) : exec (.dutyWrite n i v) s =
    (if s.axDriven n i then (Run.start s).flag (Reg.axEvstat n) 8 else (Run.start s).wr (Reg.axDuty n i) v.toNat).done := rfl

theorem dutyWrite_writes (hn : n < 48) (hi : i < 3) (h : s.axDriven n i = false) : Answers (.dutyWrite n i v) s fun u =>
    OnlyRegs s u [Reg.axDuty n i] ∧ u.rget (Reg.axDuty n i) = v := by
  refine Run.answers _ ((exec_dutyWrite n i v s).trans (by rw [if_neg (by simp [h])])) ⟨wr_onlyRegs .., BitVec.eq_of_toNat_eq ?_⟩
  rw [wr_full (Run.start s) (axDuty_mask n hn i hi), Nat.mod_eq_of_lt v.isLt]

theorem dutyWrite_refused (hinv : s.Inv) (hn : n < 48) (h : s.axDriven n i = true) : Answers (.dutyWrite n i v) s fun u =>
    OnlyRegs s u [Reg.axEvstat n] ∧ u.rb (Reg.axEvstat n) 8 = true ∧
      ∀ k, k ≠ 8 → u.rb (Reg.axEvstat n) k = s.rb (Reg.axEvstat n) k := by
  obtain ⟨hm, hr⟩ := axEvstat_cfgerr n hn
  exact Run.answers _ ((exec_dutyWrite n i v s).trans (by rw [if_pos h])) ⟨flag_onlyRegs .., flag_rb _ (by decide) hm,
    fun k hk => Inv.wb_rb_other (r := Run.start s) hinv hr hk true⟩

theorem setOutEn_eq (n : Nat) (on : Bool) : r.setOutEn n on =
    if (r.wb (Reg.axCtrl n) 0 on).s.node = .test then
      (r.wb (Reg.axCtrl n) 0 on).up (.motion { (r.wb (Reg.axCtrl n) 0 on).s.motion with
        testEn := setBit (r.wb (Reg.axCtrl n) 0 on).s.motion.testEn n on })
    else r.wb (Reg.axCtrl n) 0 on := rfl

/-- `out_en` is written; in TEST, whether the test enables the axis is written with it (log 21). -/
theorem outEnWrite_writes (hinv : s.Inv) (hn : n < 48) : Answers (.outEnWrite n v) s fun u =>
    u = { s with regs := u.regs, motion := { s.motion with testEn := u.motion.testEn } } ∧
      (s.node ≠ .test → u.motion = s.motion) ∧
      (s.node = .test → ∀ k, bit u.motion.testEn k = if k = n then bit v.toNat 0 else bit s.motion.testEn k) ∧ RegsKept s u [Reg.axCtrl n] ∧
      u.rb (Reg.axCtrl n) 0 = bit v.toNat 0 ∧ ∀ k, k ≠ 0 → u.rb (Reg.axCtrl n) k = s.rb (Reg.axCtrl n) k := by
  let b := bit v.toNat 0
  let q := (Run.start s).wb (Reg.axCtrl n) 0 b
  have hw : OnlyRegs s q.s [Reg.axCtrl n] := wb_onlyRegs ..
  have hq0 : q.s.rb (Reg.axCtrl n) 0 = b := wb_rb (Run.start s) (by decide) (implMask_axCtrl hn) b
  have hqk : ∀ k, k ≠ 0 → q.s.rb (Reg.axCtrl n) k = s.rb (Reg.axCtrl n) k := fun k hk =>
    Inv.wb_rb_other (r := Run.start s) hinv (axCtrl_reset n hn) hk b
  have hnode : q.s.node = s.node := hw.node (by simp [Reg.axCtrl, Reg.bhrStat]; omega)
  have hex : exec (.outEnWrite n v) s = ((Run.start s).setOutEn n b).done := rfl
  rw [setOutEn_eq, hnode] at hex
  by_cases ht : s.node = .test
  · rw [if_pos ht] at hex
    exact Run.answers _ hex ⟨by rw [hw.1]; rfl, fun h => absurd ht h, fun _ k => putBit_bit s.motion.testEn n b k, hw.2, hq0, hqk⟩
  · rw [if_neg ht] at hex
    exact Run.answers _ hex ⟨hw.1, fun _ => hw.motion, fun h => absurd h ht, hw.2, hq0, hqk⟩

/-- Settles O38: the compare value is the nearest share (`compareVal_nearest`), and the change of a command and the end of a dead time
keep the gates safe (`commanded_safe`, `gateDone_safe`). -/
theorem carriersAndGates : Obligations.CarriersAndGates := by
  refine ⟨fun h d => compareVal_nearest h, ?_⟩
  intro s n i g v hinv hn hi hg x h c off on partner safe only
  refine ⟨fun hm hgr hv => (carrierReload_reloads hm hgr hv).imp fun u hu => hu, carrierReload_idle,
    fun q b hq => axLockReload_joins (Run.start s) hq, fun hm hc => ?_, pwmCompare_idle hi, fun t hmem hone => ⟨fun ht => ?_, fun ht => ?_⟩,
    fun hno => ?_, fun hd => (dutyWrite_writes hn hi hd).imp fun u hu => ⟨hu.1.1, hu.1.2, hu.2⟩,
    fun hd => (dutyWrite_refused hinv hn hd).imp fun u hu => ⟨hu.1.1, hu.1.2, hu.2⟩, outEnWrite_writes hinv hn⟩
  · refine (pwmCompare_changes hi hm hc).imp fun u ⟨honly, hax⟩ => ?_
    rw [hax]
    let t := s.units + s.rf (Reg.axDeadAct n) 13 0
    exact ⟨honly, commanded_safe x i c t, (commanded_cmd x i c t i).trans (if_pos rfl), fun k hk => (commanded_cmd x i c t k).trans (if_neg hk),
      (commanded_gate x i c t off).trans (if_pos rfl), fun k hk => (commanded_gate x i c t k).trans (if_neg hk), mem_commanded_gateAt x i c t⟩
  · exact deadTimeEnd_idle fun e he heg => by rw [hone e he heg]; exact ht
  · refine (deadTimeEnd_ends hmem hone ht).imp fun u ⟨honly, hax⟩ => ?_
    rw [hax]
    refine ⟨honly, gateDone_safe x g _ hmem, rfl, rfl, fun k hk => gateDone_gate_ne x g _ hk, fun hlong => ?_, fun hshort => ?_⟩
    · have hfalse : s.onTooShort n g t = false := Bool.eq_false_iff.2 fun htrue => by
        obtain ⟨left, h₁, h₂⟩ := (onTooShort_iff s n g t).1 htrue
        exact absurd (hlong left h₁) (by omega)
      rw [gateDone_gate, if_pos ⟨rfl, hfalse⟩]
    · have htrue : s.onTooShort n g t = true := (onTooShort_iff s n g t).2 hshort
      rw [htrue]; rfl
  · exact deadTimeEnd_idle fun e he heg => absurd heg (hno e he)

end Sys2Proof.Machine
end

section
/-!
PROOFS. A unit accepts an operation: the descriptor it reads, what it takes from the header, and the first refusals (O15).
-/
namespace Sys2Proof.Machine

variable {s₀ : State} (r : Run s₀) {s : State} {o p : Op} {a n port : Nat} {h : List Byte}

/-! ## Reads in blocks (R656) -/

/-- One block of a read by a unit: its bytes behind those before it, or a refusal, after which nothing is read. -/
def readBlock (port : Nat) (acc : Run s₀ × Bool × List Byte) (e : Nat × Nat) : Run s₀ × Bool × List Byte :=
  let (r, ok, d) := acc
  if !ok then acc
  else match r.memRead port e.1 e.2 with
    | (r, .ok, x) => (r, true, d ++ x)
    | (r, _, _) => (r, false, d)

theorem blockRead_eq (port a n : Nat) : r.blockRead port a n = (splits a n).foldl (readBlock port) (r, true, []) := by
  rw [splits, List.foldl_map]
  rfl

/-- Blocks of a clean range read one behind the other give its bytes and change nothing. -/
theorem readBlocks_clean {b : Nat} {l : List (Nat × Nat)} (h : Pieces b a l) (hc : SramClean r.s a (b - a) ∨ a = b)
    (d : List Byte) : l.foldl (readBlock port) (r, true, d) = (r, true, d ++ r.s.bytes a (b - a)) := by
  induction l generalizing a d with
  | nil =>
    obtain rfl : a = b := h
    simp [State.bytes]
  | cons e l ih =>
    obtain ⟨rfl, hpos, hrest⟩ := h
    have hle := hrest.le
    have hcl : SramClean r.s e.1 (b - e.1) := hc.resolve_right (by omega)
    have hread : readBlock port (r, true, d) e = (r, true, d ++ r.s.bytes e.1 e.2) := by
      simp only [readBlock, (hcl.sub (le_refl _) (by omega) hpos).memRead, Bool.not_true, Bool.false_eq_true, if_false]
    have hcl' : SramClean r.s (e.1 + e.2) (b - (e.1 + e.2)) ∨ e.1 + e.2 = b :=
      (Nat.lt_or_eq_of_le hle).imp_left fun hlt => hcl.sub (by omega) (by omega) (by omega)
    have hlen : e.2 + (b - (e.1 + e.2)) = b - e.1 := by omega
    rw [List.foldl_cons, hread, ih hrest hcl', List.append_assoc, ← bytes_add, hlen]

theorem SramClean.blockRead (h : SramClean r.s a n) : r.blockRead port a n = (r, true, r.s.bytes a n) := by
  have hread := readBlocks_clean (port := port) r (splits_pieces h.1) (.inl (by rwa [Nat.add_sub_cancel_left])) []
  rwa [Nat.add_sub_cancel_left, List.nil_append, ← blockRead_eq] at hread

theorem blockRead_nothing (port a : Nat) : r.blockRead port a 0 = (r, true, []) := rfl

theorem SramClean.bytes (h : SramClean s a n) : s.bytes a n = (List.range n).map fun i => s.byte (a + i) := by
  refine List.map_congr_left fun i hi => meshByte_sram s ?_
  have := List.mem_range.1 hi
  have := h.2.1
  omega

/-! ## What a unit notes before it reads the descriptor (R151, R163) -/

/-- The operation as its unit receives it: whether its time has been reached, and its place in the order of acceptance. -/
def State.opReceived (s : State) (o : Op) : Op := { o with
  accepted := true, late := match o.time with | some t => decide (t ≤ s.now) | none => false
  acc := s.sp.nextAcc, accAt := s.now }

/-- The unit counts the operation, and its thread goes on two cycles later. -/
def Run.opNoted (r : Run s₀) (o : Op) : Run s₀ :=
  (r.mapSp fun p => { p with nextAcc := p.nextAcc + 1 }).opIssued (r.s.opReceived o)

theorem opNoted_s (o : Op) : (r.opNoted o).s = { r.s with sp := (r.opNoted o).s.sp } ∧ (r.opNoted o).s.sp.ops = r.s.sp.ops ∧
    (r.opNoted o).s.sp.nextAcc = r.s.sp.nextAcc + 1 := by
  unfold Run.opNoted
  fun_cases Run.opIssued (r.mapSp fun p => { p with nextAcc := p.nextAcc + 1 }) (r.s.opReceived o) <;> exact ⟨rfl, rfl, rfl⟩

theorem opNoted_op (o : Op) (id : Nat) : (r.opNoted o).s.op id = r.s.op id := by
  obtain ⟨-, hops, -⟩ := opNoted_s r o
  rw [State.op, hops, State.op]

theorem opNoted_kept (o : Op) : MemKept r.s (r.opNoted o).s ∧ RegsKept r.s (r.opNoted o).s [] := by
  obtain ⟨hs, -, -⟩ := opNoted_s r o
  rw [hs]
  exact ⟨fun _ => rfl, fun _ _ => rfl⟩

/-- Memory and its errors, and the time block, are not touched. -/
theorem opNoted_clean (o : Op) (h : SramClean r.s a n) : SramClean (r.opNoted o).s a n ∧ (r.opNoted o).s.bytes a n = r.s.bytes a n := by
  obtain ⟨hs, -, -⟩ := opNoted_s r o
  have hecc : (r.opNoted o).s.eccIn a n = r.s.eccIn a n := by rw [hs]; rfl
  have hcl : SramClean (r.opNoted o).s a n := ⟨h.1, h.2.1, hecc.trans h.2.2⟩
  have hbyte : ∀ b, (r.opNoted o).s.byte b = r.s.byte b := (opNoted_kept r o).1
  refine ⟨hcl, ?_⟩
  rw [hcl.bytes, h.bytes]
  simp only [hbyte]

theorem opNoted_grid (o : Op) (g : Nat) : (r.opNoted o).s.grid g = r.s.grid g := by
  obtain ⟨hs, -, -⟩ := opNoted_s r o
  rw [hs]; rfl

theorem opNoted_ready (ht : o.tid < 64) (ho : o.orphan = false) : r.s.cyc + 2 ≤ ((r.opNoted o).s.thread o.tid).readyAt := by
  have heq : r.opNoted o = (r.mapSp fun p => { p with nextAcc := p.nextAcc + 1 }).setThread o.tid
      { r.s.thread o.tid with readyAt := max (r.s.thread o.tid).readyAt (r.s.cyc + 2) } :=
    if_pos ⟨ht, by show (!o.orphan) = true; rw [ho]; rfl⟩
  rw [heq]
  have hset : ((r.mapSp fun p => { p with nextAcc := p.nextAcc + 1 }).setThread o.tid
      { r.s.thread o.tid with readyAt := max (r.s.thread o.tid).readyAt (r.s.cyc + 2) }).s.thread o.tid =
      { r.s.thread o.tid with readyAt := max (r.s.thread o.tid).readyAt (r.s.cyc + 2) } := tget_tset_same ..
  rw [hset]
  exact le_max_right ..

/-! ## The header (R152) -/

/-- The operation with what its header states. -/
def Op.withHeader (o : Op) (h : List Byte) : Op := { o with
  code := recNat h 0 1, flags := recNat h 1 1 % 4, tag := recNat h 4 4, resAddr := recNat h 8 8, resLen := recNat h 16 4
  recAddr := if recNat h 24 8 % 16 = 0 ∧ recNat h 24 8 < 2 ^ 40 then recNat h 24 8 else 0 }

/-- The header passes the checks of R152 that do not depend on the code. -/
structure HeaderPlain (h : List Byte) : Prop where
  flags : recNat h 1 1 < 4
  zero2 : recNat h 2 2 = 0
  zero20 : recNat h 20 4 = 0
  recAligned : recNat h 24 8 % 16 = 0
  recNear : recNat h 24 8 < 2 ^ 40
  resAligned : recNat h 8 8 % 8 = 0
  resNear : recNat h 8 8 < 2 ^ 40
  resLong : recNat h 8 8 ≠ 0 → recNat h 16 4 ≠ 0

theorem HeaderPlain.withHeader (hh : HeaderPlain h) (o : Op) : o.withHeader h = { o with
    code := recNat h 0 1, flags := recNat h 1 1, tag := recNat h 4 4, resAddr := recNat h 8 8, resLen := recNat h 16 4
    recAddr := recNat h 24 8 } := by
  rw [Op.withHeader, Nat.mod_eq_of_lt hh.flags, if_pos ⟨hh.recAligned, hh.recNear⟩]

theorem HeaderPlain.passes (hh : HeaderPlain h) {o : Op} (hc : codeOk o.unit o.code = true) (hob : objOk o.unit o.code o.obj = true)
    (hk : kindOk o.unit o.code o.obj = true) : headCheck o h = none := by
  obtain ⟨h₁, h₂, h₃, h₄, h₅, h₆, h₇, h₈⟩ := hh
  rw [headCheck, if_neg (by omega), if_neg (by simp [hc]), if_neg (by simp [hob]), if_neg (by simp [hk]), if_neg]
  rintro (h | h | ⟨h, h'⟩ | h | h)
  · exact h h₄
  · exact h h₆
  · exact h₈ h h'
  · omega
  · omega

theorem headCheck_code {o : Op} (hc : codeOk o.unit o.code = false) (h : List Byte) : headCheck o h = some .cfgerr := by
  rw [headCheck]
  split
  · rfl
  · rw [if_pos (by simp [hc])]

/-! ## The stages of an acceptance -/

/-- The payload is read, and a timed operation is checked on it. -/
def Run.opPayload (r : Run s₀) (o : Op) : Run s₀ :=
  match r.blockRead o.port (o.rdesc + 32) (payBase o.unit o.code) with
  | (r, false, _) => r.opRefuse o .fault 5
  | (r, true, d) =>
    match r.blockRead o.port (o.rdesc + 32 + d.length) (payLen o.unit o.code d - d.length) with
    | (r, false, _) => r.opRefuse o .fault 5
    | (r, true, e) =>
      match (if o.time.isSome then r.s.opForm { o with payload := d ++ e } else none) with
      | some (st, cause) => r.opRefuse { o with payload := d ++ e } st cause
      | none => r.opSet { o with payload := d ++ e }

/-- What the read of the header has given is checked. -/
def opHeader (o : Op) : Run s₀ × Bool × List Byte → Run s₀
  | (r, false, _) => r.opRefuse o .fault 5
  | (r, true, h) => match headCheck (o.withHeader h) h with
    | some st => r.opRefuse (o.withHeader h) st 0
    | none => r.opPayload (o.withHeader h)

theorem opAccept_eq (o : Op) : r.opAccept o =
    if o.unit = 7 ∧ (r.opNoted o).s.sp.restart.isSome then (r.opNoted o).opRefuse (r.s.opReceived o) .aborted 3
    else if o.rdesc % 8 ≠ 0 then (r.opNoted o).opRefuse (r.s.opReceived o) .cfgerr 0
    else if 2 ^ 40 ≤ o.rdesc then (r.opNoted o).opRefuse (r.s.opReceived o) .fault 5
    else opHeader (r.s.opReceived o) ((r.opNoted o).blockRead o.port o.rdesc 32) := rfl

theorem opAccept_unaligned (hu : o.unit = 13) (h8 : o.rdesc % 8 ≠ 0) :
    r.opAccept o = (r.opNoted o).opRefuse (r.s.opReceived o) .cfgerr 0 := by
  rw [opAccept_eq, if_neg (by rw [hu]; simp), if_pos h8]

theorem opAccept_far (hu : o.unit = 13) (h8 : o.rdesc % 8 = 0) (hfar : 2 ^ 40 ≤ o.rdesc) :
    r.opAccept o = (r.opNoted o).opRefuse (r.s.opReceived o) .fault 5 := by
  rw [opAccept_eq, if_neg (by rw [hu]; simp), if_neg (not_not.2 h8), if_pos hfar]

/-- The descriptor is read from general SRAM. -/
theorem opAccept_reads (hu : o.unit = 13) (h8 : o.rdesc % 8 = 0) (hc : SramClean r.s o.rdesc 32) :
    r.opAccept o = opHeader (r.s.opReceived o) (r.opNoted o, true, r.s.bytes o.rdesc 32) := by
  have hnear := hc.2.1
  obtain ⟨hc', hb⟩ := opNoted_clean r o hc
  rw [opAccept_eq, if_neg (by rw [hu]; simp), if_neg (not_not.2 h8), if_neg (by omega), hc'.blockRead, hb]

/-- A header that fails its checks ends the operation. -/
theorem opHeader_refused {st : Status} (h : List Byte) (hbad : headCheck (o.withHeader h) h = some st) :
    opHeader o (r, true, h) = r.opRefuse (o.withHeader h) st 0 := by
  rw [opHeader, hbad]

/-- A code without a payload: nothing more is read. -/
theorem opPayload_nothing (hbase : payBase o.unit o.code = 0) (hlen : payLen o.unit o.code [] = 0) :
    r.opPayload o = match (if o.time.isSome then r.s.opForm { o with payload := [] } else none) with
      | some (st, cause) => r.opRefuse { o with payload := [] } st cause
      | none => r.opSet { o with payload := [] } := by
  rw [Run.opPayload, hbase, blockRead_nothing]
  simp only [hlen, Nat.zero_sub, blockRead_nothing, List.append_nil]

theorem opHeader_passes (h : List Byte) (hgood : headCheck (o.withHeader h) h = none) :
    opHeader o (r, true, h) = r.opPayload (o.withHeader h) := by
  rw [opHeader, hgood]

/-! ## Acceptance by the TIME unit -/

/-- The TIME unit adds nothing to a refusal. -/
theorem opRefuse_time (hu : o.unit = 13) (st : Status) (cause : Nat) : r.opRefuse o st cause = (r.opSet o).opFin o st cause [] := by
  unfold Run.opRefuse
  simp only [hu, ite_self]

/-- An operation that its unit has noted and refuses ends, and everything else of memory and of the operations is kept. -/
theorem opNoted_refused (ho : s.op o.id = some o) (hp : p.id = o.id) (hu : p.unit = 13) (st : Status) (cause : Nat) :
    let u := (((Run.start s).opNoted o).opRefuse p st cause).s
    MemKept s u ∧ OpsKept s u o.id ∧ OpEnded u o.id st [] ∧ ∃ q c, u.op o.id = some q ∧ q.out = some c ∧ c.cause = cause := by
  have hn : ((Run.start s).opNoted o).s.op p.id = some o := by rw [hp, opNoted_op]; exact ho
  have hset := op_opSet ((Run.start s).opNoted o) hn
  obtain ⟨hm, hr⟩ := opNoted_kept (Run.start s) o
  rw [opRefuse_time _ hu, ← hp]
  obtain ⟨h₁, h₂, h₃, -⟩ := opEnd_after (Run.start s) (q := ((Run.start s).opNoted o).opSet p) (l := []) hset
    (fun j hj => (op_opSet_ne _ p hj).trans (opNoted_op (Run.start s) o j)) hm hr st cause (((Run.start s).opNoted o).opSet p).s.now32 [] 0
  exact ⟨h₃, h₂, h₁, _, _, op_opSet _ hset, rfl, rfl⟩

/-- An operation that its unit has noted and accepts. -/
theorem opNoted_accepted (ho : s.op o.id = some o) (ht : o.tid < 64) (hp : p.id = o.id) :
    let u := (((Run.start s).opNoted o).opSet p).s
    MemKept s u ∧ RegsKept s u [] ∧ OpsKept s u o.id ∧ u.op o.id = some p ∧ u.sp.nextAcc = s.sp.nextAcc + 1 ∧
      (o.orphan = false → s.cyc + 2 ≤ (u.thread o.tid).readyAt) := by
  have hn : ((Run.start s).opNoted o).s.op p.id = some o := by rw [hp, opNoted_op]; exact ho
  obtain ⟨hm, hr⟩ := opNoted_kept (Run.start s) o
  obtain ⟨-, -, hacc⟩ := opNoted_s (Run.start s) o
  exact ⟨hm, hr, fun j hj => (op_opSet_ne _ p (hp ▸ hj)).trans (opNoted_op (Run.start s) o j), hp ▸ op_opSet _ hn, hacc,
    opNoted_ready (Run.start s) ht⟩

/-- The operation comes next at the unit: it is not accepted yet, and none of its processor is before it. -/
structure OpNext (s : State) (o : Op) : Prop where
  op : s.op o.id = some o
  accepted : o.accepted = false
  out : o.out = none
  unit : o.unit = 13
  first : ∀ p ∈ s.sp.ops, p.id < o.id → p.unit = 13 → p.tid / 8 = o.tid / 8 → p.accepted = false → p.out ≠ none

theorem exec_opAccept (h : OpNext s o) : exec (.opAccept o.id) s = ((Run.start s).opAccept o).done := by
  obtain ⟨ho, hacc, hout, hu, hfirst⟩ := h
  have hnone : (s.sp.ops.any fun x => decide (x.id < o.id) && x.unit == o.unit && x.tid / 8 == o.tid / 8
      && !x.accepted && x.out.isNone) = false := by
    refine List.any_eq_false.2 fun x hx hcond => ?_
    simp only [Bool.and_eq_true, decide_eq_true_eq, beq_iff_eq, Bool.not_eq_true', Option.isNone_iff_eq_none] at hcond
    obtain ⟨⟨⟨⟨h₁, h₂⟩, h₃⟩, h₄⟩, h₅⟩ := hcond
    exact hfirst x hx h₁ (h₂.trans hu) h₃ h₄ h₅
  show execOpAccept o.id s = _
  rw [execOpAccept, ho]
  exact if_neg (by rw [hacc, hout, hnone]; simp)

theorem opAccept_refuses (h : OpNext s o) (hp : p.id = o.id) (hu : p.unit = 13) {st : Status} {cause : Nat}
    (he : (Run.start s).opAccept o = ((Run.start s).opNoted o).opRefuse p st cause) : Answers (.opAccept o.id) s fun u =>
      MemKept s u ∧ OpsKept s u o.id ∧ OpEnded u o.id st [] ∧ ∃ q c, u.op o.id = some q ∧ q.out = some c ∧ c.cause = cause :=
  Run.answers _ ((exec_opAccept h).trans (congrArg Run.done he)) (opNoted_refused h.op hp hu st cause)

/-- A code above 4 is not one of TIME. -/
theorem opAccept_unlisted (hn : OpNext s o) (h8 : o.rdesc % 8 = 0) (hc : SramClean s o.rdesc 32) (hh : s.bytes o.rdesc 32 = h)
    (hcode : 4 < recNat h 0 1) : Answers (.opAccept o.id) s fun u => MemKept s u ∧ OpsKept s u o.id ∧ OpEnded u o.id .cfgerr [] := by
  have hbad : codeOk ((s.opReceived o).withHeader h).unit ((s.opReceived o).withHeader h).code = false := by
    have hu : ((s.opReceived o).withHeader h).unit = 13 := hn.unit
    have hcd : ((s.opReceived o).withHeader h).code = recNat h 0 1 := rfl
    rw [hu, hcd]
    simp only [codeOk, Bool.and_eq_false_iff, decide_eq_false_iff_not]
    omega
  have he : (Run.start s).opAccept o = ((Run.start s).opNoted o).opRefuse ((s.opReceived o).withHeader h) .cfgerr 0 := by
    rw [opAccept_reads (Run.start s) hn.unit h8 hc, start_s, hh, opHeader_refused _ h (headCheck_code hbad h)]
  exact (opAccept_refuses hn (p := (s.opReceived o).withHeader h) rfl hn.unit he).imp fun u ⟨h₁, h₂, h₃, _⟩ => ⟨h₁, h₂, h₃⟩

/-- The operation as it is accepted with a header that passes. -/
def State.opTaken (s : State) (o : Op) (h : List Byte) : Op := { (s.opReceived o).withHeader h with payload := [] }

/-- A SNAP or a BOUNDARY: neither has a payload, and only a timed BOUNDARY is checked on its object. -/
theorem opAccept_time (hn : OpNext s o) (h8 : o.rdesc % 8 = 0) (hc : SramClean s o.rdesc 32) (hh : s.bytes o.rdesc 32 = h)
    (hp : HeaderPlain h) (hcode : recNat h 0 1 = 1 ∨ (recNat h 0 1 = 4 ∧ o.obj < 16)) :
    (Run.start s).opAccept o =
      if recNat h 0 1 = 4 ∧ o.time ≠ none ∧ (s.grid o.obj).running = false then
        ((Run.start s).opNoted o).opRefuse (s.opTaken o h) .refused 0
      else ((Run.start s).opNoted o).opSet (s.opTaken o h) := by
  let p := (s.opReceived o).withHeader h
  have hu : p.unit = 13 := hn.unit
  have hcd : p.code = recNat h 0 1 := rfl
  have hob : p.obj = o.obj := rfl
  have hgood : headCheck p h = none := by
    refine hp.passes ?_ ?_ ?_ <;> rw [hu, hcd]
    · rcases hcode with hc | ⟨hc, -⟩ <;> rw [hc] <;> rfl
    · rcases hcode with hc | ⟨hc, hlt⟩
      · rw [hc]; rfl
      · rw [hc, hob]; simpa [objOk] using hlt
    · rfl
  have hbase : payBase p.unit p.code = 0 := by rcases hcode with hc | ⟨hc, -⟩ <;> rw [hu, hcd, hc] <;> rfl
  have hlen : payLen p.unit p.code [] = 0 := by rcases hcode with hc | ⟨hc, -⟩ <;> rw [hu, hcd, hc] <;> rfl
  have hform : ((Run.start s).opNoted o).s.opForm (s.opTaken o h) =
      if recNat h 0 1 = 4 ∧ (s.grid o.obj).running = false then some (.refused, 0) else none := by
    have hu' : (s.opTaken o h).unit = 13 := hn.unit
    have hcd' : (s.opTaken o h).code = recNat h 0 1 := rfl
    have hob' : (s.opTaken o h).obj = o.obj := rfl
    rcases hcode with hc | ⟨hc, -⟩
    · simp only [State.opForm, hu', hcd', hc]
      rfl
    · simp only [State.opForm, hu', hcd', hob', hc, opNoted_grid, start_s, true_and, Bool.not_eq_true']
  rw [opAccept_reads (Run.start s) hn.unit h8 hc, start_s, hh, opHeader_passes _ h hgood, opPayload_nothing _ hbase hlen]
  show (match (if o.time.isSome then ((Run.start s).opNoted o).s.opForm (s.opTaken o h) else none) with
    | some (st, cause) => ((Run.start s).opNoted o).opRefuse (s.opTaken o h) st cause
    | none => ((Run.start s).opNoted o).opSet (s.opTaken o h)) = _
  rw [hform]
  cases o.time with
  | none => simp
  | some t =>
    simp only [Option.isSome_some, if_true, ne_eq, reduceCtorEq, not_false_eq_true, true_and]
    by_cases hb : recNat h 0 1 = 4 ∧ (s.grid o.obj).running = false
    · rw [if_pos hb, if_pos hb]
    · rw [if_neg hb, if_neg hb]

/-- Settles O15: the descriptor is read (`opAccept_reads`), its header checked, and a SNAP or BOUNDARY accepted (`opAccept_time`). -/
theorem operationAcceptance : Obligations.OperationAcceptance := by
  intro s o ho hacc hout hu ht hfirst h late
  have hn : OpNext s o := ⟨ho, hacc, hout, hu, hfirst⟩
  refine ⟨fun h8 hend hecc hf h2 h20 hra hrn hsa hsn hsl => ?_, fun h8 => ?_, fun h8 hfar => ?_⟩
  · have hc : SramClean s o.rdesc 32 := ⟨by decide, hend, hecc⟩
    have hp : HeaderPlain h := ⟨hf, h2, h20, hra, hrn, hsa, hsn, hsl⟩
    refine ⟨fun hcode => ?_, fun hcode hobj htime hrun => ?_, opAccept_unlisted hn h8 hc hc.bytes⟩
    · have hex := opAccept_time hn h8 hc hc.bytes hp (hcode.imp_right fun hc => ⟨hc.1, hc.2.1⟩)
      rw [if_neg] at hex
      · obtain ⟨h₁, h₂, h₃, h₄, h₅, h₆⟩ := opNoted_accepted ho ht (p := s.opTaken o h) rfl
        refine Run.answers _ ((exec_opAccept hn).trans (congrArg Run.done hex)) ⟨h₁, h₂, h₃, h₄.trans ?_, h₅, h₆⟩
        rw [State.opTaken, hp.withHeader]
        rfl
      · rintro ⟨h4, htime, hrun⟩
        rcases hcode with hc | ⟨-, -, hc | hc⟩
        · exact absurd (hc.symm.trans h4) (by decide)
        · exact htime hc
        · rw [hrun] at hc; cases hc
    · have hex := opAccept_time hn h8 hc hc.bytes hp (.inr ⟨hcode, hobj⟩)
      rw [if_pos ⟨hcode, htime, hrun⟩] at hex
      exact (opAccept_refuses hn (p := s.opTaken o h) rfl hu hex).imp fun u ⟨h₁, h₂, h₃, _⟩ => ⟨h₁, h₂, h₃⟩
  · exact (opAccept_refuses hn (p := s.opReceived o) rfl hu (opAccept_unaligned (Run.start s) hu h8)).imp
      fun u ⟨h₁, h₂, h₃, _⟩ => ⟨h₁, h₂, h₃⟩
  · exact opAccept_refuses hn (p := s.opReceived o) rfl hu (opAccept_far (Run.start s) hu h8 hfar)

end Sys2Proof.Machine
end

section
/-!
PROOFS. Ports of the Herd fabric, and the time transfer on them (O50).
-/
namespace Sys2Proof.Machine

variable {s₀ : State} (r : Run s₀) {s : State} {p : Nat} {d : List Byte} {t : Nat}

/-! ## Big-endian fields (R3) -/

@[simp] theorem bytesBE_length (n v : Nat) : (bytesBE n v).length = n := by simp [bytesBE]

theorem ofBytesBE_bytesBE (n v : Nat) : ofBytesBE (bytesBE n v) = v % 256 ^ n := by
  rw [ofBytesBE, bytesBE, List.reverse_reverse, ofBytesLE_bytesLE]

/-- A field of a record, found by the bytes before it. -/
theorem ofBytesBE_field (a : List Byte) (n v : Nat) (c : List Byte) :
    ofBytesBE (((a ++ bytesBE n v ++ c).drop a.length).take n) = v % 256 ^ n := by
  rw [List.append_assoc, List.drop_left, List.take_left' (bytesBE_length n v), ofBytesBE_bytesBE]

theorem ofBytesBE_first (n v : Nat) (c : List Byte) : ofBytesBE ((bytesBE n v ++ c).take n) = v % 256 ^ n :=
  ofBytesBE_field [] n v c

/-! ## The ports -/

@[simp] theorem setHport_same (p : Nat) (x : HPort) : (r.setHport p x).s.hport p = x := tget_tset_same ..

theorem setHport_ne {p q : Nat} (h : q ≠ p) (x : HPort) : (r.setHport p x).s.hport q = r.s.hport q := tget_tset_ne _ _ h ..

/-- The second state has `x` as port `p`; the other ports, the time block, memory, the sequence processors and the registers outside
a list are as in the first. -/
structure PortSet (s u : State) (p : Nat) (x : HPort) (l : List Nat) : Prop where
  same : u.hport p = x
  others : ∀ q, q ≠ p → u.hport q = s.hport q
  regs : RegsKept s u l
  mem : MemKept s u
  sp : u.sp = s.sp
  time : u.time = s.time

theorem setHport_sets (p : Nat) (x : HPort) (l : List Nat) : PortSet r.s (r.setHport p x).s p x l :=
  ⟨setHport_same r p x, fun _ hq => setHport_ne r hq x, fun _ _ => rfl, fun _ => rfl, rfl, rfl⟩

theorem mapPort_sets (p : Nat) (f : HPort → HPort) (l : List Nat) : PortSet r.s (r.mapPort p f).s p (f (r.s.hport p)) l :=
  setHport_sets ..

theorem OnlyRegs.hport {u : State} {l : List Nat} (h : OnlyRegs s u l) (p : Nat) : u.hport p = s.hport p := by rw [h.1]; rfl

/-- Registers written before the port is set. -/
theorem PortSet.after {s t u : State} {x : HPort} {l : List Nat} (h : PortSet t u p x l) (g : OnlyRegs s t l) : PortSet s u p x l :=
  ⟨h.same, fun q hq => (h.others q hq).trans (g.hport q), g.regsKept.trans h.regs, g.memKept.trans h.mem, h.sp.trans g.sp,
    h.time.trans g.time⟩

/-- The port set twice. -/
theorem PortSet.again {s t u : State} {x y : HPort} {l : List Nat} (h : PortSet s t p x l) (g : PortSet t u p y l) : PortSet s u p y l :=
  ⟨g.same, fun q hq => (g.others q hq).trans (h.others q hq), h.regs.trans g.regs, h.mem.trans g.mem, g.sp.trans h.sp,
    g.time.trans h.time⟩

/-- What a port that is set leaves of the others and of the rest. -/
theorem PortSet.kept {u : State} {x : HPort} {l : List Nat} (h : PortSet s u p x l) :
    (∀ q, q ≠ p → u.hport q = s.hport q) ∧ RegsKept s u l ∧ MemKept s u ∧ u.sp = s.sp := ⟨h.others, h.regs, h.mem, h.sp⟩

/-! ## SYNC frames (R398) -/

/-- The frame that a SYNC payload goes out in. -/
def State.syncFrame (s : State) (payload : List Byte) : HerdFrame :=
  { dst := 0, src := s.nodeId, cls := 0, hops := s.herd.hopLimit, seq := tget 0 0 s.herd.seqs, payload := payload }

theorem syncSend_sets (p : Nat) (payload : List Byte) (l : List Nat) : PortSet r.s (r.syncSend p payload).s p
    { r.s.hport p with syncQ := (r.s.hport p).syncQ ++ [r.s.syncFrame payload] } l := by
  have h := setHport_sets (r.nextSeq 0) p { r.s.hport p with syncQ := (r.s.hport p).syncQ ++ [r.s.syncFrame payload] } l
  exact ⟨h.same, h.others, h.regs, h.mem, h.sp, h.time⟩

/-- The fields of a SYNC payload. -/
theorem syncPayload_fields (s : State) {kind exch t2 : Nat} (hk : kind < 256) (he : exch < 2 ^ 16) (ht : t2 < 2 ^ 80) :
    let x := s.syncPayload kind exch t2
    x.length = 32 ∧ ofBytesBE (x.take 1) = kind ∧ ofBytesBE ((x.drop 2).take 2) = exch ∧
      ofBytesBE ((x.drop 8).take 8) * 2 ^ 16 + ofBytesBE ((x.drop 16).take 2) = t2 := by
  have hexch := ofBytesBE_field (bytesBE 1 kind ++ bytesBE 1 (b2n s.pathBit <<< 2 + s.tb0State)) 2 exch
    (bytesBE 4 0 ++ (bytesBE 8 (t2 >>> 16) ++ (bytesBE 2 t2 ++ bytesBE 14 0)))
  have hhigh := ofBytesBE_field (bytesBE 1 kind ++ bytesBE 1 (b2n s.pathBit <<< 2 + s.tb0State) ++ bytesBE 2 exch ++ bytesBE 4 0) 8
    (t2 >>> 16) (bytesBE 2 t2 ++ bytesBE 14 0)
  have hlow := ofBytesBE_field (bytesBE 1 kind ++ bytesBE 1 (b2n s.pathBit <<< 2 + s.tb0State) ++ bytesBE 2 exch ++ bytesBE 4 0 ++
    bytesBE 8 (t2 >>> 16)) 2 t2 (bytesBE 14 0)
  simp only [List.length_append, bytesBE_length, Nat.reduceAdd, List.append_assoc, Nat.shiftRight_eq_div_pow] at hexch hhigh hlow
  simp only [State.syncPayload, List.length_append, bytesBE_length, List.append_assoc, Nat.shiftRight_eq_div_pow, ofBytesBE_first,
    hexch, hhigh, hlow, true_and]
  omega

/-! ## Lanes (R402) -/

theorem showLane_onlyRegs (p : Nat) : OnlyRegs r.s (r.showLane p).s [Reg.herdHpLane p] := wr_onlyRegs ..

/-- Lane delays do not depend on the Herd block's registers. -/
theorem laneSub_congr {u : State} {l : List Nat} (h : OnlyRegs s u l) (hl : ∀ a ∈ l, 0x4070000 ≤ a ∧ a < 0x4080000) (p : Nat) (tx : Bool) :
    u.laneSub p tx = s.laneSub p tx := by
  have htemp : Reg.bhrTemp (p / 2) ∉ l := fun hm => by
    have := hl _ hm
    simp only [Reg.bhrTemp] at this
    omega
  have hstat : Reg.bhrStat ∉ l := fun hm => absurd (hl _ hm).2 (by decide)
  have hbhr : u.bhr = s.bhr := by rw [h.1]
  have hcal (off n : Nat) : u.calNat off n = s.calNat off n := by
    rw [State.calNat, h.rb hstat, h.node hstat, hbhr, State.calNat]
  have hlane : u.lane p tx = s.lane p tx := by
    simp only [State.lane, State.calInt, hcal, h.hport, h.rf htemp]
    rw [h.rb hstat]
  rw [State.laneSub, hlane, State.laneSub]

theorem hlink_congr {u : State} {l : List Nat} (h : RegsKept s u l) (hl : Reg.herdHpStat p ∉ l) : u.hlink p = s.hlink p := h.rf hl 31 29

/-! ## REQ (R398, R399) -/

theorem syncReq_eq (p : Nat) (d : List Byte) (t : Nat) : r.syncReq p d t =
    if r.s.hlink p < 3 ∨ r.s.hrole p = 4 then r
    else (r.showLane p).syncSend p ((r.showLane p).s.syncPayload 1 (ofBytesBE ((d.drop 2).take 2))
      (uNat 80 ((t : Int) - (r.showLane p).s.laneSub p false))) := rfl

theorem syncReq_idle (h : s.hlink p < 3 ∨ s.hrole p = 4) : Answers (.syncReq p d t) s (· = s) := by
  refine Run.answers ((Run.start s).syncReq p d t) rfl ?_
  rw [syncReq_eq]
  exact congrArg Run.s (if_pos h)

theorem ofBytesBE_lt (l : List Byte) : ofBytesBE l < 256 ^ l.length := by
  have h := ofBytesLE_lt l.reverse
  rwa [List.length_reverse] at h

/-- Two bytes spell a number of 16 bits. -/
theorem ofBytesBE_two (d : List Byte) (o : Nat) : ofBytesBE ((d.drop o).take 2) < 2 ^ 16 :=
  lt_of_lt_of_le (ofBytesBE_lt _) (Nat.pow_le_pow_right (by decide) (List.length_take_le 2 (d.drop o)))

theorem herdHpLane_bounds (hp : p < 4) : ∀ a ∈ [Reg.herdHpLane p], 0x4070000 ≤ a ∧ a < 0x4080000 := fun a ha => by
  rw [List.mem_singleton.1 ha, Reg.herdHpLane]
  omega

theorem syncReq_answers (hp : p < 4) (h3 : 3 ≤ s.hlink p) (h4 : s.hrole p ≠ 4) : Answers (.syncReq p d t) s fun u =>
    ∃ f : HerdFrame, PortSet s u p { s.hport p with syncQ := (s.hport p).syncQ ++ [f] } [Reg.herdHpLane p] ∧ f.cls = 0 ∧
      f.payload.length = 32 ∧ ofBytesBE (f.payload.take 1) = 1 ∧
      ofBytesBE ((f.payload.drop 2).take 2) = ofBytesBE ((d.drop 2).take 2) ∧
      ofBytesBE ((f.payload.drop 8).take 8) * 2 ^ 16 + ofBytesBE ((f.payload.drop 16).take 2) = uNat 80 (t - s.laneSub p false) := by
  let q := (Run.start s).showLane p
  have hq : OnlyRegs s q.s [Reg.herdHpLane p] := showLane_onlyRegs ..
  have hlane : q.s.laneSub p false = s.laneSub p false := laneSub_congr hq (herdHpLane_bounds hp) p false
  have hset := syncSend_sets q p (q.s.syncPayload 1 (ofBytesBE ((d.drop 2).take 2)) (uNat 80 ((t : Int) - q.s.laneSub p false)))
    [Reg.herdHpLane p]
  obtain ⟨h₁, h₂, h₃, h₄⟩ := syncPayload_fields q.s (kind := 1) (by decide) (ofBytesBE_two d 2)
    (uNat_lt 80 ((t : Int) - q.s.laneSub p false))
  rw [hq.hport] at hset
  refine Run.answers ((Run.start s).syncReq p d t) rfl ?_
  rw [syncReq_eq, if_neg (by simp only [start_s]; omega)]
  exact ⟨_, hset.after hq, rfl, h₁, h₂, h₃, by rw [← hlane]; exact h₄⟩

/-! ## Sending REQ (R373, R398, R60) -/

/-- The REQ of the next exchange is sent. -/
def Run.sendReq (r : Run s₀) (p : Nat) (s : State) : Run s₀ :=
  (r.mapPort p fun x => { x with exch := ((s.hport p).exch + 1) % 65536, reqAt := some s.cyc }).syncSend p
    (s.syncPayload 0 (((s.hport p).exch + 1) % 65536) 0)

theorem exec_syncReqSend (p : Nat) (s : State) : exec (.syncReqSend p) s =
    if s.hlink p = 3 then
      (if (match (s.hport p).reqAt with | none => true | some c => decide (c + usCyc 10 ≤ s.cyc)) then (Run.start s).sendReq p s
        else Run.start s).done
    else if s.rb Reg.herdStat 28 ∧ !s.rb Reg.herdStat 30 ∧ s.herd.syncAt + usCyc (s.rf Reg.herdSync 13 0) ≤ s.cyc then
      (if s.hlink p = 4 ∧ s.hrole p = 1 then
        (((Run.start s).mapHerd fun h => { h with syncAt := s.cyc }).mapTime fun t => { t with
          missed := if t.heard then 0 else t.missed + 1, heard := false }).sendReq p s
       else ((Run.start s).mapHerd fun h => { h with syncAt := s.cyc }).mapTime fun t => { t with
          missed := if t.heard then 0 else t.missed + 1, heard := false }).done
    else (Run.start s).done := rfl

theorem sendReq_sets (p : Nat) (s : State) : ∃ f, PortSet r.s (r.sendReq p s).s p { r.s.hport p with
    exch := ((s.hport p).exch + 1) % 65536, reqAt := some s.cyc, syncQ := (r.s.hport p).syncQ ++ [f] } [] := by
  let q := r.mapPort p fun x => { x with exch := ((s.hport p).exch + 1) % 65536, reqAt := some s.cyc }
  have hq : PortSet r.s q.s p { r.s.hport p with exch := ((s.hport p).exch + 1) % 65536, reqAt := some s.cyc } [] := setHport_sets ..
  have hs := syncSend_sets q p (s.syncPayload 0 (((s.hport p).exch + 1) % 65536) 0) []
  rw [hq.same] at hs
  exact ⟨_, hq.again hs⟩

theorem syncReqSend_idle (hcal : s.hlink p = 3 → ∃ c, (s.hport p).reqAt = some c ∧ s.cyc < c + usCyc 10)
    (hup : s.hlink p ≠ 3 → s.rb Reg.herdStat 28 = false ∨ s.rb Reg.herdStat 30 = true ∨
      s.cyc < s.herd.syncAt + usCyc (s.rf Reg.herdSync 13 0)) : Answers (.syncReqSend p) s (· = s) := by
  refine Run.answers (Run.start s) ((exec_syncReqSend p s).trans ?_) rfl
  by_cases h3 : s.hlink p = 3
  · obtain ⟨c, hc, hlt⟩ := hcal h3
    rw [if_pos h3, hc, if_neg (by simpa using hlt)]
  · rw [if_neg h3, if_neg]
    rintro ⟨h₁, h₂, h₃⟩
    rcases hup h3 with h | h | h
    · rw [h] at h₁; cases h₁
    · rw [h] at h₂; cases h₂
    · omega

theorem syncReqSend_cal (h3 : s.hlink p = 3) (hdue : ∀ c, (s.hport p).reqAt = some c → c + usCyc 10 ≤ s.cyc) :
    Answers (.syncReqSend p) s fun u => ∃ f, PortSet s u p { s.hport p with
      exch := ((s.hport p).exch + 1) % 65536, reqAt := some s.cyc, syncQ := (s.hport p).syncQ ++ [f] } [] := by
  have hdue' : (match (s.hport p).reqAt with | none => true | some c => decide (c + usCyc 10 ≤ s.cyc)) = true := by
    cases hr : (s.hport p).reqAt with
    | none => rfl
    | some c => exact decide_eq_true (hdue c hr)
  exact Run.answers _ ((exec_syncReqSend p s).trans (by rw [if_pos h3, if_pos hdue'])) (sendReq_sets (Run.start s) p s)

/-- A sync interval has passed on a node that is not the Stag. -/
theorem syncReqSend_interval (h3 : s.hlink p ≠ 3) (hrun : s.rb Reg.herdStat 28 = true) (hstag : s.rb Reg.herdStat 30 = false)
    (hdue : s.herd.syncAt + usCyc (s.rf Reg.herdSync 13 0) ≤ s.cyc) : Answers (.syncReqSend p) s fun u =>
      ((∀ q, q ≠ p → u.hport q = s.hport q) ∧ RegsKept s u [] ∧ MemKept s u ∧ u.sp = s.sp) ∧
      u.time = { s.time with missed := if s.time.heard then 0 else s.time.missed + 1, heard := false } ∧ u.herd.syncAt = s.cyc ∧
      (u.hport p).syncQ.length = (s.hport p).syncQ.length + (if s.hlink p = 4 ∧ s.hrole p = 1 then 1 else 0) := by
  let q := ((Run.start s).mapHerd fun h => { h with syncAt := s.cyc }).mapTime fun t => { t with
    missed := if t.heard then 0 else t.missed + 1, heard := false }
  have hex := (exec_syncReqSend p s).trans (by rw [if_neg h3, if_pos ⟨hrun, by rw [hstag]; rfl, hdue⟩])
  by_cases hchild : s.hlink p = 4 ∧ s.hrole p = 1
  · rw [if_pos hchild] at hex
    obtain ⟨f, hs⟩ := sendReq_sets q p s
    refine Run.answers _ hex ⟨⟨hs.others, hs.regs, hs.mem, hs.sp⟩, hs.time, rfl, ?_⟩
    rw [hs.same, if_pos hchild]
    exact List.length_append
  · rw [if_neg hchild] at hex
    refine Run.answers q hex ⟨⟨fun _ _ => rfl, fun _ _ => rfl, fun _ => rfl, rfl⟩, rfl, rfl, ?_⟩
    rw [if_neg hchild]
    rfl

/-! ## RESP (R400) -/

theorem syncResult_idle (h : (s.hport p).t1 = none ∨ ofBytesBE ((d.drop 2).take 2) ≠ (s.hport p).exch ∨ s.hlink p < 3) :
    Answers (.syncResult p d t) s (· = s) := by
  refine Run.answers ((Run.start s).syncResult p d t) rfl ?_
  suffices hr : (Run.start s).syncResult p d t = Run.start s by rw [hr]; rfl
  unfold Run.syncResult
  rcases ht : (s.hport p).t1 with _ | t1
  · simp only [start_s, ht]
  · simp only [start_s, ht]
    exact if_pos (h.resolve_left (by rw [ht]; exact Option.some_ne_none t1))

/-- The path delay of an exchange: half the sum of both directions. -/
def State.pathDelay (s : State) (p : Nat) (d : List Byte) (t1 t : Nat) : Int :=
  ((((ofBytesBE ((d.drop 8).take 8) * 2 ^ 16 + ofBytesBE ((d.drop 16).take 2) : Nat) : Int) - (t1 : Int)) +
    (((t : Int) - s.laneSub p false) - ((ofBytesBE ((d.drop 20).take 8) * 2 ^ 16 + ofBytesBE ((d.drop 18).take 2) : Nat) : Int))) / 2

/-- The registers that show an exchange. -/
def exchangeRegs (p : Nat) : List Nat := [Reg.herdHpLane p, Reg.herdHpDelay p, Reg.herdHpOffset p]

/-- A port shows the lanes, the delay and the offset of an exchange. -/
def Run.showExchange (r : Run s₀) (p delay offset : Nat) : Run s₀ :=
  ((r.showLane p).wr (Reg.herdHpDelay p) delay).wr (Reg.herdHpOffset p) offset

theorem showExchange_onlyRegs (p v w : Nat) : OnlyRegs r.s (r.showExchange p v w).s (exchangeRegs p) :=
  (((showLane_onlyRegs r p).mono (by simp [exchangeRegs])).trans ((wr_onlyRegs _ _ _).mono (by simp [exchangeRegs]))).trans
    ((wr_onlyRegs _ _ _).mono (by simp [exchangeRegs]))

theorem herdHpDelay_mask : ∀ p < 4, implMask (Reg.herdHpDelay p) = BitVec.allOnes 32 := by decide +kernel

theorem showExchange_delay (hp : p < 4) (v w : Nat) : ((r.showExchange p v w).s.rget (Reg.herdHpDelay p)).toNat = v % 2 ^ 32 := by
  have hne : Reg.herdHpDelay p ∉ [Reg.herdHpOffset p] := by simp [Reg.herdHpDelay, Reg.herdHpOffset]
  rw [Run.showExchange, (wr_onlyRegs _ _ _).2 _ hne, wr_full _ (herdHpDelay_mask p hp)]

theorem showExchange_hlink (p v w : Nat) : (r.showExchange p v w).s.hlink p = r.s.hlink p :=
  hlink_congr (showExchange_onlyRegs r p v w).regsKept (by
    simp [exchangeRegs, Reg.herdHpStat, Reg.herdHpLane, Reg.herdHpDelay, Reg.herdHpOffset])

theorem mapPort_hlink (p q : Nat) (f : HPort → HPort) : (r.mapPort p f).s.hlink q = r.s.hlink q := rfl

/-- A RESP of the exchange in progress on a port in CAL: delay and offset are shown, and the exchange counts towards UP (R373). -/
theorem syncResult_cal {t1 : Nat} (ht : (r.s.hport p).t1 = some t1) (hex : ofBytesBE ((d.drop 2).take 2) = (r.s.hport p).exch)
    (h3 : r.s.hlink p = 3) : ∃ w : Nat, r.syncResult p d t =
      ((r.showExchange p (uNat 32 ((r.showLane p).s.pathDelay p d t1 t)) w).mapPort p fun x => { x with t1 := none }).mapPort p
        fun x => { x with calCount := x.calCount + 1 } := by
  unfold Run.syncResult Run.showExchange State.pathDelay
  simp only [ht, Nat.shiftLeft_eq]
  rw [if_neg, if_pos]
  · exact ⟨_, rfl⟩
  · rw [mapPort_hlink]
    exact (showExchange_hlink r p _ _).trans h3
  · rintro (h | h)
    · exact h hex
    · omega

theorem syncResult_counts (hp : p < 4) {t1 : Nat} (ht : (s.hport p).t1 = some t1) (hex : ofBytesBE ((d.drop 2).take 2) = (s.hport p).exch)
    (h3 : s.hlink p = 3) : Answers (.syncResult p d t) s fun u =>
      PortSet s u p { s.hport p with t1 := none, calCount := (s.hport p).calCount + 1 } (exchangeRegs p) ∧
      (u.rget (Reg.herdHpDelay p)).toNat = uNat 32 (s.pathDelay p d t1 t) := by
  obtain ⟨w, hw⟩ := syncResult_cal (Run.start s) (t := t) ht hex h3
  have hdelay : ((Run.start s).showLane p).s.pathDelay p d t1 t = s.pathDelay p d t1 t := by
    rw [State.pathDelay, laneSub_congr (showLane_onlyRegs (Run.start s) p) (herdHpLane_bounds hp) p false]
    rfl
  rw [hdelay] at hw
  let q := (Run.start s).showExchange p (uNat 32 (s.pathDelay p d t1 t)) w
  have hq : OnlyRegs s q.s (exchangeRegs p) := showExchange_onlyRegs ..
  have ha := mapPort_sets q p (fun x => { x with t1 := none }) (exchangeRegs p)
  have hb := mapPort_sets (q.mapPort p fun x => { x with t1 := none }) p (fun x => { x with calCount := x.calCount + 1 }) (exchangeRegs p)
  rw [ha.same] at hb
  rw [hq.hport] at ha hb
  refine Run.answers ((Run.start s).syncResult p d t) rfl ?_
  rw [hw]
  refine ⟨(ha.again hb).after hq, ?_⟩
  have hv := showExchange_delay (Run.start s) hp (uNat 32 (s.pathDelay p d t1 t)) w
  rwa [Nat.mod_eq_of_lt (uNat_lt 32 _)] at hv

end Sys2Proof.Machine
end

section
/-!
PROOFS. Frames that a node sends, transactions of requester and target, and the operations of the HERD unit (O50).
-/
namespace Sys2Proof.Machine

variable {s₀ : State} (r : Run s₀) {s t u : State} {o : Op} {p : Nat} {d : List Byte}

/-! ## What sending a frame leaves (R376, R379, R395, R408) -/

theorem herdEvstat_mask : ∀ i ∈ [18, 19, 20], bit (implMask Reg.herdEvstat).toNat i = true := by decide +kernel

/-- A frame on its way to a port changes ports, sequence numbers, counters and flags only: transactions, the target's queue and the
stored responses stay, and a flag that is set stays set. -/
structure SendKept (s u : State) : Prop where
  only : u = { s with regs := u.regs, herd := u.herd }
  txns : u.herd.txns = s.herd.txns
  tgtQ : u.herd.tgtQ = s.herd.tgtQ
  replay : u.herd.replay = s.herd.replay
  flags : ∀ i, bit (implMask Reg.herdEvstat).toNat i = true → s.rb Reg.herdEvstat i = true → u.rb Reg.herdEvstat i = true

theorem SendKept.refl (s : State) : SendKept s s := ⟨rfl, rfl, rfl, rfl, fun _ _ h => h⟩

theorem SendKept.trans (h : SendKept s t) (g : SendKept t u) : SendKept s u :=
  ⟨by rw [g.only, h.only], g.txns.trans h.txns, g.tgtQ.trans h.tgtQ, g.replay.trans h.replay,
    fun i hm hi => g.flags i hm (h.flags i hm hi)⟩

/-- Memory, the sequence processors, the signal store and the operations are kept. -/
theorem SendKept.kept (h : SendKept s u) : MemKept s u ∧ u.sp = s.sp ∧ u.sig = s.sig :=
  ⟨fun a => by rw [h.only]; rfl, by rw [h.only], by rw [h.only]⟩

theorem SendKept.op (h : SendKept s u) (id : Nat) : u.op id = s.op id := by rw [State.op, h.kept.2.1, State.op]

theorem OnlyRegs.sendKept {l : List Nat} (h : OnlyRegs s u l) (hl : Reg.herdEvstat ∉ l) : SendKept s u :=
  ⟨by rw [h.1], by rw [h.1], by rw [h.1], by rw [h.1], fun i _ hi => (h.rb hl i).trans hi⟩

theorem flag_sendKept (j : Nat) : SendKept r.s (r.flag Reg.herdEvstat j).s := by
  refine ⟨rfl, rfl, rfl, rfl, fun i hm hi => ?_⟩
  by_cases hij : i = j
  · subst hij
    have h32 : i < 32 := by
      by_contra hge
      rw [rb_of_ge _ _ (not_lt.1 hge)] at hi
      cases hi
    exact flag_rb r h32 hm
  · exact (wf_rb_other r (le_refl j) (by omega) _ fun hf => by rw [hm] at hf; cases hf).trans hi

theorem setHport_sendKept (p : Nat) (x : HPort) : SendKept r.s (r.setHport p x).s := ⟨rfl, rfl, rfl, rfl, fun _ _ h => h⟩

theorem nextSeq_sendKept (cls : Nat) : SendKept r.s (r.nextSeq cls).s := ⟨rfl, rfl, rfl, rfl, fun _ _ h => h⟩

theorem count_flag_sendKept {a : Nat} (ha : a ≠ Reg.herdEvstat) (hi lo j : Nat) :
    SendKept r.s ((r.count a hi lo).flag Reg.herdEvstat j).s :=
  ((count_onlyRegs r a hi lo).sendKept (by simpa using ha.symm)).trans (flag_sendKept _ j)

theorem herdDrop_sendKept {a : Nat} (ha : a ≠ Reg.herdEvstat) : SendKept r.s (r.herdDrop a).s := count_flag_sendKept r ha 31 0 20

theorem toQueue_sendKept (p q : Nat) (f : HerdFrame) : SendKept r.s (r.toQueue p q f).s := setHport_sendKept ..

theorem isoPlace_sendKept (p : Nat) (f : HerdFrame) : SendKept r.s (r.isoPlace p f).s := by
  have hne : Reg.herdHpIsocnt p ≠ Reg.herdEvstat := by
    simp only [Reg.herdHpIsocnt, Reg.herdEvstat]
    omega
  have hunslotted := count_flag_sendKept r hne 15 0 17
  unfold Run.isoPlace
  dsimp only
  split
  · exact setHport_sendKept ..
  · split
    · exact (hunslotted.trans (count_flag_sendKept _ hne 31 16 16)).trans (toQueue_sendKept ..)
    · exact hunslotted.trans (toQueue_sendKept ..)

theorem enqueue_sendKept (p : Nat) (f : HerdFrame) : SendKept r.s (r.enqueue p f).s := by
  rw [Run.enqueue]
  split
  · exact herdDrop_sendKept r (by decide)
  · split
    · exact isoPlace_sendKept ..
    · exact toQueue_sendKept ..

theorem sendOn_sendKept (p : Nat) (f : HerdFrame) : SendKept r.s (r.sendOn p f).s := by
  rw [Run.sendOn]
  split
  · split
    · split
      · exact herdDrop_sendKept r (by decide)
      · exact enqueue_sendKept ..
    · exact enqueue_sendKept ..
  · exact enqueue_sendKept ..

theorem routeFrame_sendKept (f : HerdFrame) : SendKept r.s (r.routeFrame f).s := by
  rw [Run.routeFrame]
  split
  · exact sendOn_sendKept ..
  · exact herdDrop_sendKept r (by decide)

theorem spread_sendKept (arrival : Option Nat) (f : HerdFrame) : SendKept r.s (r.spread arrival f).s :=
  each_ind (P := fun q => SendKept r.s q.s) (fun q p _ hq => hq.trans (sendOn_sendKept q p f)) (.refl r.s)

/-- The frame of a message that the node originates. -/
theorem originate_sendKept (cls dst prio : Nat) (payload : List Byte) : SendKept r.s (r.originate cls dst prio payload).s := by
  have hseq := nextSeq_sendKept r cls
  unfold Run.originate
  dsimp only
  split
  · exact .refl _
  · split
    · split
      · exact (hseq.trans (spread_sendKept ..)).trans (spread_sendKept ..)
      · exact hseq.trans (spread_sendKept ..)
    · exact hseq.trans (routeFrame_sendKept ..)

theorem showTxn_onlyRegs : OnlyRegs r.s r.showTxn.s [Reg.herdTxnStat] := wr_onlyRegs ..

/-! ## The stored responses (R413) -/

theorem replayExpiry_expires (src tag : Nat) (s : State) : Answers (.replayExpiry src tag) s fun u => u = { s with herd := { s.herd with
    replay := s.herd.replay.filter fun r => !(r.src == src && r.tag == tag &&
      decide (r.stored + 8 * usCyc (s.rf Reg.herdTxnCfg 15 0) ≤ s.cyc)) } } :=
  ⟨_, rfl, rfl⟩

/-! ## The end of a transaction (R413, R417) -/

/-- The only transaction leaves its entry. -/
def Run.txnClosed (r : Run s₀) : Run s₀ := (r.mapHerd fun h => { h with txns := [] }).showTxn

theorem erase_closes {e : TxnEntry} (h : r.s.herd.txns = [e]) :
    (r.mapHerd fun h => { h with txns := h.txns.erase e }).showTxn = r.txnClosed := by
  have herase : r.s.herd.txns.erase e = [] := by rw [h, List.erase_cons_head]
  rw [Run.txnClosed, Run.mapHerd, Run.mapHerd, herase]

/-- The operation of a closed transaction ends. -/
theorem txnClosed_ends {q : Run s₀} {l : List Nat} (hq : OnlyRegs r.txnClosed.s q.s l) (hl : Reg.herdTxnStat ∈ l)
    (ho : r.s.op o.id = some o) (st : Status) (cause : Nat) (res : List Byte) : let u := (q.opFin o st cause res).s
    u.herd.txns = [] ∧ OpEnded u o.id st res ∧ OpsKept r.s u o.id ∧ RegsKept r.s u l ∧ MemKept r.s u := by
  have hshow : OnlyRegs (r.mapHerd fun h => { h with txns := [] }).s r.txnClosed.s l := (showTxn_onlyRegs _).mono (by simpa using hl)
  have hall := hshow.trans hq
  have hop : ∀ j, q.s.op j = r.s.op j := fun j => hall.op j
  obtain ⟨h₁, h₂, h₃, h₄⟩ := opEnd_after r (q := q) (l := l) ((hop _).trans ho) (fun j _ => hop j) (fun a => hall.memKept a)
    (fun a ha => hall.regsKept a ha) st cause q.s.now32 res 0
  have htx : q.s.herd.txns = [] := by rw [hall.1]; rfl
  exact ⟨htx, h₁, h₂, h₄, h₃⟩

theorem txnClosed_op (id : Nat) : r.txnClosed.s.op id = r.s.op id := (showTxn_onlyRegs _).op id

theorem opFin_rb (st : Status) (cause : Nat) (res : List Byte) (a i : Nat) : (r.opFin o st cause res).s.rb a i = r.s.rb a i := rfl

theorem exec_txnResponse (src : Nat) (d : List Byte) (s : State) : exec (.txnResponse src d) s = ((Run.start s).txnResponse src d).done := rfl

/-- A response that fits no transaction changes nothing. -/
theorem txnResponse_unknown {src : Nat} (h : ∀ e ∈ s.herd.txns, ¬(e.cls = 4 ∧ e.dest = src ∧ e.tag = ofBytesBE ((d.drop 4).take 4))) :
    Answers (.txnResponse src d) s (· = s) := by
  have hnone : (s.herd.txns.find? fun e => e.cls == 4 && e.dest == src && e.tag == ofBytesBE ((d.drop 4).take 4)) = none := by
    refine List.find?_eq_none.2 fun e he => ?_
    have := h e he
    simp only [Bool.and_eq_true, beq_iff_eq]
    tauto
  refine Run.answers (Run.start s) ((exec_txnResponse src d s).trans ?_) rfl
  simp only [Run.txnResponse, start_s, hnone]

/-- A transaction and its operation, which a response fits. -/
structure TxnFits (s : State) (e : TxnEntry) (o : Op) (src : Nat) (d : List Byte) : Prop where
  only : s.herd.txns = [e]
  cls : e.cls = 4
  dest : e.dest = src
  tag : e.tag = ofBytesBE ((d.drop 4).take 4)
  names : e.op = some o.id
  op : s.op o.id = some o
  out : o.out = none

theorem txnResponse_fits {e : TxnEntry} {src : Nat} (h : TxnFits r.s e o src d) {st : Status}
    (hst : statusOfCode (ofBytesBE ((d.drop 1).take 1)) = some st) : r.txnResponse src d =
      if st = .ok then r.txnClosed.opFin o o.okSt 0
        (txnResults (ofBytesBE ((d.drop 0).take 1) % 16) (ofBytesBE ((d.drop 2).take 2)) (d.drop 16))
      else r.txnClosed.opFin o st 0x11 [] := by
  obtain ⟨hone, hcls, hdest, htag, hname, hop, hout⟩ := h
  have hfind : (r.s.herd.txns.find? fun e => e.cls == 4 && e.dest == src && e.tag == ofBytesBE ((d.drop 4).take 4)) = some e := by
    rw [hone]
    exact List.find?_cons_of_pos (by simp [hcls, hdest, htag])
  have hop' : r.txnClosed.s.op o.id = some o := (txnClosed_op r _).trans hop
  unfold Run.txnResponse
  simp only [hfind, hst, erase_closes r hone, hname, hop', hout, Option.isSome_none, Bool.false_eq_true, if_false]

theorem txnResponse_refused {e : TxnEntry} {src : Nat} (h : TxnFits s e o src d) (hst : ofBytesBE ((d.drop 1).take 1) = Status.denied.code) :
    Answers (.txnResponse src d) s fun u => u.herd.txns = [] ∧ OpEnded u o.id .denied [] ∧ OpsKept s u o.id ∧
      RegsKept s u [Reg.herdTxnStat] ∧ MemKept s u := by
  have hfit := txnResponse_fits (Run.start s) h (st := .denied) (by rw [hst]; rfl)
  rw [if_neg (by decide)] at hfit
  exact Run.answers _ ((exec_txnResponse src d s).trans (congrArg Run.done hfit))
    (txnClosed_ends (Run.start s) (.refl _ _) (by simp) h.op .denied 0x11 [])

theorem txnResponse_read {e : TxnEntry} {src : Nat} (h : TxnFits s e o src d) (hst : ofBytesBE ((d.drop 1).take 1) = 0)
    (hk : ofBytesBE ((d.drop 0).take 1) % 16 = 1) : Answers (.txnResponse src d) s fun u => u.herd.txns = [] ∧
      OpEnded u o.id o.okSt (d.drop 16) ∧ OpsKept s u o.id ∧ RegsKept s u [Reg.herdTxnStat] ∧ MemKept s u := by
  have hfit := txnResponse_fits (Run.start s) h (st := .ok) (by rw [hst]; rfl)
  rw [if_pos rfl, hk, txnResults, if_neg (by decide)] at hfit
  exact Run.answers _ ((exec_txnResponse src d s).trans (congrArg Run.done hfit))
    (txnClosed_ends (Run.start s) (.refl _ _) (by simp) h.op o.okSt 0 (d.drop 16))

/-! ## A request without a response in time (R413) -/

theorem txnRetry_none {tag dest : Nat} (h : ∀ e ∈ s.herd.txns, ¬(e.tag = tag ∧ e.dest = dest)) :
    Answers (.txnRetryTimeout tag dest) s (· = s) := by
  have hnone : (s.herd.txns.find? fun e => e.tag == tag && e.dest == dest) = none := by
    refine List.find?_eq_none.2 fun e he => ?_
    simpa using h e he
  refine Run.answers (Run.start s) ?_ rfl
  show execTxnRetryTimeout tag dest s = _
  rw [execTxnRetryTimeout, hnone]

/-- The only transaction's request once it is sent again. -/
def TxnEntry.again (e : TxnEntry) (cyc : Nat) : TxnEntry := { e with tries := e.tries + 1, sent := false, sentAt := cyc }

/-- The command on the only transaction. -/
theorem exec_txnRetry {e : TxnEntry} (hone : s.herd.txns = [e]) : exec (.txnRetryTimeout e.tag e.dest) s =
    if !e.sent ∨ s.cyc < e.sentAt + usCyc (s.rf Reg.herdTxnCfg 15 0) then (Run.start s).done
    else if e.tries ≤ s.rf Reg.herdTxnCfg 26 24 then
      (((Run.start s).mapHerd fun h => { h with txns := [e.again s.cyc] }).txnSend (e.again s.cyc)).done
    else (if e.cls = 7 then ((Run.start s).txnClosed.flag Reg.herdEvstat 18).captAnswer e.sess e.pos Status.timeout.code
      else match e.op with
        | none => (Run.start s).txnClosed.flag Reg.herdEvstat 18
        | some id => ((Run.start s).txnClosed.flag Reg.herdEvstat 18).opFinId id .timeout 0 []).done := by
  have hfind : (s.herd.txns.find? fun x => x.tag == e.tag && x.dest == e.dest) = some e := by
    rw [hone]
    exact List.find?_cons_of_pos (by simp)
  have hmap : ((Run.start s).mapHerd fun h => { h with txns := h.txns.map fun x => if x = e then e.again s.cyc else x }) =
      (Run.start s).mapHerd fun h => { h with txns := [e.again s.cyc] } := by
    have : (s.herd.txns.map fun x => if x = e then e.again s.cyc else x) = [e.again s.cyc] := by simp [hone]
    rw [Run.mapHerd, Run.mapHerd, start_s, this]
  have hclose := erase_closes (Run.start s) hone
  show execTxnRetryTimeout e.tag e.dest s = _
  unfold execTxnRetryTimeout
  simp only [hfind]
  rw [← hmap, ← hclose]
  rfl

theorem txnRetry_early {e : TxnEntry} (hone : s.herd.txns = [e])
    (h : e.sent = false ∨ s.cyc < e.sentAt + usCyc (s.rf Reg.herdTxnCfg 15 0)) : Answers (.txnRetryTimeout e.tag e.dest) s (· = s) :=
  Run.answers (Run.start s) ((exec_txnRetry hone).trans (if_pos (h.imp_left fun h => by rw [h]; rfl))) rfl

theorem txnSend_away {e : TxnEntry} (h : e.dest ≠ r.s.nodeId ∨ e.cls ≠ 4) : r.txnSend e = r.originate e.cls e.dest e.prio e.payload :=
  if_neg fun ⟨h₁, h₂⟩ => h.elim (absurd h₁) (absurd h₂)

theorem txnRetry_again {e : TxnEntry} (hone : s.herd.txns = [e]) (hsent : e.sent = true)
    (hdue : e.sentAt + usCyc (s.rf Reg.herdTxnCfg 15 0) ≤ s.cyc) (htries : e.tries ≤ s.rf Reg.herdTxnCfg 26 24)
    (haway : e.dest ≠ s.nodeId ∨ e.cls ≠ 4) : Answers (.txnRetryTimeout e.tag e.dest) s fun u =>
      u.herd.txns = [e.again s.cyc] ∧ MemKept s u ∧ u.sp = s.sp := by
  let q := (Run.start s).mapHerd fun h => { h with txns := [e.again s.cyc] }
  have hk := originate_sendKept q e.cls e.dest e.prio e.payload
  refine Run.answers (q.originate e.cls e.dest e.prio e.payload) ?_ ⟨hk.txns, hk.kept.1, hk.kept.2.1⟩
  rw [exec_txnRetry hone, if_neg (by rw [hsent]; simpa using hdue), if_pos htries, txnSend_away _ haway]
  rfl

theorem txnRetry_timeout {e : TxnEntry} (hone : s.herd.txns = [e]) (hsent : e.sent = true)
    (hdue : e.sentAt + usCyc (s.rf Reg.herdTxnCfg 15 0) ≤ s.cyc) (htries : s.rf Reg.herdTxnCfg 26 24 < e.tries) (hcls : e.cls = 4)
    (hname : e.op = some o.id) (ho : s.op o.id = some o) (hout : o.out = none) : Answers (.txnRetryTimeout e.tag e.dest) s fun u =>
      u.herd.txns = [] ∧ OpEnded u o.id .timeout [] ∧ OpsKept s u o.id ∧ u.rb Reg.herdEvstat 18 = true ∧
        RegsKept s u [Reg.herdTxnStat, Reg.herdEvstat] ∧ MemKept s u := by
  let q := (Run.start s).txnClosed.flag Reg.herdEvstat 18
  have hq : OnlyRegs (Run.start s).txnClosed.s q.s [Reg.herdTxnStat, Reg.herdEvstat] := (flag_onlyRegs _ _ _).mono (by simp)
  have hop : q.s.op o.id = some o := (hq.op _).trans ((txnClosed_op _ _).trans ho)
  have hfin : q.opFinId o.id .timeout 0 [] = q.opFin o .timeout 0 [] := by
    rw [Run.opFinId, hop]
    simp [hout]
  obtain ⟨h₁, h₂, h₃, h₄, h₅⟩ := txnClosed_ends (Run.start s) hq (by simp) ho .timeout 0 []
  have hflag : q.s.rb Reg.herdEvstat 18 = true := flag_rb _ (by decide) (herdEvstat_mask 18 (by decide))
  refine Run.answers (q.opFin o .timeout 0 []) ?_ ⟨h₁, h₂, h₃, (opFin_rb q _ _ _ _ _).trans hflag, h₄, h₅⟩
  rw [exec_txnRetry hone, if_neg (by rw [hsent]; simpa using hdue), if_neg (by omega), if_neg (by rw [hcls]; decide), hname]
  exact congrArg Run.done hfin

end Sys2Proof.Machine
end

section
/-!
PROOFS. The target of transactions, and the operations of the HERD unit (O50).
-/
namespace Sys2Proof.Machine

variable {s₀ : State} (r : Run s₀) {s u : State} {o : Op} {q : TgtReq} {tl : List TgtReq}

/-! ## The target answers (R412, R413) -/

/-- The request has been answered: the answer is kept while there is room, and a refusal is flagged. -/
structure TgtAnswered (s u : State) (q : TgtReq) (st : Status) (data : List Byte) : Prop where
  only : u = { s with regs := u.regs, herd := u.herd }
  tgtQ : u.herd.tgtQ = s.herd.tgtQ
  replay : u.herd.replay = if 1024 ≤ s.herd.replay.length then s.herd.replay
    else s.herd.replay ++ [⟨q.src, txnTag q.payload, txnAnswer q.payload st data, s.cyc⟩]
  flag : st ≠ .ok → u.rb Reg.herdEvstat 19 = true

theorem OnlyRegs.nodeId {l : List Nat} (h : OnlyRegs s u l) (hl : Reg.herdStat ∉ l) : u.nodeId = s.nodeId := h.rf hl 15 0

/-- An answer is kept in the replay store while that has room. -/
def Run.replayKeep (r : Run s₀) (q : TgtReq) (a : List Byte) : Run s₀ :=
  if 1024 ≤ r.s.herd.replay.length then r
  else r.mapHerd fun h => { h with replay := h.replay ++ [⟨q.src, txnTag q.payload, a, r.s.cyc⟩] }

theorem replayKeep_s (q : TgtReq) (a : List Byte) : (r.replayKeep q a).s = { r.s with herd := { r.s.herd with
    replay := if 1024 ≤ r.s.herd.replay.length then r.s.herd.replay else r.s.herd.replay ++ [⟨q.src, txnTag q.payload, a, r.s.cyc⟩] } } := by
  rw [Run.replayKeep]
  split <;> rfl

theorem txnAnswered_eq (q : TgtReq) (st : Status) (data : List Byte) : r.txnAnswered q st data =
    ((r.when (st != .ok) fun r => r.flag Reg.herdEvstat 19).replayKeep q (txnAnswer q.payload st data)).txnReply q.src q.prio
      (txnAnswer q.payload st data) := rfl

/-- A refusal sets `txn_refused`. -/
theorem refusalFlag (st : Status) : let a := r.when (st != .ok) fun r => r.flag Reg.herdEvstat 19
    OnlyRegs r.s a.s [Reg.herdEvstat] ∧ (st ≠ .ok → a.s.rb Reg.herdEvstat 19 = true) := by
  by_cases hst : st = .ok
  · subst hst
    exact ⟨.refl _ _, fun h => absurd rfl h⟩
  · rw [show (st != .ok) = true by simpa using hst, when_true]
    exact ⟨flag_onlyRegs .., fun _ => flag_rb r (by decide) (herdEvstat_mask 19 (by decide))⟩

theorem txnAnswered_answers (hsrc : q.src ≠ r.s.nodeId) (st : Status) (data : List Byte) :
    TgtAnswered r.s (r.txnAnswered q st data).s q st data := by
  obtain ⟨ha, hflag⟩ := refusalFlag r st
  rw [txnAnswered_eq]
  generalize r.when (st != .ok) (fun r => r.flag Reg.herdEvstat 19) = a at ha hflag
  have hb := replayKeep_s a q (txnAnswer q.payload st data)
  have hnode : (a.replayKeep q (txnAnswer q.payload st data)).s.nodeId = r.s.nodeId := by
    rw [hb]
    exact ha.nodeId (by decide)
  generalize a.replayKeep q (txnAnswer q.payload st data) = b at hb hnode
  have hk := originate_sendKept b 4 q.src q.prio (txnAnswer q.payload st data)
  rw [Run.txnReply, if_neg (by rw [hnode]; exact hsrc)]
  generalize (b.originate 4 q.src q.prio (txnAnswer q.payload st data)).s = u at hk
  have hherd : a.s.herd = r.s.herd := by rw [ha.1]
  have hcyc : a.s.cyc = r.s.cyc := by rw [ha.1]
  refine ⟨by rw [hk.only, hb, ha.1], ?_, ?_, fun hst => hk.flags 19 (herdEvstat_mask 19 (by decide)) ?_⟩
  · rw [hk.tgtQ, hb, hherd]
  · rw [hk.replay, hb, hherd, hcyc]
  · rw [hb]
    exact hflag hst

/-- The target takes the oldest request. -/
def Run.tgtNext (r : Run s₀) (tl : List TgtReq) : Run s₀ := (r.mapHerd fun h => { h with tgtQ := tl }).showTxn

theorem exec_txnRequest (hq : s.herd.tgtQ = q :: tl) (hb : s.banksOpen q.signals = true) (hst : s.txnStored q.src (txnTag q.payload) = none) :
    exec .txnRequest s = (((Run.start s).tgtNext tl).txnServe q).done := by
  have hst' : ((Run.start s).tgtNext tl).s.txnStored q.src (txnTag q.payload) = none := hst
  show execTxnRequest s = _
  unfold execTxnRequest
  rw [hq]
  simp only [hb, Bool.not_true, Bool.false_eq_true, if_false]
  show (match ((Run.start s).tgtNext tl).s.txnStored q.src (txnTag q.payload) with
    | some a => (((Run.start s).tgtNext tl).txnReply q.src q.prio a).done
    | none => (((Run.start s).tgtNext tl).txnServe q).done) = _
  rw [hst']

theorem txnRequest_empty (h : s.herd.tgtQ = []) : Answers .txnRequest s (· = s) := by
  refine Run.answers (Run.start s) ?_ rfl
  show execTxnRequest s = _
  rw [execTxnRequest, h]

theorem txnRequest_waits (hq : s.herd.tgtQ = q :: tl) (hb : s.banksOpen q.signals = false) : Answers .txnRequest s (· = s) := by
  refine Run.answers (Run.start s) ?_ rfl
  show execTxnRequest s = _
  rw [execTxnRequest, hq]
  simp only [hb, Bool.not_false, if_true]

theorem tgtNext_onlyRegs (tl : List TgtReq) :
    OnlyRegs ((Run.start s).mapHerd fun h => { h with tgtQ := tl }).s ((Run.start s).tgtNext tl).s [Reg.herdTxnStat] := showTxn_onlyRegs _

theorem tgtNext_rget (tl : List TgtReq) {a : Nat} (ha : a ≠ Reg.herdTxnStat) : ((Run.start s).tgtNext tl).s.rget a = s.rget a :=
  (tgtNext_onlyRegs (s := s) tl).regsKept a (by simpa using ha)

/-- A request of another node is served with an answer: what the state is after it. -/
theorem txnRequest_served (hq : s.herd.tgtQ = q :: tl) (hb : s.banksOpen q.signals = true) (hsrc : q.src ≠ s.nodeId)
    (hst : s.txnStored q.src (txnTag q.payload) = none) {st : Status} {data : List Byte}
    (hserve : ((Run.start s).tgtNext tl).txnServe q = ((Run.start s).tgtNext tl).txnAnswered q st data) :
    Answers .txnRequest s fun u => u.herd.tgtQ = tl ∧
      u.herd.replay = (if 1024 ≤ s.herd.replay.length then s.herd.replay
        else s.herd.replay ++ [⟨q.src, txnTag q.payload, txnAnswer q.payload st data, s.cyc⟩]) ∧
      MemKept s u ∧ u.sp = s.sp ∧ u.sig = s.sig ∧ (st ≠ .ok → u.rb Reg.herdEvstat 19 = true) := by
  have hnode : q.src ≠ ((Run.start s).tgtNext tl).s.nodeId := by
    rw [(tgtNext_onlyRegs (s := s) tl).nodeId (by decide)]
    exact hsrc
  have ht := tgtNext_onlyRegs (s := s) tl
  have ha := txnAnswered_answers ((Run.start s).tgtNext tl) hnode st data
  refine Run.answers _ ((exec_txnRequest hq hb hst).trans (congrArg Run.done hserve)) ?_
  generalize (((Run.start s).tgtNext tl).txnAnswered q st data).s = u at ha
  generalize ((Run.start s).tgtNext tl).s = v at ha ht
  refine ⟨?_, ?_, fun a => ?_, ?_, ?_, ha.flag⟩
  · rw [ha.tgtQ, ht.1]; rfl
  · rw [ha.replay, ht.1]; rfl
  · rw [ha.only]
    exact ht.memKept a
  · rw [ha.only]
    exact ht.sp
  · rw [ha.only, ht.1]; rfl

/-! ## The cases of R412 -/

/-- The fields of a request: kind, mode, length and address. -/
def TgtReq.kind (q : TgtReq) : Nat := ofBytesBE (q.payload.take 1) % 16
def TgtReq.mode (q : TgtReq) : Nat := ofBytesBE ((q.payload.drop 1).take 1)
def TgtReq.count (q : TgtReq) : Nat := ofBytesBE ((q.payload.drop 2).take 2)
def TgtReq.addr (q : TgtReq) : Nat := ofBytesBE ((q.payload.drop 8).take 8)

theorem txnServe_full (h : 1024 ≤ r.s.herd.replay.length) : r.txnServe q = r.txnAnswered q .busy [] := if_pos h

/-- A request whose kind and count are in range, with room for its answer. -/
structure TgtForm (s : State) (q : TgtReq) : Prop where
  room : s.herd.replay.length < 1024
  low : 1 ≤ q.kind
  high : q.kind ≤ 4
  bytes : q.kind ≤ 2 → q.count ≤ 2032
  entries : 3 ≤ q.kind → q.count ≤ 64

/-- What serves a request that is in form. -/
theorem txnServe_form (h : TgtForm r.s q) : r.txnServe q =
    if q.kind ≤ 2 ∧ !r.s.herdWindow q.addr q.count (q.kind == 2) then r.txnAnswered q .denied []
    else if (q.kind = 3 ∧ !r.s.rb Reg.herdTxnCfg 28) ∨ (q.kind = 4 ∧ !r.s.rb Reg.herdTxnCfg 29) then r.txnAnswered q .denied []
    else match q.kind with
      | 1 => match r.herdRead q.addr q.count with
        | (r, true, x) => r.txnAnswered q .ok x
        | (r, false, _) => r.txnAnswered q .fault []
      | 2 => match r.herdWrite q.addr ((q.payload.drop 16).take q.count) with
        | (r, true) => r.txnAnswered q .ok []
        | (r, false) => r.txnAnswered q .fault []
      | 3 => if 3 < q.mode then r.txnAnswered q .cfgerr []
        else (r.txnSigrd q.count q.mode q.addr (q.payload.drop 16)).1.txnAnswered q .ok
          (r.txnSigrd q.count q.mode q.addr (q.payload.drop 16)).2
      | _ => (r.txnSigwr q.count q.src (q.payload.drop 16)).1.txnAnswered q .ok
          (r.txnSigwr q.count q.src (q.payload.drop 16)).2 := by
  obtain ⟨h₁, h₂, h₃, h₄, h₅⟩ := h
  refine (if_neg (by omega)).trans ((if_neg ?_).trans rfl)
  simp only [TgtReq.kind, TgtReq.count] at *
  simp only [List.drop_zero]
  omega

theorem herdWindow_congr {v : State} (h : ∀ a, a ≠ Reg.herdTxnStat → v.rget a = s.rget a) (a n : Nat) (wr : Bool) :
    v.herdWindow a n wr = s.herdWindow a n wr := by
  have hbase (w : Nat) : v.rget (Reg.herdWinBase w) = s.rget (Reg.herdWinBase w) := h _ (by
    simp only [Reg.herdWinBase, Reg.herdTxnStat]; omega)
  have hsize (w : Nat) : v.rget (Reg.herdWinSize w) = s.rget (Reg.herdWinSize w) := h _ (by
    simp only [Reg.herdWinSize, Reg.herdTxnStat]; omega)
  unfold State.herdWindow
  refine congrArg (List.any (List.range 4)) (funext fun w => ?_)
  have hrf : v.rf (Reg.herdWinSize w) 29 0 = s.rf (Reg.herdWinSize w) 29 0 := by rw [State.rf, hsize, State.rf]
  have hrb (i : Nat) : v.rb (Reg.herdWinSize w) i = s.rb (Reg.herdWinSize w) i := by rw [State.rb, hsize, State.rb]
  dsimp only
  rw [hbase, hrf, hrb]

/-- A READ or WRITE outside the windows of its direction. -/
theorem tgtNext_window (hroom : s.herd.replay.length < 1024) (h1 : 1 ≤ q.kind) (h2 : q.kind ≤ 2) (hn : q.count ≤ 2032)
    (hw : s.herdWindow q.addr q.count (q.kind == 2) = false) :
    ((Run.start s).tgtNext tl).txnServe q = ((Run.start s).tgtNext tl).txnAnswered q .denied [] := by
  rw [txnServe_form _ ⟨hroom, h1, by omega, fun _ => hn, by omega⟩, if_pos]
  rw [herdWindow_congr (s := s) fun a ha => tgtNext_rget tl ha, hw]
  exact ⟨h2, rfl⟩

/-- A SIGWR that the node does not allow. -/
theorem tgtNext_sigwr (hroom : s.herd.replay.length < 1024) (hk : q.kind = 4) (hn : q.count ≤ 64) (hoff : s.rb Reg.herdTxnCfg 29 = false) :
    ((Run.start s).tgtNext tl).txnServe q = ((Run.start s).tgtNext tl).txnAnswered q .denied [] := by
  have hoff' : ((Run.start s).tgtNext tl).s.rb Reg.herdTxnCfg 29 = false := by rw [State.rb, tgtNext_rget tl (by decide)]; exact hoff
  rw [txnServe_form _ ⟨hroom, by omega, by omega, by omega, fun _ => hn⟩, if_neg (by omega), if_pos]
  exact .inr ⟨hk, by rw [hoff']; rfl⟩

/-- A SIGRD of no entries. -/
theorem tgtNext_sigrd (hroom : s.herd.replay.length < 1024) (hk : q.kind = 3) (hn : q.count = 0) (hon : s.rb Reg.herdTxnCfg 28 = true)
    (hm : q.mode = 0) : ((Run.start s).tgtNext tl).txnServe q = ((Run.start s).tgtNext tl).txnAnswered q .ok [] := by
  have hon' : ((Run.start s).tgtNext tl).s.rb Reg.herdTxnCfg 28 = true := by rw [State.rb, tgtNext_rget tl (by decide)]; exact hon
  rw [txnServe_form _ ⟨hroom, by omega, by omega, by omega, by omega⟩, if_neg (by omega), if_neg, hk, hn, hm]
  · rfl
  · rintro (⟨-, h⟩ | ⟨h, -⟩)
    · rw [hon'] at h; cases h
    · omega

/-! ## The operations of the HERD unit (R417) -/

/-- The operation has ended with a status, and the Herd block is as before. -/
def HerdEnded (s : State) (o : Op) (st : Status) (res : List Byte) (u : State) : Prop :=
  OnlyOp s u o.id ∧ OpEnded u o.id st res ∧ u.herd = s.herd

theorem opFin_herd (st : Status) (cause : Nat) (res : List Byte) : (r.opFin o st cause res).s.herd = r.s.herd := rfl

theorem opFin_herdEnded (ho : s.op o.id = some o) (st : Status) (cause : Nat) (res : List Byte) :
    HerdEnded s o st res ((Run.start s).opFin o st cause res).s := by
  obtain ⟨h₁, -, h₂⟩ := opFin_ended (Run.start s) ho st cause res
  exact ⟨h₁, h₂, rfl⟩

theorem exec_herdLinkstat (h : OpMay s o 5 3) : exec (.herdLinkstat o.id) s = ((Run.start s).actLinkstat o).done :=
  congrArg Run.done (opRow_may (Run.start s) Run.actLinkstat h)

theorem exec_herdStatus (h : OpMay s o 5 4) : exec (.herdStatus o.id) s = ((Run.start s).actHerdStatus o).done :=
  congrArg Run.done (opRow_may (Run.start s) Run.actHerdStatus h)

theorem exec_herdTxn (h : OpMay s o 5 2) : exec (.herdTxn o.id) s = ((Run.start s).actHerdTxn o).done :=
  congrArg Run.done (opRow_may (Run.start s) Run.actHerdTxn h)

/-- A word of a list of words that are registers. -/
theorem recNat_regWord {l : List Nat} {i : Nat} {w : Word} (h : l[i]? = some w.toNat) : recNat (wordsLE l) (4 * i) 4 = w.toNat := by
  obtain ⟨hi, hw⟩ := List.getElem?_eq_some_iff.1 h
  rw [recNat_wordsLE hi, hw, Nat.mod_eq_of_lt w.isLt]

theorem herdLinkstat_answers (h : OpMay s o 5 3) : Answers (.herdLinkstat o.id) s fun u => OnlyOp s u o.id ∧ u.herd = s.herd ∧
    ∃ r : List Byte, r.length = 32 ∧ OpEnded u o.id o.okSt r ∧ recNat r 0 4 = (s.rget (Reg.herdHpStat o.obj)).toNat ∧
      recNat r 4 4 = (s.rget (Reg.herdHpDelay o.obj)).toNat ∧ recNat r 8 4 = (s.rget (Reg.herdHpOffset o.obj)).toNat := by
  let l : List Nat := [(s.rget (Reg.herdHpStat o.obj)).toNat, (s.rget (Reg.herdHpDelay o.obj)).toNat,
    (s.rget (Reg.herdHpOffset o.obj)).toNat, (s.rget (Reg.herdHpLane o.obj)).toNat, (s.rget (Reg.herdHpErrcnt o.obj)).toNat,
    (s.rget (Reg.herdHpIsocnt o.obj)).toNat, (s.rget (Reg.herdHpAsym o.obj)).toNat % 65536, (s.rget (Reg.herdHpSlotlenAct o.obj)).toNat]
  obtain ⟨h₁, h₂, h₃⟩ := opFin_herdEnded h.1 o.okSt 0 (wordsLE l)
  exact Run.answers _ (exec_herdLinkstat h) ⟨h₁, h₃, wordsLE l, wordsLE_length l, h₂, recNat_regWord (i := 0) rfl,
    recNat_regWord (i := 1) rfl, recNat_regWord (i := 2) rfl⟩

theorem herdStatus_answers (h : OpMay s o 5 4) : Answers (.herdStatus o.id) s fun u => OnlyOp s u o.id ∧ u.herd = s.herd ∧
    ∃ r : List Byte, r.length = 32 ∧ OpEnded u o.id o.okSt r ∧ recNat r 0 4 = (s.rget Reg.herdStat).toNat ∧
      recNat r 16 4 = (s.rget (Reg.herdStagUid 0)).toNat := by
  let l : List Nat := [(s.rget Reg.herdStat).toNat, (s.rget Reg.herdStag).toNat, (s.rget Reg.herdParent).toNat,
    (s.rget Reg.herdTxnStat).toNat] ++ (List.range 4).map fun i => (s.rget (Reg.herdStagUid i)).toNat
  obtain ⟨h₁, h₂, h₃⟩ := opFin_herdEnded h.1 o.okSt 0 (wordsLE l)
  exact Run.answers _ (exec_herdStatus h) ⟨h₁, h₃, wordsLE l, wordsLE_length l, h₂, recNat_regWord (i := 0) rfl,
    recNat_regWord (i := 4) rfl⟩

/-! ### TXN -/

/-- Kind and length of the request that a TXN makes. -/
def Op.txnKind (o : Op) : Nat := recNat o.payload 0 1 % 16
def Op.txnLen (o : Op) : Nat := recNat o.payload 2 2

/-- The payload of a TXN is in form (R417). -/
structure TxnForm (o : Op) : Prop where
  plain : bit (recNat o.payload 0 1) 7 = false
  low : 1 ≤ o.txnKind
  high : o.txnKind ≤ 4
  bytes : o.txnKind ≤ 2 → o.txnLen ≤ 2032
  entries : 3 ≤ o.txnKind → o.txnLen ≤ 64

/-- The transaction that a TXN opens. -/
def Op.txnEntry (o : Op) : TxnEntry :=
  let d := o.payload
  let data := if o.txnKind = 2 then (d.drop 16).take o.txnLen else if o.txnKind = 3 then
      (List.range o.txnLen).flatMap fun k => bytesBE 4 (recNat d (16 + 4 * k) 4)
    else if o.txnKind = 4 then
      (List.range (3 * o.txnLen)).flatMap fun k => bytesBE 4 (recNat d (16 + 4 * k) 4)
    else []
  { dest := o.obj, tag := recNat d 4 4, prio := recNat d 1 1 / 64, op := some o.id
    payload := bytesBE 1 o.txnKind ++ bytesBE 1 (recNat d 1 1 % 64) ++ bytesBE 2 o.txnLen ++ bytesBE 4 (recNat d 4 4)
      ++ bytesBE 8 (recNat d 8 8) ++ data }

theorem txnEntry_kind (o : Op) : ofBytesBE (o.txnEntry.payload.take 1) = o.txnKind := by
  simp only [Op.txnEntry, List.append_assoc, ofBytesBE_first]
  have : o.txnKind < 16 := Nat.mod_lt _ (by decide)
  omega

theorem actHerdTxn_eq (o : Op) : r.actHerdTxn o =
    if o.obj = 0 ∨ 0xFFFF ≤ o.obj then r.opFin o .nosuch 0 []
    else if bit (recNat o.payload 0 1) 7 ∨ o.txnKind < 1 ∨ 4 < o.txnKind ∨ (o.txnKind ≤ 2 ∧ 2032 < o.txnLen) ∨
        (3 ≤ o.txnKind ∧ 64 < o.txnLen) then
      r.opFin o .cfgerr 0 []
    else if o.txnLen = 0 then r.opFin o .empty 0 []
    else if !r.s.hasId then r.opFin o .refused 0x12 []
    else if o.obj ≠ r.s.nodeId ∧ (r.s.routePort o.obj).isNone then (r.herdDrop Reg.herdDropUnr).opFin o .refused 0x10 []
    else if 1024 ≤ r.s.herd.txns.length then r.opFin o .overload 0 []
    else ((r.opAct o).txnOpen o.txnEntry).1 := rfl

theorem txnForm_iff (o : Op) : TxnForm o ↔ ¬(bit (recNat o.payload 0 1) 7 ∨ o.txnKind < 1 ∨ 4 < o.txnKind ∨
    (o.txnKind ≤ 2 ∧ 2032 < o.txnLen) ∨ (3 ≤ o.txnKind ∧ 64 < o.txnLen)) := by
  constructor
  · rintro ⟨h₁, h₂, h₃, h₄, h₅⟩
    rw [h₁]
    simp only [Bool.false_eq_true, false_or]
    omega
  · intro h
    simp only [not_or] at h
    obtain ⟨h₁, h₂, h₃, h₄, h₅⟩ := h
    exact ⟨Bool.eq_false_iff.2 h₁, by omega, by omega, by omega, by omega⟩

/-- The destination may be asked, and the payload is in form and not empty. -/
structure TxnAsks (o : Op) : Prop where
  some : 0 < o.obj
  unicast : o.obj < 0xFFFF
  form : TxnForm o
  full : o.txnLen ≠ 0

/-- What is left of the checks once a TXN asks. -/
theorem actHerdTxn_asks (h : TxnAsks o) : r.actHerdTxn o =
    if !r.s.hasId then r.opFin o .refused 0x12 []
    else if o.obj ≠ r.s.nodeId ∧ (r.s.routePort o.obj).isNone then (r.herdDrop Reg.herdDropUnr).opFin o .refused 0x10 []
    else if 1024 ≤ r.s.herd.txns.length then r.opFin o .overload 0 []
    else ((r.opAct o).txnOpen o.txnEntry).1 := by
  obtain ⟨h₁, h₂, h₃, h₄⟩ := h
  rw [actHerdTxn_eq, if_neg (by omega), if_neg ((txnForm_iff o).1 h₃), if_neg h₄]

/-- A TXN that is turned away with a status. -/
theorem herdTxn_away (hm : OpMay s o 5 2) {st : Status} {cause : Nat} (he : (Run.start s).actHerdTxn o = (Run.start s).opFin o st cause []) :
    Answers (.herdTxn o.id) s (HerdEnded s o st []) :=
  Run.answers _ ((exec_herdTxn hm).trans (congrArg Run.done he)) (opFin_herdEnded hm.1 st cause [])

/-- No port leads to the destination: the frame counts as dropped, and the operation is refused. -/
theorem herdTxn_unrouted (hm : OpMay s o 5 2) (ha : TxnAsks o) (hid : s.hasId = true) (hn : o.obj ≠ s.nodeId) (hp : s.routePort o.obj = none) :
    Answers (.herdTxn o.id) s fun u => OpEnded u o.id .refused [] ∧ OpsKept s u o.id ∧ u.herd = s.herd ∧ u.rb Reg.herdEvstat 20 = true ∧
      RegsKept s u [Reg.herdEvstat, Reg.herdDropUnr] ∧ MemKept s u := by
  let q := (Run.start s).herdDrop Reg.herdDropUnr
  have hq : OnlyRegs s q.s [Reg.herdEvstat, Reg.herdDropUnr] :=
    ((count_onlyRegs (Run.start s) Reg.herdDropUnr 31 0).mono (by simp)).trans ((flag_onlyRegs _ _ _).mono (by simp))
  have hflag : q.s.rb Reg.herdEvstat 20 = true := flag_rb ((Run.start s).count Reg.herdDropUnr 31 0) (by decide) (herdEvstat_mask 20 (by decide))
  have hherd : q.s.herd = s.herd := by rw [hq.1]
  obtain ⟨h₁, h₂, h₃, h₄⟩ := opEnd_after (Run.start s) ((hq.op o.id).trans hm.1) (fun j _ => hq.op j) hq.memKept hq.regsKept
    .refused 0x10 q.s.now32 [] 0
  have hex : (Run.start s).actHerdTxn o = q.opFin o .refused 0x10 [] := by
    rw [actHerdTxn_asks _ ha, if_neg (by simp [hid]), if_pos ⟨hn, by rw [start_s, hp]; rfl⟩]
  exact Run.answers _ ((exec_herdTxn hm).trans (congrArg Run.done hex))
    ⟨h₁, h₂, (opFin_herd q _ _ _).trans hherd, (opFin_rb q _ _ _ _ _).trans hflag, h₄, h₃⟩

/-- A new transaction to another node: its entry stands last, and the request is on its way. -/
theorem txnOpen_opens {e : TxnEntry} (hroom : r.s.herd.txns.length < 1024) (hd : e.dest ≠ r.s.nodeId) : let u := (r.txnOpen e).1.s
    u.herd.txns = r.s.herd.txns ++ [{ e with tries := 1, sentAt := r.s.cyc }] ∧ MemKept r.s u ∧ u.sp = r.s.sp := by
  let e' : TxnEntry := { e with tries := 1, sentAt := r.s.cyc }
  let q := r.mapHerd fun h => { h with txns := h.txns ++ [e'] }
  have hk := originate_sendKept q e'.cls e'.dest e'.prio e'.payload
  have hs := showTxn_onlyRegs (q.originate e'.cls e'.dest e'.prio e'.payload)
  have hopen : (r.txnOpen e).1 = (q.originate e'.cls e'.dest e'.prio e'.payload).showTxn := by
    unfold Run.txnOpen
    rw [if_neg (by omega)]
    exact congrArg Run.showTxn (txnSend_away q (.inl hd))
  rw [hopen]
  refine ⟨?_, hk.kept.1.trans hs.memKept, hs.sp.trans hk.kept.2.1⟩
  rw [hs.1]
  exact hk.txns

theorem herdTxn_opens (hm : OpMay s o 5 2) (ha : TxnAsks o) (hid : s.hasId = true) (hn : o.obj ≠ s.nodeId) {p : Nat}
    (hp : s.routePort o.obj = some p) (hroom : s.herd.txns.length < 1024) : Answers (.herdTxn o.id) s fun u =>
      u.op o.id = some { o with acted := true, actedAt := s.now } ∧ OpsKept s u o.id ∧ MemKept s u ∧
      u.herd.txns = s.herd.txns ++ [{ o.txnEntry with tries := 1, sentAt := s.cyc }] := by
  obtain ⟨h₁, h₂, -⟩ := opAct_acts (Run.start s) hm.1
  obtain ⟨k₁, k₂, k₃⟩ := txnOpen_opens ((Run.start s).opAct o) (e := o.txnEntry) hroom hn
  have hex : (Run.start s).actHerdTxn o = (((Run.start s).opAct o).txnOpen o.txnEntry).1 := by
    rw [actHerdTxn_asks _ ha, if_neg (by simp [hid]), if_neg (by rw [start_s, hp]; simp), if_neg (by rw [start_s]; omega)]
  refine Run.answers _ ((exec_herdTxn hm).trans (congrArg Run.done hex)) ⟨?_, fun j hj => ?_, h₂.1.trans k₂, k₁⟩
  · rw [State.op, k₃]
    exact h₁
  · rw [State.op, k₃]
    exact h₂.2.2 j hj

/-- Settles O50: the exchanges of the time transfer, transactions from the requester's and from the target's side (whose answers go out
by `originate_sendKept`), and the operations of the HERD unit. -/
theorem herdTimeAndTransactions : Obligations.HerdTimeAndTransactions := by
  intro s p d t hinv hp be x ev others
  refine ⟨syncReq_idle, fun h3 h4 => ?_, syncReqSend_idle, fun h3 hdue => ?_, syncReqSend_interval, syncResult_idle,
    fun t1 ht hex h3 => ?_, fun src tag => replayExpiry_expires src tag s, fun src => ?_, fun tag dest => ?_, txnRequest_empty,
    fun q tl => txnRequest_waits, fun q tl hq hb hsrc hst => ?_, fun o => ?_⟩
  · exact (syncReq_answers hp h3 h4).imp fun u ⟨f, hset, hf⟩ => ⟨hset.kept, f, hset.same, hf⟩
  · refine (syncReqSend_cal h3 hdue).imp fun u ⟨f, hset⟩ => ⟨hset.kept, hset.time, ?_⟩
    rw [hset.same]
    exact ⟨rfl, rfl, List.length_append⟩
  · exact (syncResult_counts hp ht hex h3).imp fun u ⟨hset, hdelay⟩ => ⟨hset.kept, hset.same, hset.time, hdelay⟩
  · refine ⟨txnResponse_unknown, fun e o h₁ h₂ h₃ h₄ h₅ h₆ h₇ hst => ?_, fun e o h₁ h₂ h₃ h₄ h₅ h₆ h₇ hst hk => ?_⟩
    · exact txnResponse_refused ⟨h₁, h₂, h₃, h₄, h₅, h₆, h₇⟩ hst
    · exact txnResponse_read ⟨h₁, h₂, h₃, h₄, h₅, h₆, h₇⟩ hst hk
  · refine ⟨txnRetry_none, fun e hone htag hdest => ?_⟩
    subst htag hdest
    exact ⟨txnRetry_early hone, fun hs hd ht haway _ => txnRetry_again hone hs hd ht haway,
      fun o hs hd ht hc hname ho hout => txnRetry_timeout hone hs hd ht hc hname ho hout⟩
  · intro r kind n a answered
    have hroom {st : Status} {y : List Byte} (hlt : s.herd.replay.length < 1024)
        (hserve : ((Run.start s).tgtNext tl).txnServe q = ((Run.start s).tgtNext tl).txnAnswered q st y) :
        Answers .txnRequest s fun u => answered st y u ∧ MemKept s u ∧ u.sp = s.sp ∧ u.sig = s.sig ∧ (st ≠ .ok → u.rb ev 19 = true) :=
      (txnRequest_served hq hb hsrc hst hserve).imp fun u ⟨h₁, h₂, h₃⟩ => ⟨⟨h₁, h₂.trans (if_neg (by omega))⟩, h₃⟩
    refine ⟨fun hfull => ?_, fun hlt h1 h2 hn hw => ?_, fun hlt hk hn hoff => ?_, fun hlt hk hn hon hm => ?_⟩
    · exact (txnRequest_served hq hb hsrc hst (txnServe_full _ hfull)).imp fun u ⟨h₁, h₂, h₃, h₄, _, h₅⟩ =>
        ⟨h₁, h₂.trans (if_pos hfull), h₃, h₄, h₅ (by decide)⟩
    · exact (hroom hlt (tgtNext_window hlt h1 h2 hn hw)).imp fun u ⟨h₁, h₂, h₃, _, h₄⟩ => ⟨h₁, h₂, h₃, h₄ (by decide)⟩
    · exact (hroom hlt (tgtNext_sigwr hlt hk hn hoff)).imp fun u ⟨h₁, h₂, h₃, h₄, _⟩ => ⟨h₁, h₂, h₃, h₄⟩
    · exact (hroom hlt (tgtNext_sigrd hlt hk hn hon hm)).imp fun u ⟨h₁, h₂, h₃, _⟩ => ⟨h₁, h₂, h₃⟩
  · intro kind len form away
    have hform : form → TxnForm o := fun ⟨h₁, h₂, h₃, h₄, h₅⟩ => ⟨h₁, h₂, h₃, h₄, h₅⟩
    have hasks (h0 : 0 < o.obj) (h1 : o.obj < 0xFFFF) (hf : form) (hl : len ≠ 0) : TxnAsks o := ⟨h0, h1, hform hf, hl⟩
    refine ⟨fun hm => ⟨fun hbad => ?_, fun h0 h1 hbad => ?_, fun h0 h1 hf hl => ?_, fun h0 h1 hf hl hid => ?_,
      fun h0 h1 hf hl hid hn hrt => herdTxn_unrouted hm (hasks h0 h1 hf hl) hid hn hrt, fun q h0 h1 hf hl hid hn hrt => ⟨fun hfull => ?_,
      fun hlt => ?_⟩⟩, fun hm _ => herdLinkstat_answers hm, herdStatus_answers⟩
    · exact herdTxn_away hm ((actHerdTxn_eq _ o).trans (if_pos hbad))
    · have hbad' : ¬TxnForm o := fun ⟨h₁, h₂, h₃, h₄, h₅⟩ => hbad ⟨h₁, h₂, h₃, h₄, h₅⟩
      refine herdTxn_away hm ((actHerdTxn_eq _ o).trans ((if_neg (by omega)).trans (if_pos ?_)))
      exact not_not.1 fun h => hbad' ((txnForm_iff o).2 h)
    · exact herdTxn_away hm ((actHerdTxn_eq _ o).trans ((if_neg (by omega)).trans ((if_neg ((txnForm_iff o).1 (hform hf))).trans (if_pos hl))))
    · exact herdTxn_away hm ((actHerdTxn_asks _ (hasks h0 h1 hf hl)).trans (if_pos (by rw [start_s, hid]; rfl)))
    · refine herdTxn_away hm ((actHerdTxn_asks _ (hasks h0 h1 hf hl)).trans ((if_neg (by simp [hid])).trans ((if_neg ?_).trans (if_pos hfull))))
      rw [start_s, hrt]
      simp
    · exact (herdTxn_opens hm (hasks h0 h1 hf hl) hid hn hrt hlt).imp fun u ⟨h₁, h₂, h₃, h₄⟩ =>
        ⟨h₁, h₂, h₃, _, h₄, rfl, rfl, rfl, rfl, txnEntry_kind o⟩

end Sys2Proof.Machine
end

section
/-!
PROOFS. Two's complement: the model's signed numbers are those of bit vectors; integer results and comparisons (O5, O6).
-/
namespace Sys2Proof.Machine

variable {n : Nat}

/-! ## Signed numbers as bit vectors -/

theorem sInt_eq_toInt (n v : Nat) : sInt n v = (BitVec.ofNat n v).toInt := by
  simp [sInt, BitVec.toInt_eq_toNat_cond]

theorem sInt_toNat (a : BitVec n) : sInt n a.toNat = a.toInt := by simp [sInt_eq_toInt]

theorem u64_eq_toNat (i : Int) : u64 i = (BitVec.ofInt 64 i).toNat := by simp [u64, uNat]

/-- Sign extension to 64 bits. -/
theorem u64_sInt (a : BitVec n) : u64 (sInt n a.toNat) = (a.signExtend 64).toNat := by
  rw [sInt_toNat, u64_eq_toNat]; rfl

/-- Only the low bits of a number enter its signed value. -/
theorem u64_sInt_truncate {m : Nat} (a : BitVec m) (n : Nat) : u64 (sInt n a.toNat) = ((a.truncate n).signExtend 64).toNat := by
  rw [sInt_eq_toInt, u64_eq_toNat, BitVec.ofNat_toNat]; rfl

variable (a b : DWord)

/-! ## Results of the integer instructions -/

theorem intAlu_sub : intAlu 0x01 a.toNat b.toNat = (a - b).toNat := by
  unfold intAlu
  split
  case h_2 => exact (congrArg (· % 2 ^ 64) (Nat.add_sub_assoc b.isLt.le a.toNat)).trans (BitVec.toNat_sub' a b).symm
  all_goals contradiction

theorem intAlu_andNot : intAlu 0x05 a.toNat b.toNat = (a &&& ~~~b).toNat := by
  rw [BitVec.toNat_and, BitVec.toNat_not]; rfl

theorem intAlu_sra : intAlu 0x08 a.toNat b.toNat = (a.sshiftRight (b.toNat % 64)).toNat := by
  show u64 (sInt 64 a.toNat >>> (b.toNat % 64)) = _
  rw [sInt_toNat, u64_eq_toNat]; rfl

theorem sInt_le_iff : sInt 64 a.toNat ≤ sInt 64 b.toNat ↔ a.sle b = true := by
  rw [sInt_toNat, sInt_toNat, BitVec.sle_iff_toInt_le]

theorem sInt_lt_iff : sInt 64 a.toNat < sInt 64 b.toNat ↔ a.slt b = true := by
  rw [sInt_toNat, sInt_toNat, BitVec.slt_iff_toInt_lt]

theorem intAlu_min : intAlu 0x09 a.toNat b.toNat = (if a.sle b then a else b).toNat := by
  rw [apply_ite BitVec.toNat]
  exact if_congr (sInt_le_iff a b) rfl rfl

theorem intAlu_max : intAlu 0x0A a.toNat b.toNat = (if a.sle b then b else a).toNat := by
  rw [apply_ite BitVec.toNat]
  exact if_congr (sInt_le_iff a b) rfl rfl

theorem intAlu_minu : intAlu 0x0B a.toNat b.toNat = (if a.ule b then a else b).toNat := by
  rw [apply_ite BitVec.toNat]
  exact (min_def ..).trans (if_congr (by simp [BitVec.ule]) rfl rfl)

theorem intAlu_maxu : intAlu 0x0C a.toNat b.toNat = (if a.ule b then b else a).toNat := by
  rw [apply_ite BitVec.toNat]
  exact (max_def ..).trans (if_congr (by simp [BitVec.ule]) rfl rfl)

theorem intAlu_mulh : (intAlu 0x11 a.toNat b.toNat : Int) = a.toInt * b.toInt / 2 ^ 64 % 2 ^ 64 := by
  show (u64 ((sInt 64 a.toNat * sInt 64 b.toNat) >>> 64) : Int) = _
  have hshift (i : Int) : i >>> (64 : Int) = i / 2 ^ 64 := (Int.shiftRight_natCast_right i 64).trans (Int.shiftRight_eq_div_pow i 64)
  rw [sInt_toNat, sInt_toNat, hshift, u64, uNat, Int.toNat_of_nonneg (Int.emod_nonneg _ (by decide))]
  rfl

theorem intAlu_mulhu : intAlu 0x12 a.toNat b.toNat = a.toNat * b.toNat / 2 ^ 64 := Nat.shiftRight_eq_div_pow ..

theorem toNat_eq_zero_iff : a.toNat = 0 ↔ a = 0 := by rw [← BitVec.toNat_inj]; rfl

/-- Division gives all ones for a divisor 0 (R101). -/
theorem intAlu_div : intAlu 0x13 a.toNat b.toNat = (if b = 0 then BitVec.allOnes 64 else a.sdiv b).toNat := by
  rw [apply_ite BitVec.toNat]
  refine if_congr (toNat_eq_zero_iff b) rfl ?_
  have hmod : BitVec.ofInt 64 (a.toInt.tdiv b.toInt) = a.sdiv b :=
    BitVec.eq_of_toInt_eq (by rw [BitVec.toInt_ofInt, BitVec.toInt_sdiv])
  rw [sInt_toNat, sInt_toNat, u64_eq_toNat, hmod]

theorem intAlu_divu : intAlu 0x14 a.toNat b.toNat = (if b = 0 then BitVec.allOnes 64 else a / b).toNat := by
  rw [apply_ite BitVec.toNat]
  exact if_congr (toNat_eq_zero_iff b) rfl rfl

/-- The remainder of a divisor 0 is the dividend (R101). -/
theorem intAlu_rem : intAlu 0x15 a.toNat b.toNat = (if b = 0 then a else a.srem b).toNat := by
  rw [apply_ite BitVec.toNat]
  refine if_congr (toNat_eq_zero_iff b) rfl ?_
  rw [sInt_toNat, sInt_toNat, u64_eq_toNat, ← BitVec.toInt_srem, BitVec.ofInt_toInt]

theorem intAlu_remu : intAlu 0x16 a.toNat b.toNat = (if b = 0 then a else a % b).toNat := by
  rw [apply_ite BitVec.toNat]
  exact if_congr (toNat_eq_zero_iff b) rfl rfl

theorem intAlu_zextw : intAlu 0x1E a.toNat 0 = ((a.truncate 32).zeroExtend 64).toNat := by
  rw [BitVec.toNat_setWidth, BitVec.toNat_setWidth, Nat.mod_eq_of_lt (a := a.toNat % 2 ^ 32) (by omega)]
  rfl

/-! ## Counts of zeros -/

theorem div_two_pow_eq_one_iff (v k : Nat) : v / 2 ^ k = 1 ↔ 2 ^ k ≤ v ∧ v < 2 ^ (k + 1) := by
  rw [Nat.div_eq_iff (Nat.two_pow_pos k), pow_succ]
  have := Nat.two_pow_pos k
  omega

/-- `n` leading zeros: the highest one bit is bit 63 − n. -/
theorem clz64_eq_iff {v : Nat} (hv : v < 2 ^ 64) {n : Nat} (hn : n < 64) : clz64 v = n ↔ v / 2 ^ (63 - n) = 1 := by
  rw [div_two_pow_eq_one_iff, clz64]
  split
  next h0 =>
    subst h0
    exact iff_of_false (by omega) fun h => absurd h.1 (by simp)
  next h0 =>
    have hlog := (Nat.log2_lt h0).2 hv
    rw [← Nat.log2_eq_iff h0]
    omega

theorem clz64_eq_64_iff {v : Nat} (hv : v < 2 ^ 64) : clz64 v = 64 ↔ v = 0 := by
  have hlog (h0 : v ≠ 0) := (Nat.log2_lt h0).2 hv
  rw [clz64]
  split
  next h0 => simp [h0]
  next h0 => simp only [h0, iff_false]; omega

theorem mod_two_pow_eq_iff (v n : Nat) : v % 2 ^ (n + 1) = 2 ^ n ↔ v.testBit n = true ∧ ∀ j < n, v.testBit j = false := by
  constructor
  · intro h
    have hbit (j : Nat) : (decide (j < n + 1) && v.testBit j) = decide (n = j) := by
      rw [← Nat.testBit_mod_two_pow, h, Nat.testBit_two_pow]
    exact ⟨by simpa using hbit n, fun j hj => by simpa [show j < n + 1 by omega, show n ≠ j by omega] using hbit j⟩
  · rintro ⟨hn, hlow⟩
    refine Nat.eq_of_testBit_eq fun j => ?_
    rw [Nat.testBit_mod_two_pow, Nat.testBit_two_pow]
    rcases lt_trichotomy j n with h | rfl | h
    · simp [hlow j h, show n ≠ j by omega]
    · simp [hn]
    · simp [show ¬j < n + 1 by omega, show n ≠ j by omega]

/-- `n` trailing zeros: the lowest one bit is bit n. -/
theorem ctz64_eq_iff (v : Nat) {n : Nat} (hn : n < 64) : ctz64 v = n ↔ v % 2 ^ (n + 1) = 2 ^ n := by
  rw [mod_two_pow_eq_iff, ctz64]
  have hsome : ((List.range 64).find? fun i => bit v i) = some n ↔ v.testBit n = true ∧ ∀ j < n, v.testBit j = false := by
    rw [List.find?_range_eq_some]
    simp [bit_testBit, hn]
  rw [← hsome]
  cases (List.range 64).find? fun i => bit v i with
  | none => simp; omega
  | some k => simp

theorem ctz64_eq_64_iff : ctz64 a.toNat = 64 ↔ a = 0 := by
  have hnone : ((List.range 64).find? fun i => bit a.toNat i) = none ↔ a = 0 := by
    rw [List.find?_range_eq_none]
    simp only [bit_testBit, Bool.not_eq_true']
    refine ⟨fun h => BitVec.eq_of_getLsbD_eq fun i hi => (h i hi).trans (by simp), ?_⟩
    rintro rfl i -
    simp
  rw [← hnone, ctz64]
  cases h : (List.range 64).find? fun i => bit a.toNat i with
  | none => simp
  | some k =>
    have := List.mem_range.1 (List.mem_of_find?_eq_some h)
    simp; omega

theorem popc64_toNat : popc64 a.toNat = ((List.range 64).filter fun i => a.getLsbD i).length := by
  simp only [popc64, bit_testBit]; rfl

/-- Settles O5: a row of the table each; sums, logic and shifts are those of bit vectors by definition. -/
theorem integerValues : Obligations.IntegerValues := by
  intro a b
  exact ⟨rfl, intAlu_sub a b, rfl, rfl, rfl, intAlu_andNot a b, rfl, rfl, intAlu_sra a b, intAlu_min a b, intAlu_max a b,
    intAlu_minu a b, intAlu_maxu a b, rfl, intAlu_mulh a b, intAlu_mulhu a b, intAlu_div a b, intAlu_divu a b, intAlu_rem a b,
    intAlu_remu a b, fun n hn => clz64_eq_iff a.isLt hn, (clz64_eq_64_iff a.isLt).trans (toNat_eq_zero_iff a),
    fun n hn => ctz64_eq_iff a.toNat hn, ctz64_eq_64_iff a, popc64_toNat a, u64_sInt_truncate a 8, u64_sInt_truncate a 16,
    u64_sInt_truncate a 32, intAlu_zextw a⟩

/-! ## Comparisons -/

theorem qCond_slt : qCond 2 a.toNat b.toNat = a.slt b :=
  (Bool.decide_congr (sInt_lt_iff a b)).trans (Bool.decide_eq_true)

theorem qCond_sle : qCond 3 a.toNat b.toNat = b.sle a :=
  (Bool.decide_congr (sInt_le_iff b a)).trans (Bool.decide_eq_true)

theorem qCond_anyBit : qCond 6 a.toNat b.toNat = true ↔ a &&& b ≠ 0 := by
  rw [Ne, ← toNat_eq_zero_iff, BitVec.toNat_and]
  exact decide_eq_true_iff

/-- Settles O6: order as bit vectors compare, the immediate by sign extension, the predicate table by its cases. -/
theorem comparisonValues : Obligations.ComparisonValues := by
  refine ⟨fun a b => ⟨?_, ?_, qCond_slt a b, qCond_sle a b, rfl, rfl, qCond_anyBit a b⟩, fun w => u64_sInt_truncate w 12,
    fun _ _ => ⟨rfl, rfl, rfl, rfl, rfl, rfl, rfl⟩⟩
  · exact decide_eq_true_iff.trans BitVec.toNat_inj
  · exact decide_eq_true_iff.trans (not_congr BitVec.toNat_inj)

end Sys2Proof.Machine
end

section
/-!
PROOFS. Floating-point formats: a datum is encoded back to its bits, NaN results, signs, conversions, classes (O7).
-/
namespace Sys2Proof.Machine

/-- The format has room for an infinity apart from zero and the normal numbers, and for a quiet NaN. -/
structure FFmt.Sound (f : FFmt) : Prop where
  eb : 2 ≤ f.eb
  fb : 1 ≤ f.fb

theorem FFmt.Sound.of {f : FFmt} (h : f = f32 ∨ f = f64) : f.Sound := by
  rcases h with rfl | rfl <;> exact ⟨by decide, by decide⟩

variable {f : FFmt} {a b c : Nat}

/-! ## The fields of a word -/

/-- The exponent field and the fraction field. -/
def FFmt.expo (f : FFmt) (a : Nat) : Nat := bits a (f.eb + f.fb - 1) f.fb
def FFmt.frac (f : FFmt) (a : Nat) : Nat := a % 2 ^ f.fb

theorem expo_eq (hf : f.Sound) (a : Nat) : f.expo a = a / 2 ^ f.fb % 2 ^ f.eb := by
  obtain ⟨-, h⟩ := hf
  rw [FFmt.expo, bits_eq_div, show f.eb + f.fb - 1 + 1 - f.fb = f.eb by omega]

theorem expo_lt (hf : f.Sound) (a : Nat) : f.expo a < 2 ^ f.eb := expo_eq hf a ▸ Nat.mod_lt _ (Nat.two_pow_pos _)

theorem frac_lt (f : FFmt) (a : Nat) : f.frac a < 2 ^ f.fb := Nat.mod_lt _ (Nat.two_pow_pos _)

theorem low_eq (hf : f.Sound) (a : Nat) : a % 2 ^ (f.eb + f.fb) = f.expo a * 2 ^ f.fb + f.frac a := by
  rw [expo_eq hf, FFmt.frac, Nat.add_comm f.eb, pow_add, Nat.mod_mul, Nat.mul_comm, Nat.add_comm]

/-- The sign bit and the bits below it make up the word. -/
theorem sign_add_low (ha : a < 2 ^ (f.eb + f.fb + 1)) : b2n (f.signBit a) <<< (f.eb + f.fb) + a % 2 ^ (f.eb + f.fb) = a := by
  have hlt : a / 2 ^ (f.eb + f.fb) < 2 := Nat.div_lt_of_lt_mul (by rwa [pow_succ] at ha)
  have hs : b2n (f.signBit a) = a / 2 ^ (f.eb + f.fb) := by
    rw [FFmt.signBit, bit, Nat.shiftRight_eq_div_pow, Nat.mod_eq_of_lt hlt]
    rcases Nat.le_one_iff_eq_zero_or_eq_one.1 (Nat.lt_succ_iff.1 hlt) with h | h <;> rw [h] <;> rfl
  rw [hs, Nat.shiftLeft_eq, Nat.div_add_mod']

/-- The datum of a word by its fields. -/
theorem dec_eq (f : FFmt) (a : Nat) : f.dec a =
    if f.expo a = 2 ^ f.eb - 1 then (if f.frac a = 0 then .inf (f.signBit a) else .nan)
    else if f.expo a = 0 then .fin (f.signBit a) (f.frac a) f.emin
    else .fin (f.signBit a) (f.frac a + 2 ^ f.fb) (f.emin + (f.expo a - 1 : Nat)) := rfl

/-! ## Rounding what needs no rounding -/

/-- Two bits of zeros are dropped without a trace. -/
theorem rne_four (m : Nat) : rne (m * 4) 2 false = m := by
  have hq : (m * 4) >>> 2 = m := by rw [Nat.shiftRight_eq_div_pow]; omega
  simp [rne, hq]

theorem log2_mul_four {m : Nat} (hm : m ≠ 0) : Nat.log2 (m * 4) = Nat.log2 m + 2 := by
  rw [Nat.log2_eq_iff (by omega)]
  have hle := Nat.log2_self_le hm
  have hlt := Nat.lt_log2_self (n := m)
  simp only [pow_succ] at hlt ⊢
  omega

/-- A number that the format holds: a normal one, or a subnormal one at the least exponent. -/
structure FFmt.Holds (f : FFmt) (m : Nat) (e : Int) : Prop where
  wide : m < 2 ^ (f.fb + 1)
  low : f.emin ≤ e
  normal : 2 ^ f.fb ≤ m ∨ e = f.emin
  high : (e - f.emin).toNat + 1 < 2 ^ f.eb - 1

/-- The exponent of its least bit is the one that rounding finds. -/
theorem FFmt.Holds.expo {m : Nat} {e : Int} (h : f.Holds m e) (hm : m ≠ 0) :
    Max.max (e - 2 + ((Nat.log2 (m * 4) : Int) + 1) - (f.fb + 1 : Nat)) f.emin = e := by
  have hlog := (Nat.log2_lt hm).2 h.wide
  have hlow := h.low
  rw [log2_mul_four hm]
  rcases h.normal with hn | he
  · have : f.fb ≤ Nat.log2 m := (Nat.le_log2 hm).2 hn
    push_cast
    omega
  · push_cast
    omega

theorem round_holds {m : Nat} {e : Int} (h : f.Holds m e) (neg : Bool) : f.round neg m e false =
    b2n neg <<< (f.eb + f.fb) + (if m < 2 ^ f.fb then m else ((e - f.emin).toNat + 1) <<< f.fb + (m - 2 ^ f.fb)) := by
  rcases Nat.eq_zero_or_pos m with rfl | hpos
  · simp [FFmt.round, b2n]
  · have hm : m * 4 ≠ 0 := by omega
    have hhigh := h.high
    unfold FFmt.round
    simp only [b2n, Bool.false_eq_true, if_false, Nat.add_zero, hm, h.expo (Nat.ne_of_gt hpos)]
    rw [if_neg (by omega : ¬e ≤ e - 2), show (e - (e - 2)).toNat = 2 by omega, rne_four, decide_eq_false (Nat.not_le.2 h.wide)]
    simp only [Bool.false_eq_true, if_false]
    by_cases hsub : m < 2 ^ f.fb
    · rw [if_pos hsub, if_neg (by omega : ¬2 ^ f.eb - 1 ≤ 0), if_pos rfl, if_pos hsub]
    · rw [if_neg hsub, if_neg (Nat.not_le.2 hhigh), if_neg (Nat.succ_ne_zero _), if_neg hsub]

/-- A datum that is no NaN is encoded back to its own bits. -/
theorem enc_dec (hf : f.Sound) (ha : a < 2 ^ (f.eb + f.fb + 1)) (hnan : f.dec a ≠ .nan) : f.enc (f.dec a) = a := by
  have hlow := low_eq hf a
  have hlt := expo_lt hf a
  have hfr := frac_lt f a
  have htwo : 2 ^ 2 ≤ 2 ^ f.eb := Nat.pow_le_pow_right (by decide) hf.eb
  refine Eq.trans ?_ (sign_add_low ha)
  rw [hlow]
  rw [dec_eq] at hnan ⊢
  split at hnan
  next hmax =>
    split at hnan
    next h0 => rw [if_pos hmax, if_pos h0, h0, hmax, FFmt.enc, FFmt.infBits, Nat.shiftLeft_eq (2 ^ f.eb - 1), Nat.add_zero]
    next => exact absurd rfl hnan
  next hmax =>
    rw [if_neg hmax]
    by_cases he : f.expo a = 0
    · have hh : f.Holds (f.frac a) f.emin := ⟨by rw [pow_succ]; omega, le_rfl, .inr rfl, by omega⟩
      rw [if_pos he, FFmt.enc, round_holds hh, if_pos hfr, he]
      omega
    · have hh : f.Holds (f.frac a + 2 ^ f.fb) (f.emin + (f.expo a - 1 : Nat)) :=
        ⟨by rw [pow_succ]; omega, by omega, .inl (by omega), by omega⟩
      rw [if_neg he, FFmt.enc, round_holds hh, if_neg (by omega), Nat.shiftLeft_eq (_ + 1),
        show (f.emin + (f.expo a - 1 : Nat) - f.emin).toNat + 1 = f.expo a by omega, Nat.add_sub_cancel]

/-! ## NaN -/

theorem isNan_iff : f.isNan a = true ↔ f.dec a = .nan := by simp [FFmt.isNan]

theorem FVal.add_nan (x : FVal) : x.add .nan = .nan := by cases x <;> rfl
theorem FVal.mul_nan (x : FVal) : x.mul .nan = .nan := by cases x <;> rfl

/-- A NaN operand makes every result the quiet NaN (R107). -/
theorem nan_results (h : f.isNan a = true ∨ f.isNan b = true) (c : Nat) : f.add a b = f.qnan ∧ f.sub a b = f.qnan ∧
    f.mul a b = f.qnan ∧ f.div a b = f.qnan ∧ f.fma a b c = f.qnan := by
  rcases h with h | h <;> rw [isNan_iff] at h
  · unfold FFmt.add FFmt.sub FFmt.mul FFmt.div FFmt.fma
    rw [h]
    exact ⟨rfl, rfl, rfl, rfl, rfl⟩
  · unfold FFmt.add FFmt.sub FFmt.mul FFmt.div FFmt.fma
    rw [h, FVal.add_nan, FVal.mul_nan]
    refine ⟨rfl, congrArg f.enc (FVal.add_nan _), rfl, ?_, congrArg f.enc (FVal.add_nan _)⟩
    cases f.dec a <;> rfl

theorem sqrt_nan (h : f.isNan a = true) : f.sqrt a = f.qnan := by rw [FFmt.sqrt, isNan_iff.1 h]

/-- minNum and maxNum return the operand that is no NaN (R106). -/
theorem minMax_nan (ha : f.isNan a = true) (hb : f.isNan b = false) :
    f.min a b = b ∧ f.max a b = b ∧ f.min b a = b ∧ f.max b a = b := by
  simp [FFmt.min, FFmt.max, ha, hb]

/-! ## Signs -/

theorem low_lt (f : FFmt) (a : Nat) : a % 2 ^ (f.eb + f.fb) < 2 ^ (f.eb + f.fb) := Nat.mod_lt _ (Nat.two_pow_pos _)

/-- A word made of a sign and bits below it. -/
theorem signed_fields (f : FFmt) {m : Nat} (hm : m < 2 ^ (f.eb + f.fb)) (s : Bool) :
    f.signBit (m + b2n s <<< (f.eb + f.fb)) = s ∧ (m + b2n s <<< (f.eb + f.fb)) % 2 ^ (f.eb + f.fb) = m := by
  rw [FFmt.signBit, bit, Nat.shiftRight_eq_div_pow, Nat.shiftLeft_eq, Nat.add_mul_div_right _ _ (Nat.two_pow_pos _), Nat.div_eq_of_lt hm,
    Nat.add_mul_mod_self_right, Nat.mod_eq_of_lt hm]
  cases s <;> exact ⟨rfl, rfl⟩

theorem signBit_neg (f : FFmt) (a : Nat) : f.signBit (f.neg a) = !f.signBit a := (signed_fields f (low_lt f a) _).1

theorem abs_neg (f : FFmt) (a : Nat) : f.abs (f.neg a) = f.abs a := (signed_fields f (low_lt f a) _).2

theorem abs_signed (ha : a < 2 ^ (f.eb + f.fb + 1)) : f.abs a + b2n (f.signBit a) <<< (f.eb + f.fb) = a :=
  (Nat.add_comm ..).trans (sign_add_low ha)

theorem neg_neg_word (ha : a < 2 ^ (f.eb + f.fb + 1)) : f.neg (f.neg a) = a := by
  show f.abs (f.neg a) + b2n (!f.signBit (f.neg a)) <<< (f.eb + f.fb) = a
  rw [abs_neg, signBit_neg, Bool.not_not, abs_signed ha]

theorem abs_eq_or (ha : a < 2 ^ (f.eb + f.fb + 1)) : f.abs a = a ∨ f.abs a = f.neg a := by
  have hs := abs_signed ha
  cases h : f.signBit a
  · exact .inl (by simpa [h, b2n] using hs)
  · refine .inr ?_
    show f.abs a = f.abs a + b2n (!f.signBit a) <<< (f.eb + f.fb)
    simp [h, b2n]

/-! ## Conversion and classes -/

theorem toInt64_nan (h : f.isNan a = true) : f.toInt64 a = 0 := by rw [FFmt.toInt64, isNan_iff.1 h]

/-- The conversion saturates (R108). -/
theorem toInt64_bounds (f : FFmt) (a : Nat) : -(2 ^ 63) ≤ f.toInt64 a ∧ f.toInt64 a ≤ 2 ^ 63 - 1 := by
  unfold FFmt.toInt64
  cases f.dec a with
  | nan => decide
  | inf s => cases s <;> decide
  | fin s m e => exact ⟨le_max_left .., max_le (by decide) (min_le_left ..)⟩

/-- Every word has one of the ten classes (R109). -/
theorem classify_bit (f : FFmt) (a : Nat) : ∃ k, k < 10 ∧ f.classify a = 2 ^ k := by
  unfold FFmt.classify
  dsimp only
  split
  · split
    · split
      · exact ⟨0, by decide, rfl⟩
      · exact ⟨7, by decide, rfl⟩
    · split
      · exact ⟨9, by decide, rfl⟩
      · exact ⟨8, by decide, rfl⟩
  · split
    · split
      · split
        · exact ⟨3, by decide, rfl⟩
        · exact ⟨4, by decide, rfl⟩
      · split
        · exact ⟨2, by decide, rfl⟩
        · exact ⟨5, by decide, rfl⟩
    · split
      · exact ⟨1, by decide, rfl⟩
      · exact ⟨6, by decide, rfl⟩

/-- Settles O7: rounding a datum of the format changes nothing (`enc_dec`); the other clauses by the cases of a datum. -/
theorem floatValues : Obligations.FloatValues := by
  intro f hfmt a b c ha _ _
  have hf := FFmt.Sound.of hfmt
  refine ⟨fun h => enc_dec hf ha fun hn => ?_, fun h => nan_results h c, sqrt_nan, neg_neg_word ha, abs_neg f a, abs_eq_or ha,
    minMax_nan, toInt64_nan, (toInt64_bounds f a).1, (toInt64_bounds f a).2, classify_bit f a⟩
  rw [isNan_iff.2 hn] at h
  cases h

end Sys2Proof.Machine
end

section
/-!
PROOFS. How an instruction that issues comes to its effect, said once for every row: the thread in its slot, an instruction that
retires, and one whose guard is false (R96 to R99, R139, R146).
-/
namespace Sys2Proof.Machine

/-! ## The thread in its slot -/

/-- The thread as its slot leaves it: it no longer starves, and a step of the debug port is used up (R146, R607). -/
def Thread.issued (x : Thread) : Thread := { x with starve := 0, dbgStep := false }

namespace Thread

variable (x : Thread)

@[simp] theorem issued_state : x.issued.state = x.state := rfl
@[simp] theorem issued_pc : x.issued.pc = x.pc := rfl
@[simp] theorem issued_g : x.issued.g = x.g := rfl
@[simp] theorem issued_p : x.issued.p = x.p := rfl
@[simp] theorem issued_k : x.issued.k = x.k := rfl
@[simp] theorem issued_posted : x.issued.posted = x.posted := rfl
@[simp] theorem issued_refused : x.issued.refused = x.refused := rfl
@[simp] theorem issued_gr (i : Nat) : x.issued.gr i = x.gr i := rfl
@[simp] theorem issued_pr (i : Nat) : x.issued.pr i = x.pr i := rfl
@[simp] theorem issued_handle (k : Nat) : x.issued.handle k = x.handle k := rfl
@[simp] theorem issued_guardOk (w : Nat) : x.issued.guardOk w = x.guardOk w := rfl
@[simp] theorem issued_ea (w : Nat) : x.issued.ea w = x.ea w := rfl
@[simp] theorem issued_doneMask : x.issued.doneMask = x.doneMask := rfl
@[simp] theorem issued_pendMask : x.issued.pendMask = x.pendMask := rfl
@[simp] theorem issued_waitMet (all : Bool) (m : Nat) : x.issued.waitMet all m = x.waitMet all m := rfl
@[simp] theorem issued_outstanding : x.issued.outstanding = x.outstanding := rfl

@[simp] theorem setHandle_issued (k : Nat) (h : Handle) : x.issued.setHandle k h = (x.setHandle k h).issued := rfl

@[simp] theorem setG_issued (i v : Nat) : x.issued.setG i v = (x.setG i v).issued := by
  unfold Thread.setG
  split <;> rfl

@[simp] theorem setP_issued (i : Nat) (b : Bool) : x.issued.setP i b = (x.setP i b).issued := by
  unfold Thread.setP
  split <;> rfl

/-- A general register has 64 bits. -/
@[simp] theorem setG_mod (i v : Nat) : x.setG i (v % 2 ^ 64) = x.setG i v := by
  unfold Thread.setG
  split
  · rfl
  · rw [show BitVec.ofNat 64 (v % 2 ^ 64) = BitVec.ofNat 64 v from BitVec.eq_of_toNat_eq (by simp)]

end Thread

variable {s : State} {t w : Nat} {r : Run s}

/-- The run at the action of an instruction of thread `t`: the slot is used, and the thread is as it leaves it. -/
structure InSlot (s : State) (t : Nat) (r : Run s) : Prop where
  used : SlotUsed s r.s t
  thread : r.s.thread t = (s.thread t).issued

namespace InSlot

variable (hr : InSlot s t r)
include hr

/-- Whatever does not look at the SP cluster and the register file is as before the slot. -/
theorem sees {α : Type} (f : State → α) (hf : ∀ sp regs, f { s with sp := sp, regs := regs } = f s) : f r.s = f s := by
  rw [hr.used.rest]
  exact hf _ _

theorem cyc : r.s.cyc = s.cyc := hr.sees State.cyc fun _ _ => rfl
theorem sig : r.s.sig = s.sig := hr.sees State.sig fun _ _ => rfl
theorem now : r.s.now = s.now := hr.sees State.now fun _ _ => rfl
theorem now32 : r.s.now32 = s.now32 := hr.sees State.now32 fun _ _ => rfl
theorem seenTime (n : Nat) : r.s.seenTime n = s.seenTime n := hr.sees (State.seenTime · n) fun _ _ => rfl
theorem imem (j pc : Nat) : r.s.imem j pc = s.imem j pc := hr.used.imem j pc
theorem byte (a : Nat) : r.s.byte a = s.byte a := hr.used.mem a
theorem eccIn (a n : Nat) : r.s.eccIn a n = s.eccIn a n := hr.used.eccIn a n
theorem a1 : r.s.a1 t w = (s.thread t).gr (qRs1 w) := by rw [State.a1, hr.thread, Thread.issued_gr]
theorem a2 : r.s.a2 t w = (s.thread t).gr (qRs2 w) := by rw [State.a2, hr.thread, Thread.issued_gr]
theorem hwlock (n : Nat) : r.s.hwlock n = s.hwlock n := by rw [State.hwlock, hr.used.locks, State.hwlock]
theorem op (id : Nat) : r.s.op id = s.op id := by rw [State.op, hr.used.ops, State.op]
theorem opsOf : r.s.opsOf t = s.opsOf t := by rw [State.opsOf, hr.used.ops, State.opsOf]
theorem spCyc : r.s.spCyc = s.cyc - s.sp.cyc0 := by rw [State.spCyc, hr.cyc, hr.used.cyc0]

/-- The slot leaves what an instruction that only computes leaves. -/
theorem frame : IsaFrame s r.s t :=
  ⟨⟨hr.byte, hr.used.regs, hr.used.others⟩, hr.used.ops, hr.used.locks, hr.sig⟩

/-! ### Retiring -/

theorem retires (y : Thread) (n c : Nat) : IsaFrame s (r.retire t y.issued n c).s t ∧
    (r.retire t y.issued n c).s.thread t = retired s y n c := retire_spec hr.used y.issued n c

theorem toG (v n c : Nat) : r.toG t w v n c = r.retire t ((s.thread t).setG (qRd w) v).issued n c := by
  rw [Run.toG, hr.thread, Thread.setG_mod, Thread.setG_issued]

theorem toP (b : Bool) (c : Nat) : r.toP t w b c = r.retire t ((s.thread t).setP (bits w 19 17) b).issued 4 c := by
  rw [Run.toP, hr.thread, Thread.setP_issued]

end InSlot

/-! ## The rows by their major codes (R98) -/

/-- The major codes of a row. -/
def QRow.majors : QRow → List Nat
  | .intAlu => [0x00]
  | .intImm => [0x01, 0x02, 0x03, 0x04, 0x05]
  | .cmpi => [0x06, 0x07, 0x08, 0x09, 0x0A, 0x0B]
  | .cmp => [0x0C]
  | .predLogic => [0x0D]
  | .floatOp => [0x10]
  | .fcmp => [0x11]
  | .load => [0x14, 0x15, 0x16, 0x17, 0x18, 0x19, 0x1A]
  | .store => [0x1B, 0x1C, 0x1D, 0x1E]
  | .sigrd | .sigwr | .sigwrt | .sigasH | .sigasI | .sighist => [0x20, 0x33]
  | .br => [0x21]
  | .call => [0x22]
  | .jr => [0x23]
  | .op => [0x24]
  | .opx => [0x32]
  | .atT => [0x25]
  | .hstat | .hrel | .hcan | .hmask => [0x26]
  | .waitAny | .waitAll => [0x27]
  | .fence | .fenceM => [0x28]
  | .lock => [0x29]
  | .trylock => [0x2A]
  | .unlock => [0x2B]
  | .nop | .yield | .halt | .mfs | .mfp | .mtp => [0x2C]
  | .trap => [0x2D]
  | .li => [0x30]
  | .lih => [0x31]

theorem qSigRow_isSig {q : QRow} (h : qSigRow w = some q) : q.isSig = true := by
  unfold qSigRow at h
  split at h
  next => split at h <;> cases h; rfl
  next => cases h; rfl
  next => cases h; rfl
  next => cases h; rfl
  next => cases h; rfl
  next => cases h; rfl
  next => cases h

theorem isSig_majors {q : QRow} (h : q.isSig = true) : q.majors = [0x20, 0x33] := by
  cases q
  case sigrd | sigwr | sigwrt | sigasH | sigasI | sighist => rfl
  all_goals cases h

theorem majors_of_some {q x : QRow} {m : Nat} (h : some x = some q) (hm : m ∈ x.majors) : m ∈ q.majors := Option.some.inj h ▸ hm

theorem majors_of_qIf {q x : QRow} {b : Bool} {m : Nat} (h : qIf b x = some q) (hm : m ∈ x.majors) : m ∈ q.majors := by
  unfold qIf at h
  split at h
  · exact majors_of_some h hm
  · cases h

theorem majors_of_qSigRow {q : QRow} {m : Nat} (h : qSigRow w = some q) (hm : m ∈ QRow.sigrd.majors) : m ∈ q.majors := by
  rw [isSig_majors (qSigRow_isSig h)]
  exact hm

/-- A word of a row has one of the row's major codes. -/
theorem qRow_major {w : Nat} {q : QRow} (h : qRow w = some q) : qMajor w ∈ q.majors := by
  unfold qRow at h
  generalize qMajor w = m at h ⊢
  dsimp only at h
  split at h
  -- the codes whose every word belongs to their row
  case h_2 | h_3 | h_4 | h_5 | h_17 | h_18 | h_19 | h_20 | h_21 | h_22 | h_23 | h_24 | h_25 | h_26 | h_27 | h_30 | h_31 | h_32 | h_39 |
      h_40 | h_41 => exact majors_of_some h (by simp [QRow.majors])
  -- the signal instructions
  case h_28 => exact majors_of_qSigRow h (by simp [QRow.majors])
  case h_29 =>
    split at h
    · exact majors_of_qSigRow h (by simp [QRow.majors])
    · cases h
  -- the codes with sub-codes
  case h_36 =>
    split at h
    · cases h
    · split at h
      case h_1 => exact majors_of_some h (by simp [QRow.majors])
      case h_5 => cases h
      all_goals exact majors_of_qIf h (by simp [QRow.majors])
  case h_42 =>
    split at h
    case h_7 => cases h
    all_goals exact majors_of_qIf h (by simp [QRow.majors])
  case h_37 | h_38 => exact majors_of_qIf h (by split <;> simp [QRow.majors])
  case h_46 => cases h
  -- the codes with reserved bits
  all_goals exact majors_of_qIf h (by simp [QRow.majors])

/-- An X-format word of a row other than a signal instruction has no check of its extension word. -/
theorem qExtOk_of_row {w : Nat} {q : QRow} (h : qRow w = some q) (hq : 0x33 ∉ q.majors) (e : Nat) : qExtOk w e = true := by
  have hne : qMajor w ≠ 0x33 := fun he => hq (he ▸ qRow_major h)
  simp [qExtOk, hne]

variable {s : State} {t w : Nat} {q : QRow} {c : Instr} {act : Run s → Nat → Nat → Nat → Run s} {P : State → Prop}

/-! ## An instruction that issues -/

/-- The extension word of an instruction, 0 without one. -/
def State.extWord (s : State) (t w : Nat) : Nat := if qLen w = 8 then s.imem t ((s.thread t).pc + 4) else 0

/-- What holds of the state after the action, the command answers. -/
theorem Issues.answers (h : Issues s t w q) (hc : exec c s = ((Run.start s).issue t q act).done)
    (hext : qExtOk w (s.imem t ((s.thread t).pc + 4)) = true) (hP : ∀ r, InSlot s t r → P (act r t w (s.extWord t w)).s) :
    Answers c s P := by
  obtain ⟨r, hused, hthread, hact⟩ := issue_act h (fun _ => hext) act
  exact Run.answers _ (hc.trans (congrArg Run.done hact)) (hP r ⟨hused, hthread⟩)

/-- An action that retires the thread with its results. -/
theorem Issues.retires (h : Issues s t w q) (hc : exec c s = ((Run.start s).issue t q act).done)
    (hext : qExtOk w (s.imem t ((s.thread t).pc + 4)) = true) {y : Thread} {n k : Nat}
    (hact : ∀ r, InSlot s t r → act r t w (s.extWord t w) = r.retire t y.issued n k) :
    Answers c s fun u => IsaFrame s u t ∧ u.thread t = retired s y n k :=
  h.answers hc hext fun r hr => hact r hr ▸ hr.retires y n k

/-! ## A guard that is false -/

/-- The words of an instruction of thread `t` are fetched without error, as for `Issues`, but its guard is false. -/
structure Skips (s : State) (t w : Nat) (q : QRow) : Prop where
  thread : t < 64
  slot : s.mayIssue t = true
  noRefusal : (s.thread t).refused = none
  inside : (s.thread t).pc + qLen w ≤ 0x40000
  word : s.imem t (s.thread t).pc = w
  row : qRow w = some q
  guard : (s.thread t).guardOk w = false
  clean : s.eccIn (imemAddr t (s.thread t).pc) (qLen w) = []

theorem qLen_cases (w : Nat) : qLen w = 4 ∨ qLen w = 8 := by
  unfold qLen
  split <;> simp

/-- The use of its slot leaves a thread that waits for nothing as `InSlot` says. -/
theorem inSlot_useSlot (h : s.mayIssue t = true) : InSlot s t ((Run.start s).useSlot t) := by
  have hy : ∀ l, (s.thread t).wait ≠ .yield l := fun l => by simp [(mayIssue_ready h).2.1]
  have hs := useSlot_spec (Run.start s) t hy
  exact ⟨hs, hs.self hy⟩

/-- An instruction whose guard is false retires with the thread's registers as they were (R97). -/
theorem issue_skips (h : Skips s t w q) (act : Run s → Nat → Nat → Nat → Run s)
    (hext : qExtOk w (s.imem t ((s.thread t).pc + 4)) = true) : ∃ r : Run s, InSlot s t r ∧
      (Run.start s).issue t q act = r.retire t (s.thread t).issued (qLen w) (qLen w / 4) := by
  obtain ⟨ht, hslot, href, hin, hw, hrow, hguard, hclean⟩ := h
  have hr := inSlot_useSlot hslot
  have hpc : ¬0x40000 ≤ (s.thread t).pc := by rcases qLen_cases w with e | e <;> rw [e] at hin <;> omega
  have hecc (k : Nat) (hk : k + 4 ≤ qLen w) : ((Run.start s).useSlot t).s.eccIn (imemAddr t ((s.thread t).pc + k)) 4 = [] := by
    rw [hr.eccIn]
    exact eccIn_mono hclean (by unfold imemAddr; omega) (by unfold imemAddr; omega) (by decide)
  refine ⟨_, hr, ?_⟩
  unfold Run.issue
  simp only [start_s, ht, hslot, decide_true, Bool.and_self, Bool.not_true, Bool.false_eq_true, if_false, href, hpc, hw, hrow, ne_eq,
    not_true_eq_false, Run.fetchBad]
  rcases qLen_cases w with e | e
  · have h0 := eccRead_clean _ (hecc 0 (by omega))
    simp only [Nat.add_zero] at h0
    simp only [h0, e, if_true, hguard, Bool.false_eq_true, if_false, hr.thread]
  · have h0 := eccRead_clean _ (hecc 0 (by omega))
    simp only [Nat.add_zero] at h0
    have hpc4 : ¬0x40000 ≤ (s.thread t).pc + 4 := by omega
    simp only [h0, e, eccRead_clean _ (hecc 4 (by omega)), hguard, hr.thread, hr.imem, hext, hpc4, Bool.not_true, Bool.false_eq_true,
      if_false, Nat.reduceEqDiff]

theorem Skips.retires (h : Skips s t w q) (hc : exec c s = ((Run.start s).issue t q act).done)
    (hext : qExtOk w (s.imem t ((s.thread t).pc + 4)) = true) :
    Answers c s fun u => IsaFrame s u t ∧ u.thread t = retired s (s.thread t) (qLen w) (qLen w / 4) := by
  obtain ⟨r, hr, hact⟩ := issue_skips h act hext
  exact Run.answers _ (hc.trans (congrArg Run.done hact)) (hr.retires ..)

end Sys2Proof.Machine
end

section
/-!
PROOFS. A thread leaves RUNNING, and the fault of a thread (R143, R178, R179).
-/
namespace Sys2Proof.Machine

variable {s₀ : State} (r : Run s₀) {t : Nat}

/-! ## A thread without locks leaves RUNNING -/

/-- The thread holds no lock. -/
def NoLocks (s : State) (t : Nat) : Prop := ∀ l ∈ s.sp.locks, l.2.owner ≠ some t

/-- The thread as it leaves RUNNING. -/
def Thread.left (x : Thread) (st : ThreadState) : Thread := { x with
  state := st, wait := .none, refused := none, posted := x.posted.map fun q => { q with orphan := true } }

/-- What the end of a thread that holds no lock does. -/
def Run.threadLeft (r : Run s₀) (t : Nat) (st : ThreadState) : Run s₀ :=
  (r.setThread t ((r.s.thread t).left st)).mapSp fun p => { p with
    ops := p.ops.map fun o => if o.tid = t then { o with orphan := true } else o
    locks := p.locks.map fun e => (e.1, { e.2 with waiters := e.2.waiters.filter (· != t) }) }

theorem threadEnd_noLocks (h : NoLocks r.s t) (st : ThreadState) : r.threadEnd t st = r.threadLeft t st := by
  have hnone : (r.threadLeft t st).s.sp.locks.filter (fun e => e.2.owner == some t) = [] := by
    refine List.filter_eq_nil_iff.2 fun e he => ?_
    obtain ⟨l, hl, rfl⟩ := List.mem_map.1 he
    simpa using h l hl
  exact congrArg (fun l => (r.threadLeft t st).each l fun r e => r.lockBreak e.1) hnone

theorem threadLeft_memKept (t : Nat) (st : ThreadState) : MemKept r.s (r.threadLeft t st).s := fun _ => rfl
theorem threadLeft_rget (t : Nat) (st : ThreadState) (a : Nat) : (r.threadLeft t st).s.rget a = r.s.rget a := rfl

theorem threadLeft_same (st : ThreadState) : (r.threadLeft t st).s.thread t = (r.s.thread t).left st :=
  setThread_same r t _

/-! ## The registers of a fault -/

/-- A register that is set whole holds the value, when its bits are implemented. -/
theorem wr_toNat {a v : Nat} (h : ∀ i, v.testBit i = true → i < 32 ∧ bit (implMask a).toNat i = true) :
    ((r.wr a v).s.rget a).toNat = v := by
  refine Nat.eq_of_testBit_eq fun i => ?_
  have hw := wr_rb r a v i
  rw [State.rb, bit_testBit, bit_testBit v] at hw
  rw [hw]
  cases hv : v.testBit i
  · simp
  · simp [h i hv]

theorem spT_masks : ∀ t < 64, (∀ i < 32, i < 8 ∨ 16 ≤ i ∧ i < 28 ∨ i = 31 → bit (implMask (Reg.spTFcode t)).toNat i = true) ∧
    (∀ i < 19, bit (implMask (Reg.spTFpc t)).toNat i = true) ∧ (∀ i < 32, bit (implMask (Reg.spTFaddrLo t)).toNat i = true) ∧
    (∀ i < 8, bit (implMask (Reg.spTFaddrHi t)).toNat i = true) ∧
    bit (implMask (Reg.spFaultedLo + 4 * (t / 32))).toNat (t % 32) = true := by decide +kernel

theorem spEvstat_masks : ∀ i < 8, bit (implMask Reg.spEvstat).toNat i = true := by decide +kernel

theorem testBit_lt {v n i : Nat} (hv : v < 2 ^ n) (h : v.testBit i = true) : i < n := by
  by_contra hi
  rw [Nat.testBit_lt_two_pow (lt_of_lt_of_le hv (Nat.pow_le_pow_right (by decide) (Nat.not_lt.1 hi)))] at h
  cases h

theorem FaultCode.code_lt (c : FaultCode) : c.code < 2 ^ 8 := by cases c <;> decide

/-- SP_Tt_FCODE: the code, the trap code, and whether the fault is imprecise (R178). -/
def fcodeWord (c : FaultCode) (trapCode : Nat) (imprecise : Bool) : Nat := b2n imprecise <<< 31 + trapCode <<< 16 + c.code

theorem fcodeWord_eq (c : FaultCode) (trapCode : Nat) (imprecise : Bool) :
    fcodeWord c trapCode imprecise = b2n imprecise * 2 ^ 31 + trapCode * 2 ^ 16 + c.code := by
  rw [fcodeWord, Nat.shiftLeft_eq, Nat.shiftLeft_eq]

theorem fcodeWord_bits (c : FaultCode) {trapCode : Nat} (h : trapCode < 2 ^ 12) (imprecise : Bool) {i : Nat}
    (hi : (fcodeWord c trapCode imprecise).testBit i = true) : i < 32 ∧ (i < 8 ∨ 16 ≤ i ∧ i < 28 ∨ i = 31) := by
  have hc : c.code < 2 ^ 16 := c.code_lt.trans (by decide)
  have hb : b2n imprecise < 2 ^ 1 := by cases imprecise <;> decide
  rw [fcodeWord_eq, show b2n imprecise * 2 ^ 31 + trapCode * 2 ^ 16 + c.code =
    2 ^ 31 * b2n imprecise + (2 ^ 16 * trapCode + c.code) by ring, Nat.testBit_two_pow_mul_add _ (by omega)] at hi
  split at hi
  next h31 =>
    rw [Nat.testBit_two_pow_mul_add _ hc] at hi
    split at hi
    · have := testBit_lt c.code_lt hi
      omega
    · have := testBit_lt h hi
      omega
  next => have := testBit_lt hb hi; omega

/-- The registers that a fault writes are different ones. -/
theorem faultRegs_nodup (ht : t < 64) : [Reg.spTFcode t, Reg.spTFpc t, Reg.spTFaddrLo t, Reg.spTFaddrHi t,
    Reg.spFaultedLo + 4 * (t / 32), Reg.spEvstat].Nodup := by
  simp only [List.nodup_cons, List.mem_cons, List.not_mem_nil, or_false, not_or, Reg.spTFcode, Reg.spTFpc, Reg.spTFaddrLo,
    Reg.spTFaddrHi, Reg.spFaultedLo, Reg.spEvstat, List.nodup_nil, not_false_eq_true, and_true]
  omega

/-- The record of a fault. -/
def Run.faultRec (r : Run s₀) (t : Nat) (c : FaultCode) (pc addr trapCode : Nat) (imprecise : Bool) : Run s₀ :=
  (((r.wr (Reg.spTFcode t) (fcodeWord c trapCode imprecise)).wr (Reg.spTFpc t) pc).wr (Reg.spTFaddrLo t) (addr % 2 ^ 32)).wr
    (Reg.spTFaddrHi t) (bits addr 39 32)

variable (c : FaultCode) {pc trapCode : Nat} (addr : Nat) (imprecise : Bool)

theorem faultRec_onlyRegs (t pc trapCode : Nat) : OnlyRegs r.s (r.faultRec t c pc addr trapCode imprecise).s
    [Reg.spTFcode t, Reg.spTFpc t, Reg.spTFaddrLo t, Reg.spTFaddrHi t] :=
  ((((wr_onlyRegs r _ _).mono (by simp)).trans ((wr_onlyRegs _ _ _).mono (by simp))).trans
    ((wr_onlyRegs _ _ _).mono (by simp))).trans ((wr_onlyRegs _ _ _).mono (by simp))

theorem faultRec_values (ht : t < 64) (hpc : pc < 2 ^ 19) (htrap : trapCode < 2 ^ 12) :
    let u := (r.faultRec t c pc addr trapCode imprecise).s
    (u.rget (Reg.spTFcode t)).toNat = fcodeWord c trapCode imprecise ∧ (u.rget (Reg.spTFpc t)).toNat = pc ∧
      (u.rget (Reg.spTFaddrLo t)).toNat = addr % 2 ^ 32 ∧ (u.rget (Reg.spTFaddrHi t)).toNat = bits addr 39 32 := by
  obtain ⟨hcode, hfpc, hlo, hhi, -⟩ := spT_masks t ht
  have hnd := faultRegs_nodup ht
  simp only [List.nodup_cons, List.mem_cons, not_or] at hnd
  obtain ⟨⟨h₁₂, h₁₃, h₁₄, -⟩, ⟨h₂₃, h₂₄, -⟩, ⟨h₃₄, -⟩, -⟩ := hnd
  have hwr (q : Run s₀) {a b : Nat} (h : b ≠ a) (v : Nat) : (q.wr a v).s.rget b = q.s.rget b := rget_reg_ne h _
  have haddr : addr % 2 ^ 32 < 2 ^ 32 := Nat.mod_lt _ (by decide)
  have hbits : bits addr 39 32 < 2 ^ 8 := bits_lt ..
  refine ⟨?_, ?_, ?_, ?_⟩
  · rw [Run.faultRec, hwr _ h₁₄, hwr _ h₁₃, hwr _ h₁₂]
    exact wr_toNat _ fun i hi => ⟨(fcodeWord_bits c htrap imprecise hi).1, hcode i (fcodeWord_bits c htrap imprecise hi).1 (fcodeWord_bits c htrap imprecise hi).2⟩
  · rw [Run.faultRec, hwr _ h₂₄, hwr _ h₂₃]
    exact wr_toNat _ fun i hi => ⟨(testBit_lt hpc hi).trans (by decide), hfpc i (testBit_lt hpc hi)⟩
  · rw [Run.faultRec, hwr _ h₃₄]
    exact wr_toNat _ fun i hi => ⟨testBit_lt haddr hi, hlo i (testBit_lt haddr hi)⟩
  · exact wr_toNat _ fun i hi => ⟨(testBit_lt hbits hi).trans (by decide), hhi i (testBit_lt hbits hi)⟩

/-! ## The fault of a thread -/

/-- The fault before its restart is planned. -/
def Run.faultTaken (r : Run s₀) (t : Nat) (c : FaultCode) (pc addr trapCode : Nat) (imprecise : Bool) : Run s₀ :=
  (((r.faultRec t c pc addr trapCode imprecise).threadLeft t .faulted).threadBit Reg.spFaultedLo t true).flag Reg.spEvstat 0

theorem threadFault_eq (hl : NoLocks r.s t) (pc trapCode : Nat) : r.threadFault t c pc addr trapCode imprecise =
    let q := r.faultTaken t c pc addr trapCode imprecise
    if q.s.rf (Reg.spTCfg t) 5 4 = 1 ∧ (q.s.thread t).restarts < q.s.rf (Reg.spTCfg t) 11 8 then
      q.setThread t { q.s.thread t with restartFrom := some q.s.cyc } else q := by
  have hq := faultRec_onlyRegs r c addr imprecise t pc trapCode
  have hend := threadEnd_noLocks (r.faultRec t c pc addr trapCode imprecise) (t := t) (by rw [NoLocks, hq.sp]; exact hl) .faulted
  unfold Run.threadFault
  exact congrArg (fun e : Run s₀ =>
    let q := (e.threadBit Reg.spFaultedLo t true).flag Reg.spEvstat 0
    if q.s.rf (Reg.spTCfg t) 5 4 = 1 ∧ (q.s.thread t).restarts < q.s.rf (Reg.spTCfg t) 11 8 then
      q.setThread t { q.s.thread t with restartFrom := some q.s.cyc } else q) hend

variable {s : State} {u : State}

/-- Planning the restart changes nothing that a fault is judged by. -/
theorem Faults.restart {code a : Nat} {q : Run s₀} (h : Faults s q.s t code trapCode pc a imprecise) (from_ : Option Nat) :
    Faults s (q.setThread t { q.s.thread t with restartFrom := from_ }).s t code trapCode pc a imprecise := by
  unfold Faults at h ⊢
  rw [setThread_same]
  exact h

/-- Behind the record: the thread leaves RUNNING, and two bits are set. -/
theorem faultTaken_onlyRegs (pc trapCode : Nat) :
    OnlyRegs ((r.faultRec t c pc addr trapCode imprecise).threadLeft t .faulted).s (r.faultTaken t c pc addr trapCode imprecise).s
      [Reg.spFaultedLo + 4 * (t / 32), Reg.spEvstat] :=
  ((wb_onlyRegs _ (Reg.spFaultedLo + 4 * (t / 32)) (t % 32) true).mono (by simp)).trans
    ((flag_onlyRegs _ Reg.spEvstat 0).mono (by simp))

theorem faultTaken_thread (pc trapCode : Nat) :
    (r.faultTaken t c pc addr trapCode imprecise).s.thread t = (r.s.thread t).left .faulted := by
  rw [State.thread, (faultTaken_onlyRegs r c addr imprecise pc trapCode).sp, ← State.thread, threadLeft_same, State.thread,
    (faultRec_onlyRegs r c addr imprecise t pc trapCode).sp, ← State.thread]

theorem faultTaken_memKept (t pc trapCode : Nat) : MemKept r.s (r.faultTaken t c pc addr trapCode imprecise).s :=
  ((faultRec_onlyRegs r c addr imprecise t pc trapCode).memKept.trans (threadLeft_memKept _ t .faulted)).trans
    (faultTaken_onlyRegs r c addr imprecise pc trapCode).memKept

theorem faultTaken_rget (t pc trapCode : Nat) {b : Nat} (h₁ : b ≠ Reg.spFaultedLo + 4 * (t / 32)) (h₂ : b ≠ Reg.spEvstat) :
    (r.faultTaken t c pc addr trapCode imprecise).s.rget b = (r.faultRec t c pc addr trapCode imprecise).s.rget b :=
  ((faultTaken_onlyRegs r c addr imprecise pc trapCode).regsKept b (by simp [h₁, h₂])).trans (threadLeft_rget _ t .faulted b)

theorem faultTaken_flags (ht : t < 64) (pc trapCode : Nat) :
    let u := (r.faultTaken t c pc addr trapCode imprecise).s
    u.rb (Reg.spFaultedLo + 4 * (t / 32)) (t % 32) = true ∧ u.rb Reg.spEvstat 0 = true := by
  have hmask := (spT_masks t ht).2.2.2.2
  have hne : Reg.spFaultedLo + 4 * (t / 32) ≠ Reg.spEvstat := by
    simp only [Reg.spFaultedLo, Reg.spEvstat]
    omega
  refine ⟨?_, flag_rb _ (by decide) (spEvstat_masks 0 (by decide))⟩
  rw [State.rb, Run.faultTaken, flag_other _ hne, ← State.rb]
  exact wb_rb _ (Nat.mod_lt _ (by decide)) hmask true

theorem faultTaken_faults {r : Run s} (hr : InSlot s t r) (ht : t < 64) (hpc : pc < 2 ^ 19) (htrap : trapCode < 2 ^ 12) :
    Faults s (r.faultTaken t c pc addr trapCode imprecise).s t c.code trapCode pc (addr % 2 ^ 40) imprecise := by
  obtain ⟨hcode, hfpc, hlo, hhi⟩ := faultRec_values r c addr imprecise ht hpc htrap
  have hrec := (faultRec_onlyRegs r c addr imprecise t pc trapCode).regsKept
  have hrget {b : Nat} := faultTaken_rget r c addr imprecise t pc trapCode (b := b)
  have hmem := faultTaken_memKept r c addr imprecise t pc trapCode
  have hthread := faultTaken_thread r c addr imprecise (t := t) pc trapCode
  obtain ⟨hbit, hflag⟩ := faultTaken_flags r c addr imprecise ht pc trapCode
  have hnd := faultRegs_nodup ht
  simp only [List.nodup_cons, List.mem_cons, List.not_mem_nil, or_false, not_or] at hnd
  obtain ⟨⟨-, -, -, h₁₅, h₁₆⟩, ⟨-, -, h₂₅, h₂₆⟩, ⟨-, h₃₅, h₃₆⟩, ⟨h₄₅, h₄₆⟩, -⟩ := hnd
  rw [hr.thread] at hthread
  generalize (r.faultTaken t c pc addr trapCode imprecise).s = u, (r.faultRec t c pc addr trapCode imprecise).s = v at *
  refine ⟨?_, ?_, ?_, by rw [hthread]; rfl, by rw [hthread]; rfl, by rw [hthread]; rfl, by rw [hthread]; rfl, hbit, hflag,
    fun b => (hmem b).trans (hr.byte b), fun b hb => ?_⟩
  · rw [hrget h₁₅ h₁₆, hcode, fcodeWord_eq]
  · rw [hrget h₂₅ h₂₆, hfpc]
  · rw [hrget h₃₅ h₃₆, hrget h₄₅ h₄₆, hlo, hhi, bits_eq_div]
    omega
  · simp only [List.mem_cons, List.not_mem_nil, or_false, not_or] at hb
    obtain ⟨h₁, h₂, h₃, h₄, h₅, h₆, h₇⟩ := hb
    rw [hrget h₇ h₂, hrec b (by simp [h₃, h₄, h₅, h₆]), hr.used.regs b h₁ h₂]

/-- The fault of a thread in its slot that holds no lock. -/
theorem InSlot.faults {r : Run s} (hr : InSlot s t r) (ht : t < 64) (hl : NoLocks s t) (hpc : pc < 2 ^ 19) (htrap : trapCode < 2 ^ 12) :
    Faults s (r.threadFault t c pc addr trapCode imprecise).s t c.code trapCode pc (addr % 2 ^ 40) imprecise := by
  have hq := faultTaken_faults c addr imprecise hr ht hpc htrap
  rw [threadFault_eq r c addr imprecise (by rw [NoLocks, hr.used.locks]; exact hl)]
  dsimp only
  split
  · exact hq.restart imprecise _
  · exact hq

/-- A precise fault of an instruction. -/
theorem InSlot.isaFaults {r : Run s} (hr : InSlot s t r) (ht : t < 64) (hl : NoLocks s t) (hpc : (s.thread t).pc < 2 ^ 19) :
    Faults s (r.isaFault t c addr).s t c.code 0 (s.thread t).pc (addr % 2 ^ 40) false := by
  rw [Run.isaFault, hr.thread, Thread.issued_pc]
  exact hr.faults c addr false ht hl hpc (by decide)

/-- The fault leaves the count of operations. -/
theorem threadFault_nextOp (hl : NoLocks r.s t) (pc trapCode : Nat) :
    (r.threadFault t c pc addr trapCode imprecise).s.sp.nextOp = r.s.sp.nextOp := by
  rw [threadFault_eq r c addr imprecise hl]
  dsimp only
  split <;> rfl

end Sys2Proof.Machine
end

section
/-!
PROOFS. Instructions that write a general register or a predicate, and instructions whose guard is false (O8, O9, O10).
-/
namespace Sys2Proof.Machine

variable {s : State} {t w : Nat} {r : Run s}

/-! ## Results of the rows -/

theorem qLen_eq_eight (h : 0x30 ≤ qMajor w ∧ qMajor w ≤ 0x33) : qLen w = 8 := if_pos h

/-- The extension word of a row of the X format. -/
theorem extWord_eq (h : qLen w = 8) : s.extWord t w = s.imem t ((s.thread t).pc + 4) := if_pos h

theorem isaFloatOp_narrow (hr : InSlot s t r) (h : bit w 6 = false) (e : Nat) : r.isaFloatOp t w e =
    r.retire t ((s.thread t).setG (qRd w) (floatResult f32 f64 (bits w 5 0)
      (if bits w 5 0 = 0x0B ∨ bits w 5 0 = 0x0C then (s.thread t).gr (qRs1 w) else (s.thread t).gr (qRs1 w) % 2 ^ 32)
      ((s.thread t).gr (qRs2 w) % 2 ^ 32) ((s.thread t).gr (qRd w) % 2 ^ 32))).issued 4 (floatCycles (bits w 5 0) false) := by
  simp only [Run.isaFloatOp, h, hr.toG, hr.a1, hr.a2, hr.thread, Thread.issued_gr, narrow, Bool.false_eq_true, if_false]
  by_cases hB : bits w 5 0 = 0x0B
  · simp [hB]
  · by_cases hC : bits w 5 0 = 0x0C <;> simp [hB, hC]

theorem isaFloatOp_wide (hr : InSlot s t r) (h : bit w 6 = true) (e : Nat) : r.isaFloatOp t w e =
    r.retire t ((s.thread t).setG (qRd w) (floatResult f64 f32 (bits w 5 0)
      (if bits w 5 0 = 0x0C then (s.thread t).gr (qRs1 w) % 2 ^ 32 else (s.thread t).gr (qRs1 w))
      ((s.thread t).gr (qRs2 w)) ((s.thread t).gr (qRd w)))).issued 4 (floatCycles (bits w 5 0) true) := by
  simp only [Run.isaFloatOp, h, hr.toG, hr.a1, hr.a2, hr.thread, Thread.issued_gr, narrow, if_true]
  by_cases hB : bits w 5 0 = 0x0B
  · simp [hB]
  · by_cases hC : bits w 5 0 = 0x0C <;> simp [hB, hC]

/-- The special register that MFS reads (R133). -/
theorem isaMfs_eq (hr : InSlot s t r) (e : Nat) : r.isaMfs t w e = r.retire t ((s.thread t).setG (qRd w)
    (if qRs1 w = 0 then s.seenTime 0 else if qRs1 w = 1 then t else s.cyc - s.sp.cyc0)).issued 4 1 := by
  rw [Run.isaMfs, hr.toG, hr.seenTime, hr.spCyc]
  split
  next h => rw [if_pos h]
  next h => rw [if_neg (by omega), if_pos h]
  next h₀ h₁ => rw [if_neg h₀, if_neg h₁]

theorem isaLih_eq (hr : InSlot s t r) (e : Nat) : r.isaLih t w e =
    r.retire t ((s.thread t).setG (qRd w) (e * 2 ^ 32 + (s.thread t).gr (qRd w) % 2 ^ 32)).issued 8 2 := by
  rw [Run.isaLih, hr.toG, hr.thread, Thread.issued_gr, Nat.shiftLeft_eq]

theorem isaMfp_eq (hr : InSlot s t r) (e : Nat) :
    r.isaMfp t w e = r.retire t ((s.thread t).setG (qRd w) ((s.thread t).p.toNat ||| 1)).issued 4 1 := by
  rw [Run.isaMfp, hr.toG, hr.thread, Thread.issued_p]

theorem imem_lt (s : State) (t pc : Nat) : s.imem t pc < 2 ^ 32 := by
  have h := ofBytesLE_lt ((List.range 4).map fun i => s.byte (imemAddr t pc + i))
  simpa [State.imem] using h

/-- The predicates that MTP writes are bits 1 to 7 of its operand (R135). -/
theorem mtp_bits (v : Nat) {i : Nat} (h1 : 1 ≤ i) (h8 : i < 8) : (BitVec.ofNat 8 (v ||| 1)).getLsbD i = bit v i := by
  have hone : Nat.testBit 1 i = false := by
    rw [show 1 = 2 ^ 0 from rfl, Nat.testBit_two_pow]
    simp; omega
  rw [BitVec.getLsbD_ofNat, Nat.testBit_or, hone, bit_testBit]
  simp [h8]

/-- Settles O8: each row retires with its result (`Issues.retires`). -/
theorem registerInstructions : Obligations.RegisterInstructions := by
  intro s t w
  refine ⟨fun h => ?_, fun h => ?_, fun h hw => ?_, fun h hw => ?_, fun h => ?_, fun h => ?_, fun h => ?_, fun h => ?_, fun h => ?_,
    fun h => ?_⟩
  · exact h.retires rfl (qExtOk_of_row h.row (by decide) _) fun r hr => by rw [Run.isaIntAlu, hr.toG, hr.a1, hr.a2]
  · exact h.retires rfl (qExtOk_of_row h.row (by decide) _) fun r hr => by rw [Run.isaIntImm, hr.toG, hr.a1]
  · exact h.retires rfl (qExtOk_of_row h.row (by decide) _) fun r hr => isaFloatOp_narrow hr hw _
  · exact h.retires rfl (qExtOk_of_row h.row (by decide) _) fun r hr => isaFloatOp_wide hr hw _
  · have h8 := qLen_eq_eight (w := w) (by rw [List.mem_singleton.1 (qRow_major h.row)]; decide)
    have hv : u64 (sInt 32 (s.imem t ((s.thread t).pc + 4))) = ((BitVec.ofNat 32 (s.imem t ((s.thread t).pc + 4))).signExtend 64).toNat := by
      rw [← u64_sInt, BitVec.toNat_ofNat, Nat.mod_eq_of_lt (imem_lt ..)]
    exact h.retires rfl (qExtOk_of_row h.row (by decide) _) fun r hr => by rw [Run.isaLi, hr.toG, extWord_eq h8, hv]
  · have h8 := qLen_eq_eight (w := w) (by rw [List.mem_singleton.1 (qRow_major h.row)]; decide)
    exact h.retires rfl (qExtOk_of_row h.row (by decide) _) fun r hr => by rw [isaLih_eq hr, extWord_eq h8]
  · exact h.retires rfl (qExtOk_of_row h.row (by decide) _) fun r hr => isaMfs_eq hr _
  · exact h.retires rfl (qExtOk_of_row h.row (by decide) _) fun r hr => isaMfp_eq hr _
  · refine (h.retires (y := { s.thread t with p := BitVec.ofNat 8 ((s.thread t).gr (qRs1 w) ||| 1) }) rfl
      (qExtOk_of_row h.row (by decide) _) fun r hr => by rw [Run.isaMtp, hr.thread, hr.a1]; rfl).imp fun u hu =>
        ⟨hu.1, _, hu.2, fun i h1 h8 => mtp_bits _ h1 h8⟩
  · exact h.retires rfl (qExtOk_of_row h.row (by decide) _) fun r hr => by rw [Run.isaNop, hr.thread]

/-! ## Predicates -/

theorem isaPredLogic_eq (hr : InSlot s t r) (e : Nat) : r.isaPredLogic t w e = r.retire t ((s.thread t).setP (bits w 19 17)
    (qPred (qF7 w) ((s.thread t).pr (bits w 14 12)) ((s.thread t).pr (bits w 9 7)))).issued 4 1 := by
  rw [Run.isaPredLogic, hr.thread, hr.toP]
  rfl

/-- The condition of FCMP by its sub-code (R110). -/
def fcmpCond (f : FFmt) (op a b : Nat) : Bool :=
  if op = 0 then f.eq a b else if op = 1 then f.lt a b else if op = 2 then f.le a b else f.isNan a || f.isNan b

theorem isaFcmp_eq (hr : InSlot s t r) (e : Nat) : r.isaFcmp t w e = r.retire t ((s.thread t).setP (bits w 19 17)
    (fcmpCond (if bit w 6 then f64 else f32) (bits w 5 0) (narrow (bit w 6) ((s.thread t).gr (qRs1 w)))
      (narrow (bit w 6) ((s.thread t).gr (qRs2 w))))).issued 4 4 := by
  rw [Run.isaFcmp, hr.a1, hr.a2, hr.toP]
  unfold fcmpCond
  split
  next h => simp [h]
  next h => simp [h]
  next h => simp [h]
  next h₀ h₁ h₂ => rw [if_neg h₀, if_neg h₁, if_neg h₂]

/-- Settles O9: each row retires with its condition in the predicate. -/
theorem predicateInstructions : Obligations.PredicateInstructions := by
  intro s t w
  refine ⟨fun h => ?_, fun h => ?_, fun h => ?_, fun h hw => ?_, fun h hw => ?_⟩
  · exact h.retires rfl (qExtOk_of_row h.row (by decide) _) fun r hr => by rw [Run.isaCmp, hr.toP, hr.a1, hr.a2]
  · exact h.retires rfl (qExtOk_of_row h.row (by decide) _) fun r hr => by rw [Run.isaCmpi, hr.toP, hr.a1]
  · exact h.retires rfl (qExtOk_of_row h.row (by decide) _) fun r hr => isaPredLogic_eq hr _
  · exact h.retires rfl (qExtOk_of_row h.row (by decide) _) fun r hr => by rw [isaFcmp_eq hr, hw]; rfl
  · exact h.retires rfl (qExtOk_of_row h.row (by decide) _) fun r hr => by rw [isaFcmp_eq hr, hw]; rfl

/-! ## A false guard -/

/-- Settles O10: whatever the row, the words are fetched and passed (`Skips.retires`). -/
theorem falseGuardAdvancesPc : Obligations.FalseGuardAdvancesPc := by
  intro s t w q ht hslot href hin hw hrow hguard hclean done
  have h : Skips s t w q := ⟨ht, hslot, href, hin, hw, hrow, hguard, hclean⟩
  refine ⟨?_, ?_, ?_, ?_, ?_, ?_⟩
  all_goals
    rintro rfl
    exact h.retires rfl (qExtOk_of_row hrow (by decide) _)

end Sys2Proof.Machine
end

section
/-!
PROOFS. Branches: their targets, the link register, and the faults of a target outside the instruction memory (O11).
-/
namespace Sys2Proof.Machine

variable {s : State} {t w : Nat} {r : Run s}

/-! ## Setting the thread in its slot -/

theorem IsaFrame.setThread (h : IsaFrame s r.s t) (y : Thread) : IsaFrame s (r.setThread t y).s t := by
  obtain ⟨⟨hmem, hregs, hothers⟩, hops, hlocks, hsig⟩ := h
  refine ⟨⟨hmem, hregs, fun j hj => ?_⟩, hops, hlocks, hsig⟩
  rw [setThread_ne r hj]
  exact hothers j hj

/-- A thread that is set keeps what an instruction that only computes keeps. -/
theorem InSlot.sets (hr : InSlot s t r) (y : Thread) : IsaFrame s (r.setThread t y).s t ∧ (r.setThread t y).s.thread t = y :=
  ⟨hr.frame.setThread y, setThread_same r t y⟩

/-- The first word of an instruction that issues lies in the instruction memory. -/
theorem Issues.pc_lt {q : QRow} (h : Issues s t w q) : (s.thread t).pc < 2 ^ 18 := by
  have hin := h.inside
  rcases qLen_cases w with e | e <;> rw [e] at hin <;> omega

/-! ## Branches -/

/-- The link register is written after the target has been computed (R120). -/
def Thread.linked (x : Thread) (w : Nat) (link : Bool) : Thread := if link then x.setG (qRd w) (x.pc + 4) else x

theorem branch_inside (hr : InSlot s t r) {target : Int} {n : Nat} (ht : target = n) (hn : n ≤ 0x3FFFC) (h4 : n % 4 = 0)
    (link : Bool) : r.branch t w target link =
      r.setThread t { ((s.thread t).linked w link).issued with pc := n, readyAt := s.cyc + 1 } := by
  subst ht
  rw [Run.branch, if_neg (by omega), if_neg (by omega), hr.thread, hr.cyc, Int.toNat_natCast]
  cases link
  · rfl
  · simp [Thread.linked]

theorem branch_outside {target : Int} (h : target < 0 ∨ 0x3FFFC < target) (link : Bool) :
    r.branch t w target link = r.isaFault t .ifetch (u64 target) := if_pos h

theorem branch_misaligned {n : Nat} (hn : n ≤ 0x3FFFC) (h4 : n % 4 ≠ 0) (link : Bool) :
    r.branch t w n link = r.isaFault t .misalign n := by
  rw [Run.branch, if_neg (by omega), if_pos (by omega), Int.toNat_natCast]

theorem u64_natCast {n : Nat} (h : n < 2 ^ 64) : u64 (n : Int) = n := by
  rw [u64, uNat, ← Int.natCast_mod, Int.toNat_natCast, Nat.mod_eq_of_lt h]

/-- SEQUENTIAL_FETCH_END of a thread whose pc has passed the instruction memory faults with IFETCH (R121). -/
theorem sequentialFetchEnd_faults (ht : t < 64) (hslot : s.mayIssue t = true) (href : (s.thread t).refused = none)
    (hpc : 0x40000 ≤ (s.thread t).pc) (hl : NoLocks s t) :
    Answers (.sequentialFetchEnd t) s fun u => Faults s u t 2 0 0x40000 0x40000 false := by
  have hex : exec (.sequentialFetchEnd t) s = (((Run.start s).useSlot t).threadFault t .ifetch 0x40000 0x40000 0 false).done := by
    show execSequentialFetchEnd t s = _
    rw [execSequentialFetchEnd, if_neg (by simp [ht, hslot, hpc]), href]
  exact Run.answers _ hex ((inSlot_useSlot hslot).faults .ifetch 0x40000 false ht hl (by decide) (by decide))

/-- Settles O11: a branch by where its target lies (`branch_inside`, `branch_outside`, `branch_misaligned`). -/
theorem branchInstructions : Obligations.BranchInstructions := by
  intro s t w h4 x moved out rel
  have hrel : rel < 2 ^ 64 := Nat.mod_lt _ (by decide)
  have hjr {r : Run s} (hr : InSlot s t r) (e : Nat) : r.isaJr t w e = r.branch t w rel true := by rw [Run.isaJr, hr.a1]
  have h4n {n : Nat} {off : Int} (hn : ((s.thread t).pc : Int) + 4 * off = n) : n % 4 = 0 := by omega
  refine ⟨fun n h hn hle => ?_, fun n h hn hle => ?_, fun h hle h4 => ?_, fun hl => ⟨fun h hout => ?_, fun h hout => ?_, fun h hout => ?_,
    fun h hle h4 => ?_, fun ht hslot href hpc => sequentialFetchEnd_faults ht hslot href hpc hl⟩⟩
  · exact h.answers rfl (qExtOk_of_row h.row (by decide) _) fun r hr => by
      rw [Run.isaBr, hr.thread, Thread.issued_pc, branch_inside hr hn hle (h4n hn)]
      exact hr.sets _
  · exact h.answers rfl (qExtOk_of_row h.row (by decide) _) fun r hr => by
      rw [Run.isaCall, hr.thread, Thread.issued_pc, branch_inside hr hn hle (h4n hn)]
      exact hr.sets _
  · exact h.answers rfl (qExtOk_of_row h.row (by decide) _) fun r hr => by
      rw [hjr hr, branch_inside hr rfl hle h4]
      exact hr.sets _
  · exact h.answers rfl (qExtOk_of_row h.row (by decide) _) fun r hr => by
      rw [Run.isaBr, hr.thread, Thread.issued_pc, branch_outside hout]
      exact ⟨_, hr.isaFaults .ifetch _ h.thread hl (h.pc_lt.trans (by decide))⟩
  · exact h.answers rfl (qExtOk_of_row h.row (by decide) _) fun r hr => by
      rw [Run.isaCall, hr.thread, Thread.issued_pc, branch_outside hout]
      exact ⟨_, hr.isaFaults .ifetch _ h.thread hl (h.pc_lt.trans (by decide))⟩
  · exact h.answers rfl (qExtOk_of_row h.row (by decide) _) fun r hr => by
      rw [hjr hr, branch_outside (.inr (by omega)), u64_natCast hrel]
      exact hr.isaFaults .ifetch rel h.thread hl (h.pc_lt.trans (by decide))
  · exact h.answers rfl (qExtOk_of_row h.row (by decide) _) fun r hr => by
      rw [hjr hr, branch_misaligned hle h4]
      have hf := hr.isaFaults .misalign rel h.thread hl (h.pc_lt.trans (by decide))
      rwa [Nat.mod_eq_of_lt (by omega)] at hf

end Sys2Proof.Machine
end

section
/-!
PROOFS. Loads and stores: checks of the address, the value loaded, the bytes stored, and posted stores (O12, O13).
-/
namespace Sys2Proof.Machine

variable {s : State} {t w : Nat} {r : Run s}

/-! ## The access -/

theorem accSize_cases (m : Nat) : accSize m = 1 ∨ accSize m = 2 ∨ accSize m = 4 ∨ accSize m = 8 := by
  unfold accSize
  split <;> simp

theorem accSize_pos (m : Nat) : 0 < accSize m := by rcases accSize_cases m with e | e | e | e <;> rw [e] <;> decide

/-- An access that begins below a multiple of 8 on a multiple of its size ends below it. -/
theorem access_end {m a k : Nat} (h : a % accSize m = 0) (ha : a < 8 * k) : a + accSize m ≤ 8 * k := by
  rcases accSize_cases m with e | e | e | e <;> rw [e] at h ⊢ <;> omega

theorem eaFault_none {a n : Nat} (ha : a < 2 ^ 40) (h : a % n = 0) : eaFault a n = none := by
  rw [eaFault, if_neg (Nat.not_le.2 ha), if_neg (not_not.2 h)]

/-- The fault of an address that fails R112. -/
def eaCode (a : Nat) : FaultCode := if 2 ^ 40 ≤ a then .buserr else .misalign

theorem eaCode_code (a : Nat) : (eaCode a).code = if 2 ^ 40 ≤ a then 4 else 3 := by
  unfold eaCode
  split <;> rfl

theorem eaFault_some {a n : Nat} (h : 2 ^ 40 ≤ a ∨ a % n ≠ 0) : eaFault a n = some (eaCode a) := by
  unfold eaFault eaCode
  split
  · rfl
  next ha => rw [if_pos (h.resolve_left ha)]

theorem ownDmem_iff (t a : Nat) :
    ownDmem t a = true ↔ 0x3600000 + (t / 8) * 0x80000 ≤ a ∧ a < 0x3600000 + (t / 8 + 1) * 0x80000 := decide_eq_true_iff

/-- The own data memory of a thread is that of its processor. -/
theorem ownDmem_region {a : Nat} (ht : t < 64) (h : ownDmem t a = true) : regionOf a = .spD (t / 8) := by
  obtain ⟨hlo, hhi⟩ := (ownDmem_iff t a).1 h
  rw [regionOf, if_neg (by omega), if_neg (by omega), if_neg (by omega), if_neg (by omega), if_neg (by omega), if_pos (by omega)]
  exact congrArg Region.spD (by omega)

theorem ownDmem_lt {a : Nat} (ht : t < 64) (h : ownDmem t a = true) : a < 2 ^ 40 := by
  obtain ⟨-, hhi⟩ := (ownDmem_iff t a).1 h
  omega

/-- An access that begins in the own data memory lies in it. -/
theorem ownDmem_access {a m i : Nat} (hal : a % accSize m = 0) (h : ownDmem t a = true) (hi : i < accSize m) :
    ownDmem t (a + i) = true := by
  obtain ⟨hlo, hhi⟩ := (ownDmem_iff t a).1 h
  have hend := access_end (k := 0x6C0000 + (t / 8 + 1) * 0x10000) hal (by omega)
  exact (ownDmem_iff t _).2 ⟨by omega, by omega⟩

theorem meshByte_ownDmem (s : State) {a : Nat} (ht : t < 64) (h : ownDmem t a = true) : s.meshByte a = s.byte a := by
  rw [State.meshByte, ownDmem_region ht h]

/-! ## Loads -/

/-- An answer of the Mesh draws a free value; nothing of an instruction's effect depends on it. -/
theorem InSlot.drawn_retires (hr : InSlot s t r) (v n c : Nat) : IsaFrame s (r.drawn.toG t w v n c).s t ∧
    (r.drawn.toG t w v n c).s.thread t = retired s ((s.thread t).setG (qRd w) v) n c := by
  have h := hr.retires ((s.thread t).setG (qRd w) v) n c
  rw [← hr.toG] at h
  exact h

theorem isaLoad_ownDmem (hr : InSlot s t r) (ht : t < 64) {a : Nat} (ha : (s.thread t).ea w = a) (hal : a % accSize (qMajor w) = 0)
    (hecc : s.eccIn a (accSize (qMajor w)) = []) (hown : ownDmem t a = true) (e : Nat) :
    r.isaLoad t w e = r.toG t w (loadVal (qMajor w) (ofBytesLE ((List.range (accSize (qMajor w))).map fun i => s.byte (a + i)))) 4 3 := by
  have hbytes : r.s.bytes a (accSize (qMajor w)) = (List.range (accSize (qMajor w))).map fun i => s.byte (a + i) :=
    List.map_congr_left fun i hi => by
      rw [meshByte_ownDmem _ ht (ownDmem_access hal hown (List.mem_range.1 hi)), hr.byte]
  rw [Run.isaLoad, hr.thread, Thread.issued_ea, ha]
  simp only [eaFault_none (ownDmem_lt ht hown) hal, hown, if_true]
  rw [eccRead_clean r (by rw [hr.eccIn, hecc])]
  dsimp only
  rw [State.memNat, hbytes]

theorem isaLoad_sram (hr : InSlot s t r) {a : Nat} (ha : (s.thread t).ea w = a) (hal : a % accSize (qMajor w) = 0)
    (hecc : s.eccIn a (accSize (qMajor w)) = []) (hsram : a < 0x2000000) (e : Nat) : r.isaLoad t w e =
      r.drawn.toG t w (loadVal (qMajor w) (ofBytesLE ((List.range (accSize (qMajor w))).map fun i => s.byte (a + i)))) 4 24 := by
  have hend := access_end (k := 0x400000) hal hsram
  have hclean : SramClean r.drawn.s a (accSize (qMajor w)) := ⟨accSize_pos _, hend, (hr.eccIn _ _).trans hecc⟩
  have hown : ownDmem t a = false := by
    rw [← Bool.not_eq_true, ownDmem_iff]
    omega
  have hbytes : r.drawn.s.bytes a (accSize (qMajor w)) = (List.range (accSize (qMajor w))).map fun i => s.byte (a + i) :=
    List.map_congr_left fun i hi => by
      have hi := List.mem_range.1 hi
      rw [meshByte_sram _ (by omega)]
      exact hr.byte _
  rw [Run.isaLoad, hr.thread, Thread.issued_ea, ha]
  simp only [eaFault_none (show a < 2 ^ 40 by omega) hal, hown, Bool.false_eq_true, if_false]
  rw [hclean.busRead, hbytes, State.loadCycles, regionOf_sram hsram]

theorem isaLoad_faults (hr : InSlot s t r) {a : Nat} (ha : (s.thread t).ea w = a) (h : 2 ^ 40 ≤ a ∨ a % accSize (qMajor w) ≠ 0)
    (e : Nat) : r.isaLoad t w e = r.isaFault t (eaCode a) (a % 2 ^ 40) := by
  rw [Run.isaLoad, hr.thread, Thread.issued_ea, ha]
  simp only [eaFault_some h]

/-! ## Stores -/

theorem bytesLE_getElem {n v i : Nat} (h : i < n) : (bytesLE n v)[i]? = some (BitVec.ofNat 8 (v / 2 ^ (8 * i))) := by
  induction n generalizing v i with
  | zero => omega
  | succ n ih =>
    cases i with
    | zero => simp [bytesLE]
    | succ i =>
      rw [bytesLE, List.getElem?_cons_succ, ih (by omega), Nat.div_div_eq_div_mul, Nat.mul_succ, Nat.pow_add]
      simp [Nat.mul_comm]

theorem putBytes_thread (r : Run s) (a : Nat) (d : List Byte) (j : Nat) : (r.putBytes a d).s.thread j = r.s.thread j := by
  rw [State.thread, putBytes_s]; rfl

theorem putBytes_rget (r : Run s) (a : Nat) (d : List Byte) (b : Nat) : (r.putBytes a d).s.rget b = r.s.rget b := by
  rw [State.rget, putBytes_s]; rfl

/-- What a store of `d` at `a` leaves in memory. -/
theorem putBytes_kept (r : Run s) (a : Nat) (d : List Byte) : (∀ i, i < d.length → some ((r.putBytes a d).s.byte (a + i)) = d[i]?) ∧
    MemKeptBut r.s (r.putBytes a d).s a d.length := by
  refine ⟨fun i hi => ?_, fun b hb => ?_⟩
  · rw [putBytes_byte, dif_pos ⟨by omega, by omega⟩]
    simp
  · rw [putBytes_byte, dif_neg (by omega)]

theorem memStatus_ownDmem (s : State) {a m : Nat} (ht : t < 64) (hal : a % accSize m = 0) (h : ownDmem t a = true) (port : Nat)
    (wr : Bool) : s.memStatus port a (accSize m) wr = .ok := by
  have hpos := accSize_pos m
  have hlast := ownDmem_region ht (ownDmem_access (i := accSize m - 1) hal h (by omega))
  rw [← Nat.add_sub_assoc hpos] at hlast
  rw [State.memStatus, ownDmem_region ht h, hlast, if_neg (not_not.2 rfl)]

theorem isaStore_ownDmem (hr : InSlot s t r) (ht : t < 64) {a : Nat} (ha : (s.thread t).ea w = a) (hal : a % accSize (qMajor w) = 0)
    (hecc : s.eccIn a (accSize (qMajor w)) = []) (hown : ownDmem t a = true) (e : Nat) : r.isaStore t w e =
      (r.putBytes a (bytesLE (accSize (qMajor w)) ((s.thread t).gr (qRd w)))).retire t (s.thread t).issued 4 1 := by
  have hwrite : r.memWrite (t / 32) a (bytesLE (accSize (qMajor w)) ((s.thread t).gr (qRd w))) =
      (r.putBytes a (bytesLE (accSize (qMajor w)) ((s.thread t).gr (qRd w))), .ok) :=
    memWrite_ok r (by rw [bytesLE_length]; exact memStatus_ownDmem _ ht hal hown _ _) (by rw [bytesLE_length, hr.eccIn, hecc])
      (fun k hk => by rw [ownDmem_region ht hown] at hk; cases hk)
      (List.length_pos_iff.1 (by rw [bytesLE_length]; exact accSize_pos _))
  rw [Run.isaStore, hr.thread, Thread.issued_ea, ha]
  simp only [eaFault_none (ownDmem_lt ht hown) hal, hown, if_true, Thread.issued_gr]
  rw [hwrite]
  dsimp only
  rw [putBytes_thread, hr.thread]

theorem isaStore_posts (hr : InSlot s t r) {a : Nat} (ha : (s.thread t).ea w = a) (hal : a % accSize (qMajor w) = 0)
    (hlt : a < 2 ^ 40) (hown : ownDmem t a = false) (e : Nat) : r.isaStore t w e =
      r.retire t ({ s.thread t with posted := (s.thread t).posted ++
        [{ addr := a, data := bytesLE (accSize (qMajor w)) ((s.thread t).gr (qRd w)) }] } : Thread).issued 4 1 := by
  rw [Run.isaStore, hr.thread, Thread.issued_ea, ha]
  simp only [eaFault_none hlt hal, hown, Bool.false_eq_true, if_false]
  rfl

theorem isaStore_faults (hr : InSlot s t r) {a : Nat} (ha : (s.thread t).ea w = a) (h : 2 ^ 40 ≤ a ∨ a % accSize (qMajor w) ≠ 0)
    (e : Nat) : r.isaStore t w e = r.isaFault t (eaCode a) (a % 2 ^ 40) := by
  rw [Run.isaStore, hr.thread, Thread.issued_ea, ha]
  simp only [eaFault_some h]

/-- A store to the own data memory that has retired. -/
theorem InSlot.stores (hr : InSlot s t r) (a n v : Nat) :
    let u := ((r.putBytes a (bytesLE n v)).retire t (s.thread t).issued 4 1).s
    (∀ i, i < n → u.byte (a + i) = BitVec.ofNat 8 (v / 2 ^ (8 * i))) ∧ MemKeptBut s u a n ∧
      RegsKept s u [Reg.spForced, Reg.spEvstat] ∧ (∀ j, j ≠ t → SameRegs (s.thread j) (u.thread j)) ∧
      u.thread t = retired s (s.thread t) 4 1 := by
  obtain ⟨hbytes, hkept⟩ := putBytes_kept r a (bytesLE n v)
  rw [bytesLE_length] at hbytes hkept
  refine ⟨fun i hi => Option.some.inj ((hbytes i hi).trans (bytesLE_getElem hi)), fun b hb => (hkept b hb).trans (hr.byte b),
    fun b hb => ?_, fun j hj => ?_, ?_⟩
  · simp only [List.mem_cons, List.not_mem_nil, or_false, not_or] at hb
    exact (putBytes_rget ..).trans (hr.used.regs b hb.1 hb.2)
  · rw [Run.retire, setThread_ne _ hj, putBytes_thread]
    exact hr.used.others j hj
  · rw [Run.retire, setThread_same, putBytes_cyc, hr.cyc]
    rfl

theorem loadVal_signed (v : Word) : loadVal 0x14 (v.toNat % 2 ^ 8) = ((v.truncate 8).signExtend 64).toNat ∧
    loadVal 0x16 (v.toNat % 2 ^ 16) = ((v.truncate 16).signExtend 64).toNat ∧ loadVal 0x18 v.toNat = (v.signExtend 64).toNat :=
  ⟨u64_sInt (v.truncate 8), u64_sInt (v.truncate 16), u64_sInt v⟩

/-- Settles O12: an access by the check of its address and by its target. -/
theorem loadsAndStores : Obligations.LoadsAndStores := by
  refine ⟨fun v => ?_, fun s t w => ?_⟩
  · obtain ⟨h8, h16, h32⟩ := loadVal_signed v
    exact ⟨h8, h16, h32, rfl, rfl, rfl, rfl⟩
  intro x n a loaded
  refine ⟨fun h hal hecc hown => ?_, fun h hal hecc hsram => ?_, fun h hal hecc hown => ?_, fun h hal hlt hown => ?_,
    fun hbad hl => ⟨fun h => ?_, fun h => ?_⟩⟩
  · exact h.retires rfl (qExtOk_of_row h.row (by decide) _) fun r hr =>
      (isaLoad_ownDmem hr h.thread rfl hal hecc hown _).trans (hr.toG ..)
  · exact h.answers rfl (qExtOk_of_row h.row (by decide) _) fun r hr => by
      rw [isaLoad_sram hr rfl hal hecc hsram]
      exact hr.drawn_retires _ 4 24
  · exact h.answers rfl (qExtOk_of_row h.row (by decide) _) fun r hr => by
      rw [isaStore_ownDmem hr h.thread rfl hal hecc hown]
      exact hr.stores a n (x.gr (qRd w))
  · exact h.retires rfl (qExtOk_of_row h.row (by decide) _) fun r hr => isaStore_posts hr rfl hal hlt hown _
  · exact h.answers rfl (qExtOk_of_row h.row (by decide) _) fun r hr => by
      rw [isaLoad_faults hr rfl hbad, ← eaCode_code, ← Nat.mod_mod a]
      exact hr.isaFaults _ _ h.thread hl (h.pc_lt.trans (by decide))
  · exact h.answers rfl (qExtOk_of_row h.row (by decide) _) fun r hr => by
      rw [isaStore_faults hr rfl hbad, ← eaCode_code, ← Nat.mod_mod a]
      exact hr.isaFaults _ _ h.thread hl (h.pc_lt.trans (by decide))

/-! ## Posted stores -/

@[simp] theorem setThread_byte (r : Run s) (t : Nat) (y : Thread) (a : Nat) : (r.setThread t y).s.byte a = r.s.byte a := rfl
@[simp] theorem setThread_rget (r : Run s) (t : Nat) (y : Thread) (a : Nat) : (r.setThread t y).s.rget a = r.s.rget a := rfl

theorem regionOf_eq_sram {a : Nat} (h : regionOf a = .sram) : a < 0x2000000 := by
  by_contra hge
  rw [regionOf, if_neg hge] at h
  generalize findBlk a blocks = b at h
  repeat' split at h
  all_goals exact Region.noConfusion h

/-- No earlier store of its window is on the way: the store reaches its target (R114). -/
theorem postedGo_eq {i : Nat} {q : Posted} (hq : (r.s.thread t).posted[i]? = some q)
    (hfirst : ∀ p ∈ (r.s.thread t).posted.take i, windowOf p.addr ≠ windowOf q.addr) {r' : Run s} {st : Status}
    (hbus : r.busWrite (t / 32) q.addr q.data = (r', st)) : r.postedGo t i =
      some (r'.setThread t { r'.s.thread t with posted := (r'.s.thread t).posted.eraseIdx i }, st, q) := by
  have hany : ((r.s.thread t).posted.take i).any (fun p => windowOf p.addr == windowOf q.addr) = false :=
    List.any_eq_false.2 fun p hp => by simpa using hfirst p hp
  simp only [Run.postedGo, hq, hany, hbus, Bool.false_eq_true, if_false]

/-- A thread that waits for nothing is not woken. -/
theorem spWake_noWait (h : (r.s.thread t).wait = .none) : r.spWake t = r := by
  unfold Run.spWake
  simp only [h]

/-- STORE_ACK of a store to general SRAM. -/
theorem storeAck_sram {i : Nat} {q : Posted} (hq : (s.thread t).posted[i]? = some q)
    (hfirst : ∀ p ∈ (s.thread t).posted.take i, windowOf p.addr ≠ windowOf q.addr) (hwait : (s.thread t).wait = .none)
    (hc : SramClean s q.addr q.data.length) : Answers (.storeAck t i) s fun u =>
      u.thread t = { s.thread t with posted := (s.thread t).posted.eraseIdx i } ∧
        (∀ j, j < q.data.length → some (u.byte (q.addr + j)) = q.data[j]?) ∧ MemKeptBut s u q.addr q.data.length ∧
        RegsKept s u [] ∧ (∀ j, j ≠ t → u.thread j = s.thread j) := by
  have hgo := postedGo_eq (r := Run.start s) hq hfirst (SramClean.busWrite (port := t / 32) (Run.start s) hc)
  simp only [putBytes_thread, start_s] at hgo
  obtain ⟨hbytes, hkept⟩ := putBytes_kept (Run.start s) q.addr q.data
  have hex : exec (.storeAck t i) s = (((Run.start s).putBytes q.addr q.data).setThread t
      { s.thread t with posted := (s.thread t).posted.eraseIdx i }).done := by
    show execStoreAck t i s = _
    rw [execStoreAck, hgo]
    dsimp only
    rw [spWake_noWait (by rw [setThread_same]; exact hwait)]
  refine Run.answers _ hex ⟨setThread_same .., hbytes, hkept, fun b _ => putBytes_rget .., fun j hj => ?_⟩
  rw [setThread_ne _ hj, putBytes_thread, start_s]

/-- STORE_REFUSED of a store to an unmapped address. -/
theorem storeRefused_unmapped {i : Nat} {q : Posted} (hq : (s.thread t).posted[i]? = some q)
    (hfirst : ∀ p ∈ (s.thread t).posted.take i, windowOf p.addr ≠ windowOf q.addr) (hwait : (s.thread t).wait = .none)
    (hd : q.data ≠ []) (hun : regionOf q.addr = .unmapped) (horphan : q.orphan = false) (href : (s.thread t).refused = none) :
    Answers (.storeRefused t i) s fun u =>
      u.thread t = { s.thread t with posted := (s.thread t).posted.eraseIdx i, refused := some q.addr } ∧ MemKept s u ∧
        (u.rget Reg.meshAccLo).toNat = q.addr % 2 ^ 32 ∧ RegsKept s u [Reg.meshAccLo, Reg.meshAccHi, Reg.meshEvstat] ∧
        u.rb Reg.meshEvstat 0 = true := by
  have hregs := accErr_onlyRegs (Run.start s) (port := t / 32) (a := q.addr) true .fault
  obtain ⟨hlo, -, hflag⟩ := accErr_addr (Run.start s) (port := t / 32) (a := q.addr) true .fault
  have hthread : ((Run.start s).accErr (t / 32) q.addr true .fault).s.thread t = s.thread t := by rw [State.thread, hregs.sp]; rfl
  have hbus : (Run.start s).busWrite (t / 32) q.addr q.data = ((Run.start s).accErr (t / 32) q.addr true .fault, .fault) := by
    rw [Run.busWrite, hun]
    dsimp only
    rw [Run.memWrite, if_neg (by simpa using hd), memStatus_unmapped hun]
  have hgo := postedGo_eq (r := Run.start s) hq hfirst hbus
  rw [hthread] at hgo
  have hex : exec (.storeRefused t i) s = ((((Run.start s).accErr (t / 32) q.addr true .fault).setThread t
      { s.thread t with posted := (s.thread t).posted.eraseIdx i }).setThread t
      { s.thread t with posted := (s.thread t).posted.eraseIdx i, refused := some q.addr }).done := by
    show execStoreRefused t i s = _
    rw [execStoreRefused, hgo]
    simp only [reduceCtorEq, if_false, setThread_same, horphan, href, Bool.false_eq_true, Option.isSome_none, or_self]
    rw [spWake_noWait (by rw [setThread_same]; exact hwait)]
  refine Run.answers _ hex ⟨setThread_same .., fun b => ?_, ?_, fun b hb => ?_, ?_⟩
  · simpa using hregs.memKept b
  · simpa using hlo
  · simpa using hregs.regsKept b hb
  · simpa [State.rb] using hflag

/-- A thread whose store was refused faults at its next issue, whatever it would issue (R116). -/
theorem issue_refused {q : QRow} {a : Nat} (ht : t < 64) (hslot : s.mayIssue t = true) (href : (s.thread t).refused = some a)
    (act : Run s → Nat → Nat → Nat → Run s) : (Run.start s).issue t q act =
      ((Run.start s).useSlot t).threadFault t .buserr (s.thread t).pc a 0 true := by
  unfold Run.issue
  simp only [start_s, ht, hslot, decide_true, Bool.and_self, Bool.not_true, Bool.false_eq_true, if_false, href]

/-- Settles O13: the store reaches its target (`storeAck_sram`, `storeRefused_unmapped`), and a refused one is raised at the next
issue (`issue_refused`). -/
theorem postedStores : Obligations.PostedStores := by
  intro s t i q x hq hfirst hd hwait
  refine ⟨fun hsram hlast hecc => storeAck_sram hq hfirst hwait ⟨List.length_pos_iff.2 hd, ?_, hecc⟩,
    fun hun horphan href => storeRefused_unmapped hq hfirst hwait hd hun horphan href, fun a href ha hpc ht hslot hl => ?_⟩
  · have := regionOf_eq_sram hlast
    have := regionOf_eq_sram hsram
    omega
  · have hf := (inSlot_useSlot hslot).faults .buserr a true ht hl hpc (trapCode := 0) (by decide)
    rw [Nat.mod_eq_of_lt ha] at hf
    exact Run.answers (c := .nop t) _ (congrArg Run.done (issue_refused ht hslot href _)) hf

end Sys2Proof.Machine
end

section
/-!
PROOFS. Operations issued by OP, OPX and AT (O14).
-/
namespace Sys2Proof.Machine

variable {s : State} {t w : Nat} {r : Run s}

/-- The object of an operation: the low word of ro, or the extension word (R122). -/
def State.opObject (s : State) (t w ext : Nat) : Nat := if qMajor w = 0x32 then ext else (s.thread t).gr (qRo w) % 2 ^ 32

/-- The state in which an operation has been issued: its handle is PENDING, and it stands last in the list (R123). -/
structure OpIssued (s : State) (t w obj len : Nat) (time : Option Nat) (u : State) : Prop where
  frame : CoreFrame s u t
  locks : u.sp.locks = s.sp.locks
  thread : u.thread t = retired s ((s.thread t).setHandle (qKd w) (.pending s.sp.nextOp)) len 2
  nextOp : u.sp.nextOp = s.sp.nextOp + 1
  ops : u.sp.ops = s.sp.ops ++ [{ id := s.sp.nextOp, tid := t, k := qKd w, unit := qUnit w, obj := obj,
                                  rdesc := (s.thread t).gr (qRdesc w), time := time }]

variable (hr : InSlot s t r) (ext len : Nat) (time : Option Nat)
include hr

/-- A PENDING handle faults, and nothing is issued. -/
theorem opIssue_faults (h : ((s.thread t).handle (qKd w)).isPending = true) (ht : t < 64) (hl : NoLocks s t)
    (hpc : (s.thread t).pc < 2 ^ 19) : let u := (r.opIssue t w ext len time).s
      Faults s u t 6 0 (s.thread t).pc 0 false ∧ u.sp.nextOp = s.sp.nextOp := by
  rw [Run.opIssue, hr.thread, Thread.issued_handle, if_pos h]
  exact ⟨hr.isaFaults .handle 0 ht hl hpc,
    (threadFault_nextOp r .handle 0 false (by rw [NoLocks, hr.used.locks]; exact hl) _ _).trans hr.used.nextOp⟩

theorem opIssue_nosuch (h : ((s.thread t).handle (qKd w)).isPending = false) (hu : 15 ≤ qUnit w) :
    r.opIssue t w ext len time = r.retire t ((s.thread t).setHandle (qKd w)
      (.done { status := .nosuch, unit := qUnit w, stamp := s.now32, obj := s.opObject t w ext })).issued len 2 := by
  rw [Run.opIssue, hr.thread, Thread.issued_handle, h, if_neg Bool.false_ne_true, if_pos hu, hr.now32]
  rfl

theorem opIssue_issues (h : ((s.thread t).handle (qKd w)).isPending = false) (hu : qUnit w < 15) :
    OpIssued s t w (s.opObject t w ext) len time (r.opIssue t w ext len time).s := by
  obtain ⟨⟨hmem, hregs, hothers⟩, hops, hlocks, -⟩ := hr.frame
  rw [Run.opIssue, hr.thread, Thread.issued_handle, h, if_neg Bool.false_ne_true, if_neg (Nat.not_le.2 hu), hr.used.nextOp]
  refine ⟨⟨hmem, hregs, fun j hj => ?_⟩, hlocks, ?_, rfl, congrArg (· ++ _) hops⟩
  · rw [Run.retire, setThread_ne _ hj]
    exact hothers j hj
  · rw [Run.retire, setThread_same]
    exact congrArg (fun c => { retired s ((s.thread t).setHandle (qKd w) (.pending s.sp.nextOp)) len 2 with readyAt := c + 2 }) hr.cyc

/-- AT with an OP behind it issues that operation at the time in rs1 (R125). -/
theorem isaAt_op {e : Nat} (he : s.imem t ((s.thread t).pc + 4) = e) (hrow : qRow e = some .op) (hg : (s.thread t).guardOk e = true)
    (hpc : (s.thread t).pc + 8 ≤ 0x40000) (hecc : s.eccIn (imemAddr t ((s.thread t).pc + 4)) 4 = []) :
    r.isaAt t w ext = r.opIssue t e 0 8 (some ((s.thread t).gr (qRs1 w))) := by
  have hlen : qLen e = 4 := by
    rw [qLen, List.mem_singleton.1 (qRow_major hrow)]
    rfl
  have hop : qIsOp e = true := by simp [qIsOp, hrow]
  have hin : ¬0x40000 ≤ (s.thread t).pc + 4 := by omega
  have hfetch : r.fetchBad t ((s.thread t).pc + 4) = (r, false) := eccRead_clean r ((hr.eccIn _ _).trans hecc)
  simp only [Run.isaAt, hr.thread, Thread.issued_pc, Thread.issued_guardOk, hin, if_false, hfetch, hr.imem, he, hop, hlen, hg, hr.a1,
    Bool.not_true, Bool.false_eq_true, Nat.reduceEqDiff, false_and]

omit hr in
/-- Settles O14: an operation by its handle and its unit (`opIssue_issues`, `opIssue_nosuch`, `opIssue_faults`). -/
theorem operationIssue : Obligations.OperationIssue := by
  intro s t w x e issued
  have hop {wo : Nat} (h : qRow wo = some .op) (ext : Nat) : s.opObject t wo ext = x.gr (qRo wo) % 2 ^ 32 :=
    if_neg (by rw [List.mem_singleton.1 (qRow_major h)]; decide)
  have hissued {wo obj len : Nat} {time : Option Nat} {u : State} (h : OpIssued s t wo obj len time u) : issued wo obj len time u :=
    ⟨h.frame, h.locks, h.thread, h.nextOp, h.ops⟩
  refine ⟨fun hk hu => ⟨fun h => ?_, fun h => ?_⟩, fun h hrow hg hpc hecc hk hu => ?_, fun h hk hu => ?_,
    fun hk hl => ⟨fun h => ?_, fun h => ?_⟩⟩
  · exact h.answers rfl (qExtOk_of_row h.row (by decide) _) fun r hr => by
      rw [← hop h.row 0]
      exact hissued (opIssue_issues hr 0 4 none hk hu)
  · have h8 : qMajor w = 0x32 := List.mem_singleton.1 (qRow_major h.row)
    have hext : s.opObject t w (s.extWord t w) = e := (if_pos h8).trans (extWord_eq (qLen_eq_eight (by omega)))
    exact h.answers rfl (qExtOk_of_row h.row (by decide) _) fun r hr => by
      rw [← hext]
      exact hissued (opIssue_issues hr _ 8 none hk hu)
  · exact h.answers rfl (qExtOk_of_row h.row (by decide) _) fun r hr => by
      rw [isaAt_op hr _ rfl hrow hg hpc hecc, ← hop hrow 0]
      exact hissued (opIssue_issues hr 0 8 _ hk hu)
  · exact (h.retires rfl (qExtOk_of_row h.row (by decide) _) fun r hr => opIssue_nosuch hr 0 4 none hk hu).imp fun u hu =>
      ⟨hu.1, _, rfl, hu.2⟩
  all_goals exact h.answers rfl (qExtOk_of_row h.row (by decide) _) fun r hr =>
    opIssue_faults hr _ _ none hk h.thread hl (h.pc_lt.trans (by decide))

end Sys2Proof.Machine
end

section
/-!
PROOFS. Handles: summaries, release and cancel, waits and their timeout, and fences (O17).
-/
namespace Sys2Proof.Machine

/-! ## Masks of handles (R126, R127) -/

/-- The mask with the bits `k` below `n` for which `f k` holds. -/
def maskOf (f : Nat → Bool) (n : Nat) : Nat := ((List.range n).map fun k => b2n (f k) <<< k).sum

theorem maskOf_succ (f : Nat → Bool) (n : Nat) : maskOf f (n + 1) = 2 ^ n * b2n (f n) + maskOf f n := by
  simp [maskOf, List.range_succ, Nat.shiftLeft_eq]
  ring

theorem maskOf_lt (f : Nat → Bool) (n : Nat) : maskOf f n < 2 ^ n := by
  induction n with
  | zero => simp [maskOf]
  | succ n ih =>
    rw [maskOf_succ, pow_succ]
    cases f n <;> simp [b2n] <;> omega

theorem maskOf_bit (f : Nat → Bool) {n k : Nat} (h : k < n) : bit (maskOf f n) k = f k := by
  rw [bit_testBit]
  induction n with
  | zero => omega
  | succ n ih =>
    rw [maskOf_succ, Nat.testBit_two_pow_mul_add _ (maskOf_lt f n)]
    split
    next hk => exact ih hk
    next hk =>
      obtain rfl : k = n := by omega
      cases f k <;> simp [b2n]

/-- A mask has a bit in common with another number where both have it. -/
theorem maskOf_and_bit (f : Nat → Bool) {n k : Nat} (h : k < n) (m : Nat) :
    bit (maskOf f n &&& m % 2 ^ n) k = (bit m k && f k) := by
  rw [bit_testBit, Nat.testBit_and, ← bit_testBit, maskOf_bit f h, Nat.testBit_mod_two_pow, bit_testBit, Bool.and_comm]
  simp [h]

theorem maskOf_and_eq_zero (f : Nat → Bool) (n m : Nat) :
    maskOf f n &&& m % 2 ^ n = 0 ↔ ∀ k < n, bit m k = true → f k = false := by
  constructor
  · intro h k hk hm
    have hbit := maskOf_and_bit f hk m
    rw [h, hm, bit_testBit] at hbit
    simpa using hbit.symm
  · intro h
    refine Nat.eq_of_testBit_eq fun k => ?_
    rw [Nat.zero_testBit]
    by_cases hk : k < n
    · rw [← bit_testBit, maskOf_and_bit f hk]
      cases hm : bit m k
      · rfl
      · rw [h k hk hm]; rfl
    · rw [Nat.testBit_and, Nat.testBit_lt_two_pow ((maskOf_lt f n).trans_le (Nat.pow_le_pow_right (by decide) (Nat.not_lt.1 hk))), Bool.false_and]

namespace Thread

variable (x : Thread)

theorem doneMask_eq : x.doneMask = maskOf (fun k => (x.handle k).isDone) 16 := rfl
theorem pendMask_eq : x.pendMask = maskOf (fun k => (x.handle k).isPending) 16 := rfl

/-- The condition of a wait: no handle of the mask is PENDING, or for `wait.any` one of it is DONE (R127). -/
theorem waitMet_iff (all : Bool) (m : Nat) : x.waitMet all (m % 2 ^ 16) = true ↔
    (∀ k, k < 16 → bit m k = true → (x.handle k).isPending = false) ∨
      (all = false ∧ ∃ k, k < 16 ∧ bit m k = true ∧ (x.handle k).isDone = true) := by
  have hdone : (x.doneMask &&& m % 2 ^ 16) ≠ 0 ↔ ∃ k, k < 16 ∧ bit m k = true ∧ (x.handle k).isDone = true := by
    rw [doneMask_eq, Ne, maskOf_and_eq_zero]
    simp
  rw [Thread.waitMet, Bool.or_eq_true, Bool.and_eq_true, beq_iff_eq, bne_iff_ne, hdone, pendMask_eq, maskOf_and_eq_zero]
  simp

/-- What a wait returns in rd: the DONE handles of its mask. -/
theorem doneMask_and (m : Nat) : x.doneMask &&& m % 2 ^ 16 < 2 ^ 16 ∧
    ∀ k, k < 16 → bit (x.doneMask &&& m % 2 ^ 16) k = (bit m k && (x.handle k).isDone) :=
  ⟨Nat.and_lt_two_pow _ (Nat.mod_lt _ (by decide)), fun _ hk => maskOf_and_bit _ hk m⟩

/-- The value of HMASK: the DONE handles in its low half, the PENDING ones in its high half (R126). -/
theorem hmask_bits : x.pendMask <<< 16 + x.doneMask < 2 ^ 32 ∧ ∀ k, k < 16 →
    bit (x.pendMask <<< 16 + x.doneMask) k = (x.handle k).isDone ∧
      bit (x.pendMask <<< 16 + x.doneMask) (16 + k) = (x.handle k).isPending := by
  have hd : x.doneMask < 2 ^ 16 := maskOf_lt _ 16
  have hp : x.pendMask < 2 ^ 16 := maskOf_lt _ 16
  rw [Nat.shiftLeft_eq, Nat.mul_comm]
  refine ⟨by omega, fun k hk => ⟨?_, ?_⟩⟩
  · rw [bit_testBit, Nat.testBit_two_pow_mul_add _ hd, if_pos hk, ← bit_testBit, doneMask_eq, maskOf_bit _ hk]
  · rw [bit_testBit, Nat.testBit_two_pow_mul_add _ hd, if_neg (by omega), Nat.add_sub_cancel_left, ← bit_testBit, pendMask_eq,
      maskOf_bit _ hk]

/-! ## Registers of a thread -/

/-- A predicate that is written reads as written. -/
theorem setP_pr {i : Nat} (h0 : i ≠ 0) (h8 : i < 8) (b : Bool) : (x.setP i b).pr i = b := by
  rw [Thread.setP, if_neg h0, Thread.pr, BitVec.getLsbD_ofNat, ← bit_testBit, putBit_bit, if_pos rfl]
  simp [h0, h8]

@[simp] theorem setG_pr (i v k : Nat) : (x.setG i v).pr k = x.pr k := by
  unfold Thread.setG
  split <;> rfl

@[simp] theorem setG_pc (i v : Nat) : (x.setG i v).pc = x.pc := by
  unfold Thread.setG
  split <;> rfl

@[simp] theorem setP_pc (i : Nat) (b : Bool) : (x.setP i b).pc = x.pc := by
  unfold Thread.setP
  split <;> rfl

end Thread

variable {s : State} {t w : Nat} {r : Run s}

/-! ## Rows of the handles -/

theorem isaHstat_eq (hr : InSlot s t r) (e : Nat) : r.isaHstat t w e = r.retire t ((s.thread t).setG (qRd w)
    (match (s.thread t).handle (qK w) with
      | .free => 0 | .pending _ => 0x100 | .done c => c.stamp * 2 ^ 32 + 0x200 + c.status.code)).issued 4 1 := by
  rw [Run.isaHstat, hr.thread, Thread.issued_handle, hr.toG]
  cases (s.thread t).handle (qK w) with
  | free => rfl
  | pending _ => rfl
  | done c => simp only [Nat.shiftLeft_eq]

theorem isaHrel_free (hr : InSlot s t r) (h : ((s.thread t).handle (qK w)).isPending = false) (e : Nat) :
    r.isaHrel t w e = r.retire t ((s.thread t).setHandle (qK w) .free).issued 4 1 := by
  rw [Run.isaHrel, hr.thread, Thread.issued_handle, h, if_neg Bool.false_ne_true, Thread.setHandle_issued]

theorem isaHrel_pending (hr : InSlot s t r) (h : ((s.thread t).handle (qK w)).isPending = true) (e : Nat) :
    r.isaHrel t w e = r.isaFault t .handle 0 := by
  rw [Run.isaHrel, hr.thread, Thread.issued_handle, if_pos h]

theorem isaHcan_notPending (hr : InSlot s t r) (h : ((s.thread t).handle (qK w)).isPending = false) (e : Nat) :
    r.isaHcan t w e = r.retire t (s.thread t).issued 4 1 := by
  rw [Run.isaHcan, hr.thread, Thread.issued_handle]
  cases hk : (s.thread t).handle (qK w) with
  | free => dsimp only; rw [hr.thread]
  | pending _ => rw [hk] at h; cases h
  | done _ => dsimp only; rw [hr.thread]

theorem isaHcan_notStarted (hr : InSlot s t r) {o : Op} (h : (s.thread t).handle (qK w) = .pending o.id) (ho : s.op o.id = some o)
    (hout : o.out = none) (hact : o.acted = false) (htime : o.time = none) (e : Nat) :
    r.isaHcan t w e = (r.opAbort o).retire t (s.thread t).issued 4 1 := by
  have hcancel : r.opCancel o = r.opAbort o := by
    simp only [Run.opCancel, hout, hact, htime, Option.isSome_none, Bool.false_eq_true, if_false]
  simp only [Run.isaHcan, hr.thread, Thread.issued_handle, h, hr.op, ho, hcancel]
  rw [show (r.opAbort o).s.thread t = r.s.thread t from rfl, hr.thread]

/-- An operation that has ended with ABORTED, cause CANCEL, in state `s`. -/
def Op.aborted (s : State) (o : Op) : Op := { o with
  acted := true
  actedAt := s.now
  out := some { status := .aborted, cause := 1, uflags := 0, unit := o.unit, code := o.code, tag := o.tag,
                stamp := s.now32 % 2 ^ 32, obj := o.obj }
  results := [] }

theorem opAbort_eq (r : Run s) (o : Op) : r.opAbort o = (r.commitDrop [o.id]).opSet (o.aborted r.s) := rfl

/-- The end of an operation that HCAN cancels (R159). -/
theorem InSlot.opAborts (hr : InSlot s t r) {o : Op} (ho : s.op o.id = some o) :
    let u := ((r.opAbort o).retire t (s.thread t).issued 4 1).s
    CoreFrame s u t ∧ u.thread t = retired s (s.thread t) 4 1 ∧ OpsKept s u o.id ∧
      ∃ p c, u.op o.id = some p ∧ p.out = some c ∧ c.status = .aborted ∧ c.cause = 1 ∧ p.results = [] := by
  obtain ⟨⟨hmem, hregs, hothers⟩, -⟩ := hr.frame
  have hdrop : (r.commitDrop [o.id]).s.op (o.aborted r.s).id = some o := (hr.op o.id).trans ho
  rw [opAbort_eq]
  refine ⟨⟨hmem, hregs, fun j hj => ?_⟩, ?_, fun j hj => ?_, o.aborted r.s, _, op_opSet _ hdrop, rfl, rfl, rfl, rfl⟩
  · rw [Run.retire, setThread_ne _ hj]
    exact hothers j hj
  · rw [Run.retire, setThread_same]
    exact congrArg (fun c => { retired s (s.thread t) 4 1 with readyAt := c + 1 }) hr.cyc
  · exact (op_opSet_ne (r.commitDrop [o.id]) (o.aborted r.s) hj).trans (hr.op j)

theorem isaHmask_eq (hr : InSlot s t r) (e : Nat) : r.isaHmask t w e =
    r.retire t ((s.thread t).setG (qRd w) ((s.thread t).pendMask <<< 16 + (s.thread t).doneMask)).issued 4 1 := by
  rw [Run.isaHmask, hr.thread, hr.toG, Thread.issued_pendMask, Thread.issued_doneMask]

/-! ## Waits -/

/-- A wait that is met or that polls returns. -/
theorem isaWait_returns (hr : InSlot s t r) {all : Bool}
    (h : (s.thread t).waitMet all ((s.thread t).gr (qRs1 w) % 2 ^ 16) = true ∨ (s.thread t).gr (qRs2 w) = 0) (e : Nat) :
    r.isaWait all t w e = r.retire t (((s.thread t).setP (bits w 6 4)
      ((s.thread t).waitMet all ((s.thread t).gr (qRs1 w) % 2 ^ 16))).setG (qRd w)
        ((s.thread t).doneMask &&& (s.thread t).gr (qRs1 w) % 2 ^ 16)).issued 4 2 := by
  rw [Run.isaWait, hr.thread, hr.a1, hr.a2, Thread.issued_waitMet, if_pos h, Thread.setP_issued, Thread.setG_issued,
    Thread.issued_doneMask]

/-- The deadline of a wait that has a timeout of its own or none (R128). -/
def waitDeadline (now timeout : Nat) : Nat := if timeout = 2 ^ 64 - 1 then 2 ^ 64 else min (now + timeout) (2 ^ 64 - 1)

/-- Else the thread waits at its pc. -/
theorem isaWait_waits (hr : InSlot s t r) {all : Bool}
    (h : ¬((s.thread t).waitMet all ((s.thread t).gr (qRs1 w) % 2 ^ 16) = true ∨ (s.thread t).gr (qRs2 w) = 0)) (e : Nat) :
    r.isaWait all t w e = r.setThread t { (s.thread t).issued with
      wait := .wait all ((s.thread t).gr (qRs1 w) % 2 ^ 16) (waitDeadline s.now ((s.thread t).gr (qRs2 w))) (bits w 6 4) (qRd w)
      readyAt := s.cyc + 2 } := by
  rw [Run.isaWait, hr.thread, hr.a1, hr.a2, Thread.issued_waitMet, if_neg h, hr.now, hr.cyc, waitDeadline]

theorem IsaFrame.start (s : State) (t : Nat) : IsaFrame s (Run.start s).s t :=
  ⟨⟨fun _ => rfl, fun _ _ _ => rfl, fun j _ => SameRegs.rfl' (s.thread j)⟩, rfl, rfl, rfl⟩

/-- WAIT_TIMEOUT returns a wait whose deadline has passed. -/
theorem waitTimeout_returns {all : Bool} {mk d pd rd : Nat} (hw : (s.thread t).wait = .wait all mk d pd rd) (hd : d < s.now) :
    Answers (.waitTimeout t) s fun u => IsaFrame s u t ∧
      u.thread t = (s.thread t).waitReturn s.cyc mk pd rd ((s.thread t).waitMet all mk) := by
  have hex : exec (.waitTimeout t) s =
      ((Run.start s).setThread t ((s.thread t).waitReturn s.cyc mk pd rd ((s.thread t).waitMet all mk))).done := by
    show execWaitTimeout t s = _
    simp only [execWaitTimeout, hw, hd, if_true]
  exact Run.answers _ hex ⟨(IsaFrame.start s t).setThread _, setThread_same ..⟩

/-! ## Fences -/

theorem fenceMet_iff (s : State) (t : Nat) (stores : Bool) :
    s.fenceMet t stores = true ↔ (s.thread t).outstanding = [] ∧ (stores = true ∨ s.opsOf t = []) := by
  simp [State.fenceMet]

theorem InSlot.fenceMet (hr : InSlot s t r) (stores : Bool) : r.s.fenceMet t stores = s.fenceMet t stores := by
  rw [State.fenceMet, hr.thread, hr.opsOf, Thread.issued_outstanding, State.fenceMet]

/-- A fence passes once it is met, and waits at its pc otherwise (R129). -/
theorem fence_answers {c : Instr} {q : QRow} {stores : Bool} (h : Issues s t w q)
    (hc : exec c s = ((Run.start s).issue t q (Run.isaFence stores)).done) (hq : 0x33 ∉ q.majors) :
    if s.fenceMet t stores = true then Answers c s fun u => IsaFrame s u t ∧ u.thread t = retired s (s.thread t) 4 2
    else Answers c s fun u => IsaFrame s u t ∧ (u.thread t).wait = .fence stores ∧ (u.thread t).pc = (s.thread t).pc := by
  split
  next hmet =>
    exact h.retires hc (qExtOk_of_row h.row hq _) fun r hr => by
      rw [Run.isaFence, hr.fenceMet, if_pos hmet, hr.thread]
  next hmet =>
    exact h.answers hc (qExtOk_of_row h.row hq _) fun r hr => by
      rw [Run.isaFence, hr.fenceMet, if_neg hmet, hr.thread]
      refine (hr.sets _).imp_right fun hset => ?_
      rw [hset]
      exact ⟨rfl, rfl⟩

/-- Settles O17: each row of the handles by its case, a wait and a fence by whether they are met. -/
theorem handleInstructions : Obligations.HandleInstructions := by
  intro s t w x h m pend dn met returned
  have hmet (all : Bool) : x.waitMet all (m % 2 ^ 16) = true ↔ met all := x.waitMet_iff all m
  have hwait {all : Bool} {q : QRow} {c : Instr} (hi : Issues s t w q)
      (hc : exec c s = ((Run.start s).issue t q (Run.isaWait all)).done) (hq : 0x33 ∉ q.majors) :
      ((met all ∨ x.gr (qRs2 w) = 0) → Answers c s fun u => IsaFrame s u t ∧ ∃ (ok : Bool) (z : Thread), (ok = true ↔ met all) ∧
        returned x (bits w 6 4) (qRd w) ok z ∧ u.thread t = retired s z 4 2) ∧
      (¬ met all → x.gr (qRs2 w) ≠ 0 → Answers c s fun u => IsaFrame s u t ∧ (u.thread t).pc = x.pc ∧ (u.thread t).g = x.g ∧
        (u.thread t).wait = .wait all (m % 2 ^ 16) (waitDeadline s.now (x.gr (qRs2 w))) (bits w 6 4) (qRd w)) := by
    refine ⟨fun hret => ?_, fun hno hto => ?_⟩
    · rw [← hmet] at hret
      exact (hi.retires hc (qExtOk_of_row hi.row hq _) fun r hr => isaWait_returns hr hret _).imp fun u hu =>
        ⟨hu.1, _, _, hmet all, ⟨_, (x.doneMask_and m).1, (x.doneMask_and m).2, rfl⟩, hu.2⟩
    · rw [← hmet] at hno
      exact hi.answers hc (qExtOk_of_row hi.row hq _) fun r hr => by
        rw [isaWait_waits hr (not_or.2 ⟨hno, hto⟩)]
        refine (hr.sets _).imp_right fun hset => ?_
        rw [hset]
        exact ⟨rfl, rfl, rfl⟩
  refine ⟨fun hi => ?_, fun hi hk => ?_, fun hi hk hl => ?_, fun hi hk => ?_, fun o hi hk ho hout hact htime => ?_, fun hi => ?_, ?_, ?_,
    fun hi => ?_, fun hi => ?_⟩
  · exact hi.retires rfl (qExtOk_of_row hi.row (by decide) _) fun r hr => isaHstat_eq hr _
  · exact hi.retires rfl (qExtOk_of_row hi.row (by decide) _) fun r hr => isaHrel_free hr hk _
  · exact hi.answers rfl (qExtOk_of_row hi.row (by decide) _) fun r hr => by
      rw [isaHrel_pending hr hk]
      exact hr.isaFaults .handle 0 hi.thread hl (hi.pc_lt.trans (by decide))
  · exact hi.retires rfl (qExtOk_of_row hi.row (by decide) _) fun r hr => isaHcan_notPending hr hk _
  · exact hi.answers rfl (qExtOk_of_row hi.row (by decide) _) fun r hr => by
      rw [isaHcan_notStarted hr hk ho hout hact htime]
      exact hr.opAborts ho
  · exact (hi.retires rfl (qExtOk_of_row hi.row (by decide) _) fun r hr => isaHmask_eq hr _).imp fun u hu =>
      ⟨hu.1, _, x.hmask_bits.1, x.hmask_bits.2, hu.2⟩
  · rintro (_ | _) c rfl hi
    · exact hwait hi rfl (by decide)
    · exact hwait hi rfl (by decide)
  · intro all mk d pd rd hw hd
    refine (waitTimeout_returns hw hd).imp fun u hu => ?_
    obtain ⟨hframe, hthread⟩ := hu
    rw [hthread]
    refine ⟨rfl, by simp [Thread.waitReturn, x], hframe, fun h0 h8 => ?_⟩
    exact (Thread.setG_pr _ _ _ _).trans (Thread.setP_pr _ h0 h8 _)
  · have hf := fence_answers (c := .fence t) (stores := false) hi rfl (by decide)
    simpa [fenceMet_iff] using hf
  · have hf := fence_answers (c := .fenceM t) (stores := true) hi rfl (by decide)
    simpa [fenceMet_iff] using hf

end Sys2Proof.Machine
end

section
/-!
PROOFS. Hardware locks: LOCK, TRYLOCK and UNLOCK (O18).
-/
namespace Sys2Proof.Machine

variable {s : State} {t w : Nat} {r : Run s}

/-! ## A lock in the table -/

@[simp] theorem setLock_same (r : Run s) (n : Nat) (l : HwLock) : (r.setLock n l).s.hwlock n = l := tget_tset_same _ _ _ _

theorem setLock_ne (r : Run s) {n k : Nat} (h : k ≠ n) (l : HwLock) : (r.setLock n l).s.hwlock k = r.s.hwlock k :=
  tget_tset_ne _ _ h _ _

@[simp] theorem setLock_thread (r : Run s) (n : Nat) (l : HwLock) (j : Nat) : (r.setLock n l).s.thread j = r.s.thread j := rfl

theorem setLock_toG (r : Run s) (n : Nat) (l : HwLock) (t w v k c : Nat) :
    ((r.setLock n l).toG t w v k c).s = ((r.toG t w v k c).setLock n l).s := rfl

/-- Only lock `n` has changed, to `l`. -/
def OnlyLock (s u : State) (n : Nat) (l : HwLock) : Prop := u.hwlock n = l ∧ ∀ k, k ≠ n → u.hwlock k = s.hwlock k

theorem setLock_onlyLock (hk : ∀ k, r.s.hwlock k = s.hwlock k) (n : Nat) (l : HwLock) : OnlyLock s (r.setLock n l).s n l :=
  ⟨setLock_same .., fun k hne => (setLock_ne r hne l).trans (hk k)⟩

theorem OnlyLock.setThread {n : Nat} {l : HwLock} (h : OnlyLock s r.s n l) (j : Nat) (y : Thread) :
    OnlyLock s (r.setThread j y).s n l := h

/-! ## Locks released (R131) -/

theorem lockRelease_free {n : Nat} (h : (r.s.hwlock n).waiters = []) (broken : Bool) :
    r.lockRelease n broken = r.setLock n { broken := broken } := by
  simp only [Run.lockRelease, h]

/-- Thread `j` goes on with a lock that it has waited for. -/
def Thread.granted (x : Thread) (rd cyc : Nat) (broken : Bool) : Thread :=
  { x.setG rd (if broken then Status.broken.code else Status.ok.code) with
    wait := .none, pc := (x.setG rd (if broken then Status.broken.code else Status.ok.code)).pc + 4
    readyAt := max (x.setG rd (if broken then Status.broken.code else Status.ok.code)).readyAt (cyc + 1) }

theorem lockRelease_next {n j m rd : Nat} {rest : List Nat} (h : (r.s.hwlock n).waiters = j :: rest)
    (hw : (r.s.thread j).wait = .lock m rd) (broken : Bool) : r.lockRelease n broken =
      (r.setLock n { owner := some j, waiters := rest }).setThread j ((r.s.thread j).granted rd r.s.cyc broken) := by
  simp only [Run.lockRelease, h, setLock_thread, hw]
  rfl

/-! ## Results of the rows -/

/-- The instruction returns a status in rd; operations and what a computing instruction leaves stay. -/
def GaveStatus (s : State) (t w : Nat) (st : Status) (u : State) : Prop :=
  CoreFrame s u t ∧ u.sp.ops = s.sp.ops ∧ u.thread t = retired s ((s.thread t).setG (qRd w) st.code) 4 2

variable (hr : InSlot s t r)
include hr

theorem InSlot.lockNo : r.s.lockNo t w = s.lockNo t w := by rw [State.lockNo, hr.a1, State.lockNo, State.a1]

/-- A status is returned and no lock changes. -/
theorem InSlot.gives (st : Status) : GaveStatus s t w st (r.toG t w st.code 4 2).s ∧
    ∀ k, (r.toG t w st.code 4 2).s.hwlock k = s.hwlock k := by
  rw [hr.toG]
  obtain ⟨⟨hcore, hops, hlocks, -⟩, hthread⟩ := hr.retires ((s.thread t).setG (qRd w) st.code) 4 2
  exact ⟨⟨hcore, hops, hthread⟩, fun k => by rw [State.hwlock, hlocks, State.hwlock]⟩

/-- A status is returned and one lock changes. -/
theorem InSlot.givesLock (st : Status) (n : Nat) (l : HwLock) :
    GaveStatus s t w st ((r.toG t w st.code 4 2).setLock n l).s ∧ OnlyLock s ((r.toG t w st.code 4 2).setLock n l).s n l := by
  obtain ⟨hgave, hkept⟩ := hr.gives (w := w) st
  exact ⟨hgave, setLock_onlyLock hkept n l⟩

theorem isaLock_nosuch (h : 256 ≤ s.lockNo t w) (wait : Bool) (e : Nat) :
    r.isaLock wait t w e = r.toG t w Status.nosuch.code 4 2 := by
  rw [Run.isaLock, hr.lockNo, if_pos h]

/-- A free lock is taken; the status says whether it was broken (R130). -/
theorem isaLock_free (h : s.lockNo t w < 256) (ho : (s.hwlock (s.lockNo t w)).owner = none) (wait : Bool) (e : Nat) :
    let l := s.hwlock (s.lockNo t w)
    let u := (r.isaLock wait t w e).s
    GaveStatus s t w (if l.broken then .broken else .ok) u ∧
      OnlyLock s u (s.lockNo t w) { owner := some t, waiters := l.waiters } := by
  have hcode : (if (s.hwlock (s.lockNo t w)).broken then Status.broken.code else Status.ok.code) =
      (if (s.hwlock (s.lockNo t w)).broken then Status.broken else .ok).code := by split <;> rfl
  simp only [Run.isaLock, hr.lockNo, Nat.not_le.2 h, if_false, hr.hwlock, ho]
  rw [hcode, setLock_toG]
  exact hr.givesLock _ _ _

theorem isaLock_own (h : s.lockNo t w < 256) (ho : (s.hwlock (s.lockNo t w)).owner = some t) (wait : Bool) (e : Nat) :
    r.isaLock wait t w e = r.toG t w Status.refused.code 4 2 := by
  simp only [Run.isaLock, hr.lockNo, Nat.not_le.2 h, if_false, hr.hwlock, ho, if_true]

theorem isaLock_busy {o : Nat} (h : s.lockNo t w < 256) (ho : (s.hwlock (s.lockNo t w)).owner = some o) (hne : o ≠ t) (e : Nat) :
    r.isaLock false t w e = r.toG t w Status.busy.code 4 2 := by
  simp only [Run.isaLock, hr.lockNo, Nat.not_le.2 h, if_false, hr.hwlock, ho, hne, Bool.not_false, if_true]

/-- LOCK of a lock of another thread joins its queue (R131). -/
theorem isaLock_waits {o : Nat} (h : s.lockNo t w < 256) (ho : (s.hwlock (s.lockNo t w)).owner = some o) (hne : o ≠ t) (e : Nat) :
    let l := s.hwlock (s.lockNo t w)
    r.isaLock true t w e = (r.setLock (s.lockNo t w) { l with waiters := l.waiters ++ [t] }).setThread t
      { (s.thread t).issued with wait := .lock (s.lockNo t w) (qRd w), readyAt := s.cyc + 2 } := by
  simp only [Run.isaLock, hr.lockNo, Nat.not_le.2 h, if_false, hr.hwlock, ho, hne, Bool.not_true, Bool.false_eq_true, hr.thread, hr.cyc]

theorem isaUnlock_nosuch (h : 256 ≤ s.lockNo t w) (e : Nat) : r.isaUnlock t w e = r.toG t w Status.nosuch.code 4 2 := by
  rw [Run.isaUnlock, hr.lockNo, if_pos h]

theorem isaUnlock_denied (h : s.lockNo t w < 256) (ho : (s.hwlock (s.lockNo t w)).owner ≠ some t) (e : Nat) :
    r.isaUnlock t w e = r.toG t w Status.denied.code 4 2 := by
  rw [Run.isaUnlock, hr.lockNo, if_neg (Nat.not_le.2 h), hr.hwlock, if_neg ho]

theorem isaUnlock_own (h : s.lockNo t w < 256) (ho : (s.hwlock (s.lockNo t w)).owner = some t) (e : Nat) :
    r.isaUnlock t w e = (r.toG t w Status.ok.code 4 2).lockRelease (s.lockNo t w) false := by
  rw [Run.isaUnlock, hr.lockNo, if_neg (Nat.not_le.2 h), hr.hwlock, if_pos ho]

/-- UNLOCK of a lock for which nobody waits frees it. -/
theorem isaUnlock_frees (h : s.lockNo t w < 256) (ho : (s.hwlock (s.lockNo t w)).owner = some t)
    (hw : (s.hwlock (s.lockNo t w)).waiters = []) (e : Nat) :
    r.isaUnlock t w e = (r.toG t w Status.ok.code 4 2).setLock (s.lockNo t w) {} := by
  rw [isaUnlock_own hr h ho, lockRelease_free ((congrArg HwLock.waiters ((hr.gives .ok).2 _)).trans hw)]

/-- LOCK of a lock of another thread: the thread waits at its pc. -/
theorem InSlot.waitsForLock (n rd : Nat) (l : HwLock) :
    let u := ((r.setLock n l).setThread t { (s.thread t).issued with wait := .lock n rd, readyAt := s.cyc + 2 }).s
    CoreFrame s u t ∧ OnlyLock s u n l ∧ (u.thread t).wait = .lock n rd ∧ (u.thread t).pc = (s.thread t).pc ∧
      (u.thread t).g = (s.thread t).g := by
  obtain ⟨⟨hmem, hregs, hothers⟩, -⟩ := hr.frame
  refine ⟨⟨hmem, hregs, fun j hj => ?_⟩, ?_, ?_⟩
  · rw [setThread_ne _ hj]
    exact hothers j hj
  · exact setLock_onlyLock hr.hwlock n l
  · rw [setThread_same]
    exact ⟨rfl, rfl, rfl⟩

/-- UNLOCK hands the lock to its first waiter, which goes on (R131). -/
theorem InSlot.handsLock {n j rd : Nat} {rest : List Nat} (hw : (s.hwlock n).waiters = j :: rest) (hj : j ≠ t)
    (hlock : (s.thread j).wait = .lock n rd) :
    let u := ((r.toG t w Status.ok.code 4 2).lockRelease n false).s
    u.thread t = retired s ((s.thread t).setG (qRd w) Status.ok.code) 4 2 ∧ OnlyLock s u n { owner := some j, waiters := rest } ∧
      (u.thread j).wait = .none ∧ (u.thread j).g = ((s.thread j).setG rd Status.ok.code).g ∧
      (u.thread j).pc = (s.thread j).pc + 4 ∧ MemKept s u := by
  obtain ⟨⟨⟨hmem, -, -⟩, -, hthread⟩, hkept⟩ := hr.gives (w := w) .ok
  have hwaiter : (r.toG t w Status.ok.code 4 2).s.thread j = s.thread j := by
    rw [Run.toG, Run.retire, setThread_ne _ hj]
    exact hr.used.waits j hj (by simp [hlock])
  rw [lockRelease_next ((congrArg HwLock.waiters (hkept n)).trans hw) (hwaiter ▸ hlock)]
  refine ⟨?_, (setLock_onlyLock hkept n _).setThread _ _, ?_⟩
  · rw [setThread_ne _ hj.symm]
    exact hthread
  · rw [setThread_same, hwaiter]
    exact ⟨rfl, rfl, congrArg (· + 4) (Thread.setG_pc ..), hmem⟩

omit hr in
/-- Settles O18: each row by the number and the owner of the lock. -/
theorem lockInstructions : Obligations.LockInstructions := by
  intro s t w x n l gave kept only row
  have hlock {P : State → Prop} (hP : ∀ r, InSlot s t r → P (r.isaLock true t w (s.extWord t w)).s) : row (.lock t) .lock P :=
    fun h => h.answers rfl (qExtOk_of_row h.row (by decide) _) hP
  have htry {P : State → Prop} (hP : ∀ r, InSlot s t r → P (r.isaLock false t w (s.extWord t w)).s) : row (.trylock t) .trylock P :=
    fun h => h.answers rfl (qExtOk_of_row h.row (by decide) _) hP
  have hunlock {P : State → Prop} (hP : ∀ r, InSlot s t r → P (r.isaUnlock t w (s.extWord t w)).s) : row (.unlock t) .unlock P :=
    fun h => h.answers rfl (qExtOk_of_row h.row (by decide) _) hP
  refine ⟨fun hn => ⟨hlock fun r hr => ?_, htry fun r hr => ?_, hunlock fun r hr => ?_⟩,
    fun hn ho => ⟨hlock fun r hr => isaLock_free hr hn ho _ _, htry fun r hr => isaLock_free hr hn ho _ _, hunlock fun r hr => ?_⟩,
    fun hn ho => ⟨hlock fun r hr => ?_, htry fun r hr => ?_, fun hw => hunlock fun r hr => ?_,
      fun j rest rd hw hj hwait => hunlock fun r hr => ?_⟩,
    fun o hn ho hne => ⟨hlock fun r hr => ?_, htry fun r hr => ?_, hunlock fun r hr => ?_⟩⟩
  · rw [isaLock_nosuch hr hn]; exact hr.gives .nosuch
  · rw [isaLock_nosuch hr hn]; exact hr.gives .nosuch
  · rw [isaUnlock_nosuch hr hn]; exact hr.gives .nosuch
  · rw [isaUnlock_denied hr hn (fun he => by cases ho.symm.trans he)]; exact hr.gives .denied
  · rw [isaLock_own hr hn ho]; exact hr.gives .refused
  · rw [isaLock_own hr hn ho]; exact hr.gives .refused
  · rw [isaUnlock_frees hr hn ho hw]
    exact hr.givesLock .ok n {}
  · rw [isaUnlock_own hr hn ho]
    exact hr.handsLock hw hj hwait
  · rw [isaLock_waits hr hn ho hne]
    exact hr.waitsForLock n (qRd w) _
  · rw [isaLock_busy hr hn ho hne]; exact hr.gives .busy
  · rw [isaUnlock_denied hr hn (fun he => hne (Option.some.inj (ho.symm.trans he)))]; exact hr.gives .denied

end Sys2Proof.Machine
end

section
/-!
PROOFS. The start of a thread (O19).
-/
namespace Sys2Proof.Machine

variable {s : State} {t : Nat}

/-- A thread that starts has p0 at 1 in its predicate register, and no other predicate (R87, R90). -/
theorem threadStart_p (r : Run s) (t : Nat) : ((r.threadStart t).s.thread t).p = 1 := by
  rw [Run.threadStart, Run.threadBit, State.thread, (wb_onlyRegs _ _ _ _).sp, ← State.thread, setThread_same]

/-- THREAD_START of a thread that is not RUNNING starts it (R141). -/
theorem exec_threadStart (h : s.sp.restart = none) (hx : (s.thread t).state ≠ .running) :
    exec (.threadStart t) s = ((Run.start s).threadStartNew t).done := by
  have h0 : bit 1 0 = true := by decide
  have h1 : bit 1 1 = false := by decide
  show ((Run.start s).writeSpCtrl t 1).done = _
  simp only [Run.writeSpCtrl, start_s, h, h0, h1, hx, Option.isSome_none, Bool.false_eq_true, if_false, Bool.false_and, if_true]

/-- Refutes O19: thread 0 of the reset state, started, has 1 as its predicate register (p0 reads 1), where the first clause asks
for 0. -/
theorem not_threadControl : ¬ Obligations.ThreadControl := by
  intro h
  obtain ⟨hstart, -⟩ := h State.reset 0 0 (by decide)
  obtain ⟨u, hu, ⟨-, -, -, hp, -⟩, -⟩ := hstart rfl (by decide)
  have hnext : u = ((Run.start State.reset).threadStartNew 0).s :=
    Host.Outcome.next.inj (hu.symm.trans (exec_threadStart rfl (by decide)))
  rw [hnext, Run.threadStartNew, threadStart_p] at hp
  exact absurd hp (by decide)

end Sys2Proof.Machine
end

section
/-!
PROOFS. The signal instructions: reads and writes of the signal store with nothing waiting in it (O23).
-/
namespace Sys2Proof.Machine

variable {s₀ : State} {r : Run s₀} {i : Nat}

/-! ## A request that nothing goes before (R211) -/

/-- No update waits in the store. -/
def NoneWaits (s : State) : Prop := s.sig.stage = [] ∧ s.sig.queue = [] ∧ s.sig.held = []

theorem NoneWaits.bankAhead {s : State} (h : NoneWaits s) (b : Nat) : s.bankAhead b = 0 := by
  obtain ⟨hstage, hqueue, hheld⟩ := h
  simp [State.bankAhead, hstage, hqueue, hheld]

theorem NoneWaits.bankWait {s : State} (h : NoneWaits s) (i : Nat) : s.bankWait i = 0 := by
  rw [State.bankWait, h.bankAhead]

theorem bankFlush_noneWaits (h : NoneWaits r.s) (i : Nat) : r.bankFlush i = r := by
  rw [Run.bankFlush, h.bankAhead, List.range_zero, each_nil]

/-- A record without errors is met without an effect (R219). -/
theorem sigEcc_clean (h : RecClean r.s i) : r.sigEcc i = r := by
  have hnone : r.s.ecc.filter (fun e => decide (r.s.recWord i ≤ e.1 ∧ e.1 < r.s.recWord i + 6)) = [] :=
    List.filter_eq_nil_iff.2 fun e he => by
      have := h e he
      simp only [decide_eq_true_eq]
      omega
  unfold Run.sigEcc
  split
  · rfl
  · simp only [hnone, List.filter_nil, each_nil, List.map_nil, List.isEmpty_nil, if_true]

theorem sigMeet_clean (h : NoneWaits r.s) (hc : RecClean r.s i) : r.sigMeet i = r := by
  rw [Run.sigMeet, bankFlush_noneWaits h, sigEcc_clean hc]

/-! ## An update that serves nobody (R204, R206, R209) -/

theorem notify_none (r : Run s₀) (u : SigUpd) (lateIns : Bool) : (r.notify 0 u lateIns).s = r.s := by
  have hns : (List.range 16).filter (fun n => bit 0 n) = [] := by decide
  simp only [Run.notify, hns, List.map_nil, List.append_nil]
  rfl

theorem serveWatches_none (h : ∀ w ∈ r.s.sig.watches, w.idx ≠ i) (type : Nat) (prev : Option Entry) (new : Entry) :
    (r.serveWatches i type prev new).s = r.s := by
  have hmet : r.s.sig.watches.filter (fun w => w.idx == i && watchMet w.cond w.thr type (prev.map (·.val)) new.val) = [] :=
    List.filter_eq_nil_iff.2 fun w hw => by simp [h w hw]
  simp only [Run.serveWatches, hmet, each_nil, List.contains_nil, Bool.not_false, List.filter_true]
  rfl

/-- Whichever notice is due, a session mask of 0 stages none. -/
theorem noticeStage_serves_none {g : Sig} {u : SigUpd} (hm : g.captMask = 0) (hroute : g.routeEn = false)
    (hw : ∀ w ∈ r.s.sig.watches, w.idx ≠ u.idx) (h' : List Entry) (pos : Nat) : (r.noticeStage g h' pos u).s = r.s := by
  have hserve {q : Run s₀} (hq : q.s = r.s) (type : Nat) (prev : Option Entry) (new : Entry) :
      (if pos = 0 then q.serveWatches u.idx type prev new else q).s = r.s := by
    split
    · rw [serveWatches_none (hq ▸ hw), hq]
    · exact hq
  rw [Run.noticeStage, hm, hroute]
  simp only [Bool.false_and, Bool.false_eq_true, if_false]
  refine hserve ?_ _ _ _
  split
  · exact notify_none ..
  split
  · exact notify_none ..
  split
  · split
    · exact notify_none ..
    · rfl
  · rfl

/-- The record of an update's signal after it (R197). -/
def State.recAfter (s : State) (u : SigUpd) : Sig :=
  let g := s.sigRec u.idx
  { g with hist := placeIn g.hist u.stamp u.val (placeOf s.now32 g.hist u.stamp) }

theorem Placed.pos_of_ne_late {p : Placed} (h : p ≠ .late) : ∃ k, p.pos = some k := by
  cases p with
  | late => exact absurd rfl h
  | replaced k => exact ⟨k, rfl⟩
  | inserted k => exact ⟨k, rfl⟩

/-- An update that is not refused and has a place goes into the history (R197). -/
theorem sigUpdate_placed {u : SigUpd} (hnone : (r.sigEcc u.idx).s.updRefusal u = none) {k : Nat}
    (hk : (placeOf (r.sigEcc u.idx).s.now32 ((r.sigEcc u.idx).s.sigRec u.idx).hist u.stamp).pos = some k) : r.sigUpdate u =
      (((r.sigEcc u.idx).setSig u.idx ((r.sigEcc u.idx).s.recAfter u)).noticeStage ((r.sigEcc u.idx).s.sigRec u.idx)
        ((r.sigEcc u.idx).s.recAfter u).hist k u, .ok) := by
  fun_cases Run.sigUpdate r u
  case case1 q hx => cases hnone.symm.trans hx
  case case2 q hx => cases hnone.symm.trans hx
  case case3 q st _ _ hx => cases hnone.symm.trans hx
  case case4 q hx g p hp _ => cases hk.symm.trans hp
  case case5 q hx g p l hp h' =>
    obtain rfl : l = k := Option.some.inj (hp.symm.trans hk)
    rfl

/-- An update that is accepted and serves nobody changes the history of its signal alone (R197). -/
theorem sigWrite_accepted {u : SigUpd} (hquiet : NoneWaits r.s) (hc : RecClean r.s u.idx) (ha : Accepts r.s u)
    (hp : placeOf r.s.now32 (r.s.sigRec u.idx).hist u.stamp ≠ .late) : ∃ q : Run s₀, r.sigWrite u = (q, .ok) ∧
      q.s = (r.setSig u.idx (r.s.recAfter u)).s := by
  obtain ⟨hnone, hmask, hroute, hwatch⟩ := ha
  obtain ⟨k, hk⟩ := Placed.pos_of_ne_late hp
  have hecc := sigEcc_clean hc
  rw [Run.sigWrite, bankFlush_noneWaits hquiet, sigUpdate_placed (k := k) (by rw [hecc]; exact hnone) (by rw [hecc]; exact hk), hecc]
  exact ⟨_, rfl, noticeStage_serves_none (r := r.setSig u.idx (r.s.recAfter u)) hmask hroute hwatch _ k⟩

/-- An update of an undefined signal is counted and refused (R194). -/
theorem sigWrite_undefined {u : SigUpd} (hquiet : NoneWaits r.s) (hc : RecClean r.s u.idx)
    (hd : (r.s.sigRec u.idx).defined = false) :
    r.sigWrite u = ((r.count Reg.sigUndef 31 0).flag Reg.sigEvstat 2, .nosuch) := by
  have hnone : r.s.updRefusal u = some .nosuch := by simp [State.updRefusal, hd]
  rw [Run.sigWrite, bankFlush_noneWaits hquiet, Run.sigUpdate, sigEcc_clean hc]
  simp only [hnone]

theorem setSig_same (r : Run s₀) (i : Nat) (g : Sig) : (r.setSig i g).s.sigRec i = g := tget_tset_same _ _ _ _

theorem setSig_ne (r : Run s₀) {i j : Nat} (h : j ≠ i) (g : Sig) : (r.setSig i g).s.sigRec j = r.s.sigRec j :=
  tget_tset_ne _ _ h _ _

/-! ## The rows in their slot -/

variable {s : State} {t w : Nat} {r : Run s}

/-- The thread that a signal instruction leaves (R118). -/
def sigResult (s : State) (t w : Nat) (st : Status) (v : Nat) : Thread :=
  retired s (((s.thread t).setP (bits w 6 4) (st == .ok)).setG (qRd w) (if st = .ok then v else st.code)) (qLen w) 12

/-- The signal index of the instruction. -/
def sigIdx (s : State) (t w : Nat) : Nat :=
  if qMajor w = 0x33 then s.imem t ((s.thread t).pc + 4) % 2 ^ 18 else (s.thread t).gr (qRs1 w)

theorem InSlot.noneWaits (hr : InSlot s t r) (h : NoneWaits s) : NoneWaits r.s := by
  rw [NoneWaits, hr.sig]
  exact h

theorem InSlot.recClean (hr : InSlot s t r) (h : RecClean s i) : RecClean r.s i :=
  (hr.sees (RecClean · i) fun _ _ => rfl).mpr h

theorem InSlot.sigIndex (hr : InSlot s t r) : r.s.sigIndex t w (s.extWord t w) = sigIdx s t w := by
  rw [State.sigIndex, sigIdx, hr.a1]
  split
  next h33 => rw [extWord_eq (qLen_eq_eight (by omega))]
  · rfl

theorem InSlot.sigDone_eq (hr : InSlot s t r) (st : Status) (v : Nat) : r.sigDone t w st v 0 =
    r.retire t (((s.thread t).setP (bits w 6 4) (st == .ok)).setG (qRd w) (if st = .ok then v else st.code)).issued (qLen w) 12 := by
  rw [Run.sigDone, hr.thread, Thread.setP_issued, Thread.setG_issued]

theorem InSlot.sigDone (hr : InSlot s t r) (st : Status) (v : Nat) :
    IsaFrame s (r.sigDone t w st v 0).s t ∧ (r.sigDone t w st v 0).s.thread t = sigResult s t w st v := by
  rw [hr.sigDone_eq]
  exact hr.retires _ _ _

/-- The result also stands after what the store has done. -/
theorem sigDone_thread {q : Run s} (hthread : q.s.thread t = (s.thread t).issued) (hcyc : q.s.cyc = s.cyc) (st : Status) (v : Nat) :
    (q.sigDone t w st v 0).s.thread t = sigResult s t w st v := by
  rw [Run.sigDone, hthread, Thread.setP_issued, Thread.setG_issued, Run.retire, setThread_same, hcyc]
  rfl

theorem sigDone_thread_ne (q : Run s) {j : Nat} (h : j ≠ t) (st : Status) (v k : Nat) :
    (q.sigDone t w st v k).s.thread j = q.s.thread j := setThread_ne q h _

theorem sigDone_sigRec (q : Run s) (st : Status) (v k j : Nat) : (q.sigDone t w st v k).s.sigRec j = q.s.sigRec j := rfl

theorem isaSigRead_nosuch (hr : InSlot s t r) (hi : 2 ^ 18 ≤ sigIdx s t w) (mode : Nat) :
    r.isaSigRead mode t w (s.extWord t w) = r.sigDone t w .nosuch 0 0 := by
  rw [Run.isaSigRead, hr.sigIndex, if_pos hi]

theorem isaSigRead_reads (hr : InSlot s t r) (hq : NoneWaits s) (hi : sigIdx s t w < 2 ^ 18) (hc : RecClean s (sigIdx s t w)) (mode : Nat) :
    let o := s.sigReadMode mode ((s.thread t).gr (qRs2 w) % 4) ((s.thread t).gr (qRs2 w)) (sigIdx s t w)
    r.isaSigRead mode t w (s.extWord t w) = r.sigDone t w o.status (o.stamp * 2 ^ 32 + o.val) 0 := by
  rw [Run.isaSigRead, hr.sigIndex, if_neg (Nat.not_le.2 hi), sigMeet_clean (hr.noneWaits hq) (hr.recClean hc),
    (hr.noneWaits hq).bankWait]
  dsimp only
  rw [hr.a2, hr.sees (State.sigReadMode · mode _ _ _) fun _ _ => rfl, Nat.shiftLeft_eq]

/-- A read of an index outside the store. -/
theorem sigReadMode_nosuch {i : Nat} (hi : 2 ^ 18 ≤ i) (mode e tau : Nat) : s.sigReadMode mode e tau i = { status := .nosuch } := by
  have hhist (e : Nat) : s.sigHist i e = { status := .nosuch } := if_pos hi
  have hasOf (interp : Bool) : s.sigAsOf i tau interp = { status := .nosuch } := if_pos hi
  unfold State.sigReadMode
  split
  · exact hhist _
  · exact hhist _
  · exact hasOf _
  · exact hasOf _

/-- A signal instruction that reads in one of the four ways. -/
theorem sigRead_answers {c : Instr} {q : QRow} {mode : Nat} (h : Issues s t w q)
    (hc : exec c s = ((Run.start s).issue t q (Run.isaSigRead mode)).done)
    (hext : qExtOk w (s.imem t ((s.thread t).pc + 4)) = true) (hq : NoneWaits s)
    (hclean : sigIdx s t w < 2 ^ 18 → RecClean s (sigIdx s t w)) : Answers c s fun u => IsaFrame s u t ∧
      let o := s.sigReadMode mode ((s.thread t).gr (qRs2 w) % 4) ((s.thread t).gr (qRs2 w)) (sigIdx s t w)
      u.thread t = sigResult s t w o.status (o.stamp * 2 ^ 32 + o.val) := by
  refine h.answers hc hext fun r hr => ?_
  by_cases hi : sigIdx s t w < 2 ^ 18
  · rw [isaSigRead_reads hr hq hi (hclean hi)]
    exact hr.sigDone _ _
  · rw [isaSigRead_nosuch hr (Nat.not_lt.1 hi), sigReadMode_nosuch (Nat.not_lt.1 hi)]
    exact hr.sigDone .nosuch 0

/-- The stamp of a signal write: given in rs2[63:32], or `now`. -/
def sigStamp (s : State) (t w : Nat) (given : Bool) : Nat := if given then (s.thread t).gr (qRs2 w) / 2 ^ 32 else s.now32

/-- The update of a signal write. -/
def sigUpd (s : State) (t w : Nat) (given : Bool) : SigUpd :=
  { idx := sigIdx s t w, val := (s.thread t).gr (qRs2 w) % 2 ^ 32, stamp := sigStamp s t w given, kind := 1, inst := t }

theorem isaSigWrite_nosuch (hr : InSlot s t r) (hi : 2 ^ 18 ≤ sigIdx s t w) (given : Bool) :
    r.isaSigWrite given t w (s.extWord t w) = r.sigDone t w .nosuch 0 0 := by
  rw [Run.isaSigWrite, hr.sigIndex, if_pos hi]

theorem isaSigWrite_writes (hr : InSlot s t r) (hq : NoneWaits s) (hi : sigIdx s t w < 2 ^ 18) (given : Bool) {q : Run s} {st : Status}
    (hw : r.sigWrite (sigUpd s t w given) = (q, st)) :
    r.isaSigWrite given t w (s.extWord t w) = q.sigDone t w st (sigStamp s t w given) 0 := by
  have hstamp : (if given then r.s.a2 t w >>> 32 else r.s.now32) = sigStamp s t w given := by
    rw [hr.a2, hr.now32, Nat.shiftRight_eq_div_pow, sigStamp]
  rw [Run.isaSigWrite]
  dsimp only
  rw [hr.sigIndex, if_neg (Nat.not_le.2 hi), hstamp, hr.a2, (hr.noneWaits hq).bankWait,
    show r.sigWrite { idx := sigIdx s t w, val := (s.thread t).gr (qRs2 w) % 2 ^ 32, stamp := sigStamp s t w given, kind := 1, inst := t } =
      (q, st) from hw]

/-- A write of an undefined signal. -/
theorem InSlot.writesUndefined (hr : InSlot s t r) (hq : NoneWaits s) (hi : sigIdx s t w < 2 ^ 18) (hc : RecClean s (sigIdx s t w))
    (hd : (s.sigRec (sigIdx s t w)).defined = false) (given : Bool) : let u := (r.isaSigWrite given t w (s.extWord t w)).s
    u.thread t = sigResult s t w .nosuch 0 ∧ MemKept s u ∧ u.sig = s.sig ∧ u.rb Reg.sigEvstat 2 = true := by
  have hmask : bit (implMask Reg.sigEvstat).toNat 2 = true := by decide +kernel
  have hd' : (r.s.sigRec (sigIdx s t w)).defined = false := by rw [State.sigRec, hr.sig]; exact hd
  have hw := sigWrite_undefined (u := sigUpd s t w given) (hr.noneWaits hq) (hr.recClean hc) hd'
  have hflag := flag_rb (r.count Reg.sigUndef 31 0) (show 2 < 32 by decide) hmask
  have hregs := ((count_onlyRegs r Reg.sigUndef 31 0).mono (m := [Reg.sigUndef, Reg.sigEvstat]) (by simp)).trans
    ((flag_onlyRegs (r.count Reg.sigUndef 31 0) Reg.sigEvstat 2).mono (by simp))
  rw [isaSigWrite_writes hr hq hi given hw]
  generalize (r.count Reg.sigUndef 31 0).flag Reg.sigEvstat 2 = q at hflag hregs
  refine ⟨?_, fun b => (hregs.memKept b).trans (hr.byte b), ?_, hflag⟩
  · exact sigDone_thread (by rw [State.thread, hregs.sp]; exact hr.thread) (by rw [hregs.1]; exact hr.cyc) .nosuch _
  · have hsig : q.s.sig = r.s.sig := by rw [hregs.1]
    exact hsig.trans hr.sig

/-- A write of a signal that accepts it and serves nobody. -/
theorem InSlot.writesAccepted (hr : InSlot s t r) (hq : NoneWaits s) (hi : sigIdx s t w < 2 ^ 18) (given : Bool) {x : SigUpd}
    (hx : sigUpd s t w given = x) (hc : RecClean s x.idx) (ha : Accepts s x)
    (hp : placeOf s.now32 (s.sigRec x.idx).hist x.stamp ≠ .late) : let u := (r.isaSigWrite given t w (s.extWord t w)).s
    CoreFrame s u t ∧ u.sp.ops = s.sp.ops ∧ SigsKept s u x.idx ∧ u.thread t = sigResult s t w .ok (sigStamp s t w given) ∧
      u.sigRec x.idx = s.recAfter x := by
  have hrec (j : Nat) : r.s.sigRec j = s.sigRec j := by rw [State.sigRec, hr.sig, State.sigRec]
  have hafter : r.s.recAfter x = s.recAfter x := hr.sees (State.recAfter · x) fun _ _ => rfl
  have ha' : Accepts r.s x := (hr.sees (Accepts · x) fun _ _ => rfl).mpr ha
  have hp' : placeOf r.s.now32 (r.s.sigRec x.idx).hist x.stamp ≠ .late := by
    rw [hr.now32, hrec]
    exact hp
  obtain ⟨q, hw, hset⟩ := sigWrite_accepted (hr.noneWaits hq) (hr.recClean hc) ha' hp'
  rw [hafter] at hset
  obtain ⟨⟨hmem, hregs, hothers⟩, hops, -⟩ := hr.frame
  rw [isaSigWrite_writes hr hq hi given (hx ▸ hw)]
  have hbyte (b : Nat) : q.s.byte b = r.s.byte b := by rw [hset]; rfl
  have hget (b : Nat) : q.s.rget b = r.s.rget b := by rw [hset]; rfl
  have hsp : q.s.sp = r.s.sp := by rw [hset]; rfl
  have hthread (j : Nat) : q.s.thread j = r.s.thread j := by rw [State.thread, hsp, State.thread]
  refine ⟨⟨fun b => (hbyte b).trans (hmem b), fun b h h' => (hget b).trans (hregs b h h'), fun j hj => ?_⟩,
    (congrArg SpSt.ops hsp).trans hops, fun j hj => ?_, ?_, ?_⟩
  · rw [sigDone_thread_ne q hj, hthread]
    exact hothers j hj
  · rw [sigDone_sigRec, hset, setSig_ne r hj, hrec]
  · exact sigDone_thread ((hthread t).trans hr.thread) (by rw [hset]; exact hr.cyc) .ok _
  · rw [sigDone_sigRec, hset]
    exact setSig_same ..

/-- Settles O23: reads by their way (`sigRead_answers`), writes by their index and their signal. -/
theorem signalInstructions : Obligations.SignalInstructions := by
  intro s t w x e i b result hext hquiet hclean
  have hq : NoneWaits s := ⟨hquiet.1, hquiet.2.1, hquiet.2.2.1⟩
  have hwrite {q : QRow} {c : Instr} {given : Bool} (h : Issues s t w q)
      (hc : exec c s = ((Run.start s).issue t q (Run.isaSigWrite given)).done) :
      (2 ^ 18 ≤ i → Answers c s fun u => IsaFrame s u t ∧ u.thread t = result .nosuch 0) ∧
      (i < 2 ^ 18 → (s.sigRec i).defined = false → Answers c s fun u => u.thread t = result .nosuch 0 ∧ MemKept s u ∧
        u.sig = s.sig ∧ u.rb Reg.sigEvstat 2 = true) ∧
      (i < 2 ^ 18 → Accepts s (sigUpd s t w given) → placeOf s.now32 (s.sigRec i).hist (sigStamp s t w given) ≠ .late →
        Answers c s fun u => CoreFrame s u t ∧ u.sp.ops = s.sp.ops ∧ SigsKept s u i ∧
          u.thread t = result .ok (sigStamp s t w given) ∧ u.sigRec i = { s.sigRec i with
            hist := placeIn (s.sigRec i).hist (sigStamp s t w given) (b % 2 ^ 32)
              (placeOf s.now32 (s.sigRec i).hist (sigStamp s t w given)) }) :=
    ⟨fun hi => h.answers hc hext fun r hr => by rw [isaSigWrite_nosuch hr hi]; exact hr.sigDone .nosuch 0,
      fun hi hd => h.answers hc hext fun r hr => hr.writesUndefined hq hi (hclean hi) hd given,
      fun hi ha hp => h.answers hc hext fun r hr => hr.writesAccepted hq hi given rfl (hclean hi) ha hp⟩
  refine ⟨?_, ?_⟩
  · rintro q c o (⟨rfl, rfl, rfl⟩ | ⟨rfl, rfl, rfl⟩ | ⟨rfl, rfl, rfl⟩ | ⟨rfl, rfl, rfl⟩) h
    · exact sigRead_answers (mode := 0) h rfl hext hq hclean
    · exact sigRead_answers (mode := 1) h rfl hext hq hclean
    · exact sigRead_answers (mode := 2) h rfl hext hq hclean
    · exact sigRead_answers (mode := 3) h rfl hext hq hclean
  · rintro q c stamp (⟨rfl, rfl, rfl⟩ | ⟨rfl, rfl, rfl⟩) h
    · exact hwrite (given := false) h rfl
    · exact hwrite (given := true) h rfl

end Sys2Proof.Machine
end
